-- ==== Sys2Proof/Word.lean ====
section
/-! DEFINITION. The word types of the Turpen: bytes, 32- and 64-bit words, and the 56-bit tick
(00_scope.md R2 and R4, 01_wings_and_tick.md R11). -/

namespace Sys2Proof

/-- Eight bits. -/
abbrev Byte := BitVec 8

/-- A 32-bit register word, position, key or claim number. -/
abbrev Word := BitVec 32

/-- A 64-bit register, payload or record word. -/
abbrev DWord := BitVec 64

/-- A value of the 56-bit tick counter (R11). -/
abbrev Tick := BitVec 56

end Sys2Proof
end

