-- ==== Sys2Proof/Syntax.lean ====
section
/-! DEFINITION. The commands of the block: one constructor of `Instr` per row of spec/opcode_table.json, and the
types of their operands. The operands are what crosses a boundary in that step: an aperture write, a beat, a
passage record, a memory response, a register access, a pin. -/

namespace Sys2Proof

/-- The two wings, by place (R7). -/
inductive WingId
  | east
  | west
  deriving DecidableEq, Repr

/-- A write into the doorbell aperture as the vestibule receives it (R29): `off` is the offset of its first byte in
the 16 MiB aperture; `data` and `strb` are its bytes from that offset on, byte 0 in bits [7:0]. -/
structure AptWrite where
  off : BitVec 24
  data : BitVec 256
  strb : BitVec 32
  pasidP : Bool
  pasid : BitVec 20
  req : Byte
  deriving DecidableEq, Repr

/-- What a voted read of a porch's triplicated state finds (R117): three equal copies, one copy that disagrees, or a
bit in which all three differ. The upset itself comes from outside. -/
inductive Vote
  | agree
  | corrected
  | split
  deriving DecidableEq, Repr

/-- TYPE of a journal entry (R116). -/
inductive EntryKind
  | claim
  | complete
  | ret
  deriving DecidableEq, Repr

/-- A journal or return-list entry (R116). `key` is SLICE [31:20] and VV [19:0]. -/
structure Entry where
  kind : EntryKind
  accTick : BitVec 6
  prio : Byte
  jseq : BitVec 16
  key : Word
  deriving DecidableEq, Repr

/-- Why a porch sends an EVENT beat (R121), with the two causes that R145 counts from porch beats. -/
inductive PorchEvent
  | voteFix
  | dupOffer
  | linkErr
  | claimBusy
  | portErr
  deriving DecidableEq, Repr

/-- ARRIVE (R241). -/
structure ArriveRec where
  alarm : Bool
  discard : Bool
  esc : Bool
  recheck : Bool
  regLo : Byte
  cls : BitVec 2
  cause : BitVec 2
  num : BitVec 12
  seq : Word
  key : Word
  chk : BitVec 16
  deriving DecidableEq, Repr

/-- CLAIM and COMPLETE (R243); `ret` and `synth` are used by CLAIM. -/
structure JournalRec where
  ret : Bool
  replay : Bool
  synth : Bool
  porch : Byte
  entry : Entry
  deriving DecidableEq, Repr

/-- CFG REGW (R244). -/
structure RegwRec where
  space : BitVec 2
  dualPend : Bool
  req : Byte
  addr : Word
  val : Word
  deriving DecidableEq, Repr

/-- CFG CMD (R244). -/
structure CmdRec where
  opcode : Byte
  result : Byte
  nExt : BitVec 2
  long : Bool
  fence : Bool
  v2 : Bool
  target : Word
  operand : DWord
  deriving DecidableEq, Repr

/-- CFG CMD_EXT (R244). -/
structure CmdExtRec where
  part : Byte
  ring : BitVec 12
  pos : Word
  data : DWord
  deriving DecidableEq, Repr

/-- CFG FINISH (R244). -/
structure FinishRec where
  result : Byte
  ring : BitVec 12
  hasLast : Bool
  pos : BitVec 16
  count : BitVec 16
  cfgw : Word
  status : BitVec 16
  lastCore : Byte
  nParam : Byte
  deriving DecidableEq, Repr

/-- CFG PARAM (R244). -/
structure ParamRec where
  off : Byte
  data : DWord
  deriving DecidableEq, Repr

/-- CFG DRAIN (R244). -/
structure DrainRec where
  port : BitVec 4
  pasid : BitVec 20
  gen : Byte
  deriving DecidableEq, Repr

/-- CFG LETTER (R244). `fromMgr` is DIR. -/
structure LetterRec where
  fromMgr : Bool
  slice : BitVec 12
  lseq : Word
  letter : DWord
  deriving DecidableEq, Repr

/-- CFG LEVEL (R244). -/
structure LevelRec where
  level : BitVec 2
  tick : Tick
  deriving DecidableEq, Repr

/-- CFG QUAR (R244). -/
structure QuarRec where
  recheck : Bool
  key : Word
  deriving DecidableEq, Repr

/-- STEER ACCEPT (R245). -/
structure AcceptRec where
  porch : Byte
  key : Word
  deriving DecidableEq, Repr

/-- STEER INSTALL (R245). -/
structure InstallRec where
  bank : BitVec 7
  slot : Byte
  key : Word
  tag : Word
  deriving DecidableEq, Repr

/-- STEER MODWIN (R245). -/
structure ModwinRec where
  win : BitVec 7
  key : Word
  deriving DecidableEq, Repr

/-- STEER TARGET (R245). -/
structure TargetRec where
  cluster : BitVec 5
  bank : BitVec 7
  slot : Byte
  key : Word
  coreset : Byte
  deriving DecidableEq, Repr

/-- STEER RESIDENCY (R245). -/
structure ResidencyRec where
  slice : BitVec 12
  count : BitVec 16
  prio : Byte
  deriving DecidableEq, Repr

/-- STEER CORESTATE (R245): `words` holds the four 16-bit words of cores 4g to 4g+3, core 4g in [15:0]. -/
structure CoreStateRec where
  group : BitVec 6
  rchkN : BitVec 16
  words : DWord
  deriving DecidableEq, Repr

/-- RINGPOS DOORBELL (R246). -/
structure DoorbellRec where
  slice : BitVec 12
  kind : BitVec 2
  pos : Word
  deriving DecidableEq, Repr

/-- RESYNC COPY (R246). -/
structure CopyRec where
  space : Byte
  pos : BitVec 48
  data : DWord
  deriving DecidableEq, Repr

/-- RESYNC FETCH (R246). -/
structure FetchRec where
  what : Byte
  origin : BitVec 16
  seqOrKey : Word
  deriving DecidableEq, Repr

/-- RESYNC ARRIVAL (R246). -/
structure ArrivalRec where
  part : Byte
  origin : BitVec 16
  seq : Word
  data : DWord
  deriving DecidableEq, Repr

/-- RESYNC FILL (R246). -/
structure FillRec where
  part : Byte
  bank : BitVec 7
  slot : Byte
  key : Word
  data : DWord
  deriving DecidableEq, Repr

/-- TICK_CLOSE (R247). -/
structure CloseRec where
  role : BitVec 2
  level : BitVec 2
  recovery : Bool
  fchk : BitVec 16
  claim : Word
  sig : Word
  digest : Word
  deriving DecidableEq, Repr

/-- A passage record of any kind (R240). -/
inductive Rec
  | nop
  | arrive (r : ArriveRec)
  | claim (r : JournalRec)
  | complete (r : JournalRec)
  | regw (r : RegwRec)
  | cmd (r : CmdRec)
  | cmdExt (r : CmdExtRec)
  | finish (r : FinishRec)
  | param (r : ParamRec)
  | drain (r : DrainRec)
  | letter (r : LetterRec)
  | level (r : LevelRec)
  | quar (r : QuarRec)
  | accept (r : AcceptRec)
  | install (r : InstallRec)
  | modwin (r : ModwinRec)
  | target (r : TargetRec)
  | residency (r : ResidencyRec)
  | coreState (r : CoreStateRec)
  | doorbell (r : DoorbellRec)
  | done (t : Tick)
  | copy (r : CopyRec)
  | fetch (r : FetchRec)
  | arrival (r : ArrivalRec)
  | fill (r : FillRec)
  | close (r : CloseRec)
  deriving DecidableEq, Repr

/-- A command descriptor less its OPCODE (R154, R155): `flags` is FLAGS [7:1], `rsv` is bytes 2 and 3 of a v2
descriptor, and a v1 descriptor supplies 0 for OPERAND2 and has its COOKIE in bits [15:0]. -/
structure CmdArgs where
  fence : Bool
  flags : BitVec 7
  rsv : BitVec 16
  target : Word
  operand : DWord
  operand2 : DWord
  cookie : DWord
  deriving DecidableEq, Repr

/-- What the save area reads as (R305): the words of SPACE 0, 1 and 2 by their place in the walk, those that are not
listed being 0, and the trailer. -/
structure SaveArea where
  words : List (Nat × DWord)
  trailer : BitVec 512
  deriving DecidableEq, Repr

/-- A register-port access (R360 to R363, R399): `alias_` is REG_ALIAS, `addr` the window offset. Lane i of `data` and
`strb` is the byte at the offset rounded down to 8, plus i; `save` is the save area as a write of START finds it in memory (R408). -/
structure RegAccess where
  alias_ : Bool
  addr : BitVec 16
  data : DWord
  strb : Byte
  req : Byte
  save : Option SaveArea := none
  deriving DecidableEq, Repr

/-- The SLICE_CUR of a RAISE beat, with the vote on the read that takes the raise from its queue (R117, R131). -/
structure RaiseRead where
  cur : BitVec 12
  vote : Vote
  deriving DecidableEq, Repr

/-- The vote on what a porch reads for a release, with the slot that a claim of the core in the same PCLK cycle has emptied, if there is
one: to the offers of that cycle it is not free (R135). -/
structure HeaderRead where
  vote : Vote
  taken : Option (BitVec 2)
  deriving DecidableEq, Repr

/-- The integrator's vote on the porches of a domain's power-down, with the votes on the reads of its porches (R117, R141). -/
structure DownRead where
  vote : Byte
  reads : List Vote
  deriving DecidableEq, Repr

/-- One of the two reads of a parameter block with its answer, none for ERROR (R182). -/
structure HalfRead where
  half : Bool
  rsp : Option (BitVec 512)
  deriving DecidableEq, Repr

/-- A voted field as a read finds it (R336, R337): the code of R336, the entry, and the errors that stand in each of the
three copies (a bit set where the copy is wrong). The widest field, a held first write, has 96 bits: VALUE, the requester identity
and the tick. -/
structure VoteFind where
  code : Byte
  index : Byte
  err0 : BitVec 96
  err1 : BitVec 96
  err2 : BitVec 96
  deriving DecidableEq, Repr

/-- An ECC error as a read finds it (R340, R341): the array code of R341, the physical unit (bank or scan slice) where one
holds the word, the word index within the array (the byte address for array 0x5), and whether it can be corrected. Array 0x6 holds two
kinds of list: a unit of 0 to 8 is the scan slice whose candidate list it is, and any other stands for a cluster list of the landing. -/
structure EccFind where
  array : BitVec 4
  unit : Byte
  index : Word
  corrected : Bool
  deriving DecidableEq, Repr

/-- A wake source of a wing in Nap (R301) or Deep (R306), coded as in PWR_WAKE.SOURCE (R315), with its DETAIL. -/
structure WakeCause where
  source : BitVec 4
  detail : BitVec 12
  deriving DecidableEq, Repr

/-- The commands: the operations and events of the part, one constructor per row of spec/opcode_table.json. -/
inductive Instr
  -- the aperture
  | nativeMessage (w : WingId) (a : AptWrite)
  | msiWrite (w : WingId) (a : AptWrite)
  | commandDoorbell (w : WingId) (a : AptWrite)
  | letterboxDoorbell (w : WingId) (a : AptWrite)
  | apertureRead (w : WingId)
  -- wired sources, raises, alarms
  | wiredSourceChange (w : WingId) (src : BitVec 10) (level : Bool)
  | raise (p : Byte) (arg : Word) (v : Vote)
  | raiseBeat (w : WingId) (p : Byte) (idx : BitVec 4) (r : RaiseRead)
  | alarmLatch (w : WingId) (line : BitVec 4)
  -- the tick
  | tickBoundary (w : WingId) (ecc : List EccFind)
  | windowEnd (w : WingId) (key : Word)
  -- the cellar
  | cellarReadReturn (w : WingId) (key : Word) (rsp : Option (BitVec 256))
  | standbyImageExpiry (w : WingId) (key : Word)
  | spillReturn (w : WingId) (slice : BitVec 12) (rsp : Option (BitVec 512))
  | writeBackAccepted (w : WingId) (key : Word) (ok : Bool)
  -- the study
  | moderationCount (w : WingId)
  | steerReevaluation (w : WingId)
  | strandingLimit (w : WingId) (slice : BitVec 12)
  -- beats at a porch, and beats at a wing
  | releaseHeader (p : Byte) (from_ : WingId) (hdr : BitVec 128) (offers : List (BitVec 97)) (v : HeaderRead)
  | claimRaise (p : Byte) (from_ : WingId) (claim : Word) (v : Vote)
  | init (p : Byte) (from_ : WingId) (beat : BitVec 128) (v : Vote)
  | acceptRsp (w : WingId) (p : Byte) (bits : BitVec 4) (held : List Word)
  | acceptRspTimeout (w : WingId) (p : Byte)
  | refuse (w : WingId) (p : Byte) (claim : Word)
  | entry (w : WingId) (p : Byte) (e : DWord)
  | status (w : WingId) (p : Byte) (st : BitVec 16)
  | slotReport (w : WingId) (p : Byte) (rep : DWord) (keys : List Word)
  | replayEnd (w : WingId) (p : Byte)
  | porchEvent (w : WingId) (p : Byte) (e : PorchEvent)
  -- core operations at a porch
  | claim (p : Byte) (op : BitVec 2) (arg : Word) (v : Vote)
  | vrRd (p : Byte) (v : Vote)
  | complete (p : Byte) (arg : Word) (v : Vote)
  | eoi (p : Byte) (waddr : BitVec 2) (data : Word) (v : Vote)
  | sliceCurReturn (p : Byte) (v : Vote)
  | porchDomainPowerDown (k : BitVec 5) (d : DownRead)
  | porchDomainPowerUp (k : BitVec 5) (pdVote : Byte)
  -- command rings
  | commandPoint (w : WingId)
  | descriptorReadReturn (w : WingId) (slice : BitVec 12) (pos : Word) (rsp : Option (BitVec 512))
  | nop (w : WingId) (ring : BitVec 12) (a : CmdArgs)
  | vecCfg (w : WingId) (ring : BitVec 12) (a : CmdArgs)
  | vecReset (w : WingId) (ring : BitVec 12) (a : CmdArgs)
  | vecQuery (w : WingId) (ring : BitVec 12) (a : CmdArgs)
  | vecComplete (w : WingId) (ring : BitVec 12) (a : CmdArgs)
  | pin (w : WingId) (ring : BitVec 12) (a : CmdArgs)
  | unpin (w : WingId) (ring : BitVec 12) (a : CmdArgs)
  | flush (w : WingId) (ring : BitVec 12) (a : CmdArgs)
  | sliceCreate (w : WingId) (ring : BitVec 12) (a : CmdArgs)
  | sliceShare (w : WingId) (ring : BitVec 12) (a : CmdArgs)
  | sliceQuiesce (w : WingId) (ring : BitVec 12) (a : CmdArgs)
  | sliceResume (w : WingId) (ring : BitVec 12) (a : CmdArgs)
  | sliceReset (w : WingId) (ring : BitVec 12) (a : CmdArgs)
  | sliceRemove (w : WingId) (ring : BitVec 12) (a : CmdArgs)
  | letterPost (w : WingId) (ring : BitVec 12) (a : CmdArgs)
  -- slice work and engines
  | parameterBlockRead (w : WingId) (slice : BitVec 12) (r : HalfRead)
  | creationWritesDone (w : WingId) (slice : BitVec 12)
  | releaseWaitEnd (w : WingId) (slice : BitVec 12)
  | quiesceFinish (w : WingId) (slice : BitVec 12)
  | drainLimit (w : WingId) (slice : BitVec 12)
  | drainRequestTaken (w : WingId) (port : BitVec 4)
  | drnDone (w : WingId) (port : BitVec 4) (pasid : BitVec 20) (gen : Byte)
  | filterEntryExpiry (w : WingId) (slice : BitVec 12) (tag : Word)
  | eventBlockWrite (w : WingId)
  -- the passage
  | block (w : WingId) (lane : BitVec 2) (bits : BitVec 2048) (late : Bool)
  | replay (w : WingId)
  | ackDeadline (w : WingId)
  | psgRxlock (w : WingId) (lane : BitVec 2) (lock : Bool)
  | trainingBlock (w : WingId) (lane : BitVec 2) (bits : BitVec 2048)
  | frameApplied (w : WingId)
  | arrive (w : WingId) (r : ArriveRec)
  | claimRecord (w : WingId) (r : JournalRec)
  | completeRecord (w : WingId) (r : JournalRec)
  | cfgRegw (w : WingId) (r : RegwRec)
  | cfgCmd (w : WingId) (r : CmdRec)
  | cfgCmdExt (w : WingId) (r : CmdExtRec)
  | cfgFinish (w : WingId) (r : FinishRec)
  | cfgParam (w : WingId) (r : ParamRec)
  | cfgDrain (w : WingId) (r : DrainRec)
  | cfgLetter (w : WingId) (r : LetterRec)
  | cfgLevel (w : WingId) (r : LevelRec)
  | cfgQuar (w : WingId) (r : QuarRec)
  | steerAccept (w : WingId) (r : AcceptRec)
  | steerInstall (w : WingId) (r : InstallRec)
  | steerModwin (w : WingId) (r : ModwinRec)
  | steerTarget (w : WingId) (r : TargetRec)
  | steerResidency (w : WingId) (r : ResidencyRec)
  | steerCorestate (w : WingId) (r : CoreStateRec)
  | ringposDoorbell (w : WingId) (r : DoorbellRec)
  | ringposDone (w : WingId) (t : Tick)
  | resyncCopy (w : WingId) (r : CopyRec)
  | resyncFetch (w : WingId) (r : FetchRec)
  | resyncArrival (w : WingId) (r : ArrivalRec)
  | resyncFill (w : WingId) (r : FillRec)
  | tickClose (w : WingId) (frame : Tick) (replayed : Bool) (r : CloseRec)
  | nopRecord (w : WingId)
  -- claims and takeover
  | standbyLost (w : WingId)
  | provisionalCommit (w : WingId)
  | takeover (w : WingId)
  | takeoverWrites (w : WingId)
  | recoveryModeEnd (w : WingId)
  | resyncStart (w : WingId)
  | resyncAbort (w : WingId)
  | resyncDone (w : WingId)
  | handoverSchedule (w : WingId)
  | handover (w : WingId)
  -- power
  | levelChoice (w : WingId)
  | levelChange (w : WingId) (vok : Bool)
  | studyVote (w : WingId)
  | napEntry (w : WingId)
  | napWake (w : WingId) (c : WakeCause)
  | napExit (w : WingId) (bad : List (BitVec 7)) (ecc : List EccFind)
  | deepEntry (w : WingId)
  | deepWake (w : WingId) (c : WakeCause) (save : Option SaveArea)
  | deepJoinTimeout (w : WingId) (save : Option SaveArea)
  -- the hearth
  | anchorWrite (w : WingId)
  | vbatCheck (w : WingId) (millivolt : BitVec 16)
  | hearthPowerUp (w : WingId)
  | hrtCalSet (w : WingId) (val : DWord)
  | timePair (w : WingId)
  -- integrity and spares
  | voteWalk (w : WingId) (finds : List VoteFind)
  | scrub (w : WingId) (finds : List EccFind)
  | signaturePass (w : WingId) (flips : List (Nat × Word))
  | wearWindowEnd (w : WingId)
  | bankMove (w : WingId)
  | scanSliceMove (w : WingId)
  -- registers
  | registerWrite (w : WingId) (a : RegAccess)
  | registerWriteAnswer (w : WingId)
  | readClear (w : WingId) (a : RegAccess)
  | indirectAccess (w : WingId) (write : Bool) (a : RegAccess)
  | snapNow (w : WingId)
  | snapBoundary (w : WingId)
  | lockBitSet (w : WingId) (a : RegAccess)
  | dualControlWrite (w : WingId) (a : RegAccess)
  | dualPendExpiry (w : WingId)
  -- bring-up
  | start (w : WingId) (req : Byte) (save : Option SaveArea)
  | startComplete (w : WingId)
  | wingReset (w : WingId)
  | wingResetRelease (w : WingId) (aptBase : BitVec 40) (portGen : BitVec 64)
  | keyDelivery (w : WingId) (key : BitVec 128)
  | rawEdge (w : WingId)
  | sliceCurChange (p : Byte) (cur : BitVec 12) (sleep : BitVec 2)
  | tickSyncBreak (w : WingId)
  | backupRailLoss
  | retentionMonitorTrip (w : WingId) (bank : BitVec 7)
  | recordWriteAccepted (w : WingId) (slice : BitVec 12) (pos : Word)
  deriving DecidableEq, Repr

end Sys2Proof
end

