-- ==== Sys2Proof/Decode.lean ====
section
/-! DEFINITION. The block has no instruction decoder: its commands are events on its boundary, and no row of
spec/opcode_table.json gives a command a word of bits. -/

namespace Sys2Proof

/-- The command that a word of the opcode table spells: no row of the table gives bits, so no word spells one. -/
def decodeTableWord (_nbits _w : Nat) : Option Instr := none

end Sys2Proof
end

