-- ==== Sys2Proof/Machine/Codes.lean ====
section
/-! DEFINITION. Byte order (00_scope.md R4) and the codes of the spec: CRC-32C of R268, CRC-16 and RS(240,224) of R228,
and AES-128-CMAC of R69. -/

namespace Sys2Proof.Machine

/-! ## Bytes -/

/-- The first `n` bytes of a field, least significant byte first (R4). -/
def bytesOf (n : Nat) {k : Nat} (v : BitVec k) : List Byte :=
  (List.range n).map fun i => v.extractLsb' (8 * i) 8

/-- A field of `k` bits from its bytes, least significant byte first. -/
def ofBytes (k : Nat) : List Byte → BitVec k
  | [] => 0
  | b :: bs => b.setWidth k ||| (ofBytes k bs) <<< 8

/-- Byte `i` of a field. -/
def byteAt {k : Nat} (v : BitVec k) (i : Nat) : Byte := v.extractLsb' (8 * i) 8

/-! ## CRC-32C (R268): Castagnoli, reflected, initial value all ones, result inverted -/

def crc32cPoly : Word := 0x82F63B78

/-- `n` steps of the reflected shift register. -/
def crcShift : Nat → Word → Word
  | 0, c => c
  | n + 1, c => crcShift n (if c.getLsbD 0 then (c >>> 1) ^^^ crc32cPoly else c >>> 1)

def crcByte (c : Word) (b : Byte) : Word := crcShift 8 (c ^^^ b.setWidth 32)

def crcBytes (c : Word) (bs : List Byte) : Word := bs.foldl crcByte c

/-- The CRC-32C of a byte sequence. -/
def crc32c (bs : List Byte) : Word := ~~~ (crcBytes 0xFFFFFFFF bs)

/-- The product of two polynomials modulo the CRC polynomial, both reflected: bit 31 is the coefficient of x^0. -/
def crcMul : Nat → Word → Word → Word → Word
  | 0, _, _, p => p
  | n + 1, a, b, p =>
      crcMul n (a <<< 1) (if b.getLsbD 0 then (b >>> 1) ^^^ crc32cPoly else b >>> 1) (if a.msb then p ^^^ b else p)

/-- x to the power `e`, by squaring; `fuel` bounds the bits of `e`. -/
def crcPow : Nat → Word → Nat → Word → Word
  | 0, _, _, acc => acc
  | f + 1, sq, e, acc =>
      crcPow f (crcMul 32 sq sq 0) (e / 2) (if e % 2 = 1 then crcMul 32 acc sq 0 else acc)

/-- The register after `n` zero bytes. -/
def crcZeros (n : Nat) (c : Word) : Word :=
  if n = 0 then c else crcMul 32 (crcPow 32 0x40000000 (8 * n) 0x80000000) c 0

/-- The register after the words of a sparse byte space: `ws` lists (byte offset, word) in rising order, every other byte is 0,
and the space ends at `len`. -/
def crcSparse (len : Nat) : Nat → Word → List (Nat × Word) → Word
  | at_, c, [] => crcZeros (len - at_) c
  | at_, c, (o, v) :: ws => crcSparse len (o + 4) (crcBytes (crcZeros (o - at_) c) (bytesOf 4 v)) ws

/-! ## CRC-16 (R228): x^16 + x^12 + x^5 + 1, initial value 0xFFFF, most significant bit first -/

def crc16Shift : Nat → BitVec 16 → BitVec 16
  | 0, c => c
  | n + 1, c => crc16Shift n (if c.msb then (c <<< 1) ^^^ 0x1021 else c <<< 1)

def crc16 (bs : List Byte) : BitVec 16 :=
  bs.foldl (fun (c : BitVec 16) (b : Byte) => crc16Shift 8 (c ^^^ ((b.setWidth 16 : BitVec 16) <<< (8 : Nat)))) 0xFFFF

/-! ## Arithmetic in GF(2^8) -/

/-- The product in the field whose polynomial has the low byte `red`. -/
def gfMulAux (red : Byte) : Nat → Byte → Byte → Byte → Byte
  | 0, _, _, p => p
  | n + 1, a, b, p =>
      gfMulAux red n (if a.msb then (a <<< 1) ^^^ red else a <<< 1) (b >>> 1) (if b.getLsbD 0 then p ^^^ a else p)

def gfMul (red : Byte) (a b : Byte) : Byte := gfMulAux red 8 a b 0

def gfPow (red : Byte) (a : Byte) : Nat → Byte
  | 0 => 1
  | n + 1 => gfMul red a (gfPow red a n)

/-- Square and multiply, for long exponents. -/
def gfPowFast (red : Byte) : Nat → Byte → Nat → Byte → Byte
  | 0, _, _, acc => acc
  | f + 1, sq, e, acc =>
      gfPowFast red f (gfMul red sq sq) (e / 2) (if e % 2 = 1 then gfMul red acc sq else acc)

/-- The inverse, a^254, with 0 for 0. -/
def gfInv (red : Byte) (a : Byte) : Byte := gfPowFast red 8 a 254 1

/-! ## RS(240,224) of R228, field polynomial x^8 + x^4 + x^3 + x^2 + 1 -/

def rsRed : Byte := 0x1D

def rsMul (a b : Byte) : Byte := gfMul rsRed a b

/-- α to the power `n`, with α = 0x02. -/
def rsAlpha (n : Nat) : Byte := gfPowFast rsRed 8 2 (n % 255) 1

/-- The product of a polynomial (highest coefficient first) and (x + r). -/
def rsMulRoot (r : Byte) (g : List Byte) : List Byte :=
  List.zipWith (· ^^^ ·) (g ++ [0]) (0 :: g.map (rsMul r))

/-- g(x) = (x + α^0) … (x + α^15), highest coefficient first. -/
def rsGen : List Byte := (List.range 16).foldl (fun g i => rsMulRoot (rsAlpha i) g) [1]

/-- The remainder of m(x)·x^16 by g(x), as a shift register of 16 bytes, coefficient of x^15 first. -/
def rsCheck (m : List Byte) : List Byte :=
  let tail := rsGen.drop 1
  m.foldl (fun r b =>
    let f := b ^^^ r.headD 0
    List.zipWith (fun x g => x ^^^ rsMul f g) (r.drop 1 ++ [0]) tail) (List.replicate 16 0)

/-- The value of a received word at `x`, highest coefficient first. -/
def rsEval (c : List Byte) (x : Byte) : Byte := c.foldl (fun a b => rsMul a x ^^^ b) 0

def rsSyndromes (c : List Byte) : List Byte := (List.range 16).map fun j => rsEval c (rsAlpha j)

/-- The state of the Berlekamp–Massey iteration; polynomials have their lowest coefficient first. -/
structure RsBM where
  lam : List Byte
  prev : List Byte
  len : Nat
  gap : Nat
  disc : Byte
  deriving DecidableEq, Repr

def polyAdd (a b : List Byte) : List Byte :=
  (List.range (max a.length b.length)).map fun i => a.getD i 0 ^^^ b.getD i 0

def rsBMStep (s : List Byte) (st : RsBM) (n : Nat) : RsBM :=
  let d := (List.range (st.len + 1)).foldl (fun a i => a ^^^ rsMul (st.lam.getD i 0) (s.getD (n - i) 0)) 0
  if d = 0 then { st with gap := st.gap + 1 }
  else
    let k := rsMul d (gfInv rsRed st.disc)
    let lam' := polyAdd st.lam (List.replicate st.gap 0 ++ st.prev.map (rsMul k))
    if 2 * st.len ≤ n then { lam := lam', prev := st.lam, len := n + 1 - st.len, gap := 1, disc := d }
    else { st with lam := lam', gap := st.gap + 1 }

def rsLocator (s : List Byte) : RsBM :=
  (List.range 16).foldl (rsBMStep s) { lam := [1], prev := [1], len := 0, gap := 1, disc := 1 }

/-- A polynomial with its lowest coefficient first, at `x`. -/
def polyEval (p : List Byte) (x : Byte) : Byte := p.foldr (fun c a => rsMul a x ^^^ c) 0

/-- The error value at the place whose locator is `x` (Forney). -/
def rsForney (lam om : List Byte) (x : Byte) : Byte :=
  let xi := gfInv rsRed x
  let dl := (List.range (lam.length - 1)).map fun i => if i % 2 = 0 then lam.getD (i + 1) 0 else 0
  rsMul x (rsMul (polyEval om xi) (gfInv rsRed (polyEval dl xi)))

/-- The codeword of 240 bytes at distance 8 or less from `c`, with the number of bytes corrected; none if there is none. -/
def rsDecode (c : List Byte) : Option (List Byte × Nat) :=
  let s := rsSyndromes c
  if s.all (· == 0) then some (c, 0)
  else
    let bm := rsLocator s
    let om := (List.range 16).map fun i =>
      (List.range (i + 1)).foldl (fun a j => a ^^^ rsMul (bm.lam.getD j 0) (s.getD (i - j) 0)) 0
    let fixed := (List.range 240).map fun j =>
      let x := rsAlpha (239 - j)
      if polyEval bm.lam (gfInv rsRed x) = 0 then c.getD j 0 ^^^ rsForney bm.lam om x else c.getD j 0
    let n := (List.zipWith (fun a b => if a = b then 0 else 1) c fixed).sum
    if (rsSyndromes fixed).all (· == 0) ∧ n ≤ 8 then some (fixed, n) else none

/-! ## AES-128 and CMAC (R69, NIST SP 800-38B) -/

def aesRed : Byte := 0x1B

def aesSub (b : Byte) : Byte :=
  let i := gfInv aesRed b
  i ^^^ i.rotateLeft 1 ^^^ i.rotateLeft 2 ^^^ i.rotateLeft 3 ^^^ i.rotateLeft 4 ^^^ 0x63

def xorBytes (a b : List Byte) : List Byte := List.zipWith (· ^^^ ·) a b

/-- The next round key from the last one (16 bytes) and the round constant. -/
def aesNextKey (k : List Byte) (rc : Byte) : List Byte :=
  let t := [aesSub (k.getD 13 0) ^^^ rc, aesSub (k.getD 14 0), aesSub (k.getD 15 0), aesSub (k.getD 12 0)]
  let w0 := xorBytes (k.take 4) t
  let w1 := xorBytes ((k.drop 4).take 4) w0
  let w2 := xorBytes ((k.drop 8).take 4) w1
  let w3 := xorBytes (k.drop 12) w2
  w0 ++ w1 ++ w2 ++ w3

def aesShiftRows (s : List Byte) : List Byte :=
  (List.range 16).map fun i => s.getD ((i + 4 * (i % 4)) % 16) 0

def aesMixCol (a b c d : Byte) : Byte := gfMul aesRed 2 a ^^^ gfMul aesRed 3 b ^^^ c ^^^ d

def aesMix (s : List Byte) : List Byte :=
  (List.range 16).map fun i =>
    let at_ (j : Nat) := s.getD (4 * (i / 4) + (i + j) % 4) 0
    aesMixCol (at_ 0) (at_ 1) (at_ 2) (at_ 3)

/-- Rounds 1 to 9 and the last round; `n` counts those left. -/
def aesRounds : Nat → Byte → List Byte → List Byte → List Byte
  | 0, _, _, s => s
  | n + 1, rc, k, s =>
      let k' := aesNextKey k rc
      let sub := aesShiftRows (s.map aesSub)
      aesRounds n (gfMul aesRed 2 rc) k' (xorBytes (if n = 0 then sub else aesMix sub) k')

/-- AES-128 of one block of 16 bytes. -/
def aes128 (key block : List Byte) : List Byte := aesRounds 10 1 key (xorBytes key block)

/-- Doubling in GF(2^128), most significant byte first. -/
def cmacDouble (b : List Byte) : List Byte :=
  let sh := (List.range 16).map fun i => (b.getD i 0 <<< 1) ||| (b.getD (i + 1) 0 >>> 7)
  if (b.headD 0).msb then sh.take 15 ++ [sh.getD 15 0 ^^^ 0x87] else sh

/-- CMAC over the blocks of a message whose last block may be short; `fuel` bounds the blocks. -/
def cmacBlocks (key k1 k2 : List Byte) : Nat → List Byte → List Byte → List Byte
  | 0, x, _ => x
  | f + 1, x, m =>
      if m.length ≤ 16 then
        let last := if m.length = 16 then xorBytes m k1
          else xorBytes (m ++ [0x80] ++ List.replicate (15 - m.length) 0) k2
        aes128 key (xorBytes x last)
      else cmacBlocks key k1 k2 f (aes128 key (xorBytes x (m.take 16))) (m.drop 16)

def aesCmac (key m : List Byte) : List Byte :=
  let k1 := cmacDouble (aes128 key (List.replicate 16 0))
  cmacBlocks key k1 (cmacDouble k1) (m.length / 16 + 1) (List.replicate 16 0) m

/-- The integrity tag of R69: the leftmost 32 bits of the CMAC over 28 bytes of the entry, the binding word and the domain
word; the first output byte is the first byte of the TAG field. -/
def integrityTag (key : BitVec 128) (entry : BitVec 224) (binding domain : Word) : Word :=
  ofBytes 32 ((aesCmac (bytesOf 16 key) (bytesOf 28 entry ++ bytesOf 4 binding ++ bytesOf 4 domain)).take 4)

end Sys2Proof.Machine
end

