-- ==== Sys2Proof/Machine/SMap.lean ====
section
/-! DEFINITION. Sparse maps: lists of (index, value) pairs in ONE canonical form, indexes strictly rising. The spec's
arrays (registers, slots, slices, origins, porches) are held so. A map with a default lists no entry equal to it. -/

namespace Sys2Proof.Machine

/-- A sparse map. -/
abbrev SMap (α : Type) := List (Nat × α)

namespace SMap

/-- The entry listed at index `k`. -/
def find? {α : Type} : SMap α → Nat → Option α
  | [], _ => none
  | (i, a) :: m, k => if i = k then some a else find? m k

/-- The map with `a` at index `k`, order kept. -/
def insert {α : Type} : SMap α → Nat → α → SMap α
  | [], k, a => [(k, a)]
  | (i, b) :: m, k, a =>
      if k < i then (k, a) :: (i, b) :: m
      else if k = i then (k, a) :: m
      else (i, b) :: insert m k a

/-- The map with nothing listed at index `k`. -/
def erase {α : Type} : SMap α → Nat → SMap α
  | [], _ => []
  | (i, b) :: m, k => if i = k then erase m k else (i, b) :: erase m k

/-- What index `k` holds, an unlisted index holding the default `d`. -/
def get {α : Type} (m : SMap α) (d : α) (k : Nat) : α := (find? m k).getD d

/-- The map after index `k` takes the value `a`: the default is never listed. -/
def set {α : Type} [DecidableEq α] (m : SMap α) (d : α) (k : Nat) (a : α) : SMap α :=
  if a = d then erase m k else insert m k a

/-- The indexes rise strictly, and all lie at or above `lo`. -/
def sortedFrom {α : Type} : Nat → SMap α → Bool
  | _, [] => true
  | lo, (i, _) :: m => lo ≤ i && sortedFrom (i + 1) m

/-- The canonical form of a map without a default. -/
def wf {α : Type} (m : SMap α) : Bool := sortedFrom 0 m

/-- The canonical form of a map with the default `d`. -/
def wfd {α : Type} [DecidableEq α] (m : SMap α) (d : α) : Bool :=
  sortedFrom 0 m && m.all fun e => !decide (e.2 = d)

/-- The values, in index order. -/
def values {α : Type} (m : SMap α) : List α := m.map Prod.snd

end SMap

end Sys2Proof.Machine
end

