-- ==== Sys2Proof/Machine/RegMap.lean ====
section
/-! DEFINITION. The register map of 15_register_map.md R386 to R398: where each register stands, which of its bits software
writes, what it holds after wing reset, and the signed space of 13_integrity_and_spares.md R343.

A word is named by its KEY: the window offset for a word of the wing window, 0x10000 plus the indirect address for a
word of the indirect space. With these keys the signed space of R343 is the keys below 0x90400, in order. -/

namespace Sys2Proof.Machine

/-- The key of the word at an indirect byte address. -/
def ikey (a : Nat) : Nat := 0x10000 + a

/-! ## Offsets of the window -/

def oWingCtrl : Nat := 0x0100
def oWingStatus : Nat := 0x0104
def oWingTick : Nat := 0x0108
def oBootParam : Nat := 0x0110
def oSnapCtrl : Nat := 0x0120
def oSnapStatus : Nat := 0x0128
def oIndAddr : Nat := 0x0130
def oIndCtrl : Nat := 0x0134
def oIndData : Nat := 0x0138
def oIndDataHi : Nat := 0x013C
def oDualPend : Nat := 0x0140
def oRegErrLog : Nat := 0x0148
def oCfgLock : Nat := 0x0150
def oVstStatus : Nat := 0x0200
def oVstRejectLog : Nat := 0x0208
def oEngineIdSet (w : Nat) : Nat := 0x0220 + 4 * w
def oEngCtrl : Nat := 0x0240
def oEngEsc : Nat := 0x0244
def oEngEscLog : Nat := 0x0248
def oEngFilterUsed : Nat := 0x0250
def oModCeiling : Nat := 0x0260
def oHallCtrl : Nat := 0x0300
def oCoreEn (w : Nat) : Nat := 0x0320 + 4 * w
def oPchFault : Nat := 0x0340
def oPsgCtrl : Nat := 0x0400
def oPsgStatus : Nat := 0x0404
def oPsgLane (l : Nat) : Nat := 0x0410 + 4 * l
def oTkoCtrl : Nat := 0x0500
def oTkoHome : Nat := 0x0504
def oTkoForce : Nat := 0x0508
def oTkoStatus : Nat := 0x050C
def oTkoClaim : Nat := 0x0510
def oTkoSeen : Nat := 0x0514
def oTkoStable : Nat := 0x0518
def oTkoWatermark : Nat := 0x0520
def oTkoHandover : Nat := 0x0528
def oTkoLog : Nat := 0x0530
def oTkoDigestTick : Nat := 0x0538
def oTkoDigestLog : Nat := 0x0540
def oPwrCtrl : Nat := 0x0600
def oPwrVote : Nat := 0x0604
def oPwrPchVote : Nat := 0x0608
def oPwrStatus : Nat := 0x060C
def oPwrPair : Nat := 0x0610
def oPwrSaveBase : Nat := 0x0618
def oPwrWake : Nat := 0x0620
def oPwrWakeTick : Nat := 0x0628
def oPwrRefuseLog : Nat := 0x0630
def oPchDomWake (k : Nat) : Nat := 0x0680 + 4 * k
def oAlmRoute (i : Nat) : Nat := 0x0700 + 4 * i
def oTimeLock : Nat := 0x0740
def oIntCtrl : Nat := 0x0800
def oIntWearCtrl : Nat := 0x0804
def oIntSigRun : Nat := 0x0808
def oIntSigPeer : Nat := 0x080C
def oIntSigRef : Nat := 0x0810
def oIntStatus : Nat := 0x0818
def oIntSigLog : Nat := 0x0820
def oIntSigVals : Nat := 0x0828
def oIntVoteLog : Nat := 0x0830
def oIntEccLog : Nat := 0x0838
def oCsetMask (k w : Nat) : Nat := 0x1000 + 32 * k + 4 * w
def oCsetAff (k : Nat) : Nat := 0x3000 + 4 * k

/-! ## Addresses of the indirect space (R395) -/

def aSrcCfg (i : Nat) : Nat := 8 * i
def aSweCfg (c i : Nat) : Nat := 0x2000 + 0x80 * c + 8 * i
def aCdir (s : Nat) : Nat := 0x10000 + 16 * s
def aRingTab (s : Nat) : Nat := 0x20000 + 32 * s
def aBind (s : Nat) : Nat := 0x40000 + 16 * s
def aCsAllow (s : Nat) : Nat := 0x50000 + 32 * s
def aPchImg (p : Nat) : Nat := 0x70000 + 4 * p
def aPchCfg (p : Nat) : Nat := 0x80000 + 4 * p
def aRepBank (b : Nat) : Nat := 0x90000 + 4 * b
def aRepSlice (s : Nat) : Nat := 0x90100 + 4 * s
def aRepPhysBank (p : Nat) : Nat := 0x90200 + 4 * p
def aRepPhysSlice (p : Nat) : Nat := 0x90400 + 4 * p
def aBankWake (b : Nat) : Nat := 0xA0000 + 4 * b
def aHrt : Nat := 0xB0000
def aHrtCalSet : Nat := 0xB0008
def aHrtStatus : Nat := 0xB0028
def aHrtCtrl : Nat := 0xB002C
def aHrtWake : Nat := 0xB0048
def aAlmStamp (i : Nat) : Nat := 0xB0100 + 16 * i

/-! ## Counters (R393) -/

/-- VST_REJ_ of a reason code of R46. -/
def cReject (code : Nat) : Nat := 0x4000 + 8 * code
def cRegistered : Nat := 0x4080
def cAdmitted : Nat := 0x4088
def cStaged : Nat := 0x4090
def cSpilled : Nat := 0x4098
def cReturned : Nat := 0x40A0
def cFetchWait : Nat := 0x40A8
def cSkew : Nat := 0x40B0
def cSpillStall : Nat := 0x40B8
def cApertureRead : Nat := 0x40C0
def cInstall : Nat := 0x4100
def cEvict : Nat := 0x4108
def cEvictDirty : Nat := 0x4110
def cBufHit : Nat := 0x4118
def cWriteback : Nat := 0x4120
def cNoVictim : Nat := 0x4128
def cReadRetry : Nat := 0x4130
def cReadFail : Nat := 0x4138
def cPeerFill : Nat := 0x4140
def cQuarantined : Nat := 0x4148
def cSpillLost : Nat := 0x4150
def cBadComplete : Nat := 0x4158
def cBadClaim : Nat := 0x4160
def cModDrop : Nat := 0x4168
def gResident : Nat := 0x4180
def gDirty : Nat := 0x4188
def gPinned : Nat := 0x4190
def cScans : Nat := 0x4200
def cListOver : Nat := 0x4208
def cMergeOver : Nat := 0x4210
def cSuperseded : Nat := 0x4218
def cOffers : Nat := 0x4220
def cCapWithheld : Nat := 0x4228
def cAlarmDisplace : Nat := 0x4230
def cEmptySet : Nat := 0x4238
def cSteerRefusal : Nat := 0x4240
def cSteerRetarget : Nat := 0x4248
def cSteerDefer : Nat := 0x4250
def cSteerDrop : Nat := 0x4258
def cResidency : Nat := 0x4260
def cWakeVote : Nat := 0x4268
def cOfferRefused : Nat := 0x4300
def cDupOffer : Nat := 0x4308
def cRspLate : Nat := 0x4310
def cClaimBusy : Nat := 0x4318
def cReturns : Nat := 0x4320
def cReplay : Nat := 0x4328
def cReplayDup : Nat := 0x4330
def cPchVoteFix : Nat := 0x4338
def cPortErr : Nat := 0x4340
def cLinkErr : Nat := 0x4348
def cEvrRecords : Nat := 0x4400
def cEvrRewrite : Nat := 0x4408
def cEvrHeld : Nat := 0x4410
def cRecheckLost : Nat := 0x4418
def cCmdAdmitted : Nat := 0x4420
def cCmdSucceeded : Nat := 0x4428
def cCmdFailed : Nat := 0x4430
def cCmdWait : Nat := 0x4438
def cCmdDbBad : Nat := 0x4440
def cCmdReadRetry : Nat := 0x4448
def cCmdRingHalt : Nat := 0x4450
def cSlcCreated : Nat := 0x4500
def cSlcResets : Nat := 0x4508
def cSlcRemoved : Nat := 0x4510
def cSlcDrainTimeout : Nat := 0x4518
def cSlcDiscard : Nat := 0x4520
def cLbxToMgr : Nat := 0x4528
def cLbxToSlice : Nat := 0x4530
def cLbxDrop : Nat := 0x4538
def cOutcomes : Nat := 0x4600
def cDupDrop : Nat := 0x4608
def cFilterEvict : Nat := 0x4610
def cFilterWait : Nat := 0x4618
def cEscalate : Nat := 0x4620
def cDrainReq : Nat := 0x4628
def cDrainDone : Nat := 0x4630
def cRecoveryTicks : Nat := 0x4638
def cBlkRx : Nat := 0x4700
def cBlkCorr (l : Nat) : Nat := 0x4708 + 8 * l
def cBytesCorr : Nat := 0x4728
def cBlkLost (l : Nat) : Nat := 0x4730 + 8 * l
def cHdrErr : Nat := 0x4750
def cFchkErr : Nat := 0x4758
def cNakTx : Nat := 0x4760
def cReplayTx : Nat := 0x4768
def cAckLate : Nat := 0x4770
def cLaneFail : Nat := 0x4778
def cArriveFill : Nat := 0x4780
def cTakeover : Nat := 0x4800
def cRecovery : Nat := 0x4808
def cStandbyLost : Nat := 0x4810
def cDemote : Nat := 0x4818
def cWithdraw : Nat := 0x4820
def cDigestMismatch : Nat := 0x4828
def cResyncStart : Nat := 0x4830
def cResyncDone : Nat := 0x4838
def cResyncAbort : Nat := 0x4840
def cReturn : Nat := 0x4848
def cReload : Nat := 0x4850
def cRecheck : Nat := 0x4858
def cReplayDefer : Nat := 0x4860
def cConfirmWake : Nat := 0x4868
def cTicksP (l : Nat) : Nat := 0x4900 + 8 * l
def cTicksDoze : Nat := 0x4920
def cLevelChanges : Nat := 0x4928
def cVfail : Nat := 0x4930
def cNapEntries : Nat := 0x4938
def cDeepEntries : Nat := 0x4940
def cWakeDuringEntry : Nat := 0x4948
def cRefuseEast : Nat := 0x4950
def cRefuseWest : Nat := 0x4958
def cRefusePassage : Nat := 0x4960
def cRefuseHearth : Nat := 0x4968
def cBankLost : Nat := 0x4970
def cVoteFix : Nat := 0x4A00
def cVoteSplit : Nat := 0x4A08
def cEccCorr : Nat := 0x4A10
def cEccUncorr : Nat := 0x4A18
def cSigPeer : Nat := 0x4A20
def cSigRef : Nat := 0x4A28
def cSigSelf : Nat := 0x4A30
def cSigPasses : Nat := 0x4A38
def cGiveWay : Nat := 0x4A40
def cMigrateBank : Nat := 0x4A48
def cMigrateSlice : Nat := 0x4A50
def cRetireLane : Nat := 0x4A58
def cSpareOut : Nat := 0x4A60
def cFenced : Nat := 0x4A68
def cRegErr : Nat := 0x4B00
def cDualExpire : Nat := 0x4B08
def cDualReject : Nat := 0x4B10
def cAliasDrop : Nat := 0x4B18
def cAliasApplied : Nat := 0x4B20

/-- The rows of R393, as (first offset, number of counters); the gauges are apart. -/
def counterRows : List (Nat × Nat) :=
  [(0x4008, 11), (0x4080, 9), (0x4100, 14), (0x4200, 14), (0x4300, 10), (0x4400, 11), (0x4500, 8), (0x4600, 8)
  , (0x4700, 1), (0x4708, 4), (0x4728, 1), (0x4730, 4), (0x4750, 7), (0x4800, 14), (0x4900, 4), (0x4920, 11)
  , (0x4A00, 14), (0x4B00, 5)]

/-- A counter stands at this window offset, which is a multiple of 8. -/
def isCounter (o : Nat) : Bool := o % 8 == 0 && counterRows.any fun r => r.1 ≤ o && o < r.1 + 8 * r.2

def isGauge (o : Nat) : Bool := o == gResident || o == gDirty || o == gPinned

/-- The offsets of all 150 counters and 3 gauges, rising. -/
def counterOffs : List Nat :=
  (List.range 0x180).map (fun i => 0x4000 + 8 * i) |>.filter fun o => isCounter o || isGauge o

/-! ## Mirrored words -/

/-- PORT_GEN of porch `p` in the strap: two bits per cluster of 8 porches (R399). -/
def portGenOf (pg : BitVec 64) (p : Nat) : BitVec 2 := pg.extractLsb' (2 * (p / 8)) 2

/-- What a mirrored word holds after wing reset (R386, R395). -/
def cfgDefault (pg : BitVec 64) (k : Nat) : Word :=
  if k < 0x10000 then
    if k = oEngCtrl then 0x0000000C
    else if k = oEngEsc then 0x0000000F
    else if k = oHallCtrl then 0x00100000
    else if 0x0320 ≤ k ∧ k < 0x0340 then 0xFFFFFFFF
    else if k = oPsgCtrl then 0x0000000F
    else if k = oTkoCtrl then 0x00000704
    else if k = oPwrCtrl then 0x00F4101C
    else if k = oPwrPchVote then 0xFFFFFFFF
    else if 0x0700 ≤ k ∧ k < 0x0740 then BitVec.ofNat 32 ((k - 0x0700) / 4)
    else if k = oIntCtrl then 0x00000003
    else if k = oIntWearCtrl then 0xFFB08810
    else if 0x1000 ≤ k ∧ k < 0x1020 then 0xFFFFFFFF
    else 0
  else if ikey 0x80000 ≤ k ∧ k < ikey 0x80400 then
    0x40#32 ||| (portGenOf pg ((k - ikey 0x80000) / 4)).setWidth 32
  else 0

/-- The bits of a word that software writes, of a mirrored word: RW, RL and RM fields (R364). 0 for every other word. -/
def rwMask (k : Nat) : Word :=
  if k < 0x10000 then
    if k = oBootParam then 0xFFFFFFC1
    else if k = oBootParam + 4 then 0xFFFFFFFF
    else if k = oCfgLock then 0x1
    else if 0x0220 ≤ k ∧ k < 0x0240 then 0xFFFFFFFF
    else if k = oEngCtrl then 0xFFFF000F
    else if k = oEngEsc then 0xF
    else if k = oModCeiling then 0xFF
    else if k = oHallCtrl then 0x00FF0107
    else if 0x0320 ≤ k ∧ k < 0x0340 then 0xFFFFFFFF
    else if k = oPsgCtrl then 0xF
    else if k = oTkoCtrl then 0x77F
    else if k = oTkoHome then 0x1
    else if k = oTkoForce then 0x3
    else if k = oPwrCtrl then 0x00FFFFFF
    else if k = oPwrVote then 0xF
    else if k = oPwrPchVote then 0xFFFFFFFF
    else if k = oPwrSaveBase then 0xFFE00001
    else if k = oPwrSaveBase + 4 then 0xFFFFFFFF
    else if 0x0700 ≤ k ∧ k < 0x0740 then 0xFFFFFFFF
    else if k = oTimeLock then 0x3
    else if k = oIntCtrl then 0x103
    else if k = oIntWearCtrl then 0xFFF8FFFF
    else if k = oIntSigRef then 0xFFFFFFFF
    else if k = oIntSigRef + 4 then 0x80000000
    else if 0x1000 ≤ k ∧ k < 0x3000 then 0xFFFFFFFF
    else if 0x3000 ≤ k ∧ k < 0x3400 then 0xFB
    else 0
  else if k < ikey 0x2000 then (if k % 8 = 0 then 0xFFFFFFFF else 0x7)
  else if k < ikey 0xA000 then (if k % 8 = 0 then 0xFFFFFFFF else 0x1)
  else if ikey 0x80000 ≤ k ∧ k < ikey 0x80400 then 0xF0
  else 0

/-- The bits that the wing itself sets in a mirrored register (TKO_HANDOVER and PWR_PAIR, R285 and R315): carried as REGW
records, read-only at the port. -/
def hwMask (k : Nat) : Word :=
  if k = oTkoHandover then 0xFFFFFFFF
  else if k = oTkoHandover + 4 then 0x80FFFFFF
  else if k = oPwrPair then 0xFFFFFFFF
  else if k = oPwrPair + 4 then 0x83FFFFFF
  else 0

/-- The bits of a word that stay set once written (R375): ENGINE_LOCK, CAL_LOCK and ROUTE_LOCK, REF_LOCK. -/
def lockMask (k : Nat) : Word :=
  if k = oCfgLock then 0x1 else if k = oTimeLock then 0x3 else if k = oIntCtrl then 0x100 else 0

/-- The registers under dual control (R376), by their place in DUAL_PEND (R384). -/
def dualBit (k : Nat) : Option Nat :=
  if 0x0700 ≤ k ∧ k < 0x0740 ∧ k % 4 = 0 then some ((k - 0x0700) / 4)
  else if k = oEngEsc then some 16
  else if k = oTkoForce then some 17
  else if k = oTkoHome then some 18
  else none

/-- A mirrored register stands at this key. -/
def isMirrored (k : Nat) : Bool := rwMask k != 0

/-- The checks of R223, R285, R315 and R357 on the value that would result; the other registers have none. -/
def valueOk (k : Nat) (v : Word) : Bool :=
  if k = oEngCtrl then decide (8 ≤ (v.extractLsb' 0 4).toNat)
  else if k = oTkoCtrl then decide (2 ≤ (v.extractLsb' 0 7).toNat) && decide ((v.extractLsb' 0 7).toNat ≤ 64)
  else if k = oPwrCtrl then decide ((v.extractLsb' 0 2).toNat ≤ (v.extractLsb' 2 2).toNat)
  else if k = oPwrVote then (v.extractLsb' 0 2 != 3#2) && (v.extractLsb' 2 2 != 3#2)
  else if k = oIntWearCtrl then
    decide (16 ≤ (v.extractLsb' 19 5).toNat) && decide ((v.extractLsb' 19 5).toNat ≤ 26)
  else true

/-! ## The signed space (R343) -/

/-- The word belongs to the signed space as a register of its own (the slice registers are views of the slices). -/
def isSigned (k : Nat) : Bool :=
  k != oIntCtrl && k != oIntSigRef && k != oIntSigRef + 4 &&
    (rwMask k != 0 || (ikey 0x70000 ≤ k && k < ikey 0x70400))

/-- Keys whose reset value is not 0, rising. -/
def nonzeroKeys : List Nat :=
  [oEngCtrl, oEngEsc, oHallCtrl] ++ (List.range 8).map oCoreEn ++ [oPsgCtrl, oTkoCtrl, oPwrCtrl, oPwrPchVote] ++
    (List.range 15).map (fun i => oAlmRoute (i + 1)) ++ [oIntWearCtrl] ++ (List.range 8).map (oCsetMask 0) ++
    (List.range 256).map (fun p => ikey (aPchCfg p))

/-- The registers of the signed space that are not 0. `eff` lists the words in force that differ from their reset value; PCH_IMG
is the image of PCH_CFG (R396), except for the words that a joining wing took from SPACE 1 and has not loaded yet. -/
def regSigned (pg : BitVec 64) (eff : SMap Word) : SMap Word :=
  let own := (nonzeroKeys.filter fun k => (SMap.find? eff k).isNone).map fun k => (k, cfgDefault pg k)
  let ws : SMap Word := eff.foldl (fun m e =>
    if isSigned e.1 && rwMask e.1 != 0 && e.2 != 0 then SMap.insert m e.1 e.2 else m) own
  let porch := ws.filter fun e => ikey 0x80000 ≤ e.1
  let low := ws.filter fun e => e.1 < ikey 0x70000
  let img := (eff.filter fun e => ikey 0x70000 ≤ e.1 && e.1 < ikey 0x70400).foldl
    (fun m e => SMap.set m 0 e.1 e.2) (porch.map fun e => (e.1 - 0x10000, e.2))
  low ++ img ++ porch

/-- The signature of a signed space given by its words that are not 0 (R344). -/
def signatureOf (ws : SMap Word) : Word := ~~~ (crcSparse 590848 0 0xFFFFFFFF ws)

/-- The signature of the configuration after wing reset (R357, R386). -/
def resetSignature (pg : BitVec 64) : Word := signatureOf (regSigned pg [])

/-! ## Constant registers (R387) -/

/-- ID_BUILD and the other identity words that no integration changes. -/
def idWord (o : Nat) : Option Word :=
  if o = 0x0000 then some 0x5A441040
  else if o = 0x0004 then some 0x01000000
  else if o = 0x0010 then some 0x01000400
  else if o = 0x0014 then some 0x10041020
  else if o = 0x0018 then some 0x10004000
  else if o = 0x001C then some 0x40040801
  else if o = 0x0020 then some 0x20001000
  else if o = 0x0024 then some 0x01000020
  else none

end Sys2Proof.Machine
end

