-- ==== Sys2Proof/Config.lean ====
section
/-! DEFINITION. What an implementation or an integration fixes, and the free values that the spec leaves
open. A free value is a constant without a body: nothing can be proved of its value. -/

namespace Sys2Proof

/-- FREE VALUE (log 10, UNVERIFIED, safe). 05_porches.md R143: a porch in FAULT answers an operation already taken "with NONE or
ERROR", and the text does not say which. `true` stands for ERROR. Applied to the counter `State.free`. -/
opaque Config.faultAnswerIsError : Nat → Bool

/-- DESIGN CHOICE (log 2, unsafe). STRAP_APT_BASE as a wing shows it before it has sampled its straps at the release of its
reset (16_boundary_and_bringup.md R402 gives no value for that time). -/
def Config.aptBaseBeforeStrap : BitVec 40 := 0

/-- DESIGN CHOICE (log 2, unsafe). STRAP_PORT_GEN before the straps are sampled: every cluster 0b10, the claim port (R402). -/
def Config.portGenBeforeStrap : BitVec 64 := 0xAAAAAAAAAAAAAAAA#64

end Sys2Proof
end

