-- ==== Sys2Proof/Machine/State.lean ====
section
/-! DEFINITION. The state of the block: two wings with their hearths, 256 porches, what the last step drove on the
boundary, and the queue of commands that wait. Every field names the rule of spec/ that gives it. -/

namespace Sys2Proof.Machine

/-- Why the block would stop with a fault. It has no constructor: the spec gives the block no fault that stops it. Errors are
register answers, CMD_ERR codes, rejections and log entries, all of them next states. Safe. -/
inductive Fault
  deriving DecidableEq, Repr

/-- Why a command has no next state. -/
inductive Refusal
  /-- Raised by an arm of `exec` whose command has no meaning yet, under its mnemonic. Safe. -/
  | notModelled (mnemonic : String)
  deriving DecidableEq, Repr

/-- Roles of R259. -/
inductive Role
  | active
  | standby
  | joining
  | orphan
  deriving DecidableEq, Repr

/-- Performance levels of R12. -/
inductive Level
  | p0
  | p1
  | p2
  | p3
  deriving DecidableEq, Repr

/-- The SRAM assist of a wing (R288). -/
inductive Assist
  | off             -- P0 and P1
  | underdrive      -- wordline underdrive, P2
  | underdriveWrite -- wordline underdrive and write assist, P3
  | retention       -- the pantry in retention, Nap
  | none_           -- Deep
  deriving DecidableEq, Repr

/-- The run state of a wing (R293, R299 to R306, R405). -/
inductive Life
  | held        -- WING_RST_N is 0
  | keyWait     -- reset steps 1 and 2 done, until the boundary of step 4
  | run         -- Run or Doze
  | napEntry    -- from E to the end of R299 step 4
  | nap
  | deepEntry
  | deep
  | deepWake    -- R306, steps 1 to 4 done, waiting in JOINING
  | outOfService -- a failed restore (R306)
  deriving DecidableEq, Repr

/-- Vector states of R61. -/
inductive VState
  | idle
  | pending
  | presented
  | active
  | activePending
  | completed
  deriving DecidableEq, Repr

/-- Slice states of R177. -/
inductive SlState
  | unbound
  | creating
  | running
  | quiescing
  | quiesced
  | resetting
  | removing
  deriving DecidableEq, Repr

/-- A vector's context (R67, R72). `pin` is the PIN of the manager's commands; the pin of an alarm route follows the routes (R78). `gotNative` says that a native message was counted since COUNT was last 0 (implied by
R57); `touched` is the tick of the last change, from which AGE is read; `dirtyAt` the tick it became dirty (R80);
`wbFresh` that nothing changed since its write-back was issued (R81); `poisoned` is R341. HELD of R72 is read from the staged
arrivals. -/
structure Ctx where
  key : Word
  cfg : Word
  state : VState
  hasLast : Bool
  modWin : BitVec 7
  lastCore : Byte
  payload : DWord
  count : BitVec 16
  arrTick : Tick
  modEnd : Tick
  tag : Word
  gotNative : Bool
  dirty : Bool
  pin : Bool
  touched : Tick
  dirtyAt : Tick
  wbFresh : Bool
  poisoned : Bool
  deriving DecidableEq, Repr

/-- A steering entry (R102). -/
structure Steer where
  valid : Bool
  target : BitVec 5
  unplaced : BitVec 3
  deriving DecidableEq, Repr

/-- An occupied pantry slot with its steering entry. -/
structure Slot where
  ctx : Ctx
  steer : Steer
  deriving DecidableEq, Repr

/-- An observation (R42): origin, sequence, target, and the content of the arrival. `ctrl` is CTRL [24:0] of R31, `swe` the
outcome of R40 as judged at registration (R417), `chk` the CHK of R241. -/
structure Obs where
  cls : BitVec 2
  num : BitVec 12
  seq : Word
  key : Word
  reg : Tick
  ctrl : BitVec 25
  engStatus : BitVec 16
  jobTag : Word
  payload : DWord
  carries : Bool
  req : Byte
  pasidP : Bool
  pasid : BitVec 20
  off : BitVec 12
  swe : Bool
  chk : BitVec 16
  deriving DecidableEq, Repr

/-- A wing's spill ring of one slice (R52): positions, what it holds beside the memory image, for each return read in flight
the number of entries that it fetches, and the positions whose observation a standby has discarded (R44). -/
structure Spill where
  head : Nat
  tail : Nat
  items : List Obs
  reads : List Nat
  retried : Bool
  dead : List Nat
  deriving DecidableEq, Repr

/-- A terminal-event filter entry (R209); `poisoned` is R341. -/
structure FilterEnt where
  slice : BitVec 12
  jobTag : Word
  tick : Tick
  poisoned : Bool
  deriving DecidableEq, Repr

/-- What a wing that does not admit saw of a wired source or a raise, kept until the entries that it registers under are known (R417). -/
inductive RawEvent
  | wired (src : Nat) (level : Bool)
  | raise (p : Byte) (idx : Nat) (cur : BitVec 12)
  deriving DecidableEq, Repr

/-- The vestibule (R27 to R59): `inbuf` is the message input buffer with the writes that the interconnect
holds behind it, each with whether APT_TAKEN was pulsed for it. With the watch logic's latches (R300) and the filter (R209). `doomed` names arrivals whose fetch failed twice
(R70), `spillLost` those whose spill entry did, `returned` those that came back from a spill ring (R59), and `poison` those that the wing cannot read (R341). `sentArr` is the content of the
arrivals in frames that are not acknowledged yet, from which R242 is answered, with the tick of the frame. `escDue` is the messages that
were rejected and whose escalation waits for budget (R214), `filterWaited` says that an outcome waited in this tick for a filter entry
(R212), `drnWait` is the drain reports that wait, each with the number of
messages that are to be registered before it (R220), `escObs` what the escalation of a discarded arrival named, whose discard follows
(R242), `samples` is the levels at the boundary that opened each tick whose frame before is not applied yet (R37), and `raws` what
came in those ticks. -/
structure Vest where
  inbuf : List (AptWrite × Bool)
  seqs : SMap Word
  staged : List Obs
  sentArr : List (Tick × Obs)
  spill : SMap Spill
  rr : BitVec 12
  arrLeft : Nat
  clmLeft : Nat
  cmpLeft : Nat
  cred : SMap Nat
  doomed : List (BitVec 2 × BitVec 12 × Word)
  spillLost : List (BitVec 2 × BitVec 12 × Word)
  returned : List (BitVec 2 × BitVec 12 × Word)
  poison : List (BitVec 2 × BitVec 12 × Word)
  levels : SMap Bool
  samples : List (Tick × SMap Bool)
  raws : List (Tick × RawEvent)
  escDue : List Obs
  filterWaited : Bool
  drnWait : List (BitVec 4 × BitVec 20 × Byte × Nat)
  escObs : Option Obs
  resamp : List Nat
  resumed : List (BitVec 12)
  filter : SMap FilterEnt
  underCmd : List (BitVec 12)
  stallSeen : Bool
  stallSlice : BitVec 12
  napSrc : List Nat
  napRaise : SMap (BitVec 12)
  deriving DecidableEq, Repr

/-- Why a cellar read was issued (R73, R75, R279, R311). `repin` says that the directory showed the manager's pin of a vector that is
read again into another slot (R78, R355). -/
inductive FetchCause
  | arrival
  | cmd (ring : BitVec 12) (pos : Word)
  | route (line : Nat)
  | observed
  | install (slot : Nat) (tag : Word)
  | reload (slot : Nat) (uncertain : Bool)
  | repin
  deriving DecidableEq, Repr

/-- An outstanding or waiting cellar read (R70). -/
structure Fetch where
  key : Word
  causes : List FetchCause
  issued : Bool
  retried : Bool
  deriving DecidableEq, Repr

/-- An image that was read and waits for a slot (R74), or is held by a standby (R75). -/
structure Image where
  ctx : Ctx
  tick : Tick
  causes : List FetchCause
  deriving DecidableEq, Repr

/-- A slot whose context is being rebuilt from the cellar or by fills (R279, R311): what the directory keeps of it. `copied`
says that it is part of a resync walk, `lostBank` that its bank was lost as a whole (R311), and `uncertain` is R279's or R341's. -/
structure Reload where
  slot : Nat
  key : Word
  pin : Bool
  steer : Steer
  uncertain : Bool
  copied : Bool
  lostBank : Bool
  parts : SMap DWord
  deriving DecidableEq, Repr

/-- The pantry with its cellar port (R65 to R86). `recent` is the images installed in frames that are not acknowledged yet, with
the frame's tick and the slot, from which the peer's fills are served (R70). `wbuf` holds each write with the tick in which its context became dirty (R80). `noVictim` says that an install waited in this tick for a slot (R74). -/
structure Pantry where
  slots : SMap Slot
  fenced : List Nat
  quar : List Word
  recent : List (Tick × Nat × Ctx)
  fetches : List Fetch
  waiting : List Image
  images : List Image
  wbuf : List (Word × BitVec 256 × Tick)
  reloads : List Reload
  routes : SMap Word
  noVictim : Bool
  deriving DecidableEq, Repr

/-- Committed state of one core (R90). -/
structure CoreSt where
  cur : BitVec 12
  sleep : BitVec 2
  on : Bool
  fault : Bool
  deriving DecidableEq, Repr

/-- A ranked image (R87): slots, core state, configuration in force, routes, and the slices whose vectors are no
candidates (R180), at the close of a tick. -/
structure RankImg where
  tick : Tick
  slots : SMap Slot
  cores : SMap CoreSt
  eff : SMap Word
  routes : SMap Word
  muted : List (BitVec 12)
  deriving DecidableEq, Repr

/-- The hall and the study (R87 to R115, R84); `half` is the slots that the lists of the latest half-rotation hold (R17), `conf` is the configuration in force in the tick whose image is taken next (R88), `dropped` is the slots whose candidate entry the next ranking leaves out (R341), `base` the state after the last frame that the
wing applied before it took the active role (R173), and `resuming` that the pinned vectors lost in a sleep are read again before the ranking
goes on (R78). -/
structure Hall where
  conf : SMap Word
  img0 : Option RankImg
  img1 : Option RankImg
  accOpen : List (Word × Byte)
  cores : SMap CoreSt
  digest : Word
  offered : SMap (List (BitVec 97))
  p3since : Tick
  modN : SMap Nat
  modAcc : List Word
  modQ : List (Word × BitVec 7)
  nextCount : Tick
  refusals : List TargetRec
  periodic : List TargetRec
  seen64 : List Word
  half : List Nat
  backlog : SMap Nat
  wakeVotes : BitVec 32
  confirmVote : Bool
  resident : List (BitVec 12 × BitVec 16 × Byte)
  dropped : List Nat
  base : Option RankImg
  resuming : Bool
  deriving DecidableEq, Repr

/-- What a wing keeps of each porch (R123, R132 to R139). `jseqCommit` is LAST_JSEQ of R134, 0xFFFF for a porch that is not
listed (R406); `jseqAt` is what it was at the close of the latest ticks, from which COMMIT is read. `replay` is the entries of each
replay that are not applied yet, `ended` the porches among them whose REPLAY_END has come, `turned` the porches that have turned to the
wing while it was not active, and `slotRep` what slot reports name
that is not settled yet. -/
structure PorchSide where
  entries : SMap (List Entry)
  status : SMap (BitVec 16)
  jseqAt : List (Tick × SMap (BitVec 16))
  jseqCommit : SMap (BitVec 16)
  late : List Nat
  slotRep : SMap (List (Word × Byte))
  replay : SMap (List Entry)
  ended : List Nat
  turned : List Nat
  deferred : List (Byte × Entry)
  rr : Nat
  initDue : List Nat
  deriving DecidableEq, Repr

/-- A command descriptor with its opcode (R154, R155). -/
structure Desc where
  opcode : Byte
  args : CmdArgs
  v2 : Bool
  deriving DecidableEq, Repr

/-- A command that was admitted and has not finished (R160, R272); `at_` is the tick in which it was admitted, or started again
after a takeover; `applied` says that a later command of the frame already stands behind its finish (R161). -/
structure UCmd where
  pos : Word
  opcode : Byte
  target : Word
  operand : DWord
  operand2 : DWord
  cookie : DWord
  at_ : Tick
  applied : Bool
  deriving DecidableEq, Repr

/-- Where a long slice command stands (R183, R194). -/
inductive JobPhase
  | reading
  | writing
  | waiting
  | written
  deriving DecidableEq, Repr

/-- The job of a long slice command (R183, R188, R191, R195): `left` is the memory writes not yet issued, `got` the halves of the parameter
block that are read, and `retried` those that were read again (R182). -/
structure Job where
  pos : Word
  opcode : Byte
  phase : JobPhase
  param : BitVec 1024
  left : Nat
  got : List Bool
  retried : List Bool
  deriving DecidableEq, Repr

/-- A ring-header image less its TICK (R149). -/
structure HdrImg where
  evtTail : Word
  cmdHead : Word
  cmdFinished : Word
  flags : Word
  recheckLost : Word
  deriving DecidableEq, Repr

/-- A descriptor read in flight (R157): the first position that it fetches, how many, and whether it was issued again. -/
structure DescRead where
  first : Word
  count : Nat
  retried : Bool
  deriving DecidableEq, Repr

/-- One slice (R65, R146, R177, R197, R202 and the slice runtime of R272). `hdr` is the ring-header image that this wing wrote last
(R150), none if it has written none since it took the active role, and `hdrWait` the image that is formed and not yet written,
with the tick in which it was formed. `posted` is the letters of commands that follow the finish of a slice command in
the frame under formation. -/
structure SliceSt where
  state : SlState
  gen : Byte
  pasid : BitVec 20
  msiUntagged : Bool
  drainTimeout : Bool
  qfull : Bool
  inbox : List DWord
  posted : List DWord
  outbox : List (Word × Word)
  lseq : Word
  maxCtx : BitVec 15
  guarCtx : BitVec 15
  credit : BitVec 7
  stageShare : BitVec 14
  csAllow : BitVec 256
  vtBase : DWord
  vtLog2 : BitVec 5
  spBase : DWord
  spLog2 : BitVec 5
  cmdBase : DWord
  cmdVer : Bool
  cmdLog2 : BitVec 5
  evtBase : DWord
  evtLog2 : BitVec 5
  hdrBase : DWord
  stopTick : Tick
  quiesceTick : Tick
  drained : BitVec 16
  strand : Nat
  strandTold : Bool
  cmdTail : Word
  cmdHead : Word
  evtTail : Word
  evtHead : Word
  wpos : Word
  cmdFinished : Word
  ringHalt : Bool
  cmdWait : Bool
  heldFlag : Bool
  recheckLost : Word
  hdr : Option HdrImg
  hdrWait : Option (HdrImg × Tick)
  ucmds : List UCmd
  descs : List (Word × Desc)
  descReads : List DescRead
  failPos : Option Word
  keptTail : Option (BitVec 24)
  keptHead : Option (BitVec 24)
  job : Option Job
  deriving DecidableEq, Repr

/-- A block of event records (R170): acceptances with their keys, then commit-time records in frame order; `ring` is the
slice whose event ring receives the record. PHASE is laid in when the record is written. -/
structure EvBlock where
  tick : Tick
  accs : List (BitVec 12 × BitVec 97 × BitVec 256)
  commits : List (BitVec 12 × BitVec 256)
  deriving DecidableEq, Repr

/-- What a completion reports beside its code (R167): COUNT, the ENG_STATUS field, the CFG word, and LAST_CORE. -/
structure Report where
  count : BitVec 16
  status : BitVec 16
  cfgw : Word
  hasLast : Bool
  lastCore : Byte
  deriving DecidableEq, Repr

/-- A finish that is decided and waits for its place in a frame (R158, R160). -/
structure FinDue where
  ring : BitVec 12
  pos : Word
  result : Byte
  rep : Report
  param : BitVec 1024
  deriving DecidableEq, Repr

/-- The ring engine (R146 to R176); `waited` says that a command waited in this tick for room in its event ring (R175). `blockReads` is the
reads of parameter blocks that are outstanding (R20, R181): the slice, the half, and whether the job that asked still stands. -/
structure RingEng where
  finDue : List FinDue
  blocks : List EvBlock
  recsOrd : List (BitVec 12 × BitVec 256)
  recsDef : List (BitVec 12 × BitVec 256)
  recOut : List (BitVec 12 × Word × Tick)
  rr : BitVec 12
  cmdBuf : Option CmdRec
  extBuf : Option CmdExtRec
  finBuf : Option FinishRec
  params : SMap DWord
  written : List EvBlock
  waited : Bool
  blockReads : List (BitVec 12 × Bool × Bool)
  deriving DecidableEq, Repr

/-- Lane roles of R250. -/
inductive LaneRole
  | down
  | training
  | spare
  | carry
  | retired
  deriving DecidableEq, Repr

/-- One lane as a wing holds it (R250 to R255). `pos` is the frame and block that the next block on the lane is, where the lane
carries frames (R228). -/
structure Lane where
  role : LaneRole
  fails : BitVec 4
  peerRxbad : Bool
  rxbad : Bool
  rxlock : Bool
  peerLocked : Bool
  locked : Bool
  good : Nat
  shown : Nat
  lostRun : Nat
  corrAt : DWord
  lostAt : DWord
  naks : Nat
  pos : Option (Tick × Nat)
  deriving DecidableEq, Repr

/-- A frame that was closed: its records by group, in the order in which they take slots (R229 to R234), and the blocks that replays
took (R239); `rxbad` is the RXBAD of its headers, which replays keep (R238). FCHK of `close` is laid in lane by lane. -/
structure Frame where
  tick : Tick
  map : BitVec 4
  acc : List Rec
  ord : List Rec
  defr : List Rec
  rsy : List Rec
  replays : Nat
  rxbad : BitVec 4
  close : CloseRec
  deriving DecidableEq, Repr

/-- A frame as it is received (R234 to R237). `map` is its LANE_MAP, none until a header of it was good. Blocks stand under
4 times the block plus the lane, which is their order in the frame: `data` is the blocks in, `skip` the positions that replays of
other blocks took. Records stand under 14 times that plus the slot: `took` is the slots whose records were applied, `accTook` how
many ACCEPT records are among them, and `recs` the records in that are still to be applied. -/
structure RxFrame where
  tick : Tick
  map : Option (BitVec 4)
  accN : Byte
  data : SMap (BitVec 1792)
  skip : List Nat
  took : List Nat
  accTook : Nat
  recs : SMap Rec
  deriving DecidableEq, Repr

/-- A lost block: frame tick, lane, block (R237). -/
structure LostBlk where
  tick : Tick
  lane : BitVec 2
  blk : BitVec 3
  deriving DecidableEq, Repr

/-- The content of an arrival as ARRIVAL records bring it, by part; `asked` says that this wing asked for it (R242), and otherwise
it belongs to the backlog (R274). -/
structure ArrFill where
  origin : BitVec 16
  seq : Word
  asked : Bool
  parts : SMap DWord
  deriving DecidableEq, Repr

/-- The passage side of a wing (R225 to R256). `ctxFills` is the contexts that it asked its peer for, with the parts that came;
`hold` is the records of a frame that wait behind a fill or an install, in frame order (R235). `ackClosed` says that the deadline of
R13 has passed in this tick and `ackLate` that an acknowledgement of the frame before it came behind that deadline, `peerActive`
that the peer's latest TICK_CLOSE had ROLE active, `closes` is the first TICK_CLOSE of each frame not applied yet, for the digest
(R269), `spareSent` the replays that took block positions of the spare in this tick (R238), and `replaySent` those that took positions of the
frame, of the `replays` that it makes room for (R239). `naked` is the blocks of the frames in `sent` that the standby has named lost (R350),
and `lastMap` the LANE_MAP of the last frame sent or received (R255). -/
structure Passage where
  lanes : SMap Lane
  map : BitVec 4
  acc : List Rec
  ord : List Rec
  defr : List Rec
  rsy : List Rec
  copies : List Rec
  accOwed : Nat
  sent : List Frame
  nakq : List LostBlk
  rx : List RxFrame
  lost : List LostBlk
  ackValid : Bool
  ack : Tick
  ackedValid : Bool
  acked : Tick
  missing : Nat
  hb : Bool
  hbMiss : Nat
  peerJoining : Bool
  ctxFills : List (Word × SMap DWord)
  arrFills : List ArrFill
  hold : List (Tick × Rec)
  withheld : Bool
  replays : Nat
  ackClosed : Bool
  ackLate : Bool
  peerActive : Bool
  closes : List (Tick × CloseRec)
  spareSent : Nat
  replaySent : Nat
  naked : List LostBlk
  lastMap : BitVec 4
  deriving DecidableEq, Repr

/-- Provisional frames after a change to simplex (R260): the releases since then, and whether a porch has answered. -/
structure Prov where
  releases : Nat
  answered : Bool
  deriving DecidableEq, Repr

/-- Claims, takeover and return (R257 to R286), the tick counter (R322), and the state of a START (R388). `tkoPhase` is 0 to 3 in
the ticks T to T+3 of R263, and 8 and 9 in the ticks H+1 and H+2 of a new active wing (R283), and `tkoTick` the tick T or H+1 of that
takeover, near which its reports are restored (R113, R264); `joinTick` is the frame of the
walk's last word; `tickDue` is the value with which a tick counter starts at the next boundary (R324, R408), `rawWait` a rebuild that waits for
a raw edge, with the saved tick of E (R324), and `saved` the save area as a wing that wakes from Deep will read it (R306); `returning` says that the handover which the wing has scheduled is a
return (R282), and `holdRelease` holds every release back (R342). -/
structure Ctl where
  claim : Word
  seen : Word
  role : Role
  duplex : Bool
  seenActive : Bool
  booting : Bool
  bootChecked : Bool
  bootCode : Byte
  ready : Bool
  tsyncErr : Bool
  tick : Tick
  hasTick : Bool
  tickDue : Option Tick
  rawWait : Option (Option Tick)
  saved : Option SaveArea
  syncCount : DWord
  reconciled : Bool
  suspect : Bool
  digestErr : Bool
  digestRun : Nat
  withdrawals : List Tick
  withdrawAt : Option Tick
  tkoPhase : Option Nat
  tkoTick : Tick
  writesHeld : Bool
  answered : Bool
  refused : Bool
  prov : Option Prov
  sendPos : Option Nat
  backlog : List Rec
  joinPos : Option Nat
  joinTick : Tick
  aligned : SMap Tick
  mark : Bool
  rsySilent : Nat
  recovery : Bool
  stable : Word
  digestFrom : Tick
  giveWay : Bool
  returning : Bool
  spentNext : Bool
  holdRelease : Bool
  deriving DecidableEq, Repr

/-- A held first write under dual control (R376); `at_` is a tick, or a count of TICK_SYNC periods before the wing holds a tick
counter (R378). -/
structure DualHeld where
  addr : Nat
  val : Word
  req : Byte
  at_ : DWord
  deriving DecidableEq, Repr

/-- A kept alias copy (R381): its 32-bit halves as (key, mask of the written bits, data), in address order, with PATH and STROBES of
R384. -/
structure RegCopy where
  halves : List (Nat × Word × Word)
  req : Byte
  tick : Tick
  path : BitVec 2
  strb : Byte
  deriving DecidableEq, Repr

/-- The mirrored write that holds the register port until the frame of its records commits (R367), with what its words and the pending
first writes were before it. -/
structure HeldWrite where
  recs : List RegwRec
  req : Byte
  path : BitVec 2
  strb : Byte
  old : List (Nat × Word)
  dual : List DualHeld
  deriving DecidableEq, Repr

/-- The register file (R360 to R398): mirrored words as stored and as in force, by key (window offset or `ikey`), counters and
holding registers by window offset, and the local registers and logs. `portQueue` is the accesses that wait behind the held write,
and the writes that a wing in Nap holds (R300), each with whether it writes. `srcOld` is the wired entries that the frame's records
change, as they stood before it (R38), and `sweNew` the porches whose raise entries they change. -/
structure Regs where
  cfg : SMap Word
  eff : SMap Word
  dual : List DualHeld
  ctr : SMap DWord
  hold : SMap DWord
  indAddr : Word
  indPeek : Bool
  indInc : Bool
  indCap : Option (Nat × Word)
  snapSeq : Byte
  snapTick : Tick
  snapPend : Bool
  regErrLog : DWord
  aliasKept : List RegCopy
  portHeld : Option HeldWrite
  portQueue : List (Bool × RegAccess)
  srcOld : SMap DWord
  sweNew : List Nat
  vstRejectLog : DWord
  engEscLog : DWord
  pchFault : Word
  tkoLog : DWord
  tkoDigTick : DWord
  tkoDigLog : DWord
  deriving DecidableEq, Repr

/-- Levels, sleep and votes (R287 to R316). `bias` is the body bias in millivolts, forward positive, and `divider` what divides the PLL's output,
0 without a wing clock (R287, R288); `vok` is PWR_VOK as checked at the close of tick L-1, none before; `lastL` the L of the
last change; `given` the budget with which the tick opened, `demand` and `dmax` the greatest demand of the current and of the last 64
ticks (R292); `quiet` the ticks for which the Turpen has been quiet, `studyNap` the study's vote coded as in PWR_VOTE; `sched` the
change of state that this wing does at a tick, coded as NEXT of PWR_PAIR, `enterTick` the E of the current sleep, and `sleepAt` the
boundary at which its steps are done at the earliest (R299, R305); `pendWake` a
wake that is kept, and whether it came during entry (R302, R304); `wbRetried` the vectors whose write-back failed once in this entry (R299); `want` a level that the study chose and that
the frame of the next tick names (R292). `saveAt` is the tick in which an entry to Deep issued the writes of the save area, `offAt` the
boundary at which its step 4 ends (R305), `waitFrom` the tick from which a woken wing waits for its home wing (R306), and `domFirst` for
each porch domain that is off the first of the wing's own votes that rose since (R313). -/
structure Power where
  level : Level
  vsel : BitVec 3
  bias : Int
  assist : Assist
  divider : Nat
  vok : Option Bool
  next : Option (Level × Tick)
  lastL : Tick
  slowRun : Nat
  given : Nat
  demand : Nat
  dmax : Nat
  quiet : DWord
  studyNap : BitVec 2
  doze : Bool
  vfail : Bool
  bankLost : Bool
  restoreFail : Bool
  wake : Word
  wakeTick : DWord
  refuseLog : DWord
  domWake : SMap Word
  bankWake : SMap Word
  domOn : BitVec 32
  tripped : List (BitVec 7)
  lostOnce : List Nat
  enterTick : Tick
  sleepAt : Tick
  sched : Option (BitVec 2 × Tick)
  pendWake : Option (Bool × WakeCause)
  wbRetried : List Word
  want : Option Level
  saveAt : Option Tick
  offAt : Option Tick
  waitFrom : Tick
  domFirst : SMap Word
  deriving DecidableEq, Repr

/-- A physical bank or scan slice (R358). STATE is 0 SPARE, 1 IN_SERVICE, 2 MIGRATING, 3 RETIRED, 4 DOUBLED. -/
structure Phys where
  wear : BitVec 16
  fenced : BitVec 9
  uncorr : BitVec 4
  state : BitVec 3
  deriving DecidableEq, Repr

/-- A move of a pantry bank or of a scan slice that is under way: the worn unit, its spare, the boundary from which the spare is
initialised, and the tick in which the copy scan began (R352, R353). -/
structure UnitMove where
  slice : Bool
  old : Nat
  spare : Nat
  ready : Tick
  scan : Option Tick
  deriving DecidableEq, Repr

/-- Integrity and spares (R336 to R359). A bank stands in `worn` and `outCounted` under its physical number, a scan slice under 128
plus its number, and a lane under 192 plus its number; `lostTwice` is the
banks of R312. `sigs` is the signatures of the latest ticks (R344), `compared` the latest frames whose first TICK_CLOSE was decoded
(R346), `passAt` the tick in which the signature pass under way began, and `passMiss` what upsets of words that it has read already add to
the signature (R345). -/
structure Integ where
  repBank : SMap Nat
  repSlice : SMap Nat
  physBank : SMap Phys
  physSlice : SMap Phys
  worn : List Nat
  lostTwice : List Nat
  sigRun : Word
  sigPeer : Word
  sigs : List (Tick × Word)
  compared : List Tick
  passAt : Tick
  passMiss : Word
  peerMis : Bool
  refMis : Bool
  voteSplit : Bool
  eccUncorr : Bool
  cfgLost : Bool
  sigSelf : Bool
  spareOut : Bool
  spent : Bool
  outCounted : List Nat
  move : Option UnitMove
  sigLog : DWord
  sigVals : DWord
  voteLog : DWord
  eccLog : DWord
  deriving DecidableEq, Repr

/-- An alarm latch (R328). -/
structure Latch where
  set : Bool
  stamped : Bool
  stampRaw : DWord
  stampCal : BitVec 63
  ever : Bool
  again : BitVec 4
  deriving DecidableEq, Repr

/-- What the port shows of the hearth between two raw edges, as captured at the latest edge (R334, R374): the anchor, the SET bits, the flags
of HRT_STATUS and HRT_WAKE. The other registers change at raw edges only. -/
structure HrtShown where
  ancValid : Bool
  ancTick : Tick
  ancRaw : DWord
  alm : BitVec 16
  timeLost : Bool
  vbatLow : Bool
  fresh : Bool
  wake : Word
  deriving DecidableEq, Repr

/-- The hearth (R317 to R334), on the backup supply. `powered` is 0 from a loss of its state to its next power-up; `railLow` is
the result of the latest comparison with 2.0 V, from which R303 refuses an entry to Deep. -/
structure Hearth where
  powered : Bool
  cal : BitVec 63
  raw : DWord
  calSet : BitVec 63
  calPend : Bool
  ancValid : Bool
  ancTick : Tick
  ancRaw : DWord
  latches : SMap Latch
  pairPend : Bool
  pairCal : BitVec 63
  pairRaw : DWord
  pairTick : Tick
  pairValid : Bool
  timeLost : Bool
  vbatLow : Bool
  fresh : Bool
  wake : Word
  railLow : Bool
  shown : HrtShown
  deriving DecidableEq, Repr

/-- What a step drives on the boundary or on the links between its parts (R399). -/
inductive Out
  | w2p (from_ : WingId) (p : Byte) (typ : BitVec 4) (data : BitVec 128)
  | p2w (p : Byte) (to_ : WingId) (typ : BitVec 4) (data : DWord)
  | p2wAccept (p : Byte) (to_ : WingId) (bits : BitVec 4) (held : List Word)
  | p2wRefuse (p : Byte) (to_ : WingId) (claim : Word)
  | p2wEvent (p : Byte) (to_ : WingId) (e : PorchEvent)
  | cpRsp (p : Byte) (rsp : BitVec 2) (data : BitVec 41)
  | vrRsp (p : Byte) (stat : BitVec 3) (data : Word)
  | regRsp (w : WingId) (ok : Bool) (data : DWord)
  | memRead (w : WingId) (addr : DWord) (len : Nat) (tag : Byte)
  | memWrite (w : WingId) (addr : DWord) (len : Nat) (data : BitVec 512) (tag : Byte)
  | save (w : WingId) (base : DWord) (area : SaveArea)
  | aptTaken (w : WingId)
  | aptCredit (w : WingId)
  | aptRead (w : WingId)
  | frame (w : WingId) (f : Frame)
  | blockOut (w : WingId) (lane : BitVec 2) (bits : BitVec 2048)
  | psgEn (w : WingId) (lanes : BitVec 4)
  | hrtDeep (w : WingId) (on : Bool)
  | drn (w : WingId) (port : BitVec 4) (pasid : BitVec 20) (gen : Byte)
  deriving DecidableEq, Repr

/-- Bits [6:0] of MEM_REQ_TAG of the next read and of the next write (R399): the numbers go round (DESIGN CHOICE, log 120). -/
structure MemTags where
  read : BitVec 7
  write : BitVec 7
  deriving DecidableEq, Repr

/-- One wing (R7). -/
structure Wing where
  id : WingId
  life : Life
  aptBase : BitVec 40
  portGen : BitVec 64
  key : BitVec 128
  keyValid : Bool
  regs : Regs
  ctl : Ctl
  vst : Vest
  pan : Pantry
  hall : Hall
  pch : PorchSide
  sl : SMap SliceSt
  ring : RingEng
  drn : SMap (List (BitVec 20 × Byte × Bool))
  psg : Passage
  pwr : Power
  int : Integ
  hrt : Hearth
  mem : MemTags
  out : List Out
  deriving DecidableEq, Repr

/-- An offer slot of a porch (R116): the key, RTICK, and the tick boundaries at which it was found not presentable because
of SLICE_CUR since the first such (R126). -/
structure PSlot where
  key : BitVec 97
  rtick : Byte
  hidden : Option Nat
  deriving DecidableEq, Repr

/-- A core operation that waits untaken for READY (R130, R140): on the claim port with CP_OP and CP_ARG, or a write on the
vector-read port. -/
inductive WaitOp
  | cp (op : BitVec 2) (arg : Word)
  | vr (waddr : BitVec 2) (data : Word)
  deriving DecidableEq, Repr

/-- One porch (R116 to R145). `raiseE` and `raiseW` are the RAISE beats that have left the raise queue and that the wing has not taken yet.
An operation waits with the vote on its reads, and with whether the porch answers it ERROR if that splits (R143). -/
structure Porch where
  on : Bool
  up : Bool
  fault : Bool
  slots : List (Option PSlot)
  journal : List Entry
  rets : List Entry
  claimE : Option Word
  claimW : Option Word
  jseq : BitVec 16
  journalled : Bool
  rpHdr : BitVec 9
  shift : BitVec 3
  coreEn : Bool
  cfg : Word
  raiseq : List (BitVec 4 × BitVec 12)
  raiseE : List (BitVec 4 × BitVec 12)
  raiseW : List (BitVec 4 × BitVec 12)
  cur : BitVec 12
  sleep : BitVec 2
  waiting : List (WaitOp × Vote × Bool)
  deriving DecidableEq, Repr

/-- The whole block, the outputs of the step just taken, the MODEL's own counter behind free values, and the commands that
wait, first in first out. -/
structure State where
  east : Wing
  west : Wing
  porches : SMap Porch
  out : List Out
  free : Nat
  pending : List Instr
  deriving DecidableEq, Repr

/-! ## Reset values -/

def Report.zero : Report := { count := 0, status := 0, cfgw := 0, hasLast := false, lastCore := 0 }

def Steer.reset : Steer := { valid := false, target := 0, unplaced := 0 }

def CoreSt.reset : CoreSt := { cur := 0, sleep := 0, on := false, fault := false }

def Spill.reset : Spill := { head := 0, tail := 0, items := [], reads := [], retried := false, dead := [] }

def HdrImg.reset : HdrImg := { evtTail := 0, cmdHead := 0, cmdFinished := 0, flags := 0, recheckLost := 0 }

/-- A slice after wing reset (R177, R202). -/
def SliceSt.reset : SliceSt :=
  { state := .unbound, gen := 0, pasid := 0, msiUntagged := false, drainTimeout := false, qfull := false
    inbox := [], posted := [], outbox := [], lseq := 0, maxCtx := 0, guarCtx := 0, credit := 0, stageShare := 0, csAllow := 0
    vtBase := 0, vtLog2 := 0, spBase := 0, spLog2 := 0, cmdBase := 0, cmdVer := false, cmdLog2 := 0
    evtBase := 0, evtLog2 := 0, hdrBase := 0, stopTick := 0, quiesceTick := 0, drained := 0
    strand := 0, strandTold := false, cmdTail := 0, cmdHead := 0, evtTail := 0, evtHead := 0, wpos := 0
    cmdFinished := 0, ringHalt := false, cmdWait := false, heldFlag := false, recheckLost := 0
    hdr := some HdrImg.reset, hdrWait := none, ucmds := [], descs := [], descReads := [], failPos := none
    keptTail := none, keptHead := none, job := none }

def Lane.reset : Lane :=
  { role := .down, fails := 0, peerRxbad := false, rxbad := false, rxlock := false, peerLocked := false
    locked := false, good := 0, shown := 0, lostRun := 0, corrAt := 0, lostAt := 0, naks := 0, pos := none }

def Vest.reset : Vest :=
  { inbuf := [], seqs := [], staged := [], sentArr := [], spill := [], rr := 0, arrLeft := 0, clmLeft := 0
    cmpLeft := 0, cred := [], doomed := [], spillLost := [], returned := [], poison := [], levels := [], samples := [], raws := [], escDue := [], filterWaited := false
    drnWait := [], escObs := none, resamp := [], resumed := [], filter := [], underCmd := []
    stallSeen := false, stallSlice := 0, napSrc := [], napRaise := [] }

def Pantry.reset : Pantry :=
  { slots := [], fenced := [], quar := [], recent := [], fetches := [], waiting := [], images := [], wbuf := []
    reloads := [], routes := [], noVictim := false }

def Hall.reset : Hall :=
  { conf := [], img0 := none, img1 := none, accOpen := [], cores := [], digest := 0, offered := [], p3since := 0
    modN := [], modAcc := [], modQ := [], nextCount := 0, refusals := [], periodic := [], seen64 := [], half := []
    backlog := [], wakeVotes := 0, confirmVote := false, resident := [], dropped := [], base := none, resuming := false }

def PorchSide.reset : PorchSide :=
  { entries := [], status := [], jseqAt := [], jseqCommit := [], late := [], slotRep := []
    replay := [], ended := [], turned := [], deferred := [], rr := 0, initDue := [] }

def RingEng.reset : RingEng :=
  { finDue := [], blocks := [], recsOrd := [], recsDef := [], recOut := [], rr := 0, cmdBuf := none
    extBuf := none, finBuf := none, params := [], written := [], waited := false, blockReads := [] }

def Passage.reset : Passage :=
  { lanes := [], map := 0, acc := [], ord := [], defr := [], rsy := [], copies := [], accOwed := 0, sent := []
    nakq := [], rx := [], lost := [], ackValid := false, ack := 0, ackedValid := false, acked := 0, missing := 0
    hb := false, hbMiss := 0, peerJoining := false, ctxFills := [], arrFills := []
    hold := [], withheld := false, replays := 0, ackClosed := false, ackLate := false, peerActive := false, closes := []
    spareSent := 0, replaySent := 0, naked := [], lastMap := 0 }

/-- Claim number after wing reset: 0 east, 1 west (R257). -/
def resetClaim : WingId → Word
  | .east => 0
  | .west => 1

def Ctl.reset (id : WingId) : Ctl :=
  { claim := resetClaim id, seen := resetClaim id, role := .joining, duplex := false
    seenActive := false, booting := false, bootChecked := false, bootCode := 0xFF, ready := false
    tsyncErr := false, tick := 0, hasTick := false, tickDue := none, rawWait := none, saved := none, syncCount := 0, reconciled := false, suspect := false
    digestErr := false, digestRun := 0, withdrawals := [], withdrawAt := none, tkoPhase := none, tkoTick := 0
    writesHeld := false, answered := false, refused := false, prov := none, sendPos := none
    backlog := [], joinPos := none, joinTick := 0, aligned := [], mark := false, rsySilent := 0
    recovery := false, stable := 0, digestFrom := 0, giveWay := false, returning := false, spentNext := false
    holdRelease := false }

def Regs.reset : Regs :=
  { cfg := [], eff := [], dual := [], ctr := [], hold := [], indAddr := 0, indPeek := false, indInc := true
    indCap := none, snapSeq := 0, snapTick := 0, snapPend := false, regErrLog := 0, aliasKept := []
    portHeld := none, portQueue := [], srcOld := [], sweNew := [], vstRejectLog := 0, engEscLog := 0, pchFault := 0, tkoLog := 0, tkoDigTick := 0
    tkoDigLog := 0 }

/-- Power state after wing reset: P0 at 0.85 V (R405). -/
def Power.reset : Power :=
  { level := .p0, vsel := 0, bias := 100, assist := .off, divider := 3, vok := none, next := none, lastL := 0, slowRun := 0, given := 0, demand := 0, dmax := 0
    quiet := 0, studyNap := 0, doze := false, vfail := false
    bankLost := false, restoreFail := false, wake := 0, wakeTick := 0, refuseLog := 0, domWake := []
    bankWake := [], domOn := 0, tripped := [], lostOnce := [], enterTick := 0, sleepAt := 0, sched := none
    pendWake := none, wbRetried := [], want := none, saveAt := none, offAt := none, waitFrom := 0, domFirst := [] }

/-- A physical bank after wing reset (R358): 0 to 63 in service, 64 to 67 spare. -/
def Phys.resetBank (p : Nat) : Phys :=
  { wear := 0, fenced := 0, uncorr := 0, state := if p < 64 then 1 else 0 }

/-- A physical scan slice after wing reset (R358): 0 to 7 in service, 8 spare. -/
def Phys.resetSlice (p : Nat) : Phys :=
  { wear := 0, fenced := 0, uncorr := 0, state := if p < 8 then 1 else 0 }

/-- The repair map and the INT_ registers after wing reset; `sig` is the signature of the reset configuration (R357). -/
def Integ.reset (sig : Word) : Integ :=
  { repBank := [], repSlice := [], physBank := [], physSlice := [], worn := [], lostTwice := [], sigRun := sig
    sigPeer := 0, sigs := [], compared := [], passAt := 0, passMiss := 0, peerMis := false, refMis := false, voteSplit := false, eccUncorr := false, cfgLost := false
    sigSelf := false, spareOut := false, spent := false, outCounted := [], move := none, sigLog := 0, sigVals := 0
    voteLog := 0, eccLog := 0 }

def HrtShown.reset : HrtShown :=
  { ancValid := false, ancTick := 0, ancRaw := 0, alm := 0, timeLost := false, vbatLow := false, fresh := true, wake := 0 }

/-- A hearth at its first power-up (R318, R334): FRESH, and all else 0. -/
def Hearth.reset : Hearth :=
  { powered := true, cal := 0, raw := 0, calSet := 0, calPend := false, ancValid := false, ancTick := 0
    ancRaw := 0, latches := [], pairPend := false, pairCal := 0, pairRaw := 0, pairTick := 0
    pairValid := false, timeLost := false, vbatLow := false, fresh := true, wake := 0, railLow := false, shown := HrtShown.reset }

def Latch.reset : Latch :=
  { set := false, stamped := false, stampRaw := 0, stampCal := 0, ever := false, again := 0 }

def MemTags.reset : MemTags := { read := 0, write := 0 }

/-- A porch whose domain is off (R140, R142). -/
def Porch.off : Porch :=
  { on := false, up := false, fault := false, slots := [none, none, none, none], journal := [], rets := []
    claimE := none, claimW := none, jseq := 0, journalled := false, rpHdr := 0, shift := 0, coreEn := false
    cfg := 0, raiseq := [], raiseE := [], raiseW := [], cur := 0, sleep := 0, waiting := [] }

/-- A wing that is held in reset (R403, R405), with the straps and the hearth that a wing reset leaves alone. -/
def Wing.resetWith (id : WingId) (apt : BitVec 40) (pg : BitVec 64) (h : Hearth) : Wing :=
  { id := id, life := .held, aptBase := apt, portGen := pg, key := 0, keyValid := false, regs := Regs.reset
    ctl := Ctl.reset id, vst := Vest.reset, pan := Pantry.reset, hall := Hall.reset, pch := PorchSide.reset
    sl := [], ring := RingEng.reset, drn := [], psg := Passage.reset, pwr := Power.reset
    int := Integ.reset (resetSignature pg), hrt := h, mem := MemTags.reset, out := [] }

/-- A wing in the state before its first release from reset. -/
def Wing.reset (id : WingId) : Wing :=
  Wing.resetWith id Config.aptBaseBeforeStrap Config.portGenBeforeStrap Hearth.reset

/-- The block when both wings are held in reset at first power: hearths just powered up, porches off, nothing pending. -/
def State.reset : State :=
  { east := Wing.reset .east, west := Wing.reset .west, porches := [], out := [], free := 0, pending := [] }

end Sys2Proof.Machine
end

