-- ==== Sys2Proof/Machine/Operands.lean ====
section
/-! DEFINITION. The operand forms of the spec: every structure that crosses a boundary or lies in memory, as the word that the
spec's layout tables give it, and back. Fields are joined with the most significant one first. -/

namespace Sys2Proof.Machine

/-- One bit. -/
def bit (b : Bool) : BitVec 1 := BitVec.ofBool b

/-! ## Keys -/

/-- SLICE [31:20] of a vector key (R60). -/
def keySlice (k : Word) : BitVec 12 := k.extractLsb' 20 12

/-- VV [19:0] of a vector key. -/
def keyVV (k : Word) : BitVec 20 := k.extractLsb' 0 20

def mkKey (s : BitVec 12) (vv : BitVec 20) : Word := s ++ vv

end Sys2Proof.Machine

namespace Sys2Proof

open Machine

/-! ## Journal entries (05_porches.md R116) -/

def EntryKind.code : EntryKind → BitVec 2
  | .claim => 0b01
  | .complete => 0b10
  | .ret => 0b11

def EntryKind.ofCode (c : BitVec 2) : Option EntryKind :=
  if c = 0b01 then some .claim else if c = 0b10 then some .complete else if c = 0b11 then some .ret else none

def Entry.encode (e : Entry) : DWord := e.kind.code ++ e.accTick ++ e.prio ++ e.jseq ++ e.key

/-- TYPE 0b00 is reserved: no entry. -/
def Entry.decode (d : DWord) : Option Entry :=
  (EntryKind.ofCode (d.extractLsb' 62 2)).map fun k =>
    { kind := k, accTick := d.extractLsb' 56 6, prio := d.extractLsb' 48 8, jseq := d.extractLsb' 32 16
      key := d.extractLsb' 0 32 }

/-! ## Passage records (09_passage.md R240 to R247) -/

/-- The sixteen bytes of a record, byte 0 in bits [7:0]. -/
def Rec.encode : Rec → BitVec 128
  | .nop => 0
  | .arrive r => 0#16 ++ r.chk ++ r.key ++ r.seq ++ (r.cls ++ r.cause ++ r.num) ++ r.regLo ++
      (bit r.recheck ++ bit r.esc ++ bit r.discard ++ bit r.alarm ++ 0x1#4)
  | .claim r => r.entry.encode ++ 0#48 ++ r.porch ++ (0#1 ++ bit r.synth ++ bit r.replay ++ bit r.ret ++ 0x2#4)
  | .complete r => r.entry.encode ++ 0#48 ++ r.porch ++ (0#1 ++ bit r.synth ++ bit r.replay ++ bit r.ret ++ 0x3#4)
  | .regw r => 0#32 ++ r.val ++ r.addr ++ 0#8 ++ r.req ++ (bit r.dualPend ++ 0#5 ++ r.space) ++ 0x04#8
  | .cmd r => r.operand ++ r.target ++ (0#3 ++ bit r.v2 ++ bit r.fence ++ bit r.long ++ r.nExt) ++ r.result ++
      r.opcode ++ 0x14#8
  | .cmdExt r => r.data ++ r.pos ++ (0#4 ++ r.ring) ++ r.part ++ 0x24#8
  | .finish r => r.nParam ++ r.lastCore ++ r.status ++ r.cfgw ++ r.count ++ r.pos ++
      (0#3 ++ bit r.hasLast ++ r.ring) ++ r.result ++ 0x34#8
  | .param r => r.data ++ 0#48 ++ r.off ++ 0x44#8
  | .drain r => 0#64 ++ (0#4 ++ r.gen ++ r.pasid) ++ 0#16 ++ (0#4 ++ r.port) ++ 0x54#8
  | .letter r => r.letter ++ r.lseq ++ (0#4 ++ r.slice) ++ (0#7 ++ bit r.fromMgr) ++ 0x64#8
  | .level r => (0#8 ++ r.tick) ++ 0#48 ++ (0#6 ++ r.level) ++ 0x74#8
  | .quar r => 0#64 ++ r.key ++ 0#16 ++ (0#7 ++ bit r.recheck) ++ 0x84#8
  | .accept r => 0#64 ++ r.key ++ 0#16 ++ r.porch ++ 0x05#8
  | .install r => 0#32 ++ r.tag ++ r.key ++ (0#1 ++ r.bank ++ r.slot) ++ 0#8 ++ 0x15#8
  | .modwin r => 0#64 ++ r.key ++ 0#16 ++ (0#1 ++ r.win) ++ 0x25#8
  | .target r => 0#56 ++ r.coreset ++ r.key ++ (0#1 ++ r.bank ++ r.slot) ++ (0#3 ++ r.cluster) ++ 0x35#8
  | .residency r => 0#72 ++ r.prio ++ r.count ++ (0#4 ++ r.slice) ++ 0#8 ++ 0x45#8
  | .coreState r => r.words ++ 0#32 ++ r.rchkN ++ (0#2 ++ r.group) ++ 0x55#8
  | .doorbell r => 0#64 ++ r.pos ++ (r.kind ++ 0#2 ++ r.slice) ++ 0#8 ++ 0x06#8
  | .done t => (0#8 ++ t) ++ 0#56 ++ 0x16#8
  | .copy r => r.data ++ r.pos ++ r.space ++ 0x07#8
  | .fetch r => 0#64 ++ r.seqOrKey ++ r.origin ++ r.what ++ 0x17#8
  | .arrival r => r.data ++ r.seq ++ r.origin ++ r.part ++ 0x27#8
  | .fill r => r.data ++ r.key ++ (0#1 ++ r.bank ++ r.slot) ++ r.part ++ 0x37#8
  | .close r => r.digest ++ r.sig ++ r.claim ++ r.fchk ++ (r.role ++ r.level ++ bit r.recovery ++ 0#3) ++ 0x08#8

def decodeJournal (b : BitVec 128) : Option JournalRec :=
  (Entry.decode (b.extractLsb' 64 64)).map fun e =>
    { ret := b.getLsbD 4, replay := b.getLsbD 5, synth := b.getLsbD 6, porch := b.extractLsb' 8 8, entry := e }

/-- CFG by its sub-kind (R244); codes 0x9 to 0xF are reserved. -/
def decodeCfg (b : BitVec 128) : Option Rec :=
  match (b.extractLsb' 4 4).toNat with
  | 0x0 => some (.regw { space := b.extractLsb' 8 2, dualPend := b.getLsbD 15, req := b.extractLsb' 16 8
                         addr := b.extractLsb' 32 32, val := b.extractLsb' 64 32 })
  | 0x1 => some (.cmd { opcode := b.extractLsb' 8 8, result := b.extractLsb' 16 8, nExt := b.extractLsb' 24 2
                        long := b.getLsbD 26, fence := b.getLsbD 27, v2 := b.getLsbD 28
                        target := b.extractLsb' 32 32, operand := b.extractLsb' 64 64 })
  | 0x2 => some (.cmdExt { part := b.extractLsb' 8 8, ring := b.extractLsb' 16 12, pos := b.extractLsb' 32 32
                           data := b.extractLsb' 64 64 })
  | 0x3 => some (.finish { result := b.extractLsb' 8 8, ring := b.extractLsb' 16 12, hasLast := b.getLsbD 28
                           pos := b.extractLsb' 32 16, count := b.extractLsb' 48 16, cfgw := b.extractLsb' 64 32
                           status := b.extractLsb' 96 16, lastCore := b.extractLsb' 112 8
                           nParam := b.extractLsb' 120 8 })
  | 0x4 => some (.param { off := b.extractLsb' 8 8, data := b.extractLsb' 64 64 })
  | 0x5 => some (.drain { port := b.extractLsb' 8 4, pasid := b.extractLsb' 32 20, gen := b.extractLsb' 52 8 })
  | 0x6 => some (.letter { fromMgr := b.getLsbD 8, slice := b.extractLsb' 16 12, lseq := b.extractLsb' 32 32
                           letter := b.extractLsb' 64 64 })
  | 0x7 => some (.level { level := b.extractLsb' 8 2, tick := b.extractLsb' 64 56 })
  | 0x8 => some (.quar { recheck := b.getLsbD 8, key := b.extractLsb' 32 32 })
  | _ => none

/-- STEER by its sub-kind (R245); codes 0x6 to 0xF are reserved. -/
def decodeSteer (b : BitVec 128) : Option Rec :=
  match (b.extractLsb' 4 4).toNat with
  | 0x0 => some (.accept { porch := b.extractLsb' 8 8, key := b.extractLsb' 32 32 })
  | 0x1 => some (.install { bank := b.extractLsb' 24 7, slot := b.extractLsb' 16 8, key := b.extractLsb' 32 32
                            tag := b.extractLsb' 64 32 })
  | 0x2 => some (.modwin { win := b.extractLsb' 8 7, key := b.extractLsb' 32 32 })
  | 0x3 => some (.target { cluster := b.extractLsb' 8 5, bank := b.extractLsb' 24 7, slot := b.extractLsb' 16 8
                           key := b.extractLsb' 32 32, coreset := b.extractLsb' 64 8 })
  | 0x4 => some (.residency { slice := b.extractLsb' 16 12, count := b.extractLsb' 32 16
                              prio := b.extractLsb' 48 8 })
  | 0x5 => some (.coreState { group := b.extractLsb' 8 6, rchkN := b.extractLsb' 16 16
                              words := b.extractLsb' 64 64 })
  | _ => none

/-- RINGPOS by its sub-kind (R246). -/
def decodeRingpos (b : BitVec 128) : Option Rec :=
  match (b.extractLsb' 4 4).toNat with
  | 0x0 => some (.doorbell { slice := b.extractLsb' 16 12, kind := b.extractLsb' 30 2, pos := b.extractLsb' 32 32 })
  | 0x1 => some (.done (b.extractLsb' 64 56))
  | _ => none

/-- RESYNC by its sub-kind (R246). -/
def decodeResync (b : BitVec 128) : Option Rec :=
  match (b.extractLsb' 4 4).toNat with
  | 0x0 => some (.copy { space := b.extractLsb' 8 8, pos := b.extractLsb' 16 48, data := b.extractLsb' 64 64 })
  | 0x1 => some (.fetch { what := b.extractLsb' 8 8, origin := b.extractLsb' 16 16
                          seqOrKey := b.extractLsb' 32 32 })
  | 0x2 => some (.arrival { part := b.extractLsb' 8 8, origin := b.extractLsb' 16 16, seq := b.extractLsb' 32 32
                            data := b.extractLsb' 64 64 })
  | 0x3 => some (.fill { part := b.extractLsb' 8 8, bank := b.extractLsb' 24 7, slot := b.extractLsb' 16 8
                         key := b.extractLsb' 32 32, data := b.extractLsb' 64 64 })
  | _ => none

/-- The record of sixteen bytes; none for a reserved kind or sub-kind (R236, R240). -/
def Rec.decode (b : BitVec 128) : Option Rec :=
  match (b.extractLsb' 0 4).toNat with
  | 0x0 => some .nop
  | 0x1 => some (.arrive { alarm := b.getLsbD 4, discard := b.getLsbD 5, esc := b.getLsbD 6, recheck := b.getLsbD 7
                           regLo := b.extractLsb' 8 8, cls := b.extractLsb' 30 2, cause := b.extractLsb' 28 2
                           num := b.extractLsb' 16 12, seq := b.extractLsb' 32 32, key := b.extractLsb' 64 32
                           chk := b.extractLsb' 96 16 })
  | 0x2 => (decodeJournal b).map .claim
  | 0x3 => (decodeJournal b).map .complete
  | 0x4 => decodeCfg b
  | 0x5 => decodeSteer b
  | 0x6 => decodeRingpos b
  | 0x7 => decodeResync b
  | 0x8 => some (.close { role := b.extractLsb' 14 2, level := b.extractLsb' 12 2, recovery := b.getLsbD 11
                          fchk := b.extractLsb' 16 16, claim := b.extractLsb' 32 32, sig := b.extractLsb' 64 32
                          digest := b.extractLsb' 96 32 })
  | _ => none

/-- The groups in which a frame's records are applied (R234). -/
inductive RecGroup
  | acceptance
  | ordered
  | deferred
  | independent
  | closing
  | fill
  deriving DecidableEq, Repr

def Rec.group : Rec → RecGroup
  | .nop => .fill
  | .arrive _ | .claim _ | .complete _ | .install _ => .ordered
  | .accept _ => .acceptance
  | .regw _ | .cmd _ | .cmdExt _ | .finish _ | .param _ | .drain _ | .letter _ | .level _ | .quar _ => .deferred
  | .modwin _ | .target _ | .residency _ | .coreState _ | .doorbell _ | .done _ => .deferred
  | .copy _ | .fetch _ | .arrival _ | .fill _ => .independent
  | .close _ => .closing

/-! ## Native messages (02_vestibule.md R31) -/

/-- Bytes [off, off + n) of an aperture write's data, as one field. -/
def AptWrite.field (a : AptWrite) (off n : Nat) : BitVec n := a.data.extractLsb' (8 * off) n

/-- The page's slice and the page offset of a write (R28). -/
def AptWrite.slice (a : AptWrite) : BitVec 12 := a.off.extractLsb' 12 12
def AptWrite.pageOff (a : AptWrite) : BitVec 12 := a.off.extractLsb' 0 12

/-- OUTCOME, CLEARED, CLEAR_FAIL and KIND of CTRL. -/
def ctrlOutcome (c : BitVec 25) : BitVec 2 := c.extractLsb' 21 2
def ctrlKind (c : BitVec 25) : Bool := c.getLsbD 20
def ctrlCleared (c : BitVec 25) : Bool := c.getLsbD 23
def ctrlClearFail (c : BitVec 25) : Bool := c.getLsbD 24

end Sys2Proof

namespace Sys2Proof.Machine

/-! ## Cellar entries (03_vectors_pantry_cellar.md R67) -/

def VState.code : VState → BitVec 3
  | .idle => 0
  | .pending => 1
  | .presented => 2
  | .active => 3
  | .activePending => 4
  | .completed => 5

/-- Codes 6 and 7 are reserved; an entry with one is read as IDLE only behind a failed tag (log 13). -/
def VState.ofCode (c : BitVec 3) : VState :=
  match c.toNat with
  | 1 => .pending
  | 2 => .presented
  | 3 => .active
  | 4 => .activePending
  | 5 => .completed
  | _ => .idle

/-- Fields of the CFG word (R67). -/
def cfgModLimit (c : Word) : BitVec 7 := c.extractLsb' 20 7
def cfgModMode (c : Word) : BitVec 2 := c.extractLsb' 18 2
def cfgPerArrival (c : Word) : Bool := c.getLsbD 17
def cfgKeepLast (c : Word) : Bool := c.getLsbD 16
def cfgCoreset (c : Word) : Byte := c.extractLsb' 8 8
def cfgPriority (c : Word) : Byte := c.extractLsb' 0 8

/-- The STATE word of an entry. -/
def Ctx.stateWord (c : Ctx) : Word :=
  0#12 ++ bit c.hasLast ++ c.modWin ++ c.lastCore ++ 0#1 ++ c.state.code

/-- Bytes 0 to 27 of the entry of a context. -/
def Ctx.image (c : Ctx) : BitVec 224 :=
  c.modEnd.extractLsb' 0 32 ++ c.arrTick.extractLsb' 0 32 ++ 0#16 ++ c.count ++ c.payload ++ c.stateWord ++ c.cfg

/-- The latest tick at or before `ref` whose low bits are `v`; if there is none, the value with its higher bits 0 (R414). -/
def restoreBack {k : Nat} (v : BitVec k) (ref : Tick) : Tick :=
  let m := 2 ^ k
  let r := ref.toNat
  let base := r / m * m + v.toNat
  if base ≤ r then BitVec.ofNat 56 base
  else if m ≤ base then BitVec.ofNat 56 (base - m) else v.setWidth 56

/-- The tick whose low 32 bits are `v` in the window of 2^32 ticks around `ref` that R414 gives for MOD_END. -/
def restoreNear (v : Word) (ref : Tick) : Tick :=
  let r := ref.toNat
  let lo : Int := (r : Int) - 2 ^ 31
  let base : Int := (r / 2 ^ 32 * 2 ^ 32 + v.toNat : Nat)
  let t : Int := if base < lo then base + 2 ^ 32 else if base ≥ lo + 2 ^ 32 then base - 2 ^ 32 else base
  if t < 0 ∨ t ≥ 2 ^ 56 then v.setWidth 56 else BitVec.ofNat 56 t.toNat

/-- The context of a fetched entry, not pinned and clean, as R67 reads it at the tick `now`. The entry does not hold whether a native
message is among the arrivals counted (R57): a count that is not 0 is taken to hold one (DESIGN CHOICE, log 89). -/
def ctxOfImage (key : Word) (e : BitVec 256) (now : Tick) : Ctx :=
  let cfg := e.extractLsb' 0 32
  let st := e.extractLsb' 32 32
  let count := e.extractLsb' 128 16
  let modEnd := restoreNear (e.extractLsb' 192 32) now
  let raw := VState.ofCode (st.extractLsb' 0 3)
  let state := if raw = .completed ∧ modEnd.toNat < now.toNat then (if count = 0 then .idle else .pending) else raw
  { key := key, cfg := cfg, state := state, hasLast := st.getLsbD 19, modWin := st.extractLsb' 12 7
    lastCore := st.extractLsb' 4 8, payload := e.extractLsb' 64 64, count := count
    arrTick := restoreBack (e.extractLsb' 160 32 : Word) now, modEnd := modEnd, tag := e.extractLsb' 224 32
    gotNative := count != 0, dirty := false, pin := false, touched := now, dirtyAt := 0, wbFresh := false
    poisoned := false }

/-- The initial image of R68. -/
def initialCtx (key : Word) (now : Tick) : Ctx :=
  { key := key, cfg := 0x80, state := .idle, hasLast := false, modWin := 0, lastCore := 0, payload := 0, count := 0
    arrTick := 0, modEnd := 0, tag := 0, gotNative := false, dirty := false, pin := false, touched := now
    dirtyAt := 0, wbFresh := false, poisoned := false }

/-- Domain words of R69. -/
def domainVector : Word := 1
def domainSpill : WingId → Word
  | .east => 2
  | .west => 3

/-- An entry with its tag under the key (R69). -/
def withTag (key : BitVec 128) (body : BitVec 224) (binding domain : Word) : BitVec 256 :=
  integrityTag key body binding domain ++ body

/-- The tag of a cellar or spill entry checks (R69). -/
def tagOk (key : BitVec 128) (e : BitVec 256) (binding domain : Word) : Bool :=
  e.extractLsb' 224 32 == integrityTag key (e.extractLsb' 0 224) binding domain

/-! ## Spill entries (R53) -/

/-- Bytes 0 to 27 of the spill entry of an observation. -/
def Obs.spillBody (o : Obs) : BitVec 224 :=
  o.reg.extractLsb' 0 32 ++ o.payload ++ o.seq ++ o.jobTag ++ (0#4 ++ o.num) ++ o.engStatus ++
    (0#5 ++ o.cls ++ o.ctrl)

/-! ## Ranking keys (04_hall_ranking_steering.md R91) -/

/-- NOT_ALARM, PRIORITY, ARR_TICK, SLICE and VV, the most significant first: the least key ranks first. -/
def rankKey (alarm : Bool) (prio : Byte) (arr : Tick) (key : Word) : BitVec 97 := bit (!alarm) ++ prio ++ arr ++ key

def rkAlarm (k : BitVec 97) : Bool := !k.getLsbD 96
def rkPrio (k : BitVec 97) : Byte := k.extractLsb' 88 8
def rkKey (k : BitVec 97) : Word := k.extractLsb' 0 32

/-! ## Beats (05_porches.md R119, R121) -/

/-- A RELEASE header. -/
def releaseHdr (claim : Word) (commit : BitVec 16) (rp : BitVec 9) (shift : BitVec 3) (en : Bool) (n : BitVec 3)
    (tick : Tick) : BitVec 128 :=
  claim ++ commit ++ rp ++ shift ++ bit en ++ n ++ 0#8 ++ tick

/-- CLAIM_RAISE: the claim number alone. -/
def claimRaiseBeat (claim : Word) : BitVec 128 := claim ++ 0#96

/-- INIT. -/
def initBeat (claim : Word) (cfg : Word) (jseq : BitVec 16) (rp : BitVec 9) (shift : BitVec 3) (en : Bool) :
    BitVec 128 :=
  claim ++ cfg ++ jseq ++ rp ++ shift ++ bit en ++ 0#35

/-- RAISE: index in [3:0], SLICE_CUR in [27:16]. -/
def raiseBeatWord (idx : BitVec 4) (cur : BitVec 12) : DWord := 0#36 ++ cur ++ 0#12 ++ idx

/-- STATUS: SLICE_CUR, sleep class, UP, FAULT. -/
def statusBits (cur : BitVec 12) (sleep : BitVec 2) (up fault : Bool) : BitVec 16 :=
  bit fault ++ bit up ++ sleep ++ cur

/-- One slot of a SLOT_REPORT: VALID, RTICK, index (R138). -/
def slotReportBits (valid : Bool) (rtick : Byte) (idx : BitVec 2) : BitVec 16 := bit valid ++ 0#5 ++ rtick ++ idx

/-! ## Command descriptors (06_rings_and_records.md R154, R155) -/

/-- A v1 descriptor of 16 bytes. -/
def descV1 (d : BitVec 128) : Desc :=
  { opcode := d.extractLsb' 0 8, v2 := false
    args := { fence := d.getLsbD 8, flags := d.extractLsb' 9 7, rsv := 0, target := d.extractLsb' 32 32
              operand := d.extractLsb' 64 64, operand2 := 0
              cookie := (d.extractLsb' 16 16 : BitVec 16).setWidth 64 } }

/-- A v2 descriptor of 32 bytes. -/
def descV2 (d : BitVec 256) : Desc :=
  { opcode := d.extractLsb' 0 8, v2 := true
    args := { fence := d.getLsbD 8, flags := d.extractLsb' 9 7, rsv := d.extractLsb' 16 16
              target := d.extractLsb' 32 32, operand := d.extractLsb' 64 64, operand2 := d.extractLsb' 128 64
              cookie := d.extractLsb' 192 64 } }

/-! ## Event records (R165 to R167) -/

/-- OUTCOME codes of R166. -/
def oNormal : BitVec 4 := 0x1
def oRecheck : BitVec 4 := 0x5
def oResidency : BitVec 4 := 0x6
def oLetter : BitVec 4 := 0x7
def oCmdDone : BitVec 4 := 0x8
def oCmdErr : BitVec 4 := 0x9
def oAlarm : BitVec 4 := 0xA

/-- An event record with PHASE 0; PHASE is laid in when the record is written. -/
def eventRecord (slice : BitVec 12) (code : Byte) (cleared reconciled acc : Bool) (outcome : BitVec 4) (whr : Word)
    (count engStatus : BitVec 16) (jobTag : Word) (data : DWord) (tick : Tick) : BitVec 256 :=
  (0#8 ++ tick) ++ data ++ jobTag ++ engStatus ++ count ++ whr ++
    (0#4 ++ slice ++ code ++ bit cleared ++ bit reconciled ++ bit acc ++ outcome ++ 0#1)

/-- WHERE with a core, and without. -/
def whereCore (core : Byte) (vv : BitVec 20) : Word := 0#3 ++ 1#1 ++ core ++ vv
def whereVV (vv : BitVec 20) : Word := 0#12 ++ vv

/-- PHASE of a record at position `p` of a ring of 2^log records (R172). -/
def phaseAt (p : Word) (log : Nat) : Bool := (p.toNat / 2 ^ log) % 2 == 0

/-- A ring-header image of 64 bytes (R149). -/
def HdrImg.bytes (h : HdrImg) (tick : Tick) : BitVec 512 :=
  0#288 ++ h.recheckLost ++ (0#8 ++ tick) ++ h.flags ++ h.cmdFinished ++ h.cmdHead ++ h.evtTail

/-! ## The parameter block (07_slices.md R181) -/

def pbGuar (b : BitVec 1024) : BitVec 16 := b.extractLsb' 0 16
def pbMax (b : BitVec 1024) : BitVec 16 := b.extractLsb' 16 16
def pbShare (b : BitVec 1024) : BitVec 16 := b.extractLsb' 32 16
def pbCredit (b : BitVec 1024) : Byte := b.extractLsb' 48 8
def pbAllow (b : BitVec 1024) : BitVec 256 := b.extractLsb' 256 256
def pbBind (b : BitVec 1024) : Word := b.extractLsb' 512 32
def pbVt (b : BitVec 1024) : DWord := b.extractLsb' 576 64
def pbSp (b : BitVec 1024) : DWord := b.extractLsb' 640 64
def pbCmd (b : BitVec 1024) : DWord := b.extractLsb' 704 64
def pbEvt (b : BitVec 1024) : DWord := b.extractLsb' 768 64
def pbHdr (b : BitVec 1024) : DWord := b.extractLsb' 832 64

/-- Doubleword `i` of the block. -/
def pbWord (b : BitVec 1024) (i : Nat) : DWord := b.extractLsb' (64 * i) 64

/-- The reserved bytes and bits of the share part, bytes 0 to 63. -/
def pbShareReserved (b : BitVec 1024) : Bool := (b.extractLsb' 56 200 : BitVec 200) != 0

/-- The reserved bytes and bits of the rest of the block. -/
def pbReserved (b : BitVec 1024) : Bool :=
  ((pbBind b).extractLsb' 21 11 : BitVec 11) != 0 || (b.extractLsb' 544 32 : Word) != 0 ||
    ((pbVt b).extractLsb' 5 7 : BitVec 7) != 0 || ((pbSp b).extractLsb' 5 7 : BitVec 7) != 0 ||
    ((pbCmd b).extractLsb' 6 6 : BitVec 6) != 0 || ((pbEvt b).extractLsb' 5 7 : BitVec 7) != 0 ||
    ((pbHdr b).extractLsb' 0 6 : BitVec 6) != 0 || (b.extractLsb' 896 128 : BitVec 128) != 0

/-- The base address in a field whose bits [11:0] are flags. -/
def pageBase (d : DWord) : DWord := d &&& 0xFFFFFFFFFFFFF000

/-! ## Register views of a slice (R65, R146, R202) -/

def SlState.code : SlState → BitVec 3
  | .unbound => 0
  | .creating => 1
  | .running => 2
  | .quiescing => 3
  | .quiesced => 4
  | .resetting => 5
  | .removing => 6

def SlState.ofCode (c : BitVec 3) : SlState :=
  match c.toNat with
  | 1 => .creating
  | 2 => .running
  | 3 => .quiescing
  | 4 => .quiesced
  | 5 => .resetting
  | 6 => .removing
  | _ => .unbound

def loWord (d : DWord) : Word := d.extractLsb' 0 32
def hiWord (d : DWord) : Word := d.extractLsb' 32 32

/-- CDIR[s], words 0 to 3. -/
def SliceSt.cdir (s : SliceSt) (i : Nat) : Word :=
  match i with
  | 0 => loWord s.vtBase ||| s.vtLog2.setWidth 32
  | 1 => hiWord s.vtBase
  | 2 => loWord s.spBase ||| s.spLog2.setWidth 32
  | 3 => hiWord s.spBase
  | _ => 0

/-- RING_TAB[s], words 0 to 5; words 6 and 7 are reserved. -/
def SliceSt.ringTab (s : SliceSt) (i : Nat) : Word :=
  match i with
  | 0 => loWord s.cmdBase ||| ((bit s.cmdVer ++ s.cmdLog2 : BitVec 6)).setWidth 32
  | 1 => hiWord s.cmdBase
  | 2 => loWord s.evtBase ||| s.evtLog2.setWidth 32
  | 3 => hiWord s.evtBase
  | 4 => loWord s.hdrBase
  | 5 => hiWord s.hdrBase
  | _ => 0

/-- BIND[s], words 0, 2 and 3, which are stored; word 1 is 0 here (R397). -/
def SliceSt.bindStored (s : SliceSt) (i : Nat) : Word :=
  match i with
  | 0 => 0#11 ++ bit s.msiUntagged ++ s.pasid
  | 2 => 0#1 ++ s.maxCtx ++ 0#1 ++ s.guarCtx
  | 3 => 0#9 ++ s.credit ++ 0#2 ++ s.stageShare
  | _ => 0

/-- BIND[s] word 1: the view of the slice runtime (R202, R397). -/
def SliceSt.bindRuntime (s : SliceSt) : Word :=
  0#8 ++ s.gen ++ bit s.drainTimeout ++ bit s.qfull ++ BitVec.ofNat 3 s.inbox.length ++
    BitVec.ofNat 3 s.outbox.length ++ 0#5 ++ s.state.code

/-- CSALLOW[s][w]. -/
def SliceSt.csAllowWord (s : SliceSt) (w : Nat) : Word := s.csAllow.extractLsb' (32 * w) 32

/-- The stored words of a slice in the configuration region, by indirect address. -/
def SliceSt.cfgWords (s : SliceSt) (n : Nat) : List (Nat × Word) :=
  (List.range 4).map (fun i => (aCdir n + 4 * i, s.cdir i)) ++
    (List.range 6).map (fun i => (aRingTab n + 4 * i, s.ringTab i)) ++
    (List.range 4).map (fun i => (aBind n + 4 * i, s.bindStored i)) ++
    (List.range 8).map fun i => (aCsAllow n + 4 * i, s.csAllowWord i)

end Sys2Proof.Machine
end

