-- ==== Sys2Proof/Machine/Flags.lean ====
section
/-! DEFINITION. Status words and log words: every flag that a status register shows, computed from the state that it reports, and
the layout of every log register. -/

namespace Sys2Proof.Machine

/-! ## Logs with a VALID bit: while it is 1, later events are not logged (R47, R216, R285, R315, R338, R341, R384) -/

/-- The log after an event whose entry is `e`. -/
def logFirst (log e : DWord) : DWord := if log.getLsbD 63 then log else e

/-- VST_REJECT_LOG (R391). -/
def rejectEntry (pasidP : Bool) (cls : BitVec 2) (reason : BitVec 4) (slice whr : BitVec 12) (req : Byte)
    (pasid : BitVec 20) : DWord :=
  1#1 ++ bit pasidP ++ cls ++ reason ++ slice ++ whr ++ req ++ 0#4 ++ pasid

/-- TKO_LOG (R285): EVENT 0x1 TAKEOVER, 0x2 STANDBY_LOST, 0x3 DEMOTED, 0x4 RECOVERY, 0x5 ORPHAN, 0x6 WITHDRAW, 0x7 RETURN,
0x8 RESYNC_DONE, 0x9 CLAIM_END. -/
def tkoEntry (event : BitVec 4) (tick : Tick) : DWord := 1#1 ++ 0#3 ++ event ++ tick

def tkTakeover : BitVec 4 := 0x1
def tkStandbyLost : BitVec 4 := 0x2
def tkDemoted : BitVec 4 := 0x3
def tkRecovery : BitVec 4 := 0x4
def tkOrphan : BitVec 4 := 0x5
def tkWithdraw : BitVec 4 := 0x6
def tkReturn : BitVec 4 := 0x7
def tkResyncDone : BitVec 4 := 0x8
def tkClaimEnd : BitVec 4 := 0x9

/-- TKO_DIGEST_TICK. -/
def digestTickEntry (tick : Tick) : DWord := 1#1 ++ 0#7 ++ tick

/-- PWR_REFUSE_LOG (R315). -/
def refuseEntry (refuser request : BitVec 2) (reason : BitVec 3) (tick : Tick) : DWord :=
  1#1 ++ refuser ++ request ++ reason ++ tick

/-- INT_SIG_LOG (R357): KIND 0b01 PEER, 0b10 REF, 0b11 SELF. -/
def sigEntry (kind : BitVec 2) (tick : Tick) : DWord := 1#1 ++ 0#5 ++ kind ++ tick

/-- INT_VOTE_LOG. -/
def voteEntry (split : Bool) (field index : Byte) (tick : Tick) : DWord :=
  1#1 ++ bit split ++ 0#14 ++ field ++ index ++ tick.extractLsb' 0 32

/-- INT_ECC_LOG. -/
def eccEntry (array : BitVec 4) (index : Word) : DWord := 1#1 ++ 0#11 ++ array ++ 0#16 ++ index

/-- REG_ERR_LOG (R384). -/
def regErrEntry (reason : BitVec 4) (req : Byte) (path : BitVec 2) (strobes : Byte) (addr : BitVec 24) : DWord :=
  1#1 ++ 0#3 ++ reason ++ req ++ path ++ 0#6 ++ strobes ++ 0#8 ++ addr

/-- Reasons of REG_ERR_LOG. -/
def reUnaligned : BitVec 4 := 0x1
def reNarrow : BitVec 4 := 0x2
def reLocked : BitVec 4 := 0x3
def reValue : BitVec 4 := 0x4
def reNotActive : BitVec 4 := 0x5
def reDualMismatch : BitVec 4 := 0x6
def reDualCheck : BitVec 4 := 0x7
def reAliasRead : BitVec 4 := 0x8
def reDemoted : BitVec 4 := 0x9

/-- PWR_WAKE (R315). -/
def wakeWord (duringEntry fromDeep : Bool) (c : WakeCause) : Word :=
  bit duringEntry ++ bit fromDeep ++ 0#10 ++ c.source ++ 0#4 ++ c.detail

/-- PCH_DOM_WAKE (R315): SOURCE 0x1 CORE, 0x2 STUDY, 0x3 TAKEOVER, 0x4 MANAGER. -/
def domWakeWord (source : BitVec 4) (core : Byte) : Word := 0#20 ++ source ++ core

/-- HRT_WAKE (R334). -/
def hrtWakeWord (source line : BitVec 4) (raw : DWord) : Word := source ++ line ++ raw.extractLsb' 0 24

/-! ## Codes of states -/

def Role.code : Role → BitVec 2
  | .active => 0b00
  | .standby => 0b01
  | .joining => 0b10
  | .orphan => 0b11

/-- ROLE of a TICK_CLOSE: an ORPHAN sends 0b10, since 0b11 is reserved (R247, log 14). -/
def Role.closeCode : Role → BitVec 2
  | .active => 0b00
  | .standby => 0b01
  | .joining => 0b10
  | .orphan => 0b10

def Level.code : Level → BitVec 2
  | .p0 => 0
  | .p1 => 1
  | .p2 => 2
  | .p3 => 3

/-- The divider of the PLL's output at a level (R287, R288). -/
def Level.divider : Level → Nat
  | .p0 => 3
  | .p1 => 4
  | .p2 => 6
  | .p3 => 12

/-- The body bias of a level in millivolts, forward positive (R288). -/
def Level.bias : Level → Int
  | .p0 => 100
  | .p1 => 0
  | .p2 => -100
  | .p3 => -200

/-- The SRAM assist of a level (R288). -/
def Level.assist : Level → Assist
  | .p0 | .p1 => .off
  | .p2 => .underdrive
  | .p3 => .underdriveWrite

def Level.ofCode (c : BitVec 2) : Level :=
  match c.toNat with
  | 0 => .p0
  | 1 => .p1
  | 2 => .p2
  | _ => .p3

def LaneRole.code : LaneRole → BitVec 3
  | .down => 0
  | .training => 1
  | .spare => 2
  | .carry => 3
  | .retired => 4

/-! ## Status words -/

/-- WING_STATUS (R388). -/
def wingStatusWord (c : Ctl) (keyValid : Bool) : Word :=
  bit c.ready ++ bit keyValid ++ bit c.booting ++ bit c.tsyncErr ++ 0#12 ++ c.bootCode ++ 0#8

/-- VST_STATUS (R391). -/
def vstStatusWord (v : Vest) (stalling : Bool) : Word :=
  bit v.stallSeen ++ bit stalling ++ 0#18 ++ v.stallSlice

/-- Words of SPACE 0 to 2, in the order of the walk (R272). -/
def space0Len : Nat := 8193
def space1Len : Nat := 65536
def space2Len : Nat := 133993
def space3Len : Nat := 81920

/-- The walk position after the last word of SPACE 2, where the backlog goes out. -/
def backlogAt : Nat := space0Len + space1Len + space2Len
def walkEnd : Nat := backlogAt + space3Len

/-- SPACE and position of a place in the walk. -/
def walkPlace (i : Nat) : Nat × Nat :=
  if i < space0Len then (0, i)
  else if i < space0Len + space1Len then (1, i - space0Len)
  else if i < backlogAt then (2, i - space0Len - space1Len)
  else (3, i - backlogAt)

/-- TKO_STATUS.RESYNC (R285). -/
def resyncCode (pos : Option Nat) (backlog : Bool) : BitVec 3 :=
  match pos with
  | none => 0
  | some i =>
      if i < space0Len then 1
      else if i < space0Len + space1Len then 2
      else if i < backlogAt then 3
      else if i = backlogAt && backlog then 4
      else 5

/-- TKO_STATUS. A joining wing shows the backlog from the last word of SPACE 2 to the first of SPACE 3; a standby is one of a pair in
duplex (R259, R285). -/
def tkoStatusWord (c : Ctl) (handover : Bool) : Word :=
  0#19 ++ bit c.suspect ++ bit c.digestErr ++
    resyncCode (if c.sendPos.isSome then c.sendPos else c.joinPos) (c.sendPos.isNone || !c.backlog.isEmpty) ++ bit handover ++
    bit c.recovery ++ bit (c.duplex || c.role == .standby) ++ 0#3 ++ c.role.code

/-- TKO_WATERMARK: the next word of the walk that runs. -/
def watermarkWord (c : Ctl) : DWord :=
  match (if c.sendPos.isSome then c.sendPos else c.joinPos) with
  | none => 0
  | some i => 1#1 ++ 0#13 ++ BitVec.ofNat 2 (walkPlace i).1 ++ BitVec.ofNat 48 (walkPlace i).2

/-- PWR_STATUS (R315). -/
def pwrStatusWord (p : Power) (granted : BitVec 2) : Word :=
  0#24 ++ bit p.restoreFail ++ bit p.bankLost ++ bit p.vfail ++ bit p.doze ++ p.level.code ++ granted

/-- INT_STATUS (R357). -/
def intStatusWord (i : Integ) : Word :=
  0#24 ++ bit i.spent ++ bit i.spareOut ++ bit i.cfgLost ++ bit i.sigSelf ++ bit i.refMis ++ bit i.peerMis ++
    bit i.voteSplit ++ bit i.eccUncorr

/-- HRT_STATUS (R334), as captured at the latest raw edge; RECONCILED is the wing core's flag. -/
def hrtStatusWord (h : Hearth) (reconciled : Bool) : Word :=
  h.shown.alm ++ 0#11 ++ bit h.pairValid ++ bit h.shown.timeLost ++ bit reconciled ++ bit h.shown.vbatLow ++ bit h.shown.fresh

/-- PSG_LANE[l] (R255). -/
def Lane.word (l : Lane) : Word :=
  0#16 ++ l.fails ++ bit l.peerRxbad ++ bit l.rxbad ++ bit l.rxlock ++ bit l.peerLocked ++ 0#5 ++ l.role.code

/-- DUAL_PEND (R384): a bit for each register with a pending first write. -/
def dualPendWord (d : List DualHeld) : Word :=
  d.foldl (fun w h => match dualBit h.addr with
    | some i => w ||| (1#32 <<< i)
    | none => w) 0

/-- FLAGS of a ring header (R149). -/
def hdrFlags (halt wait held : Bool) : Word := 0#29 ++ bit halt ++ bit wait ++ bit held

/-- REP_PHYS_BANK and REP_PHYS_SLICE (R358). -/
def Phys.word (p : Phys) : Word := p.wear ++ p.fenced ++ p.uncorr ++ p.state

/-- An increment that saturates at the width's largest value. -/
def satInc {k : Nat} (v : BitVec k) : BitVec k := if v = BitVec.allOnes k then v else v + 1#k

end Sys2Proof.Machine
end

