-- ==== Sys2Proof/Machine/Ops.lean ====
section
/-! DEFINITION. The named operations over the state: wings, porches, registers, counters, slices, contexts, and the frame under
formation. The meanings of the commands are written over these. -/

namespace Sys2Proof.Machine

/-! ## Wings and porches -/

def State.wing (s : State) : WingId → Wing
  | .east => s.east
  | .west => s.west

def State.setWing (s : State) (w : WingId) (v : Wing) : State :=
  match w with
  | .east => { s with east := v }
  | .west => { s with west := v }

def otherWing : WingId → WingId
  | .east => .west
  | .west => .east

/-- A step of one wing: what it drives becomes the output of the step. -/
def State.onWing (s : State) (w : WingId) (f : Wing → Wing) : State :=
  let v := f { s.wing w with out := [] }
  { s.setWing w { v with out := [] } with out := v.out }

/-- The answer of a step of one wing. -/
def nextWing (s : State) (w : WingId) (f : Wing → Wing) : Host.Outcome State Fault Refusal := .next (s.onWing w f)

def State.porch (s : State) (p : Byte) : Porch := SMap.get s.porches Porch.off p.toNat

def State.setPorch (s : State) (p : Byte) (q : Porch) : State :=
  { s with porches := SMap.set s.porches Porch.off p.toNat q }

/-- A step of one porch: its new state and the beats and answers that it drives. -/
def State.onPorch (s : State) (p : Byte) (f : Porch → Porch × List Out) : State :=
  let r := f (s.porch p)
  { s.setPorch p r.1 with out := r.2 }

def nextPorch (s : State) (p : Byte) (f : Porch → Porch × List Out) : Host.Outcome State Fault Refusal :=
  .next (s.onPorch p f)

/-- The wing drives `o`. -/
def Wing.emit (w : Wing) (o : Out) : Wing := { w with out := w.out ++ [o] }

/-- MEM_REQ_TAG of the next read, and of the next write (R399). -/
def Wing.readTag (w : Wing) : Byte := 0#1 ++ w.mem.read
def Wing.writeTag (w : Wing) : Byte := 1#1 ++ w.mem.write

/-- A read at the memory port. -/
def Wing.emitRead (w : Wing) (addr : DWord) (len : Nat) : Wing :=
  { w with mem := { w.mem with read := w.mem.read + 1 }, out := w.out ++ [.memRead w.id addr len w.readTag] }

/-- A write at the memory port. -/
def Wing.emitWrite (w : Wing) (addr : DWord) (len : Nat) (data : BitVec 512) : Wing :=
  { w with mem := { w.mem with write := w.mem.write + 1 }, out := w.out ++ [.memWrite w.id addr len data w.writeTag] }

/-- The function when the condition holds, no effect otherwise. -/
def Wing.when (w : Wing) (c : Bool) (f : Wing → Wing) : Wing := if c then f w else w

/-- The wing runs: in Run or Doze (R293). -/
def Wing.running (w : Wing) : Bool := w.life == .run

/-- The wing's passage runs: in Run, and under the watch logic while it sleeps (R300). -/
def Wing.passageRuns (w : Wing) : Bool :=
  match w.life with
  | .run | .napEntry | .nap | .deepEntry | .deepWake => true
  | _ => false

/-- The wing holds the active role and runs. -/
def Wing.isActive (w : Wing) : Bool := w.running && w.ctl.role == .active

def Wing.isStandby (w : Wing) : Bool := w.running && w.ctl.role == .standby

/-- The tick of the wing. -/
def Wing.now (w : Wing) : Tick := w.ctl.tick

/-! ## Counters (R371) -/

def Wing.ctr (w : Wing) (o : Nat) : DWord := SMap.get w.regs.ctr 0 o

def Wing.setCtr (w : Wing) (o : Nat) (v : DWord) : Wing :=
  { w with regs := { w.regs with ctr := SMap.set w.regs.ctr 0 o v } }

/-- Counts `n` events at the counter of offset `o`, modulo 2^64. -/
def Wing.countN (w : Wing) (o n : Nat) : Wing := w.setCtr o (w.ctr o + BitVec.ofNat 64 n)

def Wing.count (w : Wing) (o : Nat) : Wing := w.countN o 1

def Wing.countIf (w : Wing) (c : Bool) (o : Nat) : Wing := if c then w.count o else w

/-! ## Mirrored registers -/

/-- A mirrored word as stored, which a read returns. -/
def Wing.cfgW (w : Wing) (k : Nat) : Word := SMap.get w.regs.cfg (cfgDefault w.portGen k) k

/-- A mirrored word in force, which decisions use (R366). -/
def Wing.effW (w : Wing) (k : Nat) : Word := SMap.get w.regs.eff (cfgDefault w.portGen k) k

def Wing.setCfg (w : Wing) (k : Nat) (v : Word) : Wing :=
  { w with regs := { w.regs with cfg := SMap.set w.regs.cfg (cfgDefault w.portGen k) k v } }

def Wing.setEff (w : Wing) (k : Nat) (v : Word) : Wing :=
  { w with regs := { w.regs with eff := SMap.set w.regs.eff (cfgDefault w.portGen k) k v } }

def Wing.effD (w : Wing) (k : Nat) : DWord := w.effW (k + 4) ++ w.effW k

def Wing.srcCfg (w : Wing) (i : Nat) : DWord := w.effD (ikey (aSrcCfg i))
def Wing.sweCfg (w : Wing) (c i : Nat) : DWord := w.effD (ikey (aSweCfg c i))
def Wing.pchCfg (w : Wing) (p : Nat) : Word := w.effW (ikey (aPchCfg p))

/-- The vector that alarm line `i` targets (R330). -/
def Wing.route (w : Wing) (i : Nat) : Word := SMap.get w.pan.routes (w.effW (oAlmRoute i)) i

/-- The alarm line of ENG_ESC. -/
def Wing.escLine (w : Wing) : Nat := ((w.effW oEngEsc).extractLsb' 0 4).toNat

/-- An alarm route, or ENG_ESC through its line, names the vector. -/
def Wing.isRoute (w : Wing) (key : Word) : Bool := (List.range 16).any fun i => w.route i == key

def Wing.hbLimit (w : Wing) : Nat := ((w.effW oTkoCtrl).extractLsb' 0 7).toNat
def Wing.autoResync (w : Wing) : Bool := (w.effW oTkoCtrl).getLsbD 8
def Wing.digRejoin (w : Wing) : Bool := (w.effW oTkoCtrl).getLsbD 9
def Wing.autoReturn (w : Wing) : Bool := (w.effW oTkoCtrl).getLsbD 10

/-- TKO_HANDOVER. -/
def Wing.handoverPending (w : Wing) : Bool := (w.effW (oTkoHandover + 4)).getLsbD 31
def Wing.handoverTick (w : Wing) : Tick := (w.effD oTkoHandover).extractLsb' 0 56

/-- The last tick of an old active wing before a handover, H+1 (R283). -/
def Wing.lastTick (w : Wing) : Bool :=
  w.isActive && w.ctl.tkoPhase.isNone && w.handoverPending && w.now == w.handoverTick + 1

/-- The frame under formation takes every kind of record of this wing: it is active, and not in its last tick before a handover,
whose frame carries acceptances and DONE only (R283). -/
def Wing.ownsFrame (w : Wing) : Bool := w.isActive && !w.lastTick

/-- The wing admits arrivals, doorbells and commands in this tick: not in the ticks T and T+1 of a takeover (R263). -/
def Wing.admitsNew (w : Wing) : Bool := w.ownsFrame && w.ctl.tkoPhase != some 0 && w.ctl.tkoPhase != some 1

/-- The wing is the home wing (R285). -/
def Wing.isHome (w : Wing) : Bool := (w.effW oTkoHome).getLsbD 0 == (w.id == .west)

def Wing.groupShift (w : Wing) : BitVec 3 := (w.effW oHallCtrl).extractLsb' 0 3

/-- CORE_EN of core `c`. -/
def coreEnIn (eff : Nat → Word) (c : Nat) : Bool := (eff (oCoreEn (c / 32))).getLsbD (c % 32)

/-- The requester identity is in ENGINE_ID_SET (R390). -/
def Wing.engineIdOk (w : Wing) (req : Byte) : Bool :=
  (w.effW (oEngineIdSet (req.toNat / 32))).getLsbD (req.toNat % 32)

/-! ## Slices -/

def Wing.slice (w : Wing) (s : BitVec 12) : SliceSt := SMap.get w.sl SliceSt.reset s.toNat

def Wing.setSlice (w : Wing) (s : BitVec 12) (v : SliceSt) : Wing :=
  { w with sl := SMap.set w.sl SliceSt.reset s.toNat v }

def Wing.modSlice (w : Wing) (s : BitVec 12) (f : SliceSt → SliceSt) : Wing := w.setSlice s (f (w.slice s))

/-- BOUND of R177. -/
def SliceSt.bound (s : SliceSt) : Bool := s.state != .unbound && s.state != .creating

/-- The slices whose state is not the state after wing reset, ascending. -/
def Wing.sliceNums (w : Wing) : List (BitVec 12) := w.sl.map fun e => BitVec.ofNat 12 e.1

/-! ## The signed space and the running signature (R343, R344) -/

/-- The words of the signed space that are not 0: registers in force and the slices' stored words. -/
def Wing.signedWords (w : Wing) : SMap Word :=
  let sw := w.sl.flatMap fun e => (e.2.cfgWords e.1).filter fun p => p.2 != 0
  sw.foldl (fun m p => SMap.insert m (ikey p.1) p.2) (regSigned w.portGen w.regs.eff)

/-- A change of the signed space, folded into the running signature by the linearity of the CRC (R344). -/
def Wing.withSigned (w : Wing) (f : Wing → Wing) : Wing :=
  let v := f w
  let a := w.signedWords
  let b := v.signedWords
  if a = b then v
  else
    let d := signatureOf a ^^^ signatureOf b
    { v with int := { v.int with sigRun := w.int.sigRun ^^^ d } }

/-! ## Logs -/

def Wing.logTko (w : Wing) (event : BitVec 4) : Wing :=
  { w with regs := { w.regs with tkoLog := logFirst w.regs.tkoLog (tkoEntry event w.now) } }

/-! ## Contexts in the pantry (R72) -/

/-- The slot number of bank `b`, slot `i`: banks of 256 slots. -/
def slotNo (bank : BitVec 7) (slot : Byte) : Nat := bank.toNat * 256 + slot.toNat

def bankOf (n : Nat) : BitVec 7 := BitVec.ofNat 7 (n / 256)
def slotOf (n : Nat) : Byte := BitVec.ofNat 8 (n % 256)

/-- The slot that holds a vector. -/
def findKey (key : Word) : SMap Slot → Option (Nat × Slot)
  | [] => none
  | (n, s) :: m => if s.ctx.key = key then some (n, s) else findKey key m

def Wing.slotFor (w : Wing) (key : Word) : Option (Nat × Slot) := findKey key w.pan.slots

def Wing.ctx? (w : Wing) (key : Word) : Option Ctx := (w.slotFor key).map fun e => e.2.ctx

def Wing.resident (w : Wing) (key : Word) : Bool := (w.ctx? key).isSome

def Wing.setSlots (w : Wing) (m : SMap Slot) : Wing := { w with pan := { w.pan with slots := m } }

/-- The slot of a resident vector changed by `f`. -/
def Wing.modSlot (w : Wing) (key : Word) (f : Slot → Slot) : Wing :=
  match w.slotFor key with
  | none => w
  | some (n, s) => w.setSlots (SMap.insert w.pan.slots n (f s))

def Wing.modCtx (w : Wing) (key : Word) (f : Ctx → Ctx) : Wing := w.modSlot key fun s => { s with ctx := f s.ctx }

/-- The 32 bytes of two contexts agree, TAG apart. -/
def Ctx.sameImage (a b : Ctx) : Bool := a.image == b.image && a.arrTick == b.arrTick && a.modEnd == b.modEnd

/-- A change of a context by a record or command at tick `t`: AGE restarts and the context becomes dirty when a field of its
entry changed (R72, R80), and a write-back in flight no longer cleans it (R81). It is dirty since `t` if it was clean or its
earlier changes are on their way to memory. -/
def Ctx.changed (old new : Ctx) (t : Tick) : Ctx :=
  if old.sameImage new then new
  else { new with
    dirty := true, touched := t, dirtyAt := if old.dirty && !old.wbFresh then old.dirtyAt else t, wbFresh := false }

/-- As `changed`, for a window end, which makes nothing dirty (R80). -/
def Ctx.windowChanged (old new : Ctx) (t : Tick) : Ctx :=
  if old.sameImage new then new else { new with touched := t, wbFresh := false }

/-- A vector's context changed by a record or command. -/
def Wing.updCtx (w : Wing) (key : Word) (t : Tick) (f : Ctx → Ctx) : Wing := w.modCtx key fun c => c.changed (f c) t

/-- AGE of R72. -/
def Ctx.age (c : Ctx) (now : Tick) : Nat := min 255 ((now.toNat - c.touched.toNat) / 1024)

/-- HELD of R72: the wing holds an arrival for the vector in staging or fetch wait. -/
def Wing.heldKey (w : Wing) (key : Word) : Bool := w.vst.staged.any fun o => o.key == key

/-- Contexts that a slice holds. -/
def Wing.ctxCount (w : Wing) (s : BitVec 12) : Nat :=
  (w.pan.slots.filter fun e => keySlice e.2.ctx.key == s).length

def Wing.ctxs (w : Wing) : List Ctx := w.pan.slots.map fun e => e.2.ctx

def Wing.dirtyCount (w : Wing) : Nat := (w.ctxs.filter (·.dirty)).length

def Wing.isQuarantined (w : Wing) (key : Word) : Bool := w.pan.quar.any (· == key)

/-- A key enters the quarantine of 64 keys; the oldest leaves it when it is full (R71). -/
def Wing.quarantine (w : Wing) (key : Word) : Wing :=
  if w.isQuarantined key then w
  else
    let q := w.pan.quar ++ [key]
    { w with pan := { w.pan with quar := if q.length > 64 then q.drop 1 else q } }

/-! ## Levels and budgets (R12, R21, R239, R275) -/

/-- Wing cycles in a tick. -/
def Level.cycles : Level → Nat
  | .p0 => 512
  | .p1 => 384
  | .p2 => 256
  | .p3 => 128

/-- The level's budget per tick. -/
def Level.budget : Level → Nat
  | .p0 => 64
  | .p1 => 48
  | .p2 => 32
  | .p3 => 16

/-- Lanes named in a map. -/
def lanesIn (m : BitVec 4) : Nat := ((List.range 4).filter fun i => m.getLsbD i).length

/-- The lane cap of R21; with no lane the wing runs simplex and has none. -/
def laneCap (n : Nat) : Nat := if n = 1 then 24 else if n = 2 then 48 else 64

/-- The budget of R21. -/
def Wing.baseBudget (w : Wing) : Nat := min w.pwr.level.budget (laneCap (lanesIn w.psg.map))

/-- Lanes that count for a frame's capacity: three when no lane carries (R21). -/
def frameLanes (m : BitVec 4) : Nat := if lanesIn m = 0 then 3 else lanesIn m

/-- Blocks replayed in a frame whose release the gate withheld, without a usable spare (R239). -/
def Wing.budget (w : Wing) : Nat :=
  let l := frameLanes w.psg.map
  let b := w.baseBudget
  let b := if w.psg.replays = 0 then b else min b ((98 * l - l - 14 * w.psg.replays) / 3)
  if w.ctl.sendPos.isSome then min b ((98 * l - l - b - 16) / 3) else b

/-! ## Bring-up (R365, R388) -/

/-- The wing has not raised its claim since wing reset and has decoded no TICK_CLOSE with ROLE active. -/
def Wing.inBringUp (w : Wing) : Bool := w.ctl.claim == resetClaim w.id && !w.ctl.seenActive

/-! ## The frame under formation (R22, R231, R234) -/

/-- Record slots of the frame, its TICK_CLOSE slots and replayed blocks apart. -/
def Wing.frameSlots (w : Wing) : Nat :=
  let l := frameLanes w.psg.map
  98 * l - l - 14 * w.psg.replays

/-- Records of the frame so far, with one slot for each offer of the release until ACC_N is decided (R231), and the first 64
of the deferred group. -/
def Wing.frameUsed (w : Wing) : Nat :=
  w.psg.acc.length + w.psg.accOwed + w.psg.ord.length + min 64 w.psg.defr.length

/-- The RESYNC records that go ahead of the deferred group while a resync runs (R275). -/
def Wing.resyncFirst (w : Wing) : Nat := if w.ctl.sendPos.isSome then min 16 (w.psg.rsy.length + w.psg.copies.length) else 0

/-- `n` more records of the acceptances or the ordered group fit, beside the deferred records that have their places. -/
def Wing.roomFor (w : Wing) (n : Nat) : Bool :=
  w.frameUsed + (if w.psg.defr = [] then 0 else w.resyncFirst) + n ≤ w.frameSlots

/-- A record of the ordered group on the vector may enter the frame now: a slot is free (R231), and no command was admitted in this tick
at the command point of the vector's slice (R233). -/
def Wing.mayCarry (w : Wing) (key : Word) : Bool := w.roomFor 1 && !w.vst.underCmd.contains (keySlice key)

/-- `n` more records of the deferred group fit in this frame (R158, R234, R275). -/
def Wing.roomDeferred (w : Wing) (n : Nat) : Bool :=
  decide (w.frameUsed + w.resyncFirst + n ≤ w.frameSlots) && w.psg.defr.length + n ≤ 64

/-- The requests of a drain port, oldest first, each with whether the engine has taken it (R219). -/
def Wing.drnOf (w : Wing) (p : Nat) : List (BitVec 20 × Byte × Bool) := SMap.get w.drn [] p

/-- A record formed by the wing takes its place in its group. -/
def Wing.place (w : Wing) (r : Rec) : Wing :=
  match r.group with
  | .acceptance => { w with psg := { w.psg with acc := w.psg.acc ++ [r] } }
  | .ordered => { w with psg := { w.psg with ord := w.psg.ord ++ [r] } }
  | .deferred => { w with psg := { w.psg with defr := w.psg.defr ++ [r] } }
  | .independent => { w with psg := { w.psg with rsy := w.psg.rsy ++ [r] } }
  | .closing => w
  | .fill => w

/-! ## Room in the event rings (R174, R175) -/

/-- Positions in serial-number arithmetic: how far `a` stands above `b`. -/
def posDiff (a b : Word) : Nat := (a - b).toNat

/-- Records that a record of the deferred group will owe when its frame closes; a command's own report stands in `recsDef`. -/
def recOwes (s : BitVec 12) : Rec → Nat
  | .letter r => if (if r.fromMgr then r.slice else 0) = s then 1 else 0
  | .quar r => if r.recheck ∧ s = 0 then 1 else 0
  | .residency _ => if s = 0 then 1 else 0
  | .coreState r => if s = 0 then r.rchkN.toNat else 0
  | _ => 0

/-- OWED(s) of R174. -/
def Wing.owed (w : Wing) (s : BitVec 12) : Nat :=
  (w.ring.recsOrd.filter fun r => r.1 == s).length + (w.ring.recsDef.filter fun r => r.1 == s).length +
    (w.ring.blocks.map fun b => (b.accs.filter fun r => r.1 == s).length +
      (b.commits.filter fun r => r.1 == s).length).sum +
    (w.psg.defr.map fun r => recOwes s r).sum +
    (w.ctxs.filter fun c => keySlice c.key == s && c.count != 0).length + (w.slice s).ucmds.length

/-- FREE(s) of R174, as a signed number. -/
def Wing.free (w : Wing) (s : BitVec 12) : Int :=
  let v := w.slice s
  (2 ^ v.evtLog2.toNat : Int) - (posDiff v.wpos v.evtHead : Int) - (w.owed s : Int)

/-- The reserve of a ring: 16 positions, and 256 more in slice 0's ring (R174). -/
def ringReserve (s : BitVec 12) : Int := if s = 0 then 272 else 16

/-- The ring has room for `n` records of an ordinary cause (R175). -/
def Wing.ringRoom (w : Wing) (s : BitVec 12) (n : Nat) : Bool := n = 0 || decide (w.free s - ringReserve s ≥ (n : Int))

/-- A RECHECK record fits: FREE(0) less 16 is at least 1 (R175). -/
def Wing.recheckRoom (w : Wing) : Bool := decide (w.free 0 - 16 ≥ 1)

/-- A RECHECK record that was decided against: counted, and shown in slice 0's header. -/
def Wing.recheckLost (w : Wing) (n : Nat) : Wing :=
  if n = 0 then w
  else (w.countN cRecheckLost n).modSlice 0 fun s => { s with recheckLost := s.recheckLost + BitVec.ofNat 32 n }

/-- An event record of the frame under formation, or under application, in the ordered group. -/
def Wing.recordOrd (w : Wing) (s : BitVec 12) (r : BitVec 256) : Wing :=
  { w with ring := { w.ring with recsOrd := w.ring.recsOrd ++ [(s, r)] } }

/-- As `recordOrd`, in the deferred group. -/
def Wing.recordDef (w : Wing) (s : BitVec 12) (r : BitVec 256) : Wing :=
  { w with ring := { w.ring with recsDef := w.ring.recsDef ++ [(s, r)] } }

/-- A RECHECK record for slice 0's ring (R167): 0x01 READ_FAIL, 0x02 SPILL_LOST, 0x03 PORCH_FAULT, 0x04 RESYNC. -/
def Wing.recheckRecord (w : Wing) (cause : Byte) (slice : BitVec 12) (vv : BitVec 20) (t : Tick) : BitVec 256 :=
  eventRecord slice cause false w.ctl.reconciled false oRecheck (whereVV vv) 0 0 0 0 t

/-! ## Seats in the block of a tick (R169, R170) -/

/-- The block of tick `m` changed by `f`; blocks stand in tick order. -/
def modBlock (m : Tick) (f : EvBlock → EvBlock) : List EvBlock → List EvBlock
  | [] => [f { tick := m, accs := [], commits := [] }]
  | b :: bs =>
      if b.tick = m then f b :: bs
      else if m.toNat < b.tick.toNat then f { tick := m, accs := [], commits := [] } :: b :: bs
      else b :: modBlock m f bs

/-- An acceptance record of the release that opened tick `m`, kept in ascending key order. -/
def insertAcc (r : BitVec 12 × BitVec 97 × BitVec 256) :
    List (BitVec 12 × BitVec 97 × BitVec 256) → List (BitVec 12 × BitVec 97 × BitVec 256)
  | [] => [r]
  | a :: as => if r.2.1.toNat < a.2.1.toNat then r :: a :: as else a :: insertAcc r as

def Wing.recordAcc (w : Wing) (m : Tick) (s : BitVec 12) (k : BitVec 97) (r : BitVec 256) : Wing :=
  { w with ring := { w.ring with
      blocks := modBlock m (fun b => { b with accs := insertAcc (s, k, r) b.accs }) w.ring.blocks } }

/-! ## Rounds over indexes -/

/-- The indexes 0 to n-1 starting at `k`. -/
def roundFrom (k n : Nat) : List Nat := (List.range n).map fun i => (k + i) % n

/-! ## Wakes from Nap (R298, R301, R302, R304) -/

/-- The two REGW records that write PWR_PAIR. -/
def Wing.placePair (w : Wing) (next : BitVec 2) (t : Tick) : Wing :=
  let v : DWord := 1#1 ++ 0#5 ++ next ++ t
  (w.place (.regw { space := 0, dualPend := false, req := 0, addr := BitVec.ofNat 32 oPwrPair, val := loWord v })).place
    (.regw { space := 0, dualPend := false, req := 0, addr := BitVec.ofNat 32 (oPwrPair + 4), val := hiWord v })

/-- The wing wakes in this tick and leaves at X = w+12; the active wing in duplex names X in PWR_PAIR. -/
def Wing.scheduleExit (w : Wing) (c : WakeCause) (during : Bool) : Wing :=
  let x := w.now + 12
  let w1 := { w with pwr := { w.pwr with
    sched := some (0, x), wake := wakeWord during false c, wakeTick := w.now.setWidth 64, pendWake := none } }
  if w1.ctl.role = .active ∧ w1.ctl.duplex then w1.placePair 0 x else w1

/-- A wake is kept, the first one only. -/
def Wing.keepWake (w : Wing) (during : Bool) (c : WakeCause) : Wing :=
  if w.pwr.pendWake.isNone then
    { w with pwr := { w.pwr with pendWake := some (during, c) } }.countIf during cWakeDuringEntry
  else w

/-- NAP_WAKE: a wake source is detected in this tick. A standby leaves on its own only when it loses the heartbeat. -/
def Wing.wake (w : Wing) (c : WakeCause) : Wing :=
  if w.pwr.sched.isSome then w
  else
    match w.life with
    | .napEntry | .deepEntry => w.keepWake true c
    | .nap => if w.ctl.role = .standby ∧ c.source ≠ 0x9 then w.keepWake false c else w.scheduleExit c false
    | _ => w

end Sys2Proof.Machine
end

