-- ==== Sys2Proof/Machine/Vectors.lean ====
section
/-! DEFINITION. The vector state machine of 03_vectors_pantry_cellar.md R62 with the payload rule of 02_vestibule.md R57, the
installs and evictions of R74 to R77, and cellar reads and writes (R70, R80, R81). -/

namespace Sys2Proof.Machine

/-! ## Transitions of one context (R62, R64) -/

/-- An arrival with the tick `t` and, for a path that carries one, a payload (R57, R62). -/
def Ctx.arrive (c : Ctx) (t : Tick) (payload : Option DWord) : Ctx :=
  let fresh := c.state == .idle || c.state == .active
  let first := fresh || c.count == 0
  let st := match c.state with
    | .idle => .pending
    | .active => .activePending
    | s => s
  let arr := if first ∧ c.state ≠ .pending then t else c.arrTick
  let c1 := { c with state := st, count := if fresh then 1 else satInc c.count, arrTick := arr }
  match payload with
  | none => { c1 with gotNative := c.gotNative && !first }
  | some p =>
      if cfgKeepLast c.cfg ∨ first ∨ !c.gotNative then { c1 with payload := p, gotNative := true } else c1

/-- A porch's acceptance at core `p`, of a PENDING vector. -/
def Ctx.accept (c : Ctx) (p : Byte) : Ctx :=
  { c with state := .presented, hasLast := true, lastCore := p, count := 0, gotNative := false }

/-- A claim of a PRESENTED vector. -/
def Ctx.claim (c : Ctx) : Ctx := { c with state := if c.count = 0 then .active else .activePending }

/-- A return of a PRESENTED vector. -/
def Ctx.giveBack (c : Ctx) : Ctx := { c with state := .pending }

/-- A completion in the tick `t`, with the window of R83. -/
def Ctx.complete (c : Ctx) (t : Tick) (window : Nat) : Ctx :=
  { c with state := .completed, modEnd := t + BitVec.ofNat 56 window }

/-- The window's end at the close of a tick (R62). -/
def Ctx.endWindow (c : Ctx) (t : Tick) : Ctx :=
  if c.state = .completed ∧ c.modEnd.toNat ≤ t.toNat then
    { c with state := if c.count = 0 then .idle else .pending }
  else c

/-- A window that the study sets, between 0 and the MOD_LIMIT in force (R83). -/
def Ctx.capWin (c : Ctx) (win : BitVec 7) : BitVec 7 := if (cfgModLimit c.cfg).toNat < win.toNat then cfgModLimit c.cfg else win

/-- VEC_RESET. -/
def Ctx.reset (c : Ctx) : Ctx :=
  { c with state := .idle, count := 0, payload := 0, modEnd := 0, gotNative := false }

/-- Whether VEC_RESET is listed for the state. -/
def VState.resettable : VState → Bool
  | .idle | .pending | .completed => true
  | .presented | .active | .activePending => false

/-- Whether a completion is listed for the state. -/
def VState.completable : VState → Bool
  | .active | .activePending => true
  | _ => false

/-- The window of R83; a vector that an alarm route names has none. -/
def Wing.windowOf (w : Wing) (c : Ctx) : Nat :=
  if w.isRoute c.key then 0
  else if cfgModMode c.cfg = 1 then (cfgModLimit c.cfg).toNat
  else if cfgModMode c.cfg = 2 then c.modWin.toNat
  else 0

/-- A claim from porch `p` (R62, R64). -/
def Wing.applyClaim (w : Wing) (p : Byte) (key : Word) (t : Tick) : Wing :=
  match w.ctx? key with
  | some c =>
      if c.state = .presented ∧ c.lastCore = p then w.updCtx key t Ctx.claim else w.count cBadClaim
  | none => w.count cBadClaim

/-- A return from porch `p`. -/
def Wing.applyReturn (w : Wing) (p : Byte) (key : Word) (t : Tick) : Wing :=
  match w.ctx? key with
  | some c =>
      if c.state = .presented ∧ c.lastCore = p then w.updCtx key t Ctx.giveBack else w.count cBadClaim
  | none => w.count cBadClaim

/-- A wired level source owned by the vector is to be sampled again in the tick after its completion (R37). -/
def Wing.sourcesOf (w : Wing) (key : Word) : List Nat :=
  (List.range 1024).filter fun i =>
    let c := w.srcCfg i
    c.getLsbD 32 && !c.getLsbD 33 && loWord c == key

/-- A completion from porch `p` in the completion tick `t` (R62, R64); the level sources of the vector are noted for R37. -/
def Wing.applyComplete (w : Wing) (p : Byte) (key : Word) (t : Tick) : Wing :=
  match w.ctx? key with
  | some c =>
      if c.state.completable ∧ c.lastCore = p then
        let w1 := w.updCtx key t fun c => c.complete t (w.windowOf c)
        { w1 with vst := { w1.vst with resamp := w1.vst.resamp ++ w.sourcesOf key } }
      else w.count cBadComplete
  | none => w.count cBadComplete

/-- The window ends at the close of tick `t`, after every record of its frame (R63). -/
def Wing.windowEnds (w : Wing) (t : Tick) : Wing :=
  w.setSlots (w.pan.slots.map fun e => (e.1, { e.2 with ctx := e.2.ctx.windowChanged (e.2.ctx.endWindow t) t }))

/-! ## The cellar port (R65, R70, R80, R81) -/

/-- The address of a vector's entry. -/
def Wing.entryAddr (w : Wing) (key : Word) : DWord :=
  (w.slice (keySlice key)).vtBase + BitVec.ofNat 64 (32 * (keyVV key).toNat)

/-- VV lies beyond the slice's vector table (R60). -/
def SliceSt.beyond (s : SliceSt) (vv : BitVec 20) : Bool := 2 ^ s.vtLog2.toNat ≤ vv.toNat

/-- Reads outstanding, of at most 128 (R20). -/
def Wing.readsOut (w : Wing) : Nat :=
  (w.pan.fetches.filter (·.issued)).length + (w.sl.map fun e => e.2.descReads.length).sum +
    (w.vst.spill.map fun e => e.2.reads.length).sum + w.ring.blockReads.length

/-- A write-back of the entry of a context, through the write buffer (R80, R81). -/
def Wing.writeBack (w : Wing) (c : Ctx) : Wing :=
  let e := withTag w.key c.image c.key domainVector
  ({ w with pan := { w.pan with wbuf := w.pan.wbuf ++ [(c.key, e, c.dirtyAt)] } }.count cWriteback).emitWrite
    (w.entryAddr c.key) 32 (e.setWidth 512)

/-- The context of a write buffer's image of the vector; the latest one, if there are two. Its write is not accepted yet, so it is
not clean (R81). -/
def Wing.bufCtx (w : Wing) (key : Word) : Option Ctx :=
  (w.pan.wbuf.filter fun e => e.1 == key).getLast?.map fun e =>
    { ctxOfImage key e.2.1 w.now with dirty := true, dirtyAt := e.2.2, wbFresh := true }

/-- Issues the reads that wait, oldest first, while one is free (R20, R50); the second list is their vectors. -/
def issueFetches : Nat → List Fetch → List Fetch × List Word
  | _, [] => ([], [])
  | n, f :: fs =>
      if f.issued then
        let r := issueFetches n fs
        (f :: r.1, r.2)
      else if n = 0 then (f :: fs, [])
      else
        let r := issueFetches (n - 1) fs
        ({ f with issued := true } :: r.1, f.key :: r.2)

def Wing.issueReads (w : Wing) : Wing :=
  let r := issueFetches (128 - min 128 w.readsOut) w.pan.fetches
  r.2.foldl (fun (w : Wing) k => w.emitRead (w.entryAddr k) 32) { w with pan := { w.pan with fetches := r.1 } }

/-- A cause joins the read of a vector, or starts one (R50: arrivals on one vector share one fetch). -/
def Wing.addFetch (w : Wing) (key : Word) (c : FetchCause) : Wing :=
  if w.pan.fetches.any (·.key == key) then
    { w with pan := { w.pan with fetches := w.pan.fetches.map fun f =>
        if f.key = key then { f with causes := if f.causes.contains c then f.causes else f.causes ++ [c] } else f } }
  else
    let f : Fetch := { key := key, causes := [c], issued := false, retried := false }
    { w with pan := { w.pan with fetches := w.pan.fetches ++ [f] } }.issueReads

/-! ## Slots and victims (R74 to R77) -/

/-- An alarm route names the vector, or is about to (R78, R331). -/
def Wing.routePinned (w : Wing) (key : Word) : Bool :=
  w.isRoute key || (List.range 16).any fun i => w.effW (oAlmRoute i) == key

/-- An unfinished PIN command names the vector: it is pinned from its install on (R78). -/
def Wing.pinDue (w : Wing) (key : Word) : Bool := (w.slice 0).ucmds.any fun u => u.opcode == 0x06 && u.target == key

/-- Evictable (R76). -/
def Wing.evictable (w : Wing) (c : Ctx) : Bool :=
  c.state == .idle && !c.pin && !w.heldKey c.key && !w.routePinned c.key && !w.pinDue c.key

/-- The free slots of bank `b`, not fenced and not being rebuilt. -/
def Wing.slotFree (w : Wing) (n : Nat) : Bool :=
  (SMap.find? w.pan.slots n).isNone && !w.pan.fenced.contains n && !w.pan.reloads.any (·.slot == n)

def Wing.bankUse (w : Wing) (b : Nat) : Nat :=
  (w.pan.slots.filter fun e => e.1 / 256 == b).length + (w.pan.reloads.filter fun r => r.slot / 256 == b).length +
    (w.pan.fenced.filter fun n => n / 256 == b).length

/-- The free slot of R74 step 1: the bank with the fewest occupied slots, then the lower bank, then the lower slot. -/
def Wing.freeSlot (w : Wing) : Option Nat :=
  let bank := (List.range 64).foldl (fun (best : Option (Nat × Nat)) b =>
    let u := w.bankUse b
    if u < 256 then
      match best with
      | none => some (b, u)
      | some (_, u0) => if u < u0 then some (b, u) else best
    else best) none
  match bank with
  | none => none
  | some (b, _) => (List.range 256).find? (fun i => w.slotFree (256 * b + i)) |>.map fun i => 256 * b + i

/-- The victim of two: clean before dirty, then the higher AGE, then the lower slot number (R77). -/
def betterVictim (now : Tick) (a b : Nat × Ctx) : Bool :=
  if a.2.dirty != b.2.dirty then !a.2.dirty
  else if a.2.age now != b.2.age now then decide (a.2.age now > b.2.age now)
  else decide (a.1 < b.1)

/-- The victim among the contexts that qualify; a dirty one needs a free entry of the write buffer. -/
def Wing.victimOf (w : Wing) (ok : Ctx → Bool) : Option (Nat × Ctx) :=
  w.pan.slots.foldl (fun best e =>
    let c := e.2.ctx
    if w.evictable c && ok c && !(c.dirty && decide (64 ≤ w.pan.wbuf.length)) then
      match best with
      | none => some (e.1, c)
      | some b => if betterVictim w.now (e.1, c) b then some (e.1, c) else best
    else best) none

/-- The victim for an install for slice `s` (R77). -/
def Wing.victimFor (w : Wing) (s : BitVec 12) : Option (Nat × Ctx) :=
  if (w.slice s).maxCtx.toNat ≤ w.ctxCount s then w.victimOf fun c => keySlice c.key == s
  else w.victimOf fun c =>
    decide ((w.slice (keySlice c.key)).guarCtx.toNat < w.ctxCount (keySlice c.key))

/-- The victim for a new route vector: any evictable context, whatever the guarantees (R331). -/
def Wing.victimAny (w : Wing) : Option (Nat × Ctx) := w.victimOf fun _ => true

/-- The slot where the active wing installs, with the victim that leaves it (R74). -/
def Wing.chooseSlot (w : Wing) (s : BitVec 12) (route : Bool) : Option (Nat × Option Ctx) :=
  let free := if (w.slice s).maxCtx.toNat ≤ w.ctxCount s && !route then none else w.freeSlot
  match free with
  | some n => some (n, none)
  | none => (if route then w.victimAny else w.victimFor s).map fun v => (v.1, some v.2)

/-- A context leaves its slot; a dirty one goes to the write buffer (R77). -/
def Wing.evict (w : Wing) (n : Nat) (c : Ctx) (toBuffer : Bool) : Wing :=
  let w1 := { w with pan := { w.pan with slots := SMap.erase w.pan.slots n } }.count cEvict
  if c.dirty && toBuffer then (w1.writeBack c).count cEvictDirty else w1

/-- A context takes a slot; its steering entry is cleared (R102), and its AGE is 0 (R72). -/
def Wing.putSlot (w : Wing) (n : Nat) (c : Ctx) : Wing :=
  { w with pan := { w.pan with
      slots := SMap.insert w.pan.slots n { ctx := { c with touched := w.now }, steer := Steer.reset } } }.count cInstall

/-- A read was issued for an alarm route. -/
def routeCause (causes : List FetchCause) : Bool := causes.any fun x => match x with
  | .route _ => true
  | _ => false

/-- An install that finds no slot waits in this tick for a victim (R74). -/
def Wing.noteNoVictim (w : Wing) (c : Ctx) (causes : List FetchCause) : Wing :=
  if !w.vst.underCmd.contains (keySlice c.key) && w.roomFor 1 && (w.chooseSlot (keySlice c.key) (routeCause causes)).isNone then
    { w with pan := { w.pan with noVictim := true } }
  else w

/-- The active wing installs a fetched image and carries it as an INSTALL record (R74); none when no slot qualifies, the slice
is under command (R233), or the frame has no room. -/
def Wing.install? (w : Wing) (c : Ctx) (causes : List FetchCause) : Option Wing :=
  let s := keySlice c.key
  let route := routeCause causes
  if w.vst.underCmd.contains s || !w.roomFor 1 then none
  else
    (w.chooseSlot s route).map fun ch =>
      let w1 := match ch.2 with
        | some v => w.evict ch.1 v true
        | none => w
      let w2 := { w1 with pan := { w1.pan with recent := w1.pan.recent ++ [(w.now, ch.1, c)] } }
      (w2.putSlot ch.1 { c with pin := c.pin || causes.contains .repin }).place
        (.install { bank := bankOf ch.1, slot := slotOf ch.1, key := c.key, tag := c.tag })

end Sys2Proof.Machine
end

