-- ==== Sys2Proof/Machine/RingOps.lean ====
section
/-! DEFINITION. Ring positions and doorbells (06_rings_and_records.md R148 to R153), descriptor reads (R157), and letters
(07_slices.md R197 to R199). -/

namespace Sys2Proof.Machine

/-! ## Doorbell values (R152) -/

/-- The value at or above `base` whose low 24 bits are `pos`, by its distance from `base`. -/
def restoreFrom (base : Word) (pos : BitVec 24) : Nat := (pos - base.extractLsb' 0 24).toNat

/-- A CMD_TAIL report, restored and validated. -/
def SliceSt.restoreTail (s : SliceSt) (pos : BitVec 24) : Option Word :=
  let d := restoreFrom s.cmdHead pos
  if d ≤ 2 ^ s.cmdLog2.toNat ∧ posDiff s.cmdTail s.cmdHead ≤ d then some (s.cmdHead + BitVec.ofNat 32 d) else none

/-- An EVT_HEAD report, restored and validated. -/
def SliceSt.restoreHead (s : SliceSt) (pos : BitVec 24) : Option Word :=
  let d := restoreFrom s.evtHead pos
  if d ≤ posDiff s.wpos s.evtHead then some (s.evtHead + BitVec.ofNat 32 d) else none

/-! ## Descriptor reads (R157) -/

/-- Bytes of a descriptor. -/
def SliceSt.descBytes (s : SliceSt) : Nat := if s.cmdVer then 32 else 16

/-- Descriptors in a 64-byte read. -/
def SliceSt.descPer (s : SliceSt) : Nat := 64 / s.descBytes

/-- The ring's software may have descriptors read in the slice's state (R179, R157). -/
def SliceSt.fetches (s : SliceSt) : Bool :=
  (s.state == .running) && !s.ringHalt && s.failPos.isNone

/-- The next read of a ring: its first position, the number of descriptors, and its address. -/
def SliceSt.nextRead (s : SliceSt) : Option (DescRead × DWord) :=
  let have_ := s.descs.length + (s.descReads.map (·.count)).sum
  let p := s.cmdHead + BitVec.ofNat 32 have_
  let left := posDiff s.cmdTail s.cmdHead - have_
  if s.fetches && decide (have_ < posDiff s.cmdTail s.cmdHead) then
    let ix := p.toNat % 2 ^ s.cmdLog2.toNat
    let n := min left (s.descPer - ix % s.descPer)
    some ({ first := p, count := n, retried := false },
      s.cmdBase + BitVec.ofNat 64 (ix / s.descPer * 64))
  else none

/-- Descriptor reads outstanding across all slices, of at most 16. -/
def Wing.descReadsOut (w : Wing) : Nat := (w.sl.map fun e => e.2.descReads.length).sum

/-- Issues the reads of one ring while it has descriptors to read; `fuel` bounds the reads. -/
def Wing.readRing (w : Wing) (s : BitVec 12) : Nat → Wing
  | 0 => w
  | fuel + 1 =>
      match (w.slice s).nextRead with
      | none => w
      | some (r, a) =>
          if w.descReadsOut < 16 ∧ w.readsOut < 128 then
            ((w.modSlice s fun v => { v with descReads := v.descReads ++ [r] }).emitRead a 64).readRing s fuel
          else w

/-- Issues descriptor reads for every ring, slice 0's first, while the memory port has one free (R20). -/
def Wing.readRings (w : Wing) : Wing :=
  if w.admitsNew then w.sliceNums.foldl (fun w s => w.readRing s 16) w else w

/-- A doorbell value applied by the active wing and carried as a RINGPOS record (R153). -/
def Wing.applyDoorbell (w : Wing) (s : BitVec 12) (kind : BitVec 2) (pos : BitVec 24) : Wing :=
  let v := w.slice s
  match (if kind = 0 then v.restoreTail pos else v.restoreHead pos) with
  | none => w.count cCmdDbBad
  | some p =>
      let w1 := w.setSlice s (if kind = 0 then { v with cmdTail := p } else { v with evtHead := p })
      (w1.place (.doorbell { slice := s, kind := kind, pos := p })).readRings

/-- The latest value of each kind that a wing that is not active observed (R153); one that R152 does not find valid is counted (R176). -/
def Wing.keepDoorbell (w : Wing) (s : BitVec 12) (kind : BitVec 2) (pos : BitVec 24) : Wing :=
  let v := w.slice s
  (w.modSlice s fun v => if kind = 0 then { v with keptTail := some pos } else { v with keptHead := some pos }).countIf
    (if kind = 0 then v.restoreTail pos else v.restoreHead pos).isNone cCmdDbBad

/-! ## Letters (R197 to R199) -/

/-- A letter of the slice to the manager that has room in slice 0's ring (R175, R197). -/
def Wing.sendOut (w : Wing) (s : BitVec 12) : Nat → Wing
  | 0 => w
  | fuel + 1 =>
      match (w.slice s).outbox with
      | [] => w
      | (q, v) :: rest =>
          if w.ringRoom 0 1 && w.roomDeferred 1 then
            ((w.modSlice s fun x => { x with outbox := rest }).place
              (.letter { fromMgr := false, slice := s, lseq := q, letter := v.setWidth 64 })).sendOut s fuel
          else w

/-- A letter of the manager to the slice that has room in the slice's ring; the inbox is emptied where the record applies. -/
def Wing.sendIn (w : Wing) (s : BitVec 12) : Nat → Wing
  | 0 => w
  | fuel + 1 =>
      let placed := (w.psg.defr.filter fun r => match r with
        | .letter l => l.fromMgr && l.slice == s
        | _ => false).length
      match (w.slice s).inbox.drop placed with
      | [] => w
      | v :: _ =>
          if w.ringRoom s 1 && w.roomDeferred 1 then
            (w.place (.letter { fromMgr := true, slice := s, lseq := 0, letter := v })).sendIn s fuel
          else w

/-- The slice's letters leave their boxes in its state (R179): in RESETTING and REMOVING they stay queued. -/
def SliceSt.lettersGo (s : SliceSt) : Bool :=
  match s.state with
  | .running | .quiescing | .quiesced => true
  | _ => false

/-- The active wing carries the letters that have room, slice by slice. -/
def Wing.sendLetters (w : Wing) : Wing :=
  if w.ownsFrame then
    w.sliceNums.foldl (fun w s => if (w.slice s).lettersGo then (w.sendOut s 4).sendIn s 4 else w) w
  else w

/-- A letter written at the letterbox doorbell (R198). Slice 0 has no letterbox (R197), and its letter is dropped without a count
(DESIGN CHOICE, log 22). -/
def Wing.takeLetter (w : Wing) (s : BitVec 12) (v : Word) : Wing :=
  if s = 0 then w
  else
    let x := w.slice s
    let q := x.lseq + 1
    if x.outbox.length < 4 then
      (w.setSlice s { x with lseq := q, outbox := x.outbox ++ [(q, v)] }).sendLetters
    else (w.setSlice s { x with lseq := q }).count cLbxDrop

end Sys2Proof.Machine
end

