-- ==== Sys2Proof/Machine/Vestibule.lean ====
section
/-! DEFINITION. The vestibule of 02_vestibule.md: checks and rejection (R46, R47, R416), registration (R42, R50), admission (R48
to R52, R415), the terminal-event filter (R209 to R213), escalations (R214 to R216), staging and spill (R52 to R55). -/

namespace Sys2Proof.Machine

/-! ## Rejection (R46, R47) -/

/-- Reason codes of R46. -/
def rjAddr : Nat := 0x1
def rjSize : Nat := 0x2
def rjRsvd : Nat := 0x3
def rjUnbound : Nat := 0x4
def rjPasid : Nat := 0x5
def rjUntagged : Nat := 0x6
def rjVvRange : Nat := 0x7
def rjGenStale : Nat := 0x8
def rjStopped : Nat := 0x9
def rjSweSlice : Nat := 0xA
def rjEngineId : Nat := 0xB

/-- A rejection is counted, and logged if the log is free. -/
def Wing.reject (w : Wing) (code : Nat) (entry : BitVec 4 → DWord) : Wing :=
  let w1 := w.count (cReject code)
  { w1 with regs := { w1.regs with vstRejectLog := logFirst w1.regs.vstRejectLog (entry (BitVec.ofNat 4 code)) } }

/-- The log entry of a write at the aperture. -/
def aptRejectEntry (a : AptWrite) (r : BitVec 4) : DWord :=
  rejectEntry a.pasidP 0 r a.slice a.pageOff a.req (if a.pasidP then a.pasid else 0)

/-- The log entry of an observation. -/
def Obs.rejectEntry (o : Obs) (r : BitVec 4) : DWord :=
  Machine.rejectEntry o.pasidP o.cls r (keySlice o.key) (if o.cls = 0 then o.off else o.num) o.req
    (if o.pasidP then o.pasid else 0)

/-! ## Origins and sequences (R27, R42) -/

/-- The index of an origin: 4,096 pages, 1,024 wired, 256 raises, 16 alarms. -/
def originIx (cls : BitVec 2) (num : BitVec 12) : Nat :=
  match cls.toNat with
  | 0 => num.toNat
  | 1 => 4096 + num.toNat % 1024
  | 2 => 5120 + num.toNat % 256
  | _ => 5376 + num.toNat % 16

def Wing.seqOf (w : Wing) (i : Nat) : Word := SMap.get w.vst.seqs 0 i

def Wing.setSeq (w : Wing) (i : Nat) (v : Word) : Wing :=
  { w with vst := { w.vst with seqs := SMap.set w.vst.seqs 0 i v } }

/-- `a` is at or below `b` in serial-number arithmetic modulo 2^32. -/
def serialLe (a b : Word) : Bool := decide ((b - a).toNat < 2 ^ 31)

/-! ## Engine outcomes (08_engines_contract.md R204 to R206) -/

/-- An engine outcome: a native message of KIND 1. -/
def Obs.outcome (o : Obs) : Bool := o.cls == 0 && ctrlKind o.ctrl

/-- CAUSE of an escalation (R206, R216): 0b01 CLEAR_FAIL, 0b10 NOT_CLEARED, 0 none. -/
def Obs.escCause (o : Obs) : BitVec 2 :=
  if !o.outcome then 0
  else if ctrlClearFail o.ctrl then 0b01
  else if ctrlOutcome o.ctrl = 0b10 ∧ !ctrlCleared o.ctrl then 0b10
  else 0

/-- The escalation's payload (R216). -/
def Obs.escPayload (o : Obs) (fate : BitVec 2) : DWord :=
  0#6 ++ fate ++ o.req ++ o.escCause ++ ctrlOutcome o.ctrl ++ keySlice o.key ++ o.jobTag

/-! ## Checks at admission (R46, R179, R416) -/

/-- Registered before STOP_TICK. -/
def SliceSt.oldWork (s : SliceSt) (reg : Tick) : Bool := decide (reg.toNat < s.stopTick.toNat)

/-- The first failing reason of the admission checks. `late` says that the arrival already waits in staging: R179 lets waiting
arrivals of a stopped slice wait. -/
def Wing.admissionCheck (w : Wing) (o : Obs) (late : Bool) : Option Nat :=
  let s := w.slice (keySlice o.key)
  if o.cls = 3 then none
  else if o.outcome && !w.engineIdOk o.req then some rjEngineId
  else if !s.bound then some rjUnbound
  else if o.cls = 0 && !o.pasidP && !(o.off = 0x100 && s.msiUntagged) then some rjUntagged
  else if o.cls = 0 && o.pasidP && o.pasid != s.pasid then some rjPasid
  else if o.cls = 2 && !o.swe then some rjSweSlice
  else if s.beyond (keyVV o.key) then some rjVvRange
  else if o.outcome && (o.jobTag.extractLsb' 24 8 : Byte) != s.gen then some rjGenStale
  else
    match s.state with
    | .running | .unbound | .creating => none
    | .quiescing => if o.outcome || s.oldWork o.reg then none else some rjStopped
    | .quiesced | .resetting | .removing => if late && !o.outcome then none else some rjStopped

/-- An arrival of the slice may be admitted in its state (R179): staged arrivals of a stopped slice wait. -/
def Wing.admitting (w : Wing) (o : Obs) : Bool :=
  o.cls == 3 ||
    match (w.slice (keySlice o.key)).state with
    | .running | .quiescing => true
    | _ => false

/-! ## The terminal-event filter (R209 to R213) -/

def Wing.filterHit (w : Wing) (s : BitVec 12) (tag : Word) : Bool :=
  w.vst.filter.any fun e => e.2.slice == s && e.2.jobTag == tag

/-- The outcome needs a filter entry that the wing cannot read (R341). -/
def Wing.filterPoisoned (w : Wing) (s : BitVec 12) (tag : Word) : Bool :=
  w.vst.filter.any fun e => e.2.slice == s && e.2.jobTag == tag && e.2.poisoned

/-- MIN_AGE in ticks. -/
def Wing.minAge (w : Wing) : Nat := 2 ^ ((w.effW oEngCtrl).extractLsb' 0 4).toNat

/-- The oldest entry, the lower-numbered one among those of one tick. -/
def oldestFilter : SMap FilterEnt → Option (Nat × FilterEnt)
  | [] => none
  | e :: m =>
      match oldestFilter m with
      | none => some e
      | some x => if x.2.tick.toNat < e.2.tick.toNat then some x else some e

/-- The lowest index that is not listed, at or above `i`. -/
def freeIndex {α : Type} : Nat → SMap α → Nat
  | i, [] => i
  | i, (k, _) :: m => if k = i then freeIndex (i + 1) m else i

/-- An insertion finds a free entry, or an oldest entry of at least MIN_AGE ticks (R212). -/
def Wing.filterRoom (w : Wing) (t : Tick) : Bool :=
  decide (w.vst.filter.length < 4096) ||
    match oldestFilter w.vst.filter with
    | none => true
    | some e => decide (w.minAge ≤ t.toNat - e.2.tick.toNat)

/-- The arrival is an outcome that waits for a place in the filter (R212). -/
def Wing.filterWaits (w : Wing) (o : Obs) : Bool :=
  o.outcome && w.resident o.key && !w.filterHit (keySlice o.key) o.jobTag && !w.filterRoom w.now

/-- The entry of an outcome admitted in tick `t`; the oldest entry makes room when all are in use. -/
def Wing.filterInsert (w : Wing) (s : BitVec 12) (tag : Word) (t : Tick) : Wing :=
  let full := decide (4096 ≤ w.vst.filter.length)
  let f0 := match full, oldestFilter w.vst.filter with
    | true, some e => SMap.erase w.vst.filter e.1
    | _, _ => w.vst.filter
  let f := SMap.insert f0 (freeIndex 0 f0) { slice := s, jobTag := tag, tick := t, poisoned := false }
  { w with vst := { w.vst with filter := f } }.countIf full cFilterEvict

/-! ## What an admitted arrival does, in both wings (R57, R58, R62, R167) -/

/-- The outcome code of an arrival's own record (R166). -/
def Obs.recordOutcome (o : Obs) : BitVec 4 :=
  if o.outcome then
    (if ctrlOutcome o.ctrl = 0b01 then 0x2 else if ctrlOutcome o.ctrl = 0b10 then 0x3 else 0x4)
  else oNormal

/-- The record that an arrival owes of its own (R58, R167). -/
def Wing.arrivalRecord (w : Wing) (o : Obs) : BitVec 256 :=
  eventRecord (keySlice o.key) 0 (o.outcome && ctrlCleared o.ctrl) w.ctl.reconciled false o.recordOutcome
    (whereVV (keyVV o.key)) 1 (if o.outcome then o.engStatus else 0) (if o.outcome then o.jobTag else 0) o.payload o.reg

/-- The arrival owes a record of its own: an engine outcome, or an arrival on a PER_ARRIVAL vector. -/
def ownsRecord (o : Obs) (c : Ctx) : Bool := o.outcome || cfgPerArrival c.cfg

/-- The delivery of an arrival to its vector, carried in the frame of tick `t`. -/
def Wing.deliver (w : Wing) (o : Obs) (t : Tick) : Wing :=
  match w.ctx? o.key with
  | none => w
  | some c =>
      let w1 := w.updCtx o.key t fun c => c.arrive o.reg (if o.carries then some o.payload else none)
      let w2 := if ownsRecord o c then w1.recordOrd (keySlice o.key) (w.arrivalRecord o) else w1
      let w3 := if o.outcome then (w2.filterInsert (keySlice o.key) o.jobTag t).count cOutcomes else w2
      w3.count cAdmitted

/-- The record of an escalation on a PER_ARRIVAL route vector (R58, R167). -/
def Wing.escRecord (w : Wing) (o : Obs) (key : Word) (pay : DWord) : BitVec 256 :=
  eventRecord (keySlice key) 0 false w.ctl.reconciled false oNormal (whereVV (keyVV key)) 1 0 0 pay o.reg

/-- The delivery of an escalation to the vector of ENG_ESC's line (R215), with the counts of R216. -/
def Wing.deliverEsc (w : Wing) (o : Obs) (key : Word) (fate : BitVec 2) (t : Tick) : Wing :=
  let pay := o.escPayload fate
  let w1 := (w.updCtx key t fun c => c.arrive o.reg (some pay)).count cAdmitted |>.count cEscalate
  let per := match w.ctx? key with
    | some c => cfgPerArrival c.cfg
    | none => false
  let w2 := if per then w1.recordOrd (keySlice key) (w.escRecord o key pay) else w1
  { w2 with regs := { w2.regs with
      engEscLog := logFirst w2.regs.engEscLog (1#1 ++ 0#5 ++ pay.extractLsb' 0 58) } }

/-! ## ARRIVE records (R241) -/

def Obs.arriveRec (o : Obs) (key : Word) (alarm discard esc recheck : Bool) (cause : BitVec 2) : ArriveRec :=
  { alarm := alarm, discard := discard, esc := esc, recheck := recheck, regLo := o.reg.extractLsb' 0 8, cls := o.cls
    cause := cause, num := o.num, seq := o.seq, key := key, chk := o.chk }

/-- CAUSE of a discard. -/
def dcSpillLost : BitVec 2 := 0b00
def dcFilter : BitVec 2 := 0b01
def dcReadFail : BitVec 2 := 0b10
def dcQuarantine : BitVec 2 := 0b11

/-! ## Budget and credit (R48, R49, R415) -/

def Wing.credLeft (w : Wing) (s : BitVec 12) : Nat :=
  (w.slice s).credit.toNat - SMap.get w.vst.cred 0 s.toNat

def Wing.useCredit (w : Wing) (s : BitVec 12) : Wing :=
  { w with vst := { w.vst with cred := SMap.set w.vst.cred 0 s.toNat (SMap.get w.vst.cred 0 s.toNat + 1) } }

def Wing.useBudget (w : Wing) (n : Nat) : Wing := { w with vst := { w.vst with arrLeft := w.vst.arrLeft - n } }

/-- The slice's credit is spent for the rest of the tick and HELD is set, counted once a tick (R175). -/
def Wing.holdSlice (w : Wing) (s : BitVec 12) : Wing :=
  let v := w.slice s
  let w1 := { w with vst := { w.vst with cred := SMap.set w.vst.cred 0 s.toNat v.credit.toNat } }
  if v.heldFlag then w1 else (w1.setSlice s { v with heldFlag := true }).count cEvrHeld

/-- The content of an arrival in a frame that is not acknowledged yet is kept for R242. -/
def Wing.keepSent (w : Wing) (o : Obs) : Wing :=
  { w with vst := { w.vst with sentArr := w.vst.sentArr ++ [(w.now, o)] } }

/-- Records that an arrival owes to its ring (R175). -/
def owesOf (o : Obs) (c : Ctx) : Nat := (if ownsRecord o c then 1 else 0) + (if c.count = 0 then 1 else 0)

/-! ## One attempt to admit (R48, R50, R71, R175, R209, R215, R233) -/

/-- An escalation's record, when the message raises one. -/
def Wing.escalate (w : Wing) (o : Obs) (fate : BitVec 2) : Wing :=
  if o.escCause = 0 then w
  else
    let k := w.route w.escLine
    ((w.deliverEsc o k fate w.now).useBudget 1).place (.arrive (o.arriveRec k true false true false fate))

/-- A discard of an arrival, carried as an ARRIVE record (R415); it takes one budget slot and, but for an alarm, one credit. -/
def Wing.discard (w : Wing) (o : Obs) (cause : BitVec 2) (recheck : Bool) : Wing :=
  let w1 := if o.cls = 3 then w else w.useCredit (keySlice o.key)
  (w1.useBudget 1).place (.arrive (o.arriveRec o.key (o.cls == 3) true false recheck cause))

/-- Budget, credit and frame room for the records of an arrival: `n` records, of which an alarm or an escalation takes no
credit. -/
def Wing.canCarry (w : Wing) (o : Obs) (n : Nat) : Bool :=
  decide (n ≤ w.vst.arrLeft) && w.roomFor n && (o.cls == 3 || decide (0 < w.credLeft (keySlice o.key)))

/-- What becomes of one attempt to admit an arrival. -/
inductive Attempt
  | gone (w : Wing)      -- admitted, discarded or rejected
  | waits                -- not in this tick, or not before its context is in the pantry
  | held                 -- no room in the event ring: the slice's credit is spent
  deriving DecidableEq, Repr

/-- The arrival is one of the list, by its origin and sequence. -/
def Obs.isOf (o : Obs) (l : List (BitVec 2 × BitVec 12 × Word)) : Bool := l.contains (o.cls, o.num, o.seq)

/-- An escalation can go now: its vector is in the pantry and not under command (R215, R233). -/
def Wing.escReady (w : Wing) : Bool :=
  w.resident (w.route w.escLine) && !w.vst.underCmd.contains (keySlice (w.route w.escLine))

/-- A rejection of an arrival, at once and without budget; the escalation that it owes goes with it, or waits for budget apart from the
staging queue (R46, R50, R214). FATE is 0b10. -/
def Wing.rejectObs (w : Wing) (o : Obs) (r : Nat) : Wing :=
  let w1 := w.reject r o.rejectEntry
  if o.escCause = 0 ∨ r = rjEngineId then w1
  else if decide (1 ≤ w1.vst.arrLeft) && w1.roomFor 1 && w1.escReady then (w1.escalate o 0b10).keepSent o
  else { w1 with vst := { w1.vst with escDue := w1.vst.escDue ++ [o] } }

/-- Escalations of rejected messages that wait for budget are tried again, oldest first (R214). -/
def Wing.serveEsc (w : Wing) : Wing :=
  w.vst.escDue.foldl (fun w o =>
    if decide (1 ≤ w.vst.arrLeft) && w.roomFor 1 && w.escReady then
      ({ w with vst := { w.vst with escDue := w.vst.escDue.erase o } }.escalate o 0b10).keepSent o
    else w) w

/-- The discard of an arrival whose fetch failed twice, with its escalation (R70, R214). R216 gives no FATE for it, and the model takes
that of a rejection (DESIGN CHOICE, log 25). -/
def Wing.attemptDoomed (w : Wing) (o : Obs) : Attempt :=
  let esc := if o.escCause = 0 then 0 else 1
  if w.vst.underCmd.contains (keySlice o.key) || (esc = 1 && !w.escReady) then .waits
  else if w.canCarry o (1 + esc) then .gone (((w.escalate o 0b10).discard o dcReadFail false).keepSent o)
  else .waits

/-- The discard of an arrival whose spill entry was lost: ORIGIN and SEQ 0, with the decision on its RECHECK record (R70, R241). -/
def Wing.attemptLost (w : Wing) (o : Obs) : Attempt :=
  if w.vst.underCmd.contains (keySlice o.key) then .waits
  else if w.canCarry o 1 then
    let ok := w.recheckRoom
    let w1 := if ok then w else w.recheckLost 1
    let o0 : Obs := { o with cls := 0, num := 0, seq := 0, chk := 0 }
    let w2 := w1.discard { o0 with key := mkKey (keySlice o.key) 0 } dcSpillLost ok
    .gone (if ok then w2.recordOrd 0 (w2.recheckRecord 0x02 (keySlice o.key) 0 w2.now) else w2)
  else .waits

/-- One attempt by the active wing to admit an arrival. -/
def Wing.attempt (w : Wing) (o : Obs) (late : Bool) : Attempt :=
  let s := keySlice o.key
  let esc := if o.escCause = 0 then 0 else 1
  if o.isOf w.vst.poison then .waits
  else if o.isOf w.vst.spillLost then w.attemptLost o
  else if o.isOf w.vst.doomed then w.attemptDoomed o
  else match w.admissionCheck o late with
  | some r => .gone (w.rejectObs o r)
  | none =>
      if !w.admitting o || (o.cls != 3 && w.vst.underCmd.contains s) || (esc = 1 && !w.escReady) then .waits
      else if w.isQuarantined o.key then
        if w.canCarry o (1 + esc) then
          .gone ((((w.escalate o 0b10).discard o dcQuarantine false).count cQuarantined).keepSent o)
        else .waits
      else
        match w.ctx? o.key with
        | none => .waits
        | some c =>
            if c.poisoned || (o.outcome && w.filterPoisoned s o.jobTag) then .waits
            else if o.outcome && w.filterHit s o.jobTag then
              if w.canCarry o (1 + esc) then
                .gone ((((w.escalate o 0b01).discard o dcFilter false).count cDupDrop).keepSent o)
              else .waits
            else if w.filterWaits o then .waits
            else if !w.canCarry o (1 + esc) then .waits
            else if o.cls != 3 && !w.ringRoom s (owesOf o c) then .held
            else
              let w1 := w.escalate o 0b00
              let w2 := (w1.deliver o w.now).useBudget 1
              let w3 := if o.cls = 3 then w2 else w2.useCredit s
              .gone ((w3.place (.arrive (o.arriveRec o.key (o.cls == 3) false false false 0))).keepSent o)

/-! ## Staging and spill (R52, R53, R55, R189) -/

def Wing.stagedOf (w : Wing) (s : BitVec 12) : Nat := (w.vst.staged.filter fun o => keySlice o.key == s && o.cls != 3).length

def Wing.spillOf (w : Wing) (s : BitVec 12) : Spill := SMap.get w.vst.spill Spill.reset s.toNat

def Wing.setSpill (w : Wing) (s : BitVec 12) (v : Spill) : Wing :=
  { w with vst := { w.vst with spill := SMap.set w.vst.spill Spill.reset s.toNat v } }

/-- Entries of a slice's spill ring. -/
def SliceSt.spillSize (s : SliceSt) : Nat := 2 ^ s.spLog2.toNat

def Wing.spillFull (w : Wing) (s : BitVec 12) : Bool :=
  (w.slice s).bound && decide ((w.slice s).spillSize ≤ (w.spillOf s).items.length)

/-- The address of entry `i` of this wing's spill ring (R65). -/
def Wing.spillAddr (w : Wing) (s : BitVec 12) (i : Nat) : DWord :=
  let v := w.slice s
  let ring := if w.id = .west then 32 * v.spillSize else 0
  v.spBase + BitVec.ofNat 64 (ring + 32 * (i % v.spillSize))

/-- The spill entry of an observation. -/
def Wing.spillEntry (w : Wing) (o : Obs) : BitVec 256 :=
  withTag w.key o.spillBody (mkKey (keySlice o.key) 0) (domainSpill w.id)

/-- An arrival joins its slice's staging share, or the spill ring when the share is full or older arrivals are spilled (R48,
R52, R189). An alarm, and an observation of a slice without a share, which a wing that is not active goes on holding (R50), are kept
beside the shares. A wired or raised arrival that finds the spill ring full goes on it all the same: R55 holds back the aperture only
(DESIGN CHOICE, log 91). -/
def Wing.stage (w : Wing) (o : Obs) : Wing :=
  let s := keySlice o.key
  let v := w.slice s
  let sp := w.spillOf s
  let full := decide (v.stageShare.toNat ≤ w.stagedOf s)
  if o.cls = 3 ∨ !v.bound then { w with vst := { w.vst with staged := w.vst.staged ++ [o] } }
  else if !full ∧ sp.items = [] then { w with vst := { w.vst with staged := w.vst.staged ++ [o] } }.count cStaged
  else
    let w1 := w.setSpill s { sp with items := sp.items ++ [o], tail := sp.tail + 1 }
    let w2 := if full then w1.setSlice s { v with qfull := true } else w1
    (w2.count cSpilled).emitWrite (w.spillAddr s sp.tail) 32 ((w.spillEntry o).setWidth 512)

/-- A new arrival follows those of its slice that are spilled, those staged and admissible, and those staged for the same
vector (R48). An outcome that waits for the filter is not admissible (R212). -/
def Wing.mustFollow (w : Wing) (o : Obs) : Bool :=
  (w.spillOf (keySlice o.key)).items != [] ||
    w.vst.staged.any fun x => keySlice x.key == keySlice o.key && x.cls != 3 &&
      (x.key == o.key || (w.resident x.key && !w.filterWaits x))

/-- The arrival waits in this tick for a place in the filter (R212). -/
def Wing.noteFilterWait (w : Wing) (o : Obs) : Wing :=
  if w.filterWaits o then { w with vst := { w.vst with filterWaited := true } } else w

/-- The fetch of an arrival's context, unless it is in the pantry, on its way or quarantined (R50, R71, R75). -/
def Wing.fetchFor (w : Wing) (o : Obs) (cause : FetchCause) : Wing :=
  if w.resident o.key || w.isQuarantined o.key || w.pan.waiting.any (·.ctx.key == o.key) ||
      w.pan.images.any (·.ctx.key == o.key) || w.pan.reloads.any (·.key == o.key) then w
  else
    match w.bufCtx o.key with
    | some c =>
        let w1 := w.count cBufHit
        if cause = .observed then
          { w1 with pan := { w1.pan with images := w1.pan.images ++ [{ ctx := c, tick := w.now, causes := [cause] }] } }
        else
          match w1.install? c [cause] with
          | some w2 => w2
          | none =>
              let w2 := w1.noteNoVictim c [cause]
              { w2 with pan := { w2.pan with waiting := w2.pan.waiting ++ [{ ctx := c, tick := w.now, causes := [cause] }] } }
    | none => w.addFetch o.key cause

/-- Phase 3 of R48 for one new arrival in the active wing, and phase 1 for an alarm, which follows nothing. -/
def Wing.admitNew (w : Wing) (o : Obs) : Wing :=
  match w.admissionCheck o false with
  | some r => w.rejectObs o r
  | none =>
      let cold := o.cls != 3 && !w.resident o.key && !w.isQuarantined o.key
      let w0 := if cold then w.fetchFor o .arrival else w
      let w1 := w0.countIf (cold && !w0.resident o.key) cFetchWait
      if o.cls != 3 && w1.mustFollow o then w1.stage o
      else
        match w1.attempt o false with
        | .gone w2 => w2
        | .waits => (w1.noteFilterWait o).stage o
        | .held => (w1.holdSlice (keySlice o.key)).stage o

/-! ## Registration (R42, R46, R50) -/

/-- An observation that passed the registration checks, registered in tick `t`: it takes its sequence; the active wing admits
it, any other wing holds it (R45). -/
def Wing.registerAt (w : Wing) (t : Tick) (o : Obs) : Wing :=
  let i := originIx o.cls o.num
  let q := w.seqOf i + 1
  let o1 := { o with seq := q, reg := t }
  let w1 := (w.setSeq i q).count cRegistered
  if w1.admitsNew then w1.admitNew o1
  else
    let w2 := if w1.ctl.role = .standby ∧ (w1.admissionCheck o1 false).isNone then w1.fetchFor o1 .observed else w1
    w2.stage o1

def Wing.register (w : Wing) (o : Obs) : Wing := w.registerAt w.now o

/-! ## Aperture writes (R28, R31, R33) -/

/-- CHK of R241: the CRC-16 over the bytes of the write. -/
def chkOf (a : AptWrite) (n : Nat) : BitVec 16 := crc16 ((bytesOf 32 a.data).take n)

/-- The registration checks of a native message. -/
def nativeCheck (a : AptWrite) : Option Nat :=
  let c : Word := a.field 0 32
  let kind := c.getLsbD 20
  let low : BitVec 25 := c.extractLsb' 0 25
  let rest := (a.field 4 16 : BitVec 16) != 0 || (a.field 8 32 : Word) != 0
  if a.pageOff != 0 || a.strb != 0xFFFFFFFF then some rjSize
  else if (c.extractLsb' 25 7 : BitVec 7) != 0 || (a.field 6 16 : BitVec 16) != 0 ||
      (a.field 12 32 : Word) != 0 || (a.field 24 64 : DWord) != 0 then some rjRsvd
  else if !kind && (ctrlOutcome low != 0 || ctrlCleared low || ctrlClearFail low || rest) then some rjRsvd
  else if kind && (ctrlOutcome low == 0 || (ctrlCleared low && ctrlClearFail low)) then some rjRsvd
  else none

/-- The observation of a native message. -/
def nativeObs (a : AptWrite) : Obs :=
  let c : Word := a.field 0 32
  { cls := 0, num := a.slice, seq := 0, key := mkKey a.slice (c.extractLsb' 0 20), reg := 0
    ctrl := c.extractLsb' 0 25, engStatus := a.field 4 16, jobTag := a.field 8 32, payload := a.field 16 64
    carries := true, req := a.req, pasidP := a.pasidP, pasid := if a.pasidP then a.pasid else 0, off := 0x000
    swe := true, chk := chkOf a 32 }

/-- The registration checks of MSI data. -/
def msiCheck (a : AptWrite) : Option Nat :=
  let d : Word := a.field 0 32
  if a.pageOff != 0x100 || (a.strb != 0xF && a.strb != 0x3) then some rjSize
  else if a.strb == 0xF && (d.extractLsb' 20 12 : BitVec 12) != 0 then some rjRsvd
  else none

/-- The observation of MSI data. -/
def msiObs (a : AptWrite) : Obs :=
  let wide := a.strb == 0xF
  let vv : BitVec 20 := if wide then a.field 0 20 else (a.field 0 16 : BitVec 16).setWidth 20
  { cls := 0, num := a.slice, seq := 0, key := mkKey a.slice vv, reg := 0, ctrl := vv.setWidth 25, engStatus := 0
    jobTag := 0, payload := 0, carries := false, req := a.req, pasidP := a.pasidP
    pasid := if a.pasidP then a.pasid else 0, off := 0x100, swe := true, chk := chkOf a (if wide then 4 else 2) }

/-- The page ranges of R28. -/
inductive AptRange
  | native
  | msi
  | cmd
  | letter
  | none
  deriving DecidableEq, Repr

def AptRange.of (off : BitVec 12) : AptRange :=
  let n := off.toNat
  if n < 0x020 then .native
  else if 0x100 ≤ n ∧ n < 0x104 then .msi
  else if 0x200 ≤ n ∧ n < 0x204 then .cmd
  else if 0x300 ≤ n ∧ n < 0x304 then .letter
  else .none

/-- The checks of a doorbell write (R35, R151, R416). -/
def Wing.doorbellCheck (w : Wing) (a : AptWrite) (off : BitVec 12) : Option Nat :=
  let d : Word := a.field 0 32
  let s := w.slice a.slice
  if a.pageOff != off || a.strb != 0xF then some rjSize
  else if off == 0x200 && (d.getLsbD 31 || (d.extractLsb' 24 6 : BitVec 6) != 0) then some rjRsvd
  else if !s.bound then some rjUnbound
  else if !a.pasidP then some rjUntagged
  else if a.pasid != s.pasid then some rjPasid
  else none

end Sys2Proof.Machine
end

