-- ==== Sys2Proof/Machine/SliceOps.lean ====
section
/-! DEFINITION. Slices (07_slices.md): the parameter block's checks, pools, creation and its writes, changes of share, clearing at
a reset or removal, and the drain requests of a quiesce (R219). -/

namespace Sys2Proof.Machine

/-! ## Command codes (R162, R164) -/

def ccRsvd : Byte := 0x01
def ccOpcode : Byte := 0x02
def ccSlice : Byte := 0x03
def ccVvRange : Byte := 0x04
def ccState : Byte := 0x05
def ccCoreset : Byte := 0x06
def ccLimit : Byte := 0x07
def ccResource : Byte := 0x08
def ccAlign : Byte := 0x09
def ccMemory : Byte := 0x0A
def ccNotQuiesced : Byte := 0x0B
def ccPasid : Byte := 0x0C

def opNop : Byte := 0x01
def opVecCfg : Byte := 0x02
def opVecReset : Byte := 0x03
def opVecQuery : Byte := 0x04
def opVecComplete : Byte := 0x05
def opPin : Byte := 0x06
def opUnpin : Byte := 0x07
def opFlush : Byte := 0x08
def opCreate : Byte := 0x10
def opShare : Byte := 0x11
def opQuiesce : Byte := 0x12
def opResume : Byte := 0x13
def opReset : Byte := 0x14
def opRemove : Byte := 0x15
def opLetterPost : Byte := 0x16

def isVecOp (o : Byte) : Bool := decide (0x02 ≤ o.toNat) && decide (o.toNat ≤ 0x07)
def isSliceOp (o : Byte) : Bool := decide (0x10 ≤ o.toNat) && decide (o.toNat ≤ 0x15)
def isKnownOp (o : Byte) : Bool :=
  (decide (1 ≤ o.toNat) && decide (o.toNat ≤ 8)) || (decide (0x10 ≤ o.toNat) && decide (o.toNat ≤ 0x16))

/-- Opcodes that only slice 0's ring may hold. -/
def isManagerOp (o : Byte) : Bool := o == opVecComplete || decide (0x06 ≤ o.toNat)

/-! ## The checks on a parameter block (R66, R147, R181, R182, R186) -/

def inRange (lo hi n : Nat) : Bool := decide (lo ≤ n) && decide (n ≤ hi)

def pbShareBad (b : BitVec 1024) : Bool :=
  pbShareReserved b || decide (16384 < (pbGuar b).toNat) || (pbMax b) == 0 || decide (16384 < (pbMax b).toNat) ||
    decide ((pbMax b).toNat < (pbGuar b).toNat) || decide (8192 < (pbShare b).toNat) ||
    !inRange 1 64 (pbCredit b).toNat

/-- A five-bit size field. -/
def log5 (d : DWord) : Nat := (d.extractLsb' 0 5 : BitVec 5).toNat

def pbRestBad (s : BitVec 12) (b : BitVec 1024) : Bool :=
  pbReserved b || !inRange 6 20 (log5 (pbVt b)) || !inRange 6 20 (log5 (pbSp b)) ||
    !inRange 4 12 (log5 (pbCmd b)) || !inRange (if s = 0 then 12 else 10) 20 (log5 (pbEvt b))

/-- A base breaks its alignment to the larger of 4 KiB and the region's size. -/
def misaligned (base : DWord) (size : Nat) : Bool := base.toNat % max 4096 size != 0

def pbAlignBad (b : BitVec 1024) : Bool :=
  misaligned (pageBase (pbVt b)) (32 * 2 ^ log5 (pbVt b)) ||
    misaligned (pageBase (pbSp b)) (64 * 2 ^ log5 (pbSp b)) ||
    misaligned (pageBase (pbCmd b)) ((if (pbCmd b).getLsbD 5 then 32 else 16) * 2 ^ log5 (pbCmd b)) ||
    misaligned (pageBase (pbEvt b)) (32 * 2 ^ log5 (pbEvt b))

/-- The other bound slices. -/
def Wing.othersBound (w : Wing) (s : BitVec 12) : List SliceSt :=
  (w.sl.filter fun e => e.2.bound && e.1 != s.toNat).map Prod.snd

def Wing.pasidTaken (w : Wing) (s : BitVec 12) (p : BitVec 20) : Bool := (w.othersBound s).any fun v => v.pasid == p

/-- The pools of contexts and staging would be exceeded. -/
def Wing.sharePools (w : Wing) (s : BitVec 12) (b : BitVec 1024) : Bool :=
  decide (16384 < ((w.othersBound s).map fun v => v.guarCtx.toNat).sum + (pbGuar b).toNat) ||
    decide (8192 < ((w.othersBound s).map fun v => v.stageShare.toNat).sum + (pbShare b).toNat)

/-- The vector tables would hold more than 2^32 entries. -/
def Wing.tablePool (w : Wing) (s : BitVec 12) (b : BitVec 1024) : Bool :=
  decide (2 ^ 32 < ((w.othersBound s).map fun v => 2 ^ v.vtLog2.toNat).sum + 2 ^ log5 (pbVt b))

/-- PASID and RESOURCE of SLICE_CREATE: the code of the first failing check, or 0. -/
def Wing.createLate (w : Wing) (s : BitVec 12) (b : BitVec 1024) : Byte :=
  if w.pasidTaken s ((pbBind b).extractLsb' 0 20) then ccPasid
  else if w.sharePools s b || w.tablePool s b then ccResource
  else 0

/-- The checks of SLICE_CREATE on its block. -/
def Wing.createCheck (w : Wing) (s : BitVec 12) (b : BitVec 1024) : Byte :=
  if pbShareBad b || pbRestBad s b then ccRsvd
  else if pbAlignBad b then ccAlign
  else w.createLate s b

/-- RESOURCE of SLICE_SHARE. -/
def Wing.shareLate (w : Wing) (s : BitVec 12) (b : BitVec 1024) : Byte := if w.sharePools s b then ccResource else 0

def Wing.shareCheck (w : Wing) (s : BitVec 12) (b : BitVec 1024) : Byte :=
  if pbShareBad b then ccRsvd else w.shareLate s b

/-! ## What a finish does to the slice (R183, R188, R190, R196) -/

/-- The share part. -/
def SliceSt.withShare (v : SliceSt) (b : BitVec 1024) : SliceSt :=
  { v with guarCtx := (pbGuar b).setWidth 15, maxCtx := (pbMax b).setWidth 15, stageShare := (pbShare b).setWidth 14
           credit := (pbCredit b).setWidth 7, csAllow := pbAllow b }

/-- The slice as its creation leaves it: GEN unchanged, all else new. -/
def SliceSt.created (v : SliceSt) (b : BitVec 1024) : SliceSt :=
  { SliceSt.reset.withShare b with
    state := .running, gen := v.gen
    pasid := (pbBind b).extractLsb' 0 20, msiUntagged := (pbBind b).getLsbD 20
    vtBase := pageBase (pbVt b), vtLog2 := (pbVt b).extractLsb' 0 5
    spBase := pageBase (pbSp b), spLog2 := (pbSp b).extractLsb' 0 5
    cmdBase := pageBase (pbCmd b), cmdVer := (pbCmd b).getLsbD 5, cmdLog2 := (pbCmd b).extractLsb' 0 5
    evtBase := pageBase (pbEvt b), evtLog2 := (pbEvt b).extractLsb' 0 5
    hdrBase := pbHdr b }

/-- The slice after a reset: its binding, directory entry, ring table and share stay. -/
def SliceSt.cleared (v : SliceSt) : SliceSt :=
  { SliceSt.reset with
    state := .running, gen := v.gen + 1, pasid := v.pasid, msiUntagged := v.msiUntagged, maxCtx := v.maxCtx
    guarCtx := v.guarCtx, credit := v.credit, stageShare := v.stageShare, csAllow := v.csAllow, vtBase := v.vtBase
    vtLog2 := v.vtLog2, spBase := v.spBase, spLog2 := v.spLog2, cmdBase := v.cmdBase, cmdVer := v.cmdVer
    cmdLog2 := v.cmdLog2, evtBase := v.evtBase, evtLog2 := v.evtLog2, hdrBase := v.hdrBase, posted := v.posted }

/-- The slice after a removal. -/
def SliceSt.removed (v : SliceSt) : SliceSt := { SliceSt.reset with gen := v.gen + 1, posted := v.posted }

/-- Creation takes effect. -/
def Wing.createSlice (w : Wing) (s : BitVec 12) (b : BitVec 1024) : Wing :=
  let w1 := w.setSlice s ((w.slice s).created b)
  { w1 with vst := { w1.vst with spill := SMap.erase w1.vst.spill s.toNat } }

def Wing.shareSlice (w : Wing) (s : BitVec 12) (b : BitVec 1024) : Wing := w.modSlice s fun v => v.withShare b

/-- The read's causes that outlive the slice's clearing: those of an alarm route, and with `kept` the slot that is rebuilt. -/
def routeCauses (kept : Bool) (cs : List FetchCause) : List FetchCause :=
  cs.filter fun c => match c with
    | .route _ => true
    | .reload _ _ => kept
    | _ => false

/-- The arrivals that a clearing discards: staged, spilled, and counted in vectors that leave the pantry. -/
def Wing.discardable (w : Wing) (s : BitVec 12) (keep : Ctx → Bool) : Nat :=
  w.stagedOf s + ((w.spillOf s).items.length - (w.spillOf s).dead.length) +
    ((w.ctxs.filter fun c => keySlice c.key == s && !keep c).map fun c => c.count.toNat).sum

/-- The slice's state outside its own entry is cleared (R196, R211): contexts, held arrivals, records owed, quarantine keys and filter
entries. DESIGN CHOICE (log 86): with `keepRoutes`, at a reset, a context that an alarm route names keeps its COUNT, which is not
discarded and goes on to owe its record; R196 keeps the context and says nothing of its COUNT. DESIGN CHOICE (log 111): an outcome that is
still staged or spilled and owes an escalation is discarded without one; R214 names what is recorded, dropped or rejected only. -/
def Wing.clearSlice (w : Wing) (s : BitVec 12) (keepRoutes : Bool) : Wing :=
  let keep (c : Ctx) : Bool := keepRoutes && w.isRoute c.key
  let mine (k : Word) : Bool := keySlice k == s
  let v := w.slice s
  let w1 := (w.countN cSlcDiscard (w.discardable s keep)).countN cLbxDrop (v.inbox.length + v.outbox.length)
  let slots := w1.pan.slots.filter fun e => !(mine e.2.ctx.key) || keep e.2.ctx
  let slots := slots.map fun e =>
    if mine e.2.ctx.key then (e.1, { ctx := { e.2.ctx with pin := false }, steer := Steer.reset })
    else e
  let notMine (r : BitVec 12 × BitVec 256) : Bool := r.1 != s
  { w1 with
    pan := { w1.pan with
      slots := slots
      quar := w1.pan.quar.filter fun k => !mine k
      fetches := (w1.pan.fetches.map fun f =>
        if mine f.key then { f with causes := routeCauses (keepRoutes && w.isRoute f.key) f.causes } else f).filter fun f => f.causes != []
      waiting := w1.pan.waiting.filter fun i => !(mine i.ctx.key) || routeCauses (keepRoutes && w.isRoute i.ctx.key) i.causes != []
      images := w1.pan.images.filter fun i => !(mine i.ctx.key) || (keepRoutes && w.isRoute i.ctx.key)
      reloads := (w1.pan.reloads.filter fun r => !(mine r.key) || (keepRoutes && w.isRoute r.key)).map fun r =>
        if mine r.key then { r with pin := false, steer := Steer.reset } else r }
    vst := { w1.vst with
      staged := w1.vst.staged.filter fun o => o.cls == 3 || !mine o.key
      spill := SMap.erase w1.vst.spill s.toNat
      filter := w1.vst.filter.filter fun e => e.2.slice != s }
    ring := { w1.ring with
      recsOrd := w1.ring.recsOrd.filter notMine
      recsDef := w1.ring.recsDef.filter notMine
      recOut := w1.ring.recOut.filter fun r => r.1 != s
      blocks := w1.ring.blocks.map fun b =>
        { b with accs := b.accs.filter fun r => r.1 != s, commits := b.commits.filter notMine }
      written := w1.ring.written.map fun b =>
        { b with accs := b.accs.filter fun r => r.1 != s, commits := b.commits.filter notMine } }
    hall := { w1.hall with
      modQ := w1.hall.modQ.filter fun e => !mine e.1
      modAcc := w1.hall.modAcc.filter fun k => !mine k
      seen64 := w1.hall.seen64.filter fun k => !mine k } }

/-- SLICE_RESET finishes. -/
def Wing.resetSlice (w : Wing) (s : BitVec 12) : Wing :=
  let w1 := w.clearSlice s true
  (w1.setSlice s (w1.slice s).cleared).count cSlcResets

/-- SLICE_REMOVE finishes. -/
def Wing.removeSlice (w : Wing) (s : BitVec 12) : Wing :=
  let w1 := w.clearSlice s false
  (w1.setSlice s (w1.slice s).removed).count cSlcRemoved

/-! ## The writes of creation and reset (R68, R172, R183, R195) -/

/-- Writes of a creation or a reset: vector entries, event ring, header. -/
def creationWrites (vt evt : Nat) : Nat := 2 ^ vt + 2 ^ (evt - 1) + 1

/-- The image that creation writes for a vector. -/
def Wing.initialEntry (w : Wing) (key : Word) : BitVec 256 :=
  withTag w.key (initialCtx key 0).image key domainVector

/-- Write number `i` of a creation or reset of slice `s` with the given regions; none where the entry belongs to a vector
that an alarm route names and the command is a reset. -/
def Wing.creationWrite (w : Wing) (s : BitVec 12) (vtBase evtBase hdrBase : DWord) (vt evt : Nat) (reset : Bool)
    (i : Nat) : Wing :=
  if i < 2 ^ vt then
    let k := mkKey s (BitVec.ofNat 20 i)
    if reset && w.isRoute k then w
    else w.emitWrite (vtBase + BitVec.ofNat 64 (32 * i)) 32 ((w.initialEntry k).setWidth 512)
  else if i < 2 ^ vt + 2 ^ (evt - 1) then w.emitWrite (evtBase + BitVec.ofNat 64 (64 * (i - 2 ^ vt))) 64 0
  else w.emitWrite hdrBase 64 (HdrImg.reset.bytes w.now)

/-- Up to `n` writes of a slice's job are issued; the rest of the allowance is left for later jobs (R184). -/
def Wing.issueJob (w : Wing) (s : BitVec 12) (n : Nat) : Wing × Nat :=
  let v := w.slice s
  match v.job with
  | none => (w, n)
  | some j =>
      if j.phase != .writing || j.left = 0 then (w, n)
      else
        let reset := j.opcode == opReset
        let vt := if reset then v.vtLog2.toNat else log5 (pbVt j.param)
        let evt := if reset then v.evtLog2.toNat else log5 (pbEvt j.param)
        let vb := if reset then v.vtBase else pageBase (pbVt j.param)
        let eb := if reset then v.evtBase else pageBase (pbEvt j.param)
        let hb := if reset then v.hdrBase else pbHdr j.param
        let k := min n j.left
        let start := creationWrites vt evt - j.left
        let w1 := w.setSlice s { v with job := some { j with left := j.left - k } }
        ((List.range k).foldl (fun (x : Wing) i => x.creationWrite s vb eb hb vt evt reset (start + i)) w1, n - k)

/-- The slices with a job, in the order in which their commands were admitted; slice 0's own creation comes first. -/
def Wing.jobOrder (w : Wing) : List (BitVec 12) :=
  let head := (w.slice 0).cmdHead
  let js := w.sl.filterMap fun e => e.2.job.map fun j => (if e.1 = 0 then 2 ^ 32 else posDiff head j.pos, e.1)
  let ins (x : Nat × Nat) (l : List (Nat × Nat)) : List (Nat × Nat) :=
    l.takeWhile (fun y => decide (x.1 ≤ y.1)) ++ [x] ++ l.dropWhile fun y => decide (x.1 ≤ y.1)
  (js.foldl (fun l x => ins x l) []).map fun x => BitVec.ofNat 12 x.2

/-- The tick's allowance of 128 writes (R184). -/
def Wing.issueCreation (w : Wing) : Wing :=
  (w.jobOrder.foldl (fun (a : Wing × Nat) s => a.1.issueJob s a.2) (w, 128)).1

/-! ## Parameter blocks (R20, R181) -/

/-- The finish of a command is decided already. -/
def Wing.finishing (w : Wing) (ring : BitVec 12) (pos : Word) : Bool :=
  w.ring.finDue.any (fun d => d.ring == ring && d.pos == pos) ||
    w.psg.defr.any fun r => match r with
      | .finish f => f.ring == ring && f.pos == (pos.extractLsb' 0 16 : BitVec 16)
      | _ => false

/-- The unfinished command of slice 0's ring at a position. -/
def Wing.managerCmd (w : Wing) (pos : Word) : Option UCmd := (w.slice 0).ucmds.find? fun u => u.pos == pos

/-- The address of slice 0's block: BOOT_PARAM.ADDR. -/
def Wing.bootAddr (w : Wing) : DWord := w.effD oBootParam &&& 0xFFFFFFFFFFFFFFC0

/-- Where the block of a job stands in memory. -/
def Wing.blockAddr (w : Wing) (s : BitVec 12) (j : Job) : DWord :=
  if s = 0 then w.bootAddr else ((w.managerCmd j.pos).map (·.operand)).getD 0

/-- A half of the block is still to be read; SLICE_SHARE reads the first only. -/
def Wing.blockWanted (w : Wing) (s : BitVec 12) (j : Job) (half : Bool) : Bool :=
  j.phase == .reading && !j.got.contains half && !(j.opcode == opShare && half) &&
    (if s = 0 then w.ctl.booting else w.ownsFrame && !w.finishing 0 j.pos)

/-- The read of one half of a block, for the first time or again. -/
def Wing.askHalf (w : Wing) (s : BitVec 12) (j : Job) (half : Bool) : Wing :=
  w.emitRead (w.blockAddr s j + if half then 64 else 0) 64

/-- A half that is wanted and not on its way is read, if one of the 128 reads is free. -/
def Wing.issueHalf (s : BitVec 12) (j : Job) (w : Wing) (half : Bool) : Wing :=
  if w.blockWanted s j half && !w.ring.blockReads.contains (s, half, true) && decide (w.readsOut < 128) then
    ({ w with ring := { w.ring with blockReads := w.ring.blockReads ++ [(s, half, true)] } }).askHalf s j half
  else w

/-- The reads of parameter blocks that wait, slice by slice. -/
def Wing.issueBlocks (w : Wing) : Wing :=
  w.sl.foldl (fun w e => match e.2.job with
    | some j => [false, true].foldl (Wing.issueHalf (BitVec.ofNat 12 e.1) j) w
    | none => w) w

/-- What waits for a read takes those that are free: fetches first, then parameter blocks (R20, R50; DESIGN CHOICE, log 106). -/
def Wing.useReads (w : Wing) : Wing := w.issueReads.issueBlocks

/-- A job begins with its block: what an earlier job of the slice asked for is not for it. -/
def Wing.askBlock (w : Wing) (s : BitVec 12) : Wing :=
  { w with ring := { w.ring with
      blockReads := w.ring.blockReads.map fun (x : BitVec 12 × Bool × Bool) => if x.1 = s then (x.1, x.2.1, false) else x } }.useReads

/-! ## Drain requests (R191, R219) -/

def Wing.portEn (w : Wing) (p : Nat) : Bool := (w.effW oEngCtrl).getLsbD (16 + p)

/-- The requests that port `p` still owes for quiescing slices: in order of STOP_TICK, then of slice number. -/
def Wing.drainWants (w : Wing) (p : Nat) : List (BitVec 20 × Byte) :=
  let qs := w.sl.filter fun e => e.2.state == .quiescing && !e.2.drained.getLsbD p && decide (e.2.stopTick.toNat ≤ w.now.toNat)
  let ins (x : Nat × SliceSt) (l : List (Nat × SliceSt)) : List (Nat × SliceSt) :=
    l.takeWhile (fun y => decide (y.2.stopTick.toNat ≤ x.2.stopTick.toNat)) ++ [x] ++
      l.dropWhile fun y => decide (y.2.stopTick.toNat ≤ x.2.stopTick.toNat)
  (qs.foldl (fun l x => ins x l) []).map fun e => (e.2.pasid, e.2.gen)

/-- The frame under formation already carries the report of a port for a pair. -/
def Wing.reported (w : Wing) (p : Nat) (x : BitVec 20 × Byte) : Bool :=
  w.psg.defr.contains (.drain { port := BitVec.ofNat 4 p, pasid := x.1, gen := x.2 })

/-- The active wing offers what each enabled port owes, at most 4 outstanding on a port. A request that the engine has taken stays
outstanding until its report, and one that it has not goes when it is not owed any more. -/
def Wing.offerDrains (w : Wing) : Wing :=
  if !w.isActive then { w with drn := [] }
  else
    (List.range 16).foldl (fun w p =>
        let wants := if w.portEn p then (w.drainWants p).filter fun x => !w.reported p x else []
        let have_ := (w.drnOf p).filter fun x => x.2.2 || wants.contains (x.1, x.2.1)
        let new := wants.filter fun x => !have_.any fun y => y.1 == x.1 && y.2.1 == x.2
        let q := have_ ++ (new.take (4 - have_.length)).map fun x => (x.1, x.2, false)
        let w1 := { w with drn := SMap.set w.drn [] p q }
        match q.find? (fun x => !x.2.2) with
        | some x => w1.emit (.drn w.id (BitVec.ofNat 4 p) x.1 x.2.1)
        | none => w1) w

end Sys2Proof.Machine
end

