-- ==== Sys2Proof/Machine/Commands.lean ====
section
/-! DEFINITION. Commands (06_rings_and_records.md R156 to R164): checks, the order in which they start, admission at the command
point, their effects, and their finishes. -/

namespace Sys2Proof.Machine

/-! ## Checks (R159, R162) -/

/-- The vector that a command names. -/
def cmdKey (ring : BitVec 12) (target : Word) : Word := if ring = 0 then target else mkKey ring (keyVV target)

/-- The slice that a command names: TARGET.SLICE in slice 0's ring, the ring's own slice in any other (R156, R233). -/
def cmdSlice (ring : BitVec 12) (target : Word) : BitVec 12 := if ring = 0 then keySlice target else ring

/-- A CFG word with a reserved bit or value (R67). -/
def cfgReserved (c : Word) : Bool :=
  (c.extractLsb' 27 5 : BitVec 5) != 0 || cfgModMode c == 3 || decide (64 < (cfgModLimit c).toNat)

/-- A reserved operand field of a known opcode is not 0, or an encoded field holds a reserved value. -/
def operandReserved (op : Byte) (a : CmdArgs) : Bool :=
  let noVec := keyVV a.target != 0
  if op = opVecCfg then hiWord a.operand != 0 || a.operand2 != 0 || cfgReserved (loWord a.operand)
  else if isVecOp op then a.operand != 0 || a.operand2 != 0
  else if op = opCreate ∨ op = opShare then noVec || (a.operand.extractLsb' 0 6 : BitVec 6) != 0 || a.operand2 != 0
  else if op = opLetterPost then noVec || a.operand2 != 0
  else noVec || a.operand != 0 || a.operand2 != 0

/-- The vectors that the manager has pinned: those in the pantry, those that are read into it again, and those of PIN commands that have
not finished (R78). -/
def Wing.pinned (w : Wing) : List Word :=
  let out (e : Nat × SliceSt) : List Word :=
    (e.2.ucmds.filter fun u => u.opcode == opPin).map fun u => cmdKey (BitVec.ofNat 12 e.1) u.target
  let again := ((w.pan.fetches.filter fun f => f.causes.contains .repin).map (·.key)) ++
    (w.pan.waiting.filter fun i => i.causes.contains .repin).map fun i => i.ctx.key
  ((w.ctxs.filter (·.pin)).map (·.key) ++ (w.pan.reloads.filter (·.pin)).map (·.key) ++ again ++ w.sl.flatMap out).dedup

/-- Pinned vectors, those of alarm routes apart (R78). -/
def Wing.pinCount (w : Wing) : Nat := (w.pinned.filter fun k => !w.isRoute k).length

/-- Pinned vectors of a slice, by the manager or by an alarm route. -/
def Wing.slicePins (w : Wing) (s : BitVec 12) : Nat :=
  ((w.pinned ++ (w.ctxs.filter fun c => w.isRoute c.key).map (·.key)).dedup.filter fun k => keySlice k == s).length

/-- The own checks of a command, in the order of the table. -/
def Wing.ownCheck (w : Wing) (ring : BitVec 12) (op : Byte) (a : CmdArgs) : Byte :=
  let key := cmdKey ring a.target
  let v := w.slice (cmdSlice ring a.target)
  let ctx := w.ctx? key
  if op = opVecCfg then
    if w.isQuarantined key then ccState
    else if v.csAllow.getLsbD (cfgCoreset (loWord a.operand)).toNat then 0 else ccCoreset
  else if op = opVecReset then
    match ctx with
    | some c => if c.state.resettable then 0 else ccState
    | none => 0
  else if op = opVecQuery then (if w.isQuarantined key then ccState else 0)
  else if op = opVecComplete then
    match ctx with
    | some c => if c.state.completable then 0 else ccState
    | none => ccState
  else if op = opPin then
    if w.isQuarantined key then ccState
    else
      match ctx with
      | some c =>
          if c.pin then 0
          else if 8192 ≤ w.pinCount ∨ v.maxCtx.toNat ≤ w.slicePins (keySlice key) then ccLimit else 0
      | none => if 8192 ≤ w.pinCount ∨ v.maxCtx.toNat ≤ w.slicePins (keySlice key) then ccLimit else 0
  else if op = opUnpin then (if w.routePinned key then ccState else 0)
  else if op = opQuiesce then (if v.state = .running then 0 else ccState)
  else if op = opResume ∨ op = opReset ∨ op = opRemove then (if v.state = .quiesced then 0 else ccNotQuiesced)
  else 0

/-- The target slice is not in the state that the command requires. -/
def Wing.sliceCheck (w : Wing) (ring : BitVec 12) (op : Byte) (a : CmdArgs) : Bool :=
  let n := cmdSlice ring a.target
  let v := w.slice n
  if isVecOp op then !v.bound
  else if op = opCreate then n == 0 || v.state != .unbound
  else if isSliceOp op || op = opLetterPost then n == 0 || !v.bound
  else false

/-- The code of the first failing check of R159, or 0. -/
def Wing.cmdCheck (w : Wing) (ring : BitVec 12) (d : Desc) : Byte :=
  let a := d.args
  if a.flags != 0 || (d.v2 && a.rsv != 0) || (ring != 0 && keySlice a.target != 0) ||
      (isKnownOp d.opcode && operandReserved d.opcode a) then ccRsvd
  else if !isKnownOp d.opcode || (isManagerOp d.opcode && ring != 0) then ccOpcode
  else if w.sliceCheck ring d.opcode a then ccSlice
  else if isVecOp d.opcode && (w.slice (cmdSlice ring a.target)).beyond (keyVV a.target) then ccVvRange
  else w.ownCheck ring d.opcode a

/-! ## Order (R161) and waiting (R80, R158, R162) -/

/-- The command needs memory traffic or a wait (R160). -/
def Wing.isLong (w : Wing) (ring : BitVec 12) (op : Byte) (target : Word) : Bool :=
  if op = opVecCfg ∨ op = opVecReset ∨ op = opVecQuery ∨ op = opPin then !w.resident (cmdKey ring target)
  else op == opFlush || (isSliceOp op && op != opResume)

/-- An unfinished command of the ring stands in the way of one with opcode `op` and target `t`. -/
def blocksStart (ring : BitVec 12) (op : Byte) (t : Word) (u : UCmd) : Bool :=
  (isVecOp op && isVecOp u.opcode && cmdKey ring t == cmdKey ring u.target) ||
    (ring == 0 && (isSliceOp op || isVecOp op) && (isSliceOp u.opcode || isVecOp u.opcode) &&
      (isSliceOp op || isSliceOp u.opcode) && keySlice t == keySlice u.target)

/-- The FINISH of the command stands in the frame under formation. -/
def Wing.finishPlaced (w : Wing) (ring : BitVec 12) (u : UCmd) : Bool :=
  w.psg.defr.any fun r => match r with
    | .finish f => f.ring == ring && f.pos == (u.pos.extractLsb' 0 16 : BitVec 16)
    | _ => false

/-- R161 lets the command start. A command has finished in the tick whose frame carries its FINISH (R160). The state that a slice command
leaves governs from the next tick, and no command finds its slice in between (R178): one that names the slice waits for that. -/
def Wing.mayStart (w : Wing) (ring : BitVec 12) (d : Desc) : Bool :=
  let us := (w.slice ring).ucmds
  let openUs := us.filter fun u => !w.finishPlaced ring u || isSliceOp u.opcode
  let unfinished := us.filter fun u => !w.finishPlaced ring u
  !(d.args.fence && unfinished != []) && !openUs.any (blocksStart ring d.opcode d.args.target) &&
    !(decide (4 ≤ unfinished.length) && w.isLong ring d.opcode d.args.target)

/-- LETTER_POST waits while the target's inbox holds 4 letters. -/
def Wing.letterHold (w : Wing) (ring : BitVec 12) (d : Desc) : Bool :=
  let v := w.slice (cmdSlice ring d.args.target)
  d.opcode == opLetterPost && decide (4 ≤ v.inbox.length + v.posted.length)

/-- Records of a command in the frame. -/
def cmdRecords (d : Desc) : Nat := if d.v2 && d.args.operand2 != 0 then 3 else 2

/-! ## Completion records (R167) -/

/-- VEC_QUERY's report of a context. -/
def Ctx.report (c : Ctx) : Report :=
  { count := c.count, status := 0#5 ++ c.state.code ++ 0#1 ++ c.modWin, cfgw := c.cfg, hasLast := c.hasLast
    lastCore := c.lastCore }

/-- The completion record of a command, with PHASE 0. -/
def Wing.cmdRecord (w : Wing) (ring : BitVec 12) (op : Byte) (target : Word) (result : Byte) (r : Report)
    (cookie : DWord) (t : Tick) : BitVec 256 :=
  let r := if result = 0 then r else Report.zero
  let vv := if isVecOp op then keyVV target else 0
  let whr := if r.hasLast then whereCore r.lastCore vv else whereVV vv
  eventRecord (cmdSlice ring target) result false w.ctl.reconciled false (if result = 0 then oCmdDone else oCmdErr)
    whr r.count r.status r.cfgw cookie t

/-! ## Effects of vector commands (R62, R71, R78, R83, R102, R163) -/

/-- VEC_CFG on a resident vector. -/
def Ctx.configure (c : Ctx) (cfg : Word) : Ctx :=
  { c with cfg := cfg, modWin := Ctx.capWin { c with cfg := cfg } c.modWin }

def Wing.vecCfg (w : Wing) (key : Word) (cfg : Word) (t : Tick) : Wing :=
  w.modSlot key fun s =>
    { ctx := s.ctx.changed (s.ctx.configure cfg) t
      steer := if cfgCoreset cfg = cfgCoreset s.ctx.cfg then s.steer else Steer.reset }

/-- The vector that is being read again is pinned no more. -/
def Wing.dropRepin (w : Wing) (key : Word) : Wing :=
  let keep (k : Word) (cs : List FetchCause) : List FetchCause := if k = key then cs.filter (· != .repin) else cs
  { w with pan := { w.pan with
      fetches := w.pan.fetches.map fun (f : Fetch) => { f with causes := keep f.key f.causes }
      waiting := w.pan.waiting.map fun (i : Image) => { i with causes := keep i.ctx.key i.causes } } }

/-- The effect of a vector command on a resident vector, or of VEC_RESET on a quarantined one, with its report. -/
def Wing.vecEffect (w : Wing) (op : Byte) (key : Word) (operand : DWord) (t : Tick) : Wing × Report :=
  match w.ctx? key with
  | none =>
      if op = opVecReset then ({ w with pan := { w.pan with quar := w.pan.quar.filter (· != key) } }, Report.zero)
      else if op = opUnpin then (w.dropRepin key, Report.zero)
      else (w, Report.zero)
  | some c =>
      if op = opVecCfg then (w.vecCfg key (loWord operand) t, Report.zero)
      else if op = opVecReset then
        ({ w with pan := { w.pan with quar := w.pan.quar.filter (· != key) } }.updCtx key t Ctx.reset,
          { Report.zero with count := c.count })
      else if op = opVecQuery then (w, c.report)
      else if op = opVecComplete then
        let w1 := w.updCtx key t fun c => c.complete t (w.windowOf c)
        ({ w1 with vst := { w1.vst with resamp := w1.vst.resamp ++ w.sourcesOf key } }, Report.zero)
      else if op = opPin then (w.modCtx key fun c => { c with pin := true }, Report.zero)
      else if op = opUnpin then (w.modCtx key fun c => { c with pin := false }, Report.zero)
      else (w, Report.zero)

/-- The command would make a clean context dirty while more than 2,304 are (R80): one that fails, or that changes nothing, does not. -/
def Wing.dirtyHold (w : Wing) (ring : BitVec 12) (d : Desc) : Bool :=
  let key := cmdKey ring d.args.target
  decide (2304 < w.dirtyCount) && w.cmdCheck ring d == 0 &&
    match w.ctx? key with
    | some c =>
        !c.dirty &&
          ((d.opcode == opVecCfg && !(c.configure (loWord d.args.operand)).sameImage c) ||
            (d.opcode == opVecReset && !c.reset.sameImage c) || d.opcode == opVecComplete)
    | none => (d.opcode == opVecCfg || d.opcode == opVecReset) && !w.isQuarantined key

/-! ## State changes by admission and by finish (R178) -/

/-- What the admission of a command changes when its frame is applied. -/
def Wing.admitState (w : Wing) (op : Byte) (s : BitVec 12) (t : Tick) : Wing :=
  if op = opCreate then w.modSlice s fun v => { v with state := .creating }
  else if op = opQuiesce then
    w.modSlice s fun v => { v with state := .quiescing, stopTick := t + 1, quiesceTick := t, drained := 0 }
  else if op = opResume then
    let w1 := w.modSlice s fun v => { v with state := .running, stopTick := 0, drainTimeout := false }
    { w1 with vst := { w1.vst with resumed := w1.vst.resumed ++ [s] } }
  else if op = opReset then w.modSlice s fun v => { v with state := .resetting, strand := 0, strandTold := false }
  else if op = opRemove then w.modSlice s fun v => { v with state := .removing, strand := 0, strandTold := false }
  else w

/-- The limit of a quiesce has passed (R192). -/
def SliceSt.timedOut (v : SliceSt) (t : Tick) : Bool := decide (v.quiesceTick.toNat + 65536 ≤ t.toNat)

/-- What the finish of a slice command changes. -/
def Wing.finishState (w : Wing) (op : Byte) (s : BitVec 12) (result : Byte) (param : BitVec 1024) (t : Tick) : Wing :=
  let w1 := if isSliceOp op then w.modSlice s fun v => { v with job := none } else w
  if result != 0 then (if op = opCreate then w1.modSlice s fun v => { v with state := .unbound } else w1)
  else if op = opCreate then (w1.withSigned fun v => v.createSlice s param).count cSlcCreated
  else if op = opShare then w1.withSigned fun v => v.shareSlice s param
  else if op = opQuiesce then
    let out := (w1.slice s).timedOut t
    (w1.modSlice s fun v => { v with state := .quiesced, drainTimeout := out }).countIf out cSlcDrainTimeout
  else if op = opReset then w1.resetSlice s
  else if op = opRemove then w1.withSigned fun v => v.removeSlice s
  else w1

/-- The unfinished command of a ring that a FINISH names by the low bits of its position. -/
def Wing.ucmdFor (w : Wing) (ring : BitVec 12) (pos : BitVec 16) : Option UCmd :=
  (w.slice ring).ucmds.find? fun u => (u.pos.extractLsb' 0 16 : BitVec 16) == pos

/-- The creation of slice 0 ends a START with code 0x00 (R388). -/
def Wing.bootDone (w : Wing) : Wing :=
  if w.ctl.booting then { w with ctl := { w.ctl with booting := false, bootChecked := false, bootCode := 0 } } else w

/-- A FINISH applied in the frame of tick `t`: the command's effect, and its completion record; the active wing counted it as it
placed it. Slice 0's creation at a START has no
command: its FINISH makes slice 0 where it is not bound yet (R388, R411). -/
def Wing.applyFinish (w : Wing) (t : Tick) (f : FinishRec) (param : BitVec 1024) : Wing :=
  match w.ucmdFor f.ring f.pos with
  | none => if f.ring = 0 ∧ f.result = 0 ∧ f.nParam = 11 ∧ !(w.slice 0).bound then (w.withSigned fun v => v.createSlice 0 param).bootDone else w
  | some u =>
      let own := w.ctl.role == .active
      let w1 := w.modSlice f.ring fun v =>
        { v with ucmds := v.ucmds.filter (·.pos != u.pos), cmdFinished := if own then v.cmdFinished else v.cmdFinished + 1 }
      let w2 := if f.result = 0 ∧ isVecOp u.opcode ∧ !u.applied then
        (w1.vecEffect u.opcode (cmdKey f.ring u.target) u.operand t).1 else w1
      let w3 := w2.finishState u.opcode (cmdSlice f.ring u.target) f.result param t
      let rep : Report := { count := f.count, status := f.status, cfgw := f.cfgw, hasLast := f.hasLast, lastCore := f.lastCore }
      w3.recordDef f.ring (w3.cmdRecord f.ring u.opcode u.target f.result rep u.cookie t)

/-! ## Placing finishes (R160, R182, R244) -/

/-- The parameter block that PARAM records carry, by offset. -/
def paramsBlock (m : SMap DWord) : BitVec 1024 :=
  m.foldl (fun (b : BitVec 1024) e =>
    let x : BitVec 1024 := e.2.setWidth 1024
    b ||| (x <<< (64 * e.1))) 0

/-- The FINISH records of a list of records, each with the block that follows it. -/
def finishesIn : List Rec → List (FinishRec × BitVec 1024)
  | [] => []
  | .finish f :: rs =>
      let ps := rs.takeWhile fun r => match r with
        | .param _ => true
        | _ => false
      let m : SMap DWord := ps.foldl (fun m r => match r with
        | .param p => SMap.insert m p.off.toNat p.data
        | _ => m) []
      (f, paramsBlock m) :: finishesIn rs
  | _ :: rs => finishesIn rs

/-- The slices as the finishes already placed in the frame will leave them. -/
def Wing.afterPlaced (w : Wing) : Wing :=
  (finishesIn w.psg.defr).foldl (fun v f =>
    match v.ucmdFor f.1.ring f.1.pos with
    | some u => v.finishState u.opcode (cmdSlice f.1.ring u.target) f.1.result f.2 w.now
    | none => v) w

/-- The doublewords of the block that a finish carries. -/
def paramOffsets (op : Byte) : List Nat :=
  if op = opCreate then [0, 4, 5, 6, 7, 8, 9, 10, 11, 12, 13] else if op = opShare then [0, 4, 5, 6, 7] else []

/-- One decided finish placed in the frame, and counted in CMD_FINISHED; none when its records do not fit. -/
def Wing.placeFinish (w : Wing) (d : FinDue) : Option Wing :=
  match w.ucmdFor d.ring (d.pos.extractLsb' 0 16) with
  | none => some w
  | some u =>
      let s := cmdSlice d.ring u.target
      let result :=
        if d.result != 0 then d.result
        else if u.opcode = opCreate then w.afterPlaced.createLate s d.param
        else if u.opcode = opShare then w.afterPlaced.shareLate s d.param
        else 0
      let offs := paramOffsets u.opcode
      if !w.roomDeferred (1 + offs.length) then none
      else
        let f : FinishRec :=
          { result := result, ring := d.ring, hasLast := d.rep.hasLast, pos := d.pos.extractLsb' 0 16
            count := d.rep.count, cfgw := d.rep.cfgw, status := d.rep.status, lastCore := d.rep.lastCore
            nParam := BitVec.ofNat 8 offs.length }
        some ((offs.map fun o => Rec.param { off := BitVec.ofNat 8 o, data := pbWord d.param o }).foldl
          (fun w r => w.place r)
          ((w.modSlice d.ring fun v => { v with cmdFinished := v.cmdFinished + 1 }).place (.finish f)))

/-- Decided finishes take their places in order, while they fit. -/
def placeFinishesIn : List FinDue → Wing → Wing
  | [], w => { w with ring := { w.ring with finDue := [] } }
  | d :: ds, w =>
      match w.placeFinish d with
      | some w1 => placeFinishesIn ds w1
      | none => { w with ring := { w.ring with finDue := d :: ds } }

def Wing.placeFinishes (w : Wing) : Wing := if w.ownsFrame then placeFinishesIn w.ring.finDue w else w

/-- A finish is decided. -/
def Wing.finish (w : Wing) (ring : BitVec 12) (pos : Word) (result : Byte) (rep : Report) (param : BitVec 1024) : Wing :=
  let d : FinDue := { ring := ring, pos := pos, result := result, rep := rep, param := param }
  { w with ring := { w.ring with finDue := w.ring.finDue ++ [d] } }.placeFinishes

/-- A FINISH with a report. -/
def withReport (f : FinishRec) (r : Report) : FinishRec :=
  { f with count := r.count, status := r.status, cfgw := r.cfgw, hasLast := r.hasLast, lastCore := r.lastCore }

/-- The report of a FINISH as its frame is formed: a vector command reports the context as the frame leaves it, and one ahead of a later
command on the vector as it found it (R163, R167). -/
def Wing.refreshFinish (w : Wing) (f : FinishRec) : FinishRec :=
  match w.ucmdFor f.ring f.pos with
  | none => f
  | some u =>
      if f.result = 0 ∧ !u.applied ∧ (u.opcode = opVecReset ∨ u.opcode = opVecQuery) then
        match w.ctx? (cmdKey f.ring u.target) with
        | some c => withReport f (if u.opcode = opVecQuery then c.report else { Report.zero with count := c.count })
        | none => f
      else f

/-! ## Starting long commands -/

/-- A cellar read for a command or a route; an image in the write buffer waits for its slot at once (R81). -/
def Wing.fetchKey (w : Wing) (key : Word) (cause : FetchCause) : Wing :=
  if w.resident key then w
  else if w.pan.waiting.any (·.ctx.key == key) then
    { w with pan := { w.pan with waiting := w.pan.waiting.map fun i =>
        if i.ctx.key = key then { i with causes := i.causes ++ [cause] } else i } }
  else
    match w.bufCtx key with
    | some c =>
        let i : Image := { ctx := c, tick := w.now, causes := [cause] }
        { w with pan := { w.pan with waiting := w.pan.waiting ++ [i] } }.count cBufHit
    | none => w.addFetch key cause

/-- Free entries of the write buffer (R81). -/
def Wing.bufRoom (w : Wing) : Nat := 64 - min 64 w.pan.wbuf.length

/-- The cleaner may write the context: it is dirty, its last write is not on its way, and no reset stands in the way (R195). -/
def Wing.cleanable (w : Wing) (c : Ctx) : Bool :=
  c.dirty && !c.wbFresh && !c.poisoned &&
    match (w.slice (keySlice c.key)).job with
    | some j => !(j.opcode == opReset && j.phase != .waiting) || w.isRoute c.key
    | none => true

/-- The context that has been dirty longest, of those that may be written. -/
def Wing.oldestDirty (w : Wing) : Option Ctx :=
  w.ctxs.foldl (fun best c =>
    if !w.cleanable c then best
    else
      match best with
      | none => some c
      | some b => if c.dirtyAt.toNat < b.dirtyAt.toNat then some c else best) none

/-- Writes back up to `n` contexts, oldest-dirty first, while the write buffer has room. -/
def Wing.clean : Nat → Wing → Wing
  | 0, w => w
  | n + 1, w =>
      if w.bufRoom = 0 then w
      else
        match w.oldestDirty with
        | none => w
        | some c => Wing.clean n ((w.modCtx c.key fun c => { c with wbFresh := true }).writeBack c)

/-- Unfinished FLUSH commands, each with its position and tick. -/
def Wing.flushes (w : Wing) : List UCmd := (w.slice 0).ucmds.filter (·.opcode == opFlush)

/-- Every context that was dirty at the FLUSH has been written back, and its write accepted; those that have left the pantry count. -/
def Wing.flushed (w : Wing) (u : UCmd) : Bool :=
  !(w.ctxs.any fun c => c.dirty && decide (c.dirtyAt.toNat ≤ u.at_.toNat)) &&
    !w.pan.wbuf.any fun e => decide (e.2.2.toNat ≤ u.at_.toNat)

/-- The FLUSH commands that are complete finish (R80). -/
def Wing.finishFlushes (w : Wing) : Wing :=
  w.flushes.foldl (fun w u =>
    if w.flushed u && !w.ring.finDue.any (fun d => d.ring == 0 && d.pos == u.pos) && !w.finishPlaced 0 u then
      w.finish 0 u.pos 0 Report.zero 0
    else w) w

def newJob (pos : Word) (op : Byte) (phase : JobPhase) : Job :=
  { pos := pos, opcode := op, phase := phase, param := 0, left := 0, got := [], retried := [] }

/-- A VEC_RESET of a quarantined vector writes the initial image, once the write buffer has room (R71, R81). -/
def Wing.writeInitial (w : Wing) (key : Word) : Wing :=
  if w.bufRoom = 0 then w
  else
    let e := w.initialEntry key
    ({ w with pan := { w.pan with wbuf := w.pan.wbuf ++ [(key, e, w.now)] } }.count cWriteback).emitWrite
      (w.entryAddr key) 32 (e.setWidth 512)

/-- The first step of a long command (R183, R185, R188, R194). -/
def Wing.startLong (w : Wing) (ring : BitVec 12) (u : UCmd) : Wing :=
  let key := cmdKey ring u.target
  let s := cmdSlice ring u.target
  if u.opcode = opVecReset ∧ w.isQuarantined key then
    w.writeInitial key
  else if isVecOp u.opcode then w.fetchKey key (.cmd ring u.pos)
  else if u.opcode = opFlush then w.clean 64
  else if u.opcode = opCreate ∨ u.opcode = opShare then
    (w.modSlice s fun v => { v with job := some (newJob u.pos u.opcode .reading) }).askBlock s
  else if u.opcode = opReset ∨ u.opcode = opRemove then
    w.modSlice s fun v => { v with job := some (newJob u.pos u.opcode .waiting) }
  else w

/-! ## Admission (R158, R233) -/

/-- A letter of the manager enters the inbox (R199). -/
def Wing.postLetter (w : Wing) (s : BitVec 12) (v : DWord) : Wing := w.modSlice s fun x => { x with inbox := x.inbox ++ [v] }

/-- The frame under formation carries the finish of a slice command on the slice: a letter that is posted now enters the inbox behind it. -/
def Wing.sliceFinishes (w : Wing) (s : BitVec 12) : Bool :=
  (w.slice 0).ucmds.any fun u => isSliceOp u.opcode && keySlice u.target == s && w.finishPlaced 0 u

/-- A letter of the manager is posted in frame order. -/
def Wing.postInOrder (w : Wing) (s : BitVec 12) (v : DWord) : Wing :=
  if w.sliceFinishes s then w.modSlice s fun x => { x with posted := x.posted ++ [v] } else w.postLetter s v

/-- The record is the FINISH of the command, with CMD_DONE. -/
def isDoneOf (ring : BitVec 12) (u : UCmd) : Rec → Bool
  | .finish f => f.ring == ring && f.pos == (u.pos.extractLsb' 0 16 : BitVec 16) && f.result == 0
  | _ => false

/-- The finish of a vector command that the frame under formation carries takes effect ahead of a command that follows it, and its record
takes its report now. -/
def Wing.applyFinished (w : Wing) (ring : BitVec 12) (u : UCmd) (key : Word) : Wing :=
  let again (r : Rec) : Rec := match r with
    | .finish f => if isDoneOf ring u r then .finish (w.refreshFinish f) else r
    | r => r
  let defr := w.psg.defr.map again
  ({ w with psg := { w.psg with defr := defr } }.vecEffect u.opcode key u.operand w.now).1.modSlice ring fun v =>
    { v with ucmds := v.ucmds.map fun (x : UCmd) => if x.pos = u.pos then { x with applied := true } else x }

/-- Finishes of vector commands that the frame under formation carries take effect ahead of a command that follows them in it. -/
def Wing.applyPlaced (w : Wing) (key : Word) : Wing :=
  w.sl.foldl (fun w e =>
    let ring := BitVec.ofNat 12 e.1
    e.2.ucmds.foldl (fun w u =>
      if isVecOp u.opcode && !u.applied && cmdKey ring u.target == key && w.psg.defr.any (isDoneOf ring u) then
        w.applyFinished ring u key
      else w) w) w

/-- The command at CMD_HEAD is admitted: its records, and its effect at the command point. -/
def Wing.takeCmd (w0 : Wing) (ring : BitVec 12) (d : Desc) : Wing :=
  let a := d.args
  let w := if isVecOp d.opcode then w0.applyPlaced (cmdKey ring a.target) else w0
  let pos := (w.slice ring).cmdHead
  let result := w.cmdCheck ring d
  let long := result == 0 && w.isLong ring d.opcode a.target
  let key := cmdKey ring a.target
  let w1 := (w.modSlice ring fun v =>
    { v with cmdHead := pos + 1, descs := v.descs.filter (·.1 != pos), cmdWait := false }).count cCmdAdmitted
  let w1 := { w1 with vst := { w1.vst with underCmd := w1.vst.underCmd ++ [cmdSlice ring a.target] } }
  let w2 := (w1.place (.cmd { opcode := d.opcode, result := result, nExt := BitVec.ofNat 2 (cmdRecords d - 1), long := long
                              fence := a.fence, v2 := d.v2, target := a.target, operand := a.operand })).place
    (.cmdExt { part := 0, ring := ring, pos := pos, data := a.cookie })
  let w3 := if cmdRecords d = 3 then w2.place (.cmdExt { part := 1, ring := 0, pos := 0, data := a.operand2 }) else w2
  if long then
    let u : UCmd := { pos := pos, opcode := d.opcode, target := a.target, operand := a.operand
                      operand2 := a.operand2, cookie := a.cookie, at_ := w.now, applied := false }
    (w3.modSlice ring fun v => { v with ucmds := v.ucmds ++ [u] }).startLong ring u
  else
    let e := if result = 0 ∧ isVecOp d.opcode then w3.vecEffect d.opcode key a.operand w.now else (w3, Report.zero)
    let w4 := if result = 0 ∧ d.opcode = opLetterPost then e.1.postInOrder (cmdSlice ring a.target) a.operand else e.1
    (w4.modSlice ring fun v => { v with cmdFinished := v.cmdFinished + 1 }).recordDef ring
      (w4.cmdRecord ring d.opcode a.target result e.2 a.cookie w.now)

/-- The descriptor whose read failed twice is consumed, and the ring halts (R157). Reads of the ring that are in flight stay outstanding
until they return. DESIGN CHOICE (log 87): the descriptor counts in CMD_ADMITTED and takes one of the tick's 8 admissions, and its CMD record has
OPCODE 0 and TARGET 0, since nothing of it was read; R157 and R244 give it none of these. -/
def Wing.haltRing (w : Wing) (ring : BitVec 12) : Wing :=
  let pos := (w.slice ring).cmdHead
  let w1 := ((w.modSlice ring fun v =>
    { v with cmdHead := pos + 1, descs := [], failPos := none, ringHalt := true, cmdWait := false
             cmdFinished := v.cmdFinished + 1 }).count cCmdAdmitted).count cCmdRingHalt
  let w2 := (w1.place (.cmd { opcode := 0, result := ccMemory, nExt := 1, long := false, fence := false
                              v2 := (w.slice ring).cmdVer, target := 0, operand := 0 })).place
    (.cmdExt { part := 0, ring := ring, pos := pos, data := 0 })
  w2.recordDef ring (w2.cmdRecord ring 0 0 ccMemory Report.zero 0 w.now)

/-- The ring admits in its slice's state (R179). -/
def SliceSt.admits (v : SliceSt) : Bool := v.state == .running && !v.ringHalt

/-- What the next command of a ring may do now: be admitted, wait for room in its event ring, or wait. -/
inductive Turn
  | take (w : Wing)
  | noRoom
  | wait

def Wing.turnFor (w : Wing) (ring : BitVec 12) (d : Desc) : Turn :=
  if !w.mayStart ring d || w.letterHold ring d || w.dirtyHold ring d then .wait
  else if !w.ringRoom ring 1 then .noRoom
  else if !w.roomDeferred (cmdRecords d) then .wait
  else .take (w.takeCmd ring d)

/-- The ring's next command. -/
def Wing.turn (w : Wing) (ring : BitVec 12) : Turn :=
  let v := w.slice ring
  if !v.admits then .wait
  else if v.failPos = some v.cmdHead then
    if !w.ringRoom ring 1 then .noRoom
    else if !w.roomDeferred 2 then .wait
    else .take (w.haltRing ring)
  else
    match v.descs.find? (fun e => e.1 == v.cmdHead) with
    | some e => w.turnFor ring e.2
    | none => .wait

/-- The ring waits for room in its event ring; the tick counts in CMD_WAIT at its close (R175). -/
def Wing.noteWait (w : Wing) (ring : BitVec 12) : Wing :=
  let w1 := w.modSlice ring fun v => { v with cmdWait := true }
  { w1 with ring := { w1.ring with waited := true } }

/-- Slice 0's ring, until it can admit nothing more; the result counts the admissions left. -/
def Wing.serveFirst : Nat → Wing → Wing × Nat
  | 0, w => (w, 0)
  | n + 1, w =>
      match w.turn 0 with
      | .take w1 => Wing.serveFirst n w1
      | .noRoom => (w.noteWait 0, n + 1)
      | .wait => (w, n + 1)

/-- One turn of each ring of the list, while admissions are left; `told` lists the rings that wait for room. -/
def serveRound : List (BitVec 12) → Wing → Nat → List (BitVec 12) → Wing × Nat × List (BitVec 12)
  | [], w, n, told => (w, n, told)
  | s :: ss, w, n, told =>
      if n = 0 then (w, 0, told)
      else
        match w.turn s with
        | .take w1 => serveRound ss { w1 with ring := { w1.ring with rr := s } } (n - 1) told
        | .noRoom =>
            if told.contains s then serveRound ss w n told else serveRound ss (w.noteWait s) n (s :: told)
        | .wait => serveRound ss w n told

/-- Rounds until nothing more is admitted. -/
def serveRounds : Nat → Wing → Nat → List (BitVec 12) → Wing
  | 0, w, _, _ => w
  | f + 1, w, n, told =>
      let ss := (w.sliceNums.filter (· != 0))
      let order := ss.filter (fun s => decide (w.ring.rr.toNat < s.toNat)) ++
        ss.filter fun s => decide (s.toNat ≤ w.ring.rr.toNat)
      let r := serveRound order w n told
      if r.2.1 = n ∨ r.2.1 = 0 then r.1 else serveRounds f r.1 r.2.1 r.2.2

/-- The wing admits commands: where it admits work of its own (R263, R283), and not in the first tick after a handover. -/
def Wing.takesCmds (w : Wing) : Bool := w.admitsNew && w.ctl.tkoPhase != some 8

/-- The command point (R158, R233). -/
def Wing.commandPoint (w : Wing) : Wing :=
  if w.takesCmds then
    let w0 := { w with sl := w.sl.map fun e => (e.1, { e.2 with cmdWait := false }) }
    let r := Wing.serveFirst 8 w0
    (serveRounds 8 r.1 r.2 []).finishFlushes.readRings.sendLetters
  else w

/-- One command of a ring, as its own step: admitted when its turn comes. -/
def Wing.command (w : Wing) (ring : BitVec 12) (op : Byte) (a : CmdArgs) : Wing :=
  if w.takesCmds && (w.slice ring).admits then
    let d : Desc := { opcode := op, args := a, v2 := (w.slice ring).cmdVer }
    match w.turnFor ring d with
    | .take w1 => w1.finishFlushes.readRings.sendLetters
    | .noRoom => w.noteWait ring
    | .wait => w
  else w

/-! ## The commands -/

/-- COMMAND_POINT (R158). -/
def execCommandPoint (w : WingId) (s : State) : Host.Outcome State Fault Refusal := nextWing s w Wing.commandPoint

/-- A returned read of descriptors is split into them: the read's 64 bytes from its first position on. -/
def descsOf (v : SliceSt) (r : DescRead) (d : BitVec 512) : List (Word × Desc) :=
  (List.range r.count).map fun i =>
    let p := r.first + BitVec.ofNat 32 i
    let k := p.toNat % v.descPer
    (p, if v.cmdVer then descV2 (d.extractLsb' (256 * k) 256) else descV1 (d.extractLsb' (128 * k) 128))

/-- The address of a descriptor read. -/
def SliceSt.descAddr (v : SliceSt) (r : DescRead) : DWord :=
  v.cmdBase + BitVec.ofNat 64 (r.first.toNat % 2 ^ v.cmdLog2.toNat / v.descPer * 64)

/-- DESCRIPTOR_READ_RETURN (R157): the read that fetched position `pos` first. -/
def Wing.descReturn (w : Wing) (s : BitVec 12) (pos : Word) (rsp : Option (BitVec 512)) : Wing :=
  let v := w.slice s
  match v.descReads.find? (fun r => r.first == pos) with
  | none => w
  | some r =>
      let others := v.descReads.filter (·.first != pos)
      match rsp with
      | some d =>
          let gone := match v.failPos with
            | some p => decide (posDiff p v.cmdHead ≤ posDiff pos v.cmdHead)
            | none => v.ringHalt
          (w.setSlice s { v with descReads := others, descs := if gone then v.descs else v.descs ++ descsOf v r d }).useReads.readRings
      | none =>
          if v.ringHalt then (w.setSlice s { v with descReads := others }).useReads
          else if r.retried then
            let f := match v.failPos with
              | some p => if posDiff p v.cmdHead < posDiff pos v.cmdHead then p else pos
              | none => pos
            (w.setSlice s { v with descReads := others, failPos := some f
                                   descs := v.descs.filter fun e => decide (posDiff e.1 v.cmdHead < posDiff f v.cmdHead) }).useReads
          else
            ((w.setSlice s { v with descReads := others ++ [{ r with retried := true }] }).count cCmdReadRetry).emitRead
              (v.descAddr r) 64

def execDescriptorReadReturn (w : WingId) (slice : BitVec 12) (pos : Word) (rsp : Option (BitVec 512)) (s : State) :
    Host.Outcome State Fault Refusal :=
  nextWing s w fun v => if v.isActive then v.descReturn slice pos rsp else v

def execNop (w : WingId) (ring : BitVec 12) (a : CmdArgs) (s : State) : Host.Outcome State Fault Refusal :=
  nextWing s w fun v => v.command ring opNop a

def execVecCfg (w : WingId) (ring : BitVec 12) (a : CmdArgs) (s : State) : Host.Outcome State Fault Refusal :=
  nextWing s w fun v => v.command ring opVecCfg a

def execVecReset (w : WingId) (ring : BitVec 12) (a : CmdArgs) (s : State) : Host.Outcome State Fault Refusal :=
  nextWing s w fun v => v.command ring opVecReset a

def execVecQuery (w : WingId) (ring : BitVec 12) (a : CmdArgs) (s : State) : Host.Outcome State Fault Refusal :=
  nextWing s w fun v => v.command ring opVecQuery a

def execVecComplete (w : WingId) (ring : BitVec 12) (a : CmdArgs) (s : State) : Host.Outcome State Fault Refusal :=
  nextWing s w fun v => v.command ring opVecComplete a

def execPin (w : WingId) (ring : BitVec 12) (a : CmdArgs) (s : State) : Host.Outcome State Fault Refusal :=
  nextWing s w fun v => v.command ring opPin a

def execUnpin (w : WingId) (ring : BitVec 12) (a : CmdArgs) (s : State) : Host.Outcome State Fault Refusal :=
  nextWing s w fun v => v.command ring opUnpin a

def execFlush (w : WingId) (ring : BitVec 12) (a : CmdArgs) (s : State) : Host.Outcome State Fault Refusal :=
  nextWing s w fun v => v.command ring opFlush a

def execSliceCreate (w : WingId) (ring : BitVec 12) (a : CmdArgs) (s : State) : Host.Outcome State Fault Refusal :=
  nextWing s w fun v => v.command ring opCreate a

def execSliceShare (w : WingId) (ring : BitVec 12) (a : CmdArgs) (s : State) : Host.Outcome State Fault Refusal :=
  nextWing s w fun v => v.command ring opShare a

def execSliceQuiesce (w : WingId) (ring : BitVec 12) (a : CmdArgs) (s : State) : Host.Outcome State Fault Refusal :=
  nextWing s w fun v => v.command ring opQuiesce a

def execSliceResume (w : WingId) (ring : BitVec 12) (a : CmdArgs) (s : State) : Host.Outcome State Fault Refusal :=
  nextWing s w fun v => v.command ring opResume a

def execSliceReset (w : WingId) (ring : BitVec 12) (a : CmdArgs) (s : State) : Host.Outcome State Fault Refusal :=
  nextWing s w fun v => v.command ring opReset a

def execSliceRemove (w : WingId) (ring : BitVec 12) (a : CmdArgs) (s : State) : Host.Outcome State Fault Refusal :=
  nextWing s w fun v => v.command ring opRemove a

def execLetterPost (w : WingId) (ring : BitVec 12) (a : CmdArgs) (s : State) : Host.Outcome State Fault Refusal :=
  nextWing s w fun v => v.command ring opLetterPost a

end Sys2Proof.Machine
end

