-- ==== Sys2Proof/Machine/Admission.lean ====
section
/-! DEFINITION. Admission of what is held (02_vestibule.md R48, R54, R55): staged arrivals slice by slice, return reads of spill
rings, and the installs that a returned image allows (03_vectors_pantry_cellar.md R70 to R75). -/

namespace Sys2Proof.Machine

/-! ## Staged arrivals (R48, R50) -/

/-- The arrival leaves staging. -/
def Wing.unstage (w : Wing) (o : Obs) : Wing :=
  { w with vst := { w.vst with
      staged := w.vst.staged.filter (· != o)
      returned := w.vst.returned.filter (· != (o.cls, o.num, o.seq))
      doomed := w.vst.doomed.filter (· != (o.cls, o.num, o.seq))
      spillLost := w.vst.spillLost.filter (· != (o.cls, o.num, o.seq))
      poison := w.vst.poison.filter (· != (o.cls, o.num, o.seq)) } }

/-- The arrivals of a list are tried in order, one vector's never overtaking each other, until `n` are gone. The result counts
those that are still to go. -/
def tryStaged : List Obs → List Word → Nat → Wing → Wing × Nat
  | [], _, n, w => (w, n)
  | o :: os, stuck, n, w =>
      if n = 0 then (w, 0)
      else if stuck.contains o.key then tryStaged os stuck n w
      else
        match w.attempt o true with
        | .gone w1 => tryStaged os stuck (n - 1) (w1.unstage o)
        | .waits => tryStaged os (o.key :: stuck) n (w.noteFilterWait o)
        | .held => (w.holdSlice (keySlice o.key), n)

/-- The staged arrivals of a slice, oldest first. -/
def Wing.stagedIn (w : Wing) (s : BitVec 12) : List Obs :=
  w.vst.staged.filter fun o => o.cls != 3 && keySlice o.key == s

/-- The oldest admissible staged arrival of a slice goes; the Bool says whether one did. -/
def Wing.serveStaged (w : Wing) (s : BitVec 12) : Wing × Bool :=
  let r := tryStaged (w.stagedIn s) [] 1 w
  (r.1, r.2 = 0)

/-- Slice 0 is served while it has an admissible staged arrival. -/
def Wing.serveSlice0 : Nat → Wing → Wing
  | 0, w => w
  | n + 1, w =>
      let r := w.serveStaged 0
      if r.2 then Wing.serveSlice0 n r.1 else r.1

/-- One turn of each slice of the list. An arrival that is rejected in its turn uses the turn and moves the round robin like one that is
admitted (DESIGN CHOICE, log 93: R48 does not say). -/
def serveTurns : List (BitVec 12) → Wing → Bool → Wing × Bool
  | [], w, any => (w, any)
  | s :: ss, w, any =>
      let r := w.serveStaged s
      serveTurns ss (if r.2 then { r.1 with vst := { r.1.vst with rr := s } } else r.1) (any || r.2)

/-- The slices with staged arrivals, ascending, slice 0 apart. -/
def Wing.stagedSlices (w : Wing) : List (BitVec 12) :=
  w.sliceNums.filter fun s => s != 0 && w.vst.staged.any fun o => o.cls != 3 && keySlice o.key == s

def serveStagedRounds : Nat → Wing → Wing
  | 0, w => w
  | n + 1, w =>
      let ss := w.stagedSlices
      let order := ss.filter (fun s => decide (w.vst.rr.toNat < s.toNat)) ++
        ss.filter fun s => decide (s.toNat ≤ w.vst.rr.toNat)
      let r := serveTurns order w false
      if r.2 then serveStagedRounds n r.1 else r.1

/-- Alarm observations that wait go first, oldest first (phase 1 of R48, and those that a route's install held back). -/
def Wing.serveAlarms (w : Wing) : Wing :=
  let l := w.vst.staged.filter fun o => o.cls == 3
  (tryStaged l [] l.length w).1

/-- The staged arrival waits for its context alone: it would be admitted, and nothing names it lost or unreadable. -/
def Wing.wantsContext (w : Wing) (o : Obs) : Bool :=
  o.cls != 3 && !o.isOf w.vst.doomed && !o.isOf w.vst.spillLost && !o.isOf w.vst.poison && (w.admissionCheck o true).isNone &&
    w.admitting o

/-- A staged arrival whose context is neither in the pantry nor on its way starts a fetch: the context left while the arrival was
spilled, or a standby's read was dropped before it took the active role (R50, R73). -/
def Wing.fetchStaged (w : Wing) : Wing :=
  w.vst.staged.foldl (fun w o => if w.wantsContext o then w.fetchFor o .arrival else w) w

/-- Phases 1 and 2 of R48, with the escalations that wait for budget (R214) between them (DESIGN CHOICE, log 94). -/
def Wing.admitStaged (w0 : Wing) : Wing :=
  let w := w0.fetchStaged
  let n := w.vst.staged.length
  serveStagedRounds (n + 1) (Wing.serveSlice0 n w.serveAlarms.serveEsc)

/-- The staged arrivals of one vector are tried as new arrivals, once its context is in the pantry (R50). -/
def Wing.admitKey (w : Wing) (key : Word) : Wing :=
  let l := w.vst.staged.filter fun o => o.key == key
  if w.admitsNew then (tryStaged l [] l.length w).1 else w

/-! ## Return reads (R54, R189) -/

/-- Entries of a ring that a read is under way for. -/
def Spill.inFlight (p : Spill) : Nat := p.reads.sum

/-- The entry from which the next return read starts. -/
def Spill.nextAt (p : Spill) : Nat := p.head + p.inFlight

/-- Issues return reads for up to `room` entries of slice `s`; each read of 64 bytes holds two entries. -/
def Wing.issueReturns (s : BitVec 12) : Nat → Nat → Wing → Wing
  | 0, _, w => w
  | fuel + 1, room, w =>
      let sp := w.spillOf s
      let left := sp.items.length - sp.inFlight
      if room = 0 ∨ left = 0 ∨ 128 ≤ w.readsOut then w
      else
        let at_ := sp.nextAt
        let k := if at_ % 2 = 1 then 1 else min 2 (min room left)
        let w1 := (w.setSpill s { sp with reads := sp.reads ++ [k] }).emitRead
          (w.spillAddr s (at_ - at_ % 2)) 64
        Wing.issueReturns s fuel (room - k) w1

/-- Return reads of every slice with room in its staging share. -/
def Wing.returnReads (w : Wing) : Wing :=
  w.vst.spill.foldl (fun w e =>
    let s := BitVec.ofNat 12 e.1
    let share := (w.slice s).stageShare.toNat
    let used := w.stagedOf s + (w.spillOf s).inFlight
    if (w.slice s).bound then Wing.issueReturns s 4096 (share - used) w else w) w

/-- An observation with the fields of its spill entry (R53), REG_TICK restored at the tick `now` (R414). The 32 bytes hold no PASID, page
offset, requester identity, outcome of R40 and CHK; the model keeps these beside the ring and gives them back (DESIGN CHOICE, log 90). -/
def Obs.fromEntry (o : Obs) (s : BitVec 12) (e : BitVec 256) (now : Tick) : Obs :=
  { o with
    ctrl := e.extractLsb' 0 25, cls := e.extractLsb' 25 2, engStatus := e.extractLsb' 32 16
    num := e.extractLsb' 48 12, jobTag := e.extractLsb' 64 32, seq := e.extractLsb' 96 32
    payload := e.extractLsb' 128 64, key := mkKey s (e.extractLsb' 0 20)
    reg := restoreBack (e.extractLsb' 192 32 : Word) now }

/-- The live entries of a return read: each with whether its tag checks. -/
def Wing.returned (w : Wing) (s : BitVec 12) (rsp : Option (BitVec 512)) : List (Obs × Bool) :=
  let sp := w.spillOf s
  let k := sp.reads.headD 0
  (List.range k).filterMap fun i =>
    match (if sp.dead.contains (sp.head + i) then none else sp.items[i]?) with
    | none => none
    | some o =>
        match rsp with
        | none => some (o, false)
        | some d =>
            let e : BitVec 256 := d.extractLsb' (256 * ((sp.head + i) % 2)) 256
            if tagOk w.key e (mkKey s 0) (domainSpill w.id) then some (o.fromEntry s e w.now, true) else some (o, false)

/-- SPILL_RETURN (R54, R70): the oldest return read of the slice comes back, and its read is free for another. An entry that returns to
staging counts in VST_RETURNED; that it is placed in the staging queue counts no second time in VST_STAGED (DESIGN CHOICE, log 107). -/
def Wing.spillReturn (w : Wing) (s : BitVec 12) (rsp : Option (BitVec 512)) : Wing :=
  let sp := w.spillOf s
  if sp.reads = [] then w
  else
    let es := w.returned s rsp
    if es.any (fun e => !e.2) && !sp.retried then
      ((w.setSpill s { sp with retried := true }).count cReadRetry).emitRead
        (w.spillAddr s (sp.head - sp.head % 2)) 64
    else
      let lost := (es.filter fun e => !e.2).map Prod.fst
      let good := (es.filter fun e => e.2).map Prod.fst
      let keep := if w.isActive then es.map Prod.fst else good
      let k := min (sp.reads.headD 0) sp.items.length
      let w1 := w.setSpill s
        { head := sp.head + k, tail := sp.tail, items := sp.items.drop k, reads := sp.reads.drop 1, retried := false
          dead := sp.dead.filter fun i => decide (sp.head + k ≤ i) }
      let w2 := (w1.countN cReturned good.length).countN cSpillLost lost.length
      let w3 : Wing := { w2 with vst := { w2.vst with
          staged := w2.vst.staged ++ keep
          returned := w2.vst.returned ++ good.map fun (o : Obs) => (o.cls, o.num, o.seq)
          spillLost := w2.vst.spillLost ++
            if w.isActive then lost.map fun (o : Obs) => (o.cls, o.num, o.seq) else [] } }
      (if w3.admitsNew then w3.fetchStaged else w3).useReads

/-! ## Installs (R73, R74, R77) -/

/-- The causes for which a fetched image is installed: all but VEC_QUERY's. -/
def Wing.installs (w : Wing) (c : FetchCause) : Bool :=
  match c with
  | .arrival | .observed | .route _ | .reload _ _ | .repin => true
  | .install _ _ => false
  | .cmd ring pos =>
      match w.ucmdFor ring (pos.extractLsb' 0 16) with
      | some u => u.opcode != opVecQuery
      | none => false

/-- The commands among a read's causes finish, with the image as VEC_QUERY reports it. -/
def Wing.finishCmds (w : Wing) (causes : List FetchCause) (result : Byte) (rep : Report) : Wing :=
  causes.foldl (fun w c =>
    match c with
    | .cmd ring pos =>
        match w.ucmdFor ring (pos.extractLsb' 0 16) with
        | some u => w.finish ring pos result (if u.opcode = opVecQuery then rep else Report.zero) 0
        | none => w
    | _ => w) w

/-- The active wing tries to install an image; the Bool says whether nothing of it waits any longer. -/
def Wing.tryInstall (w : Wing) (i : Image) : Wing × Bool :=
  if w.resident i.ctx.key then ((w.finishCmds i.causes 0 i.ctx.report).admitKey i.ctx.key, true)
  else if !(i.causes.any w.installs) then (w.finishCmds i.causes 0 i.ctx.report, true)
  else
    match w.install? i.ctx i.causes with
    | some w1 => ((w1.finishCmds i.causes 0 i.ctx.report).admitKey i.ctx.key, true)
    | none => (w.noteNoVictim i.ctx i.causes, false)

/-- An image arrives at the active wing: installed, or kept until a slot qualifies. -/
def Wing.takeImage (w : Wing) (i : Image) : Wing :=
  let r := w.tryInstall i
  if r.2 then r.1 else { r.1 with pan := { r.1.pan with waiting := r.1.pan.waiting ++ [i] } }

/-- The images that wait for a slot are tried again at a tick boundary (R74). -/
def retryImages : List Image → Wing → Wing
  | [], w => w
  | i :: is, w =>
      let r := w.tryInstall i
      if r.2 then retryImages is r.1
      else retryImages is { r.1 with pan := { r.1.pan with waiting := r.1.pan.waiting ++ [i] } }

def Wing.retryInstalls (w : Wing) : Wing :=
  let l := w.pan.waiting
  if l = [] then w else retryImages l { w with pan := { w.pan with waiting := [] } }

/-- A standby, or a joining wing, installs a context in a named slot; the previous occupant leaves without a write (R75). -/
def Wing.installAt (w : Wing) (n : Nat) (c : Ctx) : Wing :=
  let w1 := match SMap.find? w.pan.slots n with
    | some s => w.evict n s.ctx false
    | none => w
  w1.putSlot n c

/-! ## Alarm routes (R331) -/

/-- A vector is on its way into the pantry. -/
def Wing.onItsWay (w : Wing) (key : Word) : Bool :=
  (w.pan.fetches.any fun f => f.key == key) || (w.pan.waiting.any fun i => i.ctx.key == key) ||
    w.pan.reloads.any fun r => r.key == key

/-- A new route vector has a slot to be installed in, free or of an evictable context of any slice (R331). -/
def Wing.routeRoom (w : Wing) : Bool := w.freeSlot.isSome || w.ctxs.any w.evictable

/-- Line `i` at a tick boundary: its route follows the register at once, unless the vector is absent and no context can make room for it.
An absent route vector is read from the cellar, as one of a slice that is created is. -/
def Wing.updateRoute (w : Wing) (i : Nat) : Wing :=
  let cur := w.effW (oAlmRoute i)
  let w1 := if w.resident cur || w.routeRoom then { w with pan := { w.pan with routes := SMap.erase w.pan.routes i } } else w
  if w1.isActive && !w1.resident cur && !w1.onItsWay cur && !w1.isQuarantined cur && (w1.slice (keySlice cur)).bound then
    w1.fetchKey cur (.route i)
  else w1

def Wing.updateRoutes (w : Wing) : Wing := (List.range 16).foldl (fun w i => w.updateRoute i) w

end Sys2Proof.Machine
end

