-- ==== Sys2Proof/Machine/Applies.lean ====
section
/-! DEFINITION. What each passage record does where it is applied (09_passage.md R234, R241 to R246): in a standby or joining wing
when the record's turn comes, and for the deferred group in the active wing at the close of its own frame. `t` is the tick of
the frame. -/

namespace Sys2Proof.Machine

/-! ## Acceptances (R56, R62, R167, R169) -/

/-- The acceptance record of a context as it stands, at core `p`, for the release that opened tick `m`. -/
def Wing.acceptRecord (w : Wing) (p : Byte) (c : Ctx) (m : Tick) : BitVec 256 :=
  eventRecord (keySlice c.key) 0 false w.ctl.reconciled true (if w.isRoute c.key then oAlarm else oNormal)
    (whereCore p (keyVV c.key)) c.count 0 0 c.payload m

/-- The ranking key of a context (R91). -/
def Wing.rankKeyOf (w : Wing) (c : Ctx) : BitVec 97 := rankKey (w.isRoute c.key) (cfgPriority c.cfg) c.arrTick c.key

/-- The record that an acceptance owes, if the context counts arrivals, and the count of R84. -/
def Wing.noteAcceptance (w : Wing) (p : Byte) (c : Ctx) (m : Tick) : Wing :=
  let n := SMap.get w.hall.modN 0 p.toNat
  let acc := if w.hall.modAcc.contains c.key then w.hall.modAcc else w.hall.modAcc ++ [c.key]
  let w1 := { w with hall := { w.hall with modN := SMap.set w.hall.modN 0 p.toNat (n + 1), modAcc := acc } }
  if c.count = 0 then w1 else w1.recordAcc m (keySlice c.key) (w.rankKeyOf c) (w.acceptRecord p c m)

/-- ACCEPT (R245). -/
def Wing.applyAccept (w : Wing) (t : Tick) (r : AcceptRec) : Wing :=
  match w.ctx? r.key with
  | none => w
  | some c =>
      if c.state = .pending then (w.noteAcceptance r.porch c t).updCtx r.key t fun c => c.accept r.porch else w

/-! ## Held observations (R44, R45, R242, R274) -/

/-- The live observations of a spill ring, with their positions. -/
def Spill.live (p : Spill) : List (Nat × Obs) :=
  ((List.range p.items.length).zip p.items).filterMap fun e =>
    if p.dead.contains (p.head + e.1) then none else some (p.head + e.1, e.2)

def Wing.heldObs (w : Wing) : List Obs := w.vst.staged ++ w.vst.spill.flatMap fun e => e.2.live.map Prod.snd

/-- The held observation of an origin with a sequence. -/
def Wing.heldAt (w : Wing) (i : Nat) (q : Word) : Option Obs :=
  w.heldObs.find? fun o => originIx o.cls o.num == i && o.seq == q

/-- Held observations for which `f` holds are discarded. -/
def Wing.dropHeld (w : Wing) (f : Obs → Bool) : Wing :=
  { w with vst := { w.vst with
      staged := w.vst.staged.filter fun o => !f o
      returned := w.vst.returned.filter fun x => !w.vst.staged.any fun o => f o && (o.cls, o.num, o.seq) == x
      spill := w.vst.spill.map fun e =>
        (e.1, { e.2 with dead := e.2.dead ++ (e.2.live.filter fun x => f x.2).map Prod.fst }) } }

/-- Held observations changed by `f`. -/
def Wing.mapHeld (w : Wing) (f : Obs → Obs) : Wing :=
  { w with vst := { w.vst with
      staged := w.vst.staged.map f
      spill := w.vst.spill.map fun e => (e.1, { e.2 with items := e.2.items.map f }) } }

/-- Step 2 of R274: an observation of a page origin that the active wing did not register is discarded, and the later ones of
the origin take numbers one lower. -/
def Wing.correctSeq (w : Wing) (r : ArriveRec) : Wing :=
  let i := originIx r.cls r.num
  match w.heldAt i r.seq, w.heldAt i (r.seq + 1) with
  | some a, some b =>
      if r.cls = 0 ∧ a.chk ≠ r.chk ∧ b.chk = r.chk then
        let w1 := w.dropHeld fun o => originIx o.cls o.num == i && o.seq == r.seq
        let w2 := w1.mapHeld fun o =>
          if originIx o.cls o.num = i ∧ !serialLe o.seq r.seq then { o with seq := o.seq - 1 } else o
        (w2.setSeq i (w2.seqOf i - 1)).count cSkew
      else w
  | _, _ => w

/-- The tick of registration that REG_LO gives, near the wing's own (R242). -/
def restoreReg (lo : Byte) (own : Tick) : Tick :=
  let d : Byte := lo - own.extractLsb' 0 8
  own + d.signExtend 56

/-- ORIGIN of a FETCH or ARRIVAL record: class and number. -/
def originWord (cls : BitVec 2) (num : BitVec 12) : BitVec 16 := cls ++ 0#2 ++ num

/-- R44: the origin's observations up to the record's sequence go, those of the backlog that are in only in part with them, and the wing's own sequence catches up. `strict` keeps the
observation of the record's own sequence, for an escalation that travels ahead of its arrival. -/
def Wing.settleSeq (w : Wing) (r : ArriveRec) (strict : Bool) : Wing :=
  let i := originIx r.cls r.num
  let q := w.seqOf i
  let behind := serialLe q r.seq && q != r.seq
  let w0 := w.dropHeld fun o =>
    originIx o.cls o.num == i && serialLe o.seq r.seq && !(strict && o.seq == r.seq)
  let part (f : ArrFill) : Bool := !f.asked && f.origin == originWord r.cls r.num && serialLe f.seq r.seq
  let w1 := { w0 with psg := { w0.psg with arrFills := w0.psg.arrFills.filter fun f => !part f } }
  let w2 := if behind then w1.setSeq i r.seq else w1
  if behind && (r.cls == 1 || r.cls == 2) then w2.countN cSkew (r.seq - q).toNat else w2

/-- The filled content of an arrival, once its three parts are in (R242, R246). -/
def ArrFill.content (f : ArrFill) : Option (DWord × DWord × DWord) :=
  match SMap.find? f.parts 0, SMap.find? f.parts 1, SMap.find? f.parts 2 with
  | some a, some b, some c => some (a, b, c)
  | _, _, _ => none

/-- The observation that a filled arrival stands for. MSI data carries no payload: its CHK is that of its 2 or 4 bytes. The records carry
no PASID and no page offset; what serves an ARRIVE record needs none, and a backlog arrival takes its slice's PASID (log 23). -/
def fillObs (cls : BitVec 2) (num : BitVec 12) (seq key : Word) (chk : BitVec 16) (now : Tick)
    (c : DWord × DWord × DWord) : Obs :=
  let vv4 : Word := (keyVV key).setWidth 32
  let msi := cls == 0 && (chk == crc16 (bytesOf 4 vv4) || chk == crc16 (bytesOf 2 vv4))
  { cls := cls, num := num, seq := seq, key := key, reg := restoreBack (c.2.2.extractLsb' 32 32 : Word) now
    ctrl := c.2.1.extractLsb' 0 25, engStatus := c.2.2.extractLsb' 0 16, jobTag := c.2.1.extractLsb' 32 32
    payload := c.1, carries := (cls == 0 && !msi) || cls == 3, req := c.2.2.extractLsb' 16 8, pasidP := false, pasid := 0
    off := if msi then 0x100 else 0, swe := true, chk := chk }

/-- The filled content for an ARRIVE record. KEY of an escalation is the vector of its route: the message's own comes from its page and
CTRL. -/
def Wing.filled (w : Wing) (t : Tick) (r : ArriveRec) : Option Obs :=
  (w.psg.arrFills.find? fun f => f.asked && f.origin == originWord r.cls r.num && f.seq == r.seq).bind fun f =>
    f.content.map fun c =>
      let key := if r.esc then mkKey r.num (c.2.1.extractLsb' 0 20) else r.key
      fillObs r.cls r.num r.seq key r.chk t c

/-- The wing's own observation for an ARRIVE record: held, or kept from the escalation that travelled ahead of the record. -/
def Wing.ownObs (w : Wing) (r : ArriveRec) : Option Obs :=
  match w.heldAt (originIx r.cls r.num) r.seq with
  | some o => some o
  | none => w.vst.escObs.filter fun o => originIx o.cls o.num == originIx r.cls r.num && o.seq == r.seq

/-- The content for an ARRIVE record: the wing's own observation, or the fill. -/
def Wing.contentFor (w : Wing) (t : Tick) (r : ArriveRec) : Option Obs :=
  match w.ownObs r with
  | some o => if o.chk = r.chk then some { o with reg := restoreReg r.regLo o.reg } else w.filled t r
  | none => w.filled t r

/-- The wing asks its peer for the content, once. -/
def Wing.askArrival (w : Wing) (r : ArriveRec) : Wing :=
  let og := originWord r.cls r.num
  if w.psg.arrFills.any fun f => f.asked && f.origin == og && f.seq == r.seq then w
  else
    let f : ArrFill := { origin := og, seq := r.seq, asked := true, parts := [] }
    let w1 := { w with psg := { w.psg with arrFills := w.psg.arrFills ++ [f] } }
    w1.place (.fetch { what := 0x2, origin := og, seqOrKey := r.seq })

/-- A fill that served its record is dropped and counted. -/
def Wing.dropFill (w : Wing) (r : ArriveRec) : Wing :=
  let og := originWord r.cls r.num
  let mine (f : ArrFill) : Bool := f.asked && f.origin == og && f.seq == r.seq
  { w with psg := { w.psg with arrFills := w.psg.arrFills.filter fun f => !mine f } }.countIf
    (w.psg.arrFills.any mine) cArriveFill

/-- A SPILL_LOST discard at a wing that is not active: the oldest observation of the slice in its own spill ring goes, or else
the oldest in staging (R242). -/
def Wing.dropOldest (w : Wing) (s : BitVec 12) : Wing :=
  match (w.spillOf s).live with
  | (i, _) :: _ =>
      let sp := w.spillOf s
      w.setSpill s { sp with dead := sp.dead ++ [i] }
  | [] =>
      match w.vst.staged.find? fun o => o.cls != 3 && keySlice o.key == s with
      | some o => { w with vst := { w.vst with staged := w.vst.staged.erase o } }
      | none => w

/-- A RECHECK record that was decided against, in a wing that did not decide it: shown in slice 0's header only. -/
def Wing.mirrorRecheckLost (w : Wing) (n : Nat) : Wing :=
  if n = 0 then w else w.modSlice 0 fun s => { s with recheckLost := s.recheckLost + BitVec.ofNat 32 n }

/-- ARRIVE (R241, R242): none while the content has to come from the peer. A fill for an escalation whose arrival follows serves that, too. -/
def Wing.applyArrive (w : Wing) (t : Tick) (r : ArriveRec) : Option Wing :=
  if r.discard ∧ r.cause = dcSpillLost then
    let s := keySlice r.key
    let w1 := (w.dropOldest s).count cSpillLost
    some (if r.recheck then w1.recordOrd 0 (w1.recheckRecord 0x02 s 0 t) else w1.mirrorRecheckLost 1)
  else
    let w0 := w.correctSeq r
    match w0.contentFor t r with
    | none => none
    | some o =>
        let keep (x : Option Obs) (v : Wing) : Wing := { v with vst := { v.vst with escObs := x } }
        if r.esc then
          let w1 := (w0.deliverEsc o r.key r.cause t).settleSeq r (r.cause != 0b10)
          some (if r.cause = 0b10 then keep (some o) (w1.dropFill r) else keep none w1)
        else if r.discard then
          let w1 := ((keep none w0).settleSeq r false).dropFill r
          some (if r.cause = dcFilter then w1.count cDupDrop
            else if r.cause = dcQuarantine then w1.count cQuarantined else w1)
        else some (((keep none (w0.deliver { o with key := r.key } t)).settleSeq r false).dropFill r)

/-! ## Journal records (R134, R243) -/

def Wing.setJseq (w : Wing) (p : Byte) (q : BitVec 16) : Wing :=
  { w with pch := { w.pch with jseqCommit := SMap.set w.pch.jseqCommit 0xFFFF p.toNat q } }

/-- CLAIM: a claim, a return, or a return made by the active wing itself. -/
def Wing.applyClaimRec (w : Wing) (t : Tick) (r : JournalRec) : Wing :=
  let w1 := if r.synth then w else w.setJseq r.porch r.entry.jseq
  if r.ret ∨ r.synth then
    (w1.applyReturn r.porch r.entry.key t).countIf (!r.synth && w.ctl.role == .active) cReturns
  else w1.applyClaim r.porch r.entry.key t

/-- COMPLETE. -/
def Wing.applyCompleteRec (w : Wing) (t : Tick) (r : JournalRec) : Wing :=
  (w.setJseq r.porch r.entry.jseq).applyComplete r.porch r.entry.key t

/-! ## Installs (R75) -/

/-- A context of the peer, once its four parts are in (R246). -/
def fillContext (key : Word) (parts : SMap DWord) (now : Tick) : Option Ctx :=
  match SMap.find? parts 0, SMap.find? parts 1, SMap.find? parts 2, SMap.find? parts 3 with
  | some a, some b, some c, some d => some (ctxOfImage key (d ++ c ++ b ++ a) now)
  | _, _, _, _ => none

/-- The wing asks its peer for a context, once. -/
def Wing.askContext (w : Wing) (key : Word) : Wing :=
  if w.psg.ctxFills.any (·.1 == key) then w
  else
    let w1 := { w with psg := { w.psg with ctxFills := w.psg.ctxFills ++ [(key, [])] } }
    w1.place (.fetch { what := 0x1, origin := 0, seqOrKey := key })

/-- The image was read for an INSTALL record. -/
def Image.forInstall (i : Image) : Bool := i.causes.any fun c => match c with
  | .install _ _ => true
  | _ => false

/-- A read that an observation started is still out: its image is compared first, and the read for the INSTALL comes after it (R75). -/
def Wing.ownReadOut (w : Wing) (key : Word) : Bool :=
  w.pan.fetches.any fun f => f.key == key && !f.causes.any fun c => match c with
    | .install _ _ => true
    | _ => false

/-- INSTALL at a wing that is not active: done, or waiting for the wing's own read, or for the peer's fill. R75 does not say what
follows an image read for the record whose TAG still differs: the peer is asked for the context (DESIGN CHOICE, log 92). -/
def Wing.applyInstall (w : Wing) (t : Tick) (r : InstallRec) : Wing × Bool :=
  let n := slotNo r.bank r.slot
  let noFill (w : Wing) : Wing := { w with psg := { w.psg with ctxFills := w.psg.ctxFills.filter (·.1 != r.key) } }
  let noImage (w : Wing) : Wing := { w with pan := { w.pan with images := w.pan.images.filter (·.ctx.key != r.key) } }
  match w.psg.ctxFills.find? (·.1 == r.key) with
  | some f =>
      match fillContext r.key f.2 t with
      | some c => ((noFill w).installAt n c, true)
      | none => (w, false)
  | none =>
      match w.pan.images.find? (·.ctx.key == r.key) with
      | some i =>
          if i.ctx.tag = r.tag then ((noImage w).installAt n i.ctx, true)
          else if i.forInstall then ((noImage w).askContext r.key, false)
          else ((noImage w).addFetch r.key (.install n r.tag), false)
      | none => (if w.ownReadOut r.key then w else w.addFetch r.key (.install n r.tag), false)

/-! ## The deferred group (R244 to R246) -/

/-- The key of a REGW record's word. -/
def regwKey (r : RegwRec) : Nat := if r.space = 0 then r.addr.toNat else ikey r.addr.toNat

/-- The alarm line whose route stands at a window offset. -/
def routeLine (k : Nat) : Option Nat := if 0x0700 ≤ k ∧ k < 0x0740 ∧ k % 4 = 0 then some ((k - 0x0700) / 4) else none

/-- The porch whose PCH_CFG stands at a key. -/
def pchOfKey (k : Nat) : Option Nat :=
  if ikey 0x80000 ≤ k ∧ k < ikey 0x80400 then some ((k - ikey 0x80000) / 4) else none

/-- The wired source whose entry holds a key. -/
def srcOfKey (k : Nat) : Option Nat := if ikey 0 ≤ k ∧ k < ikey 0x2000 then some ((k - ikey 0) / 8) else none

/-- The porch whose raise entries hold a key. -/
def sweOfKey (k : Nat) : Option Nat := if ikey 0x2000 ≤ k ∧ k < ikey 0xA000 then some ((k - ikey 0x2000) / 0x80) else none

/-- A mirrored word takes a value, stored and in force, with what follows at the boundary: a route's move (R331), a wired entry's
resample (R38), a fresh INIT (R144). -/
def Wing.setWord (w : Wing) (k : Nat) (v : Word) : Wing :=
  let w1 := match routeLine k with
    | some i =>
        if w.effW k = v ∨ (SMap.find? w.pan.routes i).isSome then w
        else { w with pan := { w.pan with routes := SMap.insert w.pan.routes i (w.effW k) } }
    | none => w
  let w2 := match srcOfKey k with
    | some i =>
        if (SMap.find? w1.regs.srcOld i).isSome then w1
        else { w1 with regs := { w1.regs with srcOld := SMap.insert w1.regs.srcOld i (w1.srcCfg i) } }
    | none => w1
  let w2 := match sweOfKey k with
    | some c =>
        if w2.regs.sweNew.contains c then w2 else { w2 with regs := { w2.regs with sweNew := w2.regs.sweNew ++ [c] } }
    | none => w2
  let w3 := match pchOfKey k with
    | some p =>
        if w2.pch.initDue.contains p then w2 else { w2 with pch := { w2.pch with initDue := w2.pch.initDue ++ [p] } }
    | none => w2
  (w3.setCfg k v).withSigned fun x => x.setEff k v

def Wing.dropDual (w : Wing) (k : Nat) : Wing :=
  { w with regs := { w.regs with dual := w.regs.dual.filter (·.addr != k) } }

/-- ROUTE_LOCK as stored, which guards ALM_ROUTE and ENG_ESC (R335, R366). -/
def Wing.routeLocked (w : Wing) : Bool := (w.cfgW oTimeLock).getLsbD 0

/-- Pending first writes on registers that a lock guards are discarded (R375). -/
def Wing.dropLocked (w : Wing) : Wing :=
  if w.routeLocked then
    { w with regs := { w.regs with dual := w.regs.dual.filter fun h => h.addr == oTkoForce || h.addr == oTkoHome } }
  else w

/-- REGW. -/
def Wing.applyRegw (w : Wing) (t : Tick) (r : RegwRec) : Wing :=
  let k := regwKey r
  let matched (c : RegCopy) : Bool :=
    (c.halves.map (·.1)).head? == some k && c.req == r.req && decide (c.tick.toNat ≤ t.toNat + 1) &&
      decide (t.toNat ≤ c.tick.toNat + 1)
  let w0 := { w with regs := { w.regs with aliasKept := w.regs.aliasKept.eraseP matched } }
  if r.dualPend then
    let w1 := w0.dropDual k
    { w1 with regs := { w1.regs with
        dual := w1.regs.dual ++ [{ addr := k, val := r.val, req := r.req, at_ := t.setWidth 64 }] } }
  else ((w0.dropDual k).setWord k r.val).dropLocked

/-- An admitted command at a wing that is not active, with its CMD_EXT records (R160, R162). -/
def Wing.applyCommand (w : Wing) (t : Tick) (c : CmdRec) (x : CmdExtRec) (op2 : DWord) : Wing :=
  let ring := x.ring
  let key := cmdKey ring c.target
  let s := cmdSlice ring c.target
  let w1 := w.modSlice ring fun v => { v with cmdHead := x.pos + 1, descs := v.descs.filter (·.1 != x.pos) }
  if c.long then
    let u : UCmd := { pos := x.pos, opcode := c.opcode, target := c.target, operand := c.operand, operand2 := op2
                      cookie := x.data, at_ := t, applied := false }
    (w1.modSlice ring fun v => { v with ucmds := v.ucmds ++ [u] }).admitState c.opcode s t
  else
    let halt := c.opcode == 0 && c.result == ccMemory
    let e := if c.result = 0 ∧ isVecOp c.opcode then w1.vecEffect c.opcode key c.operand t else (w1, Report.zero)
    let w2 := if c.result = 0 ∧ c.opcode = opLetterPost then e.1.postLetter s c.operand else e.1
    let w3 := if c.result = 0 then w2.admitState c.opcode s t else w2
    (w3.modSlice ring fun v =>
      { v with cmdFinished := v.cmdFinished + 1, ringHalt := v.ringHalt || halt }).recordDef ring
        (w3.cmdRecord ring c.opcode c.target c.result e.2 x.data t)

/-- An admitted command of the active wing at the close of its frame: the state that its admission changes; the record of an
immediate command, which the command point made, takes its place in frame order. -/
def Wing.closeCommand (w : Wing) (t : Tick) (c : CmdRec) (x : CmdExtRec) : Wing :=
  let w1 := if c.result = 0 then w.admitState c.opcode (cmdSlice x.ring c.target) t else w
  if c.long then w1
  else
    match w1.ring.recsDef with
    | [] => w1
    | r :: rs => { w1 with ring := { w1.ring with recsDef := rs ++ [r] } }

def Wing.commandDone (w : Wing) (t : Tick) (c : CmdRec) (x : CmdExtRec) (op2 : DWord) : Wing :=
  let w1 := { w with ring := { w.ring with cmdBuf := none, extBuf := none } }
  if w.ctl.role = .active then w1.closeCommand t c x else w1.applyCommand t c x op2

/-- CMD_EXT: the command is whole with its last one. -/
def Wing.applyCmdExt (w : Wing) (t : Tick) (x : CmdExtRec) : Wing :=
  match w.ring.cmdBuf with
  | none => w
  | some c =>
      match w.ring.extBuf with
      | none =>
          if c.nExt.toNat ≤ 1 then w.commandDone t c x 0
          else { w with ring := { w.ring with extBuf := some x } }
      | some x0 => w.commandDone t c x0 x.data

/-- FINISH: whole at once, or with its PARAM records. -/
def Wing.applyFinishRec (w : Wing) (t : Tick) (f : FinishRec) : Wing :=
  if f.nParam = 0 then w.applyFinish t f 0
  else { w with ring := { w.ring with finBuf := some f, params := [] } }

def Wing.applyParam (w : Wing) (t : Tick) (p : ParamRec) : Wing :=
  match w.ring.finBuf with
  | none => w
  | some f =>
      let m := SMap.insert w.ring.params p.off.toNat p.data
      if f.nParam.toNat ≤ m.length then
        { w with ring := { w.ring with finBuf := none, params := [] } }.applyFinish t f (paramsBlock m)
      else { w with ring := { w.ring with params := m } }

/-- DRAIN: the port has reported for the slice that quiesces with the PASID and GEN (R219). -/
def Wing.applyDrain (w : Wing) (r : DrainRec) : Wing :=
  let hit (v : SliceSt) : Bool := v.state == .quiescing && v.pasid == r.pasid && v.gen == r.gen
  let mark (e : Nat × SliceSt) : Nat × SliceSt :=
    if hit e.2 then (e.1, { e.2 with drained := e.2.drained ||| (1#16 <<< r.port.toNat) }) else e
  { w with sl := w.sl.map mark }.count cDrainDone

/-- LETTER (R197 to R199). -/
def Wing.applyLetter (w : Wing) (t : Tick) (r : LetterRec) : Wing :=
  let src : BitVec 12 := if r.fromMgr then 0 else r.slice
  let ring : BitVec 12 := if r.fromMgr then r.slice else 0
  let data : DWord := if r.fromMgr then r.letter else r.lseq ++ loWord r.letter
  let w1 := w.recordDef ring (eventRecord src 0 false w.ctl.reconciled false oLetter 0 0 0 0 data t)
  if r.fromMgr then (w1.modSlice r.slice fun v => { v with inbox := v.inbox.drop 1 }).count cLbxToSlice
  else
    (w1.modSlice r.slice fun v => { v with outbox := v.outbox.filter fun e => !serialLe e.1 r.lseq }).count cLbxToMgr

/-- LEVEL (R289): a raise moves the rail and the body bias at once. -/
def Wing.applyLevel (w : Wing) (r : LevelRec) : Wing :=
  let l := Level.ofCode r.level
  let up := decide (r.level.toNat < w.pwr.level.code.toNat)
  { w with pwr := { w.pwr with
      next := some (l, r.tick), vsel := if up then r.level.setWidth 3 else w.pwr.vsel
      bias := if up then l.bias else w.pwr.bias } }

/-- QUAR (R70, R71). -/
def Wing.applyQuar (w : Wing) (t : Tick) (r : QuarRec) : Wing :=
  let w1 := w.quarantine r.key
  if r.recheck then w1.recordDef 0 (w1.recheckRecord 0x01 (keySlice r.key) (keyVV r.key) t)
  else if w.ctl.role = .active then w1 else w1.mirrorRecheckLost 1

/-- TARGET: ignored when the slot's occupant or its CORESET has changed (R107). -/
def Wing.applyTarget (w : Wing) (r : TargetRec) : Wing :=
  let n := slotNo r.bank r.slot
  match SMap.find? w.pan.slots n with
  | some s =>
      if s.ctx.key = r.key ∧ cfgCoreset s.ctx.cfg = r.coreset then
        w.setSlots (SMap.insert w.pan.slots n { s with steer := { s.steer with valid := true, target := r.cluster } })
      else w
  | none => w

/-- RESIDENCY (R108). -/
def Wing.applyResidency (w : Wing) (t : Tick) (r : ResidencyRec) : Wing :=
  ((w.recordDef 0 (eventRecord r.slice 0 false w.ctl.reconciled false oResidency 0 r.count 0 0 (r.prio.setWidth 64) t)).modSlice
    r.slice fun v => { v with strandTold := true }).countIf (w.ctl.role == .active) cResidency

/-- The state of a core in a CORESTATE record. -/
def coreOfWord (v : BitVec 16) : CoreSt :=
  { cur := v.extractLsb' 0 12, sleep := v.extractLsb' 12 2, on := v.getLsbD 14, fault := v.getLsbD 15 }

def CoreSt.word (c : CoreSt) : BitVec 16 := bit c.fault ++ bit c.on ++ c.sleep ++ c.cur

def Wing.coreSt (w : Wing) (c : Nat) : CoreSt := SMap.get w.hall.cores CoreSt.reset c

/-- Porches that enter FAULT with a CORESTATE record, ascending. -/
def Wing.newFaults (w : Wing) (r : CoreStateRec) : List Nat :=
  (List.range 4).filterMap fun i =>
    let c := 4 * r.group.toNat + i
    if (coreOfWord (r.words.extractLsb' (16 * i) 16)).fault && !(w.coreSt c).fault then some c else none

/-- Keys in ascending order. -/
def insertKey (k : Word) (l : List Word) : List Word :=
  l.takeWhile (fun x => decide (x.toNat ≤ k.toNat)) ++ [k] ++ l.dropWhile fun x => decide (x.toNat ≤ k.toNat)

def sortKeys (l : List Word) : List Word := l.foldl (fun m k => insertKey k m) []

/-- The vectors active at a core, for whose RECHECK records R143 asks. -/
def Wing.activeAt (w : Wing) (c : Nat) : List Word :=
  sortKeys ((w.ctxs.filter fun x => x.state.completable && x.lastCore.toNat == c).map (·.key))

/-- CORESTATE (R90, R143, R245). -/
def Wing.applyCoreState (w : Wing) (t : Tick) (r : CoreStateRec) : Wing :=
  let faults := w.newFaults r
  let keys := faults.flatMap w.activeAt
  let n := r.rchkN.toNat
  let cores := (List.range 4).foldl (fun m i =>
    SMap.set m CoreSt.reset (4 * r.group.toNat + i) (coreOfWord (r.words.extractLsb' (16 * i) 16))) w.hall.cores
  let w1 := { w with hall := { w.hall with cores := cores } }
  let w2 := (keys.take n).foldl (fun w k => w.recordDef 0 (w.recheckRecord 0x03 (keySlice k) (keyVV k) t)) w1
  let lost := keys.length - n
  let w3 := if w.ctl.role = .active then w2.recheckLost lost else w2.mirrorRecheckLost lost
  let first := match faults with
    | [] => w3.regs.pchFault
    | p :: _ => if w3.regs.pchFault.getLsbD 31 then w3.regs.pchFault else 1#1 ++ 0#23 ++ BitVec.ofNat 8 p
  { w3 with
    regs := { w3.regs with pchFault := first }
    pch := { w3.pch with
      entries := faults.foldl (fun m p => SMap.erase m p) w3.pch.entries
      replay := faults.foldl (fun m p => SMap.erase m p) w3.pch.replay
      ended := w3.pch.ended.filter fun p => !faults.contains p } }

/-- DOORBELL (R153): the restored position, as the active wing already holds it. -/
def Wing.applyDoorbellRec (w : Wing) (r : DoorbellRec) : Wing :=
  if w.ctl.role = .active then w
  else if r.kind = 0 then w.modSlice r.slice fun v => { v with cmdTail := r.pos }
  else w.modSlice r.slice fun v => { v with evtHead := r.pos }

/-- Records of a block for one ring. -/
def EvBlock.countFor (b : EvBlock) (s : BitVec 12) : Nat :=
  (b.accs.filter fun r => r.1 == s).length + (b.commits.filter fun r => r.1 == s).length

/-- The blocks up to tick `d` are complete for every ring. -/
def Wing.blocksDone (w : Wing) (d : Tick) : Wing :=
  let gone := w.ring.blocks.filter fun b => decide (b.tick.toNat ≤ d.toNat)
  let w1 := w.sliceNums.foldl (fun (w : Wing) s =>
    let n : Nat := (gone.map fun b => b.countFor s).sum
    if n = 0 then w
    else w.modSlice s fun v =>
      { v with wpos := v.wpos + BitVec.ofNat 32 n, evtTail := v.wpos + BitVec.ofNat 32 n }) w
  { w1 with ring := { w1.ring with blocks := w1.ring.blocks.filter fun b => decide (d.toNat < b.tick.toNat) } }

/-- DONE (R173); the active wing knows of its own. -/
def Wing.applyDone (w : Wing) (d : Tick) : Wing := if w.ctl.role = .active then w else w.blocksDone d

/-- A record of the deferred group. -/
def Wing.applyDef (w : Wing) (t : Tick) (r : Rec) : Wing :=
  match r with
  | .regw x => w.applyRegw t x
  | .cmd x => { w with ring := { w.ring with cmdBuf := some x, extBuf := none } }
  | .cmdExt x => w.applyCmdExt t x
  | .finish x => w.applyFinishRec t x
  | .param x => w.applyParam t x
  | .drain x => w.applyDrain x
  | .letter x => w.applyLetter t x
  | .level x => w.applyLevel x
  | .quar x => w.applyQuar t x
  | .modwin x => w.updCtx x.key t fun c => { c with modWin := c.capWin x.win }
  | .target x => w.applyTarget x
  | .residency x => w.applyResidency t x
  | .coreState x => w.applyCoreState t x
  | .doorbell x => w.applyDoorbellRec x
  | .done d => w.applyDone d
  | _ => w

/-- A record of the acceptance, ordered or deferred group, at a wing that is not active; the Bool is false while the record
waits for a fill or an install. -/
def Wing.applyRec (w : Wing) (t : Tick) (r : Rec) : Wing × Bool :=
  match r with
  | .accept x => (w.applyAccept t x, true)
  | .arrive x =>
      match w.applyArrive t x with
      | some w1 => (w1, true)
      | none => ((w.correctSeq x).askArrival x, false)
  | .claim x => (w.applyClaimRec t x, true)
  | .complete x => (w.applyCompleteRec t x, true)
  | .install x => w.applyInstall t x
  | x => (w.applyDef t x, true)

end Sys2Proof.Machine
end

