-- ==== Sys2Proof/Machine/Hall.lean ====
section
/-! DEFINITION. The hall (04_hall_ranking_steering.md R87 to R105, R108, R109) and the decision digest
(10_claims_and_takeover.md R268): a ranking is a function of a ranked state, the acceptances at the opening boundary and the
cap. -/

namespace Sys2Proof.Machine

/-! ## The ranked state (R87) -/

/-- The vectors of a slice are no candidates (R180): it is being reset or removed. -/
def SliceSt.muted (v : SliceSt) : Bool := v.state == .resetting || v.state == .removing

/-- The ranked state at the close of tick `t`, with the configuration in force in that tick (R88). Vectors of slices in RESETTING or REMOVING are no candidates (R180). -/
def Wing.rankImg (w : Wing) (t : Tick) : RankImg :=
  { tick := t, slots := w.pan.slots, cores := w.hall.cores, eff := w.hall.conf, routes := w.pan.routes
    muted := (w.sl.filter fun e => e.2.muted).map fun e => BitVec.ofNat 12 e.1 }

/-- A ranked image as one ranking reads it: the strap of R399 gives the reset values of its configuration. -/
structure View where
  pg : BitVec 64
  img : RankImg
  deriving DecidableEq, Repr

def View.eff (v : View) (k : Nat) : Word := SMap.get v.img.eff (cfgDefault v.pg k) k

def View.core (v : View) (c : Nat) : CoreSt := SMap.get v.img.cores CoreSt.reset c

def View.isAlarm (v : View) (key : Word) : Bool :=
  (List.range 16).any fun i => SMap.get v.img.routes (v.eff (oAlmRoute i)) i == key

/-! ## Core sets (R101) -/

/-- Cores of a core set, ascending. -/
def View.setCores (v : View) (k : Byte) : List Nat :=
  (List.range 8).flatMap fun i =>
    let m := v.eff (oCsetMask k.toNat i)
    ((List.range 32).filter fun j => m.getLsbD j).map fun j => 32 * i + j

/-- MODE and HOME_CLUSTER of a core set. -/
def View.mode (v : View) (k : Byte) : Nat := ((v.eff (oCsetAff k.toNat)).extractLsb' 0 2).toNat
def View.home (v : View) (k : Byte) : Nat := ((v.eff (oCsetAff k.toNat)).extractLsb' 3 5).toNat

def clusterOf (c : Nat) : Nat := c / 8

/-- Distinct clusters of a list of cores in ascending order. -/
def clustersOf : List Nat → List Nat
  | [] => []
  | c :: cs =>
      match clustersOf cs with
      | [] => [clusterOf c]
      | k :: ks => if k = clusterOf c then k :: ks else clusterOf c :: k :: ks

/-! ## Counts per core in the ranked state (R94, R98, R101) -/

structure CoreUse where
  rp : Nat
  presented : Nat
  owned : Nat
  deriving DecidableEq, Repr

def CoreUse.none_ : CoreUse := { rp := 256, presented := 0, owned := 0 }

/-- The running priority, the presented vectors, and the vectors presented or active, of each core. -/
def coreUses (slots : SMap Slot) : SMap CoreUse :=
  slots.foldl (fun m e =>
    let c := e.2.ctx
    let p := c.lastCore.toNat
    let u := SMap.get m CoreUse.none_ p
    match c.state with
    | .presented => SMap.insert m p { u with presented := u.presented + 1, owned := u.owned + 1 }
    | .active | .activePending =>
        SMap.insert m p { u with rp := min u.rp (cfgPriority c.cfg).toNat, owned := u.owned + 1 }
    | _ => m) []

/-! ## Eligibility (R93 to R95, R102, R103) -/

/-- A PENDING vector as the scan reads it. -/
structure Cand where
  slot : Nat
  key : Word
  rank : BitVec 97
  alarm : Bool
  set : Byte
  cores : List Nat
  multi : Bool
  target : Nat
  elig : List Nat
  steer : Steer
  hasLast : Bool
  last : Nat
  deriving DecidableEq, Repr

/-- Condition 5 of R93. -/
def View.seesSlice (v : View) (alarm : Bool) (key : Word) (c : Nat) : Bool :=
  alarm || keySlice key == 0 || (v.core c).cur == keySlice key

/-- Condition 6 of R93 (R94). -/
def View.preempts (v : View) (alarm : Bool) (prio rp : Nat) : Bool :=
  let s : Nat := ((v.eff oHallCtrl).extractLsb' 0 3).toNat
  alarm || decide (prio / 2 ^ s < rp / 2 ^ s)

def View.coreEn (v : View) (c : Nat) : Bool := coreEnIn v.eff c

/-- Conditions 3 to 6 of R93. -/
def View.serves (v : View) (uses : SMap CoreUse) (alarm : Bool) (key : Word) (prio c : Nat) : Bool :=
  v.coreEn c && (v.core c).on && !(v.core c).fault && v.seesSlice alarm key c &&
    v.preempts alarm prio (SMap.get uses CoreUse.none_ c).rp

/-- The target cluster of R102 and R103, of a non-empty set. -/
def View.targetOf (v : View) (set : Byte) (cores : List Nat) (c : Ctx) (st : Steer) : Nat :=
  let ks := clustersOf cores
  let low := ks.headD 0
  let home := v.home set
  let homed := if ks.contains home then home else low
  if ks.length ≤ 1 then low
  else if v.mode set = 3 then homed
  else if st.valid then st.target.toNat
  else if c.hasLast && cores.contains c.lastCore.toNat then clusterOf c.lastCore.toNat
  else homed

/-- A vector of a slot with the cores and the target that the view gives it. -/
def View.candOf (v : View) (uses : SMap CoreUse) (n : Nat) (s : Slot) : Cand :=
  let c := s.ctx
  let set := cfgCoreset c.cfg
  let cores := v.setCores set
  let alarm := v.isAlarm c.key
  let k := v.targetOf set cores c s.steer
  { slot := n, key := c.key, rank := rankKey alarm (cfgPriority c.cfg) c.arrTick c.key, alarm := alarm, set := set
    cores := cores, multi := decide (1 < (clustersOf cores).length), target := k
    elig := cores.filter fun p => clusterOf p == k && v.serves uses alarm c.key (cfgPriority c.cfg).toNat p
    steer := s.steer, hasLast := c.hasLast, last := c.lastCore.toNat }

/-- The scan of one slot: a PENDING vector that is not poisoned, with a core set that is not empty; of a slice whose vectors are muted
only those of alarm routes. -/
def View.scan (v : View) (uses : SMap CoreUse) (n : Nat) (s : Slot) : Option Cand :=
  let c := s.ctx
  if c.state != .pending || c.poisoned || (v.img.muted.contains (keySlice c.key) && !v.isAlarm c.key) ||
      v.setCores (cfgCoreset c.cfg) == [] then none
  else some (v.candOf uses n s)

/-- Candidates in key order. -/
def insertCand (x : Cand) : List Cand → List Cand
  | [] => [x]
  | y :: ys => if x.rank.toNat < y.rank.toNat then x :: y :: ys else y :: insertCand x ys

def sortCands (l : List Cand) : List Cand := l.foldl (fun m x => insertCand x m) []

/-! ## Lists and landing (R96, R97) -/

/-- An offer: porch, ranking key, vector. -/
structure Offer where
  porch : Nat
  rank : BitVec 97
  key : Word
  deriving DecidableEq, Repr

/-- A ranking: the released set, what it counts, and what the study takes from it. -/
structure Ranking where
  offers : List Offer
  withheld : Nat
  listOver : Nat
  mergeOver : Nat
  superseded : Nat
  displaced : Nat
  emptySet : Nat
  unplaced : List Word
  refused : List Cand
  cands : List Cand
  listed : List Nat
  backlog : SMap Nat
  anyPending : Bool
  deriving DecidableEq, Repr

/-- Of a list in key order the first `n` under each value of `f`, and how many that leaves out. -/
def firstOf (f : Cand → Nat) (n : Nat) (l : List Cand) : List Cand × Nat :=
  let r := l.foldl (fun (a : List Cand × SMap Nat) x =>
    let k := SMap.get a.2 0 (f x)
    if n ≤ k then a else (a.1 ++ [x], SMap.insert a.2 (f x) (k + 1))) ([], [])
  (r.1, l.length - r.1.length)

/-- The banks' lists of a scan: at most 4 candidates of a bank and cluster (R96). -/
def bankLists (l : List Cand) : List Cand × Nat := firstOf (fun x => x.slot / 256 * 32 + x.target) 4 l

/-- The cluster lists: at most 32 candidates of a cluster (R97). -/
def clusterLists (l : List Cand) : List Cand × Nat := firstOf (·.target) 32 l

/-- The terms of R101 for one core, as one number; the least wins. -/
def View.order (v : View) (x : Cand) (b c : Nat) : Nat :=
  let s : Nat := (v.core c).sleep.toNat
  let r : Nat := if (v.core c).cur = keySlice x.key then 0 else 1
  let a : Nat := if x.hasLast ∧ x.last = c then 0 else 1
  let b := min 15 b
  match v.mode x.set with
  | 1 => (((a * 4 + s) * 2 + r) * 16 + b) * 256 + c
  | 2 => (s * 2 + r) * 256 + c
  | _ => (((s * 2 + r) * 16 + b) * 2 + a) * 256 + c

/-- The least core of a list under an order. -/
def leastBy (f : Nat → Nat) : List Nat → Option Nat
  | [] => none
  | c :: cs =>
      match leastBy f cs with
      | none => some c
      | some d => if f c ≤ f d then some c else some d

structure Landing where
  offers : List Offer
  free : SMap Nat
  backlog : SMap Nat
  unplaced : List Word
  superseded : Nat
  displaced : List Nat
  deriving DecidableEq, Repr

/-- The non-alarm vectors presented at a core in the ranked state. -/
def View.nonAlarms (v : View) (accOpen : List (Word × Byte)) (c : Nat) : Nat :=
  (v.img.slots.filter fun e => e.2.ctx.state == .presented && e.2.ctx.lastCore.toNat == c && !v.isAlarm e.2.ctx.key).length +
    (accOpen.filter fun e => e.2.toNat == c && !v.isAlarm e.1).length

/-- One candidate of a cluster list. -/
def View.land (v : View) (uses : SMap CoreUse) (accOpen : List (Word × Byte)) (l : Landing) (x : Cand) : Landing :=
  let opened (c : Nat) : Nat := (accOpen.filter fun e => e.2.toNat == c).length
  let freeOf (c : Nat) : Nat := SMap.get l.free (4 - (SMap.get uses CoreUse.none_ c).presented - opened c) c
  let backOf (c : Nat) : Nat := SMap.get l.backlog ((SMap.get uses CoreUse.none_ c).owned + opened c) c
  if accOpen.any (·.1 == x.key) then { l with superseded := l.superseded + 1 }
  else
    let open_ := x.elig.filter fun c => decide (0 < freeOf c)
    let disp := open_ == [] && x.alarm
    let cores := if disp then x.elig.filter fun c => decide (l.displaced.count c < v.nonAlarms accOpen c) else open_
    match leastBy (fun c => v.order x (backOf c) c) cores with
    | none => { l with unplaced := l.unplaced ++ [x.key] }
    | some c =>
        { l with
          offers := l.offers ++ [{ porch := c, rank := x.rank, key := x.key }]
          free := SMap.insert l.free c (freeOf c - 1)
          backlog := SMap.insert l.backlog c (backOf c + 1)
          displaced := if disp then c :: l.displaced else l.displaced }

/-- A vector of R109: a PENDING one whose cores' domains are all off, of which one meets conditions 2, 3 and 5. -/
def View.wakeFor (v : View) (x : Cand) : Bool :=
  x.cores.all (fun c => !(v.core c).on) && x.cores.any fun c => v.coreEn c && v.seesSlice x.alarm x.key c

/-- The domains that R109 wants woken: of the target clusters of such vectors in the whole ranked state, whatever a scan reads. -/
def View.wakes (v : View) : BitVec 32 :=
  let uses := coreUses v.img.slots
  (v.img.slots.filterMap fun e => v.scan uses e.1 e.2).foldl
    (fun m x => if v.wakeFor x then m ||| (1#32 <<< x.target) else m) 0

/-- The candidates of a scan, best first. -/
def View.scanned (v : View) (slots : SMap Slot) : List Cand :=
  sortCands (slots.filterMap fun e => v.scan (coreUses v.img.slots) e.1 e.2)

/-- A candidate of a list as the landing's own image shows it, unless no core of its target is left to it. -/
def View.renew (v : View) (x : Cand) : Option Cand :=
  ((SMap.find? v.img.slots x.slot).bind fun s => v.scan (coreUses v.img.slots) x.slot s).filter fun y => y.elig != []

/-- A ranking: the landing against the core state and slot counts of `v`, over the vectors that its scan reads in `slots` and the
candidates `older` of the lists of the half-rotation before it, with the counts of R101 for the scan's own slots. Of the merged lists the
landing takes the candidates whose slot is kept. UNPLACED and refusals are those of vectors that the scan read (R104). -/
def View.rank (v : View) (slots : SMap Slot) (older : List Cand) (keep : Nat → Bool) (accOpen : List (Word × Byte)) (cap : Nat) :
    Ranking :=
  let uses := coreUses v.img.slots
  let cands := v.scanned slots
  let lists := bankLists (cands.filter fun x => x.elig != [])
  let merged := clusterLists (older.foldl (fun l x => insertCand x l) lists.1)
  let l := ((merged.1.filter fun x => keep x.slot).filterMap v.renew).foldl (fun l x => v.land uses accOpen l x)
    { offers := [], free := [], backlog := [], unplaced := [], superseded := 0, displaced := [] }
  let kept := l.offers.take cap
  let unplaced := l.unplaced.filter fun k => cands.any fun x => x.key == k
  let back (c : Nat) : Nat := (SMap.get uses CoreUse.none_ c).owned + (accOpen.filter fun e => e.2.toNat == c).length +
    (kept.filter fun o => o.porch == c).length
  let refused := cands.filter fun x =>
    x.multi && v.mode x.set != 3 && (x.elig == [] || (unplaced.contains x.key && x.steer.unplaced == 7))
  { offers := kept, withheld := l.offers.length - kept.length, listOver := lists.2, mergeOver := merged.2
    superseded := l.superseded, displaced := l.displaced.length
    emptySet := (slots.filter fun e => e.2.ctx.state == .pending && v.setCores (cfgCoreset e.2.ctx.cfg) == []).length
    unplaced := unplaced, refused := refused, cands := cands, listed := lists.1.map (·.slot)
    backlog := (List.range 256).foldl (fun m c => SMap.set m 0 c (back c)) []
    anyPending := v.img.slots.any fun e => e.2.ctx.state == .pending }

/-- The first half-rotation at P3: it is read and listed, and nothing is released (R17, R291). -/
def Ranking.readOnly (r : Ranking) : Ranking :=
  { r with offers := [], withheld := 0, mergeOver := 0, superseded := 0, displaced := 0, unplaced := []
           refused := r.refused.filter fun x => x.elig == [] }

/-! ## The decision digest (R268) -/

/-- An offer's 16 bytes. -/
def Offer.bytes (o : Offer) : List Byte :=
  BitVec.ofNat 8 o.porch :: (bytesOf 13 o.rank ++ [0, 0])

/-- Offers by porch, then by key. -/
def insertOffer (x : Offer) : List Offer → List Offer
  | [] => [x]
  | y :: ys =>
      if x.porch < y.porch ∨ (x.porch = y.porch ∧ x.rank.toNat < y.rank.toNat) then x :: y :: ys
      else y :: insertOffer x ys

def offersDigest (l : List Offer) : Word :=
  if l = [] then 0 else crc32c ((l.foldl (fun m x => insertOffer x m) []).flatMap Offer.bytes)

/-! ## What a ranking leaves (R104, R108, R115) -/

/-- The ranking counters; `whole` says that a full scan is completed with it. -/
def Wing.countRanking (w : Wing) (r : Ranking) (whole : Bool) : Wing :=
  ((((((w.countIf whole cScans).countN cListOver r.listOver).countN cMergeOver r.mergeOver).countN cSuperseded
    r.superseded).countN cCapWithheld r.withheld).countN cAlarmDisplace r.displaced).countN cEmptySet r.emptySet

/-- UNPLACED after a ranking: cleared when the vector was placed, left PENDING or was refused. -/
def Ranking.unplacedOf (r : Ranking) (c : Ctx) (u : BitVec 3) : BitVec 3 :=
  if c.state ≠ .pending ∨ r.offers.any (·.key == c.key) ∨ r.refused.any (·.key == c.key) then 0
  else if r.unplaced.contains c.key then satInc u
  else u

def Wing.noteUnplaced (w : Wing) (r : Ranking) : Wing :=
  w.setSlots (w.pan.slots.map fun e =>
    (e.1, { e.2 with steer := { e.2.steer with unplaced := r.unplacedOf e.2.ctx e.2.steer.unplaced } }))

/-- Stranded vectors of a scan, per slice, added to those of `m`: their number and most urgent PRIORITY (R108). -/
def View.stranded (v : View) (m : SMap (Nat × Nat)) (cands : List Cand) : SMap (Nat × Nat) :=
  cands.foldl (fun m x =>
    let s := keySlice x.key
    if !x.alarm && s != 0 && !(x.cores.any fun c => v.coreEn c && (v.core c).cur == s) then
      let p := (rkPrio x.rank).toNat
      match SMap.find? m s.toNat with
      | some (n, q) => SMap.insert m s.toNat (n + 1, min p q)
      | none => SMap.insert m s.toNat (1, p)
    else m) m

def Wing.resDelay (w : Wing) : Nat := ((w.effW oHallCtrl).extractLsb' 16 8).toNat

/-- The slice's count has reached its limit and its RESIDENCY record waits: the count holds its value (R175). -/
def Wing.strandWaits (w : Wing) (v : SliceSt) : Bool :=
  w.resDelay != 0 && decide (16 * w.resDelay ≤ v.strand) && !v.strandTold

/-- The stranding counts after a scan that covers `ticks` ticks. A slice whose vectors are muted keeps none (R180). -/
def Wing.countStranding (w : Wing) (st : SMap (Nat × Nat)) (ticks : Nat) : Wing :=
  let w1 := { w with
    sl := w.sl.map fun (e : Nat × SliceSt) =>
      if (SMap.find? st e.1).isSome && !e.2.muted then
        (e.1, if w.strandWaits e.2 then e.2 else { e.2 with strand := min 65535 (e.2.strand + ticks) })
      else (e.1, { e.2 with strand := 0, strandTold := false }) }
  { w1 with hall := { w1.hall with
      resident := st.map fun (e : Nat × (Nat × Nat)) => (BitVec.ofNat 12 e.1, BitVec.ofNat 16 (min 65535 e.2.1), BitVec.ofNat 8 e.2.2) } }

/-! ## Choosing a cluster (R105) -/

/-- The value by which a cluster qualifies for a vector: least sleep class, mean backlog. -/
def View.clusterValue (v : View) (uses : SMap CoreUse) (back : SMap Nat) (x : Cand) (k : Nat) : Option (Nat × Nat) :=
  let cs := x.cores.filter fun c => clusterOf c == k && v.serves uses x.alarm x.key (rkPrio x.rank).toNat c
  match cs with
  | [] => none
  | c :: rest =>
      some (rest.foldl (fun m d => min m (v.core d).sleep.toNat) (v.core c).sleep.toNat,
        (cs.map fun d => min 15 (SMap.get back 0 d)).sum / cs.length)

/-- The chosen cluster, if any qualifies. -/
def View.chooseCluster (v : View) (back : SMap Nat) (x : Cand) : Option Nat :=
  let uses := coreUses v.img.slots
  let home := v.home x.set
  let vals := (clustersOf x.cores).filterMap fun k => (v.clusterValue uses back x k).map fun z => (k, z)
  let best (f : Nat × (Nat × Nat) → Nat) : Option Nat :=
    (vals.foldl (fun (m : Option (Nat × (Nat × Nat))) z =>
      match m with
      | none => some z
      | some y => if f z < f y then some z else some y) none).map Prod.fst
  let balance := best fun z => (z.2.1 * 65536 + z.2.2) * 32 + (z.1 + 32 - home) % 32
  match v.mode x.set with
  | 1 =>
      let k := clusterOf x.last
      if x.hasLast ∧ vals.any (fun z => z.1 == k) then some k else balance
  | 2 => best fun z => z.2.1 * 32 + z.1
  | _ => balance

/-- The TARGET record of a decision. -/
def Cand.targetRec (x : Cand) (k : Nat) : TargetRec :=
  { cluster := BitVec.ofNat 5 k, bank := bankOf x.slot, slot := slotOf x.slot, key := x.key, coreset := x.set }

/-- The records for the refusals of a ranking, in key order; none where no cluster qualifies. -/
def View.refusalRecs (v : View) (r : Ranking) : List TargetRec :=
  r.refused.filterMap fun x => (v.chooseCluster r.backlog x).map fun c => x.targetRec c

/-! ## The ranking of a wing (R13, R17, R87, R89) -/

def Wing.view (w : Wing) (img : RankImg) : View := { pg := w.portGen, img := img }

def Wing.physSlice (w : Wing) (p : Nat) : Phys := SMap.get w.int.physSlice (Phys.resetSlice p) p

/-- The physical scan slice behind a logical one. -/
def Wing.repSlice (w : Wing) (s : Nat) : Nat := SMap.get w.int.repSlice s s

/-- Slots that a scan leaves out while a slice is DOUBLED (R355): in even scans those of the failed slice, in odd scans those of the
slice that stands in for it. -/
def Wing.scanSkips (w : Wing) (even : Bool) (slot : Nat) : Bool :=
  let own := w.repSlice (slot / 2048)
  match (List.range 9).find? (fun p => (w.physSlice p).state == 4) with
  | none => false
  | some f =>
      if own = f then even
      else !even && ((List.range 9).find? fun p => (w.physSlice p).state == 1) == some own

/-- Slots that the ranking for the release at the start of tick `m` leaves out: entries that could not be read (R341), and those that
its scan skips. -/
def Wing.skips (w : Wing) (m : Tick) (slot : Nat) : Bool :=
  let scan := if w.pwr.level = .p3 then (m.toNat - 1 - w.hall.p3since.toNat) / 2 else m.toNat - 1
  w.hall.dropped.contains slot || w.scanSkips (decide (scan % 2 = 0)) slot

/-- The ranking at P0 to P2 for the release at the start of tick `m`: of the state of the image, against the acceptances of the
boundary that opened the ranking tick. -/
def Wing.rankOf (w : Wing) (img : RankImg) (accOpen : List (Word × Byte)) (m : Tick) (cap : Nat) : Ranking :=
  (w.view img).rank (img.slots.filter fun e => !w.skips m e.1) [] (fun _ => true) accOpen cap

/-- Two contexts agree in the fields that a ranking reads. -/
def sameRank (a b : Slot) : Bool :=
  a.ctx.key == b.ctx.key && a.ctx.state == b.ctx.state && a.ctx.cfg == b.ctx.cfg && a.ctx.arrTick == b.ctx.arrTick &&
    a.ctx.hasLast == b.ctx.hasLast && a.ctx.lastCore == b.ctx.lastCore && a.steer.valid == b.steer.valid &&
    a.steer.target == b.steer.target

/-- The half-rotation that is read during tick k at P3: the slots 0 to 127 of each bank first (R17, R291). -/
def Wing.inHalf (w : Wing) (k : Tick) (slot : Nat) : Bool :=
  decide (slot % 256 < 128) == decide ((k.toNat - w.hall.p3since.toNat) % 2 = 0)

/-- The slots that a scan reads during tick `k` at P3. -/
def Wing.halfOf (w : Wing) (img : RankImg) (k : Tick) : SMap Slot :=
  img.slots.filter fun e => w.inHalf k e.1 && !w.skips (k + 1) e.1

/-- The slot's vector is PENDING in both images with the same rank fields. -/
def steady (now before : RankImg) (slot : Nat) : Bool :=
  match SMap.find? now.slots slot, SMap.find? before.slots slot with
  | some a, some b => a.ctx.state == .pending && sameRank b a
  | _, _ => false

/-- The lists of the half-rotation before, as its scan read them from the image before (R17). -/
def Wing.olderLists (w : Wing) (before : RankImg) : List Cand :=
  (w.view before).scanned (before.slots.filter fun e => w.hall.half.contains e.1)

/-- The merge at P3 for the release at the start of tick `m`: the lists of the half-rotation read during tick m-1 from the image of the
state of m-2, and those of the one read before it from the image of m-3, merged as they were read and then thinned. R17, R23 and R111 have
a change of tick n released at the start of n+3, whichever half reads it: a candidate that changed in m-2 waits for the next release
(DEDUCED, log 97). -/
def Wing.rankP3 (w : Wing) (now before : RankImg) (accOpen : List (Word × Byte)) (m : Tick) (cap : Nat) : Ranking :=
  (w.view now).rank (w.halfOf now (m - 1)) (w.olderLists before) (steady now before) accOpen cap

end Sys2Proof.Machine
end

