-- ==== Sys2Proof/Machine/Porches.lean ====
section
/-! DEFINITION. The porches of 05_porches.md: the accepted wing, acceptance, presentation, returns, the core ports, the journal,
and the power of a porch domain. -/

namespace Sys2Proof.Machine

/-! ## What a porch shows -/

/-- PORCH_UP (R127). -/
def Porch.live (q : Porch) : Bool := q.on && q.up && !q.fault

/-- The wing whose claim record is valid and higher (R136). -/
def Porch.accepted (q : Porch) : Option WingId :=
  match q.claimE, q.claimW with
  | some a, some b => if a.toNat < b.toNat then some .west else some .east
  | some _, none => some .east
  | none, some _ => some .west
  | none, none => none

/-- The porch's higher claim number. -/
def Porch.topClaim (q : Porch) : Word :=
  match q.claimE, q.claimW with
  | some a, some b => if a.toNat < b.toNat then b else a
  | some a, none => a
  | none, some b => b
  | none, none => 0

/-- The porch running priority of R125. -/
def Porch.prp (q : Porch) : Nat :=
  (q.journal.filter (·.kind == .claim)).foldl (fun m e => min m e.prio.toNat) q.rpHdr.toNat

/-- The offer meets the condition of R124 on SLICE_CUR. -/
def Porch.sliceOk (q : Porch) (k : BitVec 97) : Bool :=
  keySlice (rkKey k) == q.cur || keySlice (rkKey k) == 0 || rkAlarm k

/-- Presentable (R124). -/
def Porch.presentable (q : Porch) (k : BitVec 97) : Bool :=
  q.sliceOk k && (rkAlarm k || decide ((rkPrio k).toNat >>> q.shift.toNat < q.prp >>> q.shift.toNat))

/-- The least key of a list. -/
def minKey : List (BitVec 97) → Option (BitVec 97)
  | [] => none
  | k :: ks =>
      match minKey ks with
      | none => some k
      | some m => if m.toNat < k.toNat then some m else some k

/-- The greatest key of a list. -/
def maxKey : List (BitVec 97) → Option (BitVec 97)
  | [] => none
  | k :: ks =>
      match maxKey ks with
      | none => some k
      | some m => if k.toNat < m.toNat then some m else some k

/-- The keys of the held offers. -/
def Porch.held (q : Porch) : List (BitVec 97) := q.slots.filterMap fun o => o.map PSlot.key

/-- The best presentable offer. -/
def Porch.best (q : Porch) : Option (BitVec 97) :=
  if q.live then minKey (q.held.filter q.presentable) else none

/-- CP_IRQ and VR_IRQ (R128, R129). -/
def Porch.irq (q : Porch) : Bool := q.best.isSome

/-- CP_IRQ_PRIO. -/
def Porch.irqPrio (q : Porch) : Byte := (q.best.map rkPrio).getD 0

/-- CP_IRQ_ALARM. -/
def Porch.irqAlarm (q : Porch) : Bool := (q.best.map rkAlarm).getD false

/-- CP_READY and VR_WREADY, a full journal or raise queue apart. -/
def Porch.ready (q : Porch) : Bool := q.live

def Porch.retDelay (q : Porch) : Nat := (q.cfg.extractLsb' 4 4).toNat

/-- The STATUS beat of R121. -/
def Porch.statusBeat (q : Porch) (p : Byte) : List Out :=
  let d : DWord := (statusBits q.cur q.sleep (q.up && !q.fault) q.fault).setWidth 64
  [.p2w p .east 0x5 d, .p2w p .west 0x5 d]

/-- An EVENT beat to both wings. -/
def eventBeats (p : Byte) (e : PorchEvent) : List Out := [.p2wEvent p .east e, .p2wEvent p .west e]

/-! ## Entries (R116, R132) -/

/-- An entry that the porch writes takes JSEQ, and goes to the accepted wing. -/
def Porch.newEntry (q : Porch) (kind : EntryKind) (rtick prio : Byte) (key : Word) : Entry :=
  { kind := kind, accTick := rtick.extractLsb' 0 6, prio := prio, jseq := q.jseq, key := key }

def Porch.entryBeat (q : Porch) (p : Byte) (e : Entry) : List Out :=
  match q.accepted with
  | none => []
  | some w => [.p2w p w 0x3 e.encode]

/-- An entry into the journal, which has room. -/
def Porch.journalise (q : Porch) (p : Byte) (e : Entry) : Porch × List Out :=
  ({ q with journal := q.journal ++ [e], jseq := q.jseq + 1, journalled := true }, q.entryBeat p e)

/-- The slots without the offer of key `k`. -/
def dropOffer (k : BitVec 97) (sl : List (Option PSlot)) : List (Option PSlot) :=
  sl.map fun o => match o with
    | some x => if x.key = k then none else some x
    | none => none

/-- A held offer is returned (R126). -/
def Porch.giveBack (q : Porch) (p : Byte) (x : PSlot) : Porch × List Out :=
  let e := q.newEntry .ret x.rtick (rkPrio x.key) (rkKey x.key)
  ({ q with slots := dropOffer x.key q.slots, rets := q.rets ++ [e], jseq := q.jseq + 1, journalled := true },
    q.entryBeat p e)

/-- Several held offers are returned, in slot order. -/
def Porch.giveBackAll (p : Byte) : List PSlot → Porch → Porch × List Out
  | [], q => (q, [])
  | x :: xs, q =>
      let r := q.giveBack p x
      let r2 := Porch.giveBackAll p xs r.1
      (r2.1, r.2 ++ r2.2)

def Porch.returnAll (q : Porch) (p : Byte) : Porch × List Out := Porch.giveBackAll p (q.slots.filterMap id) q

/-! ## Votes (R117, R143) -/

/-- A voted read: a correction is reported to both wings; a split puts the porch in FAULT. -/
def Porch.voted (q : Porch) (p : Byte) (v : Vote) (f : Porch → Porch × List Out) : Porch × List Out :=
  match v with
  | .agree => f q
  | .corrected =>
      let r := f q
      (r.1, eventBeats p .voteFix ++ r.2)
  | .split => ({ q with fault := true }, [])

/-! ## Core operations (R130, R131) -/

/-- The response of the claim port to a claim. -/
def claimData (k : BitVec 97) : BitVec 41 := bit (rkAlarm k) ++ rkPrio k ++ rkKey k

/-- What a claim with LIMIT `lim` meets. -/
inductive ClaimResult
  | ok (k : BitVec 97)
  | nothing
  | busy
  deriving DecidableEq, Repr

def Porch.claimResult (q : Porch) (lim : Nat) : ClaimResult :=
  match q.best with
  | none => .nothing
  | some k =>
      if rkAlarm k ∨ (rkPrio k).toNat < lim then (if q.journal.length < 8 then .ok k else .busy) else .nothing

/-- The effect of a claim. -/
def Porch.claimEffect (q : Porch) (p : Byte) (lim : Nat) : Porch × List Out :=
  match q.claimResult lim with
  | .nothing => (q, [])
  | .busy => (q, eventBeats p .claimBusy)
  | .ok k =>
      match (q.slots.filterMap id).find? (fun x => x.key == k) with
      | none => (q, [])
      | some x =>
          ({ q with slots := dropOffer k q.slots } : Porch).journalise p (q.newEntry .claim x.rtick (rkPrio k) (rkKey k))

/-- CP_RSP and CP_RSP_DATA of a claim. -/
def ClaimResult.cp (r : ClaimResult) : BitVec 2 × BitVec 41 :=
  match r with
  | .ok k => (0b00, claimData k)
  | .nothing => (0b01, 0)
  | .busy => (0b10, 0)

/-- VR_RSTAT and VR_RDATA of a read. -/
def ClaimResult.vr (r : ClaimResult) : BitVec 3 × Word :=
  match r with
  | .ok k => (if rkAlarm k then 0b010 else 0b001, rkKey k)
  | .nothing => (0b000, 0)
  | .busy => (0b011, 0)

def cpOut (p : Byte) (r : BitVec 2 × BitVec 41) : List Out := [.cpRsp p r.1 r.2]

/-- A reserved port operation. -/
def portErr (p : Byte) : List Out := eventBeats p .portErr

/-- A COMPLETE entry is journalled. -/
def Porch.completeEffect (q : Porch) (p : Byte) (key : Word) : Porch × List Out :=
  q.journalise p (q.newEntry .complete 0 0 key)

/-- A raise is queued with the SLICE_CUR registered with it. -/
def Porch.raiseEffect (q : Porch) (idx : BitVec 4) : Porch :=
  { q with raiseq := q.raiseq ++ [(idx, q.cur)] }

/-- READY is 1 for the operation: a porch that is live, with room where the operation needs it. -/
def Porch.takes (q : Porch) (o : WaitOp) : Bool :=
  q.ready && match o with
    | .cp op arg =>
        if op = 0b10 then decide (q.journal.length < 8)
        else if op = 0b11 ∧ arg.extractLsb' 4 28 = 0#28 then decide (q.raiseq.length < 4)
        else true
    | .vr a _ =>
        if a = 0b00 then decide (q.journal.length < 8)
        else if a = 0b01 then decide (q.raiseq.length < 4)
        else true

/-- An operation that is taken. -/
def Porch.takeOp (q : Porch) (p : Byte) (o : WaitOp) : Porch × List Out :=
  match o with
  | .cp op arg =>
      if op = 0b01 ∧ arg.extractLsb' 9 23 = 0#23 then
        let lim : Nat := (arg.extractLsb' 0 9).toNat
        let r := q.claimEffect p lim
        (r.1, cpOut p (q.claimResult lim).cp ++ r.2)
      else if op = 0b10 then
        let r := q.completeEffect p arg
        (r.1, cpOut p (0b00, 0) ++ r.2)
      else if op = 0b11 ∧ arg.extractLsb' 4 28 = 0#28 then
        (q.raiseEffect (arg.extractLsb' 0 4), cpOut p (0b00, 0))
      else (q, cpOut p (0b11, 0) ++ portErr p)
  | .vr a d =>
      if a = 0b00 then q.completeEffect p d
      else if a = 0b01 then (q.raiseEffect (d.extractLsb' 0 4), [])
      else (q, portErr p)

/-- What a porch in FAULT answers to an operation that it has taken: ERROR, or NONE (R143). -/
def faultAnswer (p : Byte) (o : WaitOp) (err : Bool) : List Out :=
  match o with
  | .cp _ _ => cpOut p (if err then 0b11 else 0b01, 0)
  | .vr _ _ => []

/-- An operation is taken with the vote on what it reads. -/
def Porch.takeVoted (q : Porch) (p : Byte) (o : WaitOp) (v : Vote) (err : Bool) : Porch × List Out :=
  match v with
  | .split => ({ q with fault := true }, faultAnswer p o err)
  | _ => q.voted p v fun q => q.takeOp p o

/-- The operations that wait are taken in order while READY is 1 for the first. -/
def Porch.drainOps (p : Byte) : Nat → Porch → Porch × List Out
  | 0, q => (q, [])
  | n + 1, q =>
      match q.waiting with
      | [] => (q, [])
      | (o, v, err) :: os =>
          if q.takes o then
            let r := ({ q with waiting := os } : Porch).takeVoted p o v err
            let r2 := Porch.drainOps p n r.1
            (r2.1, r.2 ++ r2.2)
          else (q, [])

def Porch.drain (q : Porch) (p : Byte) : Porch × List Out := Porch.drainOps p q.waiting.length q

/-- Two effects in order. -/
def andThen (r : Porch × List Out) (f : Porch → Porch × List Out) : Porch × List Out :=
  let r2 := f r.1
  (r2.1, r.2 ++ r2.2)

/-- A core starts an operation: taken, or held untaken; lost when the domain is off (R140). A porch that faults on the voted
read of an operation already taken answers NONE or ERROR (R143); `err` says which. -/
def Porch.coreOp (q : Porch) (p : Byte) (o : WaitOp) (v : Vote) (err : Bool) : Porch × List Out :=
  if !q.on then (q, [])
  else if q.waiting = [] ∧ q.takes o then q.takeVoted p o v err
  else ({ q with waiting := q.waiting ++ [(o, v, err)] }, [])

/-- The RAISE beats that are on their way to a wing. -/
def Porch.raisesTo (q : Porch) : WingId → List (BitVec 4 × BitVec 12)
  | .east => q.raiseE
  | .west => q.raiseW

def Porch.setRaises (q : Porch) (w : WingId) (l : List (BitVec 4 × BitVec 12)) : Porch :=
  match w with
  | .east => { q with raiseE := l }
  | .west => { q with raiseW := l }

/-- The oldest raise leaves the queue, voted: one beat to each wing, in one cycle (R117, R131). -/
def Porch.sendRaise (q : Porch) (p : Byte) (v : Vote) : Porch × List Out :=
  match q.raiseq with
  | [] => (q, [])
  | (i, c) :: rest =>
      q.voted p v fun q =>
        let q1 : Porch := { q with raiseq := rest, raiseE := q.raiseE ++ [(i, c)], raiseW := q.raiseW ++ [(i, c)] }
        andThen (q1, [.p2w p .east 0x4 (raiseBeatWord i c), .p2w p .west 0x4 (raiseBeatWord i c)]) fun q => q.drain p

/-- The first beat on its way to the wing is this one: it comes off the link. -/
def Porch.takeRaise (q : Porch) (w : WingId) (i : BitVec 4) (c : BitVec 12) : Option Porch :=
  match q.raisesTo w with
  | x :: rest => if x = (i, c) then some (q.setRaises w rest) else none
  | [] => none

/-! ## Beats from a wing (R119, R122, R136 to R138, R142) -/

def Porch.claimOf (q : Porch) : WingId → Option Word
  | .east => q.claimE
  | .west => q.claimW

/-- The wing's claim record, raised to a greater claim number (R136). -/
def Porch.noteClaim (q : Porch) (w : WingId) (c : Word) : Porch :=
  let keep := match q.claimOf w with
    | some d => decide (c.toNat ≤ d.toNat)
    | none => false
  if keep then q
  else
    match w with
    | .east => { q with claimE := some c }
    | .west => { q with claimW := some c }

/-- An entry before another, in JSEQ order: `base` is the porch's JSEQ. -/
def insertEntry (base : BitVec 16) (e : Entry) : List Entry → List Entry
  | [] => [e]
  | x :: xs => if (base - x.jseq).toNat < (base - e.jseq).toNat then e :: x :: xs else x :: insertEntry base e xs

def Porch.entriesInOrder (q : Porch) : List Entry :=
  (q.journal ++ q.rets).foldl (fun l e => insertEntry q.jseq e l) []

/-- The SLOT_REPORT beat (R138). -/
def Porch.slotReport (q : Porch) : DWord :=
  let one (i : Nat) : BitVec 16 := match q.slots[i]? with
    | some (some x) => slotReportBits true x.rtick (BitVec.ofNat 2 i)
    | _ => slotReportBits false 0 (BitVec.ofNat 2 i)
  one 3 ++ one 2 ++ one 1 ++ one 0

def Porch.slotKeys (q : Porch) : List Word :=
  (List.range 4).map fun i => match q.slots[i]? with
    | some (some x) => rkKey x.key
    | _ => 0

/-- The replay to a newly accepted wing (R138). -/
def Porch.replay (q : Porch) (p : Byte) (w : WingId) : List Out :=
  (q.entriesInOrder.map fun e => .p2w p w 0x3 e.encode) ++ [.p2w p w 0x6 q.slotReport] ++
    (q.slotKeys.map fun k => .p2w p w 0x9 (k.setWidth 64)) ++ [.p2w p w 0x7 0]

/-- A beat from wing `w` with claim number `c`: claim records, the change of the accepted wing, and REFUSE (R136 to R138); `f` is
the beat's own effect, from the accepted wing only. -/
def Porch.fromWing (q : Porch) (p : Byte) (w : WingId) (c : Word) (f : Porch → Porch × List Out) : Porch × List Out :=
  let q1 := q.noteClaim w c
  if q1.accepted = some w then
    let rep := if q.accepted = some w then [] else q1.replay p w
    andThen (q1, rep) f
  else (q1, [.p2wRefuse p w q1.topClaim])

/-- An offer that the porch refuses as a duplicate: its vector is in a slot, or has an uncommitted RETURN entry. -/
def Porch.dup (q : Porch) (key : Word) : Bool :=
  q.held.any (fun k => rkKey k == key) || q.rets.any (fun e => e.key == key)

/-- The offer takes the first free slot. -/
def fillSlot (x : PSlot) : List (Option PSlot) → List (Option PSlot)
  | [] => []
  | none :: ss => some x :: ss
  | some y :: ss => some y :: fillSlot x ss

/-- As `fillSlot`, beside a slot that a claim of the same cycle has emptied (R135). -/
def fillBeside (x : PSlot) : Nat → List (Option PSlot) → List (Option PSlot)
  | _, [] => []
  | 0, s :: ss => s :: fillSlot x ss
  | _ + 1, none :: ss => some x :: ss
  | n + 1, some y :: ss => some y :: fillBeside x n ss

def fillFree (taken : Option (BitVec 2)) (x : PSlot) (sl : List (Option PSlot)) : List (Option PSlot) :=
  match taken with
  | none => fillSlot x sl
  | some i => fillBeside x i.toNat sl

/-- A slot is free for an offer. -/
def hasFree (taken : Option (BitVec 2)) (sl : List (Option PSlot)) : Bool :=
  match taken with
  | none => sl.any (·.isNone)
  | some i => (sl.eraseIdx i.toNat).any (·.isNone)

/-- One OFFER beat (R122, R135); the bit says whether it is accepted. -/
def Porch.offer (q : Porch) (p : Byte) (taken : Option (BitVec 2)) (rtick : Byte) (k : BitVec 97) : Porch × List Out × Bool :=
  let x : PSlot := { key := k, rtick := rtick, hidden := none }
  if q.dup (rkKey k) then (q, eventBeats p .dupOffer, false)
  else if hasFree taken q.slots then ({ q with slots := fillFree taken x q.slots }, [], true)
  else
    match rkAlarm k, maxKey (q.held.filter fun h => !rkAlarm h) with
    | true, some low =>
        match (q.slots.filterMap id).find? (fun y => y.key == low) with
        | none => (q, [], false)
        | some y =>
            let r := q.giveBack p y
            ({ r.1 with slots := fillFree taken x r.1.slots }, r.2, true)
    | _, _ => (q, [], false)

/-- The OFFER beats in order; the result lists the bits of ACCEPT_RSP. -/
def Porch.offers (p : Byte) (taken : Option (BitVec 2)) (rtick : Byte) : List (BitVec 97) → Porch → Porch × List Out × List Bool
  | [], q => (q, [], [])
  | k :: ks, q =>
      let a := q.offer p taken rtick k
      let b := Porch.offers p taken rtick ks a.1
      (b.1, a.2.1 ++ b.2.1, a.2.2 :: b.2.2)

/-- Bit `i` of a list of bits. -/
def bitsOf (l : List Bool) : BitVec 4 :=
  bit (l.getD 3 false) ++ bit (l.getD 2 false) ++ bit (l.getD 1 false) ++ bit (l.getD 0 false)

/-- JSEQ `a` is at or below `b` in serial-number arithmetic modulo 2^16. -/
def jseqLe (a b : BitVec 16) : Bool := decide ((b - a).toNat < 2 ^ 15)

/-- Committed entries leave the journal and the return list. -/
def Porch.dropCommitted (q : Porch) (c : BitVec 16) : Porch :=
  { q with journal := q.journal.filter fun e => !jseqLe e.jseq c, rets := q.rets.filter fun e => !jseqLe e.jseq c }

/-- The slot that a claim of the same cycle has emptied: one that is still empty (R135). -/
def Porch.emptied (q : Porch) (taken : Option (BitVec 2)) : Option (BitVec 2) :=
  taken.filter fun i => q.slots[i.toNat]? == some none

/-- Steps 2 to 6 of R122. -/
def Porch.release (q : Porch) (p : Byte) (taken : Option (BitVec 2)) (w : WingId) (hdr : BitVec 128) (os : List (BitVec 97)) :
    Porch × List Out :=
  let commit : BitVec 16 := hdr.extractLsb' 80 16
  let en := hdr.getLsbD 67
  let q1 := { q.dropCommitted commit with
    rpHdr := hdr.extractLsb' 71 9, shift := hdr.extractLsb' 68 3, coreEn := en }
  let r := if en then (q1, []) else q1.returnAll p
  let n := (hdr.extractLsb' 64 3 : BitVec 3).toNat
  let a := Porch.offers p (q.emptied taken) (hdr.extractLsb' 0 8) (os.take n) r.1
  let held := a.1.held.map rkKey
  andThen (a.1, r.2 ++ a.2.1 ++ [.p2wAccept p w (bitsOf a.2.2) held]) fun q => q.drain p

/-- What an INIT of the accepted wing sets (R142, R144). -/
def Porch.takeInit (q : Porch) (p : Byte) (b : BitVec 128) : Porch × List Out :=
  let q1 := { q with
    cfg := b.extractLsb' 64 32, rpHdr := b.extractLsb' 39 9, shift := b.extractLsb' 36 3, coreEn := b.getLsbD 35
    jseq := if q.journalled then q.jseq else b.extractLsb' 48 16, up := true }
  q1.drain p

/-- The porch takes beats: its domain is on and it is not in FAULT. -/
def Porch.hears (q : Porch) : Bool := q.on && !q.fault

/-! ## Tick boundaries at a porch (R126, R121) -/

/-- One slot at a tick boundary: how long its offer has been hidden by SLICE_CUR, and whether it is returned now. -/
def Porch.ageSlot (q : Porch) (x : PSlot) : PSlot × Bool :=
  if q.sliceOk x.key then ({ x with hidden := none }, false)
  else
    let n := match x.hidden with
      | none => 0
      | some i => i + 1
    ({ x with hidden := some n }, decide (q.retDelay ≤ n))

/-- Returns caused by SLICE_CUR at a tick boundary, then the STATUS beat (R135). -/
def Porch.boundary (q : Porch) (p : Byte) : Porch × List Out :=
  let aged := q.slots.map fun o => o.map q.ageSlot
  let q1 := { q with slots := aged.map fun o => o.map Prod.fst }
  let due := aged.filterMap fun o => match o with
    | some (x, true) => some x
    | _ => none
  let r := Porch.giveBackAll p due q1
  (r.1, r.2 ++ r.1.statusBeat p)

/-! ## The power of a porch domain (R140 to R142, R295) -/

/-- The porches of domain `k`. -/
def domainPorches (k : BitVec 5) : List Byte := (List.range 8).map fun i => BitVec.ofNat 8 (8 * k.toNat + i)

/-- PCH_WAKE[k] of a wing: a wake vote of R109 or R262, or bit k of PWR_PCH_VOTE; a wing that is in Deep or in reset, or that waits for
its key, drives nothing (R295, R405). -/
def Wing.pchWake (w : Wing) (k : Nat) : Bool :=
  match w.life with
  | .held | .keyWait | .deep => false
  | _ => w.hall.wakeVotes.getLsbD k || (k == 0 && w.hall.confirmVote) || (w.effW oPwrPchVote).getLsbD k

/-- The porch is empty (R141); one in FAULT has lost its entries and holds nothing for a core. -/
def Porch.empty (q : Porch) : Bool := q.fault || (q.held == [] && q.journal == [] && q.rets == [])

/-- A porch whose domain is off: the inputs from its core stand. -/
def Porch.powerOff (q : Porch) : Porch := { Porch.off with cur := q.cur, sleep := q.sleep }

/-- A porch whose domain has just powered up (R142). -/
def Porch.powerOn (q : Porch) : Porch := { Porch.off with on := true, cur := q.cur, sleep := q.sleep }

/-- The wing sees PCH_PGOOD[k] fall: nothing reaches it from the domain. -/
def Wing.domainOff (w : Wing) (k : BitVec 5) : Wing :=
  let ps := (domainPorches k).map (·.toNat)
  { w with
    pwr := { w.pwr with domOn := w.pwr.domOn &&& ~~~(1#32 <<< k.toNat), domFirst := SMap.erase w.pwr.domFirst k.toNat }
    pch := { w.pch with
      status := w.pch.status.filter fun e => !ps.contains e.1
      entries := w.pch.entries.filter fun e => !ps.contains e.1
      replay := w.pch.replay.filter fun e => !ps.contains e.1
      ended := w.pch.ended.filter fun p => !ps.contains p
      turned := w.pch.turned.filter fun p => !ps.contains p
      slotRep := w.pch.slotRep.filter fun e => !ps.contains e.1
      initDue := w.pch.initDue.filter fun p => !ps.contains p } }

/-- The wing's own vote for the domain, as PCH_DOM_WAKE names it. -/
def Wing.ownVote (w : Wing) (k : Nat) : Option Word :=
  if w.hall.wakeVotes.getLsbD k then some (domWakeWord 0x2 0)
  else if k = 0 ∧ w.hall.confirmVote then some (domWakeWord 0x3 0)
  else if (w.effW oPwrPchVote).getLsbD k then some (domWakeWord 0x4 0)
  else none

/-- At each tick boundary the first of the wing's own votes that rose while a domain is off is noted (R313, log 29). -/
def Wing.noteOwnVotes (w : Wing) : Wing :=
  (List.range 32).foldl (fun (w : Wing) k =>
    if w.pwr.domOn.getLsbD k || (SMap.find? w.pwr.domFirst k).isSome then w
    else match w.ownVote k with
      | some v => { w with pwr := { w.pwr with domFirst := SMap.insert w.pwr.domFirst k v } }
      | none => w) w

/-- The wake record of the domain (R313): the wing's own vote that rose before, else the lowest-numbered core that votes now, else the
wing's own vote now. -/
def Wing.domainSource (w : Wing) (k : BitVec 5) (pdVote : Byte) : Option Word :=
  match SMap.find? w.pwr.domFirst k.toNat, (List.range 8).find? (fun i => pdVote.getLsbD i) with
  | some v, _ => some v
  | none, some i => some (domWakeWord 0x1 (BitVec.ofNat 8 (8 * k.toNat + i)))
  | none, none => w.ownVote k.toNat

/-- The wing sees PCH_PGOOD[k] rise: its wake record, and an INIT at its next boundary if it is live. -/
def Wing.domainOn (w : Wing) (k : BitVec 5) (pdVote : Byte) : Wing :=
  match w.life with
  | .held | .deep => { w with pwr := { w.pwr with domOn := w.pwr.domOn ||| (1#32 <<< k.toNat) } }
  | _ =>
      let ps := (domainPorches k).map (·.toNat)
      let src := match w.domainSource k pdVote with
        | some v => SMap.set w.pwr.domWake 0 k.toNat v
        | none => w.pwr.domWake
      { w with
        pwr := { w.pwr with
          domOn := w.pwr.domOn ||| (1#32 <<< k.toNat), domWake := src, domFirst := SMap.erase w.pwr.domFirst k.toNat }
        pch := { w.pch with initDue := w.pch.initDue ++ ps } }

/-- Both wings are in reset: every cluster rail is off, whatever the votes (R407). -/
def State.railsOff (s : State) : Bool := s.east.life == .held && s.west.life == .held

/-- Some vote holds domain `k` on. -/
def State.domainHeld (s : State) (k : BitVec 5) (pdVote : Byte) : Bool :=
  !s.railsOff && (pdVote != 0 || s.east.pchWake k.toNat || s.west.pchWake k.toNat)

/-- While both wings are in reset the porches lose all that they hold, claim records included (R407, R412). -/
def State.dropRails (s : State) : State :=
  if s.railsOff then
    { s with
      porches := (s.porches.map fun (e : Nat × Porch) => (e.1, e.2.powerOff)).filter fun e => !decide (e.2 = Porch.off)
      east := { s.east with pwr := { s.east.pwr with domOn := 0 } }
      west := { s.west with pwr := { s.west.pwr with domOn := 0 } } }
  else s

def State.domainIsOn (s : State) (k : BitVec 5) : Bool := (domainPorches k).all fun p => (s.porch p).on

/-- Each porch of the list through `f`, in order. -/
def State.onPorches (f : Byte → Porch → Porch × List Out) : List Byte → State → State
  | [], s => s
  | p :: ps, s =>
      let r := f p (s.porch p)
      State.onPorches f ps { s.setPorch p r.1 with out := s.out ++ r.2 }

/-! ## The commands -/

/-- The straps of R399 that give the porches their ports, as a wing that is out of reset has sampled them. With both in reset the porches
are off (R407). -/
def State.portGen (s : State) : BitVec 64 := if s.east.life = .held then s.west.portGen else s.east.portGen

/-- RAISE (R130), on the port that the strap of R399 gives the porch. -/
def execRaise (p : Byte) (arg : Word) (v : Vote) (s : State) : Host.Outcome State Fault Refusal :=
  let op : WaitOp := if portGenOf s.portGen p.toNat == 0b01 then .vr 0b01 arg else .cp 0b11 arg
  let r := s.onPorch p fun q => q.coreOp p op v (Config.faultAnswerIsError s.free)
  .next { r with free := s.free + 1 }

/-- RELEASE_HEADER (R122). A core operation of the same cycle is a command of its own before it (R135). -/
def execReleaseHeader (p : Byte) (from_ : WingId) (hdr : BitVec 128) (offers : List (BitVec 97)) (v : HeaderRead)
    (s : State) : Host.Outcome State Fault Refusal :=
  nextPorch s p fun q =>
    if q.hears then
      q.voted p v.vote fun q => q.fromWing p from_ (hdr.extractLsb' 96 32) fun q =>
        if q.up then q.release p v.taken from_ hdr offers else (q, [])
    else (q, [])

/-- CLAIM_RAISE (R136). -/
def execClaimRaise (p : Byte) (from_ : WingId) (claim : Word) (v : Vote) (s : State) :
    Host.Outcome State Fault Refusal :=
  nextPorch s p fun q =>
    if q.hears then q.voted p v fun q => q.fromWing p from_ claim fun q => (q, []) else (q, [])

/-- INIT (R142). -/
def execInit (p : Byte) (from_ : WingId) (beat : BitVec 128) (v : Vote) (s : State) :
    Host.Outcome State Fault Refusal :=
  nextPorch s p fun q =>
    if q.hears then
      q.voted p v fun q => q.fromWing p from_ (beat.extractLsb' 96 32) fun q => q.takeInit p beat
    else (q, [])

/-- CLAIM (R130): an operation of the claim port. -/
def execClaim (p : Byte) (op : BitVec 2) (arg : Word) (v : Vote) (s : State) : Host.Outcome State Fault Refusal :=
  let r := s.onPorch p fun q => q.coreOp p (.cp op arg) v (Config.faultAnswerIsError s.free)
  .next { r with free := s.free + 1 }

/-- VR_RD (R130, R140, R143): a strobe without a handshake; a porch that is on and not live answers NONE. -/
def execVrRd (p : Byte) (v : Vote) (s : State) : Host.Outcome State Fault Refusal :=
  nextPorch s p fun q =>
    if !q.on then (q, [])
    else if !q.live || v == .split then
      ({ q with fault := q.fault || (q.live && v == .split) }, [.vrRsp p 0b000 0])
    else q.voted p v fun q =>
      let r := q.claimEffect p 256
      (r.1, .vrRsp p (q.claimResult 256).vr.1 (q.claimResult 256).vr.2 :: r.2)

/-- COMPLETE (R130): an operation of the claim port. -/
def execComplete (p : Byte) (arg : Word) (v : Vote) (s : State) : Host.Outcome State Fault Refusal :=
  let r := s.onPorch p fun q => q.coreOp p (.cp 0b10 arg) v (Config.faultAnswerIsError s.free)
  .next { r with free := s.free + 1 }

/-- EOI (R130): a write of the vector-read port. -/
def execEoi (p : Byte) (waddr : BitVec 2) (data : Word) (v : Vote) (s : State) : Host.Outcome State Fault Refusal :=
  nextPorch s p fun q => q.coreOp p (.vr waddr data) v false

/-- SLICE_CUR_RETURN (R126): a tick boundary at the porch, with its STATUS beat. -/
def execSliceCurReturn (p : Byte) (v : Vote) (s : State) : Host.Outcome State Fault Refusal :=
  nextPorch s p fun q =>
    if !q.on then (q, [])
    else if q.fault then (q, q.statusBeat p)
    else
      let r := q.voted p v fun q => q.boundary p
      if r.1.fault then (r.1, r.1.statusBeat p) else r

/-- SLICE_CUR_CHANGE (R124, R127): the porch registers its core's SLICE_CUR and sleep class; 3 counts as 2. -/
def execSliceCurChange (p : Byte) (cur : BitVec 12) (sleep : BitVec 2) (s : State) :
    Host.Outcome State Fault Refusal :=
  nextPorch s p fun q => ({ q with cur := cur, sleep := if sleep = 3 then 2 else sleep }, [])

/-- PORCH_DOMAIN_POWER_DOWN (R141): with no vote left, the porches return their offers, each on voted reads; the domain drops once all
are empty. -/
def execPorchDomainPowerDown (k : BitVec 5) (d : DownRead) (s : State) : Host.Outcome State Fault Refusal :=
  let s0 := { s with out := [] }
  if s.domainHeld k d.vote || !s.domainIsOn k then .next s0
  else
    let vote (p : Byte) : Vote := d.reads.getD (p.toNat % 8) .agree
    let s1 := State.onPorches (fun p q => if q.hears then q.voted p (vote p) fun q => q.returnAll p else (q, []))
      (domainPorches k) s0
    if (domainPorches k).all fun p => (s1.porch p).empty then
      let s2 := State.onPorches (fun _ q => (q.powerOff, [])) (domainPorches k) s1
      .next { s2 with east := s2.east.domainOff k, west := s2.west.domainOff k }
    else .next s1

/-- PORCH_DOMAIN_POWER_UP (R142, R313). -/
def execPorchDomainPowerUp (k : BitVec 5) (pdVote : Byte) (s : State) : Host.Outcome State Fault Refusal :=
  let s0 := { s with out := [] }
  if !s.domainHeld k pdVote || s.domainIsOn k then .next s0
  else
    let s1 := State.onPorches (fun _ q => (q.powerOn, [])) (domainPorches k) s0
    .next { s1 with east := s1.east.domainOn k pdVote, west := s1.west.domainOn k pdVote }

end Sys2Proof.Machine
end

