-- ==== Sys2Proof/Machine/Ingress.lean ====
section
/-! DEFINITION. What enters a wing from outside: aperture writes and reads, wired sources, raises and alarm lines (02_vestibule.md,
12_hearth.md R327, R328). -/

namespace Sys2Proof.Machine

/-! ## The message input buffer (R20, R38, R55) -/

/-- The vestibule takes aperture writes (R404): APT_LIVE. -/
def Wing.aptLive (w : Wing) : Bool :=
  match w.life with
  | .run | .napEntry | .nap | .deepEntry => true
  | _ => false

/-- A write is an arrival for the slice of its page (R28). -/
def isArrivalWrite (a : AptWrite) : Bool :=
  match AptRange.of a.pageOff with
  | .native | .msi => true
  | _ => false

/-- The write may not leave the buffer: the wing sleeps, or the write is an arrival for a slice whose spill ring is full. -/
def Wing.blocks (w : Wing) (a : AptWrite) : Bool := !w.running || (isArrivalWrite a && w.spillFull a.slice)

/-- A stall of the buffer by a full spill ring is shown in VST_STATUS, with the slice of the first one (R55). -/
def Wing.noteStall (w : Wing) (a : AptWrite) : Wing :=
  if w.running && !w.vst.stallSeen then
    { w with vst := { w.vst with stallSeen := true, stallSlice := a.slice } }
  else w

/-- A stall is in progress. -/
def Wing.stalling (w : Wing) : Bool :=
  w.running && match w.vst.inbuf with
    | [] => false
    | e :: _ => w.blocks e.1

/-- A native message leaves the buffer (R31, R46). -/
def Wing.doNative (w : Wing) (a : AptWrite) : Wing :=
  match nativeCheck a with
  | some r => w.reject r (aptRejectEntry a)
  | none => w.register (nativeObs a)

/-- MSI data leaves the buffer (R33). -/
def Wing.doMsi (w : Wing) (a : AptWrite) : Wing :=
  match msiCheck a with
  | some r => w.reject r (aptRejectEntry a)
  | none => w.register (msiObs a)

/-- A command doorbell leaves the buffer (R35, R151 to R153). -/
def Wing.doCmdDoorbell (w : Wing) (a : AptWrite) : Wing :=
  match w.doorbellCheck a 0x200 with
  | some r => w.reject r (aptRejectEntry a)
  | none =>
      let d : Word := a.field 0 32
      if w.admitsNew then w.applyDoorbell a.slice (d.extractLsb' 30 2) (d.extractLsb' 0 24)
      else w.keepDoorbell a.slice (d.extractLsb' 30 2) (d.extractLsb' 0 24)

/-- A letterbox doorbell leaves the buffer (R198). -/
def Wing.doLetter (w : Wing) (a : AptWrite) : Wing :=
  match w.doorbellCheck a 0x300 with
  | some r => w.reject r (aptRejectEntry a)
  | none => w.takeLetter a.slice (a.field 0 32)

/-- A write leaves the buffer. -/
def Wing.handleWrite (w : Wing) (a : AptWrite) : Wing :=
  match AptRange.of a.pageOff with
  | .native => w.doNative a
  | .msi => w.doMsi a
  | .cmd => w.doCmdDoorbell a
  | .letter => w.doLetter a
  | .none => w.reject rjAddr (aptRejectEntry a)

/-- A drain report is received: the active wing carries it, and the request that it answers is no longer outstanding (R219, R220). -/
def Wing.takeReport (w : Wing) (p : BitVec 4) (pasid : BitVec 20) (gen : Byte) : Wing :=
  if w.ownsFrame then
    let q := (w.drnOf p.toNat).filter fun x => !(x.1 == pasid && x.2.1 == gen)
    { w with drn := SMap.set w.drn [] p.toNat q }.place (.drain { port := p, pasid := pasid, gen := gen })
  else w

/-- The drain reports that no message stands ahead of any more. -/
def Wing.settleReports (w : Wing) : Wing :=
  let due := w.vst.drnWait.filter fun x => x.2.2.2 == 0
  due.foldl (fun w x => w.takeReport x.1 x.2.1 x.2.2.1)
    { w with vst := { w.vst with drnWait := w.vst.drnWait.filter fun x => x.2.2.2 != 0 } }

/-- A write leaves the front of the buffer; what waits behind it has one message less ahead. -/
def Wing.popWrite (w : Wing) (rest : List (AptWrite × Bool)) : Wing :=
  { w with vst := { w.vst with inbuf := rest, drnWait := w.vst.drnWait.map fun x => (x.1, x.2.1, x.2.2.1, x.2.2.2 - 1) } }

/-- A write that the interconnect holds is taken as a place in the buffer of 512 comes free (R20, R55). -/
def Wing.refill (w : Wing) : Wing :=
  if !w.running then w
  else
    let new := (w.vst.inbuf.take 512).filter fun e => !e.2
    { w with
      vst := { w.vst with inbuf := (w.vst.inbuf.take 512).map (fun e => (e.1, true)) ++ w.vst.inbuf.drop 512 }
      out := w.out ++ List.replicate new.length (Out.aptTaken w.id) }

/-- The buffer is drained until a write blocks it; APT_TAKEN pulses for a write as it enters the buffer of 512, and APT_CREDIT returns the
credit of its place as it leaves (R20, R399). -/
def Wing.drain : Nat → Wing → Wing
  | 0, w => w
  | n + 1, w =>
      match w.vst.inbuf with
      | [] => w
      | (a, taken) :: rest =>
          if w.blocks a then w.noteStall a
          else
            let w1 := w.popWrite rest
            let w2 := if taken then w1 else w1.emit (.aptTaken w.id)
            (((w2.emit (.aptCredit w.id)).handleWrite a).settleReports).drain n

def Wing.drainAll (w : Wing) : Wing := (w.drain w.vst.inbuf.length).refill

/-- A write reaches the vestibule; `act` is what it does when it leaves the buffer at once. -/
def Wing.takeWrite (w : Wing) (a : AptWrite) (act : Wing → AptWrite → Wing) : Wing :=
  if !w.aptLive then w
  else if w.vst.inbuf != [] || w.blocks a then
    let room := w.running && decide (w.vst.inbuf.length < 512)
    let w1 := { w with vst := { w.vst with inbuf := w.vst.inbuf ++ [(a, room)] } }
    let w2 := if w.vst.inbuf = [] then w1.noteStall a else w1
    if room then w2.emit (.aptTaken w.id) else w2.wake { source := 0x2, detail := a.slice }
  else act ((w.emit (.aptTaken w.id)).emit (.aptCredit w.id)) a

/-- A write in a range of its own is judged there; outside it the write goes by its address. -/
def Wing.byRange (w : Wing) (a : AptWrite) (r : AptRange) (act : Wing → AptWrite → Wing) : Wing :=
  if AptRange.of a.pageOff = r then w.takeWrite a act else w.takeWrite a Wing.handleWrite

/-! ## Wired sources (R36 to R38, R417) -/

def Wing.pinLevel (w : Wing) (i : Nat) : Bool := SMap.get w.vst.levels false i

/-- The source is asserted at the pin level `l` under the entry `c`. -/
def assertedAt (c : DWord) (l : Bool) : Bool := l != c.getLsbD 34

def srcEnabled (c : DWord) : Bool := c.getLsbD 32
def srcEdge (c : DWord) : Bool := c.getLsbD 33

/-- The observation of wired source `i`, with the target of its entry (R417). -/
def Wing.wiredObs (w : Wing) (i : Nat) : Obs :=
  { cls := 1, num := BitVec.ofNat 12 i, seq := 0, key := loWord (w.srcCfg i), reg := 0
    ctrl := ((loWord (w.srcCfg i)).extractLsb' 0 20 : BitVec 20).setWidth 25, engStatus := 0, jobTag := 0
    payload := 0, carries := false, req := 0, pasidP := false, pasid := 0, off := 0, swe := true, chk := 0 }

/-- A wing that takes its peer's frames keeps what its sources do until the entries of the tick are known (R417). -/
def Wing.noteRaw (w : Wing) (e : RawEvent) : Wing :=
  if w.running && (w.ctl.role == .standby || (w.ctl.role == .joining && w.ctl.joinPos.isSome)) then
    { w with vst := { w.vst with raws := w.vst.raws ++ [(w.now, e)] } }
  else w

/-- A synchronised change of the line of source `i`: an observation when it becomes asserted (R37); latched in Nap (R300). -/
def Wing.wiredChange (w : Wing) (i : Nat) (level : Bool) : Wing :=
  let c := w.srcCfg i
  let was := assertedAt c (w.pinLevel i)
  let w1 := { w with vst := { w.vst with levels := SMap.set w.vst.levels false i level } }.noteRaw (.wired i level)
  if srcEnabled c && !was && assertedAt c level then
    match w.life with
    | .run => w1.register (w1.wiredObs i)
    | .napEntry | .nap | .deepEntry =>
        let w2 := if w1.vst.napSrc.contains i then w1 else { w1 with vst := { w1.vst with napSrc := w1.vst.napSrc ++ [i] } }
        w2.wake { source := 0x1, detail := BitVec.ofNat 12 i }
    | _ => w1
  else w1

/-! ## Raises (R39, R40, R417) -/

/-- The observation of raise `i` of porch `p` with the SLICE_CUR that came with it. -/
def Wing.raiseObs (w : Wing) (p : Byte) (i : Nat) (cur : BitVec 12) : Obs :=
  let c := w.sweCfg p.toNat i
  { cls := 2, num := p.setWidth 12, seq := 0, key := loWord c, reg := 0
    ctrl := ((loWord c).extractLsb' 0 20 : BitVec 20).setWidth 25, engStatus := 0, jobTag := 0, payload := 0
    carries := false, req := p, pasidP := false, pasid := 0, off := 0
    swe := srcEnabled c && (keySlice (loWord c) == cur || cur == 0), chk := 0 }

/-- A RAISE beat at a wing; latched in Nap, one bit per porch and index, with the SLICE_CUR of the latest (R300). -/
def Wing.raised (w : Wing) (p : Byte) (i : Nat) (cur : BitVec 12) : Wing :=
  match w.life with
  | .run => (w.noteRaw (.raise p i cur)).register (w.raiseObs p i cur)
  | .napEntry | .nap | .deepEntry =>
      { w with vst := { w.vst with napRaise := SMap.insert w.vst.napRaise (p.toNat * 16 + i) cur } }.wake
        { source := 0x3, detail := p.setWidth 12 }
  | _ => w

/-! ## Alarm lines (R328) -/

def Hearth.latch (h : Hearth) (i : Nat) : Latch := SMap.get h.latches Latch.reset i

def Hearth.setLatch (h : Hearth) (i : Nat) (l : Latch) : Hearth :=
  { h with latches := SMap.set h.latches Latch.reset i l }

/-- A rising edge on line `i`. -/
def Hearth.alarmEdge (h : Hearth) (i : Nat) : Hearth :=
  let l := h.latch i
  if l.set then h.setLatch i { l with again := satInc l.again }
  else h.setLatch i { l with set := true, stamped := false, again := 0 }

/-- The lowest-numbered line whose latch is set. -/
def Hearth.lowestLatch (h : Hearth) : Option Nat := (List.range 16).find? fun i => (h.latch i).set

/-- An alarm in the raw period in which a wake from Deep was recorded takes the record (R332). -/
def Wing.alarmAtWake (w : Wing) : Wing :=
  if w.life == .deepWake && w.ctl.rawWait.isSome && w.hrt.wake.extractLsb' 0 24 == w.hrt.raw.extractLsb' 0 24 then
    match w.hrt.lowestLatch with
    | some i =>
        { w with
          hrt := { w.hrt with wake := hrtWakeWord 0x5 (BitVec.ofNat 4 i) w.hrt.raw }
          pwr := { w.pwr with wake := wakeWord false true { source := 0x5, detail := BitVec.ofNat 12 i } } }
    | none => w
  else w

/-! ## The commands -/

/-- NATIVE_MESSAGE (R31). -/
def execNativeMessage (w : WingId) (a : AptWrite) (s : State) : Host.Outcome State Fault Refusal :=
  nextWing s w fun v => v.byRange a .native Wing.doNative

/-- MSI_WRITE (R33). -/
def execMsiWrite (w : WingId) (a : AptWrite) (s : State) : Host.Outcome State Fault Refusal :=
  nextWing s w fun v => v.byRange a .msi Wing.doMsi

/-- COMMAND_DOORBELL (R151 to R153). -/
def execCommandDoorbell (w : WingId) (a : AptWrite) (s : State) : Host.Outcome State Fault Refusal :=
  nextWing s w fun v => v.byRange a .cmd Wing.doCmdDoorbell

/-- LETTERBOX_DOORBELL (R198). -/
def execLetterboxDoorbell (w : WingId) (a : AptWrite) (s : State) : Host.Outcome State Fault Refusal :=
  nextWing s w fun v => v.byRange a .letter Wing.doLetter

/-- APERTURE_READ (R30): zeros with OK, counted. -/
def execApertureRead (w : WingId) (s : State) : Host.Outcome State Fault Refusal :=
  nextWing s w fun v => if v.aptLive then (v.count cApertureRead).emit (.aptRead v.id) else v

/-- WIRED_SOURCE_CHANGE (R37). -/
def execWiredSourceChange (w : WingId) (src : BitVec 10) (level : Bool) (s : State) :
    Host.Outcome State Fault Refusal :=
  nextWing s w fun v => v.wiredChange src.toNat level

/-- RAISE_BEAT (R39, R131): the wing takes the first of the porch's RAISE beats that are on their way to it; if none is, the oldest raise
leaves the queue now, for both wings. A beat that is not the next one is none that the porch sends. -/
def execRaiseBeat (w : WingId) (p : Byte) (idx : BitVec 4) (b : RaiseRead) (s : State) :
    Host.Outcome State Fault Refusal :=
  let q := s.porch p
  let due := (q.raisesTo w ++ q.raiseq).head? == some (idx, b.cur)
  let r := if due && (q.raisesTo w == []) && q.hears then q.sendRaise p b.vote else (q, [])
  let s1 := { s.setPorch p r.1 with out := r.2 }
  .next (match r.1.takeRaise w idx b.cur with
    | some q1 =>
        let s2 := (s1.setPorch p q1).onWing w fun v => v.raised p idx.toNat b.cur
        { s2 with out := r.2 ++ s2.out }
    | none => s1)

/-- ALARM_LATCH (R328): the hearth latches the line whatever its wing does. -/
def execAlarmLatch (w : WingId) (line : BitVec 4) (s : State) : Host.Outcome State Fault Refusal :=
  nextWing s w fun v =>
    if v.hrt.powered then
      ({ v with hrt := v.hrt.alarmEdge line.toNat }.alarmAtWake).wake { source := 0x5, detail := line.setWidth 12 }
    else v

end Sys2Proof.Machine
end

