-- ==== Sys2Proof/Machine/Resync.lean ====
section
/-! DEFINITION. The resync walk (10_claims_and_takeover.md R271 to R275): what each word carries, how a joining wing takes it, and
how the records of a frame touch a joining wing's copied words only. -/

namespace Sys2Proof.Machine

/-! ## Places in the walk (R272) -/

def wkSpace1 : Nat := space0Len
def wkSeqs : Nat := space0Len + space1Len
def wkJseq : Nat := wkSeqs + 2696
def wkCores : Nat := wkSeqs + 2760
def wkCount : Nat := wkSeqs + 2824
def wkModN : Nat := wkSeqs + 2825
def wkRun : Nat := wkSeqs + 2889
def wkCmds : Nat := wkSeqs + 43849
def wkFilter : Nat := wkSeqs + 109385
def wkQuar : Nat := wkSeqs + 117577
def wkDir : Nat := wkSeqs + 117609

/-- The place of a mirrored word; PCH_CFG travels as PCH_IMG (R396). -/
def wkOfKey (k : Nat) : Nat :=
  if k < 0x10000 then 1 + k / 8
  else if k < ikey 0x80000 then wkSpace1 + (k - 0x10000) / 8
  else wkSpace1 + (k - 0x20000) / 8

/-- The place of an indirect address of the configuration region. -/
def wkOfAddr (a : Nat) : Nat := wkSpace1 + a / 8

/-! ## What a word carries (R272) -/

def pairD (lo hi : Word) : DWord := hi ++ lo

/-- A stored word of the configuration region. -/
def Wing.regionWord (w : Wing) (a : Nat) : Word :=
  if a < 0xA000 then w.effW (ikey a)
  else if a < 0x10000 then 0
  else if a < 0x20000 then (SMap.get w.sl SliceSt.reset ((a - 0x10000) / 16)).cdir (a % 16 / 4)
  else if a < 0x40000 then (SMap.get w.sl SliceSt.reset ((a - 0x20000) / 32)).ringTab (a % 32 / 4)
  else if a < 0x50000 then (SMap.get w.sl SliceSt.reset ((a - 0x40000) / 16)).bindStored (a % 16 / 4)
  else if a < 0x70000 then (SMap.get w.sl SliceSt.reset ((a - 0x50000) / 32)).csAllowWord (a % 32 / 4)
  else if a < 0x70400 then w.effW (ikey (a + 0x10000))
  else 0

def Wing.windowWord (w : Wing) (k : Nat) : Word := if rwMask k = 0 then 0 else w.effW k

/-- The slice runtime, words 0 to 9. -/
def SliceSt.runWord (v : SliceSt) (j : Nat) : DWord :=
  match j with
  | 0 => pairD v.cmdTail v.cmdHead
  | 1 => pairD v.evtTail v.evtHead
  | 2 => pairD v.wpos v.cmdFinished
  | 3 => 0#2 ++ bit v.ringHalt ++ bit v.drainTimeout ++ bit v.qfull ++ v.state.code ++ v.stopTick
  | 4 => v.lseq ++ v.drained ++ 0#5 ++ BitVec.ofNat 3 v.inbox.length ++ v.gen
  | 5 => 0#8 ++ (v.quiesceTick.extractLsb' 0 40 : BitVec 40) ++ BitVec.ofNat 16 v.strand
  | _ => v.inbox.getD (j - 6) 0

/-- An unfinished command's words 0 to 3. -/
def UCmd.word (u : UCmd) (j : Nat) : DWord :=
  match j with
  | 0 => u.target ++ (u.pos.extractLsb' 0 16 : BitVec 16) ++ 0#8 ++ u.opcode
  | 1 => u.cookie
  | 2 => u.operand
  | _ => u.operand2

/-- A steering entry in a directory word: VALID, TARGET, UNPLACED. -/
def Steer.bits (e : Steer) : BitVec 9 := bit e.valid ++ e.target ++ e.unplaced

def Steer.ofBits (b : BitVec 9) : Steer :=
  { valid := b.getLsbD 8, target := b.extractLsb' 3 5, unplaced := b.extractLsb' 0 3 }

def Slot.dirWord (s : Slot) : DWord :=
  0#20 ++ s.steer.bits ++ bit s.ctx.pin ++ bit s.ctx.dirty ++ 1#1 ++ s.ctx.key

/-- The five words of a context in SPACE 3. -/
def Ctx.copyWord (c : Ctx) (now : Tick) (held : Bool) (j : Nat) : DWord :=
  if j < 4 then ((c.tag ++ c.image : BitVec 256).extractLsb' (64 * j) 64 : DWord)
  else
    (c.modEnd.extractLsb' 32 24 : BitVec 24) ++ (c.arrTick.extractLsb' 32 24 : BitVec 24) ++ 0#7 ++ bit held ++
      BitVec.ofNat 8 (c.age now)

/-- The quarantine keys as the walk carries them, an empty place as 0. DESIGN CHOICE (log 88): R272 gives an empty place no form, and key 0
is a key, so key 0 is never the last of several, and alone it is followed by one key that stands twice. -/
def Wing.quarWords (w : Wing) : List Word :=
  if w.pan.quar = [0] then [0, 1, 1] else if w.pan.quar.getLast? = some 0 then 0 :: w.pan.quar.dropLast else w.pan.quar

/-- The quarantine keys of the words of the walk. -/
def quarOfWords (l : List Word) : List Word :=
  let q := (l.reverse.dropWhile fun k => k == 0).reverse
  if q = [0, 1, 1] then [0] else q

/-- A word of SPACE 2; bit 12 of a filter entry's first word says that the place is taken (DESIGN CHOICE, log 88). -/
def Wing.space2Word (w : Wing) (p : Nat) : DWord :=
  if p < 2696 then pairD (w.seqOf (2 * p)) (w.seqOf (2 * p + 1))
  else if p < 2760 then
    let q (i : Nat) : BitVec 16 := SMap.get w.pch.jseqCommit 0xFFFF (4 * (p - 2696) + i)
    q 3 ++ q 2 ++ q 1 ++ q 0
  else if p < 2824 then
    let q (i : Nat) : BitVec 16 := (w.coreSt (4 * (p - 2760) + i)).word
    q 3 ++ q 2 ++ q 1 ++ q 0
  else if p = 2824 then w.hall.nextCount.setWidth 64
  else if p < 2889 then
    let q (i : Nat) : BitVec 16 := BitVec.ofNat 16 (SMap.get w.hall.modN 0 (4 * (p - 2825) + i))
    q 3 ++ q 2 ++ q 1 ++ q 0
  else if p < 43849 then (SMap.get w.sl SliceSt.reset ((p - 2889) / 10)).runWord ((p - 2889) % 10)
  else if p < 109385 then
    let q := p - 43849
    match (SMap.get w.sl SliceSt.reset (q / 16)).ucmds[q % 16 / 4]? with
    | some u => u.word (q % 4)
    | none => 0
  else if p < 117577 then
    let q := p - 109385
    match SMap.find? w.vst.filter (q / 2) with
    | some e => if q % 2 = 0 then e.jobTag ++ 0#19 ++ 1#1 ++ e.slice else e.tick.setWidth 64
    | none => 0
  else if p < 117609 then
    let q := 2 * (p - 117577)
    pairD (w.quarWords.getD q 0) (w.quarWords.getD (q + 1) 0)
  else
    match SMap.find? w.pan.slots (p - 117609) with
    | some s => s.dirWord
    | none => 0

/-- A word of the walk as it stands. -/
def Wing.walkWord (w : Wing) (i : Nat) : DWord :=
  let (space, p) := walkPlace i
  match space with
  | 0 =>
      if p = 0 then bit w.ctl.reconciled ++ 0#7 ++ (w.now - 1)
      else pairD (w.windowWord (8 * (p - 1))) (w.windowWord (8 * (p - 1) + 4))
  | 1 => pairD (w.regionWord (8 * p)) (w.regionWord (8 * p + 4))
  | 2 => w.space2Word p
  | _ =>
      match SMap.find? w.pan.slots (p / 5) with
      | some s => s.ctx.copyWord w.now (w.heldKey s.ctx.key) (p % 5)
      | none => 0

def Wing.copyRec (w : Wing) (i : Nat) : Rec :=
  let (space, p) := walkPlace i
  .copy { space := BitVec.ofNat 8 space, pos := BitVec.ofNat 48 p, data := w.walkWord i }

/-! ## The active wing's side (R272 to R274) -/

/-- The backlog of R274: arrivals that were registered before their origin's sequence word was copied, oldest first within
each slice, three records each. -/
def Wing.backlogRecs (w : Wing) : List Rec :=
  let mine := w.heldObs.filter fun o =>
    match SMap.find? w.ctl.aligned (originIx o.cls o.num / 2) with
    | some f => decide (o.reg.toNat < f.toNat)
    | none => false
  let slices := (mine.map fun o => (keySlice o.key).toNat).foldl (fun m s => SMap.insert m s ()) ([] : SMap Unit)
  let recs (o : Obs) : List Rec :=
    let og := originWord o.cls o.num
    [.arrival { part := 0, origin := og, seq := o.seq, data := o.payload },
     .arrival { part := 1, origin := og, seq := o.seq, data := o.jobTag ++ 0#7 ++ o.ctrl },
     .arrival { part := 2, origin := og, seq := o.seq
                data := (o.reg.extractLsb' 0 32 : Word) ++ 0#8 ++ o.req ++ o.engStatus }]
  slices.flatMap fun s => (mine.filter fun o => (keySlice o.key).toNat == s.1).flatMap recs

/-- The arrival of a backlog record is still held: one that was admitted meanwhile travels no more. -/
def Wing.stillHeld (w : Wing) (r : Rec) : Bool :=
  match r with
  | .arrival a => w.heldObs.any fun o => originWord o.cls o.num == a.origin && o.seq == a.seq
  | _ => true

/-- The RESYNC records that the frame opening now may carry, sampled at the boundary (R273, R275): the words of the walk in order, with the
backlog ahead of SPACE 3. -/
def Wing.sampleCopies (w : Wing) : Wing :=
  match w.ctl.sendPos with
  | none => { w with psg := { w.psg with copies := [] } }
  | some i =>
      let n := w.frameSlots
      let back := if w.ctl.mark then w.ctl.backlog.filter w.stillHeld else if backlogAt < i + n then w.backlogRecs else []
      let words (a b : Nat) : List Rec := (List.range (b - a)).map fun k => w.copyRec (a + k)
      let head := words i (min (i + n) backlogAt)
      let mid := if i + n < backlogAt then [] else back.take (n - head.length)
      let left := n - head.length - mid.length
      let j := max i backlogAt
      let tail := if mid.length = back.length ∧ backlogAt ≤ i + n then words j (min (j + left) walkEnd) else []
      { w with ctl := { w.ctl with backlog := back }, psg := { w.psg with copies := head ++ mid ++ tail } }

/-- `k` of the sampled records went out in the frame of tick `f`. -/
def Wing.copiesSent (w : Wing) (k : Nat) (f : Tick) : Wing :=
  match w.ctl.sendPos with
  | none => w
  | some i =>
      let head := min k (backlogAt - i)
      let b := min (k - head) w.ctl.backlog.length
      let words := k - b
      let seqs := (List.range words).filterMap fun j =>
        if wkSeqs ≤ i + j ∧ i + j < wkJseq then some (i + j - wkSeqs) else none
      { w with
        ctl := { w.ctl with
          sendPos := some (i + words), backlog := w.ctl.backlog.drop b, mark := w.ctl.mark || decide (backlogAt ≤ i + head)
          joinTick := if i < walkEnd ∧ i + words = walkEnd then f else w.ctl.joinTick
          aligned := seqs.foldl (fun m q => SMap.insert m q f) w.ctl.aligned }
        psg := { w.psg with copies := [] } }

/-- A FETCH of the peer: its context or arrival content goes out with the next RESYNC records (R70, R242). -/
def Wing.serveFetch (w : Wing) (r : FetchRec) : Wing :=
  if r.what = 0x1 then
    let c := match (w.pan.recent.filter fun e => e.2.2.key == r.seqOrKey).getLast? with
      | some e => some e.2
      | none => (w.slotFor r.seqOrKey).map fun (e : Nat × Slot) => (e.1, e.2.ctx)
    match c with
    | some (n, c) =>
        (List.range 4).foldl (fun w i => w.place (.fill
          { part := BitVec.ofNat 8 i, bank := bankOf n, slot := slotOf n, key := r.seqOrKey
            data := c.copyWord w.now false i })) (w.count cPeerFill)
    | none => w
  else if r.what = 0x2 then
    match w.vst.sentArr.find? fun e => originWord e.2.cls e.2.num == r.origin && e.2.seq == r.seqOrKey with
    | some (_, o) =>
        let part (i : Nat) (d : DWord) : Rec := .arrival { part := BitVec.ofNat 8 i, origin := r.origin, seq := r.seqOrKey, data := d }
        ((w.place (part 0 o.payload)).place (part 1 (o.jobTag ++ 0#7 ++ o.ctrl))).place
          (part 2 ((o.reg.extractLsb' 0 32 : Word) ++ 0#8 ++ o.req ++ o.engStatus))
    | none => w
  else w

/-! ## The joining wing's side: taking a word (R272 to R274) -/

def SliceSt.setPair (v : SliceSt) (a : Nat) (d : DWord) : SliceSt :=
  if a < 0x20000 then
    if a % 16 = 0 then { v with vtBase := pageBase d, vtLog2 := d.extractLsb' 0 5 }
    else { v with spBase := pageBase d, spLog2 := d.extractLsb' 0 5 }
  else if a < 0x40000 then
    if a % 32 = 0 then { v with cmdBase := pageBase d, cmdVer := d.getLsbD 5, cmdLog2 := d.extractLsb' 0 5 }
    else if a % 32 = 8 then { v with evtBase := pageBase d, evtLog2 := d.extractLsb' 0 5 }
    else if a % 32 = 16 then { v with hdrBase := d }
    else v
  else if a < 0x50000 then
    if a % 16 = 0 then { v with pasid := d.extractLsb' 0 20, msiUntagged := d.getLsbD 20 }
    else { v with guarCtx := d.extractLsb' 0 15, maxCtx := d.extractLsb' 16 15, stageShare := d.extractLsb' 32 14
                  credit := d.extractLsb' 48 7 }
  else
    let x : BitVec 256 := d.setWidth 256
    let m : BitVec 256 := (0xFFFFFFFFFFFFFFFF#64).setWidth 256
    let sh := a % 32 * 8
    { v with csAllow := (v.csAllow &&& ~~~(m <<< sh)) ||| (x <<< sh) }

def sliceOfAddr (a : Nat) : Nat :=
  if a < 0x20000 then (a - 0x10000) / 16
  else if a < 0x40000 then (a - 0x20000) / 32
  else if a < 0x50000 then (a - 0x40000) / 16
  else (a - 0x50000) / 32

/-- A copied mirrored word: stored and in force. -/
def Wing.loadWord (w : Wing) (k : Nat) (v : Word) : Wing :=
  if rwMask k = 0 then w else (w.setCfg k v).setEff k v

def Wing.loadRegion (w : Wing) (a : Nat) (d : DWord) : Wing :=
  if a < 0xA000 then (w.loadWord (ikey a) (loWord d)).loadWord (ikey (a + 4)) (hiWord d)
  else if a < 0x10000 then w
  else if a < 0x70000 then
    let n := sliceOfAddr a
    { w with sl := SMap.set w.sl SliceSt.reset n ((SMap.get w.sl SliceSt.reset n).setPair a d) }
  else if a < 0x70400 then (w.setEff (ikey a) (loWord d)).setEff (ikey (a + 4)) (hiWord d)
  else w

def setNth {α : Type} (l : List α) (i : Nat) (d a : α) : List α :=
  (l ++ List.replicate (i + 1 - l.length) d).set i a

def SliceSt.setRun (v : SliceSt) (j : Nat) (d : DWord) (now : Tick) : SliceSt :=
  match j with
  | 0 => { v with cmdTail := loWord d, cmdHead := hiWord d }
  | 1 => { v with evtTail := loWord d, evtHead := hiWord d }
  | 2 => { v with wpos := loWord d, cmdFinished := hiWord d }
  | 3 => { v with stopTick := d.extractLsb' 0 56, state := SlState.ofCode (d.extractLsb' 56 3), qfull := d.getLsbD 59
                  drainTimeout := d.getLsbD 60, ringHalt := d.getLsbD 61 }
  | 4 => { v with gen := d.extractLsb' 0 8, drained := d.extractLsb' 16 16, lseq := d.extractLsb' 32 32
                  inbox := List.replicate (d.extractLsb' 8 3 : BitVec 3).toNat 0 }
  | 5 => { v with strand := (d.extractLsb' 0 16 : BitVec 16).toNat
                  quiesceTick := restoreBack (d.extractLsb' 16 40 : BitVec 40) now }
  | _ => { v with inbox := v.inbox.set (j - 6) d }

/-- The restored position of an unfinished command. -/
def SliceSt.restorePos (v : SliceSt) (p : BitVec 16) : Word :=
  let below : BitVec 16 := v.cmdHead.extractLsb' 0 16 - 1#16 - p
  v.cmdHead - 1 - below.setWidth 32

def SliceSt.setUcmd (v : SliceSt) (k j : Nat) (d : DWord) : SliceSt :=
  let blank : UCmd := { pos := 0, opcode := 0, target := 0, operand := 0, operand2 := 0, cookie := 0, at_ := 0, applied := false }
  match j with
  | 0 =>
      let u : UCmd := { blank with
        opcode := d.extractLsb' 0 8, pos := v.restorePos (d.extractLsb' 16 16), target := hiWord d }
      if (d.extractLsb' 0 8 : Byte) = 0 then { v with ucmds := v.ucmds.take k }
      else { v with ucmds := setNth (v.ucmds.take (k + 1)) k blank u }
  | 1 => { v with ucmds := v.ucmds.modify k fun u => { u with cookie := d } }
  | 2 => { v with ucmds := v.ucmds.modify k fun u => { u with operand := d } }
  | _ => { v with ucmds := v.ucmds.modify k fun u => { u with operand2 := d } }

/-- The sequence of one origin is copied in frame `f` (R274). -/
def Wing.alignSeq (w : Wing) (i : Nat) (q : Word) (f : Tick) : Wing :=
  let w1 := w.dropHeld fun o => originIx o.cls o.num == i && decide (o.reg.toNat < f.toNat)
  let later := w1.heldObs.filter fun o => originIx o.cls o.num == i
  let numbered := (later.zip (List.range later.length)).map fun e => (e.1.seq, q + BitVec.ofNat 32 (e.2 + 1))
  let w2 := w1.mapHeld fun o =>
    if originIx o.cls o.num = i then
      match numbered.find? (fun e => e.1 == o.seq) with
      | some e => { o with seq := e.2 }
      | none => o
    else o
  w2.setSeq i (q + BitVec.ofNat 32 later.length)

/-- Four 16-bit values of a word, at indexes from `b` on. -/
def quads (b : Nat) (d : DWord) : List (Nat × BitVec 16) := (List.range 4).map fun i => (b + i, d.extractLsb' (16 * i) 16)

/-- The context of a slot once its five words are in. -/
def Reload.context (r : Reload) (now : Tick) : Option Ctx :=
  match fillContext r.key r.parts now, SMap.find? r.parts 4 with
  | some c, some d =>
      let age : Nat := (d.extractLsb' 0 8 : Byte).toNat
      some { c with
        arrTick := (d.extractLsb' 16 24 : BitVec 24) ++ (c.arrTick.extractLsb' 0 32 : Word)
        modEnd := (d.extractLsb' 40 24 : BitVec 24) ++ (c.modEnd.extractLsb' 0 32 : Word)
        state := VState.ofCode ((SMap.get r.parts 0 0).extractLsb' 32 3)
        touched := now - BitVec.ofNat 56 (min (1024 * age) now.toNat), pin := r.pin, dirty := r.uncertain
        dirtyAt := if r.uncertain then now else 0 }
  | _, _ => none

/-- A word of a context arrives; the fifth completes the slot. -/
def Wing.loadContext (w : Wing) (n j : Nat) (d : DWord) : Wing :=
  match w.pan.reloads.find? (·.slot == n) with
  | none => w
  | some r =>
      let r1 := { r with parts := SMap.insert r.parts j d }
      let others := w.pan.reloads.filter (·.slot != n)
      match r1.context w.now with
      | some c =>
          { w with pan := { w.pan with
              reloads := others, slots := SMap.insert w.pan.slots n { ctx := c, steer := r1.steer } } }
      | none => { w with pan := { w.pan with reloads := w.pan.reloads.map fun x => if x.slot = n then r1 else x } }

/-- A word of SPACE 2, carried in frame `f`. -/
def Wing.loadSpace2 (w : Wing) (p : Nat) (d : DWord) (f : Tick) : Wing :=
  if p < 2696 then (w.alignSeq (2 * p) (loWord d) f).alignSeq (2 * p + 1) (hiWord d) f
  else if p < 2760 then
    { w with pch := { w.pch with jseqCommit :=
        (quads (4 * (p - 2696)) d).foldl (fun m e => SMap.set m 0xFFFF e.1 e.2) w.pch.jseqCommit } }
  else if p < 2824 then
    { w with hall := { w.hall with cores :=
        (quads (4 * (p - 2760)) d).foldl (fun m e => SMap.set m CoreSt.reset e.1 (coreOfWord e.2)) w.hall.cores } }
  else if p = 2824 then { w with hall := { w.hall with nextCount := d.extractLsb' 0 56 } }
  else if p < 2889 then
    { w with hall := { w.hall with modN :=
        (quads (4 * (p - 2825)) d).foldl (fun m e => SMap.set m 0 e.1 e.2.toNat) w.hall.modN } }
  else if p < 43849 then
    let n := (p - 2889) / 10
    { w with sl := SMap.set w.sl SliceSt.reset n ((SMap.get w.sl SliceSt.reset n).setRun ((p - 2889) % 10) d w.now) }
  else if p < 109385 then
    let q := p - 43849
    let n := q / 16
    { w with sl := SMap.set w.sl SliceSt.reset n ((SMap.get w.sl SliceSt.reset n).setUcmd (q % 16 / 4) (q % 4) d) }
  else if p < 117577 then
    let q := p - 109385
    let f0 := SMap.erase w.vst.filter (q / 2)
    let e := if q % 2 = 0 then
        (if d = 0 then f0 else SMap.insert f0 (q / 2) { slice := d.extractLsb' 0 12, jobTag := hiWord d, tick := 0, poisoned := false })
      else match SMap.find? w.vst.filter (q / 2) with
        | some x => SMap.insert f0 (q / 2) { x with tick := d.extractLsb' 0 56 }
        | none => w.vst.filter
    { w with vst := { w.vst with filter := e } }
  else if p < 117609 then
    let k := 2 * (p - 117577)
    let q := w.pan.quar.take k ++ [loWord d, hiWord d]
    { w with pan := { w.pan with quar := if p = 117608 then quarOfWords q else q } }
  else
    let n := p - 117609
    let others := w.pan.reloads.filter (·.slot != n)
    let r : Reload := { slot := n, key := loWord d, pin := d.getLsbD 34, steer := Steer.ofBits (d.extractLsb' 35 9)
                        uncertain := d.getLsbD 33, copied := true, lostBank := false, parts := [] }
    { w with pan := { w.pan with
        slots := SMap.erase w.pan.slots n, reloads := if d.getLsbD 32 then others ++ [r] else others } }

/-- The place in the walk that a COPY record names. -/
def walkIndex (r : CopyRec) : Nat :=
  match r.space.toNat with
  | 0 => r.pos.toNat
  | 1 => space0Len + r.pos.toNat
  | 2 => wkSeqs + r.pos.toNat
  | _ => backlogAt + r.pos.toNat

/-- A walk begins: what an abandoned one left is gone (R271). -/
def Wing.restartWalk (w : Wing) : Wing :=
  { w with
    ctl := { w.ctl with joinPos := some 0, mark := false }
    pan := { w.pan with reloads := [] }
    psg := { w.psg with arrFills := [], ctxFills := [] } }

/-- A word of the walk is loaded. -/
def Wing.loadCopy (w0 : Wing) (f : Tick) (r : CopyRec) : Wing :=
  let p := r.pos.toNat
  match r.space.toNat with
  | 0 =>
      if p = 0 then
        { w0 with ctl := { w0.ctl with
          tick := r.data.extractLsb' 0 56 + 2#56, hasTick := true, reconciled := r.data.getLsbD 63 }
                  int := { w0.int with passAt := r.data.extractLsb' 0 56 + 2#56 } }
      else w0.withSigned fun x => (x.loadWord (8 * (p - 1)) (loWord r.data)).loadWord (8 * (p - 1) + 4) (hiWord r.data)
  | 1 => w0.withSigned fun x => x.loadRegion (8 * p) r.data
  | 2 => w0.loadSpace2 p r.data f
  | _ => w0.loadContext (p / 5) (p % 5) r.data

/-- COPY (R246, R272, R273) in frame `f`: the walk's next word, or the first one of a new walk. -/
def Wing.takeCopy (w : Wing) (f : Tick) (r : CopyRec) : Wing :=
  let i := walkIndex r
  let w1 := if i = 0 then w.restartWalk else w
  if w1.ctl.joinPos = some i then
    { w1 with ctl := { w1.ctl with
      joinPos := some (i + 1), joinTick := if i + 1 = walkEnd then f else w1.ctl.joinTick } }.loadCopy f r
  else w1

/-! ## The joining wing's side: records touch copied words only (R273) -/

/-- The word at a place of the walk has been copied. -/
def Wing.copied (w : Wing) (i : Nat) : Bool :=
  match w.ctl.joinPos with
  | some p => decide (i < p)
  | none => false

/-- The entries of `new` where `f` holds, those of `old` elsewhere. -/
def mixMap {α : Type} (f : Nat → Bool) (new old : SMap α) : SMap α :=
  (old.filter fun e => !f e.1).foldl (fun m e => SMap.insert m e.1 e.2) (new.filter fun e => f e.1)

/-- The copied part of slice `n` from `new`, the rest from `old`; what the walk does not carry is the wing's own. -/
def SliceSt.mix (c : Nat → Bool) (n : Nat) (new old : SliceSt) : SliceSt :=
  let a (i : Nat) : Bool := c (wkOfAddr i)
  let r (j : Nat) : Bool := c (wkRun + 10 * n + j)
  let pick {β : Type} (b : Bool) (x y : β) : β := if b then x else y
  let cs (b : BitVec 256) (j : Nat) : DWord := b.extractLsb' (64 * j) 64
  let csw (j : Nat) : DWord := pick (a (aCsAllow n + 8 * j)) (cs new.csAllow j) (cs old.csAllow j)
  let k := ((List.range 4).filter fun j => c (wkCmds + 16 * n + 4 * j)).length
  { new with
    vtBase := pick (a (aCdir n)) new.vtBase old.vtBase, vtLog2 := pick (a (aCdir n)) new.vtLog2 old.vtLog2
    spBase := pick (a (aCdir n + 8)) new.spBase old.spBase, spLog2 := pick (a (aCdir n + 8)) new.spLog2 old.spLog2
    cmdBase := pick (a (aRingTab n)) new.cmdBase old.cmdBase, cmdVer := pick (a (aRingTab n)) new.cmdVer old.cmdVer
    cmdLog2 := pick (a (aRingTab n)) new.cmdLog2 old.cmdLog2
    evtBase := pick (a (aRingTab n + 8)) new.evtBase old.evtBase
    evtLog2 := pick (a (aRingTab n + 8)) new.evtLog2 old.evtLog2
    hdrBase := pick (a (aRingTab n + 16)) new.hdrBase old.hdrBase
    pasid := pick (a (aBind n)) new.pasid old.pasid, msiUntagged := pick (a (aBind n)) new.msiUntagged old.msiUntagged
    maxCtx := pick (a (aBind n + 8)) new.maxCtx old.maxCtx, guarCtx := pick (a (aBind n + 8)) new.guarCtx old.guarCtx
    stageShare := pick (a (aBind n + 8)) new.stageShare old.stageShare
    credit := pick (a (aBind n + 8)) new.credit old.credit
    csAllow := csw 3 ++ csw 2 ++ csw 1 ++ csw 0
    cmdTail := pick (r 0) new.cmdTail old.cmdTail, cmdHead := pick (r 0) new.cmdHead old.cmdHead
    evtTail := pick (r 1) new.evtTail old.evtTail, evtHead := pick (r 1) new.evtHead old.evtHead
    wpos := pick (r 2) new.wpos old.wpos, cmdFinished := pick (r 2) new.cmdFinished old.cmdFinished
    stopTick := pick (r 3) new.stopTick old.stopTick, state := pick (r 3) new.state old.state
    qfull := pick (r 3) new.qfull old.qfull, drainTimeout := pick (r 3) new.drainTimeout old.drainTimeout
    ringHalt := pick (r 3) new.ringHalt old.ringHalt
    gen := pick (r 4) new.gen old.gen, drained := pick (r 4) new.drained old.drained
    lseq := pick (r 4) new.lseq old.lseq, inbox := pick (r 4) new.inbox old.inbox
    strand := pick (r 5) new.strand old.strand, quiesceTick := pick (r 5) new.quiesceTick old.quiesceTick
    ucmds := new.ucmds.take k }

/-- The joining wing `old` after a step that would have made it `new`: the effect on words not copied yet is dropped. -/
def Wing.keepCopied (old new : Wing) : Wing :=
  let c := old.copied
  let img (m : SMap Word) : SMap Word := m.map fun e =>
    if ikey 0x70000 ≤ e.1 ∧ e.1 < ikey 0x70400 then
      match SMap.find? new.regs.eff (e.1 + 0x10000) with
      | some v => if SMap.find? old.regs.eff (e.1 + 0x10000) = some v then e else (e.1, v)
      | none => e
    else e
  let w1 := new.withSigned fun x =>
    { x with
      regs := { x.regs with
        cfg := mixMap (fun k => c (wkOfKey k)) x.regs.cfg old.regs.cfg
        eff := img (mixMap (fun k => c (wkOfKey k)) x.regs.eff old.regs.eff) }
      sl := (old.sl.foldl (fun (m : SMap SliceSt) e => if (SMap.find? m e.1).isSome then m else SMap.insert m e.1 SliceSt.reset)
          x.sl).foldl (fun m e =>
            SMap.set m SliceSt.reset e.1 (SliceSt.mix c e.1 e.2 (SMap.get old.sl SliceSt.reset e.1))) [] }
  { w1 with
    vst := { w1.vst with
      seqs := mixMap (fun i => c (wkSeqs + i / 2)) w1.vst.seqs old.vst.seqs
      filter := w1.vst.filter.filter fun e => c (wkFilter + 2 * e.1) }
    pch := { w1.pch with jseqCommit := mixMap (fun p => c (wkJseq + p / 4)) w1.pch.jseqCommit old.pch.jseqCommit }
    hall := { w1.hall with
      cores := mixMap (fun p => c (wkCores + p / 4)) w1.hall.cores old.hall.cores
      modN := mixMap (fun p => c (wkModN + p / 4)) w1.hall.modN old.hall.modN }
    pan := { w1.pan with
      quar := w1.pan.quar.take (2 * ((List.range 32).filter fun j => c (wkQuar + j)).length) } }

/-- The vectors that a record names. -/
def recKeys (w : Wing) : Rec → List Word
  | .arrive r => [r.key]
  | .claim r | .complete r => [r.entry.key]
  | .accept r => [r.key]
  | .modwin r => [r.key]
  | .target r => [r.key]
  | .install r => [r.key]
  | .finish r =>
      match w.ucmdFor r.ring r.pos with
      | some u => [cmdKey r.ring u.target]
      | none => []
  | .cmdExt x =>
      match w.ring.cmdBuf with
      | some c => if isVecOp c.opcode then [cmdKey (w.ring.extBuf.getD x).ring c.target] else []
      | none => []
  | _ => []

/-- A record or command touched the vector or its slot: its reload is uncertain (R279). -/
def Wing.touchReloads (w : Wing) (f : Reload → Bool) : Wing :=
  { w with pan := { w.pan with reloads := w.pan.reloads.map fun r => if f r then { r with uncertain := true } else r } }

/-- A context of which some words are copied, the others read as 0. -/
def Reload.partial_ (r : Reload) (now : Tick) : Option Ctx :=
  if r.parts = [] then none
  else { r with parts := (List.range 5).map fun j => (j, SMap.get r.parts 0 j) }.context now

/-- The copied words of a context after a record changed it. -/
def Reload.updated (r : Reload) (c : Ctx) (now : Tick) : Reload :=
  { r with parts := r.parts.map fun e => (e.1, c.copyWord now false e.1) }

/-- A record that acts on a vector whose context is copied in part acts on the copied words. -/
def Wing.withPartial (w : Wing) (keys : List Word) (f : Wing → Wing × Bool) : Wing × Bool :=
  match w.pan.reloads.find? (fun r => keys.contains r.key && r.parts != []) with
  | none => f w
  | some r =>
      match r.partial_ w.now with
      | none => f w
      | some c =>
          let w1 := { w with pan := { w.pan with
            slots := SMap.insert w.pan.slots r.slot { ctx := c, steer := r.steer }
            reloads := w.pan.reloads.filter (·.slot != r.slot) } }
          let res := f w1
          let r1 := match SMap.find? res.1.pan.slots r.slot with
            | some s => { r.updated s.ctx w.now with steer := s.steer }
            | none => r
          ({ res.1 with pan := { res.1.pan with
              slots := SMap.erase res.1.pan.slots r.slot, reloads := res.1.pan.reloads ++ [r1] } }, res.2)

/-- The opcode of the vector command that a record completes. -/
def recOpcode (w : Wing) : Rec → Byte
  | .finish r =>
      match w.ucmdFor r.ring r.pos with
      | some u => if r.result = 0 then u.opcode else 0
      | none => 0
  | .cmdExt _ =>
      match w.ring.cmdBuf with
      | some c => if c.result = 0 ∧ !c.long then c.opcode else 0
      | none => 0
  | _ => 0

/-- The directory word of a context that is not copied yet follows a record: PIN, UNPIN, and TARGET. -/
def Wing.dirReloads (w : Wing) (r : Rec) : Wing :=
  let keys := recKeys w r
  let op := recOpcode w r
  let f (x : Reload) : Reload :=
    if !keys.contains x.key then x
    else
      let x1 := if op = opPin then { x with pin := true }
        else if op = opUnpin then { x with pin := false } else x
      match r with
      | .target t =>
          if slotNo t.bank t.slot = x.slot then { x1 with steer := { x1.steer with valid := true, target := t.cluster } }
          else x1
      | _ => x1
  { w with pan := { w.pan with reloads := w.pan.reloads.map f } }

/-- A write of PWR_VOTE. -/
def isVoteRec : Rec → Bool
  | .regw x => x.space == 0 && x.addr == BitVec.ofNat 32 oPwrVote
  | _ => false

/-- A record at a joining wing. The manager's vote reaches a wing that sleeps alone, too, though no walk runs (R307; DEDUCED, log 119). -/
def Wing.applyJoining (w : Wing) (t : Tick) (r : Rec) : Wing × Bool :=
  if isVoteRec r && w.ctl.joinPos.isNone then w.applyRec t r
  else
  let keys := recKeys w r
  let w0 := (w.dirReloads r).touchReloads fun x => keys.contains x.key
  match r with
  | .install x =>
      let n := slotNo x.bank x.slot
      if w0.copied (backlogAt + 5 * n + 4) then
        let res := w0.applyInstall t x
        (w0.keepCopied res.1, res.2)
      else if w0.copied (wkDir + n) then
        let e : Reload := { slot := n, key := x.key, pin := false, steer := Steer.reset
                            uncertain := true, copied := true, lostBank := false, parts := ((w0.pan.reloads.find? (·.slot == n)).map (·.parts)).getD [] }
        ({ w0 with pan := { w0.pan with reloads := w0.pan.reloads.filter (·.slot != n) ++ [e] } }, true)
      else (w0, true)
  | .claim x =>
      let res := w0.withPartial keys fun v =>
        if v.resident x.entry.key then v.applyRec t r
        else (if x.synth then v else v.setJseq x.porch x.entry.jseq, true)
      (w0.keepCopied res.1, res.2)
  | .complete x =>
      let res := w0.withPartial keys fun v =>
        if v.resident x.entry.key then v.applyRec t r else (v.setJseq x.porch x.entry.jseq, true)
      (w0.keepCopied res.1, res.2)
  | _ =>
      let res := w0.withPartial keys fun v => v.applyRec t r
      (w0.keepCopied res.1, res.2)

end Sys2Proof.Machine
end

