-- ==== Sys2Proof/Machine/Records.lean ====
section
/-! DEFINITION. The records of a frame as the receiving wing takes them (09_passage.md R234, R235, R240 to R248), the end of a
frame's application, demotion and withdrawal (10_claims_and_takeover.md R267, R270), and giving way (13_integrity_and_spares.md
R342). -/

namespace Sys2Proof.Machine

/-! ## Leaving a role (R267, R270, R284, R342) -/

/-- The error log's ADDR of a key: the window offset, or the indirect byte address (R384). -/
def keyAddr (k : Nat) : BitVec 24 := BitVec.ofNat 24 (if k < 0x10000 then k else k - 0x10000)

/-- The wing answers the register write that it holds with ERROR and reason DEMOTED (R367, R384): its words, stored and in force, and the
pending first writes are again those before it, whether or not its frame has closed (R383). -/
def Wing.failHeldWrites (w : Wing) : Wing :=
  match w.regs.portHeld with
  | none => w
  | some h =>
      let w0 := h.old.foldl (fun (w : Wing) (e : Nat × Word) =>
        if w.effW e.1 = e.2 then w.setCfg e.1 e.2 else w.setWord e.1 e.2) w
      let mine (d : DualHeld) : Bool := h.old.any fun (e : Nat × Word) => e.1 == d.addr
      let w1 := { w0 with regs := { w0.regs with
        dual := (w0.regs.dual.filter fun d => !mine d) ++ h.dual.filter mine } }
      let k := (h.recs.map regwKey).headD 0
      let w2 := { w1 with regs := { w1.regs with
        portHeld := none
        regErrLog := logFirst w1.regs.regErrLog (regErrEntry reDemoted h.req h.path h.strb (keyAddr k)) } }
      (w2.count cRegErr).emit (.regRsp w.id false 0)

/-- The wing enters JOINING: beats, writes, provisional frames and unfinished work of its role are dropped. -/
def Wing.enterJoining (w : Wing) : Wing :=
  let w1 := w.failHeldWrites
  { w1 with
    ctl := { w1.ctl with
      role := .joining, duplex := false, prov := none, tkoPhase := none
      writesHeld := false, answered := false, refused := false, recovery := false, sendPos := none, backlog := []
      joinPos := none, mark := false, rsySilent := 0, aligned := [], giveWay := false, returning := false, spentNext := false
      holdRelease := false, stable := 0, digestRun := 0, withdrawAt := none }
    vst := { w1.vst with samples := [], raws := [] }
    regs := { w1.regs with srcOld := [], sweNew := [] }
    ring := { RingEng.reset with
      blockReads := w1.ring.blockReads.map fun (x : BitVec 12 × Bool × Bool) => (x.1, x.2.1, false) }
    drn := []
    sl := w1.sl.map fun (e : Nat × SliceSt) => (e.1, { e.2 with job := none, descs := [], descReads := [], failPos := none })
    pan := { w1.pan with waiting := [], images := [], recent := [], wbuf := [], reloads := [] }
    hall := { w1.hall with img0 := none, img1 := none, accOpen := [], offered := [], modQ := [], refusals := [], periodic := [], confirmVote := false }
    psg := { w1.psg with
      acc := [], ord := [], defr := [], rsy := [], copies := [], accOwed := 0, sent := [], nakq := [], hold := []
      ctxFills := [], arrFills := [], ackValid := false, ackedValid := false, missing := 0, hbMiss := 0
      withheld := false, replays := 0, ackLate := false, closes := [], lost := [], replaySent := 0 } }

/-- A START stops by demotion (R388): nothing more is written, and BOOT_CODE says so. -/
def Wing.stopBoot (w : Wing) : Wing :=
  if w.ctl.booting then
    let w1 := w.modSlice 0 fun v => { v with job := none }
    { w1 with ctl := { w1.ctl with booting := false, bootChecked := false, bootCode := 0xFE } }
  else w

/-- Demotion of an active wing (R267), or of one that starts (R388). The resync that it ran is abandoned (R271). -/
def Wing.demote (w0 : Wing) : Wing :=
  let w := w0.when (w0.ctl.role == .active) fun v =>
    { v with pch := { v.pch with entries := [], replay := [], ended := [], turned := [], deferred := [] } }
  (if w.ctl.role = .active then
    ((w.enterJoining.count cDemote).countIf w.ctl.sendPos.isSome cResyncAbort).logTko tkDemoted else w).stopBoot

/-- A wing withdraws at the next tick boundary (R270). -/
def Wing.withdraw (w : Wing) : Wing :=
  if w.ctl.withdrawAt.isSome then w else { w with ctl := { w.ctl with withdrawAt := some (w.now + 1) } }

/-- The boundary at which a withdrawal takes effect: joining, and SUSPECT after the third within 2^22 ticks; SPENT when a failed
unit had no spare (R355). `withdrawAt` stands until the next boundary, up to which the wing acknowledges. -/
def Wing.withdrawNow (w : Wing) : Wing :=
  let recent := (w.ctl.withdrawals ++ [w.now]).filter fun t => decide (w.now.toNat - t.toNat < 2 ^ 22)
  let w1 := (w.enterJoining.count cWithdraw).logTko tkWithdraw
  { w1 with
    ctl := { w1.ctl with
      withdrawals := recent, suspect := w1.ctl.suspect || decide (3 ≤ recent.length), withdrawAt := some w.now }
    psg := { w1.psg with ackValid := w.psg.ackValid, ack := w.psg.ack }
    int := { w1.int with spent := w1.int.spent || w.ctl.spentNext } }

/-- The two REGW records that write TKO_HANDOVER (R282). -/
def Wing.placeHandover (w : Wing) (pending : Bool) (h : Tick) : Wing :=
  let v : DWord := bit pending ++ 0#7 ++ h
  (w.place (.regw { space := 0, dualPend := false, req := 0, addr := BitVec.ofNat 32 oTkoHandover, val := loWord v })).place
    (.regw { space := 0, dualPend := false, req := 0, addr := BitVec.ofNat 32 (oTkoHandover + 4), val := hiWord v })

/-- Giving way (R342); `cfgWord` says that the cause is a configuration word. -/
def Wing.giveWay (w : Wing) (cfgWord : Bool) : Wing :=
  if w.ctl.role = .active ∧ w.ctl.duplex then
    let w1 := w.count cGiveWay
    let w2 := { w1 with ctl := { w1.ctl with giveWay := true, holdRelease := w1.ctl.holdRelease || cfgWord } }
    if w.handoverPending || w.ctl.giveWay then w2 else w2.placeHandover true (w.now + 2)
  else if w.ctl.role = .standby then (w.count cGiveWay).withdraw
  else w

/-! ## Sampling level sources again (R37, R38, R193) -/

/-- The vector is IDLE, or not in the pantry. -/
def Wing.vectorIdle (w : Wing) (key : Word) : Bool :=
  match w.ctx? key with
  | some c => c.state == .idle
  | none => true

/-- An enabled level source that is asserted at the sampled level. -/
def Wing.levelAsserted (w : Wing) (lv : SMap Bool) (i : Nat) : Bool :=
  let c := w.srcCfg i
  srcEnabled c && !srcEdge c && assertedAt c (SMap.get lv false i)

/-- Sources that owe an observation at the boundary that opens a tick: completed vectors' sources, sources whose entry changed,
and the sources of resumed slices. -/
def Wing.resampled (w : Wing) (lv : SMap Bool) (i : Nat) : Bool :=
  w.levelAsserted lv i &&
    (w.vst.resamp.contains i ||
      (match SMap.find? w.regs.srcOld i with
       | some old => !(srcEnabled old && assertedAt old (SMap.get lv false i))
       | none => false) ||
      (w.vst.resumed.contains (keySlice (loWord (w.srcCfg i))) && w.vectorIdle (loWord (w.srcCfg i))))

/-- They stand in ascending order. Which of them owe is decided as the tick opens, before an arrival of it is admitted. -/
def Wing.dueSources (w : Wing) (lv : SMap Bool) : List Nat := (List.range 1024).filter (w.resampled lv)

/-- The sources of a list register, in its order, with the tick `t`. -/
def Wing.registerSources (w : Wing) (due : List Nat) (t : Tick) : Wing :=
  let w1 := { w with
    vst := { w.vst with resamp := [], resumed := [] }
    regs := { w.regs with srcOld := [], sweNew := [] } }
  due.foldl (fun w i => w.registerAt t (w.wiredObs i)) w1

def Wing.resample (w : Wing) (lv : SMap Bool) (t : Tick) : Wing := w.registerSources (w.dueSources lv) t

/-! ## The shadow ranking (R15, R87, R268, R269) -/

/-- The level in force in tick `m`: a change that the wing has taken up for `m` counts (R289, R290). -/
def Wing.levelFor (w : Wing) (m : Tick) : Level :=
  match w.pwr.next with
  | some (l, t) =>
      if t = m ∧ (w.pwr.vok ≠ some false ∨ w.pwr.level.code.toNat < l.code.toNat) then l else w.pwr.level
  | none => w.pwr.level

/-- The cap of R100 for the release that opens tick `m`, with the LANE_MAP of frame `m` (R254). -/
def Wing.capFor (w : Wing) (m : Tick) (map : BitVec 4) : Nat := min (w.levelFor m).budget (laneCap (lanesIn map))

/-- The LANE_MAP of the frame of tick `m` as a standby has received it; that of the latest frame before a header of it came. -/
def Wing.mapOf (w : Wing) (m : Tick) : BitVec 4 :=
  ((w.psg.rx.find? fun f => f.tick == m).bind (·.map)).getD w.psg.map

/-- A ranking with nothing in it. -/
def Ranking.empty : Ranking :=
  { offers := [], withheld := 0, listOver := 0, mergeOver := 0, superseded := 0, displaced := 0, emptySet := 0
    unplaced := [], refused := [], cands := [], listed := [], backlog := [], anyPending := false }

/-- The ranking that the release at the start of tick `m` would take, as the images stand at the close of m-1; `map` is the LANE_MAP
of frame `m`. -/
def Wing.rankingFor (w : Wing) (m : Tick) (map : BitVec 4) : Ranking :=
  match w.hall.img0 with
  | none => Ranking.empty
  | some a =>
      if w.pwr.level = .p3 ∧ w.hall.p3since.toNat < m.toNat then
        match w.hall.img1 with
        | some b =>
            let r := w.rankP3 a b w.hall.accOpen m (w.capFor m map)
            if m.toNat < w.hall.p3since.toNat + 2 then r.readOnly else r
        | none => (w.rankP3 a a w.hall.accOpen m 0).readOnly
      else w.rankOf a w.hall.accOpen m (w.capFor m map)

/-- The multi-cluster vectors that are not FIXED and PENDING in an image are to be re-evaluated (R106). -/
def Wing.noteSeen (w : Wing) (img : RankImg) : Wing :=
  let v := w.view img
  let here : List Word := img.slots.filterMap fun e =>
    let set := cfgCoreset e.2.ctx.cfg
    if e.2.ctx.state == .pending && v.mode set != 3 && decide (1 < (clustersOf (v.setCores set)).length) then some e.2.ctx.key else none
  { w with hall := { w.hall with
    seen64 := here.foldl (fun l k => if l.contains k then l else l ++ [k]) w.hall.seen64 } }

/-- The stranded vectors of the scan that tick `t` completes: at P3 those of both of its halves, each as it was read. -/
def Wing.strandedAt (w : Wing) (r : Ranking) (t : Tick) : SMap (Nat × Nat) :=
  match w.hall.img0, w.hall.img1 with
  | some a, some b =>
      let m := if w.pwr.level = .p3 then (w.view b).stranded [] ((w.view b).scanned (w.halfOf b (t - 1))) else []
      (w.view a).stranded m r.cands
  | some a, none => (w.view a).stranded [] r.cands
  | none, _ => []

/-- What a ranking leaves in the wing that made it, the digest of its offers, and the image of the close of tick `t`. A ranking
with nothing PENDING is not run, and the wing is in Doze in the next tick when this image has nothing PENDING (R296); at P3 the
rotation starts again from slot 0 after a tick of Doze. -/
def Wing.settleRanking (w : Wing) (r : Ranking) (t : Tick) : Wing :=
  let p3 := decide (w.pwr.level = .p3)
  let whole := !p3 || decide ((t.toNat - w.hall.p3since.toNat) % 2 = 1)
  let w1 := if r.anyPending then w.countRanking r whole else w
  let w2 := w1.noteUnplaced r
  let w3 := if r.anyPending && whole then w2.countStranding (w2.strandedAt r t) (if p3 then 2 else 1) else w2
  let idle := !w3.ctxs.any fun c => c.state == .pending
  let img := w3.rankImg t
  { (w3.noteSeen img) with
    hall := { (w3.noteSeen img).hall with
      p3since := if p3 && w.pwr.doze && !idle then t + 1 else w3.hall.p3since
      digest := offersDigest r.offers, img1 := w3.hall.img0, img0 := some img, accOpen := [], dropped := []
      backlog := r.backlog, half := r.listed }
    pwr := { w3.pwr with doze := idle } }

/-! ## Event blocks (R169, R170) -/

/-- The commit-time records of the frame of tick `t` go to the block of tick t+2. -/
def Wing.formBlock (w : Wing) (t : Tick) : Wing :=
  let recs := w.ring.recsOrd ++ w.ring.recsDef
  if recs = [] then w
  else { w with ring := { w.ring with
    recsOrd := [], recsDef := []
    blocks := modBlock (t + 2) (fun b => { b with commits := b.commits ++ recs }) w.ring.blocks } }

/-! ## Taking records (R234, R235) -/

/-- The wing takes its peer's frames. -/
def Wing.receives (w : Wing) : Bool := w.passageRuns && (w.ctl.role == .standby || w.ctl.role == .joining)

/-- The place of a block in its frame: blocks in turn, and the lanes of each in ascending order. -/
def blkKey (lane blk : Nat) : Nat := 4 * blk + lane

/-- The frame holds the block, or a replay took its position. -/
def RxFrame.hasBlk (f : RxFrame) (k : Nat) : Bool := (SMap.find? f.data k).isSome || f.skip.contains k

/-- Every block of a received frame is in, but for the positions that replays of other blocks took. -/
def RxFrame.whole (f : RxFrame) : Bool :=
  match f.map with
  | some m => decide (0 < lanesIn m) && (List.range 28).all fun k => !m.getLsbD (k % 4) || f.hasBlk k
  | none => false

/-- Every block before the one of key `k` is in. -/
def RxFrame.inTo (f : RxFrame) (k : Nat) : Bool :=
  match f.map with
  | some m => (List.range k).all fun i => !m.getLsbD (i % 4) || f.hasBlk i
  | none => false

/-- The first record of a group that is still to be applied, with its slot. -/
def RxFrame.first (f : RxFrame) (g : RecGroup) : Option (Nat × Rec) := List.find? (fun e => e.2.group == g) f.recs

def isCopy : Rec → Bool
  | .copy _ => true
  | _ => false

/-- All acceptances of the frame are in: ACC_N is decided, and as many ACCEPT records came (R234). -/
def RxFrame.accsIn (f : RxFrame) : Bool :=
  f.accN != 0xFF && decide (f.accN.toNat ≤ f.accTook + (f.recs.filter fun e => e.2.group == .acceptance).length)

/-- The record of the acceptances, the ordered or the deferred group whose turn it is: acceptances once all are in, then ordered
records up to the first missing block, then deferred ones once the frame is whole, each group in slot order (R234). -/
def RxFrame.next (f : RxFrame) : Option (Nat × Rec) :=
  if !f.accsIn then none
  else
    match f.first .acceptance with
    | some e => some e
    | none =>
        match f.first .ordered with
        | some e => if f.inTo (e.1 / 14) then some e else none
        | none => if f.whole then f.first .deferred else none

/-- The frame whose turn it is: the oldest, and at a standby the one behind the frame that it applied last. -/
def Wing.turnFrame (w : Wing) : Option RxFrame :=
  w.psg.rx.head?.filter fun f => !(w.ctl.role == .standby && w.psg.ackValid) || f.tick == w.psg.ack + 1

/-- The record of the ordered turn. A joining wing waits for the whole frame and takes its COPY records first (R273). -/
def Wing.nextInTurn (w : Wing) : Option (Tick × Nat × Rec) :=
  w.turnFrame.bind fun f =>
    if w.ctl.role == .joining && !(f.whole && !f.recs.any fun e => isCopy e.2) then none
    else f.next.map fun e => (f.tick, e.1, e.2)

/-- The COPY record whose turn it is: of a whole frame, before all else of it and behind all of the frame before (R273). -/
def Wing.nextCopy (w : Wing) : Option (Tick × Nat × Rec) :=
  w.turnFrame.bind fun f =>
    if w.psg.hold == [] && f.whole then (List.find? (fun e => isCopy e.2) f.recs).map fun e => (f.tick, e.1, e.2) else none

/-- The next of the other RESYNC records, which are taken on receipt (R234). -/
def Wing.nextFill (w : Wing) : Option (Tick × Nat × Rec) :=
  (w.psg.rx.flatMap fun f => (f.recs.filter fun e => e.2.group == .independent && !isCopy e.2).map fun e =>
    (f.tick, e.1, e.2)).head?

/-- The record that the wing takes next of those that received blocks brought, among the records that wait with `r`. -/
def Wing.nextFor (w : Wing) (r : Rec) : Option (Tick × Nat × Rec) :=
  if isCopy r then w.nextCopy
  else if r.group == .independent then w.nextFill
  else w.nextInTurn

/-- A record leaves its frame. -/
def RxFrame.take (f : RxFrame) (slot : Nat) (r : Rec) : RxFrame :=
  { f with recs := SMap.erase f.recs slot, took := slot :: f.took
           accTook := if r.group == .acceptance then f.accTook + 1 else f.accTook }

/-- The record `r` is taken: the tick of its frame, and the wing without it; none when it is not the record whose turn it is. -/
def Wing.takeRec (w : Wing) (r : Rec) : Option (Tick × Wing) :=
  match w.nextFor r with
  | some (t, slot, x) =>
      if x = r then
        some (t, { w with psg := { w.psg with rx := w.psg.rx.map fun f => if f.tick = t then f.take slot r else f } })
      else none
  | none => none

/-- A record is applied by the wing's role. -/
def Wing.applyAs (w : Wing) (t : Tick) (r : Rec) : Wing × Bool :=
  if w.ctl.role = .joining then w.applyJoining t r else w.applyRec t r

/-- An ACCEPT's porch and vector count for the ranking that runs (R98). -/
def Wing.noteOpen (w : Wing) (r : Rec) : Wing :=
  match r with
  | .accept x => { w with hall := { w.hall with accOpen := w.hall.accOpen ++ [(x.key, x.porch)] } }
  | _ => w

/-- A standby rebuilds contexts from its peer's fills: it applies and acknowledges nothing meanwhile (R311, R341). -/
def Wing.rebuilding (w : Wing) : Bool := w.ctl.role == .standby && !w.pan.reloads.isEmpty

/-- A record's turn: applied, or held with every later one while a fill or an install is missing. -/
def Wing.turnOf (w : Wing) (t : Tick) (r : Rec) : Wing :=
  if w.psg.hold != [] || w.rebuilding then { w with psg := { w.psg with hold := w.psg.hold ++ [(t, r)] } }
  else
    let x := (w.noteOpen r).applyAs t r
    if x.2 then x.1 else { x.1 with psg := { x.1.psg with hold := [(t, r)] } }

/-- Held records go on in order once what they need has come. -/
def Wing.drainHold : Nat → Wing → Wing
  | 0, w => w
  | n + 1, w =>
      match w.psg.hold with
      | [] => w
      | (t, r) :: rest =>
          let x := ({ w with psg := { w.psg with hold := [] } }.noteOpen r).applyAs t r
          if x.2 then Wing.drainHold n { x.1 with psg := { x.1.psg with hold := rest } }
          else { x.1 with psg := { x.1.psg with hold := (t, r) :: rest } }

def Wing.resumeHold (w : Wing) : Wing := if w.rebuilding then w else w.drainHold w.psg.hold.length

/-! ## Acceptances at a release (R63, R123, R169) -/

/-- The arrivals on a vector that the frame under formation already carries, with their content. -/
def Wing.arrivalsInFrame (w : Wing) (key : Word) : List (ArriveRec × Obs) :=
  w.psg.ord.filterMap fun r => match r with
    | .arrive a =>
        if a.key = key ∧ !a.discard then
          (w.vst.sentArr.find? fun e => e.1 == w.now && e.2.cls == a.cls && e.2.num == a.num && e.2.seq == a.seq).map fun e =>
            (a, e.2)
        else none
    | _ => none

/-- A context that is accepted ahead of the arrivals of its tick: they are counted again on the accepted state. -/
def Ctx.acceptThen (c : Ctx) (p : Byte) (arr : List (ArriveRec × Obs)) : Ctx :=
  arr.foldl (fun c a =>
    c.arrive a.2.reg (if a.1.esc then some (a.2.escPayload a.1.cause) else if a.2.carries then some a.2.payload else none))
    (c.accept p)

/-- A vector offered at the release of this tick was accepted by the porch: its event record from the state after the frame before,
and its context with the arrivals of the tick behind the acceptance. -/
def Wing.acceptAhead (w : Wing) (p : Byte) (key : Word) : Wing :=
  let w1 := { w with hall := { w.hall with accOpen := w.hall.accOpen ++ [(key, p)] } }
  match (w.hall.img0.bind fun i => findKey key i.slots) with
  | none => w1
  | some (_, s) =>
      if s.ctx.state ≠ .pending then w1
      else
        let c1 := s.ctx.acceptThen p (w.arrivalsInFrame key)
        (w1.noteAcceptance p s.ctx w.now).updCtx key w.now fun c =>
          { c with state := c1.state, hasLast := c1.hasLast, lastCore := c1.lastCore, count := c1.count
                   payload := c1.payload, arrTick := c1.arrTick, gotNative := c1.gotNative }

/-- What the old wing's last frame carries is taken by the new wing ahead of its own first frame (R283). -/
def Wing.fromOldWing (w : Wing) (r : Rec) : Wing :=
  match r with
  | .accept x => w.acceptAhead x.porch x.key
  | .done t => w.blocksDone t
  | _ => w

/-- The wing is in one of the two ticks after a handover to it in which blocks of the old wing's last frame come (R283). -/
def Wing.tookOver (w : Wing) : Bool := w.isActive && (w.ctl.tkoPhase == some 8 || w.ctl.tkoPhase == some 9)

/-- The step of one record of the acceptance, ordered or deferred group. -/
def Wing.recordStep (w : Wing) (r : Rec) : Wing :=
  match w.takeRec r with
  | some (t, v) => if w.receives then v.turnOf t r else if w.tookOver then v.fromOldWing r else w
  | none => w

def nextRecord (s : State) (w : WingId) (r : Rec) : Host.Outcome State Fault Refusal := nextWing s w fun v => v.recordStep r

/-! ## RESYNC records (R242, R246, R273, R274) -/

/-- The recovery mark (R274): SPACE 3 has begun, and no backlog record is left. That SPACE 3 has begun is how a joining wing sees that
the backlog has ended (DEDUCED, log 99). -/
def Wing.settleMark (w : Wing) : Wing :=
  let begun : Bool := match w.ctl.joinPos with
    | some p => decide (backlogAt < p)
    | none => false
  let left : Bool := w.psg.arrFills.any (fun f => !f.asked) || match w.turnFrame with
    | some f => f.recs.any fun e => match e.2 with
        | .arrival _ => true
        | _ => false
    | none => false
  if w.ctl.role == .joining && begun && !left then { w with ctl := { w.ctl with mark := true } } else w

/-- COPY. -/
def Wing.copyStep (w : Wing) (r : CopyRec) : Wing :=
  match w.takeRec (.copy r) with
  | some (t, v) => if w.running && w.ctl.role == .joining then (v.takeCopy t r).settleMark else w
  | none => w

/-- FETCH, which only the peer of the active wing sends. -/
def Wing.fetchStep (w : Wing) (r : FetchRec) : Wing :=
  match w.takeRec (.fetch r) with
  | some (_, v) => if w.ownsFrame then v.serveFetch r else w
  | none => w

/-- The vector of a backlog arrival of a wired, raise or alarm origin, from its entry; of a page origin, from CTRL. -/
def Wing.backlogKey (w : Wing) (origin : BitVec 16) (ctrl : BitVec 25) : Word :=
  let num : BitVec 12 := origin.extractLsb' 0 12
  let vv : BitVec 20 := ctrl.extractLsb' 0 20
  match (origin.extractLsb' 14 2).toNat with
  | 0 => mkKey num vv
  | 1 => mkKey (keySlice (loWord (w.srcCfg num.toNat))) vv
  | 2 =>
      match (List.range 16).find? fun i => keyVV (loWord (w.sweCfg num.toNat i)) == vv with
      | some i => mkKey (keySlice (loWord (w.sweCfg num.toNat i))) vv
      | none => mkKey 0 vv
  | _ => w.route num.toNat

/-- A backlog arrival of a page origin as it is held: the records carry neither the PASID nor the page offset with which it passed the
checks in the wing that sends it, and the model takes the PASID bound to its slice (DESIGN CHOICE, log 23), so that R45 can admit it. -/
def Wing.asBound (w : Wing) (o : Obs) : Obs :=
  if o.cls = 0 then { o with pasidP := true, pasid := (w.slice (keySlice o.key)).pasid } else o

/-- A backlog arrival whose three parts are in is held as an observation with the carried sequence (R274). -/
def Wing.takeBacklog (w : Wing) (f : ArrFill) : Wing :=
  match f.content with
  | none => w
  | some c =>
      let cls : BitVec 2 := f.origin.extractLsb' 14 2
      let key := w.backlogKey f.origin (c.2.1.extractLsb' 0 25)
      let o := w.asBound (fillObs cls (f.origin.extractLsb' 0 12) f.seq key 0 w.now c)
      let w1 := { w with psg := { w.psg with arrFills := w.psg.arrFills.erase f } }
      w1.stage o

/-- The part of an arrival's content enters what the wing collects of it. -/
def Wing.arrivalPart (w : Wing) (r : ArrivalRec) : Wing :=
  let mine (f : ArrFill) : Bool := f.origin == r.origin && f.seq == r.seq
  if w.psg.arrFills.any mine then
    let put (f : ArrFill) : ArrFill :=
      if mine f then { f with parts := SMap.insert f.parts r.part.toNat r.data } else f
    let v1 := { w with psg := { w.psg with arrFills := w.psg.arrFills.map put } }
    match v1.psg.arrFills.find? mine with
    | some f => if f.asked then v1.resumeHold else v1.takeBacklog f
    | none => v1
  else if w.ctl.role = .joining then
    let f : ArrFill := { origin := r.origin, seq := r.seq, asked := false, parts := [(r.part.toNat, r.data)] }
    { w with psg := { w.psg with arrFills := w.psg.arrFills ++ [f] } }
  else w

/-- ARRIVAL: content that the wing asked for, or the backlog. -/
def Wing.arrivalStep (w : Wing) (r : ArrivalRec) : Wing :=
  match w.takeRec (.arrival r) with
  | some (_, v) => if w.receives then (v.arrivalPart r).settleMark else w
  | none => w

/-- A context that was lost in place (R311, R341) is put back from the peer's fill. -/
def Wing.refillReload (w : Wing) (key : Word) : Wing :=
  match w.pan.reloads.find? (fun r => r.key == key), w.psg.ctxFills.find? (·.1 == key) with
  | some r, some f =>
      match fillContext key f.2 w.now with
      | some c =>
          { w with
            pan := { w.pan with
              slots := SMap.insert w.pan.slots r.slot { ctx := { c with pin := r.pin }, steer := r.steer }
              reloads := w.pan.reloads.filter (·.slot != r.slot) }
            psg := { w.psg with ctxFills := w.psg.ctxFills.filter (·.1 != key) } }
      | none => w
  | _, _ => w

/-- FILL: a part of a context that the wing asked for. -/
def Wing.fillStep (w : Wing) (r : FillRec) : Wing :=
  match w.takeRec (.fill r) with
  | some (_, v) =>
      if !w.receives then w
      else
        let put (e : Word × SMap DWord) : Word × SMap DWord :=
          if e.1 = r.key then (e.1, SMap.insert e.2 r.part.toNat r.data) else e
        let v1 := { v with psg := { v.psg with ctxFills := v.psg.ctxFills.map put } }
        let v2 := if v1.ctl.role = .standby then v1.refillReload r.key else v1
        v2.resumeHold
  | none => w

/-! ## The end of a frame's application (R63, R153, R235, R381) -/

/-- The frame whose application may end: the one whose turn it is, if it is whole and nothing of it waits. -/
def Wing.endable (w : Wing) : Option Tick :=
  if w.psg.hold != [] || w.rebuilding then none
  else (w.turnFrame.filter fun f => f.whole && f.recs == []).map (·.tick)

/-- The latest four signatures, with that of tick `t` (R344). -/
def Integ.keepSig (v : Integ) (t : Tick) : List (Tick × Word) :=
  if v.sigs.any (fun e => e.1 == t) then v.sigs else (v.sigs ++ [(t, v.sigRun)]).drop (v.sigs.length - 3)

/-! ## Sampling and deriving again what came under an older entry (R37, R38, R417) -/

/-- The levels at the boundary that opened tick `t`, as the wing kept them. -/
def Wing.sampleAt (w : Wing) (t : Tick) : SMap Bool := ((w.vst.samples.find? fun e => e.1 == t).map Prod.snd).getD w.vst.levels

/-- An event that the wing saw in tick `t` is registered under the entries as they stand now; `lv` is the levels before it. -/
def Wing.registerRaw (src pch : List Nat) (a : Wing × SMap Bool) (e : Tick × RawEvent) : Wing × SMap Bool :=
  match e.2 with
  | .wired i l =>
      let c := a.1.srcCfg i
      let rises := src.contains i && srcEnabled c && !assertedAt c (SMap.get a.2 false i) && assertedAt c l
      (if rises then a.1.registerAt e.1 (a.1.wiredObs i) else a.1, SMap.set a.2 false i l)
  | .raise p i cur => (if pch.contains p.toNat then a.1.registerAt e.1 (a.1.raiseObs p i cur) else a.1, a.2)

/-- The wing held an observation of a tick after `t` under an entry that frame `t` replaces. -/
def Wing.underOld (w : Wing) (t : Tick) (o : Obs) : Bool :=
  decide (t.toNat < o.reg.toNat) &&
    ((o.cls == 1 && (SMap.find? w.regs.srcOld o.num.toNat).isSome) || (o.cls == 2 && w.regs.sweNew.contains o.num.toNat))

/-- A counter counts `n` events back. -/
def Wing.countBack (w : Wing) (o n : Nat) : Wing := w.setCtr o (w.ctr o - BitVec.ofNat 64 n)

/-- Observations registered under a replaced entry go, and their origins and the counters of what became of them count back (R59). -/
def Wing.dropUnderOld (w : Wing) (t : Tick) : Wing :=
  let gone := w.heldObs.filter (w.underOld t)
  let staged := w.vst.staged.filter fun o => w.underOld t o && (w.slice (keySlice o.key)).bound
  let back := staged.filter fun o => o.isOf w.vst.returned
  let spilled := gone.length - (w.vst.staged.filter (w.underOld t)).length
  let w1 := gone.foldl (fun (w : Wing) o => w.setSeq (originIx o.cls o.num) (w.seqOf (originIx o.cls o.num) - 1)) (w.dropHeld (w.underOld t))
  (((w1.countBack cRegistered gone.length).countBack cStaged (staged.length - back.length)).countBack cSpilled
    (spilled + back.length)).countBack cReturned back.length

/-- An alarm that a wing registered after tick `t` stands on the route that frame `t` leaves (R331, R366). -/
def Wing.rerouteAlarms (w : Wing) (t : Tick) : Wing :=
  let fix (o : Obs) : Obs := if o.cls == 3 && decide (t.toNat < o.reg.toNat) then { o with key := w.route o.num.toNat } else o
  { w with vst := { w.vst with
    staged := w.vst.staged.map fix
    spill := w.vst.spill.map fun (e : Nat × Spill) => (e.1, { e.2 with items := e.2.items.map fix }) } }

/-- What the frame of tick `t` makes of the sources: those of R37 and R38 register for tick t+1, and what came in later ticks stands
under the entries that the frame leaves (DEDUCED, log 100). -/
def Wing.rederive (w : Wing) (t : Tick) : Wing :=
  let lv := w.sampleAt (t + 1)
  let src := w.regs.srcOld.map Prod.fst
  let pch := w.regs.sweNew
  let w1 := (w.dropUnderOld t).resample lv (t + 1)
  let w2 := { w1 with regs := { w1.regs with sweNew := [] } }
  let later := w2.vst.raws.filter fun e => decide (t.toNat < e.1.toNat)
  let w3 := (later.foldl (Wing.registerRaw src pch) (w2, lv)).1
  { w3 with vst := { w3.vst with
      samples := w3.vst.samples.filter fun e => decide (t.toNat + 1 < e.1.toNat)
      raws := later } }

/-! ## The digest (R269, R270) -/

/-- The digest of the wing's own ranking that the one of frame `f` is compared with, and the tick of its state: at P0 to P2 the ranking
that the application of the frame has just made, at P3 the one before it. -/
def Wing.ownDigest (w : Wing) (f : Tick) (r : CloseRec) (made before : Word) : Option (Tick × Word) :=
  if w.ctl.role ≠ .standby ∨ r.role ≠ 0b00 ∨ r.level ≠ w.pwr.level.code then none
  else if w.pwr.level = .p3 then
    if f.toNat < w.hall.p3since.toNat + 2 ∨ f.toNat < w.ctl.digestFrom.toNat + 2 then none else some (f - 2, before)
  else if w.ctl.digestFrom.toNat + 1 ≤ f.toNat then some (f - 1, made)
  else none

/-- R270. -/
def Wing.compareDigest (w : Wing) (f : Tick) (r : CloseRec) (made before : Word) : Wing :=
  match w.ownDigest f r made before with
  | none => w
  | some (t, own) =>
      if own = r.digest then { w with ctl := { w.ctl with digestRun := 0 } }
      else
        let w1 := w.count cDigestMismatch
        let log := !w1.regs.tkoDigTick.getLsbD 63
        let w2 := { w1 with
          ctl := { w1.ctl with digestErr := true, digestRun := w1.ctl.digestRun + 1 }
          regs := { w1.regs with
            tkoDigTick := if log then digestTickEntry t else w1.regs.tkoDigTick
            tkoDigLog := if log then r.digest ++ own else w1.regs.tkoDigLog } }
        if w2.digRejoin && decide (4 ≤ w2.ctl.digestRun) then w2.withdraw else w2

/-- The digest that frame `f` carried, once its ranking is made in shadow. -/
def Wing.checkDigest (w : Wing) (f : Tick) (before : Word) : Wing :=
  let w1 := match w.psg.closes.find? fun e => e.1 == f with
    | some e => w.compareDigest f e.2 w.hall.digest before
    | none => w
  { w1 with psg := { w1.psg with closes := w1.psg.closes.filter fun e => decide (f.toNat < e.1.toNat) } }

/-- The shadow ranking of a standby at the end of frame `t` (R15), with the offers that it counts (R115). -/
def Wing.rankShadow (w : Wing) (t : Tick) : Wing :=
  if w.isStandby then
    let r := w.rankingFor (t + 1) (w.mapOf (t + 1))
    ((w.settleRanking r t).countN cOffers r.offers.length).checkDigest t w.hall.digest
  else w

/-! ## The signature log and the committed reference (R345, R346, R348) -/

/-- An event of the signature log, with the other value and the wing's own. -/
def Wing.logSig (w : Wing) (kind : BitVec 2) (other own : Word) : Wing :=
  { w with int := { w.int with
    sigLog := logFirst w.int.sigLog (sigEntry kind w.now)
    sigVals := if w.int.sigLog.getLsbD 63 then w.int.sigVals else other ++ own } }

/-- The comparison with the committed reference, each tick while VALID is 1 (R348). -/
def Wing.compareRef (w : Wing) : Wing :=
  if (w.effW (oIntSigRef + 4)).getLsbD 31 then
    let ref := w.effW oIntSigRef
    let bad := w.int.sigRun != ref
    let w1 := { w with int := { w.int with refMis := bad } }
    if bad && !w.int.refMis then (w1.count cSigRef).logSig 0b10 ref w.int.sigRun else w1
  else w

/-- The wing's configuration follows its peer's frames: what frame `n` leaves is in force from tick n+1, in which the wing applies it. -/
def Wing.followsFrames (w : Wing) : Bool := w.ctl.role == .standby || (w.ctl.role == .joining && w.ctl.joinPos.isSome)

/-- FRAME_APPLIED (R235). The comparison of R348 for the tick in which the frame is applied follows it. -/
def Wing.frameApplied (w : Wing) : Wing :=
  if !w.receives then w
  else
    match w.endable with
    | none => w
    | some t =>
        let w0 := { w with psg := { w.psg with
          rx := w.psg.rx.filter fun f => f.tick != t, lost := w.psg.lost.filter fun x => x.tick != t } }
        let w1 := w0.when w0.running fun v => v.windowEnds t
        let w2 := w1.rankShadow t
        let w3 := (w2.formBlock t).when w2.running fun v => v.rederive t
        let w4 := { w3 with
          hall := { w3.hall with conf := w3.regs.eff }
          regs := { w3.regs with aliasKept := w3.regs.aliasKept.filter fun c => decide (t.toNat < c.tick.toNat + 1) }
          int := { w3.int with sigs :=
            if w3.running || decide (t.toNat < w3.pwr.enterTick.toNat) then w3.int.keepSig (t + 1) else w3.int.sigs } }
        let acks := w4.ctl.role == .standby || w4.ctl.withdrawAt == some w4.now
        let w5 := if acks then { w4 with psg := { w4.psg with ackValid := true, ack := t } } else w4
        (w5.updateRoutes.rerouteAlarms t).when (w5.running && w5.followsFrames) Wing.compareRef

/-! ## TICK_CLOSE (R247, R248, R257, R267, R269, R270, R346, R347) -/

/-- The signature of a tick. -/
def Wing.sigOf (w : Wing) (t : Tick) : Word :=
  match w.int.sigs.find? fun e => e.1 == t with
  | some e => e.2
  | none => w.int.sigRun

/-- R346 and R347. INT_SIG_PEER holds the value that was last compared (R357). -/
def Wing.compareSig (w : Wing) (frame : Tick) (r : CloseRec) : Wing :=
  let own := w.sigOf frame
  if r.role = 0b10 ∨ w.ctl.role = .joining ∨ w.ctl.role = .orphan then w
  else
    let w0 := { w with int := { w.int with sigPeer := r.sig } }
    let bad := own != r.sig
    let fresh := bad && !w.int.peerMis
    let w1 := { w0 with int := { w0.int with
      peerMis := bad
      sigLog := if fresh then logFirst w0.int.sigLog (sigEntry 0b01 frame) else w0.int.sigLog
      sigVals := if fresh && !w0.int.sigLog.getLsbD 63 then r.sig ++ own else w0.int.sigVals } }
    let w2 := w1.countIf fresh cSigPeer
    let ref := w.effW oIntSigRef
    if bad && (w.effW (oIntSigRef + 4)).getLsbD 31 && (w.effW oIntCtrl).getLsbD 1 && own != ref && r.sig == ref then
      w2.giveWay false
    else w2

/-- A wing sees the other's claim (R257, R267). -/
def Wing.seeClaim (w : Wing) (r : CloseRec) : Wing :=
  let w1 := { w with ctl := { w.ctl with
    seen := if w.ctl.seen.toNat < r.claim.toNat then r.claim else w.ctl.seen
    seenActive := w.ctl.seenActive || r.role == 0b00 } }
  if r.role = 0b00 ∧ w1.ctl.claim.toNat < r.claim.toNat then w1.demote else w1

/-- The first TICK_CLOSE of each frame that a standby has not applied yet. -/
def Wing.keptCloses (w : Wing) (frame : Tick) (r : CloseRec) : List (Tick × CloseRec) :=
  if w.isStandby && !(w.psg.ackValid && decide (frame.toNat ≤ w.psg.ack.toNat)) && !w.psg.closes.any (fun e => e.1 == frame) then
    w.psg.closes ++ [(frame, r)]
  else w.psg.closes

/-- The first TICK_CLOSE of the frame to be decoded, on whichever lane and replayed or not, is compared (R346). -/
def Wing.compareFirst (w : Wing) (frame : Tick) (r : CloseRec) : Wing :=
  if w.int.compared.contains frame then w
  else
    let seen := w.int.compared ++ [frame]
    { w with int := { w.int with compared := seen.drop (seen.length - 16) } }.compareSig frame r

/-- TICK_CLOSE of the frame of tick `frame`. A wing that woke from Deep
beside an active wing joins from here on (R306). -/
def Wing.tickClose (w : Wing) (frame : Tick) (replayed : Bool) (r : CloseRec) : Wing :=
  if !w.passageRuns then w
  else
    let beat := !replayed && frame == w.now - 1
    let w1 := { w with
      life := if w.life = Life.deepWake then Life.run else w.life
      psg := { w.psg with
        hb := w.psg.hb || beat
        peerJoining := if replayed then w.psg.peerJoining else r.role == 0b10
        peerActive := if replayed then w.psg.peerActive else r.role == 0b00
        closes := w.keptCloses frame r } }
    (w1.seeClaim r).when w.running fun v => v.compareFirst frame r

/-! ## The commands -/

/-- ARRIVE (R241, R242). -/
def execArrive (w : WingId) (r : ArriveRec) (s : State) : Host.Outcome State Fault Refusal := nextRecord s w (.arrive r)

/-- CLAIM_RECORD (R243). -/
def execClaimRecord (w : WingId) (r : JournalRec) (s : State) : Host.Outcome State Fault Refusal := nextRecord s w (.claim r)

/-- COMPLETE_RECORD (R243). -/
def execCompleteRecord (w : WingId) (r : JournalRec) (s : State) : Host.Outcome State Fault Refusal := nextRecord s w (.complete r)

/-- CFG_REGW (R244). -/
def execCfgRegw (w : WingId) (r : RegwRec) (s : State) : Host.Outcome State Fault Refusal := nextRecord s w (.regw r)

/-- CFG_CMD (R244). -/
def execCfgCmd (w : WingId) (r : CmdRec) (s : State) : Host.Outcome State Fault Refusal := nextRecord s w (.cmd r)

/-- CFG_CMD_EXT (R244). -/
def execCfgCmdExt (w : WingId) (r : CmdExtRec) (s : State) : Host.Outcome State Fault Refusal := nextRecord s w (.cmdExt r)

/-- CFG_FINISH (R244). -/
def execCfgFinish (w : WingId) (r : FinishRec) (s : State) : Host.Outcome State Fault Refusal := nextRecord s w (.finish r)

/-- CFG_PARAM (R244). -/
def execCfgParam (w : WingId) (r : ParamRec) (s : State) : Host.Outcome State Fault Refusal := nextRecord s w (.param r)

/-- CFG_DRAIN (R244). -/
def execCfgDrain (w : WingId) (r : DrainRec) (s : State) : Host.Outcome State Fault Refusal := nextRecord s w (.drain r)

/-- CFG_LETTER (R244). -/
def execCfgLetter (w : WingId) (r : LetterRec) (s : State) : Host.Outcome State Fault Refusal := nextRecord s w (.letter r)

/-- CFG_LEVEL (R244, R289). -/
def execCfgLevel (w : WingId) (r : LevelRec) (s : State) : Host.Outcome State Fault Refusal := nextRecord s w (.level r)

/-- CFG_QUAR (R71, R244). -/
def execCfgQuar (w : WingId) (r : QuarRec) (s : State) : Host.Outcome State Fault Refusal := nextRecord s w (.quar r)

/-- STEER_ACCEPT (R245). -/
def execSteerAccept (w : WingId) (r : AcceptRec) (s : State) : Host.Outcome State Fault Refusal := nextRecord s w (.accept r)

/-- STEER_INSTALL (R75, R245). -/
def execSteerInstall (w : WingId) (r : InstallRec) (s : State) : Host.Outcome State Fault Refusal := nextRecord s w (.install r)

/-- STEER_MODWIN (R84, R245). -/
def execSteerModwin (w : WingId) (r : ModwinRec) (s : State) : Host.Outcome State Fault Refusal := nextRecord s w (.modwin r)

/-- STEER_TARGET (R107, R245). -/
def execSteerTarget (w : WingId) (r : TargetRec) (s : State) : Host.Outcome State Fault Refusal := nextRecord s w (.target r)

/-- STEER_RESIDENCY (R108, R245). -/
def execSteerResidency (w : WingId) (r : ResidencyRec) (s : State) : Host.Outcome State Fault Refusal :=
  nextRecord s w (.residency r)

/-- STEER_CORESTATE (R90, R245). -/
def execSteerCorestate (w : WingId) (r : CoreStateRec) (s : State) : Host.Outcome State Fault Refusal :=
  nextRecord s w (.coreState r)

/-- RINGPOS_DOORBELL (R246). -/
def execRingposDoorbell (w : WingId) (r : DoorbellRec) (s : State) : Host.Outcome State Fault Refusal :=
  nextRecord s w (.doorbell r)

/-- RINGPOS_DONE (R173, R246). -/
def execRingposDone (w : WingId) (t : Tick) (s : State) : Host.Outcome State Fault Refusal := nextRecord s w (.done t)

/-- RESYNC_COPY (R246, R273). -/
def execResyncCopy (w : WingId) (r : CopyRec) (s : State) : Host.Outcome State Fault Refusal := nextWing s w fun v => v.copyStep r

/-- RESYNC_FETCH (R70, R242). -/
def execResyncFetch (w : WingId) (r : FetchRec) (s : State) : Host.Outcome State Fault Refusal := nextWing s w fun v => v.fetchStep r

/-- RESYNC_ARRIVAL (R242, R274). -/
def execResyncArrival (w : WingId) (r : ArrivalRec) (s : State) : Host.Outcome State Fault Refusal :=
  nextWing s w fun v => v.arrivalStep r

/-- RESYNC_FILL (R70). -/
def execResyncFill (w : WingId) (r : FillRec) (s : State) : Host.Outcome State Fault Refusal := nextWing s w fun v => v.fillStep r

/-- FRAME_APPLIED (R235). -/
def execFrameApplied (w : WingId) (s : State) : Host.Outcome State Fault Refusal := nextWing s w Wing.frameApplied

/-- TICK_CLOSE (R247). -/
def execTickClose (w : WingId) (frame : Tick) (replayed : Bool) (r : CloseRec) (s : State) :
    Host.Outcome State Fault Refusal := nextWing s w fun v => v.tickClose frame replayed r

/-- NOP_RECORD (R240): fill, without effect. -/
def execNopRecord (w : WingId) (s : State) : Host.Outcome State Fault Refusal := nextWing s w fun v => v

end Sys2Proof.Machine
end

