-- ==== Sys2Proof/Machine/Beats.lean ====
section
/-! DEFINITION. The beats that a porch sends to a wing (05_porches.md R121, R123, R132, R137 to R139, R145): acceptances, refusals,
journal entries, status, slot reports, the end of a replay, and events. -/

namespace Sys2Proof.Machine

/-! ## Acceptances at a release (R63, R123, R169) -/

/-- The acceptance of an offer of this tick's release, with its ACCEPT record. -/
def Wing.acceptOffer (w : Wing) (p : Byte) (key : Word) : Wing :=
  (w.place (.accept { porch := p, key := key })).acceptAhead p key

/-- The offers of this tick's release to a porch that still wait for its answer are settled: `ok` names those accepted. -/
def Wing.settleOffers (w : Wing) (p : Byte) (ok : Nat → Bool) : Wing :=
  let offers := SMap.get w.hall.offered [] p.toNat
  let w1 := { w with
    hall := { w.hall with offered := SMap.erase w.hall.offered p.toNat }
    psg := { w.psg with accOwed := w.psg.accOwed - offers.length } }
  ((List.range offers.length).zip offers).foldl (fun w e => if ok e.1 then w.acceptOffer p (rkKey e.2) else w) w1

/-- A return that the wing makes itself (R123, R143). -/
def synthReturn (p : Byte) (key : Word) : JournalRec :=
  { ret := true, replay := false, synth := true, porch := p
    entry := { kind := .ret, accTick := 0, prio := 0, jseq := 0, key := key } }

/-- Vectors PRESENTED at a porch that it neither holds nor has named in an entry: taken as accepted after a late answer, they go
back to PENDING (R123). Where a return finds no room in the frame, the next answer in time is compared again. -/
def Wing.checkHeld (w : Wing) (p : Byte) (held : List Word) : Wing :=
  let sent := SMap.get w.pch.entries [] p.toNat ++ SMap.get w.pch.replay [] p.toNat ++
    (w.pch.deferred.filter fun e => e.1 == p).map Prod.snd
  let named := (sent.filter fun e => e.kind != .complete).map (·.key)
  let gone := (w.ctxs.filter fun c => c.state == .presented && c.lastCore == p && !held.contains c.key &&
    !named.contains c.key).map (·.key)
  let go (a : Wing × Bool) (k : Word) : Wing × Bool :=
    if a.1.mayCarry k then (((a.1.applyReturn p k a.1.now).place (.claim (synthReturn p k))).count cRspLate, a.2) else (a.1, true)
  let r := gone.foldl go (w, false)
  if r.2 then r.1 else { r.1 with pch := { r.1.pch with late := r.1.pch.late.filter (· != p.toNat) } }

/-- A porch has answered a release: what a takeover or a change to simplex waits for (R260, R262, R265). -/
def Wing.noteAnswer (w : Wing) : Wing :=
  { w with
    ctl := { w.ctl with
      answered := true
      prov := w.ctl.prov.map fun p => if p.releases = 0 then p else { p with answered := true } }
    hall := { w.hall with confirmVote := false } }

/-- ACCEPT_RSP. One that comes after the deadline shows only that the porch has answered: its offers count as accepted already. -/
def Wing.acceptRsp (w : Wing) (p : Byte) (bits : BitVec 4) (held : List Word) : Wing :=
  if !w.isActive then w
  else if (SMap.find? w.hall.offered p.toNat).isNone then w.noteAnswer
  else
    let w1 := (w.noteAnswer).settleOffers p fun i => bits.getLsbD i
    if w.pch.late.contains p.toNat then w1.checkHeld p held else w1

/-- ACCEPT_RSP that has not come by 64 ns: every offer of the release counts as accepted. -/
def Wing.acceptLate (w : Wing) (p : Byte) : Wing :=
  if !w.isActive || (SMap.find? w.hall.offered p.toNat).isNone then w
  else
    let w1 := (w.settleOffers p fun _ => true).count cRspLate
    { w1 with pch := { w1.pch with late := if w1.pch.late.contains p.toNat then w1.pch.late else w1.pch.late ++ [p.toNat] } }

/-! ## Refusals, status, events -/

/-- REFUSE (R137, R171, R257, R267). -/
def Wing.refused (w : Wing) (claim : Word) : Wing :=
  let w1 := w.count cOfferRefused
  let w2 := { w1 with ctl := { w1.ctl with
    seen := if w1.ctl.seen.toNat < claim.toNat then claim else w1.ctl.seen, refused := true } }
  w2.demote

/-- ENTRY (R132, R138): an entry of a replay that has not ended, or a new one, into the buffer of 12. A wing that is not active and that a
porch has turned to keeps what the porch sends until it collects. -/
def Wing.takeEntry (w : Wing) (p : Byte) (d : DWord) : Wing :=
  match Entry.decode d with
  | none => w
  | some e =>
      match (SMap.find? w.pch.replay p.toNat).filter fun _ => !w.pch.ended.contains p.toNat with
      | some l => { w with pch := { w.pch with replay := SMap.insert w.pch.replay p.toNat (l ++ [e]) } }
      | none =>
          let l := SMap.get w.pch.entries [] p.toNat
          if l.length < 12 then { w with pch := { w.pch with entries := SMap.insert w.pch.entries p.toNat (l ++ [e]) } } else w

/-- The wing takes beats: it is out of reset and powered (R299, R300, R306, R405). -/
def Wing.takesBeats (w : Wing) : Bool :=
  match w.life with
  | .held | .keyWait | .deep => false
  | _ => true

/-- SLOT_REPORT with its SLOT_KEY beats (R138): the valid slots, each with its RTICK. -/
def slotsReported (rep : DWord) (keys : List Word) : List (Word × Byte) :=
  (List.range 4).filterMap fun i =>
    let v : BitVec 16 := rep.extractLsb' (16 * i) 16
    if v.getLsbD 15 then some (keys.getD (v.extractLsb' 0 2 : BitVec 2).toNat 0, v.extractLsb' 2 8) else none

/-! ## Replays and slot reports (R18, R113, R139, R264) -/

/-- The entry would be discarded under R64, or its vector is not in the pantry yet. -/
def Wing.entryFails (w : Wing) (p : Byte) (e : Entry) : Bool :=
  match w.ctx? e.key with
  | none => true
  | some c =>
      match e.kind with
      | .complete => !(c.state.completable && c.lastCore == p)
      | _ => !(c.state == .presented && c.lastCore == p)

/-- The journal record of a replayed entry. -/
def replayRec (p : Byte) (e : Entry) : Rec :=
  let r : JournalRec := { ret := e.kind == .ret, replay := true, synth := false, porch := p, entry := e }
  if e.kind = .complete then .complete r else .claim r

/-- A replayed entry takes effect, and LAST_JSEQ is its JSEQ with its record (R134). -/
def Wing.applyEntry (w : Wing) (p : Byte) (e : Entry) (t : Tick) : Wing :=
  let w0 := w.setJseq p e.jseq
  let w1 := match e.kind with
    | .claim => w0.applyClaim p e.key t
    | .ret => (w0.applyReturn p e.key t).count cReturns
    | .complete => w0.applyComplete p e.key t
  (w1.place (replayRec p e)).count cReplay

/-- One replayed entry at the takeover: a duplicate, an effect, or deferred; none while the frame has no place for it. -/
def Wing.replayEntry (w : Wing) (p : Byte) (e : Entry) : Option Wing :=
  if jseqLe e.jseq (SMap.get w.pch.jseqCommit 0xFFFF p.toNat) then some (w.count cReplayDup)
  else if w.entryFails p e then
    some (({ w with pch := { w.pch with deferred := w.pch.deferred ++ [(p, e)] } }).count cReplayDefer)
  else if w.mayCarry e.key then some (w.applyEntry p e w.now)
  else none

/-- The entries of a replay, up to the first that waits, with those that are left. -/
def Wing.replayList (p : Byte) : List Entry → Wing → Wing × List Entry
  | [], w => (w, [])
  | e :: es, w =>
      match w.replayEntry p e with
      | some v => Wing.replayList p es v
      | none => (w, e :: es)

/-- The context of a PENDING vector in the state after the last frame that the wing applied (R173). -/
def Wing.baseCtx (w : Wing) (key : Word) : Option Ctx :=
  (w.hall.base.bind fun i => findKey key i.slots).bind fun e => if e.2.ctx.state = .pending then some e.2.ctx else none

/-- An acceptance that a takeover learns from a porch, for the release of tick `m` (R113, R173, R264): its record has the contents of the
state after the last frame that the wing applied, and arrivals since then remain. DEDUCED (log 98): a vector that is not PENDING in that state was
offered from state that the wing never received; its record has the contents of the wing's own state, and no arrival remains. -/
def Wing.acceptReported (w : Wing) (p : Byte) (c : Ctx) (m : Tick) : Wing :=
  let b := w.baseCtx c.key
  (w.noteAcceptance p (b.getD c) m).updCtx c.key w.now fun x =>
    let y := x.accept p
    match b with
    | some b => { y with count := x.count - b.count, gotNative := x.gotNative && b.count != x.count }
    | none => y

/-- One vector that a slot report names (R113): PENDING in the committed state, it is PRESENTED at the porch, accepted at the release that
RTICK names near the takeover tick; a vector that the wing sees PRESENTED is settled. The Bool is true while the report stands. -/
def Wing.slotReported (w : Wing) (p : Byte) (key : Word) (rtick : Byte) : Wing × Bool :=
  match w.ctx? key with
  | some c =>
      if c.state = .pending then (w.acceptReported p c (restoreBack rtick w.ctl.tkoTick), false)
      else (w, c.state != .presented)
  | none => (w, true)

/-- A slot report, or what is left of it. -/
def Wing.applySlotReport (w : Wing) (p : Byte) : Wing :=
  let go (a : Wing × List (Word × Byte)) (e : Word × Byte) : Wing × List (Word × Byte) :=
    let r := a.1.slotReported p e.1 e.2
    (r.1, if r.2 then a.2 ++ [e] else a.2)
  let r := (SMap.get w.pch.slotRep [] p.toNat).foldl go (w, [])
  { r.1 with pch := { r.1.pch with slotRep := SMap.set r.1.pch.slotRep [] p.toNat r.2 } }

/-- The replay of one porch, and then its slot report once the replay is whole. -/
def Wing.applyReplay (w : Wing) (p : Byte) : Wing :=
  let r := Wing.replayList p (SMap.get w.pch.replay [] p.toNat) w
  if r.2 = [] ∧ w.pch.ended.contains p.toNat then
    { r.1 with pch := { r.1.pch with
        replay := SMap.erase r.1.pch.replay p.toNat, ended := r.1.pch.ended.filter (· != p.toNat) } }.applySlotReport p
  else { r.1 with pch := { r.1.pch with replay := SMap.insert r.1.pch.replay p.toNat r.2 } }

/-- The porches' replays, in ascending porch order (R139). -/
def Wing.applyReplays (w : Wing) : Wing :=
  (w.pch.replay.map (·.1)).foldl (fun w p => w.applyReplay (BitVec.ofNat 8 p)) w

/-- A deferred entry, against the state after the held observations: a claim or return of a PENDING vector stands for its
acceptance at that porch as well, at the release that ACC_TICK names near the takeover tick (R264). -/
def Wing.applyDeferred (w : Wing) (p : Byte) (e : Entry) : Wing :=
  match w.ctx? e.key with
  | some c =>
      if e.kind ≠ .complete ∧ c.state = .pending then
        (w.acceptReported p c (restoreBack e.accTick w.ctl.tkoTick)).applyEntry p e w.now
      else w.applyEntry p e w.now
  | none => w.applyEntry p e w.now

/-- The deferred entries take effect, in order; one whose vector is being reloaded waits for that (R279), and one for which the frame has
no place waits for the next. -/
def Wing.applyAllDeferred (w : Wing) : Wing :=
  let go (w : Wing) (e : Byte × Entry) : Wing :=
    if (w.pan.reloads.any fun r => r.key == e.2.key) || !w.mayCarry e.2.key then
      { w with pch := { w.pch with deferred := w.pch.deferred ++ [e] } }
    else w.applyDeferred e.1 e.2
  w.pch.deferred.foldl go { w with pch := { w.pch with deferred := [] } }

/-- What slot reports name that is not settled yet. -/
def Wing.applySlotReports (w : Wing) : Wing :=
  (w.pch.slotRep.map (·.1)).foldl (fun w p =>
    if (SMap.find? w.pch.replay p).isSome then w else w.applySlotReport (BitVec.ofNat 8 p)) w

/-- REPLAY_END: what comes from the porch now is new. The replay is applied at the close of a tick (R263). To a wing that is not active it
shows that the porch has turned to it (R138). -/
def Wing.replayEnded (w : Wing) (p : Byte) : Wing :=
  if w.takesBeats && w.ctl.role != .active then
    { w with pch := { w.pch with turned := w.pch.turned.filter (· != p.toNat) ++ [p.toNat] } }
  else if w.isActive && (SMap.find? w.pch.replay p.toNat).isSome && !w.pch.ended.contains p.toNat then
    { w with pch := { w.pch with ended := w.pch.ended ++ [p.toNat] } }
  else w

/-! ## The commands -/

/-- ACCEPT_RSP (R123, R232). -/
def execAcceptRsp (w : WingId) (p : Byte) (bits : BitVec 4) (held : List Word) (s : State) :
    Host.Outcome State Fault Refusal := nextWing s w fun v => v.acceptRsp p bits held

/-- ACCEPT_RSP_TIMEOUT (R123). -/
def execAcceptRspTimeout (w : WingId) (p : Byte) (s : State) : Host.Outcome State Fault Refusal :=
  nextWing s w fun v => v.acceptLate p

/-- REFUSE (R137). -/
def execRefuse (w : WingId) (_p : Byte) (claim : Word) (s : State) : Host.Outcome State Fault Refusal :=
  nextWing s w fun v => if v.takesBeats then v.refused claim else v

/-- ENTRY (R132). -/
def execEntry (w : WingId) (p : Byte) (e : DWord) (s : State) : Host.Outcome State Fault Refusal :=
  nextWing s w fun v => if v.takesBeats then (v.takeEntry p e).wake { source := 0x4, detail := p.setWidth 12 } else v

/-- STATUS (R121). -/
def execStatus (w : WingId) (p : Byte) (st : BitVec 16) (s : State) : Host.Outcome State Fault Refusal :=
  nextWing s w fun v => if v.takesBeats then
    { v with pch := { v.pch with status := SMap.insert v.pch.status p.toNat st } } else v

/-- SLOT_REPORT (R138). -/
def execSlotReport (w : WingId) (p : Byte) (rep : DWord) (keys : List Word) (s : State) : Host.Outcome State Fault Refusal :=
  nextWing s w fun v => if v.takesBeats then
    { v with pch := { v.pch with slotRep := SMap.insert v.pch.slotRep p.toNat (slotsReported rep keys) } } else v

/-- REPLAY_END (R138, R139). -/
def execReplayEnd (w : WingId) (p : Byte) (s : State) : Host.Outcome State Fault Refusal :=
  nextWing s w fun v => v.replayEnded p

/-- The counter of an EVENT beat (R145). R121's EVENT row lists vote corrections, duplicate offers and link errors only; that a claim
answered BUSY and a reserved port operation reach the wings' counters as EVENT beats too is the model's (DESIGN CHOICE, log 109). -/
def eventCounter : PorchEvent → Nat
  | .voteFix => cPchVoteFix
  | .dupOffer => cDupOffer
  | .linkErr => cLinkErr
  | .claimBusy => cClaimBusy
  | .portErr => cPortErr

/-- PORCH_EVENT (R117, R121, R145). -/
def execPorchEvent (w : WingId) (_p : Byte) (e : PorchEvent) (s : State) : Host.Outcome State Fault Refusal :=
  nextWing s w fun v => if v.takesBeats then v.count (eventCounter e) else v

end Sys2Proof.Machine
end

