-- ==== Sys2Proof/Machine/Hearth.lean ====
section
/-! DEFINITION. The hearth: raw counter, calendar, anchor, alarm stamps and time pairs (12_hearth.md). A hearth that has lost its
state does nothing until it powers up again. -/

namespace Sys2Proof.Machine

/-- A change of a wing's hearth, while the hearth is powered. -/
def Wing.onHearth (w : Wing) (f : Hearth → Hearth) : Wing := if w.hrt.powered then { w with hrt := f w.hrt } else w

/-! ## The raw edge (R319 to R321, R328, R333) -/

/-- The calendar after an edge: a pending set replaces the count. -/
def Hearth.nextCal (h : Hearth) : BitVec 63 := if h.calPend then h.calSet else h.cal + 1

/-- A latch that waits for its stamp takes it. -/
def Latch.stamp (l : Latch) (raw : DWord) (cal : BitVec 63) : Latch :=
  if l.set && !l.stamped then { l with stamped := true, stampRaw := raw, stampCal := cal, ever := true } else l

/-- The SET bits of the latches. -/
def Hearth.almBits (h : Hearth) : BitVec 16 :=
  (List.range 16).foldl (fun b i => if (h.latch i).set then b ||| (1#16 <<< i) else b) 0

/-- What the port shows from this edge on. -/
def Hearth.show (h : Hearth) : Hearth :=
  { h with shown := { ancValid := h.ancValid, ancTick := h.ancTick, ancRaw := h.ancRaw, alm := h.almBits
                      timeLost := h.timeLost, vbatLow := h.vbatLow, fresh := h.fresh, wake := h.wake } }

/-- The counter, the calendar, then the stamps and the pair, from their values after the edge. -/
def Hearth.advance (h : Hearth) (now : Tick) : Hearth :=
  let raw := h.raw + 1
  let cal := h.nextCal
  let h1 := { h with
    raw := raw, cal := cal, calPend := false
    latches := h.latches.map fun (e : Nat × Latch) => (e.1, e.2.stamp raw cal) }
  if h.pairPend then
    { h1 with pairPend := false, pairCal := cal, pairRaw := raw, pairTick := now, pairValid := true }
  else h1

/-- A raw edge in tick `now` of the wing. -/
def Hearth.edge (h : Hearth) (now : Tick) : Hearth := (h.advance now).show

/-! ## The anchor and the rebuild (R323, R324) -/

/-- The anchor takes the wing's tick and the raw counter, in the first cycle of the tick, once; a wing without a role writes none (R406). -/
def Wing.writeAnchor (w : Wing) : Wing :=
  if w.ctl.hasTick && (w.ctl.role == .active || w.ctl.role == .standby) then
    w.onHearth fun h =>
      if h.ancValid && h.ancTick == w.now then h else { h with ancValid := true, ancTick := w.now, ancRaw := h.raw }
  else w

/-- The tick that the anchor gives at the raw counter's value. -/
def Hearth.rebuilt (h : Hearth) : Option Tick :=
  if h.ancValid then
    some (BitVec.ofNat 56 (h.ancTick.toNat + (h.raw.toNat - h.ancRaw.toNat) * 3906250 / 32768))
  else none

/-! ## Registration of alarms (R41, R328, R329) -/

/-- The payload of a latch's observation. -/
def Latch.payload (l : Latch) (line : Nat) : DWord :=
  1#1 ++ 0#7 ++ l.again ++ BitVec.ofNat 4 line ++ l.stampRaw.extractLsb' 0 48

/-- The observation of line `i`. R329 gives it a payload that is applied under R57, where the table of R27 has none for an alarm: the model
takes R329's (DEDUCED, log 122). -/
def Wing.alarmObs (w : Wing) (i : Nat) : Obs :=
  { cls := 3, num := BitVec.ofNat 12 i, seq := 0, key := w.route i, reg := 0, ctrl := 0, engStatus := 0, jobTag := 0
    payload := (w.hrt.latch i).payload i, carries := true, req := 0, pasidP := false, pasid := 0, off := 0
    swe := true, chk := 0 }

/-- The latches that a wing may register: set, with their stamp. -/
def Wing.dueAlarms (w : Wing) : List Nat :=
  (List.range 16).filter fun i => (w.hrt.latch i).set && (w.hrt.latch i).stamped

/-- A wing in Run that holds a role, with slice 0 created, registers latches at a tick boundary (R328, R406, R413). -/
def Wing.registersAlarms (w : Wing) : Bool :=
  w.running && (w.ctl.role == .active || w.ctl.role == .standby) && !w.ctl.booting

/-- The set latches with their stamps register, in ascending line order; SET clears. -/
def Wing.registerAlarms (w : Wing) : Wing :=
  if w.registersAlarms then
    w.dueAlarms.foldl (fun w i =>
      let o := w.alarmObs i
      ({ w with hrt := w.hrt.setLatch i { w.hrt.latch i with set := false } }).register o) w
  else w

/-! ## The wake record (R332) -/

/-- HRT_WAKE of a wake from Deep. -/
def Hearth.noteWake (h : Hearth) (c : WakeCause) : Hearth :=
  { h with wake := hrtWakeWord c.source (if c.source = 0x5 then c.detail.extractLsb' 0 4 else 0) h.raw }

/-! ## The commands -/

/-- ANCHOR_WRITE (R323): at a multiple of 65,536 ticks, and in the tick in which step 4 of the Deep entry begins, whose boundary writes the
anchor (`beginOff`). -/
def execAnchorWrite (w : WingId) (s : State) : Host.Outcome State Fault Refusal :=
  nextWing s w fun v => if v.running && decide (v.now.toNat % 65536 = 0) then v.writeAnchor else v

/-- The comparison of the backup rail with 2.0 V. A hearth that has lost its state has no VBAT_LOW to set. -/
def Hearth.checkRail (h : Hearth) (millivolt : Nat) : Hearth :=
  let low := decide (millivolt < 2000)
  { h with railLow := low, vbatLow := h.vbatLow || (low && h.powered) }

/-- VBAT_CHECK (R318), with the backup rail in millivolts. -/
def execVbatCheck (w : WingId) (millivolt : BitVec 16) (s : State) : Host.Outcome State Fault Refusal :=
  nextWing s w fun v => { v with hrt := v.hrt.checkRail millivolt.toNat }

/-- HEARTH_POWER_UP (R318): of a hearth that has lost its state. What the latest comparison showed of the rail stands until the next. -/
def execHearthPowerUp (w : WingId) (s : State) : Host.Outcome State Fault Refusal :=
  nextWing s w fun v => if v.hrt.powered then v else { v with hrt := { Hearth.reset with railLow := v.hrt.railLow } }

/-- The calendar is set at the next raw edge (R320). -/
def Wing.setCalendar (w : Wing) (val : BitVec 63) : Wing := w.onHearth fun h => { h with calSet := val, calPend := true }

/-- CAL_LOCK as stored (R334, R366). -/
def Wing.calLocked (w : Wing) : Bool := (w.cfgW oTimeLock).getLsbD 1

/-- A time pair is captured at the next raw edge (R333). -/
def Wing.askPair (w : Wing) : Wing := w.onHearth fun h => { h with pairPend := true }

/-- An access that a wing in reset answers with ERROR, and that reaches no wing in Deep (R309, R403). -/
def Wing.portLive (w : Wing) (f : Wing → Wing) : Wing :=
  match w.life with
  | .held => w.emit (.regRsp w.id false 0)
  | .deep => w
  | _ => f w

/-- HRT_CAL_SET (R320), unless CAL_LOCK holds the register (R334). The port's answer of a live wing is INDIRECT_ACCESS's. -/
def execHrtCalSet (w : WingId) (val : DWord) (s : State) : Host.Outcome State Fault Refusal :=
  nextWing s w fun v => v.portLive fun x => if x.calLocked then x else x.setCalendar (val.extractLsb' 0 63)

/-- TIME_PAIR (R333). -/
def execTimePair (w : WingId) (s : State) : Host.Outcome State Fault Refusal := nextWing s w fun v => v.portLive Wing.askPair

/-- BACKUP_RAIL_LOSS (R318): both hearths lose their state, and their rail lies below 2.0 V until a comparison shows otherwise. -/
def execBackupRailLoss (s : State) : Host.Outcome State Fault Refusal :=
  let lost (v : Wing) : Wing := { v with hrt := { Hearth.reset with
    powered := false, fresh := false, railLow := true, shown := { HrtShown.reset with fresh := false } } }
  .next { s with east := lost s.east, west := lost s.west, out := [] }

end Sys2Proof.Machine
end

