-- ==== Sys2Proof/Machine/Votes.lean ====
section
/-! DEFINITION. Levels, votes, quiet, the pair's state, and what ends or refuses a sleep (11_power.md R287 to R303, R314); the
deadline of an acknowledgement (01_wings_and_tick.md R13, R25). -/

namespace Sys2Proof.Machine

/-! ## Levels (R287 to R292) -/

/-- The budget of a level under R12 and R21. -/
def Wing.levelBudget (w : Wing) (l : Level) : Nat := min l.budget (laneCap (lanesIn w.psg.map))

/-- Levels, fastest first. -/
def levels : List Level := [.p0, .p1, .p2, .p3]

def Wing.fastLimit (w : Wing) : BitVec 2 := (w.effW oPwrCtrl).extractLsb' 0 2
def Wing.slowLimit (w : Wing) : BitVec 2 := (w.effW oPwrCtrl).extractLsb' 2 2
def Wing.levelAuto (w : Wing) : Bool := (w.effW oPwrCtrl).getLsbD 4
def Wing.fixedLevel (w : Wing) : BitVec 2 := (w.effW oPwrCtrl).extractLsb' 5 2

/-- The permitted level nearest to `l`. -/
def Wing.permitted (w : Wing) (l : Level) : Level :=
  if l.code.toNat < w.fastLimit.toNat then Level.ofCode w.fastLimit
  else if w.slowLimit.toNat < l.code.toNat then Level.ofCode w.slowLimit else l

/-- A LEVEL record stands in the frame under formation. -/
def Wing.levelPlaced (w : Wing) : Bool := w.psg.defr.any fun r => match r with
  | .level _ => true
  | _ => false

/-- A LEVEL record is outstanding, or about to be issued. -/
def Wing.levelOut (w : Wing) : Bool := w.pwr.next.isSome || w.pwr.want.isSome || w.levelPlaced

/-- The tick L that a record of the frame under formation names: 24 ticks after it for a raise, 2 for a lowering (R289). -/
def Wing.levelTick (w : Wing) (l : Level) : Tick := if l.code.toNat < w.pwr.level.code.toNat then w.now + 24 else w.now + 2

/-- The LEVEL record for `l`, placed in the frame under formation. -/
def Wing.placeLevel (w : Wing) (l : Level) : Wing := w.place (.level { level := l.code, tick := w.levelTick l })

/-- Fewer than 64 ticks have passed since the L of the last change. -/
def Wing.levelFresh (w : Wing) : Bool := w.pwr.lastL != 0 && decide (w.now.toNat < w.pwr.lastL.toNat + 64)

/-- The level that the demand of 64 ticks asks for, with the run of low counts after this one. -/
def Wing.chosenLevel (w : Wing) : Level × Nat :=
  let d := w.pwr.dmax
  let cur := w.pwr.level
  if !w.levelAuto then (Level.ofCode w.fixedLevel, 0)
  else if 3 * w.levelBudget cur < 4 * d then
    let need := d + (d + 3) / 4
    (((levels.filter fun l => decide (need ≤ w.levelBudget l)).getLast?).getD (Level.ofCode w.fastLimit), 0)
  else
    match cur with
    | .p3 => (cur, 0)
    | _ =>
        let slower := Level.ofCode (cur.code + 1)
        if 2 * d ≤ w.levelBudget slower then
          (if 16 ≤ w.pwr.slowRun + 1 then slower else cur, w.pwr.slowRun + 1)
        else (cur, 0)

/-- LEVEL_CHOICE (R292), at a tick whose number is a multiple of 64. -/
def Wing.levelChoice (w : Wing) : Wing :=
  if w.isActive && decide (w.now.toNat % 64 = 0) then
    if w.levelOut || w.levelFresh then { w with pwr := { w.pwr with slowRun := 0 } }
    else
      let c := w.chosenLevel
      let l := w.permitted c.1
      { w with pwr := { w.pwr with slowRun := c.2, want := if l = w.pwr.level then none else some l } }
  else w

/-- The clock, the bias and the assist of level `l` (R288). -/
def Power.atLevel (p : Power) (l : Level) : Power := { p with bias := l.bias, assist := l.assist, divider := l.divider }

/-- The level changes, or a raise fails (R289 to R291), after which the bias too is that of the level kept (DEDUCED, log 118); `vok` is PWR_VOK at the close of tick L-1. -/
def Wing.switchLevel (w : Wing) (l : Level) (vok : Bool) : Wing :=
  let w0 := { w with pwr := { w.pwr with next := none, vok := none } }
  let up := decide (l.code.toNat < w.pwr.level.code.toNat)
  if up && !vok then
    let w1 := { w0 with pwr := { w0.pwr with
      vfail := true, vsel := w0.pwr.level.code.setWidth 3, bias := w0.pwr.level.bias } }.count cVfail
    if w1.ctl.role = .active then w1.place (.level { level := w1.pwr.level.code, tick := w1.now + 2 })
    else if w1.ctl.role = .standby then w1.withdrawNow
    else w1
  else
    let w1 := w0.countIf (l != w.pwr.level) cLevelChanges
    { w1 with
      pwr := { w1.pwr.atLevel l with level := l, vsel := l.code.setWidth 3, lastL := w.now, slowRun := 0 }
      hall := { w1.hall with p3since := if l = .p3 ∧ w.pwr.level ≠ .p3 then w.now else w1.hall.p3since } }

/-- The budgets of a tick that has begun follow the level that is now in force; what the tick has used counts. -/
def Wing.rebudget (w : Wing) : Wing :=
  let b := w.budget
  let left (x : Nat) : Nat := b - (w.pwr.given - x)
  { w with
    vst := { w.vst with arrLeft := left w.vst.arrLeft, clmLeft := left w.vst.clmLeft, cmpLeft := left w.vst.cmpLeft }
    pwr := { w.pwr with given := b } }

/-- LEVEL_CHANGE: PWR_VOK as checked at the close of tick L-1, and the switch in the first cycle of L. -/
def Wing.levelChange (w : Wing) (vok : Bool) : Wing :=
  match w.pwr.next with
  | some (l, t) =>
      if w.running && t == w.now + 1 then { w with pwr := { w.pwr with vok := some vok } }
      else if w.running && t == w.now then (w.switchLevel l vok).rebudget
      else w
  | none => w

/-! ## The pair's state (R298, R300, R315) -/

def Wing.pairPending (w : Wing) : Bool := (w.effW (oPwrPair + 4)).getLsbD 31
def Wing.pairNext (w : Wing) : BitVec 2 := (w.effD oPwrPair).extractLsb' 56 2
def Wing.pairTick (w : Wing) : Tick := (w.effD oPwrPair).extractLsb' 0 56

/-- PWR_PAIR stands in the frame under formation. -/
def Wing.pairPlaced (w : Wing) : Bool := w.psg.defr.any fun r => match r with
  | .regw x => x.space == 0 && x.addr == BitVec.ofNat 32 oPwrPair
  | _ => false

/-- The scheduled change is done, refused or past: PENDING clears in this wing. -/
def Wing.clearPair (w : Wing) : Wing :=
  let k := oPwrPair + 4
  let w1 := (w.setCfg k (w.cfgW k &&& 0x7FFFFFFF)).setEff k (w.effW k &&& 0x7FFFFFFF)
  { w1 with pwr := { w1.pwr with sched := none } }

/-- The wing's state follows PWR_PAIR: ACTIVE or STANDBY in duplex. -/
def Wing.inPair (w : Wing) : Bool := w.ctl.role == .standby || (w.ctl.role == .active && w.ctl.duplex)

/-- A change to `n` (NEXT of PWR_PAIR) is due in this tick. -/
def Wing.changeDue (w : Wing) (n : BitVec 2) : Bool :=
  (w.inPair && w.pairPending && w.pairNext == n && w.pairTick == w.now) || w.pwr.sched == some (n, w.now)

/-! ## Votes (R294) -/

/-- The manager's vote on this wing. -/
def Wing.managerVote (w : Wing) : BitVec 2 := (w.effW oPwrVote).extractLsb' (if w.id = .east then 0 else 2) 2

/-- The votes on the wing: the manager's, the study's in the active wing, and RUN while a resync runs. -/
def Wing.votes (w : Wing) : List (BitVec 2) :=
  [w.managerVote] ++ (if w.ctl.role = .active then [w.pwr.studyNap] else []) ++
    (if w.ctl.sendPos.isSome || w.ctl.joinPos.isSome then [0] else [])

/-- The granted state: 0 RUN, 1 NAP, 2 none; that of a standby is PWR_PAIR's. -/
def Wing.granted (w : Wing) : BitVec 2 :=
  if w.ctl.role = .standby then w.pairNext
  else if w.votes.contains 0 then 0
  else if w.votes.contains 1 then 1 else 2

/-! ## Quiet (R297) -/

/-- No context stands in the way of quiet. -/
def Wing.ctxsQuiet (w : Wing) (deep : Bool) : Bool :=
  w.ctxs.all fun c => match c.state with
    | .pending | .presented | .activePending => false
    | .active | .completed => !deep
    | .idle => true

/-- No arrival is held. -/
def Wing.arrivalsQuiet (w : Wing) : Bool :=
  w.vst.staged.isEmpty && w.vst.inbuf.isEmpty && w.vst.spill.all fun e => e.2.items.isEmpty

/-- Every journal entry that was collected is reported committed. -/
def Wing.journalsQuiet (w : Wing) : Bool :=
  (w.pch.entries.all fun e => e.2.isEmpty) && w.pch.deferred.isEmpty && w.pch.jseqAt.all fun e => e.2 == w.pch.jseqCommit

/-- A slice has no command, letter or quiesce under way. -/
def SliceSt.still (v : SliceSt) : Bool :=
  v.ucmds.isEmpty && v.descs.isEmpty && v.descReads.isEmpty && v.cmdTail == v.cmdHead && v.state != .quiescing &&
    v.inbox.isEmpty && v.outbox.isEmpty && v.job.isNone

/-- Every record that is owed is written. -/
def Wing.ringsQuiet (w : Wing) : Bool :=
  w.ring.blocks.isEmpty && w.ring.recOut.isEmpty && w.ring.finDue.isEmpty && w.sliceNums.all fun s => w.owed s == 0

/-- No change of level, role or peer is under way. -/
def Wing.changesQuiet (w : Wing) : Bool :=
  !w.levelOut && !w.handoverPending && w.ctl.sendPos.isNone && w.ctl.joinPos.isNone

/-- R297; `deep` adds what Deep asks for. -/
def Wing.isQuiet (w : Wing) (deep : Bool) : Bool :=
  w.ctxsQuiet deep && w.arrivalsQuiet && w.journalsQuiet && (w.sl.all fun e => e.2.still) && w.ringsQuiet && w.changesQuiet

/-! ## The study's vote (R294) -/

def Wing.napDelay (w : Wing) : Nat := ((w.effW oPwrCtrl).extractLsb' 8 8).toNat
def Wing.deepDelay (w : Wing) : Nat := ((w.effW oPwrCtrl).extractLsb' 16 8).toNat
def Wing.deepEn (w : Wing) : Bool := (w.effW oPwrCtrl).getLsbD 7

/-- The vote that the quiet ticks so far give. -/
def Wing.studyVote (w : Wing) : BitVec 2 :=
  let q := w.pwr.quiet.toNat
  if w.napDelay = 0 ∨ q < 16 * w.napDelay ∨ q = 0 then 0
  else if w.deepEn ∧ w.deepDelay * 4096 ≤ q then 2 else 1

/-! ## Refusals and exits (R299, R302 to R304, R314) -/

/-- Refusers of PWR_REFUSE_LOG. -/
def rfWing : WingId → BitVec 2
  | .east => 0
  | .west => 1
def rfPassage : BitVec 2 := 2
def rfHearth : BitVec 2 := 3

/-- Reasons of PWR_REFUSE_LOG. -/
def rsQuiet : BitVec 3 := 1
def rsWrite : BitVec 3 := 2
def rsBusy : BitVec 3 := 3
def rsSave : BitVec 3 := 4
def rsLane : BitVec 3 := 5
def rsVbat : BitVec 3 := 6
def rsAlarm : BitVec 3 := 7

/-- A refusal or abort of an entry at `e` is counted at its refuser, and logged if the log is free. -/
def Wing.noteRefusal (w : Wing) (refuser request : BitVec 2) (reason : BitVec 3) (e : Tick) : Wing :=
  let c := match refuser.toNat with
    | 0 => cRefuseEast
    | 1 => cRefuseWest
    | 2 => cRefusePassage
    | _ => cRefuseHearth
  { w with pwr := { w.pwr with refuseLog := logFirst w.pwr.refuseLog (refuseEntry refuser request reason e) } }.count c

/-- The wing is on its way into Nap or Deep. -/
def Wing.entering (w : Wing) : Bool := w.life == .napEntry || w.life == .deepEntry

/-- An entry is aborted: the wing stops there and leaves with this tick as w. -/
def Wing.abortEntry (w : Wing) (reason : BitVec 3) : Wing :=
  if w.entering && w.pwr.sched.isNone then
    let w1 := w.noteRefusal (rfWing w.id) (if w.life = .deepEntry then 2 else 1) reason w.pwr.enterTick
    { w1 with life := .napEntry }.scheduleExit { source := 0xB, detail := 0 } false
  else w

/-! ## The deadline of an acknowledgement (R13, R25, R303) -/

/-- ACK_DEADLINE, 160 ns into tick n+1: frame n is acknowledged, or missing. An acknowledgement that comes behind it is late (`takeAck`).
An entry to sleep in its first tick is then aborted. -/
def Wing.ackDeadline (w : Wing) : Wing :=
  if w.passageRuns && w.ctl.role == .active && w.ctl.duplex && w.ctl.hasTick then
    if w.psg.ackedValid && decide (w.now.toNat ≤ w.psg.acked.toNat + 1) then
      { w with psg := { w.psg with missing := 0, ackClosed := true } }
    else
      let w1 := { w with psg := { w.psg with missing := w.psg.missing + 1, ackClosed := true } }
      if w1.entering && w1.now == w1.pwr.enterTick then w1.abortEntry rsLane else w1
  else w

/-! ## The commands -/

/-- LEVEL_CHOICE (R292). -/
def execLevelChoice (w : WingId) (s : State) : Host.Outcome State Fault Refusal := nextWing s w Wing.levelChoice

/-- LEVEL_CHANGE (R289, R290). -/
def execLevelChange (w : WingId) (vok : Bool) (s : State) : Host.Outcome State Fault Refusal :=
  nextWing s w fun v => v.levelChange vok

/-- STUDY_VOTE (R294). -/
def execStudyVote (w : WingId) (s : State) : Host.Outcome State Fault Refusal :=
  nextWing s w fun v => if v.isActive then { v with pwr := { v.pwr with studyNap := v.studyVote } } else v

/-- ACK_DEADLINE (R13). -/
def execAckDeadline (w : WingId) (s : State) : Host.Outcome State Fault Refusal := nextWing s w Wing.ackDeadline

end Sys2Proof.Machine
end

