-- ==== Sys2Proof/Machine/Cellar.lean ====
section
/-! DEFINITION. What comes back from memory at the cellar port (03_vectors_pantry_cellar.md R70, R75, R80, R81), and the reloads of a
recovery (10_claims_and_takeover.md R279). -/

namespace Sys2Proof.Machine

/-! ## A read that failed twice (R70, R71) -/

/-- The slot among a read's causes that is being rebuilt. -/
def reloadSlot (cs : List FetchCause) : Option Nat :=
  cs.findSome? fun c => match c with
    | .reload n _ => some n
    | _ => none

def isInstallCause (c : FetchCause) : Bool := match c with
  | .install _ _ => true
  | _ => false

/-- The active wing: the vector is quarantined with one RECHECK record decided, the arrivals that wait are discarded, and the commands
that wait fail. -/
def Wing.readFails (w : Wing) (f : Fetch) : Wing :=
  let ok := w.recheckRoom
  let w1 := if ok then w else w.recheckLost 1
  let w2 := (w1.quarantine f.key).place (.quar { recheck := ok, key := f.key })
  let lost := (w2.vst.staged.filter fun o => o.key == f.key).map fun o => (o.cls, o.num, o.seq)
  let w3 := { w2 with
    vst := { w2.vst with doomed := w2.vst.doomed ++ lost }
    pan := { w2.pan with reloads := w2.pan.reloads.filter (·.key != f.key) } }
  (w3.finishCmds f.causes ccMemory Report.zero).admitKey f.key

/-- Any other wing: a context that the active wing has installed comes from the peer; a read of its own for an observation is
dropped, and an INSTALL that waited behind it starts its own. -/
def Wing.standbyFails (w : Wing) (f : Fetch) : Wing :=
  if f.causes.any isInstallCause then w.askContext f.key else w.resumeHold

/-! ## A read that returns (R74, R75, R279) -/

/-- A porch reports the vector in a slot, or an entry that names it waits. -/
def Wing.namedByPorch (w : Wing) (key : Word) : Bool :=
  (w.pch.slotRep.any fun e => e.2.any fun x => x.1 == key) || w.pch.deferred.any fun e => e.2.key == key

/-- The slot reports that name one vector (R113). -/
def Wing.reportsFor (w : Wing) (key : Word) : Wing :=
  w.pch.slotRep.foldl (fun w e =>
    match e.2.find? fun x => x.1 == key with
    | some x => (w.slotReported (BitVec.ofNat 8 e.1) key x.2).1
    | none => w) w

/-- The decision on the RECHECK record of an uncertain vector: cause RESYNC for one whose copy a recovery did not have whole (R279),
READ_FAIL otherwise (R341). -/
def Wing.recheckUncertain (w : Wing) (key : Word) (resync : Bool) : Wing :=
  let w1 := w.countIf resync cRecheck
  if w1.recheckRoom then
    w1.recordOrd 0 (w1.recheckRecord (if resync then 0x04 else 0x01) (keySlice key) (keyVV key) w1.now)
  else w1.recheckLost 1

/-- The context of a slot that is rebuilt from the cellar comes back: in recovery, an image in PRESENTED of an uncertain vector that
no porch names becomes PENDING; then the slot reports and entries that name it take effect. -/
def Wing.finishReload (w : Wing) (r : Reload) (c : Ctx) (causes : List FetchCause) : Wing :=
  let st := if r.copied && r.uncertain && c.state == .presented && !w.namedByPorch r.key then .pending else c.state
  let c1 := { c with state := st, pin := r.pin, touched := w.now }
  let w1 := { w with pan := { w.pan with
    reloads := w.pan.reloads.filter (·.slot != r.slot)
    slots := SMap.insert w.pan.slots r.slot { ctx := c1, steer := r.steer }
    recent := w.pan.recent ++ [(w.now, r.slot, c)] } }
  let w2 := (w1.count cInstall).place
    (.install { bank := bankOf r.slot, slot := slotOf r.slot, key := r.key, tag := c.tag })
  let w3 := if r.uncertain then w2.recheckUncertain r.key r.copied else w2
  (((w3.reportsFor r.key).applyAllDeferred).finishCmds causes 0 c.report).admitKey r.key

/-- The steps T and T+1 of a takeover run: the porches' replays are not applied yet. -/
def Wing.beforeReplays (w : Wing) : Bool := w.ctl.tkoPhase == some 0 || w.ctl.tkoPhase == some 1

/-- An image in the active wing; a reload that returns before the replays are applied waits for them, and one whose INSTALL finds no place
in the frame for the next. -/
def Wing.imageForActive (w : Wing) (f : Fetch) (c : Ctx) : Wing :=
  match (reloadSlot f.causes).bind fun n => w.pan.reloads.find? (·.slot == n) with
  | some r =>
      if w.beforeReplays || !w.mayCarry r.key then
        { w with pan := { w.pan with images := w.pan.images ++ [{ ctx := c, tick := w.now, causes := f.causes }] } }
      else w.finishReload r c f.causes
  | none => w.takeImage { ctx := c, tick := w.now, causes := f.causes }

/-- The reloads that waited for the replays, or for a place in the frame. -/
def Wing.settleReloads (w : Wing) : Wing :=
  let go (w : Wing) (i : Image) : Wing :=
    match w.pan.reloads.find? fun r => r.key == i.ctx.key with
    | some r =>
        if w.mayCarry r.key then w.finishReload r i.ctx i.causes
        else { w with pan := { w.pan with images := w.pan.images ++ [i] } }
    | none => w
  w.pan.images.foldl go { w with pan := { w.pan with images := [] } }

/-- An image in any other wing is held; records that wait for it go on. A joining wing puts a context of its own that it could not read
back into its slot (R341, R342). -/
def Wing.imageForOther (w : Wing) (f : Fetch) (c : Ctx) : Wing :=
  match (reloadSlot f.causes).bind fun n => w.pan.reloads.find? fun r => r.slot == n && !r.copied with
  | some r =>
      let c1 := { c with pin := r.pin, touched := w.now, dirty := r.uncertain, dirtyAt := w.now }
      { w with pan := { w.pan with
          reloads := w.pan.reloads.filter (·.slot != r.slot)
          slots := SMap.insert w.pan.slots r.slot { ctx := c1, steer := r.steer } } }.resumeHold
  | none =>
      let i : Image := { ctx := c, tick := w.now, causes := f.causes }
      let held : List Image := (w.pan.images.filter fun (x : Image) => x.ctx.key != f.key) ++ [i]
      { w with pan := { w.pan with images := held } }.resumeHold

/-- CELLAR_READ_RETURN (R70). -/
def Wing.cellarReturn (w : Wing) (key : Word) (rsp : Option (BitVec 256)) : Wing :=
  match w.pan.fetches.find? (fun f => f.key == key && f.issued) with
  | none => w
  | some f =>
      let good := rsp.filter fun e => tagOk w.key e key domainVector
      let gone := { w with pan := { w.pan with fetches := w.pan.fetches.filter (·.key != key) } }.useReads
      match good with
      | some e =>
          let c := ctxOfImage key e w.now
          if w.ownsFrame then gone.imageForActive f c else gone.imageForOther f c
      | none =>
          if !f.retried then
            let again (x : Fetch) : Fetch := if x.key = key then { x with retried := true } else x
            ({ w with pan := { w.pan with fetches := w.pan.fetches.map again } }.count cReadRetry).emitRead
              (w.entryAddr key) 32
          else
            let w1 := gone.count cReadFail
            if w1.ownsFrame then w1.readFails f else w1.standbyFails f

/-! ## Writes (R80, R81) -/

/-- The first image of the vector leaves the write buffer. -/
def dropBuf (key : Word) : List (Word × BitVec 256 × Tick) → List (Word × BitVec 256 × Tick)
  | [] => []
  | e :: es => if e.1 = key then es else e :: dropBuf key es

/-- An unfinished VEC_RESET that waits for no read: it was admitted on a quarantined vector (R71). -/
def Wing.quarReset (w : Wing) (ring : BitVec 12) (u : UCmd) : Bool :=
  u.opcode == opVecReset && !w.finishPlaced ring u && !w.ring.finDue.any (fun d => d.ring == ring && d.pos == u.pos) &&
    !(w.pan.fetches.any fun f => f.causes.contains (.cmd ring u.pos)) &&
    !w.pan.waiting.any fun i => i.causes.contains (.cmd ring u.pos)

/-- VEC_RESET commands of a vector that was quarantined at their admission, whose initial image is now written. -/
def Wing.finishQuarResets (w : Wing) (key : Word) : Wing :=
  w.sl.foldl (fun w e =>
    let ring := BitVec.ofNat 12 e.1
    e.2.ucmds.foldl (fun w u =>
      if w.quarReset ring u && cmdKey ring u.target == key then w.finish ring u.pos 0 Report.zero 0 else w) w) w

/-- Initial images that waited for room in the write buffer are written (R81). -/
def Wing.writeInitials (w : Wing) : Wing :=
  w.sl.foldl (fun w e =>
    let ring := BitVec.ofNat 12 e.1
    e.2.ucmds.foldl (fun w u =>
      let key := cmdKey ring u.target
      if w.quarReset ring u && !(w.pan.wbuf.any fun e => e.1 == key) then w.writeInitial key else w) w) w

/-- The cleaner writes at the fast rate: more than 2,048 contexts are dirty, a FLUSH is unfinished, or the wing enters Nap or Deep. -/
def Wing.fastClean (w : Wing) : Bool :=
  decide (2048 < w.dirtyCount) || !w.flushes.isEmpty || w.life == .napEntry || w.life == .deepEntry

/-- WRITE_BACK_ACCEPTED: a context is clean when nothing changed since the write was issued; a write that the port answered with
ERROR is issued again, but for a second ERROR in an entry to sleep, which aborts the entry (R299). A wing that has left the active role
only lets the entry go (R79). -/
def Wing.writeAccepted (w : Wing) (key : Word) (ok : Bool) : Wing :=
  match w.pan.wbuf.find? (·.1 == key) with
  | none => w
  | some e =>
      if w.ctl.role ≠ .active then { w with pan := { w.pan with wbuf := dropBuf key w.pan.wbuf } }
      else if !ok then
        if w.entering && w.pwr.wbRetried.contains key then w.abortEntry rsWrite
        else
          { w with pwr := { w.pwr with wbRetried := if w.entering then key :: w.pwr.wbRetried else w.pwr.wbRetried } }.emitWrite
            (w.entryAddr key) 32 (e.2.1.setWidth 512)
      else
        let w1 := { w with pan := { w.pan with wbuf := dropBuf key w.pan.wbuf } }
        let w2 := w1.modCtx key fun c =>
          if c.wbFresh && !(w1.pan.wbuf.any (·.1 == key)) then { c with dirty := false, wbFresh := false } else c
        let w3 := w2.finishQuarResets key
        let w4 := w3.writeInitials
        (if w4.fastClean then w4.clean 1 else w4).finishFlushes

/-! ## The commands -/

def execCellarReadReturn (w : WingId) (key : Word) (rsp : Option (BitVec 256)) (s : State) :
    Host.Outcome State Fault Refusal :=
  nextWing s w fun v => if v.running then v.cellarReturn key rsp else v

/-- STANDBY_IMAGE_EXPIRY (R75): an image held for 16 ticks is dropped. -/
def execStandbyImageExpiry (w : WingId) (key : Word) (s : State) : Host.Outcome State Fault Refusal :=
  nextWing s w fun v =>
    if v.receives then
      { v with pan := { v.pan with images := v.pan.images.filter fun i =>
          !(i.ctx.key == key && decide (i.tick.toNat + 16 ≤ v.now.toNat)) } }
    else v

/-- SPILL_RETURN (R54): room in the spill ring lets the input buffer drain (R55). -/
def execSpillReturn (w : WingId) (slice : BitVec 12) (rsp : Option (BitVec 512)) (s : State) :
    Host.Outcome State Fault Refusal :=
  nextWing s w fun v => if v.running then (v.spillReturn slice rsp).drainAll else v

end Sys2Proof.Machine
end

