-- ==== Sys2Proof/Machine/Integrity.lean ====
section
/-! DEFINITION. Voted fields, ECC, the signature pass, wear and spares (13_integrity_and_spares.md). -/

namespace Sys2Proof.Machine

/-! ## Voted fields (R336 to R338) -/

/-- A word flipped where `m` is set, in both its stored and its effective value. -/
def Wing.flipBits (w : Wing) (k : Nat) (m : Word) : Wing := (w.setCfg k (w.cfgW k ^^^ m)).setEff k (w.effW k ^^^ m)

/-- The signature pass under way has read the word: it reads 64 bytes of the signed space per tick (R345). -/
def Wing.passHasRead (w : Wing) (k : Nat) : Bool := decide (w.int.passAt.toNat + k / 64 < w.now.toNat)

/-- A voted word holds a wrong majority. The running signature does not follow, since no write was made (R344); a signature pass that has
read the word already does not see it either. -/
def Wing.flipWord (w : Wing) (k : Nat) (m : Word) : Wing :=
  let v := w.flipBits k m
  if w.passHasRead k then
    { v with int := { v.int with passMiss := v.int.passMiss ^^^ signatureOf w.signedWords ^^^ signatureOf v.signedWords } }
  else v

/-- The registers that hold lock bits, by the INDEX of field 0x08. -/
def lockReg (i : Nat) : Nat := if i = 0 then oCfgLock else if i = 1 then oTimeLock else oIntCtrl

/-- A STATE field flipped where `m` is set. -/
def Phys.flip (p : Phys) (m : BitVec 96) : Phys := { p with state := p.state ^^^ m.extractLsb' 0 3 }

/-- Entry `i` of the repair map flipped: REP_BANK, REP_SLICE, then the STATE fields of the banks and of the scan slices. -/
def Integ.flipMap (v : Integ) (i : Nat) (m : BitVec 96) : Integ :=
  let low (x : Nat) (k : Nat) : Nat := x ^^^ (m.toNat % 2 ^ k)
  if i < 64 then
    let b := low (SMap.get v.repBank i i) 7
    { v with repBank := SMap.set v.repBank i i b }
  else if i < 72 then
    let b := low (SMap.get v.repSlice (i - 64) (i - 64)) 4
    { v with repSlice := SMap.set v.repSlice (i - 64) (i - 64) b }
  else if i < 140 then
    let p := Phys.resetBank (i - 72)
    let q := (SMap.get v.physBank p (i - 72)).flip m
    { v with physBank := SMap.set v.physBank p (i - 72) q }
  else
    let p := Phys.resetSlice (i - 140)
    let q := (SMap.get v.physSlice p (i - 140)).flip m
    { v with physSlice := SMap.set v.physSlice p (i - 140) q }

/-- A held first write flipped: VALUE, requester identity, and its tick. -/
def DualHeld.flip (h : DualHeld) (m : BitVec 96) : DualHeld :=
  { h with val := h.val ^^^ m.extractLsb' 0 32, req := h.req ^^^ m.extractLsb' 32 8
           at_ := h.at_ ^^^ ((m.extractLsb' 40 56 : BitVec 56).setWidth 64 : DWord) }

/-- A voted field whose majority is wrong in the bits of `m` holds the majority from now on. -/
def Wing.flipField (w : Wing) (code : Byte) (i : Nat) (m : BitVec 96) : Wing :=
  let low : Word := m.extractLsb' 0 32
  match code.toNat with
  | 0x01 => { w with ctl := { w.ctl with claim := w.ctl.claim ^^^ low } }
  | 0x02 => { w with ctl := { w.ctl with seen := w.ctl.seen ^^^ low } }
  | 0x03 =>
      let c := w.ctl.role.code ^^^ (m.extractLsb' 0 2 : BitVec 2)
      { w with ctl := { w.ctl with
        role := if c = 0 then .active else if c = 1 then .standby else if c = 2 then .joining else .orphan } }
  | 0x04 => w.flipWord oTkoHome (low &&& rwMask oTkoHome)
  | 0x05 => w.flipWord oTkoForce (low &&& rwMask oTkoForce)
  | 0x06 => w.flipWord (oAlmRoute (i % 16)) (low)
  | 0x07 => w.flipWord oEngEsc (low &&& rwMask oEngEsc)
  | 0x08 => w.flipWord (lockReg i) (low &&& lockMask (lockReg i))
  | 0x09 => { w with regs := { w.regs with
      dual := w.regs.dual.map fun h => if dualBit h.addr = some i then h.flip m else h } }
  | 0x0A => (w.flipWord oIntSigRef (low)).flipWord (oIntSigRef + 4) (m.extractLsb' 32 32 &&& rwMask (oIntSigRef + 4))
  | 0x0B => { w with int := w.int.flipMap i m }
  | _ => w

/-- The bits in which at least two copies are wrong. -/
def voteMajority (f : VoteFind) : BitVec 96 := (f.err0 &&& f.err1) ||| (f.err0 &&& f.err2) ||| (f.err1 &&& f.err2)

/-- All three copies agree. -/
def voteWhole (f : VoteFind) : Bool := f.err0 == f.err1 && f.err1 == f.err2

/-- The copies are pairwise different. -/
def voteIsSplit (f : VoteFind) : Bool := f.err0 != f.err1 && f.err1 != f.err2 && f.err0 != f.err2

/-- One voted read. -/
def Wing.voteRead (w : Wing) (f : VoteFind) : Wing :=
  let w1 := if (voteMajority f) = 0 then w else w.flipField f.code f.index.toNat (voteMajority f)
  if voteWhole f then w1
  else
    let w2 := { w1 with int := { w1.int with
      voteLog := logFirst w1.int.voteLog (voteEntry (voteIsSplit f) f.code f.index w.now)
      voteSplit := w1.int.voteSplit || (voteIsSplit f) } }
    if (voteIsSplit f) then (w2.count cVoteSplit).giveWay false else w2.count cVoteFix

/-! ## Units and their wear (R349, R350, R358) -/

def Wing.physBank (w : Wing) (p : Nat) : Phys := SMap.get w.int.physBank (Phys.resetBank p) p

def Wing.setPhysBank (w : Wing) (p : Nat) (v : Phys) : Wing :=
  { w with int := { w.int with physBank := SMap.set w.int.physBank (Phys.resetBank p) p v } }

def Wing.setPhysSlice (w : Wing) (p : Nat) (v : Phys) : Wing :=
  { w with int := { w.int with physSlice := SMap.set w.int.physSlice (Phys.resetSlice p) p v } }

/-- The physical bank behind a logical bank. -/
def Wing.repBank (w : Wing) (b : Nat) : Nat := SMap.get w.int.repBank b b

def Wing.wearCtrl (w : Wing) : Word := w.effW oIntWearCtrl
def Wing.bankLimit (w : Wing) : Nat := (w.wearCtrl.extractLsb' 0 8).toNat
def Wing.sliceLimit (w : Wing) : Nat := (w.wearCtrl.extractLsb' 8 4).toNat
def Wing.laneLostLimit (w : Wing) : Nat := (w.wearCtrl.extractLsb' 12 4).toNat
def Wing.laneCorrLimit (w : Wing) : Nat := (w.wearCtrl.extractLsb' 24 8).toNat * 4096
def Wing.wearWindow (w : Wing) : Nat := 2 ^ (w.wearCtrl.extractLsb' 19 5).toNat

/-- The number of a scan slice in the lists of worn units. -/
def sliceUnit (p : Nat) : Nat := 128 + p

/-- The number of a lane among the units without a spare. -/
def laneUnit (l : Nat) : Nat := 192 + l

def Wing.markWorn (w : Wing) (u : Nat) : Wing :=
  if w.int.worn.contains u then w else { w with int := { w.int with worn := w.int.worn ++ [u] } }

/-- WEAR reached the limit of its window. -/
def overLimit (limit : Nat) (wear : BitVec 16) : Bool := limit != 0 && decide (limit ≤ wear.toNat)

/-- A corrected error of a bank or of a scan slice. -/
def Wing.wearBank (w : Wing) (p : Nat) : Wing :=
  let v := { w.physBank p with wear := satInc (w.physBank p).wear }
  (w.setPhysBank p v).when (overLimit w.bankLimit v.wear) fun x => x.markWorn p

def Wing.wearSlice (w : Wing) (p : Nat) : Wing :=
  let v := { w.physSlice p with wear := satInc (w.physSlice p).wear }
  (w.setPhysSlice p v).when (overLimit w.sliceLimit v.wear) fun x => x.markWorn (sliceUnit p)

/-- An uncorrectable error of a bank or of a scan slice. -/
def Wing.breakBank (w : Wing) (p : Nat) : Wing :=
  (w.setPhysBank p { w.physBank p with uncorr := satInc (w.physBank p).uncorr }).markWorn p

def Wing.breakSlice (w : Wing) (p : Nat) : Wing :=
  (w.setPhysSlice p { w.physSlice p with uncorr := satInc (w.physSlice p).uncorr }).markWorn (sliceUnit p)

/-- A failed unit (R350). -/
def Wing.bankFailed (w : Wing) (p : Nat) : Bool := decide (2 ≤ (w.physBank p).uncorr.toNat) || w.int.lostTwice.contains p
def Wing.sliceFailed (w : Wing) (p : Nat) : Bool := decide (2 ≤ (w.physSlice p).uncorr.toNat)

def Wing.wearAuto (w : Wing) : Bool := (w.effW oIntCtrl).getLsbD 0

/-- The unit is being moved. -/
def Wing.moving (w : Wing) (slice : Bool) (p : Nat) : Bool :=
  match w.int.move with
  | some m => m.slice == slice && m.old == p
  | none => false

/-- The units in service that are worn, or failed if `worn` is not set, and not being moved (R350). -/
def Wing.badBanks (w : Wing) (worn : Bool) : List Nat :=
  (List.range 68).filter fun p =>
    (w.physBank p).state == 1 && !w.moving false p && (w.bankFailed p || (worn && w.int.worn.contains p))

def Wing.badSlices (w : Wing) (worn : Bool) : List Nat :=
  (List.range 9).filter fun p =>
    (w.physSlice p).state == 1 && !w.moving true p && (w.sliceFailed p || (worn && w.int.worn.contains (sliceUnit p)))

/-- The logical bank behind `p` was lost and is being rebuilt (R311). -/
def Wing.bankRebuilds (w : Wing) (p : Nat) : Bool :=
  w.pan.reloads.any fun r => r.lostBank && SMap.get w.int.repBank (r.slot / 256) (r.slot / 256) == p

/-- The units that are to move: failed ones, and worn ones under WEAR_AUTO (R351). -/
def Wing.dueBanks (w : Wing) : List Nat := (w.badBanks w.wearAuto).filter fun p => !w.bankRebuilds p
def Wing.dueSlices (w : Wing) : List Nat := w.badSlices w.wearAuto

def Wing.spareBank (w : Wing) : Option Nat := (List.range 68).find? fun p => (w.physBank p).state == 0
def Wing.spareSlice (w : Wing) : Option Nat := (List.range 9).find? fun p => (w.physSlice p).state == 0

/-! ## No spare left (R355) -/

/-- A worn unit stays in service: SPARE_OUT, counted once for each unit. -/
def Wing.noSpare (w : Wing) (u : Nat) : Wing :=
  if w.int.outCounted.contains u then w
  else { w with int := { w.int with spareOut := true, outCounted := w.int.outCounted ++ [u] } }.count cSpareOut

/-- The wing is ACTIVE with a STANDBY peer. -/
def Wing.activeDuplex (w : Wing) : Bool := w.ctl.role == .active && w.ctl.duplex

/-- A failed unit without a spare: in duplex the active wing gives way and the standby withdraws, each to become SPENT; in simplex a scan
slice is doubled, and a bank stays in service until the Turpen is in duplex again. -/
def Wing.failedNoSpare (w : Wing) (u : Nat) : Wing :=
  let spent (v : Wing) : Wing := { v with ctl := { v.ctl with spentNext := true } }
  if w.activeDuplex then (if w.ctl.spentNext then w else spent (w.giveWay false))
  else if w.ctl.role = .standby then spent w.withdraw
  else if w.ctl.role = .active ∧ 128 ≤ u then w.setPhysSlice (u - 128) { w.physSlice (u - 128) with state := 4 }
  else w

/-- Worn and failed units that have no spare of their kind. -/
def Wing.settleSpares (w : Wing) : Wing :=
  let banks := if w.spareBank.isNone then w.badBanks true else []
  let slices := if w.spareSlice.isNone then w.badSlices true else []
  let w1 := banks.foldl (fun w p => (w.noSpare p).when (w.bankFailed p) fun x => x.failedNoSpare p) w
  slices.foldl (fun w p => (w.noSpare (sliceUnit p)).when (w.sliceFailed p) fun x => x.failedNoSpare (sliceUnit p)) w1

/-! ## ECC (R340, R341) -/

/-- The context of slot `n` is poisoned. -/
def Wing.poisonSlot (w : Wing) (n : Nat) : Wing :=
  match SMap.find? w.pan.slots n with
  | some s => w.setSlots (SMap.insert w.pan.slots n { s with ctx := { s.ctx with poisoned := true } })
  | none => w

/-- Slot `n` takes no install until wing reset; a slot is fenced once. -/
def Wing.fence (w : Wing) (n : Nat) : Wing :=
  if w.pan.fenced.contains n then w
  else
    let p := w.repBank (n / 256)
    let w1 := { w with pan := { w.pan with fenced := w.pan.fenced ++ [n] } }
    (w1.setPhysBank p { w1.physBank p with fenced := (w1.physBank p).fenced + 1 }).count cFenced

/-- The context of slot `n` is lost in place; the directory keeps its key, pin and steering entry. -/
def Wing.loseSlot (w : Wing) (n : Nat) (s : Slot) (uncertain : Bool) : Wing :=
  let r : Reload := { slot := n, key := s.ctx.key, pin := s.ctx.pin, steer := s.steer, uncertain := uncertain, copied := false
                      lostBank := false, parts := [] }
  { w with pan := { w.pan with slots := SMap.erase w.pan.slots n, reloads := w.pan.reloads ++ [r] } }

/-- The vector of a fenced slot is read again as a cold one; with `pinned` the directory shows the manager's pin, which it keeps (R78). Only
an active wing writes a RECHECK record (DEDUCED, log 112). -/
def Wing.fenceAndReload (w : Wing) (n : Nat) (s : Slot) (recheck pinned : Bool) : Wing :=
  let w1 := (w.setSlots (SMap.erase w.pan.slots n)).fence n
  let w2 := w1.when (recheck && w1.ctl.role == .active) fun x => x.recheckUncertain s.ctx.key false
  (w2.addFetch s.ctx.key .arrival).when pinned fun x => x.addFetch s.ctx.key .repin

/-- The slot's bank has failed and has no spare (R355). -/
def Wing.slotFails (w : Wing) (n : Nat) : Bool := w.bankFailed (w.repBank (n / 256)) && w.spareBank.isNone

/-- A pantry context cannot be read. A wing in simplex, and a joining one, reads it again from the cellar (R342); an empty slot holds
nothing to poison or to read again. -/
def Wing.contextLost (w : Wing) (n : Nat) : Wing :=
  match SMap.find? w.pan.slots n with
  | none =>
      if w.activeDuplex then w.giveWay false
      else w.when (w.ctl.role != .standby && w.slotFails n) fun x => x.fence n
  | some s =>
      if w.activeDuplex then (w.poisonSlot n).giveWay false
      else if w.ctl.role = .standby then (w.loseSlot n s false).askContext s.ctx.key
      else if w.slotFails n then w.fenceAndReload n s s.ctx.dirty s.ctx.pin
      else (w.loseSlot n s s.ctx.dirty).addFetch s.ctx.key (.reload n s.ctx.dirty)

/-- A directory or steering entry cannot be read: the PIN in it is lost with it. -/
def Wing.directoryLost (w : Wing) (n : Nat) : Wing :=
  if w.activeDuplex then (w.poisonSlot n).giveWay false
  else if w.ctl.role = .standby then w.withdraw
  else
    match SMap.find? w.pan.slots n with
    | some s => w.fenceAndReload n s true false
    | none => w.fence n

/-- A staged arrival cannot be read: it is held poisoned in duplex, forgotten by a standby, which is then filled, and discarded like a lost
spill entry in simplex and by a joining wing (R342). -/
def Wing.obsLost (w : Wing) (o : Obs) : Wing :=
  if w.activeDuplex then
    { w with vst := { w.vst with poison := w.vst.poison ++ [(o.cls, o.num, o.seq)] } }.giveWay false
  else if w.ctl.role = .standby then { w with vst := { w.vst with staged := w.vst.staged.filter (· != o) } }
  else { w with vst := { w.vst with spillLost := w.vst.spillLost ++ [(o.cls, o.num, o.seq)] } }.count cSpillLost

/-- A write in the input buffer, the `j`th, cannot be read. An arrival keeps its place in the count of its slice (R44), and goes the way
of a staged one. -/
def Wing.writeLost (w : Wing) (j : Nat) (a : AptWrite) : Wing :=
  let ahead (x : BitVec 4 × BitVec 20 × Byte × Nat) : BitVec 4 × BitVec 20 × Byte × Nat :=
    (x.1, x.2.1, x.2.2.1, if j < x.2.2.2 then x.2.2.2 - 1 else x.2.2.2)
  let w1 := { w with vst := { w.vst with inbuf := w.vst.inbuf.eraseIdx j, drnWait := w.vst.drnWait.map ahead } }
  if isArrivalWrite a then
    let o := if AptRange.of a.pageOff = .native then nativeObs a else msiObs a
    let i := originIx o.cls o.num
    let q := w1.seqOf i + 1
    let o1 : Obs := { o with seq := q, reg := w1.now }
    let w2 := (w1.setSeq i q).count cRegistered
    { w2 with vst := { w2.vst with staged := w2.vst.staged ++ [o1] } }.obsLost o1
  else if w1.activeDuplex then w1.giveWay false else w1

/-- A staged arrival, or an entry of the input buffer behind those, cannot be read. -/
def Wing.arrivalLost (w : Wing) (i : Nat) : Wing :=
  match w.vst.staged[i]? with
  | some o => w.obsLost o
  | none =>
      let j := i - w.vst.staged.length
      match w.vst.inbuf[j]? with
      | some e => w.writeLost j e.1
      | none => w

/-- A filter entry cannot be read. -/
def Wing.filterLost (w : Wing) (i : Nat) : Wing :=
  if w.activeDuplex then
    let w1 := match SMap.find? w.vst.filter i with
      | some e => { w with vst := { w.vst with filter := SMap.insert w.vst.filter i { e with poisoned := true } } }
      | none => w
    w1.giveWay false
  else if w.ctl.role = .standby then w.withdraw
  else { w with vst := { w.vst with filter := SMap.erase w.vst.filter i } }

/-- What a mirrored word of the configuration region holds after wing reset; PCH_IMG is the image of PCH_CFG. -/
def Wing.regionReset (w : Wing) (a : Nat) : Word :=
  if 0x70000 ≤ a ∧ a < 0x70400 then cfgDefault w.portGen (ikey (a + 0x10000)) else cfgDefault w.portGen (ikey a)

/-- A configuration word cannot be read. -/
def Wing.configLost (w : Wing) (a : Nat) : Wing :=
  if w.activeDuplex then w.giveWay true
  else if w.ctl.role = .standby then w.withdraw
  else
    let b := a / 8 * 8
    let w1 := w.withSigned fun x => x.loadRegion b (w.regionReset (b + 4) ++ w.regionReset b)
    { w1 with int := { w1.int with cfgLost := true } }

/-- An entry of the cellar write buffer is formed again from its context and issued. That of a context which has left the pantry has no other
source than the buffer (DEDUCED, log 113). -/
def Wing.writeAgain (w : Wing) (i : Nat) : Wing :=
  match w.pan.wbuf[i]? with
  | some (key, old, t) =>
      let (e, at_) : BitVec 256 × Tick := match w.ctx? key with
        | some c => (withTag w.key c.image key domainVector, c.dirtyAt)
        | none => (old, t)
      let w1 := { w with pan := { w.pan with wbuf := w.pan.wbuf.set i (key, e, at_) } }
      (w1.modCtx key fun c => { c with wbFresh := c.dirty }).emitWrite (w.entryAddr key) 32 (e.setWidth 512)
  | none => w

/-- The word is of a scan slice's candidate list, not of a cluster list (R340). -/
def eccOfSlice (f : EccFind) : Bool := decide (f.unit.toNat < 9)

/-- An uncorrectable read is flagged, counted, and logged if the log is free. -/
def Wing.noteUnreadable (w : Wing) (f : EccFind) : Wing :=
  { w with int := { w.int with
    eccUncorr := true, eccLog := logFirst w.int.eccLog (eccEntry f.array f.index) } }.count cEccUncorr

/-- An uncorrectable read, handled by array and role. -/
def Wing.unreadable (w : Wing) (f : EccFind) : Wing :=
  let w1 := w.noteUnreadable f
  match f.array.toNat with
  | 1 => (w1.breakBank f.unit.toNat).contextLost f.index.toNat
  | 2 => w1.directoryLost f.index.toNat
  | 3 => w1.arrivalLost f.index.toNat
  | 4 => w1.filterLost f.index.toNat
  | 5 => w1.configLost f.index.toNat
  | 6 => w1.when (eccOfSlice f) fun x => x.breakSlice f.unit.toNat
  | 8 => w1.writeAgain f.index.toNat
  | _ => w1

/-- One read with an ECC error. -/
def Wing.eccRead (w : Wing) (f : EccFind) : Wing :=
  if f.corrected then
    match f.array.toNat with
    | 1 => w.wearBank f.unit.toNat
    | 6 => if eccOfSlice f then w.wearSlice f.unit.toNat else w.count cEccCorr
    | _ => w.count cEccCorr
  else w.unreadable f

def Wing.eccReads (w : Wing) (l : List EccFind) : Wing :=
  if l = [] then w else (l.foldl Wing.eccRead w).settleSpares

/-! ## Signatures (R345, R348) -/

/-- What the pass has read: the signed space as its arrays hold it now, less what upsets have changed behind the pass. A change by a write is
folded in, or was read (R345, R356). -/
def Wing.passResult (w : Wing) : Word := signatureOf w.signedWords ^^^ w.int.passMiss

/-- The end of a signature pass, whose result replaces a running value that differs. The frame of this tick still carries the value of the
tick (R344): the comparisons see the difference from the next tick. -/
def Wing.passEnd (w : Wing) : Wing :=
  let w1 := { w with int := { w.int with passAt := w.now, passMiss := 0 } }.count cSigPasses
  let own := w.int.sigRun
  let result := w.passResult
  if result = own then w1
  else ({ w1 with int := { w1.int with
      sigs := w1.int.keepSig w.now, sigRun := result, sigSelf := true } }.count cSigSelf).logSig 0b11 result own

/-! ## Wear windows and moves (R350 to R354) -/

/-- Every WEAR restarts at 0, and the lanes' growth is counted from here. -/
def Wing.wearRestart (w : Wing) : Wing :=
  let zero (e : Nat × Phys) : Nat × Phys := (e.1, { e.2 with wear := 0 })
  let banks := (w.int.physBank.map zero).filter fun (e : Nat × Phys) => e.2 != Phys.resetBank e.1
  let slices := (w.int.physSlice.map zero).filter fun (e : Nat × Phys) => e.2 != Phys.resetSlice e.1
  let lane (m : SMap Lane) (l : Nat) : SMap Lane :=
    SMap.set m Lane.reset l { SMap.get m Lane.reset l with
      corrAt := w.ctr (cBlkCorr l), lostAt := w.ctr (cBlkLost l), naks := 0 }
  { w with
    int := { w.int with physBank := banks, physSlice := slices }
    psg := { w.psg with lanes := (List.range 4).foldl lane w.psg.lanes } }

/-- A CARRY lane is worn: its growth in this window reached a limit. -/
def Wing.laneWorn (w : Wing) (l : Nat) : Bool :=
  let v := SMap.get w.psg.lanes Lane.reset l
  let corr := (w.ctr (cBlkCorr l) - v.corrAt).toNat
  let lost := (w.ctr (cBlkLost l) - v.lostAt).toNat + v.naks
  (w.laneCorrLimit != 0 && decide (w.laneCorrLimit ≤ corr)) || (w.laneLostLimit != 0 && decide (w.laneLostLimit ≤ lost))

/-- The study may start a move: no sleep is named, and no unit is being moved. -/
def Wing.mayMove (w : Wing) : Bool :=
  w.running && !(w.effW (oPwrPair + 4)).getLsbD 31 && w.pwr.sched.isNone && w.int.move.isNone

/-- The logical unit that a physical one serves. -/
def Wing.logicalBank (w : Wing) (p : Nat) : Option Nat := (List.range 64).find? fun b => w.repBank b == p
def Wing.logicalSlice (w : Wing) (p : Nat) : Option Nat := (List.range 8).find? fun b => w.repSlice b == p

/-- SOURCE codes of BANK_WAKE (R315). -/
def bwReset : Word := 1
def bwNapExit : Word := 2
def bwDeepExit : Word := 3
def bwSpareIn : Word := 4
def bwRebuild : Word := 5

def Wing.noteBankWake (w : Wing) (p : Nat) (source : Word) : Wing :=
  { w with pwr := { w.pwr with bankWake := SMap.set w.pwr.bankWake 0 p source } }

/-- Physical bank `a` gives its logical bank to spare `s` (R352). -/
def Wing.moveBank (w : Wing) (a s : Nat) : Wing :=
  match w.logicalBank a with
  | none => w
  | some b =>
      let w1 := (w.setPhysBank s { w.physBank s with state := 1 }).noteBankWake s bwSpareIn
      let w2 := w1.setPhysBank a { w1.physBank a with state := 3 }
      { w2 with int := { w2.int with repBank := SMap.set w2.int.repBank b b s } }.count cMigrateBank

/-- Physical scan slice `a` gives its logical slice to spare `s` (R353). -/
def Wing.moveSlice (w : Wing) (a s : Nat) : Wing :=
  match w.logicalSlice a with
  | none => w
  | some b =>
      let w1 := w.setPhysSlice s { w.physSlice s with state := 1 }
      let w2 := w1.setPhysSlice a { w1.physSlice a with state := 3 }
      { w2 with int := { w2.int with repSlice := SMap.set w2.int.repSlice b b s } }.count cMigrateSlice

/-- A move begins: the spare is MIGRATING, and initialised within 4 ticks. -/
def Wing.startMove (w : Wing) (slice : Bool) (a s : Nat) : Wing :=
  let w1 := if slice then w.setPhysSlice s { w.physSlice s with state := 2 }
    else (w.setPhysBank s { w.physBank s with state := 2 }).noteBankWake s bwSpareIn
  { w1 with int := { w1.int with
    move := some { slice := slice, old := a, spare := s, ready := w1.now + 4, scan := none } } }.settleSpares

/-- BANK_MOVE: the lowest-numbered bank that is due moves into the lowest-numbered spare. -/
def Wing.bankMove (w : Wing) : Wing :=
  if !w.mayMove then w
  else match w.dueBanks, w.spareBank with
    | a :: _, some s => w.startMove false a s
    | _, _ => w

/-- SCAN_SLICE_MOVE: after the banks. -/
def Wing.sliceMove (w : Wing) : Wing :=
  if !w.mayMove || (!w.dueBanks.isEmpty && w.spareBank.isSome) then w
  else match w.dueSlices, w.spareSlice with
    | a :: _, some s => w.startMove true a s
    | _, _ => w

/-- The move is done: the map names the spare, and the worn unit is RETIRED. -/
def Wing.endMove (w : Wing) (m : UnitMove) : Wing :=
  let w1 := { w with int := { w.int with move := none } }
  (if m.slice then w1.moveSlice m.old m.spare else w1.moveBank m.old m.spare).settleSpares

/-- A scan begins at the boundary that opens this tick: every tick, and at P3 the rotation reaches slot 0. -/
def Wing.scanBegins (w : Wing) : Bool :=
  w.pwr.level != .p3 || decide ((w.now.toNat - w.hall.p3since.toNat) % 2 = 0)

/-- The ticks of a copy scan. -/
def Wing.scanTicks (w : Wing) : Nat := if w.pwr.level = .p3 then 2 else 1

/-- A move goes on at the boundary that opens this tick (R352, R353): the copy scan begins with a scan once the spare is initialised, and
the map changes after it; a scan slice needs no copy, nor does a bank of a wing that holds no trusted contexts. -/
def Wing.moveStep (w : Wing) : Wing :=
  match w.int.move with
  | none => w
  | some m =>
      if decide (w.now.toNat < m.ready.toNat) then w
      else if m.slice then (if w.scanBegins then w.endMove m else w)
      else if !(w.ctl.role == .active || w.ctl.role == .standby) then w.endMove m
      else match m.scan with
        | none => if w.scanBegins then { w with int := { w.int with move := some { m with scan := some w.now } } } else w
        | some k => if decide (k.toNat + w.scanTicks ≤ w.now.toNat) then w.endMove m else w

/-- A move under way is finished before a bank is rebuilt (R356). -/
def Wing.finishMove (w : Wing) : Wing :=
  match w.int.move with
  | some m => w.endMove m
  | none => w

/-- A move under way ends with the wing's domains: the spare is a spare again. -/
def Wing.dropMove (w : Wing) : Wing :=
  match w.int.move with
  | some m =>
      let w1 := { w with int := { w.int with move := none } }
      if m.slice then w1.setPhysSlice m.spare { w1.physSlice m.spare with state := 0 }
      else w1.setPhysBank m.spare { w1.physBank m.spare with state := 0 }
  | none => w

/-- The candidate entries that a scan could not read (R341). -/
def droppedBy (ecc : List EccFind) : List Nat :=
  (ecc.filter fun f => f.array == 6 && !f.corrected).map fun f => f.index.toNat

/-! ## The commands -/

/-- VOTE_WALK (R337). -/
def execVoteWalk (w : WingId) (finds : List VoteFind) (s : State) : Host.Outcome State Fault Refusal :=
  nextWing s w fun v => if v.running then finds.foldl Wing.voteRead v else v

/-- SCRUB (R340). -/
def execScrub (w : WingId) (finds : List EccFind) (s : State) : Host.Outcome State Fault Refusal :=
  nextWing s w fun v =>
    if v.running then
      let v1 := v.eccReads finds
      { v1 with hall := { v1.hall with dropped := v1.hall.dropped ++ droppedBy finds } }
    else v

/-- A register word that the pass finds upset: its bits have flipped since they were written. -/
def Wing.upsetWord (w : Wing) (f : Nat × Word) : Wing := if isSigned f.1 then w.flipBits f.1 (f.2 &&& rwMask f.1) else w

/-- SIGNATURE_PASS (R345): a pass of 9,232 ticks ends. `flips` is the registers whose bits it found upset, which no other command shows
(DESIGN CHOICE, log 114). -/
def execSignaturePass (w : WingId) (flips : List (Nat × Word)) (s : State) : Host.Outcome State Fault Refusal :=
  nextWing s w fun v =>
    if v.running && decide (v.int.passAt.toNat + 9232 ≤ v.now.toNat) then (flips.foldl Wing.upsetWord v).passEnd else v

/-- WEAR_WINDOW_END (R350). -/
def execWearWindowEnd (w : WingId) (s : State) : Host.Outcome State Fault Refusal :=
  nextWing s w fun v => if v.passageRuns && decide (v.now.toNat % v.wearWindow = 0) then v.wearRestart else v

/-- BANK_MOVE (R352): the move begins; it goes on at the boundaries (`Wing.moveStep`). -/
def execBankMove (w : WingId) (s : State) : Host.Outcome State Fault Refusal := nextWing s w Wing.bankMove

/-- SCAN_SLICE_MOVE (R353): the move begins. -/
def execScanSliceMove (w : WingId) (s : State) : Host.Outcome State Fault Refusal := nextWing s w Wing.sliceMove

end Sys2Proof.Machine
end

