-- ==== Sys2Proof/Machine/Passage.lean ====
section
/-! DEFINITION. The passage's blocks and lanes (09_passage.md R227 to R239, R250 to R256): the layout of a block, sending and replaying,
receiving, lane failures, and training. -/

namespace Sys2Proof.Machine

/-! ## The layout of a block (R227, R228, R230, R247) -/

/-- SYNC: the bytes 0xB3, 0x4E, 0x71, 0x9C. -/
def psgSync : Word := 0x9C714EB3

/-- The lanes of a map in ascending order. -/
def lanesOf (m : BitVec 4) : List Nat := (List.range 4).filter fun i => m.getLsbD i

/-- The position of a lane among those of a map. -/
def lanePos (m : BitVec 4) (lane : Nat) : Nat := ((lanesOf m).filter (· < lane)).length

/-- The frame slot number of record slot `j` of block `b` at position `p` (R230). -/
def frameSlot (m : BitVec 4) (p b j : Nat) : Nat := (b * lanesIn m + p) * 14 + j

/-- The block position that replay number `i` of a frame takes: blocks 0 to 5 of each lane in turn (R239). -/
def replayPlace (i : Nat) : Nat × Nat := (i / 6, i % 6)

/-- A block position of the frame is taken by a replay. -/
def Frame.replayedAt (f : Frame) (p b : Nat) : Bool := (List.range f.replays).any fun i => replayPlace i == (p, b)

/-- The record slots of a frame in ascending order, TICK_CLOSE slots and replayed blocks apart. -/
def Frame.slots (f : Frame) : List Nat :=
  (List.range 7).flatMap fun b => (List.range (lanesIn f.map)).flatMap fun p =>
    if f.replayedAt p b then []
    else (List.range 14).filterMap fun j => if b = 6 ∧ j = 13 then none else some (frameSlot f.map p b j)

/-- The records of a frame in the order in which they take slots (R231). -/
def Frame.records (f : Frame) : List Rec := f.acc ++ f.ord ++ f.defr ++ f.rsy

/-- The record slots of a frame with what they carry. -/
def Frame.placed (f : Frame) : SMap Rec := f.slots.zip f.records

/-- The first 14 records of a block, its TICK_CLOSE apart. -/
def Frame.blockRecs (f : Frame) (p b : Nat) : List Rec :=
  (List.range (if b = 6 then 13 else 14)).map fun j => SMap.get f.placed .nop (frameSlot f.map p b j)

def recBytes (rs : List Rec) : List Byte := rs.flatMap fun r => bytesOf 16 r.encode

/-- FCHK of the lane at position `p`: the CRC-16 over its data bytes less TICK_CLOSE. DESIGN CHOICE (log 115): R247 says nothing of a lane of
which replays took block positions (R239); the sender counts NOP bytes in their places, and the receiver makes no check there. -/
def Frame.fchk (f : Frame) (p : Nat) : BitVec 16 :=
  crc16 ((List.range 7).flatMap fun b => recBytes (f.blockRecs p b))

/-- The 224 data bytes of a block. -/
def Frame.dataBytes (f : Frame) (p b : Nat) : List Byte :=
  recBytes (f.blockRecs p b ++ if b = 6 then [.close { f.close with fchk := f.fchk p }] else [])

/-- RXBAD: the lanes that the wing's receiver holds failed. -/
def Wing.rxbad (w : Wing) : BitVec 4 :=
  (List.range 4).foldl (fun m l => if (SMap.get w.psg.lanes Lane.reset l).rxbad then m ||| (1#4 <<< l) else m) 0

/-- Bytes 4 to 13 of a header. -/
def Wing.headerBytes (w : Wing) (lane : BitVec 2) (blk : BitVec 3) (replay : Bool) (rxbad map : BitVec 4) (tick : Word) (nak : Byte)
    (accN : Byte) : List Byte :=
  let head : Byte := lane ++ blk ++ bit (w.id == .west) ++ bit replay ++ bit w.psg.ackValid
  [head, rxbad ++ map] ++ bytesOf 2 w.psg.ack ++ bytesOf 4 tick ++ [nak, accN]

/-- A lost block entered among others: oldest frame first, then lowest slot number. -/
def insertLost (x : LostBlk) (l : List LostBlk) : List LostBlk :=
  let before (y : LostBlk) : Bool := decide (y.tick.toNat < x.tick.toNat) ||
    (y.tick == x.tick && decide (blkKey y.lane.toNat y.blk.toNat ≤ blkKey x.lane.toNat x.blk.toNat))
  l.takeWhile before ++ [x] ++ l.dropWhile before

/-- The NAK of the header with the given number in its frame: the lost blocks in turn (R237). An active wing sends none. -/
def Wing.nakByte (w : Wing) (n : Nat) : Byte :=
  let near := w.psg.lost.filter fun x =>
    decide (w.psg.ack.toNat + 1 ≤ x.tick.toNat) && decide (x.tick.toNat ≤ w.psg.ack.toNat + 4)
  if !w.psg.ackValid || w.ctl.role == .active then 0
  else
    match near[n % near.length]? with
    | some x =>
        let off : BitVec 2 := (x.tick - w.psg.ack - 1#56).setWidth 2
        1#1 ++ x.lane ++ x.blk ++ off
    | none => 0

/-- A whole block from its header bytes and data. -/
def blockBits (hdr data : List Byte) : BitVec 2048 :=
  ofBytes 2048 (bytesOf 4 psgSync ++ hdr ++ bytesOf 2 (crc16 hdr) ++ data ++ rsCheck data)

/-- Block `b` of a frame on a lane of its map. -/
def Wing.frameBlock (w : Wing) (f : Frame) (lane : Nat) (b : Nat) (replay : Bool) : BitVec 2048 :=
  let p := lanePos f.map lane
  let accN : Byte := if b < 2 ∧ f.acc ≠ [] then 0xFF else BitVec.ofNat 8 f.acc.length
  blockBits (w.headerBytes (BitVec.ofNat 2 lane) (BitVec.ofNat 3 b) replay f.rxbad f.map (f.tick.extractLsb' 0 32)
    (w.nakByte (b * lanesIn f.map + p)) accN) (f.dataBytes p b)

/-- A training block (R251). DESIGN CHOICE (log 116): R251 gives BLOCK, TICK and LOCKED of its header; LANE_MAP and ACC_N are sent as 0. -/
def Wing.trainingBits (w : Wing) (lane : Nat) (locked : Bool) : BitVec 2048 :=
  let d := (List.range 224).map fun i => BitVec.ofNat 8 i ^^^ BitVec.ofNat 8 (0x40 * lane)
  blockBits (w.headerBytes (BitVec.ofNat 2 lane) 7 false w.rxbad 0 (w.now.extractLsb' 0 32) (bit locked ++ 0#7) 0) d

/-- The wing hands a frame to its lanes. -/
def Wing.sendFrame (w : Wing) (f : Frame) : Wing :=
  let blocks := (List.range 7).flatMap fun b => (lanesOf f.map).filterMap fun l =>
    if f.replayedAt (lanePos f.map l) b then none
    else some (Out.blockOut w.id (BitVec.ofNat 2 l) (w.frameBlock f l b false))
  let w1 := w.emit (.frame w.id f)
  { w1 with out := w1.out ++ blocks, psg := { w1.psg with lastMap := f.map } }

/-! ## Lanes (R250 to R252) -/

def Wing.lane (w : Wing) (l : Nat) : Lane := SMap.get w.psg.lanes Lane.reset l

def Wing.setLane (w : Wing) (l : Nat) (v : Lane) : Wing :=
  { w with psg := { w.psg with lanes := SMap.set w.psg.lanes Lane.reset l v } }

/-- The lane carries frames or stands by. -/
def Lane.used (v : Lane) : Bool := v.role == .carry || v.role == .spare

/-- A lane that failed trains again, or is withdrawn after its fourth failure. -/
def Lane.dropped (v : Lane) : Lane :=
  let n := satInc v.fails
  { v with fails := n, role := if 4 ≤ n.toNat then .retired else .training, locked := false, good := 0, shown := 0
           lostRun := 0, pos := none }

/-- The wing names its lost blocks to its peer: it is standby and acknowledges frames (R237). -/
def Wing.naksTo (w : Wing) : Bool := w.ctl.role == .standby && w.psg.ackValid

/-- Blocks newly lost are kept until they arrive, each counted once. -/
def Wing.noteLost (w : Wing) (xs : List LostBlk) : Wing :=
  let new := xs.filter fun x => w.naksTo && decide (w.psg.ack.toNat < x.tick.toNat) && !w.psg.lost.contains x
  ({ w with psg := { w.psg with lost := new.foldl (fun l x => insertLost x l) w.psg.lost } }).countN cNakTx new.length

/-- The blocks of a lane that a frame names and the wing has not decoded. -/
def RxFrame.owedOn (f : RxFrame) (map : BitVec 4) (l : Nat) : List LostBlk :=
  if map.getLsbD l then
    ((List.range 7).filter fun b => !f.hasBlk (blkKey l b)).map fun b =>
      { tick := f.tick, lane := BitVec.ofNat 2 l, blk := BitVec.ofNat 3 b }
  else []

/-- The blocks that a failed lane still owes in the frames not yet applied are lost (R237). -/
def Wing.loseLane (w : Wing) (l : Nat) : Wing := w.noteLost (w.psg.rx.flatMap fun f => f.owedOn (f.map.getD w.psg.map) l)

/-- A frame whose LANE_MAP has come names a lane that has failed meanwhile: the blocks of that lane are lost (R237). -/
def Wing.loseFailed (w : Wing) (t : Tick) : Wing :=
  let bad := (List.range 4).filter fun l => !(SMap.get w.psg.lanes Lane.reset l).used
  w.noteLost ((w.psg.rx.filter fun f => f.tick == t).flatMap fun f => bad.flatMap fun l => f.owedOn (f.map.getD 0) l)

/-- A failure of a lane; `own` says that this wing's receiver holds it failed. -/
def Wing.laneFails (w : Wing) (l : Nat) (own : Bool) : Wing :=
  let v := w.lane l
  if !v.used then w
  else
    let w1 := (w.setLane l { v.dropped with rxbad := v.rxbad || own }).count cLaneFail
    if v.role == .carry then w1.loseLane l else w1

/-! ## Receiving (R228, R234 to R237) -/

/-- The bits in which two words differ. -/
def bitsApart (a b : Word) : Nat := ((List.range 32).filter fun i => (a ^^^ b).getLsbD i).length

/-- SYNC is found: at most 4 bits differ. -/
def syncFound (x : BitVec 2048) : Bool := decide (bitsApart (x.extractLsb' 0 32) psgSync ≤ 4)

/-- HCRC is right. -/
def headerOk (x : BitVec 2048) : Bool :=
  crc16 ((List.range 10).map fun i => byteAt x (4 + i)) == (x.extractLsb' 112 16 : BitVec 16)

/-- DATA and CHECK corrected, with the number of bytes corrected; none when they are uncorrectable. -/
def blockData (x : BitVec 2048) : Option (BitVec 1792 × Nat) :=
  (rsDecode ((List.range 240).map fun i => byteAt x (16 + i))).map fun r => (ofBytes 1792 (r.1.take 224), r.2)

/-- The records of a block; none when one has a reserved kind or sub-kind. -/
def recordsOf (d : BitVec 1792) : Option (List Rec) :=
  (List.range 14).mapM fun j => Rec.decode (d.extractLsb' (128 * j) 128)

/-- What a header says beyond its place. -/
structure BlockHdr where
  lane : BitVec 2
  blk : BitVec 3
  replay : Bool
  ackValid : Bool
  rxbad : BitVec 4
  map : BitVec 4
  ack : BitVec 16
  tick : Word
  nak : Byte
  accN : Byte
  deriving DecidableEq, Repr

def blockHdr (x : BitVec 2048) : BlockHdr :=
  let b4 := byteAt x 4
  { lane := b4.extractLsb' 6 2, blk := b4.extractLsb' 3 3, replay := b4.getLsbD 1, ackValid := b4.getLsbD 0
    rxbad := (byteAt x 5).extractLsb' 4 4, map := (byteAt x 5).extractLsb' 0 4, ack := x.extractLsb' 48 16
    tick := x.extractLsb' 64 32, nak := byteAt x 12, accN := byteAt x 13 }

/-- The tick that a header names, near the wing's own count; a wing with no count takes the bits as they are. -/
def Wing.frameTick (w : Wing) (t : Word) : Tick := if w.ctl.hasTick then restoreNear t w.now else t.setWidth 56

/-- The acknowledgement within 2^15 of the wing's count whose low 16 bits are carried (R235). -/
def restoreAck (a : BitVec 16) (now : Tick) : Tick :=
  now + (a - now.extractLsb' 0 16 : BitVec 16).signExtend 56

/-- Frames stand on the lane: on one that carries, and on each that the standby of an active wing transmits on (R249). -/
def Wing.framesOn (w : Wing) (l : Nat) : Bool :=
  (w.lane l).role == .carry || (w.ctl.role == .active && (w.lane l).role == .spare)

/-- The position behind a block. -/
def nextPos (p : Tick × Nat) : Tick × Nat := if 6 ≤ p.2 then (p.1 + 1, 0) else (p.1, p.2 + 1)

/-- The place of a block on the lane: its own header's, or the lane's position when HCRC is wrong. -/
def Wing.placeOf (w : Wing) (l : Nat) (ok : Bool) (h : BlockHdr) : Option (Tick × Nat × Nat) :=
  if ok then (if h.blk = 7 then none else some (w.frameTick h.tick, h.lane.toNat, h.blk.toNat))
  else if w.framesOn l then (w.lane l).pos.map fun p => (p.1, l, p.2)
  else none

/-- A block has passed on the lane; a good header that is no replay's says which it was. -/
def Wing.blockPassed (w : Wing) (l : Nat) (ok : Bool) (h : BlockHdr) : Wing :=
  let v := w.lane l
  if !w.framesOn l then w
  else if ok && !h.replay && h.blk != 7 then
    w.setLane l { v with pos := some (nextPos (w.frameTick h.tick, h.blk.toNat)) }
  else w.setLane l { v with pos := v.pos.map nextPos }

/-- A received frame entered in tick order. -/
def insertFrame (f : RxFrame) (l : List RxFrame) : List RxFrame :=
  l.takeWhile (fun x => decide (x.tick.toNat < f.tick.toNat)) ++ [f] ++
    l.dropWhile fun x => decide (x.tick.toNat < f.tick.toNat)

/-- A walk starts in the frame (R271). -/
def RxFrame.startsWalk (f : RxFrame) : Bool := f.recs.any fun e => match e.2 with
  | .copy c => walkIndex c == 0
  | _ => false

/-- Frames that a wing goes on keeping when that of tick `t` comes in: all where it applies them; a joining wing that is not being copied
keeps only the newest, and a wing that applies none the latest four. -/
def Wing.keptRx (w : Wing) (t : Tick) : List RxFrame :=
  match w.ctl.role with
  | .standby => w.psg.rx
  | .joining =>
      if w.ctl.joinPos.isNone ∧ w.ctl.withdrawAt.isNone ∧ !w.psg.rx.any RxFrame.startsWalk then [] else w.psg.rx
  | _ => w.psg.rx.filter fun f => decide (t.toNat < f.tick.toNat + 4)

/-- The frame of a tick is coming in. -/
def Wing.openFrame (w : Wing) (t : Tick) : Wing :=
  if w.psg.rx.any (·.tick == t) then w
  else
    { w with psg := { w.psg with
        rx := insertFrame { tick := t, map := none, accN := 0xFF, data := [], skip := [], took := [], accTook := 0, recs := [] }
          (w.keptRx t) } }

def Wing.modFrame (w : Wing) (t : Tick) (f : RxFrame → RxFrame) : Wing :=
  { w with psg := { w.psg with rx := w.psg.rx.map fun x => if x.tick = t then f x else x } }

/-- A frame that this wing has applied already. -/
def Wing.applied (w : Wing) (t : Tick) : Bool := w.psg.ackValid && decide (t.toNat ≤ w.psg.ack.toNat)

/-- A block on the lane is lost: counted, reported, and the second of two in a row fails the lane (R236, R252). `place` is where it
belongs, if the wing can tell. -/
def Wing.loseBlock (w : Wing) (l : Nat) (place : Option (Tick × Nat × Nat)) : Wing :=
  let w1 := w.count (cBlkLost l)
  let w2 := match place with
    | some (t, fl, b) =>
        if w1.applied t then w1
        else (w1.openFrame t).noteLost [{ tick := t, lane := BitVec.ofNat 2 fl, blk := BitVec.ofNat 3 b }]
    | none => w1
  let v := w2.lane l
  if !v.used then w2
  else
    let w3 := w2.setLane l { v with lostRun := v.lostRun + 1 }
    if 2 ≤ v.lostRun + 1 then w3.laneFails l true else w3

/-- The peer's LANE_MAP, which only an active wing changes (R250). -/
def Wing.followMap (w : Wing) (t : Tick) (m : BitVec 4) : Wing :=
  if w.ctl.role = .active ∨ !w.psg.peerActive then w
  else
    let w1 := (List.range 4).foldl (fun w l =>
      let v := w.lane l
      if v.role = .spare ∧ m.getLsbD l then w.setLane l { v with role := .carry, pos := some (t, 0) }
      else if v.role = .carry ∧ !m.getLsbD l then w.setLane l { v with role := .spare, pos := none }
      else w) w
    { w1 with psg := { w1.psg with map := m } }

/-- RXBAD of the peer: a used lane that the peer holds failed fails here too (R252). -/
def Wing.takeRxbad (w : Wing) (m : BitVec 4) : Wing :=
  (List.range 4).foldl (fun w l =>
    let v := w.lane l
    let w1 := w.setLane l { v with peerRxbad := m.getLsbD l }
    if m.getLsbD l && !v.peerRxbad then w1.laneFails l false else w1) w

/-- ACK of a standby (R13, R14, R235). One that comes behind its frame's deadline is counted late, and does not open the gate at the
close of this tick. -/
def Wing.takeAck (w : Wing) (h : BlockHdr) : Wing :=
  if w.ctl.role = .active ∧ w.ctl.duplex ∧ h.ackValid then
    let a := restoreAck h.ack w.now
    if a.toNat < w.now.toNat ∧ (!w.psg.ackedValid ∨ w.psg.acked.toNat < a.toNat) then
      let late := decide (a.toNat + 1 < w.now.toNat) || w.psg.ackClosed
      let w1 : Wing := { w with
        psg := { w.psg with ackedValid := true, acked := a, ackLate := late
                            sent := w.psg.sent.filter fun f => decide (a.toNat < f.tick.toNat) }
        pan := { w.pan with recent := w.pan.recent.filter fun e => decide (a.toNat < e.1.toNat) }
        vst := { w.vst with sentArr := w.vst.sentArr.filter fun e => decide (a.toNat < e.1.toNat) } }
      w1.countIf late cAckLate
    else w
  else w

/-- NAK of a standby: the named block, if it is kept, is to be sent again (R238). A block that is named again, after a replay that did not
arrive, counts once in the lane's wear (R350). -/
def Wing.takeNak (w : Wing) (h : BlockHdr) : Wing :=
  if w.ctl.role = .active ∧ h.ackValid ∧ h.nak.getLsbD 7 then
    let off : BitVec 2 := h.nak.extractLsb' 0 2
    let t := restoreAck h.ack w.now + 1 + off.setWidth 56
    let x : LostBlk := { tick := t, lane := h.nak.extractLsb' 5 2, blk := h.nak.extractLsb' 2 3 }
    if (w.psg.sent.any fun f => f.tick == t && f.map.getLsbD x.lane.toNat) && !w.psg.nakq.contains x then
      let l := x.lane.toNat
      let w1 := if w.psg.naked.contains x then w else w.setLane l { w.lane l with naks := (w.lane l).naks + 1 }
      let kept := w.psg.naked.filter fun y => w.psg.sent.any fun f => f.tick == y.tick
      { w1 with psg := { w1.psg with nakq := w1.psg.nakq ++ [x], naked := if kept.contains x then kept else kept ++ [x] } }
    else w
  else w

/-- FCHK of a lane, once its seven blocks are in; none before that, or when a replay took one of its positions. -/
def RxFrame.laneCheck (f : RxFrame) (l : Nat) : Option Bool :=
  let ds := (List.range 7).filterMap fun b => SMap.find? f.data (blkKey l b)
  if ds.length < 7 then none
  else
    let bytes := ds.flatMap fun d => bytesOf 224 d
    let last : BitVec 1792 := ds.getLastD 0
    some (crc16 (bytes.take 1552) == (last.extractLsb' (128 * 13 + 16) 16 : BitVec 16))

/-- The blocks of a lane whose check failed are lost, records that were not taken yet with them (R236). -/
def Wing.dropLane (w : Wing) (t : Tick) (l : Nat) : Wing :=
  let w1 := (w.modFrame t fun f => { f with
      data := f.data.filter fun e => e.1 % 4 != l
      recs := f.recs.filter fun e => e.1 / 14 % 4 != l }).count cFchkErr
  (List.range 7).foldl (fun w b => w.loseBlock l (some (t, l, b))) w1

/-- The records of a block that are applied in turn: fill and TICK_CLOSE apart. -/
def inTurn (r : Rec) : Bool := r.group != .fill && r.group != .closing

/-- At a joining wing a frame in which a walk starts leaves nothing of the frames before it (R271). -/
def Wing.dropAbandoned (w : Wing) : Wing :=
  match w.psg.rx.reverse.find? RxFrame.startsWalk with
  | some f =>
      if w.ctl.role = .joining then
        { w with psg := { w.psg with
          rx := w.psg.rx.filter fun x => decide (f.tick.toNat ≤ x.tick.toNat)
          hold := w.psg.hold.filter fun e => decide (f.tick.toNat ≤ e.1.toNat) } }
      else w
  | none => w

/-- A decoded block enters its frame; one that the wing holds already, or whose frame it has applied, is discarded. A good header
gives the frame its LANE_MAP and ACC_N. -/
def Wing.enterBlock (w : Wing) (t : Tick) (hdr : Option BlockHdr) (l b : Nat) (d : BitVec 1792) (rs : List Rec) : Wing :=
  if w.applied t then w
  else
    let k := blkKey l b
    let put (f : RxFrame) : RxFrame :=
      if (SMap.find? f.data k).isSome then f
      else
        let new := ((List.range 14).zip rs).filter fun e => inTurn e.2 && !f.took.contains (14 * k + e.1)
        { f with
          map := f.map.or (hdr.map (·.map))
          accN := match hdr with
            | some h => if h.accN = 0xFF then f.accN else h.accN
            | none => f.accN
          data := SMap.insert f.data k d
          recs := new.foldl (fun m e => SMap.insert m (14 * k + e.1) e.2) f.recs }
    let x : LostBlk := { tick := t, lane := BitVec.ofNat 2 l, blk := BitVec.ofNat 3 b }
    let w1 := ((w.openFrame t).modFrame t put).dropAbandoned
    let w2 := if hdr.isSome then w1.loseFailed t else w1
    let w3 := { w2 with psg := { w2.psg with lost := w2.psg.lost.filter (· != x) } }
    match (w3.psg.rx.find? (·.tick == t)).bind fun f => f.laneCheck l with
    | some false => w3.dropLane t l
    | _ => w3

/-- A replay that came on a lane with frames took a position of the frame that is coming in there (R239). -/
def Wing.skipPlace (w : Wing) (l : Nat) : Wing :=
  match (w.lane l).pos with
  | some (t, b) =>
      if w.framesOn l && !w.applied t then
        (w.openFrame t).modFrame t fun f => { f with skip := f.skip ++ [blkKey l b] }
      else w
  | none => w

/-! ## Training (R251) -/

/-- The data of a training block. -/
def trainingData (l : Nat) : BitVec 1792 :=
  ofBytes 1792 ((List.range 224).map fun i => BitVec.ofNat 8 i ^^^ BitVec.ofNat 8 (0x40 * l))

/-- A decoded block on a lane that trains: 64 good training blocks in a row lock the receiver, and 8 that show LOCKED prove the
peer's. DESIGN CHOICE (log 117): R252 sets RXBAD and says nowhere when it clears; it clears when the receiver is locked again, or the lane
goes down (`Lane.boundary`). -/
def Wing.training (w : Wing) (l : Nat) (ok clean : Bool) (h : BlockHdr) : Wing :=
  let v := w.lane l
  if v.role != .training then w
  else if ok && clean && h.blk == 7 && h.lane == BitVec.ofNat 2 l then
    let good := v.good + 1
    let locked := v.locked || decide (64 ≤ good)
    let shows := h.nak.getLsbD 7
    w.setLane l { v with
      good := good, locked := locked, peerLocked := shows, shown := if shows then v.shown + 1 else 0
      rxbad := v.rxbad && !locked }
  else w.setLane l { v with good := 0, shown := 0 }

/-! ## BLOCK and REPLAY -/

/-- What every good header says of the peer, whatever its block holds. A replay's LANE_MAP is an old one, and a training block's says
nothing. -/
def Wing.takeHeader (w : Wing) (h : BlockHdr) : Wing :=
  let w1 := (w.takeRxbad h.rxbad).takeAck h
  if h.blk = 7 then w1
  else if h.replay then w1.takeNak h
  else
    let w2 := w1.takeNak h
    { w2 with psg := { w2.psg with lastMap := h.map } }.followMap (w.frameTick h.tick) h.map

/-- A block that decoded, with `n` corrections; a reserved kind makes it as good as uncorrectable (R236). -/
def Wing.decoded (w : Wing) (l : Nat) (ok : Bool) (h : BlockHdr) (place : Option (Tick × Nat × Nat)) (d : BitVec 1792) (n : Nat) :
    Wing :=
  let train := ok && h.blk == 7
  match if train then some [] else recordsOf d with
  | none => (w.training l false false h).loseBlock l place
  | some rs =>
      let w1 := ((w.countIf (n != 0) (cBlkCorr l)).countN cBytesCorr n).setLane l { w.lane l with lostRun := 0 }
      let w2 := w1.training l ok (n == 0 && d == trainingData l) h
      match place with
      | some (t, fl, b) => w2.enterBlock t (if ok then some h else none) fl b d rs
      | none => w2

/-- A block with a valid sync. Of what comes on a lane that trains, only training blocks say something. -/
def Wing.synced (w : Wing) (l : Nat) (x : BitVec 2048) : Wing :=
  let ok := headerOk x
  let h := blockHdr x
  let w1 := (w.count cBlkRx).countIf (!ok) cHdrErr
  let trains := (w.lane l).role == .training
  let place := if trains then none else w1.placeOf l ok h
  let w2 := if ok && (!trains || h.blk == 7) then w1.takeHeader h else w1
  let w3 := if ok && h.replay && h.blk != 7 then w2.skipPlace l else w2
  let w4 := w3.blockPassed l ok h
  match blockData x with
  | none => (w4.training l false false h).loseBlock l place
  | some (d, n) => w4.decoded l ok h place d n

/-- BLOCK (R227, R228): `late` says that it came more than 16 ns after the same block on another lane. A lane that trains has no
expected position of a sync yet. -/
def Wing.takeBlock (w : Wing) (l : Nat) (x : BitVec 2048) (late : Bool) : Wing :=
  let v := w.lane l
  if !w.passageRuns || !(v.used || v.role == .training) then w
  else
    let w1 :=
      if syncFound x then w.synced l x
      else if v.role = .training then w.training l false false (blockHdr x)
      else
        let place := w.placeOf l false (blockHdr x)
        (w.blockPassed l false (blockHdr x)).loseBlock l place
    if late then w1.laneFails l true else w1

/-- A lane on which a replay can go at once (R238): one in each block position. -/
def Wing.spareLane (w : Wing) : Option Nat := (List.range 4).find? fun l => (w.lane l).role == .spare

/-- Replays that one frame may carry (R239). -/
def replayCap (lanes : Nat) : Nat := (97 * lanes - 48) / 14

/-- The replays for which the frame that opens makes room: with no spare, in a frame whose release was withheld. -/
def Wing.replayRoom (w : Wing) : Nat :=
  if w.psg.withheld && w.spareLane.isNone then
    min (replayCap (lanesIn w.psg.map)) (w.psg.nakq.filter fun x => w.psg.sent.any fun f => f.tick == x.tick).length
  else 0

/-- The lane of the next replay: the spare, or a position of the frame; `true` for the frame. -/
def Wing.replayLane (w : Wing) : Option (Nat × Bool) :=
  match w.spareLane with
  | some l => if w.psg.spareSent < 7 then some (l, false) else none
  | none =>
      if w.psg.replaySent < w.psg.replays then
        ((lanesOf w.psg.map)[(replayPlace w.psg.replaySent).1]?).map fun l => (l, true)
      else none

/-- REPLAY (R238, R239): the oldest NAK is answered. -/
def Wing.replay (w : Wing) : Wing :=
  if !w.isActive then w
  else
    match w.psg.nakq with
    | [] => w
    | x :: rest =>
        match w.psg.sent.find? (·.tick == x.tick) with
        | none => { w with psg := { w.psg with nakq := rest } }
        | some f =>
            match w.replayLane with
            | none => w
            | some (l, inFrame) =>
                let w1 := { w with psg := { w.psg with
                  nakq := rest
                  replaySent := if inFrame then w.psg.replaySent + 1 else w.psg.replaySent
                  spareSent := if inFrame then w.psg.spareSent else w.psg.spareSent + 1 } }
                (w1.count cReplayTx).emit
                  (.blockOut w.id (BitVec.ofNat 2 l) (w1.frameBlock f x.lane.toNat x.blk.toNat true))

/-! ## Training blocks and PSG_EN (R225, R250, R251, R405) -/

/-- Training blocks of the tick that closes: seven on each lane that trains, and on an active wing's spare those positions that no
replay took. A wing that is not active sends its frames on its spares. -/
def Wing.sendTraining (w : Wing) : Wing :=
  (List.range 4).foldl (fun w l =>
    let v := w.lane l
    let n := match v.role with
      | .training => 7
      | .spare => if w.ctl.role = .active then (if w.spareLane = some l then 7 - w.psg.spareSent else 7) else 0
      | _ => 0
    let bits := w.trainingBits l v.locked
    { w with out := w.out ++ List.replicate n (Out.blockOut w.id (BitVec.ofNat 2 l) bits) }) w

/-- PSG_EN: the lanes that are powered. In Nap those that carry. -/
def Wing.psgEn (w : Wing) : BitVec 4 :=
  (List.range 4).foldl (fun m l =>
    let on : Bool := match w.life, (w.lane l).role with
      | .held, _ | .keyWait, _ | .deep, _ | .outOfService, _ => false
      | _, .down | _, .retired => false
      | .nap, r => r == .carry
      | _, _ => true
    if on then m ||| (1#4 <<< l) else m) 0

/-- A change of PSG_EN shows on the lanes' signals. -/
def Wing.showEn (w : Wing) (before : BitVec 4) : Wing := if w.psgEn = before then w else w.emit (.psgEn w.id w.psgEn)

/-! ## The commands -/

/-- BLOCK (R227). -/
def execBlock (w : WingId) (lane : BitVec 2) (bits : BitVec 2048) (late : Bool) (s : State) :
    Host.Outcome State Fault Refusal := nextWing s w fun v => (v.takeBlock lane.toNat bits late).showEn v.psgEn

/-- REPLAY (R238). -/
def execReplay (w : WingId) (s : State) : Host.Outcome State Fault Refusal := nextWing s w Wing.replay

/-- PSG_RXLOCK (R252). -/
def execPsgRxlock (w : WingId) (lane : BitVec 2) (lock : Bool) (s : State) : Host.Outcome State Fault Refusal :=
  nextWing s w fun v =>
    if !v.passageRuns then v
    else
      let x := v.lane lane.toNat
      let v1 := v.setLane lane.toNat { x with rxlock := lock }
      if x.rxlock && !lock then (v1.laneFails lane.toNat true).showEn v.psgEn else v1

/-- TRAINING_BLOCK (R251). -/
def execTrainingBlock (w : WingId) (lane : BitVec 2) (bits : BitVec 2048) (s : State) : Host.Outcome State Fault Refusal :=
  nextWing s w fun v => (v.takeBlock lane.toNat bits false).showEn v.psgEn

end Sys2Proof.Machine
end

