-- ==== Sys2Proof/Machine/Port.lean ====
section
/-! DEFINITION. The register port's reads (14_register_behaviour.md R360 to R363, R369, R370, R373, R374): accesses and their
strobes, what every word reads as, what a read clears, and the error answers with their log. -/

namespace Sys2Proof.Machine

/-! ## Accesses (R361, R363) -/

/-- The byte strobes of a run of `n` bytes from lane `f` on. -/
def strobesOf (f n : Nat) : Byte := BitVec.ofNat 8 ((2 ^ n - 1) * 2 ^ f)

/-- The aligned runs: first lane and length. -/
def alignedRuns : List (Nat × Nat) :=
  [(0, 1), (1, 1), (2, 1), (3, 1), (4, 1), (5, 1), (6, 1), (7, 1), (0, 2), (2, 2), (4, 2), (6, 2), (0, 4), (4, 4), (0, 8)]

/-- The run of an access, unless it is unaligned. -/
def runOf (strb : Byte) : Option (Nat × Nat) := alignedRuns.find? fun r => strobesOf r.1 r.2 == strb

/-- The bits of a word in `n` bytes from byte `f` on. -/
def byteBits (f n : Nat) : Word := BitVec.ofNat 32 ((2 ^ (8 * n) - 1) * 2 ^ (8 * f))

/-- The first offset of the eight bytes of an access. -/
def accBase (a : RegAccess) : Nat := a.addr.toNat / 8 * 8

/-- The 32-bit halves of an access, low address first: offset, mask of the bytes, and data. -/
def accHalves (a : RegAccess) (r : Nat × Nat) : List (Nat × Word × Word) :=
  let lo : Word := a.data.extractLsb' 0 32
  let hi : Word := a.data.extractLsb' 32 32
  if r.2 = 8 then [(accBase a, byteBits 0 4, lo), (accBase a + 4, byteBits 0 4, hi)]
  else if r.1 < 4 then [(accBase a, byteBits r.1 r.2, lo)]
  else [(accBase a + 4, byteBits (r.1 - 4) r.2, hi)]

/-- The access reaches the indirect space: its first half lies at IND_DATA or IND_DATA_HI (R373). -/
def isIndirect (a : RegAccess) : Bool := accBase a == oIndData

/-- The key of a half's word: the window offset, or the indirect address that IND_ADDR gives. -/
def Wing.keyOf (w : Wing) (o : Nat) : Nat :=
  if o = oIndData then ikey w.regs.indAddr.toNat
  else if o = oIndDataHi then ikey ((w.regs.indAddr.toNat + 4) % 2 ^ 24)
  else o

/-- The halves by key. -/
def Wing.keyHalves (w : Wing) (a : RegAccess) (r : Nat × Nat) : List (Nat × Word × Word) :=
  (accHalves a r).map fun h => (w.keyOf h.1, h.2)

/-- PATH of R384. -/
def pathOf (a : RegAccess) : BitVec 2 := if isIndirect a then 2 else if a.alias_ then 1 else 0

/-! ## Answers (R361, R384, R403) -/

/-- ERROR, counted, and logged if the log is free. -/
def Wing.portError (w : Wing) (reason : BitVec 4) (req : Byte) (path : BitVec 2) (strb : Byte) (addr : BitVec 24) : Wing :=
  let w1 := { w with regs := { w.regs with
    regErrLog := logFirst w.regs.regErrLog (regErrEntry reason req path strb addr) } }
  (w1.count cRegErr).emit (.regRsp w.id false 0)

def Wing.portOk (w : Wing) (data : DWord) : Wing := w.emit (.regRsp w.id true data)

/-- ERROR for the access `a`. -/
def Wing.refuseAccess (w : Wing) (a : RegAccess) (reason : BitVec 4) (addr : BitVec 24) : Wing :=
  w.portError reason a.req (pathOf a) a.strb addr

/-- A wing that sleeps, or enters sleep, answers reads at once and holds writes (R300). -/
def Wing.portSleeps (w : Wing) : Bool := w.life == .napEntry || w.life == .nap || w.life == .deepEntry

/-! ## What a word of the window reads as -/

/-- The pantry holds trusted contexts (R394). -/
def Wing.trusted (w : Wing) : Bool := w.ctl.role == .active || w.ctl.role == .standby

/-- A counter or gauge. -/
def Wing.countWord (w : Wing) (o : Nat) : DWord :=
  let gauge (n : Nat) : DWord := if w.trusted then BitVec.ofNat 64 n else 0
  if o = gResident then gauge w.ctxs.length
  else if o = gDirty then gauge w.dirtyCount
  else if o = gPinned then gauge (w.ctxs.filter fun c => c.pin || w.isRoute c.key).length
  else if isCounter o then w.ctr o
  else 0

/-- The 64-bit local registers of the window. -/
def Wing.windowPair (w : Wing) (o : Nat) : Option DWord :=
  if o = 0x0028 then some (w.aptBase ++ 0#24)
  else if o = oWingTick then some (if w.ctl.hasTick then 0#8 ++ w.now else 0)
  else if o = oSnapStatus then some (w.regs.snapSeq ++ w.regs.snapTick)
  else if o = oRegErrLog then some w.regs.regErrLog
  else if o = oVstRejectLog then some w.regs.vstRejectLog
  else if o = oEngEscLog then some w.regs.engEscLog
  else if o = oTkoWatermark then some (watermarkWord w.ctl)
  else if o = oTkoLog then some w.regs.tkoLog
  else if o = oTkoDigestTick then some w.regs.tkoDigTick
  else if o = oTkoDigestLog then some w.regs.tkoDigLog
  else if o = oPwrWakeTick then some w.pwr.wakeTick
  else if o = oPwrRefuseLog then some w.pwr.refuseLog
  else if o = oIntSigLog then some w.int.sigLog
  else if o = oIntSigVals then some w.int.sigVals
  else if o = oIntVoteLog then some w.int.voteLog
  else if o = oIntEccLog then some w.int.eccLog
  else if 0x4000 ≤ o ∧ o < 0x5000 then some (w.countWord o)
  else if 0x5000 ≤ o ∧ o < 0x6000 then some (SMap.get w.regs.hold 0 o)
  else none

/-- The 32-bit local registers of the window; 0 where there is none. -/
def Wing.windowReg (w : Wing) (o : Nat) : Word :=
  if o = 0x0008 then (if w.id = .west then 1 else 0)
  else if o = oWingStatus then wingStatusWord w.ctl w.keyValid
  else if o = oIndAddr then w.regs.indAddr
  else if o = oIndCtrl then 0#30 ++ bit w.regs.indPeek ++ bit w.regs.indInc
  else if o = oDualPend then dualPendWord w.regs.dual
  else if o = oVstStatus then vstStatusWord w.vst w.stalling
  else if o = oEngFilterUsed then BitVec.ofNat 32 w.vst.filter.length
  else if o = oPchFault then w.regs.pchFault
  else if o = oPsgStatus then 0#28 ++ w.psg.lastMap
  else if 0x0410 ≤ o ∧ o < 0x0420 then (SMap.get w.psg.lanes Lane.reset ((o - 0x0410) / 4)).word
  else if o = oTkoStatus then tkoStatusWord w.ctl w.handoverPending
  else if o = oTkoClaim then w.ctl.claim
  else if o = oTkoSeen then w.ctl.seen
  else if o = oTkoStable then w.ctl.stable
  else if o = oPwrStatus then pwrStatusWord w.pwr w.granted
  else if o = oPwrWake then w.pwr.wake
  else if 0x0680 ≤ o ∧ o < 0x0700 then SMap.get w.pwr.domWake 0 ((o - 0x0680) / 4)
  else if o = oIntSigRun then w.int.sigRun
  else if o = oIntSigPeer then w.int.sigPeer
  else if o = oIntStatus then intStatusWord w.int
  else (idWord o).getD 0

/-- A word of the window, at a multiple of 4. -/
def Wing.windowRead (w : Wing) (o : Nat) : Word :=
  if rwMask o != 0 || hwMask o != 0 then w.cfgW o
  else match w.windowPair (o / 8 * 8) with
    | some d => if o % 8 = 0 then loWord d else hiWord d
    | none => w.windowReg o

/-! ## What a word of the indirect space reads as (R395 to R397) -/

/-- The 64-bit registers of the hearth, by offset in its block; the stamps stand at 0x100. -/
def Hearth.pair (h : Hearth) (o : Nat) : DWord :=
  if o = 0x00 then 0#1 ++ h.cal
  else if o = 0x08 then 0#1 ++ h.calSet
  else if o = 0x10 then h.raw
  else if o = 0x18 then h.shown.ancRaw
  else if o = 0x20 then bit h.shown.ancValid ++ 0#7 ++ h.shown.ancTick
  else if o = 0x30 then 0#1 ++ h.pairCal
  else if o = 0x38 then h.pairRaw
  else if o = 0x40 then 0#8 ++ h.pairTick
  else if 0x100 ≤ o ∧ o < 0x200 then
    let l := h.latch ((o - 0x100) / 16)
    if o % 16 = 0 then l.stampRaw else bit l.ever ++ l.stampCal
  else 0

def Wing.hearthRead (w : Wing) (o : Nat) : Word :=
  if o = 0x28 then hrtStatusWord w.hrt w.ctl.reconciled
  else if o = 0x48 then w.hrt.shown.wake
  else if o % 8 = 0 then loWord (w.hrt.pair o)
  else hiWord (w.hrt.pair (o - 4))

/-- A word of the indirect space, at a multiple of 4. -/
def Wing.indRead (w : Wing) (a : Nat) : Word :=
  if a < 0xA000 then w.cfgW (ikey a)
  else if 0x40000 ≤ a ∧ a < 0x50000 ∧ a % 16 = 4 then (w.slice (BitVec.ofNat 12 ((a - 0x40000) / 16))).bindRuntime
  else if 0x70000 ≤ a ∧ a < 0x70400 then (SMap.find? w.regs.eff (ikey a)).getD (w.cfgW (ikey (a + 0x10000)))
  else if a < 0x80000 then w.regionWord a
  else if a < 0x80400 then w.cfgW (ikey a)
  else if 0x90000 ≤ a ∧ a < 0x90100 then BitVec.ofNat 32 (w.repBank ((a - 0x90000) / 4))
  else if 0x90100 ≤ a ∧ a < 0x90120 then BitVec.ofNat 32 (w.repSlice ((a - 0x90100) / 4))
  else if 0x90200 ≤ a ∧ a < 0x90310 then (w.physBank ((a - 0x90200) / 4)).word
  else if 0x90400 ≤ a ∧ a < 0x90424 then (w.physSlice ((a - 0x90400) / 4)).word
  else if 0xA0000 ≤ a ∧ a < 0xA0110 then SMap.get w.pwr.bankWake 0 ((a - 0xA0000) / 4)
  else if 0xB0000 ≤ a ∧ a < 0xB0200 then w.hearthRead (a - 0xB0000)
  else 0

/-- The word at a key. -/
def Wing.wordAt (w : Wing) (k : Nat) : Word := if k < 0x10000 then w.windowRead k else w.indRead (k - 0x10000)

/-! ## RC bits (R369, R370) -/

/-- The RC bits `m` of a 64-bit log half are cleared. -/
def clearHalf (o : Nat) (d : DWord) (m : Word) : DWord :=
  if o % 8 = 0 then d &&& ~~~(0#32 ++ m) else d &&& ~~~(m ++ 0#32)

/-- The RC bits of a word of the window in the bytes `m` that a read returned are cleared. -/
def Wing.clearWindow (w : Wing) (o : Nat) (m : Word) : Wing :=
  let b := o / 8 * 8
  if o = oWingStatus then { w with ctl := { w.ctl with tsyncErr := w.ctl.tsyncErr && !m.getLsbD 28 } }
  else if o = oVstStatus then
    { w with vst := { w.vst with
        stallSeen := w.vst.stallSeen && !m.getLsbD 31
        stallSlice := w.vst.stallSlice &&& ~~~(m.extractLsb' 0 12) } }
  else if o = oPchFault then { w with regs := { w.regs with pchFault := w.regs.pchFault &&& ~~~m } }
  else if o = oTkoStatus then { w with ctl := { w.ctl with digestErr := w.ctl.digestErr && !m.getLsbD 11 } }
  else if o = oPwrStatus then
    { w with pwr := { w.pwr with
        bankLost := w.pwr.bankLost && !m.getLsbD 6, vfail := w.pwr.vfail && !m.getLsbD 5 } }
  else if o = oIntStatus then
    { w with int := { w.int with
        spareOut := w.int.spareOut && !m.getLsbD 6, cfgLost := w.int.cfgLost && !m.getLsbD 5
        sigSelf := w.int.sigSelf && !m.getLsbD 4, voteSplit := w.int.voteSplit && !m.getLsbD 1
        eccUncorr := w.int.eccUncorr && !m.getLsbD 0 } }
  else if b = oVstRejectLog then
    { w with regs := { w.regs with vstRejectLog := clearHalf o w.regs.vstRejectLog m } }
  else if b = oRegErrLog then { w with regs := { w.regs with regErrLog := clearHalf o w.regs.regErrLog m } }
  else if b = oEngEscLog then { w with regs := { w.regs with engEscLog := clearHalf o w.regs.engEscLog m } }
  else if b = oTkoLog then { w with regs := { w.regs with tkoLog := clearHalf o w.regs.tkoLog m } }
  else if b = oTkoDigestTick then { w with regs := { w.regs with tkoDigTick := clearHalf o w.regs.tkoDigTick m } }
  else if b = oTkoDigestLog then { w with regs := { w.regs with tkoDigLog := clearHalf o w.regs.tkoDigLog m } }
  else if b = oPwrRefuseLog then { w with pwr := { w.pwr with refuseLog := clearHalf o w.pwr.refuseLog m } }
  else if b = oIntSigLog then { w with int := { w.int with sigLog := clearHalf o w.int.sigLog m } }
  else if b = oIntSigVals then { w with int := { w.int with sigVals := clearHalf o w.int.sigVals m } }
  else if b = oIntVoteLog then { w with int := { w.int with voteLog := clearHalf o w.int.voteLog m } }
  else if b = oIntEccLog then { w with int := { w.int with eccLog := clearHalf o w.int.eccLog m } }
  else w

/-- The RC bits of HRT_STATUS that the read returned as 1. -/
def Wing.clearHearth (w : Wing) (m : Word) : Wing :=
  w.onHearth fun h =>
    let hit (b : Bool) (i : Nat) : Bool := b && m.getLsbD i
    let tl := hit h.shown.timeLost 3
    let vb := hit h.shown.vbatLow 1
    let fr := hit h.shown.fresh 0
    let sh : HrtShown := { h.shown with
      timeLost := h.shown.timeLost && !tl, vbatLow := h.shown.vbatLow && !vb, fresh := h.shown.fresh && !fr }
    { h with
      pairValid := h.pairValid && !m.getLsbD 4, timeLost := h.timeLost && !tl, vbatLow := h.vbatLow && !vb
      fresh := h.fresh && !fr, shown := sh }

/-- What a read of a half clears; a peek clears nothing. -/
def Wing.clearRead (w : Wing) (k : Nat) (m : Word) : Wing :=
  if k < 0x10000 then w.clearWindow k m
  else if k = ikey aHrtStatus ∧ !w.regs.indPeek then w.clearHearth m
  else w

/-! ## Reads (R360 to R363, R373, R374) -/

/-- The low word of a 64-bit indirect register stands at this address. -/
def isPairLow (a : Nat) : Bool :=
  a % 8 == 0 && (decide (a < 0xA000) || (decide (0xB0000 ≤ a) && decide (a < 0xB0028)) ||
    (decide (0xB0030 ≤ a) && decide (a < 0xB0048)) || (decide (0xB0100 ≤ a) && decide (a < 0xB0200)))

/-- IND_ADDR after an access that was answered OK (R373). -/
def Wing.indNext (w : Wing) (r : Nat × Nat) : Wing :=
  if w.regs.indInc then
    let n := if r.1 < 4 && r.2 != 8 then 4 else 8
    { w with regs := { w.regs with indAddr := BitVec.ofNat 32 ((w.regs.indAddr.toNat + n) % 2 ^ 24) } }
  else w

/-- What a half of an access reads: an indirect read of a high word after a read of its low word returns what that captured. -/
def Wing.readHalf (w : Wing) (h : Nat × Word × Word) : Word :=
  let v := match w.regs.indCap with
    | some (k, c) => if k = h.1 then c else w.wordAt h.1
    | none => w.wordAt h.1
  v &&& h.2.1

/-- The halves' words in their lanes. -/
def lanesOfHalves (hs : List (Nat × Word × Word)) (vs : List Word) : DWord :=
  (hs.zip vs).foldl (fun d p => if p.1.1 % 8 = 0 then d ||| (0#32 ++ p.2) else d ||| (p.2 ++ 0#32)) 0

/-- What the next indirect access finds captured (R374). -/
def Wing.capture (w : Wing) (hs : List (Nat × Word × Word)) : Wing :=
  let cap : Option (Nat × Word) := match hs.getLast? with
    | some h => if isPairLow (h.1 - 0x10000) then some (h.1 + 4, w.wordAt (h.1 + 4)) else none
    | none => none
  { w with regs := { w.regs with indCap := cap } }

/-- A read that the wing answers. -/
def Wing.doRead (w : Wing) (a : RegAccess) : Wing :=
  match runOf a.strb with
  | none => w.refuseAccess a reUnaligned (0#8 ++ a.addr)
  | some r =>
      if a.alias_ then w.refuseAccess a reAliasRead (0#8 ++ a.addr)
      else
        let offs := accHalves a r
        let hs := w.keyHalves a r
        let d := lanesOfHalves offs (hs.map w.readHalf)
        let w1 := if isIndirect a then w.capture hs else w
        let w2 := hs.foldl (fun (x : Wing) h => x.clearRead h.1 h.2.1) w1
        (if isIndirect a then w2.indNext r else w2).portOk d

end Sys2Proof.Machine
end

