-- ==== Sys2Proof/Machine/Slices.lean ====
section
/-! DEFINITION. The steps of long slice commands (07_slices.md R181 to R195), drain requests and reports (08_engines_contract.md R218
to R220), and the ends of filter entries and moderation windows. -/

namespace Sys2Proof.Machine

/-- The unfinished slice command of opcode `op` on slice `s`. -/
def Wing.sliceCmd (w : Wing) (op : Byte) (s : BitVec 12) : Option UCmd :=
  (w.slice 0).ucmds.find? fun u => u.opcode == op && keySlice u.target == s

def Wing.setJob (w : Wing) (s : BitVec 12) (j : Job) : Wing := w.modSlice s fun v => { v with job := some j }

/-! ## Parameter blocks (R181, R182, R388) -/

/-- A START stops with a code: BOOT_CODE takes it, BOOTING clears, and nothing else changes (R388). -/
def Wing.bootFails (w : Wing) (code : Byte) : Wing :=
  let w1 := w.modSlice 0 fun v => { v with job := none }
  { w1 with ctl := { w1.ctl with booting := false, bootChecked := false, bootCode := code } }

/-- The code of a read block's checks, with the job that follows when they pass. -/
def Wing.judgeBlock (w : Wing) (s : BitVec 12) (j : Job) (b : BitVec 1024) : Byte × Wing :=
  if j.opcode = opShare then (w.shareCheck s b, w)
  else
    (w.createCheck s b, w.setJob s { j with
      phase := .writing, param := b, left := creationWrites (log5 (pbVt b)) (log5 (pbEvt b)) })

/-- The block of slice 0 at a START: read, or one of its reads has failed twice. -/
def Wing.bootBlock (w : Wing) (j : Job) (rsp : Option (BitVec 1024)) : Wing :=
  match rsp with
  | none => w.bootFails ccMemory
  | some b =>
      let r := w.judgeBlock 0 j b
      if r.1 != 0 then w.bootFails r.1 else { r.2 with ctl := { r.2.ctl with bootChecked := true } }

/-- The block of SLICE_CREATE or SLICE_SHARE, likewise. -/
def Wing.commandBlock (w : Wing) (s : BitVec 12) (j : Job) (rsp : Option (BitVec 1024)) : Wing :=
  match rsp with
  | none => w.finish 0 j.pos ccMemory Report.zero 0
  | some b =>
      let r := w.judgeBlock s j b
      if r.1 != 0 then w.finish 0 j.pos r.1 Report.zero 0
      else if j.opcode = opShare then w.finish 0 j.pos 0 Report.zero b
      else r.2

/-- The block is read, or cannot be. -/
def Wing.blockRead (w : Wing) (s : BitVec 12) (j : Job) (rsp : Option (BitVec 1024)) : Wing :=
  if s = 0 then w.bootBlock j rsp else w.commandBlock s j rsp

/-- One half of a block with the parts that are in. -/
def Job.take (j : Job) (half : Bool) (b : BitVec 512) : Job :=
  let x : BitVec 1024 := b.setWidth 1024
  { j with param := j.param ||| (if half then x <<< 512 else x), got := half :: j.got }

/-- Both halves are in, or the first, which is all that SLICE_SHARE reads. -/
def Job.whole (j : Job) : Bool := j.got.contains false && (j.opcode == opShare || j.got.contains true)

/-- A read of a block has returned and is free for another. -/
def Wing.endBlockRead (w : Wing) (x : BitVec 12 × Bool × Bool) : Wing :=
  { w with ring := { w.ring with blockReads := w.ring.blockReads.erase x } }

/-- A half of a block that is wanted returns: a read that returns ERROR is issued once more at once; the checks run when the block is
whole, or when a read has returned ERROR twice. -/
def Wing.halfRead (w : Wing) (x : BitVec 12 × Bool × Bool) (s : BitVec 12) (j : Job) (half : Bool) (rsp : Option (BitVec 512)) : Wing :=
  match rsp with
  | none =>
      if j.retried.contains half then ((w.endBlockRead x).blockRead s j none).useReads
      else (w.setJob s { j with retried := half :: j.retried }).askHalf s j half
  | some b =>
      let k := j.take half b
      let w1 := w.endBlockRead x
      (if k.whole then w1.blockRead s k (some k.param) else w1.setJob s k).useReads

/-- PARAMETER_BLOCK_READ (R182): one of the block's 64-byte reads returns, `half` the second. One whose job stands no longer is dropped. -/
def Wing.paramRead (w : Wing) (s : BitVec 12) (half : Bool) (rsp : Option (BitVec 512)) : Wing :=
  match w.ring.blockReads.find? (fun x => x.1 == s && x.2.1 == half), (w.slice s).job with
  | some x, some j =>
      if x.2.2 && w.blockWanted s j half then w.halfRead x s j half rsp else (w.endBlockRead x).useReads
  | some x, none => (w.endBlockRead x).useReads
  | none, _ => w

/-! ## Writes and waits (R183, R194, R195) -/

/-- CREATION_WRITES_DONE (R183, R195): the memory port has accepted the last write; the command finishes in the next tick. -/
def Wing.writesDone (w : Wing) (s : BitVec 12) : Wing :=
  match (w.slice s).job with
  | some j => if j.phase == .writing && j.left == 0 && w.ownsFrame then w.setJob s { j with phase := .written } else w
  | none => w

/-- The release wait is over. -/
def Wing.released (w : Wing) (s : BitVec 12) (op : Byte) : Bool :=
  !(w.ctxs.any fun c => keySlice c.key == s && c.state == .presented) &&
    !(op == opRemove && (List.range 16).any fun i => keySlice (w.route i) == s)

/-- RELEASE_WAIT_END (R194). -/
def Wing.waitEnd (w : Wing) (s : BitVec 12) : Wing :=
  match (w.slice s).job with
  | some j =>
      if j.phase == .waiting && w.ownsFrame && w.released s j.opcode then
        if j.opcode = opReset then
          w.setJob s { j with
            phase := .writing, left := creationWrites (w.slice s).vtLog2.toNat (w.slice s).evtLog2.toNat }
        else w.setJob s { j with phase := .written }
      else w
  | none => w

/-! ## Quiesce (R191, R192) -/

/-- Every enabled port has reported for the slice. -/
def Wing.allDrained (w : Wing) (v : SliceSt) : Bool := (List.range 16).all fun p => !w.portEn p || v.drained.getLsbD p

/-- The slice holds no arrival registered before STOP_TICK and no engine outcome. -/
def Wing.oldHeld (w : Wing) (s : BitVec 12) : Bool :=
  w.heldObs.any fun o => o.cls != 3 && keySlice o.key == s && (o.outcome || (w.slice s).oldWork o.reg)

/-- The conditions of R192. -/
def Wing.quiet (w : Wing) (s : BitVec 12) : Bool :=
  w.allDrained (w.slice s) && !w.oldHeld s && (w.slice s).ucmds.isEmpty

/-- The quiesce of the slice finishes when `c` holds. -/
def Wing.endQuiesce (w : Wing) (s : BitVec 12) (c : Bool) : Wing :=
  match w.sliceCmd opQuiesce s with
  | some u =>
      if w.ownsFrame && (w.slice s).state == .quiescing && c && !w.finishing 0 u.pos then
        w.finish 0 u.pos 0 Report.zero 0
      else w
  | none => w

/-! ## Drains (R218 to R220) -/

/-- The first request that a port offers is taken. -/
def takeFirst : List (BitVec 20 × Byte × Bool) → List (BitVec 20 × Byte × Bool)
  | [] => []
  | x :: xs => if x.2.2 then x :: takeFirst xs else (x.1, x.2.1, true) :: xs

/-- DRAIN_REQUEST_TAKEN (R219). -/
def Wing.drainTaken (w : Wing) (p : Nat) : Wing :=
  if w.isActive && (w.drnOf p).any fun x => !x.2.2 then
    ({ w with drn := SMap.set w.drn [] p (takeFirst (w.drnOf p)) }.count cDrainReq).offerDrains
  else w

/-- DRN_DONE (R220): received once every earlier message is registered; the active wing carries it. -/
def Wing.drainDone (w : Wing) (p : Nat) (pasid : BitVec 20) (gen : Byte) : Wing :=
  let w1 := w.drainAll
  let ahead := (w1.vst.inbuf.takeWhile fun e => e.2).length
  if ahead = 0 then w1.takeReport (BitVec.ofNat 4 p) pasid gen
  else { w1 with vst := { w1.vst with drnWait := w1.vst.drnWait ++ [(BitVec.ofNat 4 p, pasid, gen, ahead)] } }

/-! ## The commands -/

def execParameterBlockRead (w : WingId) (slice : BitVec 12) (r : HalfRead) (s : State) :
    Host.Outcome State Fault Refusal :=
  nextWing s w fun v => if v.running || v.life == .keyWait then v.paramRead slice r.half r.rsp else v

def execCreationWritesDone (w : WingId) (slice : BitVec 12) (s : State) : Host.Outcome State Fault Refusal :=
  nextWing s w fun v => v.writesDone slice

def execReleaseWaitEnd (w : WingId) (slice : BitVec 12) (s : State) : Host.Outcome State Fault Refusal :=
  nextWing s w fun v => v.waitEnd slice

/-- QUIESCE_FINISH (R192). -/
def execQuiesceFinish (w : WingId) (slice : BitVec 12) (s : State) : Host.Outcome State Fault Refusal :=
  nextWing s w fun v => v.endQuiesce slice (v.quiet slice)

/-- DRAIN_LIMIT (R192). -/
def execDrainLimit (w : WingId) (slice : BitVec 12) (s : State) : Host.Outcome State Fault Refusal :=
  nextWing s w fun v => v.endQuiesce slice ((v.slice slice).timedOut v.now)

def execDrainRequestTaken (w : WingId) (port : BitVec 4) (s : State) : Host.Outcome State Fault Refusal :=
  nextWing s w fun v => v.drainTaken port.toNat

def execDrnDone (w : WingId) (port : BitVec 4) (pasid : BitVec 20) (gen : Byte) (s : State) :
    Host.Outcome State Fault Refusal :=
  nextWing s w fun v => if v.running then v.drainDone port.toNat pasid gen else v

/-- FILTER_ENTRY_EXPIRY (R211): both wings remove the entry at the close of the tick. -/
def execFilterEntryExpiry (w : WingId) (slice : BitVec 12) (tag : Word) (s : State) :
    Host.Outcome State Fault Refusal :=
  nextWing s w fun v =>
    if v.running then
      { v with vst := { v.vst with filter := v.vst.filter.filter fun e =>
          !(e.2.slice == slice && e.2.jobTag == tag && decide (e.2.tick.toNat + 65536 ≤ v.now.toNat)) } }
    else v

/-- The last tick whose frame the wing has applied, and at whose close windows have ended (R63): the tick before this one in the active
wing, the frame that it acknowledges in a standby (DEDUCED, log 104). -/
def Wing.closedTick (w : Wing) : Option Tick :=
  if w.ctl.role = .active then some (w.now - 1) else if w.isStandby && w.psg.ackValid then some w.psg.ack else none

/-- WINDOW_END (R62) at the close of a tick. -/
def execWindowEnd (w : WingId) (key : Word) (s : State) : Host.Outcome State Fault Refusal :=
  nextWing s w fun v =>
    match v.closedTick with
    | some t => if v.running then v.modCtx key fun c => c.windowChanged (c.endWindow t) t else v
    | none => v

end Sys2Proof.Machine
end

