-- ==== Sys2Proof/Machine/Rings.lean ====
section
/-! DEFINITION. The ring engine's writes (06_rings_and_records.md R149, R150, R170 to R173): blocks of event records, ring headers,
and the completion of blocks. -/

namespace Sys2Proof.Machine

/-! ## Committed frames (R13, R170, R260) -/

/-- The frame of tick `f` is committed: acknowledged in duplex, or while the frames closed at a change to simplex are provisional;
closed in simplex. -/
def Wing.committed (w : Wing) (f : Nat) : Bool :=
  if w.ctl.duplex || w.ctl.prov.isSome then w.psg.ackedValid && decide (f ≤ w.psg.acked.toNat)
  else decide (f < w.now.toNat)

/-- The wing may write event rings and headers: active, not refused, and not held by a takeover (R171, R265). -/
def Wing.mayWrite (w : Wing) : Bool := w.isActive && !w.ctl.refused && !w.ctl.writesHeld

/-! ## Headers (R149, R150) -/

/-- The header image of a slice; its EVT_TAIL publishes every record that was issued. -/
def SliceSt.header (v : SliceSt) (n : BitVec 12) : HdrImg :=
  { evtTail := v.wpos, cmdHead := v.cmdHead, cmdFinished := v.cmdFinished
    flags := hdrFlags v.ringHalt v.cmdWait v.heldFlag, recheckLost := if n = 0 then v.recheckLost else 0 }

/-- An image of a bound slice is formed when a field other than TICK has changed since the latest one; it replaces one that is not
yet written. -/
def SliceSt.formHeader (v : SliceSt) (n : BitVec 12) (now : Tick) : SliceSt :=
  let h := v.header n
  let last := match v.hdrWait with
    | some x => some x.1
    | none => v.hdr
  if v.bound && last != some h then { v with hdrWait := some (h, now) } else v

/-- The memory port has accepted every record of ring `n` below the position `p`. -/
def Wing.acceptedBelow (w : Wing) (n : BitVec 12) (p : Word) : Bool :=
  !w.ring.recOut.any fun r => r.1 == n && decide (1 ≤ posDiff p r.2.1) && decide (posDiff p r.2.1 < 2 ^ 31)

/-- The image that waits is written once the records that it publishes are accepted. -/
def Wing.writeHeader (w : Wing) (n : BitVec 12) : Wing :=
  let v := w.slice n
  match v.hdrWait with
  | some (h, t) =>
      if w.acceptedBelow n h.evtTail then
        (w.setSlice n { v with hdr := some h, hdrWait := none, evtTail := h.evtTail }).emitWrite
          v.hdrBase 64 (h.bytes t)
      else w
  | none => w

/-- Headers in ascending slice order; a wing whose frames are provisional writes nothing (R260). -/
def Wing.writeHeaders (w : Wing) : Wing :=
  if w.mayWrite && w.ctl.prov.isNone then w.sliceNums.foldl Wing.writeHeader w else w

/-- The images of the tick are formed, and those that may be written go out: at the block's time and at the close of the tick, so that
every tick in which a field changes has its image. -/
def Wing.formHeaders (w : Wing) : Wing :=
  if w.mayWrite && w.ctl.prov.isNone then
    (w.sliceNums.foldl (fun w n => w.modSlice n fun v => v.formHeader n w.now) w).writeHeaders
  else w

/-! ## Blocks (R170, R172) -/

/-- OUTCOME of a record. -/
def recOutcome (r : BitVec 256) : BitVec 4 := r.extractLsb' 1 4

/-- One record at the ring's next position, with its PHASE. -/
def Wing.writeRecord (w : Wing) (n : BitVec 12) (t : Tick) (rewrite : Bool) (r : BitVec 256) : Wing :=
  let v := w.slice n
  let p := v.wpos
  let ix := p.toNat % 2 ^ v.evtLog2.toNat
  let ph : BitVec 256 := (bit (phaseAt p v.evtLog2.toNat)).setWidth 256
  let w1 := (w.setSlice n { v with wpos := p + 1 }).emitWrite
    (v.evtBase + BitVec.ofNat 64 (32 * ix)) 32 ((r ||| ph).setWidth 512)
  let w2 := { w1 with ring := { w1.ring with recOut := w1.ring.recOut ++ [(n, p, t)] } }
  (((w2.count cEvrRecords).countIf rewrite cEvrRewrite).countIf (recOutcome r == oCmdDone) cCmdSucceeded).countIf
    (recOutcome r == oCmdErr) cCmdFailed

/-- The records of a block for one ring: acceptances in key order, then the commit-time records in frame order. -/
def EvBlock.recordsFor (b : EvBlock) (n : BitVec 12) : List (BitVec 256) :=
  (b.accs.filter fun r => r.1 == n).map (fun r => r.2.2) ++ (b.commits.filter fun r => r.1 == n).map Prod.snd

/-- The rings that a block has records for, ascending. -/
def EvBlock.rings (b : EvBlock) : List (BitVec 12) :=
  let s : SMap Unit := (b.accs.map (fun r => r.1) ++ b.commits.map Prod.fst).foldl (fun m n => SMap.insert m n.toNat ()) []
  s.map fun e => BitVec.ofNat 12 e.1

/-- The writes of one block, ring by ring. -/
def Wing.writeBlock (w : Wing) (b : EvBlock) (rewrite : Bool) : Wing :=
  let w1 := b.rings.foldl (fun w n => (b.recordsFor n).foldl (fun w r => w.writeRecord n b.tick rewrite r) w) w
  { w1 with ring := { w1.ring with blocks := w1.ring.blocks.drop 1, written := w1.ring.written ++ [b] } }

/-- The next block may be written: its tick has come and the frame before it is committed; every later block waits behind it. -/
def Wing.blockReady (w : Wing) (b : EvBlock) : Bool :=
  decide (b.tick.toNat ≤ w.now.toNat) && w.committed (b.tick.toNat - 1)

/-- The blocks that may be written, in tick order; `old` says which of them are written again (R173). -/
def Wing.writeBlocks (old : Tick → Bool) : Nat → Wing → Wing
  | 0, w => w
  | n + 1, w =>
      match w.ring.blocks with
      | [] => w
      | b :: _ => if w.blockReady b then Wing.writeBlocks old n (w.writeBlock b (old b.tick)) else w

/-! ## Completion (R150, R173) -/

/-- Blocks at the head of those written whose records are all accepted are complete: the last of them is carried in DONE. -/
def Wing.settleDone (w : Wing) : Wing :=
  let done := w.ring.written.takeWhile fun b => !w.ring.recOut.any fun r => r.2.2 == b.tick
  match done.getLast? with
  | none => w
  | some b => ({ w with ring := { w.ring with written := w.ring.written.drop done.length } }).place (.done b.tick)

/-- The ring engine's turn in a tick: blocks, then headers. -/
def Wing.ringTurn (w : Wing) (old : Tick → Bool) : Wing :=
  if w.mayWrite then ((Wing.writeBlocks old w.ring.blocks.length w).settleDone).formHeaders else w

/-- The memory port accepts the write of a record. -/
def Wing.recordAccepted (w : Wing) (n : BitVec 12) (p : Word) : Wing :=
  if w.ring.recOut.any fun r => r.1 == n && r.2.1 == p then
    ({ w with ring := { w.ring with
      recOut := w.ring.recOut.filter fun r => !(r.1 == n && r.2.1 == p) } }.settleDone).writeHeaders
  else w

/-! ## The commands -/

/-- EVENT_BLOCK_WRITE (R170). -/
def execEventBlockWrite (w : WingId) (s : State) : Host.Outcome State Fault Refusal :=
  nextWing s w fun v => v.ringTurn fun _ => false

/-- RECORD_WRITE_ACCEPTED (R150): the write of the record at position `pos` of the slice's event ring. A header's acceptance
publishes nothing. -/
def execRecordWriteAccepted (w : WingId) (slice : BitVec 12) (pos : Word) (s : State) :
    Host.Outcome State Fault Refusal :=
  nextWing s w fun v => if v.running then v.recordAccepted slice pos else v

end Sys2Proof.Machine
end

