-- ==== Sys2Proof/Machine/Takeover.lean ====
section
/-! DEFINITION. Claims, takeover, resync and return (10_claims_and_takeover.md R257 to R284): how a wing takes the active role, and
what it does before its first release. -/

namespace Sys2Proof.Machine

/-! ## Claim numbers (R257, R258) -/

/-- The least value of the wing's own parity above its highest seen value; none above the top. -/
def Wing.nextClaim (w : Wing) : Option Word :=
  let n := w.ctl.seen.toNat + 1
  let own := n % 2 = (if w.id = .west then 1 else 0)
  let m := if own then n else n + 1
  if m < 2 ^ 32 then some (BitVec.ofNat 32 m) else none

/-- The porches whose STATUS shows UP. -/
def Wing.upPorches (w : Wing) : List Byte :=
  (w.pch.status.filter fun e => e.2.getLsbD 14).map fun e => BitVec.ofNat 8 e.1

/-- CLAIM_RAISE to every porch that is up. -/
def Wing.sendClaim (w : Wing) : Wing :=
  w.upPorches.foldl (fun w p => w.emit (.w2p w.id p 3 (claimRaiseBeat w.ctl.claim))) w

/-- The wing raises its claim and goes on with `f`; with no value left it takes no role and logs CLAIM_END. -/
def Wing.raiseClaim (w : Wing) (f : Wing → Wing) : Wing :=
  match w.nextClaim with
  | some c => f { w with ctl := { w.ctl with claim := c, seen := c } }
  | none => w.logTko tkClaimEnd

/-! ## INIT (R142, R144, R258, R410) -/

/-- The ranked image that a beat of this tick shows; the committed state where the wing has none. -/
def Wing.shownImage (w : Wing) : RankImg := w.hall.img0.getD (w.rankImg w.now)

/-- The running priority of a core in a ranked image: the least priority of its claimed vectors, 256 with none. -/
def Wing.rpOf (w : Wing) (p : Byte) : BitVec 9 :=
  BitVec.ofNat 9 (w.shownImage.slots.foldl (fun m e =>
    let c := e.2.ctx
    if (c.state == .active || c.state == .activePending) && c.lastCore == p then min m (cfgPriority c.cfg).toNat else m) 256)

/-- INIT to one porch. -/
def Wing.sendInit (w : Wing) (p : Byte) : Wing :=
  let v := w.view w.shownImage
  w.emit (.w2p w.id p 4 (initBeat w.ctl.claim (w.pchCfg p.toNat)
    (SMap.get w.pch.jseqCommit 0xFFFF p.toNat + 1) (w.rpOf p) ((v.eff oHallCtrl).extractLsb' 0 3) (v.coreEn p.toNat)))

/-- The porches of the domains that are on. -/
def Wing.poweredPorches (w : Wing) : List Byte :=
  ((List.range 256).filter fun p => w.pwr.domOn.getLsbD (p / 8)).map fun p => BitVec.ofNat 8 p

/-! ## Taking the active role (R45, R82, R259, R263) -/

/-- What a read of a wing that was not active goes on for: an observation's becomes an arrival's, and an INSTALL record's ends. -/
def Fetch.forActive (f : Fetch) : Fetch :=
  { f with causes := f.causes.filterMap fun c => match c with
      | .observed => some .arrival
      | .install _ _ => none
      | c => some c }

/-- A context in the pantry of a wing that takes the active role counts as dirty (R82). -/
def Slot.mustWrite (t : Tick) (s : Slot) : Slot :=
  { s with ctx := { s.ctx with dirty := true, dirtyAt := t, wbFresh := false } }

/-- The wing holds the active role from now on: what it kept as standby becomes its own work, and what only a standby keeps is
gone. -/
def Wing.becomeActive (w : Wing) : Wing :=
  let images : List Image := w.pan.images.filterMap fun (i : Image) =>
    let f : Fetch := { key := i.ctx.key, causes := i.causes, issued := true, retried := false }
    if f.forActive.causes = [] then none else some { i with causes := f.forActive.causes }
  let freshSlice (v : SliceSt) : SliceSt := { v with hdr := none, hdrWait := none, descs := [], descReads := [], failPos := none }
  { w with
    ctl := { w.ctl with
      role := .active, prov := none, answered := false, refused := false, sendPos := none, backlog := [], aligned := []
      joinPos := none, mark := false, rsySilent := 0, stable := 0, digestRun := 0, giveWay := false, returning := false
      spentNext := false, holdRelease := false, withdrawAt := none }
    pan := { w.pan with
      slots := w.pan.slots.map fun (e : Nat × Slot) => (e.1, e.2.mustWrite w.now)
      waiting := images, images := [], recent := []
      fetches := (w.pan.fetches.map Fetch.forActive).filter fun (f : Fetch) => f.causes != [] }
    sl := w.sl.map fun (e : Nat × SliceSt) => (e.1, freshSlice e.2)
    ring := { w.ring with finDue := [], recOut := [], written := [], cmdBuf := none, extBuf := none, finBuf := none, params := [] }
    drn := []
    vst := { w.vst with samples := [], raws := [] }
    regs := { w.regs with srcOld := [], sweNew := [] }
    hall := { w.hall with
      accOpen := [], offered := [], modQ := [], refusals := [], periodic := [], base := w.hall.img0 }
    pch := { w.pch with late := [], slotRep := [], replay := [], ended := [], deferred := [], jseqAt := [] }
    psg := { w.psg with
      acc := [], ord := [], defr := [], rsy := [], copies := [], accOwed := 0, sent := [], nakq := [], rx := [], lost := []
      hold := [], ctxFills := [], arrFills := [], ackValid := false, ackedValid := false, missing := 0, hbMiss := 0
      withheld := false, replays := 0 } }

/-- Porch replays are awaited from every porch that is up: what each sends from now on is kept apart (R138, R139), behind what one that
had turned to the wing before has sent it already. -/
def Wing.awaitReplays (w : Wing) : Wing :=
  { w with pch := { w.pch with
      entries := []
      replay := w.upPorches.foldl (fun (m : SMap (List Entry)) p => SMap.insert m p.toNat (SMap.get w.pch.entries [] p.toNat)) [] } }

/-- A porch that had turned to the wing before it took the active role sends no replay: its accepted wing does not change (R138). At the close
of T+1, with no REPLAY_END from it, what it has sent stands for one (DEDUCED, log 110). -/
def Wing.endTurned (w : Wing) : Wing :=
  let still := w.pch.turned.filter fun p => (SMap.find? w.pch.replay p).isSome && !w.pch.ended.contains p
  { w with pch := { w.pch with ended := w.pch.ended ++ still, turned := [] } }

/-- PCH_CFG of every porch follows its image (R396). From then on the image is PCH_CFG itself. -/
def Wing.loadPchCfg (w : Wing) : Wing :=
  w.withSigned fun x => (List.range 256).foldl (fun x p =>
    let v := x.effW (ikey (aPchImg p))
    let x1 := (x.setCfg (ikey (aPchCfg p)) v).setEff (ikey (aPchCfg p)) v
    { x1 with regs := { x1.regs with eff := SMap.erase x1.regs.eff (ikey (aPchImg p)) } }) x

/-! ## Takeover (R26, R263, R277 to R280) -/

/-- The active wing is lost: HB_LIMIT heartbeats are missing (R26, R277). DEDUCED (log 39): a wing that has neither been active nor seen an
active wing since its reset has none to lose. A spent wing stays JOINING and never takes over (R355). -/
def Wing.lostActive (w : Wing) : Bool :=
  w.running && decide (w.hbLimit ≤ w.psg.hbMiss) &&
    (w.ctl.role == .standby || (w.ctl.role == .joining && !w.inBringUp && !w.int.spent))

/-- The reloads of a recovery, alarm routes first, then in ascending slot order. -/
def Wing.reloadOrder (w : Wing) : List Reload :=
  let ins (r : Reload) (l : List Reload) : List Reload :=
    l.takeWhile (fun x => decide (x.slot ≤ r.slot)) ++ [r] ++ l.dropWhile fun x => decide (x.slot ≤ r.slot)
  let all := w.pan.reloads.foldl (fun l r => ins r l) []
  (all.filter fun r => w.isRoute r.key) ++ all.filter fun r => !w.isRoute r.key

/-- Recovery mode: every slot whose context is not copied whole is read again from the cellar. -/
def Wing.startReloads (w : Wing) : Wing :=
  let w1 := { w with pan := { w.pan with reloads := w.pan.reloads.map fun (r : Reload) => { r with parts := [] } } }
  w1.reloadOrder.foldl (fun w r => (w.addFetch r.key (.reload r.slot r.uncertain)).count cReload) w1

/-- Step T of R263. -/
def Wing.stepT (w : Wing) (recovery : Bool) : Wing :=
  w.raiseClaim fun w1 =>
    let w2 := w1.becomeActive.awaitReplays
    let w3 := { w2 with
      ctl := { w2.ctl with duplex := false, tkoPhase := some 0, tkoTick := w2.now, writesHeld := true, recovery := recovery }
      hall := { w2.hall with img0 := none, img1 := none } }
    let w4 := ((w3.count cTakeover).countIf recovery cRecovery).logTko (if recovery then tkRecovery else tkTakeover)
    (if recovery then w4.loadPchCfg.startReloads else w4).sendClaim

/-- The joining wing has nothing from which it can deliver (R278). -/
def Wing.orphan (w : Wing) : Wing :=
  let w1 := w.enterJoining.logTko tkOrphan
  { w1 with ctl := { w1.ctl with role := .orphan } }

/-- TAKEOVER. -/
def Wing.takeover (w : Wing) : Wing :=
  if !w.lostActive then w
  else if w.ctl.role = .standby then w.stepT false
  else if w.ctl.mark then w.stepT true
  else w.orphan

/-- The kept doorbell values, each judged against the committed positions (R153). -/
def Wing.applyKept (w : Wing) : Wing :=
  w.sliceNums.foldl (fun w s =>
    let v := w.slice s
    let w1 := w.setSlice s { v with keptTail := none, keptHead := none }
    let w2 := match v.keptTail with
      | some p => w1.applyDoorbell s 0 p
      | none => w1
    match v.keptHead with
    | some p => w2.applyDoorbell s 1 p
    | none => w2) w

/-- An unfinished command starts again (R160, R185). -/
def Wing.restartCmd (w : Wing) (ring : BitVec 12) (u : UCmd) : Wing :=
  let u1 := { u with at_ := w.now }
  let w1 := w.modSlice ring fun v => { v with ucmds := v.ucmds.map fun x => if x.pos = u.pos then u1 else x }
  if isVecOp u.opcode && w1.resident (cmdKey ring u.target) then w1.finish ring u.pos 0 Report.zero 0
  else w1.startLong ring u1

def Wing.restartCmds (w : Wing) : Wing :=
  w.sliceNums.foldl (fun w s => (w.slice s).ucmds.foldl (fun w u => w.restartCmd s u) w) w

/-- What step T+1 of R263 does before the alias copies are applied. -/
def Wing.stepT1 (w : Wing) : Wing :=
  w.applyReplays.settleReloads.applyKept.offerDrains.restartCmds

/-! ## Writes after a takeover (R171, R173, R265, R283) -/

/-- The writes that a takeover holds may begin: a porch has answered the first release, or the handover says so. -/
def Wing.writesAllowed (w : Wing) : Bool :=
  w.isActive && w.ctl.writesHeld && !w.ctl.refused &&
    ((w.ctl.tkoPhase.isNone && w.ctl.answered) || w.ctl.tkoPhase == some 9)

/-- TAKEOVER_WRITES: blocks of ticks before this one are written again. -/
def Wing.takeoverWrites (w : Wing) : Wing :=
  if w.writesAllowed then
    { w with ctl := { w.ctl with writesHeld := false } }.ringTurn fun t => decide (t.toNat < w.now.toNat)
  else w

/-! ## Loss of the standby (R25, R260, R261) -/

/-- STANDBY_LOST, at the start of the tick after the fourth missing deadline: simplex, with every frame that is not acknowledged
provisional. -/
def Wing.standbyLost (w : Wing) : Wing :=
  if w.isActive && w.ctl.duplex && decide (4 ≤ w.psg.missing) && !w.psg.ackClosed then
    let w1 := { w with ctl := { w.ctl with
      duplex := false, refused := false, stable := 0, giveWay := false, spentNext := false, holdRelease := false
      prov := some { releases := 0, answered := false } } }
    let w2 := (w1.count cStandbyLost).logTko tkStandbyLost
    if 4 < w2.hbLimit then w2.raiseClaim Wing.sendClaim else w2
  else w

/-- PROVISIONAL_COMMIT: after the second release, with an answer and no refusal. -/
def Wing.provisionalCommit (w : Wing) : Wing :=
  match w.ctl.prov with
  | some p =>
      if w.isActive && decide (2 ≤ p.releases) && p.answered && !w.ctl.refused then
        { w with ctl := { w.ctl with prov := none } }
      else w
  | none => w

/-! ## The end of recovery mode (R280) -/

/-- CODE of a record (R165). -/
def recCode (r : BitVec 256) : Byte := r.extractLsb' 8 8

/-- A RECHECK record of cause RESYNC that is decided and not written yet. -/
def Wing.recheckWaits (w : Wing) : Bool :=
  let waits (r : BitVec 256) : Bool := recOutcome r == oRecheck && recCode r == 0x04
  (w.ring.recsOrd ++ w.ring.recsDef ++ w.ring.blocks.flatMap fun b => b.commits).any fun e => waits e.2

/-- RECOVERY_MODE_END. -/
def Wing.recoveryEnds (w : Wing) : Wing :=
  if w.ctl.recovery && w.pan.reloads.isEmpty && !w.recheckWaits then { w with ctl := { w.ctl with recovery := false } } else w

/-! ## Resync (R271 to R276) -/

/-- SIMPLEX and KEEP of TKO_FORCE. -/
def Wing.forced (w : Wing) : Bool := (w.effW oTkoForce).getLsbD 0
def Wing.kept (w : Wing) : Bool := (w.effW oTkoForce).getLsbD 1 == (w.id == .west)

/-- RESYNC_START; `peerSuspect` says that the joining wing is SUSPECT or SPENT. -/
def Wing.resyncStart (w : Wing) (peerSuspect : Bool) : Wing :=
  if w.isActive && w.ctl.sendPos.isNone && !w.ctl.duplex && w.psg.peerJoining && w.autoResync && !w.forced &&
      decide (0 < lanesIn w.psg.map) && !peerSuspect then
    ({ w with ctl := { w.ctl with
      sendPos := some 0, backlog := [], aligned := [], mark := false, rsySilent := 0 } }.count cResyncStart).sampleCopies
  else w

/-- RESYNC_ABORT. -/
def Wing.resyncAbort (w : Wing) : Wing :=
  if w.isActive && w.ctl.sendPos.isSome && decide (w.hbLimit ≤ w.ctl.rsySilent) then
    let w1 := { w with
      ctl := { w.ctl with sendPos := none, backlog := [], aligned := [], mark := false, rsySilent := 0 }
      psg := { w.psg with copies := [], peerJoining := false } }
    w1.count cResyncAbort
  else w

/-- The joining wing after frame c: standby, with ACK c. -/
def Wing.joined (w : Wing) : Wing :=
  let c := w.ctl.joinTick
  let w1 := { w with
    ctl := { w.ctl with role := .standby, joinPos := none, mark := false, digestFrom := c + 2, digestRun := 0 }
    psg := { w.psg with ackValid := true, ack := if w.psg.ackValid then w.psg.ack else c, hbMiss := 0, arrFills := [] } }
  (w1.loadPchCfg.count cResyncDone).logTko tkResyncDone

/-- The active wing at the start of tick c+2: duplex. -/
def Wing.resynced (w : Wing) : Wing :=
  let c := w.ctl.joinTick
  let w1 := { w with
    ctl := { w.ctl with duplex := true, sendPos := none, aligned := [], mark := false, rsySilent := 0, prov := none }
    psg := { w.psg with
      ackedValid := true, missing := 0, copies := [], peerJoining := false
      acked := if w.psg.ackedValid && decide (c.toNat ≤ w.psg.acked.toNat) then w.psg.acked else c } }
  (w1.count cResyncDone).logTko tkResyncDone

/-- RESYNC_DONE. -/
def Wing.resyncDone (w : Wing) : Wing :=
  if w.running && w.ctl.role == .joining && w.ctl.joinPos == some walkEnd && w.psg.hold.isEmpty && w.pan.reloads.isEmpty &&
      !(w.psg.rx.any fun f => decide (f.tick.toNat ≤ w.ctl.joinTick.toNat)) then w.joined
  else if w.isActive && w.ctl.sendPos == some walkEnd && w.ctl.backlog.isEmpty &&
      decide (w.ctl.joinTick.toNat + 2 ≤ w.now.toNat) then w.resynced
  else w

/-! ## Return of the home wing (R281 to R283) -/

/-- HANDOVER_SCHEDULE, in the tick in which the count has reached 2^22. -/
def Wing.scheduleHandover (w : Wing) : Wing :=
  if w.isActive && w.ctl.stable.toNat == 2 ^ 22 && w.autoReturn && !w.handoverPending && !w.ctl.returning then
    { w with ctl := { w.ctl with returning := true } }.placeHandover true (w.now + 8)
  else w

/-- The new wing raises its claim in tick H+1, once: from then on it is the highest that the wing has seen. -/
def Wing.claimHandover (w : Wing) (f : Wing → Wing) : Wing :=
  if w.ctl.claim == w.ctl.seen then f w else w.raiseClaim fun x => f x.sendClaim

/-- The new wing's step of tick H+1: it takes the active role and admits what it holds; the porches' replays follow at the close of the
tick. What has come of the old wing's last frame stays. -/
def Wing.takeOverRole (w : Wing) : Wing :=
  let h := w.handoverTick
  w.claimHandover fun w1 =>
    let w2 := w1.becomeActive.awaitReplays
    let b := w2.baseBudget
    let w3 := { w2 with
      ctl := { w2.ctl with duplex := true, tkoPhase := some 8, tkoTick := w2.now, writesHeld := true }
      psg := { w2.psg with
        ackedValid := true, acked := h, rx := w1.psg.rx.filter fun f => decide (h.toNat < f.tick.toNat)
        lost := w1.psg.lost.filter fun x => decide (h.toNat < x.tick.toNat) }
      vst := { w2.vst with arrLeft := b, clmLeft := b, cmpLeft := b, cred := [] }
      pwr := { w2.pwr with given := b } }
    (((w3.count cReturn).logTko tkReturn).placeHandover false h).admitStaged

/-- HANDOVER, from 32 ns into tick H+1: the claim is raised, and once the new wing has applied frame H it takes the role. The old wing's
part of it is its last tick. -/
def Wing.handover (w : Wing) : Wing :=
  if w.isStandby && w.handoverPending && decide (w.handoverTick.toNat < w.now.toNat) then
    if w.psg.ackValid && w.psg.ack == w.handoverTick then w.takeOverRole else w.claimHandover fun x => x
  else w

/-! ## The commands -/

/-- STANDBY_LOST (R25, R260, R261). -/
def execStandbyLost (w : WingId) (s : State) : Host.Outcome State Fault Refusal := nextWing s w Wing.standbyLost

/-- PROVISIONAL_COMMIT (R260). -/
def execProvisionalCommit (w : WingId) (s : State) : Host.Outcome State Fault Refusal := nextWing s w Wing.provisionalCommit

/-- TAKEOVER (R263, R278, R279). -/
def execTakeover (w : WingId) (s : State) : Host.Outcome State Fault Refusal := nextWing s w Wing.takeover

/-- TAKEOVER_WRITES (R265). -/
def execTakeoverWrites (w : WingId) (s : State) : Host.Outcome State Fault Refusal := nextWing s w Wing.takeoverWrites

/-- RECOVERY_MODE_END (R280). -/
def execRecoveryModeEnd (w : WingId) (s : State) : Host.Outcome State Fault Refusal := nextWing s w Wing.recoveryEnds

/-- RESYNC_START (R271). -/
def execResyncStart (w : WingId) (s : State) : Host.Outcome State Fault Refusal :=
  nextWing s w fun v =>
    let o := s.wing (otherWing w)
    v.resyncStart (o.ctl.suspect || o.int.spent)

/-- RESYNC_ABORT (R271). -/
def execResyncAbort (w : WingId) (s : State) : Host.Outcome State Fault Refusal := nextWing s w Wing.resyncAbort

/-- RESYNC_DONE (R276). -/
def execResyncDone (w : WingId) (s : State) : Host.Outcome State Fault Refusal := nextWing s w Wing.resyncDone

/-- HANDOVER_SCHEDULE (R282). -/
def execHandoverSchedule (w : WingId) (s : State) : Host.Outcome State Fault Refusal := nextWing s w Wing.scheduleHandover

/-- HANDOVER (R283). -/
def execHandover (w : WingId) (s : State) : Host.Outcome State Fault Refusal := nextWing s w Wing.handover

end Sys2Proof.Machine
end

