-- ==== Sys2Proof/Machine/BringUp.lean ====
section
/-! DEFINITION. Bring-up: the save area's trailer (11_power.md R305), START and its steps (15_register_map.md R388,
16_boundary_and_bringup.md R408, R410), wing reset, its release and the cellar key (R405), and the rhythm of TICK_SYNC (R400). -/

namespace Sys2Proof.Machine

/-! ## The save area (R305) -/

/-- The words of a save area in walk order, those that are 0 not listed. -/
def SaveArea.map (a : SaveArea) : SMap DWord :=
  a.words.foldl (fun m e => if e.1 < backlogAt ∧ e.2 ≠ 0 then SMap.insert m e.1 e.2 else m) []

/-- The CRC-32C over the image and bytes 0 to 19 of the trailer. -/
def saveCrc (ws : SMap DWord) (head : BitVec 160) : Word :=
  let n := 8 * backlogAt
  let image : List (Nat × Word) := ws.flatMap fun (e : Nat × DWord) => [(8 * e.1, loWord e.2), (8 * e.1 + 4, hiWord e.2)]
  let tail : List (Nat × Word) := (List.range 5).map fun i => (n + 4 * i, (head.extractLsb' (32 * i) 32 : Word))
  ~~~ (crcSparse (n + 20) 0 0xFFFFFFFF (image ++ tail))

/-- Bytes 0 to 19 of a trailer: claim number, highest seen value, tick of E, number of words. -/
def trailerHead (claim seen : Word) (e : Tick) : BitVec 160 :=
  BitVec.ofNat 32 backlogAt ++ 0#8 ++ e ++ seen ++ claim

def saveTrailer (ws : SMap DWord) (claim seen : Word) (e : Tick) : BitVec 512 :=
  let head := trailerHead claim seen e
  0#320 ++ saveCrc ws head ++ head

/-- What a trailer that passes the checks of R306 says: the claim number, the highest seen value, and the tick of E. -/
def readTrailer (a : SaveArea) : Option (Word × Word × Tick) :=
  let head : BitVec 160 := a.trailer.extractLsb' 0 160
  if head.extractLsb' 128 32 = BitVec.ofNat 32 backlogAt ∧ a.trailer.extractLsb' 160 32 = saveCrc (SaveArea.map a) head then
    some (head.extractLsb' 0 32, head.extractLsb' 32 32, head.extractLsb' 64 56)
  else none

/-- PWR_SAVE_BASE.VALID and BASE. -/
def Wing.saveValid (w : Wing) : Bool := (w.effW oPwrSaveBase).getLsbD 0
def Wing.saveBase (w : Wing) : DWord := w.effD oPwrSaveBase &&& 0xFFFFFFFFFFE00000

/-! ## The tick counter of a wing with no active wing to copy from (R324, R408) -/

/-- No anchor is valid: the counter starts above the saved tick of E, and TIME_LOST is set. -/
def Wing.timeLost (w : Wing) : Wing := w.onHearth fun h => { h with timeLost := true }

/-- The value with which the counter starts, and the wing with RECONCILED and TIME_LOST as the rebuild leaves them; `e` is the saved
tick of E. -/
def Wing.rebuildTick (w : Wing) (e : Option Tick) : Tick × Wing :=
  let marked (v : Wing) : Wing := { v with ctl := { v.ctl with reconciled := true } }
  match w.hrt.rebuilt, e with
  | some t, _ => (t, marked w)
  | none, some t => (t + 1, marked w.timeLost)
  | none, none => (0, w)

/-! ## START (R388, R408) -/

/-- The wing meets the conditions of a START. -/
def Wing.canStart (w : Wing) : Bool :=
  !w.ctl.booting && w.keyValid && (w.effW oBootParam).getLsbD 0 && w.ctl.claim == resetClaim w.id &&
    !w.ctl.seenActive

/-- Step 1: the counter, obtained anew by every START, then the reads of slice 0's parameter block. A rebuild first waits for a raw edge
(R324, R408); a counter that starts at 0 waits for none. A wing that a wake from Deep left without a role is in Run from here. -/
def Wing.start (w : Wing) (save : Option SaveArea) : Wing :=
  let e := if w.saveValid then (save.bind readTrailer).map fun t => t.2.2 else none
  let j : Job := { pos := 0, opcode := opCreate, phase := .reading, param := 0, left := 0, got := [], retried := [] }
  let w1 := { w with
    life := if w.life == Life.outOfService || w.life == Life.deepWake then Life.run else w.life
    ctl := { w.ctl with booting := true, bootChecked := false } }.setJob 0 j
  let w2 := if w1.hrt.rebuilt.isNone && e.isNone then { w1 with ctl := { w1.ctl with tickDue := some 0 } }.askBlock 0
    else { w1 with ctl := { w1.ctl with rawWait := some e } }
  w2.showEn w.psgEn

/-- The raw edge for which a rebuild waits (R324): the counter starts at the next boundary, and a START goes on with its reads. -/
def Wing.rawSeen (w : Wing) : Wing :=
  match w.ctl.rawWait with
  | none => w
  | some e =>
      let r := w.rebuildTick e
      let w1 := { r.2 with
        ctl := { r.2.ctl with tickDue := some r.1, rawWait := none }
        pwr := { r.2.pwr with wakeTick := if w.life == Life.deepWake then r.1.setWidth 64 else r.2.pwr.wakeTick } }
      if w1.ctl.booting then w1.askBlock 0 else w1

/-- First writes under dual control that no second write has paired are discarded at the claim of a START (R378). -/
def Wing.dropUnpaired (w : Wing) : Wing :=
  { w with regs := { w.regs with dual := [] } }.countN cDualExpire w.regs.dual.length

/-- Step 2, at the tick boundary after the checks: the claim, the active role in simplex, INIT to every porch that is up (R410). -/
def Wing.startClaim (w : Wing) : Wing :=
  if w.ctl.booting && w.ctl.bootChecked && w.ctl.role != .active then
    w.dropUnpaired.raiseClaim fun w1 =>
      let w2 := w1.becomeActive
      let w3 := { w2 with ctl := { w2.ctl with duplex := false, tkoPhase := none, writesHeld := false } }
      w3.poweredPorches.foldl (fun x p => x.sendInit p) w3
  else w

/-- The FINISH of slice 0's creation with its PARAM records (R411). -/
def Wing.placeBoot (w : Wing) (b : BitVec 1024) : Wing :=
  let offs := paramOffsets opCreate
  let f : FinishRec :=
    { result := 0, ring := 0, hasLast := false, pos := 0, count := 0, cfgw := 0, status := 0, lastCore := 0
      nParam := BitVec.ofNat 8 offs.length }
  (offs.map fun o => Rec.param { off := BitVec.ofNat 8 o, data := pbWord b o }).foldl (fun w r => w.place r) (w.place (.finish f))

/-- START_COMPLETE: every write of the creation is accepted; the effects follow at the close of the frame. -/
def Wing.startComplete (w : Wing) : Wing :=
  match (w.slice 0).job with
  | some j =>
      if w.ctl.booting && w.isActive && j.phase == .writing && j.left == 0 then
        (w.setJob 0 { j with phase := .written }).placeBoot j.param
      else w
  | none => w

/-! ## Reset (R405, R407) -/

/-- WING_RST_N falls: every register but the hearth's takes its reset value, and all else is discarded. The levels on the pins and
the porch domains that are on are the chip's. -/
def Wing.assertReset (w : Wing) : Wing :=
  let v := Wing.resetWith w.id w.aptBase w.portGen w.hrt
  { v with vst := { v.vst with levels := w.vst.levels }, pwr := { v.pwr with domOn := w.pwr.domOn } }

/-- WING_RST_N rises: the straps are sampled, and the wing waits for its key. -/
def Wing.leaveReset (w : Wing) (aptBase : BitVec 40) (portGen : BitVec 64) : Wing :=
  if w.life = .held then
    let v := Wing.resetWith w.id aptBase portGen w.hrt
    let v1 := { v with life := .keyWait, vst := { v.vst with levels := w.vst.levels }, pwr := { v.pwr with domOn := w.pwr.domOn } }
    (List.range 64).foldl (fun (x : Wing) b => x.noteBankWake b bwReset) v1
  else w

/-- The first cycle of SEC_KEY_VALID: the wing takes the key, and goes live at the next tick boundary. -/
def Wing.takeKey (w : Wing) (key : BitVec 128) : Wing :=
  if w.life = .keyWait ∧ w.keyValid = false then { w with key := key, keyValid := true } else w

/-! ## The commands -/

/-- RAW_EDGE (R319): a rising edge of HRT_CLK32 at a wing and its hearth. -/
def execRawEdge (w : WingId) (s : State) : Host.Outcome State Fault Refusal :=
  nextWing s w fun v => (v.onHearth fun h => h.edge v.now).rawSeen

/-- START_COMPLETE (R388). -/
def execStartComplete (w : WingId) (s : State) : Host.Outcome State Fault Refusal := nextWing s w Wing.startComplete

/-- WING_RESET (R405); HRT_DEEP is 0 in reset (R404), and with both wings in reset the cluster rails go off (R407). -/
def execWingReset (w : WingId) (s : State) : Host.Outcome State Fault Refusal :=
  .next (s.onWing w fun v =>
    (v.assertReset.showEn v.psgEn).when (v.life == .deep) fun (x : Wing) => x.emit (.hrtDeep x.id false)).dropRails

/-- WING_RESET_RELEASE (R402, R405). -/
def execWingResetRelease (w : WingId) (aptBase : BitVec 40) (portGen : BitVec 64) (s : State) :
    Host.Outcome State Fault Refusal :=
  nextWing s w fun v => v.leaveReset aptBase portGen

/-- KEY_DELIVERY (R405). -/
def execKeyDelivery (w : WingId) (key : BitVec 128) (s : State) : Host.Outcome State Fault Refusal :=
  nextWing s w fun v => v.takeKey key

/-- TICK_SYNC_BREAK (R400): the wing keeps its own count. -/
def execTickSyncBreak (w : WingId) (s : State) : Host.Outcome State Fault Refusal :=
  nextWing s w fun v =>
    if v.life = .held ∨ v.life = .deep then v else { v with ctl := { v.ctl with tsyncErr := true } }

end Sys2Proof.Machine
end

