-- ==== Sys2Proof/Machine/Opening.lean ====
section
/-! DEFINITION. What opens a tick of Run: budgets (01_wings_and_tick.md R21), the sample of the cores (04_hall_ranking_steering.md R90),
level sources sampled again (02_vestibule.md R45), INIT beats (05_porches.md R142), and the levels and timers of a wing
(11_power.md R289, 12_hearth.md R326). -/

namespace Sys2Proof.Machine

/-! ## Budgets (R21, R239, R275) -/

/-- The budgets of arrivals, claims and completions, and the slices' credits, of the tick that opens. -/
def Wing.openBudgets (w : Wing) : Wing :=
  let b := w.budget
  { w with
    vst := { w.vst with arrLeft := b, clmLeft := b, cmpLeft := b, cred := [] }
    pwr := { w.pwr with given := b } }

/-! ## The sample of the cores (R90, R142, R143) -/

/-- A core as its porch's latest STATUS shows it. Of a porch that sends nothing, the last SLICE_CUR and sleep class stand. -/
def Wing.coreSeen (w : Wing) (c : Nat) : CoreSt :=
  match SMap.find? w.pch.status c with
  | some st =>
      let on := w.pwr.domOn.getLsbD (c / 8)
      { cur := st.extractLsb' 0 12, sleep := st.extractLsb' 12 2, on := on && st.getLsbD 14, fault := on && st.getLsbD 15 }
  | none => { w.coreSt c with on := false, fault := false }

/-- The record of a group of four cores as they are seen now. -/
def Wing.coreRecord (w : Wing) (g : Nat) : CoreStateRec :=
  let word (i : Nat) : BitVec 16 := (w.coreSeen (4 * g + i)).word
  { group := BitVec.ofNat 6 g, rchkN := 0, words := word 3 ++ word 2 ++ word 1 ++ word 0 }

/-- A group with a change goes into the frame, with the number of RECHECK records that its faults decide (R143, R175). -/
def Wing.sampleGroup (w : Wing) (g : Nat) : Wing :=
  if ((List.range 4).any fun i => w.coreSeen (4 * g + i) != w.coreSt (4 * g + i)) && w.roomDeferred 1 then
    let r := w.coreRecord g
    let keys := (w.newFaults r).flatMap w.activeAt
    let n := min keys.length (w.free 0 - 16).toNat
    w.place (.coreState { r with rchkN := BitVec.ofNat 16 n })
  else w

/-- A record that the frame before left over goes, and its group is sampled as it is now. -/
def Wing.sampleCores (w : Wing) : Wing :=
  let stale : Rec → Bool
    | .coreState _ => true
    | _ => false
  if w.ownsFrame then
    (List.range 64).foldl Wing.sampleGroup { w with psg := { w.psg with defr := w.psg.defr.filter fun r => !stale r } }
  else w

/-! ## Level sources sampled again at a takeover (R45, R263) -/

/-- Every enabled level source that is asserted and whose vector is IDLE registers an observation, and so does each that owes one in this
tick (`due`), a completion or a new entry of the frame before having called for it (R37, R38). -/
def Wing.resampleIdle (w : Wing) (due : List Nat) : Wing :=
  let idle (i : Nat) : Bool := w.levelAsserted w.vst.levels i && w.vectorIdle (loWord (w.srcCfg i))
  w.registerSources ((List.range 1024).filter fun i => due.contains i || idle i) w.now

/-! ## INIT (R142, R144, R406) -/

/-- A porch whose domain powered up, or whose PCH_CFG changed, is sent INIT by a wing that is ACTIVE or STANDBY. -/
def Wing.sendInits (w : Wing) : Wing :=
  let due := w.pch.initDue
  let w1 := { w with pch := { w.pch with initDue := [] } }
  if w1.ctl.role = .active ∨ w1.ctl.role = .standby then
    (due.filter fun p => w1.pwr.domOn.getLsbD (p / 8)).foldl (fun w p => w.sendInit (BitVec.ofNat 8 p)) w1
  else w1

/-! ## Timers after a gap (R326) -/

/-- Filter entries whose life has ended (R211). -/
def Wing.expireFilter (w : Wing) : Wing :=
  let live : List (Nat × FilterEnt) :=
    w.vst.filter.filter fun e => !decide (e.2.tick.toNat + 65536 ≤ w.now.toNat)
  { w with vst := { w.vst with filter := live } }

end Sys2Proof.Machine
end

