-- ==== Sys2Proof/Machine/Registers.lean ====
section
/-! DEFINITION. The register port's writes (14_register_behaviour.md R362 to R384): their checks in order, local and mirrored fields,
lock bits, dual control, alias copies, the snapshot, and the accesses that wait at the port. -/

namespace Sys2Proof.Machine

/-! ## Who takes a mirrored write (R365) -/

/-- The wing applies a write to mirrored fields. -/
def Wing.takesMirrored (w : Wing) : Bool := (w.ctl.role == .active && !w.lastTick) || w.inBringUp

/-- An alias copy of a mirrored write that the wing does not apply is answered OK (R379). -/
def Wing.passive (w : Wing) (a : RegAccess) : Bool := a.alias_ && !w.takesMirrored

/-! ## The checks of one half (R362, R365, R375, R223, R285, R315, R357, R388) -/

/-- A lock bit guards the word, as the lock is stored (R366). -/
def Wing.locked (w : Wing) (k : Nat) : Bool :=
  if 0x0220 ≤ k ∧ k < 0x0240 then (w.cfgW oCfgLock).getLsbD 0
  else if (routeLine k).isSome ∨ k = oEngEsc then w.routeLocked
  else if k = oIntSigRef ∨ k = oIntSigRef + 4 then (w.cfgW oIntCtrl).getLsbD 8
  else if k = ikey aHrtCalSet ∨ k = ikey (aHrtCalSet + 4) then w.calLocked
  else false

/-- The word with the written bytes. -/
def mergeWord (old m d : Word) : Word := (old &&& ~~~m) ||| (d &&& m)

/-- The mirrored word that a half would leave: bits that software does not write stand, and a set lock bit stays set. -/
def Wing.merged (w : Wing) (h : Nat × Word × Word) : Word :=
  let old := w.cfgW h.1
  mergeWord old (h.2.1 &&& rwMask h.1) h.2.2 ||| (old &&& lockMask h.1)

/-- The reason for which a half of `n` bytes is refused. -/
def Wing.halfError (w : Wing) (passive : Bool) (n : Nat) (h : Nat × Word × Word) : Option (BitVec 4) :=
  let k := h.1
  if (dualBit k).isSome ∧ n ≠ 4 then some reNarrow
  else if isMirrored k then
    if passive then none
    else if !w.takesMirrored then some reNotActive
    else if w.locked k then some reLocked
    else if (dualBit k).isNone && !valueOk k (w.merged h) then some reValue
    else none
  else if w.locked k then some reLocked
  else if k = oWingCtrl ∧ (h.2.1 &&& h.2.2).getLsbD 0 ∧ !w.canStart then some reValue
  else none

/-- The first failing half, with its reason. -/
def Wing.firstError (w : Wing) (passive : Bool) (n : Nat) (hs : List (Nat × Word × Word)) : Option (Nat × BitVec 4) :=
  hs.findSome? fun h => (w.halfError passive n h).map fun r => (h.1, r)

/-! ## Local fields (R364, R371, R372) -/

/-- Every counter and gauge is captured in its holding register. -/
def Wing.snapshot (w : Wing) : Wing :=
  { w with regs := { w.regs with
      hold := counterOffs.foldl (fun m o => SMap.set m 0 (o + 0x1000) (w.countWord o)) w.regs.hold
      snapSeq := w.regs.snapSeq + 1, snapTick := w.now, snapPend := false } }

/-- A capture that waits for the boundary. -/
def Wing.takeSnap (w : Wing) : Wing := if w.regs.snapPend then w.snapshot else w

/-- SNAP_CTRL: NOW captures at once, BOUNDARY at the next tick boundary. -/
def Wing.snapCtrl (w : Wing) (x : Word) : Wing :=
  let w1 := if x.getLsbD 0 then { w.snapshot with regs := { w.snapshot.regs with snapPend := w.regs.snapPend } } else w
  if x.getLsbD 1 then { w1 with regs := { w1.regs with snapPend := true } } else w1

/-- A half of a 64-bit value replaced in the written bytes. -/
def mergePair (old : DWord) (o : Nat) (m d : Word) : DWord :=
  if o % 8 = 0 then hiWord old ++ mergeWord (loWord old) m d else mergeWord (hiWord old) m d ++ loWord old

/-- A half written to a local word; a word that software does not write keeps its value. -/
def Wing.writeLocal (w : Wing) (save : Option SaveArea) (h : Nat × Word × Word) : Wing :=
  let k := h.1
  let m := h.2.1
  let d := h.2.2
  if k = oIndAddr then { w with regs := { w.regs with indAddr := mergeWord w.regs.indAddr (m &&& 0x00FFFFFC) d } }
  else if k = oIndCtrl then
    let v := mergeWord (w.windowReg oIndCtrl) m d
    { w with regs := { w.regs with indPeek := v.getLsbD 1, indInc := v.getLsbD 0 } }
  else if k = oSnapCtrl then w.snapCtrl (m &&& d)
  else if k = oWingCtrl then (if (m &&& d).getLsbD 0 then w.start save else w)
  else if k = ikey aHrtCalSet ∨ k = ikey (aHrtCalSet + 4) then
    w.setCalendar ((mergePair (0#1 ++ w.hrt.calSet) k m d).extractLsb' 0 63)
  else if k = ikey aHrtCtrl then (if (m &&& d).getLsbD 0 then w.askPair else w)
  else if isCounter (k / 8 * 8) then w.setCtr (k / 8 * 8) (mergePair (w.ctr (k / 8 * 8)) k m d)
  else w

/-! ## Mirrored fields (R244, R364 to R367) -/

/-- The REGW record of a word. -/
def regwFor (k : Nat) (v : Word) (req : Byte) (pend : Bool) : RegwRec :=
  if k < 0x10000 then { space := 0, dualPend := pend, req := req, addr := BitVec.ofNat 32 k, val := v }
  else { space := 1, dualPend := pend, req := req, addr := BitVec.ofNat 32 (k - 0x10000), val := v }

/-- A half of a mirrored write in the active wing: stored, and carried as a record. -/
def Wing.storeHalf (w : Wing) (req : Byte) (h : Nat × Word × Word) : Wing × RegwRec :=
  let r := regwFor h.1 (w.merged h) req false
  (((w.setCfg h.1 r.val).dropLocked).place (.regw r), r)

/-- A half of a mirrored write under the bring-up exception: applied without a record. -/
def Wing.applyHalf (w : Wing) (h : Nat × Word × Word) : Wing := (w.setWord h.1 (w.merged h)).dropLocked

/-! ## Dual control (R330, R376 to R378) -/

/-- The time in which windows are measured: ticks, or TICK_SYNC periods under the bring-up exception. -/
def Wing.dualNow (w : Wing) : DWord := if w.inBringUp then w.ctl.syncCount else w.now.setWidth 64

/-- The last record of the frame under formation on the register `k`: it settles what is pending there when the frame closes. -/
def Wing.dualPlaced (w : Wing) (k : Nat) : Option RegwRec :=
  (w.psg.defr.filterMap fun r => match r with
    | .regw x => if regwKey x = k then some x else none
    | _ => none).getLast?

/-- The pending first write on a register. Writes of one frame are judged one after the other. -/
def Wing.dualFor (w : Wing) (k : Nat) : Option DualHeld :=
  match w.dualPlaced k with
  | some r => if r.dualPend then some { addr := k, val := r.val, req := r.req, at_ := w.dualNow } else none
  | none => w.regs.dual.find? fun h => h.addr == k

/-- The window of 65,536 ticks has closed before this tick. -/
def DualHeld.late (h : DualHeld) (now : DWord) : Bool := decide (h.at_.toNat + 65536 < now.toNat)

/-- A register's own checks on a second write: those of R330 for ALM_ROUTE. ENG_ESC names a line and no vector: of R330's checks only the lock
applies to it (DEDUCED, log 123). -/
def Wing.dualCheck (w : Wing) (k : Nat) (v : Word) : Bool :=
  if (routeLine k).isSome then
    let s := w.slice (keySlice v)
    (s.state == .running || s.state == .quiescing || s.state == .quiesced) &&
      decide ((keyVV v).toNat < 2 ^ s.vtLog2.toNat) && !w.isQuarantined v
  else true

/-- What a write to a register under dual control comes to. -/
inductive DualJudged
  | first
  | pair
  | refused (reason : BitVec 4)
  deriving DecidableEq, Repr

def Wing.judgeDual (w : Wing) (k : Nat) (v : Word) (req : Byte) : DualJudged :=
  match w.dualFor k with
  | none => .first
  | some h =>
      if h.late w.dualNow || h.req == req then .first
      else if h.val != v then .refused reDualMismatch
      else if w.dualCheck k v then .pair
      else .refused reDualCheck

/-- A pending first write whose window has closed is discarded and counted (R377). -/
def Wing.dropLate (w : Wing) (k : Nat) : Wing :=
  match w.dualFor k with
  | some h => if h.late w.dualNow then (w.dropDual k).count cDualExpire else w
  | none => w

/-- A write under dual control that the wing takes: the wing, the records, and the reason of a refusal. Under the bring-up exception
there are no records. -/
def Wing.dualWrite (w : Wing) (k : Nat) (v : Word) (req : Byte) : Wing × List RegwRec × Option (BitVec 4) :=
  let w0 := w.dropLate k
  match w.judgeDual k v req with
  | .first =>
      if w.inBringUp then
        let w1 := w0.dropDual k
        let d : DualHeld := { addr := k, val := v, req := req, at_ := w.dualNow }
        ({ w1 with regs := { w1.regs with dual := w1.regs.dual ++ [d] } }, [], none)
      else
        let r := regwFor k v req true
        (w0.place (.regw r), [r], none)
  | .pair =>
      if w.inBringUp then ((w0.dropDual k).setWord k (v &&& rwMask k), [], none)
      else
        let r := regwFor k (v &&& rwMask k) req false
        (w0.place (.regw r), [r], none)
  | .refused reason =>
      let w1 := (w0.dropDual k).count cDualReject
      if w.inBringUp then (w1, [], some reason)
      else
        let r := regwFor k (w.cfgW k) req false
        (w1.place (.regw r), [r], some reason)

/-! ## A mirrored write as a whole -/

/-- Each half stored, with the records in address order. -/
def Wing.storeHalves (w : Wing) (req : Byte) (hs : List (Nat × Word × Word)) : Wing × List RegwRec :=
  hs.foldl (fun (a : Wing × List RegwRec) h =>
    let b := a.1.storeHalf req h
    (b.1, a.2 ++ [b.2])) (w, [])

/-- The mirrored halves of a write that passed its checks. -/
def Wing.writeMirrored (w : Wing) (req : Byte) (hs : List (Nat × Word × Word)) : Wing × List RegwRec × Option (BitVec 4) :=
  match hs with
  | [h] =>
      if (dualBit h.1).isSome then w.dualWrite h.1 h.2.2 req
      else if w.inBringUp then (w.applyHalf h, [], none)
      else
        let b := w.storeHalf req h
        (b.1, [b.2], none)
  | _ =>
      if w.inBringUp then (hs.foldl (fun x h => x.applyHalf h) w, [], none)
      else
        let b := w.storeHalves req hs
        (b.1, b.2, none)

/-! ## Alias copies (R379, R381) -/

/-- A standby keeps the copy; a 33rd displaces the oldest. -/
def Wing.keepCopy (w : Wing) (a : RegAccess) (hs : List (Nat × Word × Word)) : Wing :=
  if w.ctl.role = .standby ∨ w.lastTick then
    let c : RegCopy := { halves := hs, req := a.req, tick := w.now, path := pathOf a, strb := a.strb }
    let l := w.regs.aliasKept ++ [c]
    if 32 < l.length then { w with regs := { w.regs with aliasKept := l.drop 1 } }.count cAliasDrop
    else { w with regs := { w.regs with aliasKept := l } }
  else w

/-- A kept copy is applied by a new active wing, or logged where its checks refuse it. -/
def Wing.applyCopy (w : Wing) (c : RegCopy) : Wing :=
  let n := match runOf c.strb with
    | some r => r.2
    | none => 0
  let note (v : Wing) (k : Nat) (reason : BitVec 4) : Wing := { v with regs := { v.regs with
    regErrLog := logFirst v.regs.regErrLog (regErrEntry reason c.req c.path c.strb (keyAddr k)) } }
  match w.firstError false n c.halves with
  | some e => note w e.1 e.2
  | none =>
      let r := w.writeMirrored c.req c.halves
      match r.2.2 with
      | some reason => note r.1 ((c.halves.map (·.1)).headD 0) reason
      | none => r.1.count cAliasApplied

/-- The copies that a new active wing still holds, oldest first (R263, R381). -/
def Wing.applyCopies (w : Wing) : Wing :=
  w.regs.aliasKept.foldl (fun w c => w.applyCopy c) { w with regs := { w.regs with aliasKept := [] } }

/-! ## A write that the wing takes -/

/-- IND_ADDR after an indirect access that was answered OK. -/
def Wing.indStep (w : Wing) (path : BitVec 2) (strb : Byte) : Wing :=
  match runOf strb with
  | some r => if path = 2 then w.indNext r else w
  | none => w

/-- The write's own effect. -/
def Wing.doWrite (w : Wing) (a : RegAccess) : Wing :=
  match runOf a.strb with
  | none => w.refuseAccess a reUnaligned (0#8 ++ a.addr)
  | some r =>
      let hs := w.keyHalves a r
      let w0 := if isIndirect a then { w with regs := { w.regs with indCap := none } } else w
      match w.firstError (w.passive a) r.2 hs with
      | some e => w0.refuseAccess a e.2 (keyAddr e.1)
      | none =>
          let mir := hs.filter fun h => isMirrored h.1
          let w1 := (hs.filter fun h => !isMirrored h.1).foldl (fun x h => x.writeLocal a.save h) w0
          if mir = [] then (w1.indStep (pathOf a) a.strb).portOk 0
          else if w.passive a then ((w1.keepCopy a mir).indStep (pathOf a) a.strb).portOk 0
          else
            let b := w1.writeMirrored a.req mir
            match b.2.2, b.2.1 with
            | some reason, _ => b.1.refuseAccess a reason (keyAddr ((mir.map (·.1)).headD 0))
            | none, [] => (b.1.indStep (pathOf a) a.strb).portOk 0
            | none, rs =>
                { b.1 with regs := { b.1.regs with
                    portHeld := some { recs := rs, req := a.req, path := pathOf a, strb := a.strb
                                       old := mir.map fun h => (h.1, w.cfgW h.1), dual := w.regs.dual } } }

/-! ## The port (R300, R360, R367, R403) -/

/-- A write to PWR_VOTE alone. -/
def isVoteWrite (a : RegAccess) : Bool :=
  match runOf a.strb with
  | some r => (accHalves a r).map (·.1) == [oPwrVote]
  | none => false

/-- The access waits: behind a mirrored write that is not answered, or until Run while the wing sleeps. -/
def Wing.portBlocked (w : Wing) (write : Bool) (a : RegAccess) : Bool :=
  if w.portSleeps then write && (!isVoteWrite a || w.regs.portHeld.isSome) else w.regs.portHeld.isSome

def Wing.portDo (w : Wing) (write : Bool) (a : RegAccess) : Wing := if write then w.doWrite a else w.doRead a

/-- The accesses that wait are taken in order, up to the first that waits again. -/
def drainPortIn : List (Bool × RegAccess) → Wing → Wing
  | [], w => w
  | x :: xs, w =>
      if w.portBlocked x.1 x.2 then { w with regs := { w.regs with portQueue := x :: xs } }
      else drainPortIn xs (w.portDo x.1 x.2)

def Wing.drainPort (w : Wing) : Wing := drainPortIn w.regs.portQueue { w with regs := { w.regs with portQueue := [] } }

/-- An access reaches the register port. A wing in reset answers ERROR and logs nothing; a wing that is off drives nothing. -/
def Wing.portTake (w : Wing) (write : Bool) (a : RegAccess) : Wing :=
  match w.life with
  | .held => w.emit (.regRsp w.id false 0)
  | .deep => w
  | _ =>
      if w.portBlocked write a || (!w.portSleeps && w.regs.portQueue != []) then
        let w1 := { w with regs := { w.regs with portQueue := w.regs.portQueue ++ [(write, a)] } }
        if write && !isVoteWrite a then w1.wake { source := 0x6, detail := a.req.setWidth 12 } else w1
      else w.portDo write a

/-- The frame that carries the record is committed. -/
def Wing.recCommitted (w : Wing) (r : RegwRec) : Bool :=
  !w.psg.defr.contains (.regw r) &&
    w.psg.sent.all fun f => !f.defr.contains (.regw r) || w.committed f.tick.toNat

/-- The held write is answered once the frames of its records commit; the accesses behind it go on. -/
def Wing.writeAnswer (w : Wing) : Wing :=
  match w.regs.portHeld with
  | some h =>
      if h.recs.all w.recCommitted then
        (({ w with regs := { w.regs with portHeld := none } }.indStep h.path h.strb).portOk 0).drainPort
      else w
  | none => w.drainPort

/-- Pending first writes whose window closes with this tick are discarded, but for one on which a write of this tick has its record in the
frame: that write was in time (R377, R383). -/
def Wing.expireDual (w : Wing) : Wing :=
  let closed (h : DualHeld) : Bool := decide (h.at_.toNat + 65536 ≤ w.dualNow.toNat) && (w.dualPlaced h.addr).isNone
  { w with regs := { w.regs with dual := w.regs.dual.filter fun h => !closed h } }.countN cDualExpire
    (w.regs.dual.filter closed).length

/-! ## The commands -/

/-- REGISTER_WRITE (R360 to R365, R379). -/
def execRegisterWrite (w : WingId) (a : RegAccess) (s : State) : Host.Outcome State Fault Refusal :=
  nextWing s w fun v => v.portTake true a

/-- REGISTER_WRITE_ANSWER (R367). -/
def execRegisterWriteAnswer (w : WingId) (s : State) : Host.Outcome State Fault Refusal := nextWing s w Wing.writeAnswer

/-- READ_CLEAR (R369, R370): a read of any register; its RC bits clear. -/
def execReadClear (w : WingId) (a : RegAccess) (s : State) : Host.Outcome State Fault Refusal :=
  nextWing s w fun v => v.portTake false a

/-- INDIRECT_ACCESS (R373, R374). -/
def execIndirectAccess (w : WingId) (write : Bool) (a : RegAccess) (s : State) : Host.Outcome State Fault Refusal :=
  nextWing s w fun v => v.portTake write a

/-- A write of `x` to SNAP_CTRL through the wing's own window. -/
def snapAccess (x : DWord) : RegAccess :=
  { alias_ := false, addr := BitVec.ofNat 16 oSnapCtrl, data := x, strb := 0x0F, req := 0 }

/-- START (R388): a write of 1 to WING_CTRL.START, with the save area as the wing reads it. -/
def execStart (w : WingId) (req : Byte) (save : Option SaveArea) (s : State) : Host.Outcome State Fault Refusal :=
  nextWing s w fun v => v.portTake true
    { alias_ := false, addr := BitVec.ofNat 16 oWingCtrl, data := 1, strb := 0x0F, req := req, save := save }

/-- SNAP_NOW (R372). -/
def execSnapNow (w : WingId) (s : State) : Host.Outcome State Fault Refusal :=
  nextWing s w fun v => v.portTake true (snapAccess 1)

/-- SNAP_BOUNDARY (R372). -/
def execSnapBoundary (w : WingId) (s : State) : Host.Outcome State Fault Refusal :=
  nextWing s w fun v => v.portTake true (snapAccess 2)

/-- LOCK_BIT_SET (R375). -/
def execLockBitSet (w : WingId) (a : RegAccess) (s : State) : Host.Outcome State Fault Refusal :=
  nextWing s w fun v => v.portTake true a

/-- DUAL_CONTROL_WRITE (R376). -/
def execDualControlWrite (w : WingId) (a : RegAccess) (s : State) : Host.Outcome State Fault Refusal :=
  nextWing s w fun v => v.portTake true a

/-- DUAL_PEND_EXPIRY (R377, R378): not while the wing sleeps (R326). -/
def execDualPendExpiry (w : WingId) (s : State) : Host.Outcome State Fault Refusal :=
  nextWing s w fun v => if v.running || v.life == .keyWait then v.expireDual else v

end Sys2Proof.Machine
end

