-- ==== Sys2Proof/Machine/Study.lean ====
section
/-! DEFINITION. The study's decisions: moderation windows (03_vectors_pantry_cellar.md R84), target clusters and residency
(04_hall_ranking_steering.md R104 to R109). -/

namespace Sys2Proof.Machine

/-! ## Moderation (R80, R84) -/

/-- The new window of an ADAPTIVE vector: ceiling `c`, acceptances `n` at its LAST_CORE, whether it was accepted at all. -/
def modDecide (c n : Nat) (hit : Bool) (limit win : Nat) : Nat :=
  if !hit || c == 0 then win / 2
  else if c < n then min limit (max 1 (2 * win))
  else if n < c / 2 then win / 2
  else win

/-- MOD_CEILING. -/
def Wing.ceiling (w : Wing) : Nat := ((w.effW oModCeiling).extractLsb' 0 8).toNat

/-- The decision of a count for one context, when it changes the window. -/
def Wing.modFor (w : Wing) (c : Ctx) : Option (Word × BitVec 7) :=
  if cfgModMode c.cfg ≠ 2 then none
  else
    let hit := w.hall.modAcc.contains c.key
    let n := SMap.get w.hall.modN 0 c.lastCore.toNat
    let x := modDecide w.ceiling n hit (cfgModLimit c.cfg).toNat c.modWin.toNat
    if x = c.modWin.toNat then none else some (c.key, BitVec.ofNat 7 x)

/-- Decisions in ascending key order. -/
def sortMods (l : List (Word × BitVec 7)) : List (Word × BitVec 7) :=
  l.foldl (fun m x => m.takeWhile (fun y => decide (y.1.toNat ≤ x.1.toNat)) ++ [x] ++
    m.dropWhile fun y => decide (y.1.toNat ≤ x.1.toNat)) []

/-- The decision would make a clean context dirty while more than 2,304 are (R80). -/
def Wing.modHeld (w : Wing) (key : Word) : Bool :=
  decide (2304 < w.dirtyCount) &&
    match w.ctx? key with
    | some c => !c.dirty
    | none => false

/-- A decision as its record carries it: not above the MOD_LIMIT that the vector has by then. -/
def Wing.winFor (w : Wing) (key : Word) (win : BitVec 7) : BitVec 7 := ((w.ctx? key).map fun c => c.capWin win).getD win

/-- Up to `n` decisions of the list go out as MODWIN records; the result lists those that wait. -/
def issueMods : Nat → List (Word × BitVec 7) → Wing → Wing × List (Word × BitVec 7)
  | _, [], w => (w, [])
  | 0, l, w => (w, l)
  | n + 1, d :: ds, w =>
      if w.modHeld d.1 then
        let r := issueMods (n + 1) ds w
        (r.1, d :: r.2)
      else if w.roomDeferred 1 then issueMods n ds (w.place (.modwin { win := w.winFor d.1 d.2, key := d.1 }))
      else (w, d :: ds)

/-- MODWIN records in the frame so far. -/
def Wing.modsInFrame (w : Wing) : Nat :=
  (w.psg.defr.filter fun r => match r with
    | .modwin _ => true
    | _ => false).length

/-- The tick's 16 MODWIN records; those of one count go out in the 64 ticks that begin with the count's. -/
def Wing.sendMods (w : Wing) : Wing :=
  let r := issueMods (16 - w.modsInFrame) w.hall.modQ w
  { r.1 with hall := { r.1.hall with modQ := r.2 } }

/-- The count of R84. Both wings start the counts of the next 64 ticks; the active wing decides. -/
def Wing.modTake (w : Wing) : Wing :=
  let ds := sortMods (w.ctxs.filterMap w.modFor)
  let w1 := { w with hall := { w.hall with
    modN := [], modAcc := [], nextCount := BitVec.ofNat 56 (w.now.toNat / 64 * 64 + 64) } }
  if w.isActive then
    let w2 := w1.countN cModDrop w1.hall.modQ.length
    { w2 with hall := { w2.hall with modQ := ds } }.sendMods
  else w1

/-- MODERATION_COUNT: at a tick whose number is a multiple of 64, once. -/
def Wing.modCount (w : Wing) : Wing :=
  if w.now.toNat % 64 = 0 ∧ w.hall.nextCount.toNat ≤ w.now.toNat then w.modTake else w

/-! ## Targets (R104 to R107) -/

/-- TARGET records in the frame so far. -/
def Wing.targetsInFrame (w : Wing) : Nat :=
  (w.psg.defr.filter fun r => match r with
    | .target _ => true
    | _ => false).length

/-- Decisions that fit in the frame, at most 32 TARGET records; the result lists those that wait. -/
def issueTargetsIn : List TargetRec → Wing → Wing × List TargetRec
  | [], w => (w, [])
  | r :: rs, w =>
      if w.targetsInFrame < 32 ∧ w.roomDeferred 1 then issueTargetsIn rs ((w.place (.target r)).count cSteerRetarget)
      else (w, r :: rs)

/-- Refusals first, then periodic decisions. -/
def Wing.sendTargets (w : Wing) : Wing :=
  let a := issueTargetsIn w.hall.refusals w
  let w1 := { a.1 with hall := { a.1.hall with refusals := a.2 } }
  let b := issueTargetsIn w1.hall.periodic w1
  { b.1 with hall := { b.1.hall with periodic := b.2 } }

/-- The place of a decision's vector in the order of ranking keys; that of a vector that has left the pantry is last. -/
def Wing.recRank (w : Wing) (r : TargetRec) : Nat :=
  match w.ctx? r.key with
  | some c => (w.rankKeyOf c).toNat
  | none => 2 ^ 97

/-- Decisions in key order. -/
def Wing.sortTargets (w : Wing) (l : List TargetRec) : List TargetRec :=
  l.foldl (fun m x => m.takeWhile (fun y => decide (w.recRank y ≤ w.recRank x)) ++ [x] ++
    m.dropWhile fun y => decide (w.recRank y ≤ w.recRank x)) []

/-- The refusals of a ranking join those that wait, in key order; each that does not fit in the frame is counted, and counted again in
each further tick that it waits (DESIGN CHOICE, log 95: R107 does not say which). -/
def Wing.takeRefusals (w : Wing) (v : View) (r : Ranking) : Wing :=
  let w1 := w.countN cSteerRefusal r.refused.length
  let w2 := { w1 with hall := { w1.hall with refusals := w1.sortTargets (w1.hall.refusals ++ v.refusalRecs r) } }.sendTargets
  w2.countN cSteerDefer w2.hall.refusals.length

/-- The chosen cluster beats the current target (R106). -/
def beats (new : Nat × Nat) (old : Option (Nat × Nat)) : Bool :=
  match old with
  | none => true
  | some o => decide (new.1 < o.1) || (new.1 == o.1 && decide (new.2 + 2 ≤ o.2))

/-- The periodic decision for one vector. -/
def View.reevaluate (v : View) (back : SMap Nat) (x : Cand) : Option TargetRec :=
  let uses := coreUses v.img.slots
  match v.chooseCluster back x with
  | none => none
  | some k =>
      match v.clusterValue uses back x k with
      | none => none
      | some z =>
          if k ≠ x.target ∧ beats z (v.clusterValue uses back x x.target) then some (x.targetRec k) else none

/-- The vectors to re-evaluate, in key order: multi-cluster, not FIXED, PENDING or accepted in the last 64 ticks. -/
def Wing.reevaluated (w : Wing) (v : View) : List Cand :=
  let uses := coreUses v.img.slots
  sortCands ((w.pan.slots.filter fun e => w.hall.seen64.contains e.2.ctx.key).filterMap fun e =>
    let x := v.candOf uses e.1 e.2
    if x.multi && v.mode x.set != 3 then some x else none)

/-- STEER_HOLD of HALL_CTRL. -/
def Wing.steerHold (w : Wing) : Bool := (w.effW oHallCtrl).getLsbD 8

/-- The decisions of a re-evaluation, against the ranking whose offers this tick's release carried. Where there is none (no image after a
takeover or at an exit from Nap) none is made (DESIGN CHOICE, log 96: R106 does not say). -/
def Wing.decisions (w : Wing) : List TargetRec :=
  match w.hall.img1 with
  | some a => if w.steerHold then [] else (w.reevaluated (w.view a)).filterMap fun x => (w.view a).reevaluate w.hall.backlog x
  | none => []

/-- What the 64 ticks begin with: the vectors that are PENDING as they open. -/
def Wing.restartSeen (w : Wing) : Wing :=
  let w1 := { w with hall := { w.hall with seen64 := [] } }
  match w.hall.img0 with
  | some a => w1.noteSeen a
  | none => w1

/-- The re-evaluation of R106. Decisions of the one before it that were not issued are dropped and counted (R107). -/
def Wing.reevalTake (w : Wing) : Wing :=
  if w.ownsFrame then
    let w1 := w.restartSeen.countN cSteerDrop w.hall.periodic.length
    { w1 with hall := { w1.hall with periodic := w.decisions } }.sendTargets
  else w.restartSeen

/-- STEER_REEVALUATION at a tick whose number is a multiple of 64. -/
def Wing.reevaluation (w : Wing) : Wing := if w.now.toNat % 64 = 0 then w.reevalTake else w

/-! ## Residency (R108) -/

/-- A RESIDENCY record for the slice is in the frame already. -/
def Wing.residencyPlaced (w : Wing) (s : BitVec 12) : Bool :=
  w.psg.defr.any fun r => match r with
    | .residency x => x.slice == s
    | _ => false

/-- STRANDING_LIMIT: the slice's count has reached 16 times RES_DELAY, and the record fits in slice 0's ring. -/
def Wing.strandLimit (w : Wing) (s : BitVec 12) : Wing :=
  let v := w.slice s
  match w.hall.resident.find? (fun e => e.1 == s) with
  | some e =>
      if w.ownsFrame && w.resDelay != 0 && decide (16 * w.resDelay ≤ v.strand) && !v.strandTold && !w.residencyPlaced s &&
          w.ringRoom 0 1 && w.roomDeferred 1 then
        w.place (.residency { slice := s, count := e.2.1, prio := e.2.2 })
      else w
  | none => w

/-! ## The commands -/

def execModerationCount (w : WingId) (s : State) : Host.Outcome State Fault Refusal :=
  nextWing s w fun v => if v.running then v.modCount else v

def execSteerReevaluation (w : WingId) (s : State) : Host.Outcome State Fault Refusal :=
  nextWing s w fun v => if v.running then v.reevaluation else v

def execStrandingLimit (w : WingId) (slice : BitVec 12) (s : State) : Host.Outcome State Fault Refusal :=
  nextWing s w fun v => v.strandLimit slice

end Sys2Proof.Machine
end

