-- ==== Sys2Proof/Machine/Power.lean ====
section
/-! DEFINITION. Sleep: entries to Nap and Deep and their refusals, wakes, exits, and the restore from the save area (11_power.md R299 to
R312). -/

namespace Sys2Proof.Machine

/-! ## Refusals of an entry (R303) -/

/-- A lane is TRAINING, a NAK is outstanding, or in duplex the frame before the last is not acknowledged. -/
def Wing.passageBusy (w : Wing) : Bool :=
  ((List.range 4).any fun l => (w.lane l).role == .training) || !w.psg.nakq.isEmpty ||
    (w.activeDuplex && !(w.psg.ackedValid && decide (w.now.toNat ≤ w.psg.acked.toNat + 2)))

/-- An alarm latch is set and not registered. -/
def Wing.latchWaits (w : Wing) : Bool := (List.range 16).any fun i => (w.hrt.latch i).set

/-- A quiesce, a resync, a change of level or a handover is under way. -/
def Wing.changing (w : Wing) : Bool := !w.changesQuiet || w.sl.any fun e => e.2.state == .quiescing

/-- The first condition of the table of R303 that holds in this tick, with its refuser. In duplex the active wing checks the passage and
the hearth for both. -/
def Wing.entryRefusal (w : Wing) (deep : Bool) : Option (BitVec 2 × BitVec 3) :=
  let own := rfWing w.id
  let standby := w.ctl.role == .standby
  if w.ctl.role == .active && (w.pwr.quiet == 0 || !w.isQuiet deep) then some (own, rsQuiet)
  else if w.changing then some (own, rsBusy)
  else if standby && (!w.heldObs.isEmpty || !w.vst.inbuf.isEmpty) then some (own, rsQuiet)
  else if deep && !w.saveValid then some (own, rsSave)
  else if standby then none
  else if w.passageBusy then some (rfPassage, rsLane)
  else if w.latchWaits then some (rfHearth, rsAlarm)
  else if deep && w.hrt.railLow then some (rfHearth, rsVbat)
  else none

/-- A refusal changes nothing but the log and the counters; the active wing in duplex calls its standby back. -/
def Wing.refuseEntry (w : Wing) (deep : Bool) (r : BitVec 2 × BitVec 3) : Wing :=
  let w1 := w.clearPair.noteRefusal r.1 (if deep then 2 else 1) r.2 w.now
  let w2 := { w1 with pwr := { w1.pwr with pendWake := none } }
  if w2.activeDuplex then w2.placePair 0 (w2.now + 12) else w2

/-! ## Entry (R299, R305) -/

/-- Time in ns from the start of E, write-backs apart: of step 1 with steps 3 and 4 of R299, or with steps 2 and 3 of R305. -/
def entryNs (deep : Bool) : Nat := if deep then 256 + 25966 else 256 + 6000 + 1000

/-- Ticks that the save writes take (R305), and that step 4 takes. -/
def saveTicks : Nat := 101
def offTicks : Nat := 4

/-- The entry starts: admission and the hall stop, and the active wing writes back what is dirty, one context in each ns. -/
def Wing.beginEntry (w : Wing) (deep : Bool) : Wing :=
  let k := if w.ctl.role = .active then w.dirtyCount else 0
  let ticks := (entryNs deep + k + 255) / 256
  let w1 := w.clearPair
  let w2 := { w1 with
    life := if deep then .deepEntry else .napEntry
    pwr := { w1.pwr with
      enterTick := w.now, sleepAt := w.now + BitVec.ofNat 56 ticks, wbRetried := [], doze := false, saveAt := none, offAt := none }
    vst := { w1.vst with arrLeft := 0, clmLeft := 0, cmpLeft := 0 }
    hall := { w1.hall with img0 := none, img1 := none }
    int := { w1.int with sigs := w1.int.keepSig w.now } }
  if w2.ctl.role = .active then w2.clean 64 else w2

/-- NAP_ENTRY at E. -/
def Wing.enterNap (w : Wing) : Wing :=
  if w.running && w.changeDue 1 then
    match w.entryRefusal false with
    | some r => w.refuseEntry false r
    | none => w.beginEntry false
  else w

/-- Every write of the entry is accepted. -/
def Wing.written (w : Wing) : Bool := w.pan.wbuf.isEmpty && !w.ctxs.any fun c => c.dirty

/-- The body bias and the SRAM assist of Nap, without a wing clock (R288). -/
def Power.asleep (p : Power) : Power := { p with bias := -300, assist := .retention, divider := 0 }

/-- The peer's heartbeat is lost (R25, R26). -/
def Wing.peerLost (w : Wing) : Bool :=
  if w.ctl.role = .active then w.ctl.duplex && decide (4 ≤ w.psg.missing)
  else !w.inBringUp && decide (w.hbLimit ≤ w.psg.hbMiss)

/-- The boundary after the entry's last step: the wing is in Nap, and leaves at once if a wake came meanwhile. A standby keeps the wake
for the active wing's X, but for the loss of the heartbeat (R302, R304). -/
def Wing.arriveNap (w : Wing) : Wing :=
  if w.life == .napEntry && w.pwr.sched.isNone && decide (w.pwr.sleepAt.toNat ≤ w.now.toNat) &&
      (w.ctl.role != .active || w.written) then
    let w1 := { w with life := .nap, pwr := w.pwr.asleep }.count cNapEntries
    if w1.ctl.role = .standby then
      if w1.peerLost then w1.scheduleExit { source := 0x9, detail := 0 } true else w1
    else match w1.pwr.pendWake with
      | some c => w1.scheduleExit c.2 true
      | none => w1
  else w

/-! ## A refusal that leaves the pair out of step (R303) -/

/-- A refusal by the standby leaves the pair out of step: the active wing goes back to Run at the earliest tick (R303). -/
def Wing.peerRefused (w : Wing) : Wing :=
  if w.ctl.role = .active ∧ w.ctl.duplex then
    if w.running && (w.changeDue 1 || w.changeDue 2) then w.keepWake false { source := 0x8, detail := 0 }
    else w.wake { source := 0x8, detail := 0 }
  else w

/-! ## Banks that were lost (R310 to R312) -/

/-- The banks in service that are lost: a monitor tripped, a canary differs, or a slot cannot be read. -/
def Wing.lostBanks (w : Wing) (bad : List (BitVec 7)) (ecc : List EccFind) : List Nat :=
  let broken := (ecc.filter fun f => f.array == 1 && !f.corrected).map fun f => f.unit.toNat
  (List.range 68).filter fun p =>
    (w.physBank p).state == 1 &&
      (bad.any (fun b => b.toNat == p) || w.pwr.tripped.any (fun b => b.toNat == p) || broken.contains p)

/-- The contexts of a logical bank are rebuilt: by the peer's fills in a standby, from the cellar in the active wing, whose
hall waits for those that are pinned (R78). -/
def Wing.rebuildBank (w : Wing) (b : Nat) : Wing :=
  let w0 := { w with hall := { w.hall with resuming := w.hall.resuming || w.ctl.role == .active } }
  (w.pan.slots.filter fun e => e.1 / 256 == b).foldl (fun w e =>
    let w0 := w.loseSlot e.1 e.2 false
    let w1 := { w0 with pan := { w0.pan with reloads := w0.pan.reloads.map fun (r : Reload) =>
      if r.slot = e.1 then { r with lostBank := true } else r } }
    if w1.ctl.role = .standby then w1.askContext e.2.ctx.key
    else if w1.ctl.role = .active then w1.addFetch e.2.ctx.key (.reload e.1 false)
    else w1) w0

/-- A bank that is lost: rebuilt in place the first time, and into a spare the second. -/
def Wing.loseBank (w : Wing) (p : Nat) : Wing :=
  let b := (w.logicalBank p).getD 0
  let w1 := { w with pwr := { w.pwr with bankLost := true } }.count cBankLost
  if w1.pwr.lostOnce.contains p then
    let twice := if w1.int.lostTwice.contains p then w1.int.lostTwice else w1.int.lostTwice ++ [p]
    let w2 := { w1 with int := { w1.int with lostTwice := twice } }
    match w2.spareBank with
    | some s => (w2.moveBank p s).rebuildBank b
    | none => (w2.noteBankWake p bwRebuild).rebuildBank b
  else
    let w2 := { w1 with pwr := { w1.pwr with lostOnce := w1.pwr.lostOnce ++ [p] } }
    (w2.noteBankWake p bwRebuild).rebuildBank b

/-- The scrub at the exit: corrected errors are wear, unreadable slots are noted, and lost banks are rebuilt. -/
def Wing.scrubBanks (w : Wing) (bad : List (BitVec 7)) (ecc : List EccFind) : Wing :=
  let w0 := w.finishMove
  let lost := w0.lostBanks bad ecc
  let w1 := ecc.foldl (fun w f =>
    if f.array == 1 && !f.corrected then (w.noteUnreadable f).breakBank f.unit.toNat else w.eccRead f) w0
  let served := (List.range 68).filter fun p => (w1.physBank p).state == 1
  let w2 := served.foldl (fun (w : Wing) p => w.noteBankWake p bwNapExit) w1
  (lost.foldl Wing.loseBank w2).settleSpares

/-! ## Exit from Nap (R302, R326) -/

/-- A multiple of `n` lies after the start of the sleep, up to this tick. -/
def Wing.passed (w : Wing) (n : Nat) : Bool := decide (w.pwr.enterTick.toNat / n < w.now.toNat / n)

/-- Timers that ended during the gap end now, and each periodic step that fell due is taken once. -/
def Wing.catchUp (w : Wing) : Wing :=
  let w1 := ((w.windowEnds w.now).expireFilter).expireDual
  let w2 := if w1.hall.nextCount.toNat ≤ w1.now.toNat then w1.modTake else w1
  let w3 := if w2.passed 64 then w2.reevalTake else w2
  if w3.passed 65536 then w3.writeAnchor else w3

/-- Latched wired changes and raises register, in ascending order. -/
def Wing.registerLatched (w : Wing) : Wing :=
  let srcs := (List.range 1024).filter fun i => w.vst.napSrc.contains i
  let raises := w.vst.napRaise
  let w1 := { w with vst := { w.vst with napSrc := [], napRaise := [] } }
  let w2 := srcs.foldl (fun (w : Wing) i => if srcEnabled (w.srcCfg i) then w.register (w.wiredObs i) else w) w1
  raises.foldl (fun w e => w.register (w.raiseObs (BitVec.ofNat 8 (e.1 / 16)) (e.1 % 16) e.2)) w2

/-- PWR_WAKE of a standby that leaves with its active wing. -/
def Wing.notePairWake (w : Wing) : Wing :=
  if w.pwr.sched.isSome then w
  else
    let c := w.pwr.pendWake.getD (false, { source := 0x8, detail := 0 })
    { w with pwr := { w.pwr with wake := wakeWord c.1 false c.2, wakeTick := (w.now - 12).setWidth 64 } }

/-- NAP_EXIT at X; `bad` names the banks whose canary word differs, `ecc` the errors that the scrub found. R302 registers the latched
changes and raises before the alarms, and R48 admits the alarms first, then what was staged, and then the new arrivals. Every origin has a
sequence of its own, so only the order of admission shows, and the model registers each in that order. -/
def Wing.exitNap (w : Wing) (bad : List (BitVec 7)) (ecc : List EccFind) : Wing :=
  if (w.life == .nap || w.life == .napEntry) && w.changeDue 0 then
    let w1 := w.notePairWake.clearPair
    let w2 := { w1 with
      life := .run
      pwr := { w1.pwr.atLevel w1.pwr.level with pendWake := none, quiet := 0, studyNap := 0, saveAt := none, offAt := none }
      ctl := { w1.ctl with digestFrom := w1.now }
      vst := { w1.vst with samples := [], raws := [] }
      hall := { w1.hall with p3since := if w1.pwr.level = Level.p3 then w1.now else w1.hall.p3since } }
    let w3 := w2.scrubBanks bad ecc
    let w4 := { w3 with pwr := { w3.pwr with tripped := [] } }.openBudgets.catchUp
    let w5 := w4.registerAlarms
    ((if w5.admitsNew then w5.admitStaged else w5).registerLatched.drainAll.sampleCores).drainPort
  else w

/-! ## Deep (R305, R306) -/

/-- The words of SPACE 0, 1 and 2 that are not 0, by their place in the walk. -/
def Wing.savedWords (w : Wing) : List (Nat × DWord) :=
  (List.range backlogAt).filterMap fun i => if w.walkWord i = 0 then none else some (i, w.walkWord i)

/-- The save area as the wing writes it: the image, then the trailer. -/
def Wing.saveArea (w : Wing) : SaveArea :=
  let ws := w.savedWords
  { words := ws, trailer := saveTrailer ws w.ctl.claim w.ctl.seen w.pwr.enterTick }

/-- Steps 2 and 3 of R305: the writes of the save area are issued. -/
def Wing.writeSave (w : Wing) : Wing :=
  { w with pwr := { w.pwr with saveAt := some w.now, wbRetried := [] } }.emit (.save w.id w.saveBase w.saveArea)

/-- The 64 bytes of a write of the save area, by its number in the area; the trailer is the last of the 32,768 (R305). -/
def Wing.saveBlock (w : Wing) (n : Nat) : BitVec 512 :=
  if n = 32767 then w.saveArea.trailer
  else (List.range 8).foldl (fun (d : BitVec 512) i =>
    if 8 * n + i < backlogAt then d ||| ((w.walkWord (8 * n + i)).setWidth 512 <<< (64 * i)) else d) 0

/-- The port answers a write of the save area, named by its number in the area (log 62): the first ERROR is retried, and a second aborts
the entry (R305). -/
def Wing.saveAnswered (w : Wing) (n : Word) (ok : Bool) : Wing :=
  if ok then w
  else if w.pwr.wbRetried.contains n then w.abortEntry rsWrite
  else
    { w with pwr := { w.pwr with wbRetried := n :: w.pwr.wbRetried } }.emitWrite
      (w.saveBase + BitVec.ofNat 64 (64 * n.toNat)) 64 (w.saveBlock n.toNat)

/-- A lane whose domain is off. A lane that is withdrawn stays so. -/
def Lane.off (v : Lane) : Lane :=
  { Lane.reset with role := if v.role = .retired then .retired else .down, fails := v.fails }

/-- Accesses that the port still holds end with the wing core: the integrator answers ERROR (R309). -/
def Wing.dropPort (w : Wing) : Wing :=
  let n := w.regs.portQueue.length + (if w.regs.portHeld.isSome then 1 else 0)
  let w1 := { w with regs := { w.regs with portQueue := [], portHeld := none } }
  { w1 with out := w1.out ++ List.replicate n (.regRsp w.id false 0) }

/-- HRT_DEEP rises with the end of step 4 (R404). Every domain of the wing goes off: only the hearth runs, and what the wing core keeps over Deep stands still. Writes that the interconnect
holds wait for the wing to go live again (R404). -/
def Wing.turnOff (w : Wing) : Wing :=
  ((w.dropPort.dropMove.count cDeepEntries).emit (.hrtDeep w.id true)).withSigned fun w =>
    let lanes := w.psg.lanes.map fun (e : Nat × Lane) => (e.1, e.2.off)
    let c := Ctl.reset w.id
    { w with
      life := .deep
      ctl := { c with claim := w.ctl.claim, seen := w.ctl.seen, seenActive := w.ctl.seenActive, suspect := w.ctl.suspect
                      withdrawals := w.ctl.withdrawals, bootCode := w.ctl.bootCode, digestErr := w.ctl.digestErr
                      tsyncErr := w.ctl.tsyncErr }
      regs := { w.regs with aliasKept := [], srcOld := [], sweNew := [], indCap := none, snapPend := false }
      vst := { Vest.reset with inbuf := w.vst.inbuf.filter fun e => !e.2, levels := w.vst.levels, stallSeen := w.vst.stallSeen, stallSlice := w.vst.stallSlice }
      pan := { Pantry.reset with fenced := w.pan.fenced }
      hall := Hall.reset, pch := PorchSide.reset, sl := [], ring := RingEng.reset, drn := []
      psg := { Passage.reset with lanes := lanes }
      pwr := { w.pwr with
        bias := 0, assist := .none_, divider := 0, saveAt := none, offAt := none, domFirst := []
        vok := none, next := none, lastL := 0, slowRun := 0, given := 0, demand := 0, dmax := 0, quiet := 0, studyNap := 0
        doze := false, sched := none, pendWake := none, want := none, tripped := [] }
      int := { w.int with sigs := [] }
      mem := MemTags.reset }

/-- DEEP_ENTRY at E. A standby turns off at once. -/
def Wing.enterDeep (w : Wing) : Wing :=
  if w.running && w.changeDue 2 then
    match w.entryRefusal true with
    | some r => w.refuseEntry true r
    | none =>
        if w.ctl.role = .active then w.beginEntry true
        else { w.clearPair with pwr := { w.clearPair.pwr with enterTick := w.now } }.writeAnchor.turnOff
  else w

/-- Step 4 of R305 begins in this tick: the anchor is written in its first cycle (R323). -/
def Wing.beginOff (w : Wing) : Wing := { w with pwr := { w.pwr with offAt := some (w.now + BitVec.ofNat 56 offTicks) } }.writeAnchor

/-- The steps of an entry to Deep at a boundary (R305): once every write-back is accepted the save area is written, then step 4 runs, and
then the wing is off. -/
def Wing.arriveDeep (w : Wing) : Wing :=
  if w.life != .deepEntry then w
  else match w.pwr.saveAt, w.pwr.offAt with
    | none, _ => if decide (w.pwr.enterTick.toNat < w.now.toNat) && w.written then w.writeSave else w
    | some t, none =>
        if decide (w.pwr.sleepAt.toNat ≤ w.now.toNat) && decide (t.toNat + saveTicks ≤ w.now.toNat) then w.beginOff else w
    | some _, some t => if decide (t.toNat ≤ w.now.toNat) then w.turnOff else w

/-- A word of the save area, at its place in the walk. The tick is rebuilt from the hearth instead. -/
def Wing.loadPlace (w : Wing) (i : Nat) (d : DWord) : Wing :=
  let p := (walkPlace i).2
  match (walkPlace i).1 with
  | 0 => if p = 0 then w else (w.loadWord (8 * (p - 1)) (loWord d)).loadWord (8 * (p - 1) + 4) (hiWord d)
  | 1 => w.loadRegion (8 * p) d
  | 2 => w.loadSpace2 p d w.now
  | _ => w

/-- The places whose reset value is not 0: a word that is 0 there is loaded too. -/
def resetPlaces : List Nat := nonzeroKeys.map wkOfKey ++ (List.range 64).map fun i => wkJseq + i

/-- Configuration and runtime as the image holds them. -/
def Wing.loadImage (w : Wing) (ws : SMap DWord) : Wing :=
  let zeros := resetPlaces.filter fun i => (SMap.find? ws i).isNone
  w.withSigned fun w =>
    let w1 := { w with regs := { w.regs with cfg := [], eff := [] } }
    ws.foldl (fun w e => w.loadPlace e.1 e.2) (zeros.foldl (fun w i => w.loadPlace i 0) w1)

/-- Pinned and alarm-route vectors are read from the cellar into their slots; every other vector is cold. -/
def Wing.reloadPinned (w : Wing) : Wing :=
  let keep := w.pan.reloads.filter fun r => r.pin || w.isRoute r.key
  let w1 := { w with pan := { w.pan with reloads := keep } }
  keep.foldl (fun w r => w.addFetch r.key (.reload r.slot false)) w1

/-- CLAIM_RAISE to every porch whose domain is on: no STATUS has reached the wing since its wake. -/
def Wing.claimPowered (w : Wing) : Wing :=
  w.poweredPorches.foldl (fun w p => w.emit (.w2p w.id p 3 (claimRaiseBeat w.ctl.claim))) w

/-- Steps 5 to 7 of R306: the save area is read and restored, and the wing takes over without replays or held observations; a trailer
that fails its checks leaves it out of service. -/
def Wing.restore (w : Wing) (save : Option SaveArea) : Wing :=
  match save with
  | none => { w with life := .outOfService, pwr := { w.pwr with restoreFail := true } }
  | some a =>
      match readTrailer a with
      | none => { w with life := .outOfService, pwr := { w.pwr with restoreFail := true } }
      | some (_, seen, _) =>
          let w1 := ({ w with life := .run }.loadImage (SaveArea.map a)).loadPchCfg
          let w2 := { w1 with ctl := { w1.ctl with seen := seen } }
          w2.raiseClaim fun w3 =>
            let w4 := w3.becomeActive
            let w5 := { w4 with
              ctl := { w4.ctl with duplex := false, tkoPhase := some 0, tkoTick := w4.now, writesHeld := true }
              hall := { w4.hall with resuming := true } }
            (((((w5.count cTakeover).logTko tkTakeover).reloadPinned).openBudgets.catchUp).claimPowered).registerAlarms.drainAll

/-- The source of a wake from Deep: an alarm latch that is set, with the lowest-numbered line, before PWR_WAKE_IN (R332). -/
def Wing.wakeCause (w : Wing) (c : WakeCause) : Option WakeCause :=
  if !w.hrt.powered then none
  else match w.hrt.lowestLatch with
    | some i => some { source := 0x5, detail := BitVec.ofNat 12 i }
    | none => if c.source = 0xA then some c else none

/-- The start of R306: HRT_DEEP falls (R404), the record of the wake, the rail, and the wait for the raw edge of step 4. -/
def Wing.powerUp (w : Wing) (c : WakeCause) (save : Option SaveArea) : Wing :=
  let l := Level.ofCode w.fastLimit
  let w1 := (w.onHearth fun h => h.noteWake c).emit (.hrtDeep w.id false)
  let area := if w1.saveValid then save else none
  let served := (List.range 68).filter fun p => (w1.physBank p).state == 1
  let w2 := { w1 with
    life := .deepWake
    ctl := { w1.ctl with rawWait := some ((area.bind readTrailer).map fun t => t.2.2), saved := area }
    pwr := { w1.pwr.atLevel l with level := l, vsel := l.code.setWidth 3, wake := wakeWord false true c } }
  served.foldl (fun (w : Wing) p => w.noteBankWake p bwDeepExit) w2

/-- DEEP_WAKE. The counter starts at the boundary after the next raw edge (R324); the home wing then restores the pair, and the other waits
to be copied (`wakeBoundary`). -/
def Wing.wakeDeep (w : Wing) (c : WakeCause) (save : Option SaveArea) : Wing :=
  if w.life == .deep then
    match w.wakeCause c with
    | some x => w.powerUp x save
    | none => w
  else w

/-- The boundary that completes step 4 of R306 in the other wing: it waits from here, and the interconnect's copies of what it held go to the
home wing. -/
def Wing.beginWait (w : Wing) : Wing :=
  { w with pwr := { w.pwr with waitFrom := w.now }, vst := { w.vst with inbuf := [] }, ctl := { w.ctl with saved := none } }

/-- DEEP_JOIN_TIMEOUT: no TICK_CLOSE of the home wing has come for 4,096 ticks. -/
def Wing.joinTimeout (w : Wing) (save : Option SaveArea) : Wing :=
  if w.life == .deepWake && w.ctl.hasTick && decide (w.pwr.waitFrom.toNat + 4096 ≤ w.now.toNat) then
    w.restore (if w.saveValid then save else none)
  else w

/-! ## The commands -/

/-- NAP_ENTRY (R299, R303). A standby's refusal turns the active wing back. -/
def execNapEntry (w : WingId) (s : State) : Host.Outcome State Fault Refusal :=
  let v := s.wing w
  let s1 := s.onWing w Wing.enterNap
  let back := v.isStandby && v.changeDue 1 && (v.entryRefusal false).isSome
  .next (if back then s1.setWing (otherWing w) (s1.wing (otherWing w)).peerRefused else s1)

/-- NAP_WAKE (R301, R304). -/
def execNapWake (w : WingId) (c : WakeCause) (s : State) : Host.Outcome State Fault Refusal := nextWing s w fun v => v.wake c

/-- NAP_EXIT (R302, R310 to R312). -/
def execNapExit (w : WingId) (bad : List (BitVec 7)) (ecc : List EccFind) (s : State) : Host.Outcome State Fault Refusal :=
  nextWing s w fun v => (v.exitNap bad ecc).showEn v.psgEn

/-- DEEP_ENTRY (R303, R305). -/
def execDeepEntry (w : WingId) (s : State) : Host.Outcome State Fault Refusal :=
  let v := s.wing w
  let s1 := s.onWing w fun x => x.enterDeep.showEn x.psgEn
  let back := v.isStandby && v.changeDue 2 && (v.entryRefusal true).isSome
  .next (if back then s1.setWing (otherWing w) (s1.wing (otherWing w)).peerRefused else s1)

/-- DEEP_WAKE (R306), with the save area as the wing reads it. -/
def execDeepWake (w : WingId) (c : WakeCause) (save : Option SaveArea) (s : State) : Host.Outcome State Fault Refusal :=
  nextWing s w fun v => (v.wakeDeep c save).showEn v.psgEn

/-- WRITE_BACK_ACCEPTED (R80, R81, R299, R305). In an entry to Deep that writes its save area, `key` is the number of a write of that area
(log 62). -/
def execWriteBackAccepted (w : WingId) (key : Word) (ok : Bool) (s : State) : Host.Outcome State Fault Refusal :=
  nextWing s w fun v =>
    if v.life == .deepEntry && v.pwr.saveAt.isSome then v.saveAnswered key ok else v.writeAccepted key ok

/-- DEEP_JOIN_TIMEOUT (R306). -/
def execDeepJoinTimeout (w : WingId) (save : Option SaveArea) (s : State) : Host.Outcome State Fault Refusal :=
  nextWing s w fun v => (v.joinTimeout save).showEn v.psgEn

/-- RETENTION_MONITOR_TRIP (R310), of a physical bank. -/
def execRetentionMonitorTrip (w : WingId) (bank : BitVec 7) (s : State) : Host.Outcome State Fault Refusal :=
  nextWing s w fun v =>
    if v.life == .nap || v.life == .napEntry then
      { v with pwr := { v.pwr with tripped := if v.pwr.tripped.contains bank then v.pwr.tripped else v.pwr.tripped ++ [bank] } }
    else v

end Sys2Proof.Machine
end

