-- ==== Sys2Proof/Machine/Tick.lean ====
section
/-! DEFINITION. The tick boundary (01_wings_and_tick.md R11 to R16): collection (05_porches.md R133), the ranking, the frame and the
lanes at the close of a tick (09_passage.md R229 to R234, R253), the release (R14, R119, R120), and what opens the next tick. -/

namespace Sys2Proof.Machine

/-! ## Collection (R20, R133, R143) -/

/-- An entry may enter the frame now (R231, R233, R279). -/
def Wing.collectable (w : Wing) (e : Entry) : Bool :=
  w.mayCarry e.key && !w.pan.reloads.any fun r => r.key == e.key

/-- An entry is collected: its record, its effect, and its place in the budgets. -/
def Wing.collect (w : Wing) (p : Nat) (e : Entry) : Wing :=
  let r : JournalRec := { ret := e.kind == .ret, replay := false, synth := false, porch := BitVec.ofNat 8 p, entry := e }
  let left := (SMap.get w.pch.entries [] p).erase e
  let w1 := { w with pch := { w.pch with entries := SMap.set w.pch.entries [] p left, rr := (p + 1) % 256 } }
  if e.kind = .complete then
    let w2 := (w1.applyCompleteRec w1.now r).place (.complete r)
    { w2 with vst := { w2.vst with cmpLeft := w2.vst.cmpLeft - 1 } }
  else
    let w2 := (w1.applyClaimRec w1.now r).place (.claim r)
    { w2 with vst := { w2.vst with clmLeft := w2.vst.clmLeft - 1 } }

/-- The oldest COMPLETE entry with no earlier CLAIM of its vector before it. -/
def firstComplete : List Word → List Entry → Option Entry
  | _, [] => none
  | claimed, e :: es =>
      match e.kind with
      | .complete => if claimed.contains e.key then firstComplete claimed es else some e
      | .claim => firstComplete (e.key :: claimed) es
      | .ret => firstComplete claimed es

/-- What a pass has come to: the claims and the completions that it left for want of budget. -/
structure Pass where
  wing : Wing
  claims : Nat
  completes : Nat

/-- One step of a visit: the entry is collected, or it waits for budget. -/
def Pass.step (a : Pass) (p : Nat) (e : Option Entry) (left : Nat) (skip : Pass → Pass) : Pass :=
  match e with
  | none => a
  | some e =>
      if !a.wing.collectable e then a
      else if left = 0 then skip a
      else { a with wing := a.wing.collect p e }

/-- The visit to porch `p`; what follows a replay waits until the replay is applied. -/
def Pass.visit (a : Pass) (p : Nat) : Pass :=
  let es (x : Pass) : List Entry :=
    if (SMap.find? x.wing.pch.replay p).isSome then [] else SMap.get x.wing.pch.entries [] p
  let b := a.step p ((es a).find? fun e => e.kind != .complete) a.wing.vst.clmLeft fun x => { x with claims := x.claims + 1 }
  b.step p (firstComplete [] (es b)) b.wing.vst.cmpLeft fun x => { x with completes := x.completes + 1 }

/-- The tick's pass over the porches. -/
def Wing.collection (w : Wing) : Pass :=
  (roundFrom w.pch.rr 256).foldl Pass.visit { wing := w, claims := 0, completes := 0 }

/-- Porches that the frame under formation reports in FAULT. -/
def faultsIn (rs : List Rec) : List Nat :=
  rs.flatMap fun r => match r with
    | .coreState x => ((List.range 4).filter fun i => (coreOfWord (x.words.extractLsb' (16 * i) 16)).fault).map fun i =>
        4 * x.group.toNat + i
    | _ => []

/-- One RETURN for each vector PRESENTED at a porch in FAULT. -/
def Wing.faultReturns (w : Wing) : Wing :=
  let now := faultsIn w.psg.defr
  let gone := w.ctxs.filter fun c =>
    c.state == .presented && ((w.coreSt c.lastCore.toNat).fault || now.contains c.lastCore.toNat)
  gone.foldl (fun w c =>
    if w.mayCarry c.key then (w.applyReturn c.lastCore c.key w.now).place (.claim (synthReturn c.lastCore c.key)) else w) w

/-! ## The demand on the budgets (R292) -/

/-- Arrivals that wait only for budget. -/
def Wing.arrivalsShort (w : Wing) : Nat :=
  let more := { w with vst := { w.vst with arrLeft := w.vst.arrLeft + 3 } }
  let goes (v : Wing) (o : Obs) : Bool := match v.attempt o true with
    | .gone _ => true
    | _ => false
  (w.vst.staged.filter fun o => goes more o && !goes w o).length

/-- The demand of the tick that closes. -/
def Wing.demandWith (w : Wing) (claims completes : Nat) : Nat :=
  max (w.pwr.given - w.vst.arrLeft + w.arrivalsShort)
    (max (w.pwr.given - w.vst.clmLeft + claims) (w.pwr.given - w.vst.cmpLeft + completes))

/-- The greatest demand of 64 ticks is settled at the boundary that opens a multiple of 64. -/
def Wing.noteDemand (w : Wing) (d : Nat) : Wing :=
  let top := max w.pwr.demand d
  if (w.now.toNat + 1) % 64 = 0 then { w with pwr := { w.pwr with dmax := top, demand := 0 } }
  else { w with pwr := { w.pwr with demand := top } }

/-- Collection, the returns of porches in FAULT, and the demand. -/
def Wing.collectTick (w : Wing) : Wing :=
  if w.admitsNew then
    let a := w.collection
    (a.wing.noteDemand (a.wing.demandWith a.claims a.completes)).faultReturns
  else w.noteDemand 0

/-! ## The frame (R22, R229, R231, R234, R247, R249, R275) -/

/-- The second record belongs to the same 64-bit write as the first (R398). -/
def pairedRegw (a b : RegwRec) : Bool :=
  a.space == b.space && a.req == b.req && a.dualPend == b.dualPend && a.addr.toNat % 8 == 0 && b.addr == a.addr + 4

/-- The records that follow the first of a list and belong to it. -/
def groupRest : Rec → List Rec → Nat
  | .cmd c, _ => max 1 c.nExt.toNat
  | .finish f, _ => f.nParam.toNat
  | .regw a, .regw b :: _ => if pairedRegw a b then 1 else 0
  | _, _ => 0

/-- The longest run of whole groups of at most `n` records. -/
def wholeGroups : Nat → Nat → List Rec → List Rec
  | 0, _, _ => []
  | _, _, [] => []
  | fuel + 1, n, r :: rs =>
      let k := groupRest r rs
      if 1 + k ≤ n then r :: (rs.take k ++ wholeGroups fuel (n - 1 - k) (rs.drop k)) else []

/-- A FINISH as its frame is formed. -/
def Wing.formed (w : Wing) : Rec → Rec
  | .finish f => .finish (w.refreshFinish f)
  | r => r

def isDone : Rec → Bool
  | .done _ => true
  | _ => false

/-- The deferred and the independent group of the frame that closes. -/
def Wing.frameGroups (w : Wing) : List Rec × List Rec :=
  let cap := w.frameSlots - w.psg.acc.length - w.psg.ord.length
  if w.lastTick then ((w.psg.defr.filter isDone).take (min 64 cap), [])
  else
    let all := w.psg.rsy ++ w.psg.copies
    let d := wholeGroups w.psg.defr.length (min 64 (cap - w.resyncFirst)) w.psg.defr
    (d.map w.formed, all.take (cap - d.length))

/-- TICK_CLOSE. -/
def Wing.closing (w : Wing) (role : BitVec 2) (digest : Word) : CloseRec :=
  { role := role, level := w.pwr.level.code, recovery := w.ctl.recovery, fchk := 0, claim := w.ctl.claim
    sig := w.sigOf w.now, digest := digest }

/-- The frame that the active wing closes. -/
def Wing.frame (w : Wing) (digest : Word) : Frame :=
  let g := w.frameGroups
  { tick := w.now, map := w.psg.map, acc := w.psg.acc, ord := w.psg.ord, defr := g.1, rsy := g.2, replays := w.psg.replaySent
    rxbad := w.rxbad
    close := w.closing (if w.lastTick then Role.standby.closeCode else w.ctl.role.closeCode) digest }

/-- What goes out of a frame: with no peer to apply it, only what closes it, and the manager's vote on the other wing (R307; DEDUCED,
log 119). -/
def Wing.shownFrame (w : Wing) (f : Frame) : Frame :=
  if w.ctl.duplex || w.ctl.sendPos.isSome then f else { f with acc := [], ord := [], defr := f.defr.filter isVoteRec, rsy := [] }

/-- The frames kept for replays, and for the answer of a held register write (R238, R367). -/
def Wing.keepFrame (w : Wing) (f : Frame) : List Frame :=
  if w.ctl.duplex || w.ctl.prov.isSome || w.ctl.sendPos.isSome then
    let held := match w.regs.portHeld with
      | some h => h.recs
      | none => []
    let all := w.psg.sent ++ [f]
    let old := (all.take (all.length - 4)).filter fun x => held.any fun r => x.defr.contains (.regw r)
    old ++ all.drop (all.length - 4)
  else []

/-- The frame leaves, and its groups are empty but for what did not fit. -/
def Wing.closeFrame (w : Wing) (f : Frame) : Wing :=
  let w1 := if lanesIn w.psg.map = 0 then w else w.sendFrame (w.shownFrame f)
  let w2 := w1.copiesSent (f.rsy.length - w.psg.rsy.length) w.now
  { w2 with psg := { w2.psg with
    acc := [], ord := [], accOwed := 0, defr := if w.lastTick then [] else w.psg.defr.drop f.defr.length
    rsy := if w.lastTick then [] else w.psg.rsy.drop f.rsy.length, copies := [], sent := w1.keepFrame f } }

/-- Letters that were posted behind the finish of a slice command enter the inbox. -/
def Wing.takePosted (w : Wing) : Wing :=
  { w with sl := w.sl.map fun (e : Nat × SliceSt) => (e.1, { e.2 with inbox := e.2.inbox ++ e.2.posted, posted := [] }) }

/-- The deferred group takes effect in the wing that formed it. -/
def Wing.applyDeferredGroup (w : Wing) (f : Frame) : Wing := (f.defr.foldl (fun v r => v.applyDef w.now r) w).takePosted

/-- The frame of a wing that is not active, or that sleeps: it carries little besides TICK_CLOSE. -/
def Wing.quietFrame (w : Wing) (map : BitVec 4) (defr rsy : List Rec) (digest : Word) : Frame :=
  { tick := w.now, map := map, acc := [], ord := [], defr := defr, rsy := rsy, replays := 0, rxbad := w.rxbad
    close := w.closing w.ctl.role.closeCode digest }

/-- The lanes on which a wing that is not active transmits (R249). -/
def Wing.usedLanes (w : Wing) : BitVec 4 :=
  (List.range 4).foldl (fun m l => if (w.lane l).used then m ||| (1#4 <<< l) else m) 0

/-! ## The digest that a frame carries (R268, R269) -/

/-- The digest of the ranking `r` at P0 to P2; at P3 that of the offers that opened the tick. -/
def Wing.carriedDigest (w : Wing) (r : Ranking) : Word :=
  if w.pwr.level = .p3 then
    if w.now.toNat < w.hall.p3since.toNat + 2 then 0 else w.hall.digest
  else offersDigest r.offers

/-! ## Lanes (R250, R251, R253, R354) -/

def Wing.laneEn (w : Wing) (l : Nat) : Bool := (w.effW oPsgCtrl).getLsbD l

/-- The role of a lane at a tick boundary: down while it may not be used or sleeps, then training, then spare. -/
def Lane.boundary (v : Lane) (en awake : Bool) : Lane :=
  let still : Lane := { v with good := 0, shown := 0, lostRun := 0, pos := none }
  let off : Lane := { still with role := .down, locked := false, rxbad := false }
  match v.role with
  | .retired => v
  | .down => if en && awake then { v with role := .training } else v
  | .training =>
      if !(en && awake) then off
      else if v.locked && decide (8 ≤ v.shown) then { v with role := .spare } else v
  | .spare => if en && awake then v else off
  | .carry => if en then v else off

def Wing.trainLanes (w : Wing) : Wing :=
  (List.range 4).foldl (fun w l => w.setLane l ((w.lane l).boundary (w.laneEn l) (w.life != .nap))) w

/-- The active wing retires a worn lane when a spare can take its place. -/
def Wing.retireLanes (w : Wing) : Wing :=
  if !w.wearAuto then w
  else
    (List.range 4).foldl (fun w l =>
      if (w.lane l).role == .carry && w.laneWorn l && w.spareLane.isSome then
        match w.spareLane with
        | some s =>
            ((w.setLane l { w.lane l with role := .retired }).setLane s { w.lane s with role := .carry }).count cRetireLane
        | none => w
      else w) w

/-- Worn lanes that stay in service for want of a spare (R355). -/
def Wing.wornLanes (w : Wing) : Wing :=
  let left := (List.range 4).any fun i => (w.lane i).role == .spare || (w.lane i).role == .training
  (List.range 4).foldl (fun w l =>
    if (w.lane l).role == .carry && w.laneWorn l && !left then w.noSpare (laneUnit l) else w) w

/-- The spares that join the lanes that carry, until three do. A spare on which replays go stays. -/
def Wing.addSpares (w : Wing) : Wing :=
  (List.range 4).foldl (fun w l =>
    let carrying := ((List.range 4).filter fun i => (w.lane i).role == .carry).length
    let replaying := !w.psg.nakq.isEmpty && w.spareLane == some l
    if (w.lane l).role == .spare && decide (carrying < 3) && !replaying then w.setLane l { w.lane l with role := .carry }
    else w) w

/-- The lanes that carry, as a map. -/
def Wing.carryMap (w : Wing) : BitVec 4 :=
  (List.range 4).foldl (fun m l => if (w.lane l).role == .carry then m ||| (1#4 <<< l) else m) 0

/-- LANE_MAP of the next frame. -/
def Wing.setMap (w : Wing) : Wing := { w with psg := { w.psg with map := w.carryMap } }

/-- The lanes of a wing at the close of a tick. -/
def Wing.settleLanes (w : Wing) : Wing :=
  let w1 := w.trainLanes
  if w1.ctl.role = .active then
    (if w1.running then w1.retireLanes.wornLanes.addSpares else w1).setMap
  else w1

/-! ## Heartbeats and counts at the close of a tick (R26, R55, R175, R189, R233, R271, R280, R297, R407) -/

/-- The heartbeat of the tick that closes. -/
def Wing.countBeats (w : Wing) : Wing :=
  let silent := if w.ctl.sendPos.isSome && !w.psg.hb then w.ctl.rsySilent + 1 else 0
  { w with
    psg := { w.psg with hbMiss := if w.psg.hb then 0 else w.psg.hbMiss + 1, hb := false }
    ctl := { w.ctl with rsySilent := silent } }

/-- QFULL of a slice whose staging has room again, by the share in force in the tick that closes (R189). -/
def Wing.clearFull (w : Wing) : Wing :=
  let clear (e : Nat × SliceSt) : Nat × SliceSt :=
    (e.1, { e.2 with qfull := e.2.qfull && !decide (w.stagedOf (BitVec.ofNat 12 e.1) < e.2.stageShare.toNat) })
  { w with sl := w.sl.map clear }

/-- Flags that last for one tick. -/
def Wing.clearFlags (w : Wing) : Wing :=
  { w with
    sl := w.sl.map fun (e : Nat × SliceSt) => (e.1, { e.2 with heldFlag := false })
    vst := { w.vst with underCmd := [], filterWaited := false }, pan := { w.pan with noVictim := false }
    ring := { w.ring with waited := false } }

/-- Quiet ticks so far, and the study's vote as they settle it at the close of the tick (R294). -/
def Wing.countQuiet (w : Wing) : Wing :=
  if w.isActive && w.isQuiet false then
    let w1 := { w with pwr := { w.pwr with quiet := satInc w.pwr.quiet } }
    { w1 with pwr := { w1.pwr with studyNap := w1.studyVote } }
  else { w with pwr := { w.pwr with quiet := 0, studyNap := 0 } }

/-- The tick counts of a wing in Run. A tick counts in VST_SPILL_STALL if the stall is in progress as it closes; R55 does not say how a tick
counts in which a stall ends (DESIGN CHOICE, log 121). -/
def Wing.countTick (w : Wing) : Wing :=
  ((((((w.count (cTicksP w.pwr.level.code.toNat)).countIf w.pwr.doze cTicksDoze).countIf w.stalling cSpillStall).countIf
    w.ctl.recovery cRecoveryTicks).countIf w.vst.filterWaited cFilterWait).countIf w.pan.noVictim cNoVictim).countIf
      w.ring.waited cCmdWait

/-- The lanes of the map before that have left it. -/
def laneLeft (before after : BitVec 4) : Bool := (before &&& ~~~after) != 0

/-- PENDING of TKO_HANDOVER as the frame under formation leaves it. -/
def Wing.handoverAhead (w : Wing) : Bool :=
  ((w.psg.defr.filterMap fun r => match r with
    | .regw x => if x.space == 0 && x.addr == BitVec.ofNat 32 (oTkoHandover + 4) then some (x.val.getLsbD 31) else none
    | _ => none).getLast?).getD w.handoverPending

/-- Stable ticks, and the return that one that is not stable calls off (R281, R282). In simplex no handover stays pending. -/
def Wing.countStable (w : Wing) (before : BitVec 4) : Wing :=
  if w.isActive && w.ctl.duplex && !w.isHome && !w.psg.withheld && !laneLeft before w.psg.map && !w.forced then
    { w with ctl := { w.ctl with stable := satInc w.ctl.stable } }
  else
    let w1 := { w with ctl := { w.ctl with stable := 0 } }
    if w1.isActive && w1.handoverAhead && ((w1.ctl.returning && !w1.ctl.giveWay) || !w1.ctl.duplex) &&
        decide (w1.now.toNat < w1.handoverTick.toNat) then
      { w1 with ctl := { w1.ctl with returning := false } }.placeHandover false w1.handoverTick
    else w1

/-- READY. -/
def Wing.settleReady (w : Wing) : Wing :=
  { w with ctl := { w.ctl with
    ready := (w.ctl.role == .active || w.ctl.role == .standby) && (w.slice 0).state == .running } }

/-! ## The close of a tick of the active wing (R13, R87, R229) -/

/-- The offers that no porch has answered count as accepted. -/
def Wing.settleLate (w : Wing) : Wing := (w.hall.offered.map Prod.fst).foldl (fun w p => w.acceptLate (BitVec.ofNat 8 p)) w

/-- What a takeover or a handover applies in its first ticks (R263, R283), and what of the porches' replays found no place in the frames
of those, or ended later. The slot reports are for the ranking after the held observations (R113). -/
def Wing.takeoverStep (w : Wing) : Wing :=
  if w.ctl.tkoPhase = some 0 ∨ !w.isActive then w
  else if w.ctl.tkoPhase = some 1 then w.endTurned.stepT1.applyCopies
  else if w.ctl.tkoPhase = some 8 then w.stepT1.applyAllDeferred.applyCopies
  else
    let w1 := (w.when (w.ctl.tkoPhase == some 9) Wing.endTurned).applyReplays.applyAllDeferred
    if w.ctl.tkoPhase = some 2 then w1.applySlotReports else w1

/-- The hall has not resumed after a loss of pantry contents: a pinned vector is still to be read again (R78; DEDUCED, log 103). -/
def Wing.hallWaits (w : Wing) : Bool := w.hall.resuming && w.pan.reloads.any fun r => r.pin || w.isRoute r.key

/-- The wing ranks in the tick: not in the first three of a takeover, nor in its last before a handover. -/
def Wing.ranks (w : Wing) : Bool :=
  w.isActive && !w.lastTick && !w.hallWaits && w.ctl.tkoPhase != some 0 && w.ctl.tkoPhase != some 1 && w.ctl.tkoPhase != some 2

/-- The image of the tick, when no ranking settles it. -/
def Wing.captureImage (w : Wing) : Wing :=
  let img := w.rankImg w.now
  { w.noteSeen img with
    hall := { (w.noteSeen img).hall with img1 := w.hall.img0, img0 := some img, accOpen := [], dropped := [], half := [] } }

/-- The ranking of the tick, what it leaves, and the image of the tick. -/
def Wing.settleTick (w : Wing) (r : Ranking) : Wing :=
  if w.ranks then w.settleRanking r w.now
  else if w.isActive ∧ !w.lastTick ∧ w.ctl.tkoPhase ≠ some 0 ∧ w.ctl.tkoPhase ≠ some 1 then w.captureImage
  else { w with hall := { w.hall with dropped := [] } }

/-- The hall resumes. -/
def Wing.endWait (w : Wing) : Wing := { w with hall := { w.hall with resuming := w.hallWaits } }

/-- The journal positions at the close of the latest ticks (R134). -/
def Wing.keepJseq (w : Wing) : Wing :=
  let l := w.pch.jseqAt ++ [(w.now, w.pch.jseqCommit)]
  let kept := if w.ctl.duplex || w.ctl.prov.isSome then l.filter fun e => decide (w.psg.acked.toNat ≤ e.1.toNat)
    else l.drop (l.length - 2)
  { w with pch := { w.pch with jseqAt := if kept = [] then l.drop (l.length - 2) else kept } }

/-- LANE_MAP of the next frame, with what the register writes of the frame that closes make of the lanes (R254). -/
def Wing.nextMap (w : Wing) : BitVec 4 :=
  let regw : Rec → Bool
    | .regw _ => true
    | _ => false
  ((w.frameGroups.1.filter regw).foldl (fun v r => v.applyDef w.now r) w).settleLanes.psg.map

/-- The close of a tick of the active wing in Run: the ranking that the next release would take, and the wing. -/
def Wing.closeActive (w : Wing) : Ranking × Wing :=
  let w1 := w.settleLate.takeoverStep.collectTick
  let r := if w1.ranks then w1.rankingFor (w1.now + 1) w1.nextMap else Ranking.empty
  let w2 := { w1 with int := { w1.int with sigs := w1.int.keepSig w1.now } }
  let f := w2.frame (w2.carriedDigest r)
  let w3 := (((w2.closeFrame f).applyDeferredGroup f).formHeaders).windowEnds w.now
  let w4 := ((w3.formBlock w.now).settleTick r).endWait
  (r, w4.keepJseq)

/-! ## The gate and the release (R14, R15, R119, R120, R134, R265) -/

/-- A release at the start of the next tick is let through: in duplex the frame before this tick's is acknowledged in time (R13, R14). -/
def Wing.gateOpen (w : Wing) : Bool :=
  w.isActive && !w.lastTick && !w.ctl.holdRelease &&
    (w.ctl.tkoPhase.isNone || w.ctl.tkoPhase == some 3 || w.ctl.tkoPhase == some 9) &&
    (!w.ctl.duplex || (w.psg.ackedValid && !w.psg.ackLate && decide (w.now.toNat ≤ w.psg.acked.toNat + 1)))

/-- COMMIT for porch `p` at the release that opens this tick: of the last acknowledged frame in duplex and while frames are
provisional; in simplex of the frame of two ticks before, so that an entry of tick n leaves its porch at the release n+2. -/
def Wing.commitFor (w : Wing) (p : Nat) : BitVec 16 :=
  let upTo := if w.ctl.duplex || w.ctl.prov.isSome then w.psg.acked.toNat else w.now.toNat - 2
  match (w.pch.jseqAt.filter fun e => decide (e.1.toNat ≤ upTo)).getLast? with
  | some e => SMap.get e.2 0xFFFF p
  | none => SMap.get ((w.pch.jseqAt.head?.map Prod.snd).getD w.pch.jseqCommit) 0xFFFF p

/-- The beats of a release to one porch: the header, from the ranked image, and the offers, best first. -/
def Wing.releaseTo (w : Wing) (img : RankImg) (os : List Offer) (p : Byte) : Wing :=
  let v := w.view img
  let uses := coreUses img.slots
  let rp := (SMap.get uses CoreUse.none_ p.toNat).rp
  let shift : BitVec 3 := (v.eff oHallCtrl).extractLsb' 0 3
  let w1 := w.emit (.w2p w.id p 1 (releaseHdr w.ctl.claim (w.commitFor p.toNat) (BitVec.ofNat 9 rp) shift (v.coreEn p.toNat)
    (BitVec.ofNat 3 os.length) w.now))
  os.foldl (fun w o => w.emit (.w2p w.id p 2 (o.rank.setWidth 128))) w1

/-- The release that opens the tick. -/
def Wing.release (w : Wing) (img : RankImg) (r : Ranking) : Wing :=
  let up := w.upPorches
  let mine (p : Byte) : List Offer := r.offers.filter fun o => o.porch == p.toNat
  let w1 := up.foldl (fun w p => w.releaseTo img (mine p) p) w
  let offered : SMap (List (BitVec 97)) :=
    up.foldl (fun m p => SMap.insert m p.toNat ((mine p).map fun o => o.rank)) []
  let n := (offered.map fun e => e.2.length).sum
  let w2 := w1.countN cOffers n
  { w2 with
    hall := { w2.hall with offered := offered }
    psg := { w2.psg with accOwed := n }
    ctl := { w2.ctl with prov := w2.ctl.prov.map fun p => { p with releases := p.releases + 1 } } }

/-! ## The tick counter (R11, R322) -/

/-- The configuration in force in the tick that opens. A standby takes it from the frames that it applies. -/
def Wing.takeConf (w : Wing) : Wing :=
  if w.ctl.role = .standby then w else { w with hall := { w.hall with conf := w.regs.eff } }

/-- The counter, and the count of TICK_SYNC periods of a wing that holds none or that is under the bring-up exception (R378). -/
def Wing.nextTick (w0 : Wing) : Wing :=
  let w1 := w0.takeConf
  let w := if w1.inBringUp || !w1.ctl.hasTick then { w1 with ctl := { w1.ctl with syncCount := w1.ctl.syncCount + 1 } } else w1
  match w.ctl.tickDue with
  | some t => { w with ctl := { w.ctl with tick := t, hasTick := true, tickDue := none }, int := { w.int with passAt := t, passMiss := 0 } }
  | none => if w.ctl.hasTick then { w with ctl := { w.ctl with tick := w.ctl.tick + 1 } } else w

/-! ## What changes at a boundary (R259, R270, R283, R284, R289, R342) -/

/-- Fetches and images of a new standby: only what an observation needs. -/
def standbyCauses (cs : List FetchCause) : List FetchCause :=
  cs.filterMap fun c => match c with
    | .arrival | .observed => some .observed
    | _ => none

/-- The old wing at the start of H+2 is standby: what only the active wing does is dropped, and the blocks that DONE does not name are
owed by the new wing. -/
def Wing.becomeStandby (w0 : Wing) : Wing :=
  let w := if w0.regs.portHeld.isSome && (match w0.regs.portHeld with
      | some h => h.recs.any fun r => w0.psg.defr.contains (.regw r)
      | none => false) then w0.failHeldWrites else w0
  let h := w.handoverTick
  let undone (s : Nat) : Nat := (w.ring.written.map fun b => b.countFor (BitVec.ofNat 12 s)).sum
  let slice (e : Nat × SliceSt) : Nat × SliceSt :=
    let p := e.2.wpos - BitVec.ofNat 32 (undone e.1)
    (e.1, { e.2 with job := none, descs := [], descReads := [], failPos := none, wpos := p, evtTail := p, hdrWait := none })
  let fetches : List Fetch := (w.pan.fetches.map fun (f : Fetch) => { f with causes := standbyCauses f.causes }).filter
    fun (f : Fetch) => f.causes != []
  let images : List Image := (w.pan.waiting.map fun (i : Image) => { i with causes := standbyCauses i.causes }).filter
    fun (i : Image) => i.causes != []
  let w1 := { w with
    ctl := { w.ctl with role := .standby, duplex := false, prov := none, sendPos := none, backlog := [], stable := 0
                        digestFrom := h + 1, digestRun := 0, returning := false, holdRelease := false }
    sl := w.sl.map slice
    ring := { RingEng.reset with blocks := w.ring.written ++ w.ring.blocks, rr := w.ring.rr }
    drn := []
    pan := { w.pan with fetches := fetches, waiting := [], images := images, recent := [], reloads := [] }
    hall := { w.hall with offered := [], modQ := [], refusals := [], periodic := [] }
    pch := { w.pch with entries := [], late := [], deferred := [], replay := [], ended := [], turned := [], jseqAt := [] }
    vst := { w.vst with sentArr := [] }
    psg := { w.psg with
      acc := [], ord := [], defr := [], rsy := [], copies := [], accOwed := 0, sent := [], nakq := [], rx := [], lost := []
      hold := [], ctxFills := [], arrFills := [], ackValid := true, ack := h, ackedValid := false, missing := 0, hbMiss := 0
      withheld := false, replays := 0 } }
  if w1.ctl.giveWay then { w1 with ctl := { w1.ctl with giveWay := false } }.withdraw else w1

/-- Step of a takeover or handover. -/
def nextPhase (p : Option Nat) : Option Nat :=
  match p with
  | some 0 => some 1
  | some 1 => some 2
  | some 2 => some 3
  | some 8 => some 9
  | _ => none

/-- A standby that has withdrawn leaves duplex; its active wing commits its frames without confirmation (R270). -/
def Wing.peerWithdrew (w : Wing) : Wing :=
  if w.isActive && w.ctl.duplex && w.psg.peerJoining then
    { w with
      ctl := { w.ctl with
        duplex := false, prov := none, stable := 0, giveWay := false, spentNext := false, holdRelease := false }
      psg := { w.psg with ackedValid := false, missing := 0, nakq := [], sent := [] } }
  else w

/-- The level of a change that is due and judged. -/
def Wing.levelDue (w : Wing) : Wing :=
  match w.pwr.next, w.pwr.vok with
  | some (l, t), some ok => if t = w.now then w.switchLevel l ok else w
  | _, _ => w

/-- Forced simplex (R284): a return that was pending is called off in the frame of the tick in which the setting takes effect, and the
handover to the wing that is kept is named in that frame too. -/
def Wing.forcedStep (w : Wing) : Wing :=
  if !w.forced then w
  else
    let w1 := { w with ctl := { w.ctl with suspect := false } }
    if w1.kept then w1
    else if w1.isStandby then w1.withdraw
    else if w1.isActive ∧ w1.ctl.duplex ∧ !w1.handoverAhead then w1.placeHandover true (w1.now + 8)
    else w1

/-- The tick of a withdrawal is over: the wing acknowledges nothing any more (R270). -/
def Wing.endWithdrawal (w : Wing) : Wing :=
  match w.ctl.withdrawAt with
  | some t =>
      if w.ctl.role = .joining ∧ t.toNat < w.now.toNat then
        { w with ctl := { w.ctl with withdrawAt := none }, psg := { w.psg with ackValid := false } }
      else w
  | none => w

/-- Role, mode, level and steps as the new tick has them; `last` says that the tick before was the wing's last as active. -/
def Wing.changeOver (w : Wing) (last : Bool) : Wing :=
  let w1 := if last then w.becomeStandby else w
  let w2 := w1.peerWithdrew.levelDue
  let w3 := if w2.ctl.withdrawAt == some w2.now && w2.ctl.role == .standby then w2.withdrawNow else w2.endWithdrawal
  let w4 := w3.startClaim.forcedStep
  { w4 with ctl := { w4.ctl with tkoPhase := nextPhase w.ctl.tkoPhase } }

/-! ## Votes and the pair's state (R109, R262, R292, R298) -/

/-- The wake votes of the ranking, each rising one counted. -/
def Wing.voteWakes (w : Wing) (v : BitVec 32) : Wing :=
  let rising := v &&& ~~~w.hall.wakeVotes
  { w with hall := { w.hall with wakeVotes := v } }.countN cWakeVote
    ((List.range 32).filter fun i => rising.getLsbD i).length

/-- The wing waits for a porch's answer under R260 or R265; a handover waits for none. -/
def Wing.awaitsAnswer (w : Wing) : Bool :=
  w.isActive && ((w.ctl.prov.map fun p => !p.answered).getD false || (w.ctl.writesHeld && !w.ctl.answered && !w.ctl.duplex))

/-- The wake vote of R262. -/
def Wing.voteConfirm (w : Wing) : Wing :=
  let v := w.awaitsAnswer && (w.hall.confirmVote || w.upPorches.isEmpty)
  { w with hall := { w.hall with confirmVote := v } }.countIf (v && !w.hall.confirmVote) cConfirmWake

/-- The LEVEL record of this tick: what the study chose, or the nearest permitted level when the current one is not; records left over
from the frame before name their L again. -/
def Wing.issueLevel (w : Wing) : Wing :=
  if !w.ownsFrame then w
  else
    let again (r : Rec) : Rec := match r with
      | .level x => .level { x with tick := w.levelTick (Level.ofCode x.level) }
      | r => r
    let w1 := { w with psg := { w.psg with defr := w.psg.defr.map again } }
    match w1.pwr.want with
    | some l => if w1.roomDeferred 1 then { w1 with pwr := { w1.pwr with want := none } }.placeLevel l else w1
    | none => if !w1.levelOut && w1.permitted w1.pwr.level != w1.pwr.level then w1.placeLevel (w1.permitted w1.pwr.level) else w1

/-- A change of the pair's state whose tick is past is no longer pending. -/
def Wing.dropPair (w : Wing) : Wing :=
  let w1 := if w.pairPending && decide (w.pairTick.toNat < w.now.toNat) then w.clearPair else w
  match w1.pwr.sched with
  | some (_, t) => if t.toNat < w1.now.toNat then { w1 with pwr := { w1.pwr with sched := none } } else w1
  | none => w1

/-- The granted state fell below RUN: the pair's change, or the wing's own, at the start of the next tick. -/
def Wing.schedulePair (w : Wing) : Wing :=
  let g := w.granted
  if !w.running || g = 0 || w.ctl.booting || w.pwr.sched.isSome then w
  else if w.activeDuplex then
    if !w.pairPending && !w.pairPlaced then w.placePair g (w.now + 1) else w
  else if w.ctl.role = .active ∨ w.ctl.role = .joining then { w with pwr := { w.pwr with sched := some (g, w.now + 1) } }
  else w

/-! ## The cleaner (R80) -/

/-- Contexts that have been dirty for nearly 4,096 ticks. -/
def Wing.overdue (w : Wing) : Nat :=
  (w.ctxs.filter fun c => w.cleanable c && decide (c.dirtyAt.toNat + 4088 ≤ w.now.toNat)).length

/-- The cleaner's writes of a tick. -/
def Wing.cleanTick (w : Wing) : Wing := if w.isActive then w.clean (if w.fastClean then 256 else max 8 w.overdue) else w

/-! ## The opening of a tick -/

/-- Jobs whose last write was accepted in the tick before finish (R183, R195). -/
def Wing.finishJobs (w : Wing) : Wing :=
  w.sl.foldl (fun w e =>
    match e.2.job with
    | some j =>
        if j.phase == .written && (w.managerCmd j.pos).isSome && !w.finishing 0 j.pos then
          w.finish 0 j.pos 0 Report.zero j.param
        else w
    | none => w) w

/-- A wing that takes its peer's frames samples the levels of the wired sources and keeps them until it applies the frame before
(R37). -/
def Wing.sampleLevels (w : Wing) : Wing :=
  if w.followsFrames then
    { w with vst := { w.vst with samples := w.vst.samples ++ [(w.now, w.vst.levels)] } }
  else w

/-- Admission as a tick opens: alarms, escalations that wait, staged arrivals, and then what registers with the tick (R41, R48, R214). In
the third tick of a takeover what the wing held goes first, the level sources are sampled again, and the deferred entries take effect
(R263); the alarms that register with that tick follow the held observations, for which R45 and R263 say "before it admits anything new",
though R48 admits alarms first (DESIGN CHOICE, log 108). -/
def Wing.openAdmission (w : Wing) : Wing :=
  let due := w.dueSources w.vst.levels
  if w.ctl.tkoPhase = some 2 then
    ((w.admitStaged.resampleIdle due).applyAllDeferred.updateRoutes.registerAlarms).returnReads.retryInstalls.settleReloads
  else
    let w1 := w.updateRoutes.registerAlarms
    let w2 := if w1.admitsNew then w1.admitStaged else w1
    let w3 := if w2.isActive && !w2.beforeReplays then w2.returnReads.retryInstalls.settleReloads else w2.returnReads.retryInstalls
    w3.registerSources due w3.now

/-- The MODWIN records of a tick that no count opens: in a tick whose number is a multiple of 64 the next count comes first (R84). -/
def Wing.openMods (w : Wing) : Wing := if w.now.toNat % 64 = 0 then w else w.sendMods

/-- Engines of the active wing take up their work: the cleaner, creation, finishes, drains and the study. -/
def Wing.openEngines (w : Wing) (img : Option RankImg) (r : Ranking) : Wing :=
  let w1 := w.cleanTick
  let w2 := if w1.ownsFrame then (w1.issueCreation.finishJobs.placeFinishes.finishFlushes).offerDrains else w1
  let w3 := match img with
    | some a => if w2.ownsFrame then (w2.takeRefusals (w2.view a) r).openMods else w2
    | none => w2
  w3.readRings.sendLetters

/-- The tick of the active wing opens. -/
def Wing.openActive (w : Wing) (img : Option RankImg) (r : Ranking) (go : Bool) : Wing :=
  let w0 := { w with psg := { w.psg with withheld := !go }, hall := { w.hall with offered := [] } }
  let w1 := { w0 with psg := { w0.psg with replays := w0.replayRoom } }
  let w2 := w1.sampleCopies
  let w3 := match img with
    | some a => if go then w2.release a r else w2
    | none => if go then w2.release (w2.rankImg w2.now) r else w2
  let w4 := w3.openBudgets.sampleCores.openAdmission
  let wakes := match img with
    | some a => (w.view a).wakes
    | none => 0
  let w7 := (w4.openEngines img r).voteWakes wakes
  w7.voteConfirm.issueLevel

/-- The tick of a wing that is not active opens. -/
def Wing.openOther (w : Wing) : Wing :=
  let w1 := w.sampleLevels.registerAlarms
  let w2 := w1.returnReads
  { w2 with hall := { w2.hall with wakeVotes := 0, confirmVote := false }, drn := [] }

/-- What every wing in Run does as a tick opens. -/
def Wing.openTick (w : Wing) (img : Option RankImg) (r : Ranking) (go : Bool) : Wing :=
  let w1 := w.takeSnap.moveStep.settleSpares
  let w2 := if w1.isActive then w1.openActive img r go else w1.openOther
  let w3 := ((w2.dropPair.schedulePair).when (!w2.followsFrames) Wing.compareRef).drainAll.sendInits
  if w3.isActive then w3 else { w3 with psg := { w3.psg with withheld := false } }

/-! ## The boundary -/

/-- What every wing settles at the close of a tick of Run; `before` is the LANE_MAP of the frame that closed. -/
def Wing.closeCounts (w : Wing) (before : BitVec 4) : Wing :=
  ((w.countTick.countQuiet.clearFlags).countStable before).countBeats

/-- What the lanes sent besides the frame in the tick that closes, and the tick's passage flags. -/
def Wing.closePassage (w : Wing) : Wing :=
  let w1 := w.sendTraining
  { w1 with psg := { w1.psg with spareSent := 0, replaySent := 0, ackClosed := false, ackLate := false } }

/-- The frame of a wing that is not active: requests of fills and TICK_CLOSE. -/
def Wing.closeOther (w : Wing) : Wing :=
  let f := w.quietFrame w.usedLanes [] (w.psg.rsy.take 97) 0
  let w1 := if lanesIn f.map = 0 then w else w.sendFrame f
  { w1 with psg := { w1.psg with rsy := w.psg.rsy.drop 97, acc := [], ord := [], defr := [] } }

/-- A tick boundary in Run. The errors that the reads of the closing tick found are settled in that tick, so that its frame carries a
handover to which they lead (R342). -/
def Wing.runBoundary (w : Wing) (ecc : List EccFind) : Wing :=
  let w0 := { w.clearFull with hall := { w.hall with dropped := w.hall.dropped ++ droppedBy ecc } }.eccReads ecc
  let img := w0.hall.img0
  let go := w0.gateOpen
  let last := w0.lastTick
  let c := if w0.isActive then w0.closeActive else (Ranking.empty, w0.closeOther)
  let before := w0.psg.map
  let w1 := c.2.closePassage.settleLanes.closeCounts before
  ((w1.nextTick.changeOver last).openTick img c.1 go).settleReady

/-- The wake sources that a boundary shows to a sleeping wing: its granted state rose to RUN, or the peer's heartbeat is lost (R301, R304). -/
def Wing.boundaryWakes (w : Wing) : Wing :=
  let w1 := w.when w.peerLost fun x => x.wake { source := 0x9, detail := 0 }
  w1.when (w1.ctl.role != .standby && w1.granted == 0) fun x => x.wake { source := 0x7, detail := 0 }

/-- A tick boundary while the wing sleeps or goes to sleep: frames with the pair's registers only, heartbeats, INIT, and the write-backs
of an entry (R299, R300). Only a wing in Nap keeps no lane but those that carry. A move of a bank or slice that is under way goes on, for the
spec does not say what becomes of it (DESIGN CHOICE, log 124). -/
def Wing.sleepBoundary (w : Wing) : Wing :=
  let map := if w.ctl.role == .active || w.life == .nap then w.carryMap else w.usedLanes
  let d := if w.ctl.role = .active then (w.psg.defr.filter fun r => match r with
      | .regw x => x.space == 0 && (x.addr == BitVec.ofNat 32 oPwrPair || x.addr == BitVec.ofNat 32 (oPwrPair + 4) ||
          x.addr == BitVec.ofNat 32 oPwrVote)
      | _ => false).take 64 else []
  let f0 := w.quietFrame map d [] 0
  let f : Frame := { f0 with close := { f0.close with sig := w.sigOf w.pwr.enterTick } }
  let w1 := if lanesIn map = 0 then w else w.sendFrame (if w.ctl.role = .active then w.shownFrame f else f)
  let w2 := { w1 with psg := { w1.psg with
    defr := w.psg.defr.filter fun r => !d.contains r
    sent := if w.ctl.role = Role.active then w1.keepFrame f else w1.psg.sent } }
  let w3 := (w2.applyDeferredGroup f).closePassage.settleLanes.countBeats
  let w4 := (w3.noteDemand 0).nextTick.when (w3.entering && w3.ctl.role == Role.active) fun (v : Wing) => v.clean 256
  let w5 := w4.takeSnap.moveStep
  (w5.sendInits.boundaryWakes.arriveNap.arriveDeep).settleReady

/-- A tick boundary after a wake from Deep: the wing trains its lanes and shows that it joins; with the boundary at which its counter starts
steps 5 to 7 follow in the home wing, and the other waits (R306; steps 5 to 7 take no time, DESIGN CHOICE, log 50). -/
def Wing.wakeBoundary (w : Wing) : Wing :=
  let w1 := (w.closeOther.closePassage.settleLanes.countBeats).nextTick.takeSnap
  if w.ctl.tickDue.isNone then w1 else if w1.isHome then { w1 with ctl := { w1.ctl with saved := none } }.restore w1.ctl.saved else w1.beginWait

/-- TICK_BOUNDARY. -/
def Wing.boundary (w : Wing) (ecc : List EccFind) : Wing :=
  match w.life with
  | .held | .deep => w
  | .outOfService => w.takeSnap.noteOwnVotes
  | .keyWait => if w.keyValid then ({ w with life := .run }.runBoundary ecc).noteOwnVotes else w.nextTick.takeSnap
  | .run => (w.runBoundary ecc).noteOwnVotes
  | .napEntry | .nap | .deepEntry => w.sleepBoundary.noteOwnVotes
  | .deepWake => w.wakeBoundary.noteOwnVotes

/-- An active wing whose TKO_FORCE.SIMPLEX is 1 frees the other wing of SUSPECT (R270). -/
def Wing.freesPeer (w : Wing) : Bool := w.isActive && w.forced

/-! ## The command -/

/-- TICK_BOUNDARY (R11): the errors that the reads of the closing tick found are its operand. -/
def execTickBoundary (w : WingId) (ecc : List EccFind) (s : State) : Host.Outcome State Fault Refusal :=
  let s1 := s.onWing w fun v => (v.boundary ecc).showEn v.psgEn
  let o := s1.wing (otherWing w)
  .next (if (s1.wing w).freesPeer then s1.setWing (otherWing w) { o with ctl := { o.ctl with suspect := false } } else s1)

end Sys2Proof.Machine
end

