-- ==== Sys2Proof/Machine/Dispatch.lean ====
section
/-! DEFINITION. One arm per command: the direct call of its meaning, or its rejection by name. -/

namespace Sys2Proof.Machine

def exec (i : Instr) (s : State) : Host.Outcome State Fault Refusal :=
  match i with
  | .nativeMessage w a => Sys2Proof.Machine.execNativeMessage w a s
  | .msiWrite w a => Sys2Proof.Machine.execMsiWrite w a s
  | .commandDoorbell w a => Sys2Proof.Machine.execCommandDoorbell w a s
  | .letterboxDoorbell w a => Sys2Proof.Machine.execLetterboxDoorbell w a s
  | .apertureRead w => Sys2Proof.Machine.execApertureRead w s
  | .wiredSourceChange w src level => Sys2Proof.Machine.execWiredSourceChange w src level s
  | .raise p arg v => Sys2Proof.Machine.execRaise p arg v s
  | .raiseBeat w p idx r => Sys2Proof.Machine.execRaiseBeat w p idx r s
  | .alarmLatch w line => Sys2Proof.Machine.execAlarmLatch w line s
  | .tickBoundary w ecc => Sys2Proof.Machine.execTickBoundary w ecc s
  | .windowEnd w key => Sys2Proof.Machine.execWindowEnd w key s
  | .cellarReadReturn w key rsp => Sys2Proof.Machine.execCellarReadReturn w key rsp s
  | .standbyImageExpiry w key => Sys2Proof.Machine.execStandbyImageExpiry w key s
  | .spillReturn w slice rsp => Sys2Proof.Machine.execSpillReturn w slice rsp s
  | .writeBackAccepted w key ok => Sys2Proof.Machine.execWriteBackAccepted w key ok s
  | .moderationCount w => Sys2Proof.Machine.execModerationCount w s
  | .steerReevaluation w => Sys2Proof.Machine.execSteerReevaluation w s
  | .strandingLimit w slice => Sys2Proof.Machine.execStrandingLimit w slice s
  | .releaseHeader p from_ hdr offers v => Sys2Proof.Machine.execReleaseHeader p from_ hdr offers v s
  | .claimRaise p from_ claim v => Sys2Proof.Machine.execClaimRaise p from_ claim v s
  | .init p from_ beat v => Sys2Proof.Machine.execInit p from_ beat v s
  | .acceptRsp w p bits held => Sys2Proof.Machine.execAcceptRsp w p bits held s
  | .acceptRspTimeout w p => Sys2Proof.Machine.execAcceptRspTimeout w p s
  | .refuse w p claim => Sys2Proof.Machine.execRefuse w p claim s
  | .entry w p e => Sys2Proof.Machine.execEntry w p e s
  | .status w p st => Sys2Proof.Machine.execStatus w p st s
  | .slotReport w p rep keys => Sys2Proof.Machine.execSlotReport w p rep keys s
  | .replayEnd w p => Sys2Proof.Machine.execReplayEnd w p s
  | .porchEvent w p e => Sys2Proof.Machine.execPorchEvent w p e s
  | .claim p op arg v => Sys2Proof.Machine.execClaim p op arg v s
  | .vrRd p v => Sys2Proof.Machine.execVrRd p v s
  | .complete p arg v => Sys2Proof.Machine.execComplete p arg v s
  | .eoi p waddr data v => Sys2Proof.Machine.execEoi p waddr data v s
  | .sliceCurReturn p v => Sys2Proof.Machine.execSliceCurReturn p v s
  | .porchDomainPowerDown k d => Sys2Proof.Machine.execPorchDomainPowerDown k d s
  | .porchDomainPowerUp k pdVote => Sys2Proof.Machine.execPorchDomainPowerUp k pdVote s
  | .commandPoint w => Sys2Proof.Machine.execCommandPoint w s
  | .descriptorReadReturn w slice pos rsp => Sys2Proof.Machine.execDescriptorReadReturn w slice pos rsp s
  | .nop w ring a => Sys2Proof.Machine.execNop w ring a s
  | .vecCfg w ring a => Sys2Proof.Machine.execVecCfg w ring a s
  | .vecReset w ring a => Sys2Proof.Machine.execVecReset w ring a s
  | .vecQuery w ring a => Sys2Proof.Machine.execVecQuery w ring a s
  | .vecComplete w ring a => Sys2Proof.Machine.execVecComplete w ring a s
  | .pin w ring a => Sys2Proof.Machine.execPin w ring a s
  | .unpin w ring a => Sys2Proof.Machine.execUnpin w ring a s
  | .flush w ring a => Sys2Proof.Machine.execFlush w ring a s
  | .sliceCreate w ring a => Sys2Proof.Machine.execSliceCreate w ring a s
  | .sliceShare w ring a => Sys2Proof.Machine.execSliceShare w ring a s
  | .sliceQuiesce w ring a => Sys2Proof.Machine.execSliceQuiesce w ring a s
  | .sliceResume w ring a => Sys2Proof.Machine.execSliceResume w ring a s
  | .sliceReset w ring a => Sys2Proof.Machine.execSliceReset w ring a s
  | .sliceRemove w ring a => Sys2Proof.Machine.execSliceRemove w ring a s
  | .letterPost w ring a => Sys2Proof.Machine.execLetterPost w ring a s
  | .parameterBlockRead w slice r => Sys2Proof.Machine.execParameterBlockRead w slice r s
  | .creationWritesDone w slice => Sys2Proof.Machine.execCreationWritesDone w slice s
  | .releaseWaitEnd w slice => Sys2Proof.Machine.execReleaseWaitEnd w slice s
  | .quiesceFinish w slice => Sys2Proof.Machine.execQuiesceFinish w slice s
  | .drainLimit w slice => Sys2Proof.Machine.execDrainLimit w slice s
  | .drainRequestTaken w port => Sys2Proof.Machine.execDrainRequestTaken w port s
  | .drnDone w port pasid gen => Sys2Proof.Machine.execDrnDone w port pasid gen s
  | .filterEntryExpiry w slice tag => Sys2Proof.Machine.execFilterEntryExpiry w slice tag s
  | .eventBlockWrite w => Sys2Proof.Machine.execEventBlockWrite w s
  | .block w lane bits late => Sys2Proof.Machine.execBlock w lane bits late s
  | .replay w => Sys2Proof.Machine.execReplay w s
  | .ackDeadline w => Sys2Proof.Machine.execAckDeadline w s
  | .psgRxlock w lane lock => Sys2Proof.Machine.execPsgRxlock w lane lock s
  | .trainingBlock w lane bits => Sys2Proof.Machine.execTrainingBlock w lane bits s
  | .frameApplied w => Sys2Proof.Machine.execFrameApplied w s
  | .arrive w r => Sys2Proof.Machine.execArrive w r s
  | .claimRecord w r => Sys2Proof.Machine.execClaimRecord w r s
  | .completeRecord w r => Sys2Proof.Machine.execCompleteRecord w r s
  | .cfgRegw w r => Sys2Proof.Machine.execCfgRegw w r s
  | .cfgCmd w r => Sys2Proof.Machine.execCfgCmd w r s
  | .cfgCmdExt w r => Sys2Proof.Machine.execCfgCmdExt w r s
  | .cfgFinish w r => Sys2Proof.Machine.execCfgFinish w r s
  | .cfgParam w r => Sys2Proof.Machine.execCfgParam w r s
  | .cfgDrain w r => Sys2Proof.Machine.execCfgDrain w r s
  | .cfgLetter w r => Sys2Proof.Machine.execCfgLetter w r s
  | .cfgLevel w r => Sys2Proof.Machine.execCfgLevel w r s
  | .cfgQuar w r => Sys2Proof.Machine.execCfgQuar w r s
  | .steerAccept w r => Sys2Proof.Machine.execSteerAccept w r s
  | .steerInstall w r => Sys2Proof.Machine.execSteerInstall w r s
  | .steerModwin w r => Sys2Proof.Machine.execSteerModwin w r s
  | .steerTarget w r => Sys2Proof.Machine.execSteerTarget w r s
  | .steerResidency w r => Sys2Proof.Machine.execSteerResidency w r s
  | .steerCorestate w r => Sys2Proof.Machine.execSteerCorestate w r s
  | .ringposDoorbell w r => Sys2Proof.Machine.execRingposDoorbell w r s
  | .ringposDone w t => Sys2Proof.Machine.execRingposDone w t s
  | .resyncCopy w r => Sys2Proof.Machine.execResyncCopy w r s
  | .resyncFetch w r => Sys2Proof.Machine.execResyncFetch w r s
  | .resyncArrival w r => Sys2Proof.Machine.execResyncArrival w r s
  | .resyncFill w r => Sys2Proof.Machine.execResyncFill w r s
  | .tickClose w frame replayed r => Sys2Proof.Machine.execTickClose w frame replayed r s
  | .nopRecord w => Sys2Proof.Machine.execNopRecord w s
  | .standbyLost w => Sys2Proof.Machine.execStandbyLost w s
  | .provisionalCommit w => Sys2Proof.Machine.execProvisionalCommit w s
  | .takeover w => Sys2Proof.Machine.execTakeover w s
  | .takeoverWrites w => Sys2Proof.Machine.execTakeoverWrites w s
  | .recoveryModeEnd w => Sys2Proof.Machine.execRecoveryModeEnd w s
  | .resyncStart w => Sys2Proof.Machine.execResyncStart w s
  | .resyncAbort w => Sys2Proof.Machine.execResyncAbort w s
  | .resyncDone w => Sys2Proof.Machine.execResyncDone w s
  | .handoverSchedule w => Sys2Proof.Machine.execHandoverSchedule w s
  | .handover w => Sys2Proof.Machine.execHandover w s
  | .levelChoice w => Sys2Proof.Machine.execLevelChoice w s
  | .levelChange w vok => Sys2Proof.Machine.execLevelChange w vok s
  | .studyVote w => Sys2Proof.Machine.execStudyVote w s
  | .napEntry w => Sys2Proof.Machine.execNapEntry w s
  | .napWake w c => Sys2Proof.Machine.execNapWake w c s
  | .napExit w bad ecc => Sys2Proof.Machine.execNapExit w bad ecc s
  | .deepEntry w => Sys2Proof.Machine.execDeepEntry w s
  | .deepWake w c save => Sys2Proof.Machine.execDeepWake w c save s
  | .deepJoinTimeout w save => Sys2Proof.Machine.execDeepJoinTimeout w save s
  | .anchorWrite w => Sys2Proof.Machine.execAnchorWrite w s
  | .vbatCheck w millivolt => Sys2Proof.Machine.execVbatCheck w millivolt s
  | .hearthPowerUp w => Sys2Proof.Machine.execHearthPowerUp w s
  | .hrtCalSet w val => Sys2Proof.Machine.execHrtCalSet w val s
  | .timePair w => Sys2Proof.Machine.execTimePair w s
  | .voteWalk w finds => Sys2Proof.Machine.execVoteWalk w finds s
  | .scrub w finds => Sys2Proof.Machine.execScrub w finds s
  | .signaturePass w flips => Sys2Proof.Machine.execSignaturePass w flips s
  | .wearWindowEnd w => Sys2Proof.Machine.execWearWindowEnd w s
  | .bankMove w => Sys2Proof.Machine.execBankMove w s
  | .scanSliceMove w => Sys2Proof.Machine.execScanSliceMove w s
  | .registerWrite w a => Sys2Proof.Machine.execRegisterWrite w a s
  | .registerWriteAnswer w => Sys2Proof.Machine.execRegisterWriteAnswer w s
  | .readClear w a => Sys2Proof.Machine.execReadClear w a s
  | .indirectAccess w write a => Sys2Proof.Machine.execIndirectAccess w write a s
  | .snapNow w => Sys2Proof.Machine.execSnapNow w s
  | .snapBoundary w => Sys2Proof.Machine.execSnapBoundary w s
  | .lockBitSet w a => Sys2Proof.Machine.execLockBitSet w a s
  | .dualControlWrite w a => Sys2Proof.Machine.execDualControlWrite w a s
  | .dualPendExpiry w => Sys2Proof.Machine.execDualPendExpiry w s
  | .start w req save => Sys2Proof.Machine.execStart w req save s
  | .startComplete w => Sys2Proof.Machine.execStartComplete w s
  | .wingReset w => Sys2Proof.Machine.execWingReset w s
  | .wingResetRelease w aptBase portGen => Sys2Proof.Machine.execWingResetRelease w aptBase portGen s
  | .keyDelivery w key => Sys2Proof.Machine.execKeyDelivery w key s
  | .rawEdge w => Sys2Proof.Machine.execRawEdge w s
  | .sliceCurChange p cur sleep => Sys2Proof.Machine.execSliceCurChange p cur sleep s
  | .tickSyncBreak w => Sys2Proof.Machine.execTickSyncBreak w s
  | .backupRailLoss => Sys2Proof.Machine.execBackupRailLoss s
  | .retentionMonitorTrip w bank => Sys2Proof.Machine.execRetentionMonitorTrip w bank s
  | .recordWriteAccepted w slice pos => Sys2Proof.Machine.execRecordWriteAccepted w slice pos s

end Sys2Proof.Machine
end

