-- ==== Sys2Proof/WellFormed.lean ====
section
/-! DEFINITION. What a well-formed command is: the limits that the spec puts on the operands beyond their widths. A
command that breaks one cannot cross the boundary it names; the machine gives it a meaning all the same (absent
beats and bytes read as nothing). -/

namespace Sys2Proof

/-- Banks in records are logical banks 0 to 63 (R245, R349). -/
def bankOk (b : BitVec 7) : Bool := b.toNat < 64

/-- A window is 0 to 64 ticks (R67). -/
def winOk (w : BitVec 7) : Bool := w.toNat ≤ 64

/-- A COMPLETE record carries neither RETURN nor SYNTH and names a completion; a CLAIM record names a claim, or a return
with RETURN set (R243). -/
def JournalRec.wfClaim (r : JournalRec) : Bool :=
  match r.entry.kind with
  | .claim => !r.ret && !r.synth
  | .ret => r.ret
  | .complete => false

def JournalRec.wfComplete (r : JournalRec) : Bool :=
  (r.entry.kind == .complete) && !r.ret && !r.synth

/-- An ARRIVE record sets RECHECK only on a SPILL_LOST discard, and CAUSE only with DISCARD or ESC (R241). -/
def ArriveRec.wf (r : ArriveRec) : Bool :=
  (!r.recheck || (r.discard && r.cause == 0)) && (r.discard || r.esc || r.cause == 0) && !(r.discard && r.esc)

/-- REGW names the wing window or the indirect space, at a word address (R244). -/
def RegwRec.wf (r : RegwRec) : Bool :=
  r.space.toNat < 2 && r.addr.toNat % 4 == 0

/-- The wake sources that PWR_WAKE lists (R315). -/
def WakeCause.wf (c : WakeCause) : Bool :=
  1 ≤ c.source.toNat && c.source.toNat ≤ 0xB

/-- The checks on a whole command. -/
def Instr.wf : Instr → Bool
  | .releaseHeader _ _ hdr offers _ =>
      offers.length ≤ 4 && offers.length == (hdr.extractLsb' 64 3).toNat
  | .acceptRsp _ _ _ held => held.length ≤ 4
  | .slotReport _ _ _ keys => keys.length == 4
  | .porchDomainPowerDown _ d => d.reads.length ≤ 8
  | .claimRecord _ r => r.wfClaim
  | .completeRecord _ r => r.wfComplete
  | .arrive _ r => r.wf
  | .cfgRegw _ r => r.wf
  | .steerInstall _ r => bankOk r.bank
  | .steerTarget _ r => bankOk r.bank
  | .resyncFill _ r => bankOk r.bank && r.part.toNat < 4
  | .steerModwin _ r => winOk r.win
  | .resyncCopy _ r => r.space.toNat < 4
  | .retentionMonitorTrip _ b => b.toNat < 68
  | .napExit _ bad _ => bad.all fun b => b.toNat < 68
  | .napWake _ c => c.wf
  | .deepWake _ c _ => c.source == 0x5 || c.source == 0xA
  | .claim _ op _ _ => op == 1
  | _ => true

end Sys2Proof
end

