-- ==== Sys2Proof/Safety.lean ====
section
/-! DEFINITION. What a safe run is, in the terms that the statements use: that the block goes on, which part of it a command may
touch, and what holds of every porch. -/

namespace Sys2Proof

/-- The block goes on from the state: its next step neither faults nor refuses. -/
def Machine.State.goesOn (s : Machine.State) : Prop := ∃ t, Machine.step s = .next t

/-- From `s` to `t` nothing has changed but the wing `w` and what is driven. -/
def Machine.State.onlyWing (s t : Machine.State) (w : WingId) : Prop :=
  t.wing (Machine.otherWing w) = s.wing (Machine.otherWing w) ∧ t.porches = s.porches ∧ t.free = s.free ∧
    t.pending = s.pending

/-- From `s` to `t` nothing has changed but the porch `p`, what is driven, and the count of free values. -/
def Machine.State.onlyPorch (s t : Machine.State) (p : Byte) : Prop :=
  t.east = s.east ∧ t.west = s.west ∧ t.pending = s.pending ∧ ∀ q, q ≠ p → t.porch q = s.porch q

/-- The wing that a command reaches, for the commands that reach one wing and no more. A wing reset is none of them: with both wings in
reset the porches lose their rails (R407). -/
def Instr.wingOnly : Instr → Option WingId
  | .nativeMessage w _ => some w
  | .msiWrite w _ => some w
  | .commandDoorbell w _ => some w
  | .letterboxDoorbell w _ => some w
  | .apertureRead w => some w
  | .wiredSourceChange w _ _ => some w
  | .alarmLatch w _ => some w
  | .windowEnd w _ => some w
  | .cellarReadReturn w _ _ => some w
  | .standbyImageExpiry w _ => some w
  | .spillReturn w _ _ => some w
  | .writeBackAccepted w _ _ => some w
  | .moderationCount w => some w
  | .steerReevaluation w => some w
  | .strandingLimit w _ => some w
  | .acceptRsp w _ _ _ => some w
  | .acceptRspTimeout w _ => some w
  | .refuse w _ _ => some w
  | .entry w _ _ => some w
  | .status w _ _ => some w
  | .slotReport w _ _ _ => some w
  | .replayEnd w _ => some w
  | .porchEvent w _ _ => some w
  | .commandPoint w => some w
  | .descriptorReadReturn w _ _ _ => some w
  | .nop w _ _ => some w
  | .vecCfg w _ _ => some w
  | .vecReset w _ _ => some w
  | .vecQuery w _ _ => some w
  | .vecComplete w _ _ => some w
  | .pin w _ _ => some w
  | .unpin w _ _ => some w
  | .flush w _ _ => some w
  | .sliceCreate w _ _ => some w
  | .sliceShare w _ _ => some w
  | .sliceQuiesce w _ _ => some w
  | .sliceResume w _ _ => some w
  | .sliceReset w _ _ => some w
  | .sliceRemove w _ _ => some w
  | .letterPost w _ _ => some w
  | .parameterBlockRead w _ _ => some w
  | .creationWritesDone w _ => some w
  | .releaseWaitEnd w _ => some w
  | .quiesceFinish w _ => some w
  | .drainLimit w _ => some w
  | .drainRequestTaken w _ => some w
  | .drnDone w _ _ _ => some w
  | .filterEntryExpiry w _ _ => some w
  | .eventBlockWrite w => some w
  | .block w _ _ _ => some w
  | .replay w => some w
  | .ackDeadline w => some w
  | .psgRxlock w _ _ => some w
  | .trainingBlock w _ _ => some w
  | .frameApplied w => some w
  | .arrive w _ => some w
  | .claimRecord w _ => some w
  | .completeRecord w _ => some w
  | .cfgRegw w _ => some w
  | .cfgCmd w _ => some w
  | .cfgCmdExt w _ => some w
  | .cfgFinish w _ => some w
  | .cfgParam w _ => some w
  | .cfgDrain w _ => some w
  | .cfgLetter w _ => some w
  | .cfgLevel w _ => some w
  | .cfgQuar w _ => some w
  | .steerAccept w _ => some w
  | .steerInstall w _ => some w
  | .steerModwin w _ => some w
  | .steerTarget w _ => some w
  | .steerResidency w _ => some w
  | .steerCorestate w _ => some w
  | .ringposDoorbell w _ => some w
  | .ringposDone w _ => some w
  | .resyncCopy w _ => some w
  | .resyncFetch w _ => some w
  | .resyncArrival w _ => some w
  | .resyncFill w _ => some w
  | .tickClose w _ _ _ => some w
  | .nopRecord w => some w
  | .standbyLost w => some w
  | .provisionalCommit w => some w
  | .takeover w => some w
  | .takeoverWrites w => some w
  | .recoveryModeEnd w => some w
  | .resyncStart w => some w
  | .resyncAbort w => some w
  | .resyncDone w => some w
  | .handoverSchedule w => some w
  | .handover w => some w
  | .levelChoice w => some w
  | .levelChange w _ => some w
  | .studyVote w => some w
  | .napWake w _ => some w
  | .napExit w _ _ => some w
  | .deepWake w _ _ => some w
  | .deepJoinTimeout w _ => some w
  | .anchorWrite w => some w
  | .vbatCheck w _ => some w
  | .hearthPowerUp w => some w
  | .hrtCalSet w _ => some w
  | .timePair w => some w
  | .voteWalk w _ => some w
  | .scrub w _ => some w
  | .signaturePass w _ => some w
  | .wearWindowEnd w => some w
  | .bankMove w => some w
  | .scanSliceMove w => some w
  | .registerWrite w _ => some w
  | .registerWriteAnswer w => some w
  | .readClear w _ => some w
  | .indirectAccess w _ _ => some w
  | .snapNow w => some w
  | .snapBoundary w => some w
  | .lockBitSet w _ => some w
  | .dualControlWrite w _ => some w
  | .dualPendExpiry w => some w
  | .start w _ _ => some w
  | .startComplete w => some w
  | .wingResetRelease w _ _ => some w
  | .keyDelivery w _ => some w
  | .rawEdge w => some w
  | .tickSyncBreak w => some w
  | .retentionMonitorTrip w _ => some w
  | .recordWriteAccepted w _ _ => some w
  | _ => none

/-- The porch that a command reaches, for the commands that reach one porch and no more. -/
def Instr.porchOnly : Instr → Option Byte
  | .raise p _ _ => some p
  | .releaseHeader p _ _ _ _ => some p
  | .claimRaise p _ _ _ => some p
  | .init p _ _ _ => some p
  | .claim p _ _ _ => some p
  | .vrRd p _ => some p
  | .complete p _ _ => some p
  | .eoi p _ _ _ => some p
  | .sliceCurReturn p _ => some p
  | .sliceCurChange p _ _ => some p
  | _ => none

/-- The record that a record command brings, and the wing that it comes to (the acceptance, ordered and deferred groups of R231). -/
def Instr.recordOf : Instr → Option (WingId × Rec)
  | .arrive w r => some (w, .arrive r)
  | .claimRecord w r => some (w, .claim r)
  | .completeRecord w r => some (w, .complete r)
  | .cfgRegw w r => some (w, .regw r)
  | .cfgCmd w r => some (w, .cmd r)
  | .cfgCmdExt w r => some (w, .cmdExt r)
  | .cfgFinish w r => some (w, .finish r)
  | .cfgParam w r => some (w, .param r)
  | .cfgDrain w r => some (w, .drain r)
  | .cfgLetter w r => some (w, .letter r)
  | .cfgLevel w r => some (w, .level r)
  | .cfgQuar w r => some (w, .quar r)
  | .steerAccept w r => some (w, .accept r)
  | .steerInstall w r => some (w, .install r)
  | .steerModwin w r => some (w, .modwin r)
  | .steerTarget w r => some (w, .target r)
  | .steerResidency w r => some (w, .residency r)
  | .steerCorestate w r => some (w, .coreState r)
  | .ringposDoorbell w r => some (w, .doorbell r)
  | .ringposDone w r => some (w, .done r)
  | _ => none

/-- A standby that takes its peer's frames, with no record waiting and no context being rebuilt: the next record applies at once
(R235). -/
def Machine.Wing.appliesNow (w : Machine.Wing) : Prop :=
  w.receives = true ∧ w.ctl.role = .standby ∧ w.psg.hold = [] ∧ w.pan.reloads = []

/-- From `v` to `w` a wing has changed in no more than its slices, its reads at the memory port and what it drives. -/
def Machine.Wing.onlyReads (v w : Machine.Wing) : Prop :=
  w = { v with
    sl := w.sl, mem := w.mem, out := w.out
    ring := { v.ring with blockReads := w.ring.blockReads }
    pan := { v.pan with fetches := w.pan.fetches } }

/-- A command at the head of a ring may be admitted now (R158, R161, R175): the wing takes commands, the ring's slice runs, nothing
stands in the command's way, and the ring and the frame have room for its records. -/
def Machine.Wing.mayAdmit (w : Machine.Wing) (ring : BitVec 12) (d : Machine.Desc) : Prop :=
  w.takesCmds = true ∧ (w.slice ring).admits = true ∧ w.mayStart ring d = true ∧ w.letterHold ring d = false ∧
    w.dirtyHold ring d = false ∧ w.ringRoom ring 1 = true ∧ w.roomDeferred (Machine.cmdRecords d) = true

/-- What holds of every porch (R116, R122, R126): four slots, at most eight journal entries and four raises; no vector in two
slots, and none in a slot whose return has not committed. -/
def Machine.Porch.sound (q : Machine.Porch) : Prop :=
  q.slots.length = 4 ∧ q.journal.length ≤ 8 ∧ q.raiseq.length ≤ 4 ∧ (q.held.map Machine.rkKey).Nodup ∧
    ∀ k ∈ q.held, ∀ e ∈ q.rets, e.key ≠ Machine.rkKey k

/-- The porches lie in the canonical form of their map, and each of them is sound. -/
def Machine.State.porchesSound (s : Machine.State) : Prop :=
  Machine.SMap.wfd s.porches Machine.Porch.off = true ∧ ∀ e ∈ s.porches, e.2.sound

/-- What holds of a wing's claim (R257, R258): it has the parity of the wing's side, even for the east one, and is not greater than the
greatest claim that the wing has seen. -/
def Machine.Wing.claimSound (v : Machine.Wing) (w : WingId) : Prop :=
  v.id = w ∧ v.ctl.claim.toNat % 2 = (if w = .west then 1 else 0) ∧ v.ctl.claim.toNat ≤ v.ctl.seen.toNat

/-- Both wings' claims are sound. -/
def Machine.State.claimsSound (s : Machine.State) : Prop := s.east.claimSound .east ∧ s.west.claimSound .west

end Sys2Proof
end

