-- ==== Sys2Proof/Certificates/Slice0/Obligations.lean ====
section
/-! DEFINITION. What is claimed of the model: one statement for each family of commands and each kind of state, with what a command
leaves unchanged. -/

open Sys2Proof Sys2Proof.Machine

/-! ## The block as a whole -/

/-- A step takes the command at the front of the queue: it is `exec` of that command on the state with the queue's rest. An
empty queue idles (log 12, the model's choice). -/
def Obligations.StepRunsTheFrontCommand : Prop :=
  ∀ (c : Instr) (rest : List Instr) (s : State),
    step { s with pending := c :: rest } = exec c { s with pending := rest } ∧
      step { s with pending := [] } = .next { s with pending := [] }

/-- R7, R116: a command never stops, and never touches the queue behind it. A command of one wing changes neither the other wing
nor a porch; a beat or a core operation at one porch changes neither wing and no other porch. -/
def Obligations.CommandsKeepTheRest : Prop :=
  ∀ (c : Instr) (s : State), ∃ t, exec c s = .next t ∧ t.pending = s.pending ∧
    (∀ w, c.wingOnly = some w → s.onlyWing t w) ∧ ∀ p, c.porchOnly = some p → s.onlyPorch t p

/-- Four slots, eight journal entries and four raises (R116), no vector twice in the slots and none whose return has not
committed (R122): every step keeps this of every porch. -/
def Obligations.PorchesStaySound : Prop :=
  ∀ s t : State, s.porchesSound → step s = .next t → t.porchesSound

/-- R405, R403, R142, R258: the state after reset: the porches are sound and off, the claims of the wings are sound, no command
waits, and each wing is held in reset, JOINING, with the claim number of its side, no tick counter, no key, every register at
its reset value and every counter 0, no vector in the pantry, every slice UNBOUND, and a hearth that has just powered up. Parts
of it are the model's: the first observation sequences (log 4), the JSEQ of a porch that is off (log 7), its SLICE_CUR and sleep
class (log 8), DESIGN CHOICE all three, and that the first state is both wings in reset, all porches off and a hearth at its
first power-up (log 11, DEDUCED). -/
def Obligations.ResetLeaves : Prop :=
  (State.reset.porchesSound) ∧
  (State.reset.claimsSound) ∧
  (State.reset.porchesSound ∧ State.reset.pending = [] ∧ (∀ p, State.reset.porch p = Porch.off) ∧
    ∀ w : WingId, ∃ v, v = State.reset.wing w ∧ v.id = w ∧ v.life = .held ∧ v.keyValid = false ∧ v.ctl.role = .joining ∧
      v.ctl.claim = (match w with
        | .east => 0
        | .west => 1) ∧
      v.ctl.hasTick = false ∧ v.ctl.tick = 0 ∧ (∀ c, v.ctr c = 0) ∧ (∀ k, v.cfgW k = cfgDefault v.portGen k ∧ v.effW k = v.cfgW k) ∧
      (∀ key, v.slotFor key = none) ∧ (∀ n, (v.slice n).state = .unbound) ∧ (∀ j, v.seqOf j = 0) ∧ v.hrt.raw = 0 ∧ v.hrt.fresh = true ∧
      v.regs.indInc = true ∧ v.ctl.bootCode = 0xFF)

/-- R240 to R247, R117: a passage record, and a journal entry, is read back from its bytes with every field at every value. -/
def Obligations.RecordsRoundTrip : Prop :=
  (∀ r : Rec, Rec.decode r.encode = some r) ∧ ∀ e : Entry, Entry.decode e.encode = some e

/-- R319: the raw counter of a powered hearth goes up by one at every raw edge, it starts from 0 at reset and at the power-up of
a hearth that has lost its state, and no other command writes it; only the loss of the backup rail takes it, with the rest of
the hearth. -/
def Obligations.RawCounterHasOneWriter : Prop :=
  (∀ w, (State.reset.wing w).hrt.raw = 0) ∧
    (∀ (s : State) (w : WingId), ((s.wing w).hrt.powered = true →
        ∃ t, exec (.rawEdge w) s = .next t ∧ s.onlyWing t w ∧ (t.wing w).hrt.raw = (s.wing w).hrt.raw + 1) ∧
      ((s.wing w).hrt.powered = false →
        ∃ t, exec (.hearthPowerUp w) s = .next t ∧ s.onlyWing t w ∧ (t.wing w).hrt.raw = 0) ∧
      ((s.wing w).hrt.powered = true →
        ∃ t, exec (.hearthPowerUp w) s = .next t ∧ s.onlyWing t w ∧ (t.wing w).hrt = (s.wing w).hrt)) ∧
    ∀ (c : Instr) (s t : State), exec c s = .next t → (∀ w, c ≠ .rawEdge w) → (∀ w, c ≠ .hearthPowerUp w) →
      c ≠ .backupRailLoss → ∀ w, (t.wing w).hrt.raw = (s.wing w).hrt.raw

/-! ## Reset, bring-up and the tick -/

/-- R405: a wing reset sets every mirrored register to its reset value, clears the counters, discards pantry, staging and
passage, and leaves the hearth (WING_RESET), PSG_EN falling with the lanes; R407, R412: with both wings in reset every porch is
off and holds nothing. The release samples the straps and waits for the key (WING_RESET_RELEASE), whose first delivery alone
counts (KEY_DELIVERY); R400: a break of TICK_SYNC sets its flag and nothing else (TICK_SYNC_BREAK). R388, R408: a START that
meets its conditions is answered OK; with no valid anchor and no good save area the counter starts at 0, and slice 0's parameter
block is read. R324: else the rebuild waits for a raw edge, and the counter takes what the anchor gives, or the value above the
saved tick of E. One that does not meet the conditions is refused with reason VALUE; a wing in reset answers ERROR, one in Deep
nothing; in a wing that sleeps the write waits (R300). START_COMPLETE puts slice 0's FINISH in the frame once every write of the
creation is accepted. That the counter is obtained anew by every START, and starts at the boundary after the edge, is log 50,
and that reset steps 1 and 2 are over at the release is log 21. -/
def Obligations.ResetAndBringUp : Prop :=
  (∀ (s : State) (w : WingId),
    (∃ t, exec (.wingReset w) s = .next t ∧ t.pending = s.pending ∧ ((s.wing (otherWing w)).life ≠ .held → s.onlyWing t w) ∧
      ((s.wing (otherWing w)).life = .held → (∀ x, (t.wing x).pwr.domOn = 0) ∧
        ∀ p, t.porch p = { Porch.off with cur := (s.porch p).cur, sleep := (s.porch p).sleep }) ∧
      t.out = (if (s.wing w).psgEn = 0 then [] else [.psgEn (s.wing w).id 0]) ++
        (if (s.wing w).life = .deep then [.hrtDeep (s.wing w).id false] else []) ∧ (t.wing w).life = .held ∧
      (t.wing w).ctl = Ctl.reset (s.wing w).id ∧ (t.wing w).keyValid = false ∧ (∀ c, (t.wing w).ctr c = 0) ∧
      (∀ k, (t.wing w).cfgW k = cfgDefault (s.wing w).portGen k ∧ (t.wing w).effW k = cfgDefault (s.wing w).portGen k) ∧
      (t.wing w).pan = Pantry.reset ∧ (t.wing w).vst.staged = [] ∧ (t.wing w).vst.inbuf = [] ∧ (t.wing w).psg = Passage.reset ∧
      (t.wing w).hrt = (s.wing w).hrt) ∧
    (∀ apt pg, (s.wing w).life = .held →
      ∃ t, exec (.wingResetRelease w apt pg) s = .next t ∧ s.onlyWing t w ∧ t.out = [] ∧ (t.wing w).life = .keyWait ∧
        (t.wing w).aptBase = apt ∧ (t.wing w).portGen = pg ∧ (t.wing w).ctl = Ctl.reset (s.wing w).id ∧
        (t.wing w).keyValid = false ∧ (t.wing w).hrt = (s.wing w).hrt) ∧
    (∀ apt pg, (s.wing w).life ≠ .held →
      ∃ t, exec (.wingResetRelease w apt pg) s = .next t ∧ s.onlyWing t w ∧ t.wing w = { s.wing w with out := [] }) ∧
    (∀ key, ∃ t, exec (.keyDelivery w key) s = .next t ∧ s.onlyWing t w ∧ t.out = [] ∧
      t.wing w = (if (s.wing w).life = .keyWait ∧ (s.wing w).keyValid = false then { s.wing w with key := key, keyValid := true, out := [] }
        else { s.wing w with out := [] })) ∧
    ((s.wing w).life ≠ .held → (s.wing w).life ≠ .deep →
      ∃ t, exec (.tickSyncBreak w) s = .next t ∧ s.onlyWing t w ∧ t.out = [] ∧
        t.wing w = { s.wing w with ctl := { (s.wing w).ctl with tsyncErr := true }, out := [] }) ∧
    ((s.wing w).life = .held ∨ (s.wing w).life = .deep →
      ∃ t, exec (.tickSyncBreak w) s = .next t ∧ s.onlyWing t w ∧ t.wing w = { s.wing w with out := [] })) ∧
  (∀ (s : State) (w : WingId) (req : Byte),
    (∀ (save : Option SaveArea) (old : Option Tick), (s.wing w).life ≠ .held → (s.wing w).life ≠ .deep →
      (s.wing w).portSleeps = false → (s.wing w).regs.portHeld = none → (s.wing w).regs.portQueue = [] →
      old = (if (s.wing w).saveValid then (save.bind readTrailer).map (fun x => x.2.2) else none) →
      ((s.wing w).canStart = true → (s.wing w).hrt.ancValid = false → old = none →
        ∃ t, exec (.start w req save) s = .next t ∧ s.onlyWing t w ∧ (t.wing w).ctl.booting = true ∧
          (t.wing w).ctl.tickDue = some 0 ∧ (t.wing w).ctl.reconciled = (s.wing w).ctl.reconciled ∧
          Out.regRsp (s.wing w).id true 0 ∈ t.out ∧
          ((s.wing w).pan.fetches = [] → (s.wing w).ring.blockReads = [] → (∀ e ∈ (s.wing w).sl, e.2.job = none) →
            (s.wing w).readsOut ≤ 126 → ∀ half : Bool, ∃ tag, Out.memRead (s.wing w).id
              (((s.wing w).effD oBootParam &&& 0xFFFFFFFFFFFFFFC0) + if half then 64 else 0) 64 tag ∈ t.out)) ∧
      ((s.wing w).canStart = true → (s.wing w).hrt.ancValid = true ∨ old ≠ none →
        ∃ t, exec (.start w req save) s = .next t ∧ s.onlyWing t w ∧ (t.wing w).ctl.booting = true ∧
          (t.wing w).ctl.tickDue = (s.wing w).ctl.tickDue ∧ (t.wing w).ctl.rawWait = some old ∧
          Out.regRsp (s.wing w).id true 0 ∈ t.out) ∧
      ((s.wing w).canStart = false →
        ∃ t, exec (.start w req save) s = .next t ∧ s.onlyWing t w ∧ t.out = [.regRsp (s.wing w).id false 0] ∧
          (t.wing w).ctl = (s.wing w).ctl ∧ (t.wing w).ctr cRegErr = (s.wing w).ctr cRegErr + 1)) ∧
    (∀ (old : Option Tick) (h : Hearth), (s.wing w).ctl.rawWait = some old → (s.wing w).hrt.powered = true →
      h = { (s.wing w).hrt with raw := (s.wing w).hrt.raw + 1 } →
      ∃ t, exec (.rawEdge w) s = .next t ∧ s.onlyWing t w ∧ (t.wing w).ctl.rawWait = none ∧
        (t.wing w).ctl.tickDue = some (h.rebuilt.getD ((old.map (· + 1)).getD 0)) ∧
        (t.wing w).ctl.reconciled = ((s.wing w).ctl.reconciled || h.ancValid || old.isSome)) ∧
    (∀ save, (s.wing w).portSleeps = true →
      ∃ (t : State) (a : RegAccess), exec (.start w req save) s = .next t ∧ s.onlyWing t w ∧
        a = { alias_ := false, addr := 0x0100, data := 1, strb := 0x0F, req := req, save := save } ∧
        (t.wing w).regs = { (s.wing w).regs with portQueue := (s.wing w).regs.portQueue ++ [(true, a)] }) ∧
    (∀ save, ((s.wing w).life = .held → ∃ t, exec (.start w req save) s = .next t ∧ s.onlyWing t w ∧
        t.out = [.regRsp (s.wing w).id false 0] ∧ t.wing w = { s.wing w with out := [] }) ∧
      ((s.wing w).life = .deep → ∃ t, exec (.start w req save) s = .next t ∧ s.onlyWing t w ∧ t.out = [] ∧
        t.wing w = { s.wing w with out := [] })) ∧
    ((s.wing w).ctl.booting = false ∨ (s.wing w).isActive = false ∨ ((s.wing w).slice 0).job = none →
      ∃ t, exec (.startComplete w) s = .next t ∧ s.onlyWing t w ∧ t.wing w = { s.wing w with out := [] }) ∧
    (∀ j, ((s.wing w).slice 0).job = some j → (s.wing w).ctl.booting = true → (s.wing w).isActive = true → j.phase = .writing →
      j.left = 0 →
      ∃ (t : State) (f : FinishRec) (rs : List ParamRec), exec (.startComplete w) s = .next t ∧ s.onlyWing t w ∧ t.out = [] ∧
        f.result = 0 ∧ f.ring = 0 ∧ f.pos = 0 ∧ f.nParam.toNat = rs.length ∧
        (t.wing w).psg.defr = (s.wing w).psg.defr ++ .finish f :: rs.map Rec.param ∧
        ((t.wing w).slice 0).job = some { j with phase := .written }))

/-- R11, R408: at a tick boundary the wing's tick counter takes a due value, or goes up by one while it holds one, and so does
the count of TICK_SYNC periods of a wing without one; a wing in reset or in Deep does nothing. R11, R13, R14, R15: the order of
what TICK_BOUNDARY does in a wing in Run, where the reads of the closing tick found no error. The tick closes: the active wing
collects, ranks and closes its frame (`Wing.closeActive`), any other wing sends its own frame (`Wing.closeOther`); then the
lanes and the counts of the tick settle. The counter moves, role and level change, and the new tick opens: the active wing
releases where the gate was open, with the ranking that the close made, and then admits (`Wing.openActive`), any other wing only
registers alarms and reads back what it spilled (`Wing.openOther`). What each of these steps does is stated beside this one. -/
def Obligations.TickBoundaryCounts : Prop :=
  (∀ (s : State) (w : WingId) (ecc : List EccFind),
    ((s.wing w).life = .held ∨ (s.wing w).life = .deep →
      ∃ t, exec (.tickBoundary w ecc) s = .next t ∧ t.wing w = { s.wing w with out := [] } ∧ t.out = []) ∧
    ((s.wing w).life = .keyWait → (s.wing w).keyValid = false → (s.wing w).ctl.tickDue = none → (s.wing w).ctl.hasTick = false →
      ∃ t, exec (.tickBoundary w ecc) s = .next t ∧ (t.wing w).ctl.syncCount = (s.wing w).ctl.syncCount + 1 ∧
        (t.wing w).ctl.hasTick = false ∧ (t.wing w).regs.cfg = (s.wing w).regs.cfg ∧ (t.wing w).regs.eff = (s.wing w).regs.eff ∧
        (t.wing w).regs.ctr = (s.wing w).regs.ctr ∧ (t.wing w).hrt = (s.wing w).hrt) ∧
    ((s.wing w).life = .run ∨ (s.wing w).life = .nap ∨ (s.wing w).life = .napEntry ∨ (s.wing w).life = .deepWake →
      ∃ t, exec (.tickBoundary w ecc) s = .next t ∧ t.pending = s.pending ∧ t.porches = s.porches ∧
        (∀ n, (s.wing w).ctl.tickDue = some n → (t.wing w).now = n ∧ (t.wing w).ctl.hasTick = true) ∧
        ((s.wing w).ctl.tickDue = none → (s.wing w).ctl.hasTick = true → (t.wing w).now = (s.wing w).now + 1))) ∧
  (∀ (s : State) (w : WingId) (v x y : Wing) (c : Ranking × Wing), (s.wing w).life = .run →
    v = { s.wing w with out := [] }.clearFull →
    c = (if v.isActive then v.closeActive else (Ranking.empty, v.closeOther)) →
    x = (c.2.closePassage.settleLanes.closeCounts v.psg.map).nextTick.changeOver v.lastTick →
    y = (x.openTick v.hall.img0 c.1 v.gateOpen).settleReady.noteOwnVotes.showEn v.psgEn →
    ∃ t, exec (.tickBoundary w []) s = .next t ∧ t.porches = s.porches ∧ t.pending = s.pending ∧ t.out = y.out ∧
      t.wing w = { y with out := [] } ∧
      (v.isActive = true → ∀ a : Wing, a = v.settleLate.takeoverStep.collectTick →
        c.1 = if a.ranks then a.rankingFor (a.now + 1) a.nextMap else Ranking.empty))

/-- R20, R133: the visit of a tick's collection to one porch: at most one CLAIM or RETURN, and one COMPLETE, each the oldest
that may go, while the budgets last. A collected entry becomes a record of the ordered group, takes one slot of its budget, and
moves its vector; the next tick's pass starts behind the last porch that gave one. With no budget left an entry waits, and
counts to the demand; one that no record may carry, or that comes behind a replay, waits. Where only one porch has entries, the
pass is the visit to it. R48, R49, R50, R175: admission of what is staged, as a tick of the active wing opens. A staged arrival
of a running slice, whose vector is in the pantry and which passes its checks, goes with one slot of the arrival budget and one
credit of its slice: its ARRIVE record joins the ordered group, and its vector counts it. With no budget or no credit it stays
where it is. With no room in its event ring it stays, its slice's credit is spent for the tick, and HELD is set. -/
def Obligations.CollectionAndAdmission : Prop :=
  ((∀ (v : Wing) (p : Nat), p < 256 → (∀ q, q ≠ p → SMap.get v.pch.entries [] q = []) →
    v.collection = Pass.visit { wing := v, claims := 0, completes := 0 } p) ∧
  ∀ (a b : Pass) (p : Nat) (es : List Entry), p < 256 → es = SMap.get a.wing.pch.entries [] p → b = a.visit p →
    ((SMap.find? a.wing.pch.replay p).isSome = true ∨ es = [] → b.wing = a.wing ∧ b.claims = a.claims ∧ b.completes = a.completes) ∧
    (∀ e : Entry, SMap.find? a.wing.pch.replay p = none → es.find? (fun e => e.kind != .complete) = some e →
      firstComplete [] es = none → firstComplete [] (es.erase e) = none →
      (a.wing.collectable e = false → b.wing = a.wing ∧ b.claims = a.claims ∧ b.completes = a.completes) ∧
      (a.wing.collectable e = true → a.wing.vst.clmLeft = 0 →
        b.wing = a.wing ∧ b.claims = a.claims + 1 ∧ b.completes = a.completes) ∧
      (a.wing.collectable e = true → 0 < a.wing.vst.clmLeft →
        b.claims = a.claims ∧ b.completes = a.completes ∧
        b.wing.psg.ord = a.wing.psg.ord ++
          [.claim { ret := e.kind == .ret, replay := false, synth := false, porch := BitVec.ofNat 8 p, entry := e }] ∧
        SMap.get b.wing.pch.entries [] p = es.erase e ∧ b.wing.pch.rr = (p + 1) % 256 ∧
        SMap.get b.wing.pch.jseqCommit 0xFFFF p = e.jseq ∧
        b.wing.vst.clmLeft = a.wing.vst.clmLeft - 1 ∧ b.wing.vst.cmpLeft = a.wing.vst.cmpLeft ∧
        (∀ n sl, a.wing.slotFor e.key = some (n, sl) → sl.ctx.state = .presented → sl.ctx.lastCore = BitVec.ofNat 8 p →
          ∃ c, b.wing.pan.slots = SMap.insert a.wing.pan.slots n { sl with ctx := c } ∧ c.key = sl.ctx.key ∧
            c.state = if e.kind = .ret then .pending else if sl.ctx.count = 0 then .active else .activePending))) ∧
    (∀ (e : Entry) (rest : List Entry), SMap.find? a.wing.pch.replay p = none → es = e :: rest →
      (∀ x ∈ es, x.kind = .complete) →
      (a.wing.collectable e = true → a.wing.vst.cmpLeft = 0 →
        b.wing = a.wing ∧ b.claims = a.claims ∧ b.completes = a.completes + 1) ∧
      (a.wing.collectable e = true → 0 < a.wing.vst.cmpLeft →
        b.claims = a.claims ∧ b.completes = a.completes ∧
        b.wing.psg.ord = a.wing.psg.ord ++
          [.complete { ret := false, replay := false, synth := false, porch := BitVec.ofNat 8 p, entry := e }] ∧
        SMap.get b.wing.pch.entries [] p = rest ∧ b.wing.pch.rr = (p + 1) % 256 ∧
        b.wing.vst.cmpLeft = a.wing.vst.cmpLeft - 1 ∧ b.wing.vst.clmLeft = a.wing.vst.clmLeft ∧
        (∀ n sl, a.wing.slotFor e.key = some (n, sl) → sl.ctx.state = .active ∨ sl.ctx.state = .activePending →
          sl.ctx.lastCore = BitVec.ofNat 8 p →
          ∃ c, b.wing.pan.slots = SMap.insert a.wing.pan.slots n { sl with ctx := c } ∧ c.key = sl.ctx.key ∧
            c.state = .completed)))) ∧
  (∀ (v u : Wing) (o : Obs) (n : Nat) (sl : Slot), v.vst.staged = [o] → v.vst.escDue = [] → u = v.admitStaged → o.cls ≠ 3 →
    o.outcome = false → o.escCause = 0 → o.isOf v.vst.poison = false → o.isOf v.vst.spillLost = false →
    o.isOf v.vst.doomed = false → v.admissionCheck o true = none → v.admitting o = true →
    (keySlice o.key) ∉ v.vst.underCmd → v.isQuarantined o.key = false → v.slotFor o.key = some (n, sl) → sl.ctx.poisoned = false →
    (v.canCarry o 1 = true → v.ringRoom (keySlice o.key) (owesOf o sl.ctx) = true →
      u.vst.staged = [] ∧ u.vst.arrLeft = v.vst.arrLeft - 1 ∧
        SMap.get u.vst.cred 0 (keySlice o.key).toNat = SMap.get v.vst.cred 0 (keySlice o.key).toNat + 1 ∧
        u.psg.ord = v.psg.ord ++ [.arrive (o.arriveRec o.key false false false false 0)] ∧
        u.vst.sentArr = v.vst.sentArr ++ [(v.now, o)] ∧ u.ctr cAdmitted = v.ctr cAdmitted + 1 ∧
        (keySlice o.key ≠ 0 → u.vst.rr = keySlice o.key) ∧
        ∃ c, u.pan.slots = SMap.insert v.pan.slots n { sl with ctx := c } ∧ c.key = sl.ctx.key ∧
          c.state = (match sl.ctx.state with
            | .idle => .pending
            | .active => .activePending
            | x => x) ∧
          c.count = (if sl.ctx.state = .idle ∨ sl.ctx.state = .active then 1
            else if sl.ctx.count = 0xFFFF then 0xFFFF else sl.ctx.count + 1)) ∧
    (v.vst.arrLeft = 0 ∨ v.credLeft (keySlice o.key) = 0 → u = v) ∧
    (v.canCarry o 1 = true → v.ringRoom (keySlice o.key) (owesOf o sl.ctx) = false →
      u.vst.staged = [o] ∧ u.pan = v.pan ∧ u.psg = v.psg ∧ (u.slice (keySlice o.key)).heldFlag = true ∧
        u.credLeft (keySlice o.key) = 0))

/-- R89, R93, R96 to R101: what a ranking offers. At most the cap, in rising order of key, each vector at most once; every offer
is of a vector that was PENDING and not poisoned in the ranked state, under that vector's ranking key, to a core of its set that
is enabled and on and meets the conditions of R93. A single candidate with a core that may take it is offered, to the core that
comes first in the order of R101. R14, R119, R120, R231: a release. Every porch that is up gets its header, with the claim,
COMMIT, the running priority and what its offers number, and then its offers, best first; the offers are kept until they are
answered, each holds a record slot, and they are counted; frames that are provisional have seen one release more. -/
def Obligations.RankingAndRelease : Prop :=
  (∀ (v : View) (cap : Nat) (accOpen : List (Word × Byte)) (r : Ranking),
    r = v.rank v.img.slots [] (fun _ => true) accOpen cap → (v.img.slots.map Prod.fst).Nodup →
    (v.img.slots.map fun e => e.2.ctx.key).Nodup →
    r.offers.length ≤ cap ∧ r.offers.Pairwise (fun a b => a.rank.toNat ≤ b.rank.toNat) ∧ (r.offers.map Offer.key).Nodup ∧
    (∀ o ∈ r.offers, ∃ e ∈ v.img.slots, e.2.ctx.key = o.key ∧ e.2.ctx.state = .pending ∧ e.2.ctx.poisoned = false ∧
      o.rank = rankKey (v.isAlarm o.key) (cfgPriority e.2.ctx.cfg) e.2.ctx.arrTick o.key ∧
      o.porch ∈ v.setCores (cfgCoreset e.2.ctx.cfg) ∧ (∀ a ∈ accOpen, a.1 ≠ o.key) ∧
      v.coreEn o.porch = true ∧ (v.core o.porch).on = true ∧ (v.core o.porch).fault = false ∧
      v.seesSlice (v.isAlarm o.key) o.key o.porch = true ∧
      v.preempts (v.isAlarm o.key) (cfgPriority e.2.ctx.cfg).toNat
        (SMap.get (coreUses v.img.slots) CoreUse.none_ o.porch).rp = true) ∧
    (∀ (n : Nat) (sl : Slot) (x : Cand), v.img.slots = [(n, sl)] → v.scan (coreUses v.img.slots) n sl = some x → x.elig ≠ [] →
      accOpen = [] → 0 < cap →
      ∃ c ∈ x.elig, r.offers = [{ porch := c, rank := x.rank, key := x.key }] ∧ ∀ d ∈ x.elig, v.order x 0 c ≤ v.order x 0 d)) ∧
  (∀ (v u : Wing) (img : RankImg) (r : Ranking), u = v.release img r →
    (∀ p ∈ v.upPorches, ∃ pre post : List Out, u.out = pre ++
      .w2p v.id p 1 (releaseHdr v.ctl.claim (v.commitFor p.toNat)
        (BitVec.ofNat 9 (SMap.get (coreUses img.slots) CoreUse.none_ p.toNat).rp)
        (((v.view img).eff oHallCtrl).extractLsb' 0 3) ((v.view img).coreEn p.toNat)
        (BitVec.ofNat 3 (r.offers.filter fun o => o.porch == p.toNat).length) v.now) ::
      ((r.offers.filter fun o => o.porch == p.toNat).map fun o => .w2p v.id p 2 (o.rank.setWidth 128)) ++ post) ∧
    (∀ p ∈ v.upPorches, SMap.find? u.hall.offered p.toNat =
      some ((r.offers.filter fun o => o.porch == p.toNat).map fun o => o.rank)) ∧
    u.psg.accOwed = (u.hall.offered.map fun e => e.2.length).sum ∧
    u.ctr cOffers = v.ctr cOffers + BitVec.ofNat 64 u.psg.accOwed ∧
    u.ctl.prov = v.ctl.prov.map (fun p => { p with releases := p.releases + 1 }) ∧ u.pan = v.pan ∧ u.vst = v.vst ∧
    (v.upPorches = [] → u.out = v.out))

/-- R22, R229, R231, R234, R247: the frame of the active wing. Its groups are the acceptances and the ordered records of the
tick, then deferred records from the front of those that wait, 64 at most, then RESYNC records from the front of theirs, and all
of them find slots; what does not fit stays for the next frame. It carries the tick and the wing's claim, and in the wing's last
tick before a handover, in which it shows itself standby, no RESYNC records and of the deferred ones only DONE. Closing it hands
its seven blocks to every lane of the map and empties the groups. R37, R219, R249: a boundary of a wing that is not active, a
standby among them. Its frame goes out on every lane that carries or stands by, with TICK_CLOSE and its requests of fills, and
nothing of the other groups. The new tick of a standby keeps the wired levels as they stand for the frame that it will apply; it
wakes no core and requests no drain, and where no alarm is due and nothing is spilled it changes nothing else. -/
def Obligations.FramesOfATick : Prop :=
  ((∀ (v : Wing) (digest : Word) (f : Frame), f = v.frame digest → v.psg.acc.length + v.psg.ord.length ≤ v.frameSlots →
    f.tick = v.now ∧ f.map = v.psg.map ∧ f.acc = v.psg.acc ∧ f.ord = v.psg.ord ∧ f.close.claim = v.ctl.claim ∧
    f.close.digest = digest ∧ f.acc.length + f.ord.length + f.defr.length + f.rsy.length ≤ v.frameSlots ∧ f.defr.length ≤ 64 ∧
    (v.lastTick = false → f.defr = (v.psg.defr.take f.defr.length).map v.formed ∧
      f.rsy = (v.psg.rsy ++ v.psg.copies).take f.rsy.length ∧ f.close.role = v.ctl.role.closeCode) ∧
    (v.lastTick = true → f.rsy = [] ∧ (∀ r ∈ f.defr, isDone r = true) ∧ f.close.role = Role.standby.closeCode)) ∧
  ∀ (v u : Wing) (f : Frame), u = v.closeFrame f →
    u.psg.acc = [] ∧ u.psg.ord = [] ∧ u.psg.copies = [] ∧ u.psg.accOwed = 0 ∧
    u.psg.defr = (if v.lastTick then [] else v.psg.defr.drop f.defr.length) ∧
    u.psg.rsy = (if v.lastTick then [] else v.psg.rsy.drop f.rsy.length) ∧
    (v.ctl.duplex = true → u.psg.sent.getLast? = some f) ∧ u.pan = v.pan ∧ u.vst = v.vst ∧
    (lanesIn v.psg.map ≠ 0 → .frame v.id (v.shownFrame f) ∈ u.out ∧
      ∀ b < 7, ∀ l ∈ lanesOf (v.shownFrame f).map, (v.shownFrame f).replayedAt (lanePos (v.shownFrame f).map l) b = false →
        .blockOut v.id (BitVec.ofNat 2 l) (v.frameBlock (v.shownFrame f) l b false) ∈ u.out) ∧
    (lanesIn v.psg.map = 0 → u.out = v.out)) ∧
  ((∀ v u : Wing, u = v.closeOther →
    u.psg.acc = [] ∧ u.psg.ord = [] ∧ u.psg.defr = [] ∧ u.psg.rsy = v.psg.rsy.drop 97 ∧ u.pan = v.pan ∧ u.vst = v.vst ∧ u.ctl = v.ctl ∧
    (lanesIn v.usedLanes ≠ 0 → ∃ f : Frame, .frame v.id f ∈ u.out ∧ f.tick = v.now ∧ f.map = v.usedLanes ∧ f.acc = [] ∧ f.ord = [] ∧
      f.defr = [] ∧ f.rsy = v.psg.rsy.take 97 ∧ f.close.role = v.ctl.role.closeCode ∧ f.close.claim = v.ctl.claim ∧
      ∀ b < 7, ∀ l ∈ lanesOf f.map, .blockOut v.id (BitVec.ofNat 2 l) (v.frameBlock f l b false) ∈ u.out) ∧
    (lanesIn v.usedLanes = 0 → u.out = v.out)) ∧
  ∀ v u : Wing, v.ctl.role = .standby → v.vst.spill = [] → v.dueAlarms = [] → u = v.openOther →
    u.vst.samples = v.vst.samples ++ [(v.now, v.vst.levels)] ∧ u.vst.staged = v.vst.staged ∧ u.drn = [] ∧ u.hall.wakeVotes = 0 ∧
    u.hall.confirmVote = false ∧ u.pan = v.pan ∧ u.psg = v.psg ∧ u.ctl = v.ctl ∧ u.out = v.out)

/-! ## Porches -/

/-- R124, R125: the porch running priority is the lower of RP_HDR and of the priorities of the journal's CLAIM entries; an offer
is presentable when its slice is SLICE_CUR or 0 or it is an alarm, and it is an alarm or its priority, by GROUP_SHIFT, lies
under the porch running priority; the porch presents its best-ranked presentable offer, and no claim takes an offer that is not
presentable out of its slot. -/
def Obligations.PresentableOffers : Prop :=
  ∀ q : Porch,
    (q.prp ≤ q.rpHdr.toNat ∧ (∀ e ∈ q.journal, e.kind = .claim → q.prp ≤ e.prio.toNat) ∧
      (q.prp = q.rpHdr.toNat ∨ ∃ e ∈ q.journal, e.kind = .claim ∧ q.prp = e.prio.toNat)) ∧
    (∀ k, q.presentable k = true ↔
      (keySlice (rkKey k) = q.cur ∨ keySlice (rkKey k) = 0 ∨ rkAlarm k = true) ∧
        (rkAlarm k = true ∨ (rkPrio k).toNat >>> q.shift.toNat < q.prp >>> q.shift.toNat)) ∧
    (q.live = true → ∀ k, q.best = some k ↔
      k ∈ q.held ∧ q.presentable k = true ∧ ∀ h ∈ q.held, q.presentable h = true → k.toNat ≤ h.toNat) ∧
    ∀ (s : State) (p : Byte) (arg : Word) (v : Vote) (i : Instr), s.porch p = q → q.waiting = [] → v ≠ .split →
      i ∈ [Instr.claim p 1 arg v, .vrRd p v] →
      ∃ t, exec i s = .next t ∧ s.onlyPorch t p ∧ ∀ k ∈ q.held, q.presentable k = false → k ∈ (t.porch p).held

/-- R130, CLAIM with OK: the least presentable offer that is an alarm or under LIMIT leaves its slot, a CLAIM entry with the
current JSEQ is journalled, and the port answers OK with the alarm bit, the priority and the vector. With none under LIMIT it
answers NONE, with a full journal BUSY, and changes nothing; a reserved operation or reserved bit is answered ERROR. R130, VR_RD
is CLAIM with a LIMIT of 256: with a presentable offer and a free journal entry it claims the least one and answers VECTOR, or
ALARM for an alarm; with none it answers NONE and changes nothing; with a full journal it answers BUSY. -/
def Obligations.ClaimsTakeTheBestOffer : Prop :=
  ((∀ (s : State) (p : Byte) (arg : Word) (v : Vote) (k : BitVec 97),
    (s.porch p).live = true → (s.porch p).waiting = [] → v ≠ .split → arg.extractLsb' 9 23 = 0#23 →
    k ∈ (s.porch p).held → (s.porch p).presentable k = true →
    (∀ h ∈ (s.porch p).held, (s.porch p).presentable h = true → k.toNat ≤ h.toNat) →
    (rkAlarm k = true ∨ (rkPrio k).toNat < (arg.extractLsb' 0 9).toNat) → (s.porch p).journal.length < 8 →
    ∃ (t : State) (x : PSlot), exec (.claim p 1 arg v) s = .next t ∧ s.onlyPorch t p ∧
      some x ∈ (s.porch p).slots ∧ x.key = k ∧
      t.porch p = { s.porch p with
        slots := dropOffer k (s.porch p).slots
        journal := (s.porch p).journal ++ [{ kind := .claim, accTick := x.rtick.extractLsb' 0 6, prio := rkPrio k
                                             jseq := (s.porch p).jseq, key := rkKey k }]
        jseq := (s.porch p).jseq + 1
        journalled := true } ∧
      Out.cpRsp p 0b00 (bit (rkAlarm k) ++ rkPrio k ++ rkKey k) ∈ t.out) ∧
  ∀ (s : State) (p : Byte) (op : BitVec 2) (arg : Word) (v : Vote),
    (s.porch p).live = true → (s.porch p).waiting = [] → v ≠ .split →
    (arg.extractLsb' 9 23 = 0#23 →
      ((∀ k, (s.porch p).best = some k → rkAlarm k = false ∧ (arg.extractLsb' 0 9).toNat ≤ (rkPrio k).toNat) →
        ∃ t, exec (.claim p 1 arg v) s = .next t ∧ s.onlyPorch t p ∧ t.porch p = s.porch p ∧ Out.cpRsp p 0b01 0 ∈ t.out) ∧
      ∀ k, (s.porch p).best = some k → (rkAlarm k = true ∨ (rkPrio k).toNat < (arg.extractLsb' 0 9).toNat) →
        (s.porch p).journal.length = 8 →
        ∃ t, exec (.claim p 1 arg v) s = .next t ∧ s.onlyPorch t p ∧ t.porch p = s.porch p ∧ Out.cpRsp p 0b10 0 ∈ t.out ∧
          ∀ w, Out.p2wEvent p w .claimBusy ∈ t.out) ∧
    (op = 0 ∨ op = 1 ∧ arg.extractLsb' 9 23 ≠ 0#23 →
      ∃ t, exec (.claim p op arg v) s = .next t ∧ s.onlyPorch t p ∧ t.porch p = s.porch p ∧ Out.cpRsp p 0b11 0 ∈ t.out ∧
        ∀ w, Out.p2wEvent p w .portErr ∈ t.out)) ∧
  (∀ (s : State) (p : Byte), (s.porch p).live = true →
    (∀ k x, (s.porch p).best = some k → (s.porch p).journal.length < 8 →
      (s.porch p).slots.find? (fun o => o.any fun x => x.key == k) = some (some x) →
      ∃ t, exec (.vrRd p .agree) s = .next t ∧ s.onlyPorch t p ∧
        t.porch p = { s.porch p with
          slots := dropOffer k (s.porch p).slots
          journal := (s.porch p).journal ++ [{ kind := .claim, accTick := x.rtick.extractLsb' 0 6, prio := rkPrio k
                                               jseq := (s.porch p).jseq, key := rkKey k }]
          jseq := (s.porch p).jseq + 1
          journalled := true } ∧
        Out.vrRsp p (if rkAlarm k then 0b010 else 0b001) (rkKey k) ∈ t.out) ∧
    ((s.porch p).best = none →
      ∃ t, exec (.vrRd p .agree) s = .next t ∧ s.onlyPorch t p ∧ t.porch p = s.porch p ∧ t.out = [.vrRsp p 0 0]) ∧
    (∀ k, (s.porch p).best = some k → (s.porch p).journal.length = 8 →
      ∃ t, exec (.vrRd p .agree) s = .next t ∧ s.onlyPorch t p ∧ t.porch p = s.porch p ∧
        t.out = [.vrRsp p 0b011 0, .p2wEvent p .east .claimBusy, .p2wEvent p .west .claimBusy]))

/-- R130, COMPLETE and EOI: with a free journal entry a COMPLETE entry for the vector is journalled, whose ACC_TICK and PRIORITY
are 0 (R116); COMPLETE answers OK. With all eight in use the operation waits, untaken. EOI at a reserved address changes nothing
and sends PORT_ERR. R130, RAISE and EOI at 0b01: with a free entry of the raise queue the raise is queued with the SLICE_CUR
registered with it; with all four in use it waits, untaken. On a claim port, data with an upper bit set is answered ERROR and
raises nothing. R130, R131, R140, R143, any operation of a port (CLAIM, COMPLETE, EOI, RAISE): lost while the domain is off;
held in order, untaken, while READY is 0 for it or another waits; a split vote on what it reads puts the porch in FAULT. -/
def Obligations.CompletionsAndRaisesAreQueued : Prop :=
  (∀ (s : State) (p : Byte) (key : Word) (v : Vote), (s.porch p).live = true → (s.porch p).waiting = [] →
    v ≠ .split →
    ((s.porch p).journal.length < 8 →
      (∃ t, exec (.complete p key v) s = .next t ∧ s.onlyPorch t p ∧ Out.cpRsp p 0b00 0 ∈ t.out ∧
        t.porch p = { s.porch p with
          journal := (s.porch p).journal ++
            [{ kind := .complete, accTick := 0, prio := 0, jseq := (s.porch p).jseq, key := key }]
          jseq := (s.porch p).jseq + 1
          journalled := true }) ∧
      (∃ t, exec (.eoi p 0b00 key v) s = .next t ∧ s.onlyPorch t p ∧
        t.porch p = { s.porch p with
          journal := (s.porch p).journal ++
            [{ kind := .complete, accTick := 0, prio := 0, jseq := (s.porch p).jseq, key := key }]
          jseq := (s.porch p).jseq + 1
          journalled := true })) ∧
    ((s.porch p).journal.length = 8 →
      (∃ (t : State) (err : Bool), exec (.complete p key v) s = .next t ∧ s.onlyPorch t p ∧ t.out = [] ∧
        t.porch p = { s.porch p with waiting := [(.cp 0b10 key, v, err)] }) ∧
      ∃ (t : State) (err : Bool), exec (.eoi p 0b00 key v) s = .next t ∧ s.onlyPorch t p ∧ t.out = [] ∧
        t.porch p = { s.porch p with waiting := [(.vr 0b00 key, v, err)] }) ∧
    ∀ wa : BitVec 2, 2 ≤ wa.toNat →
      ∃ t, exec (.eoi p wa key v) s = .next t ∧ s.onlyPorch t p ∧ t.porch p = s.porch p ∧
        ∀ w, Out.p2wEvent p w .portErr ∈ t.out) ∧
  (∀ (s : State) (p : Byte) (arg : Word) (v : Vote), (s.porch p).live = true → (s.porch p).waiting = [] → v ≠ .split →
    (portGenOf s.portGen p.toNat = 0b01 ∨ arg.extractLsb' 4 28 = 0#28 →
      ((s.porch p).raiseq.length < 4 →
        ∃ t, exec (.raise p arg v) s = .next t ∧ s.onlyPorch t p ∧
          t.porch p = { s.porch p with raiseq := (s.porch p).raiseq ++ [(arg.extractLsb' 0 4, (s.porch p).cur)] }) ∧
      ((s.porch p).raiseq.length = 4 →
        ∃ (t : State) (o : WaitOp) (err : Bool), exec (.raise p arg v) s = .next t ∧ s.onlyPorch t p ∧ t.out = [] ∧
          t.porch p = { s.porch p with waiting := [(o, v, err)] })) ∧
    ((s.porch p).raiseq.length < 4 →
      ∃ t, exec (.eoi p 0b01 arg v) s = .next t ∧ s.onlyPorch t p ∧
        t.porch p = { s.porch p with raiseq := (s.porch p).raiseq ++ [(arg.extractLsb' 0 4, (s.porch p).cur)] }) ∧
    (portGenOf s.portGen p.toNat ≠ 0b01 → arg.extractLsb' 4 28 ≠ 0#28 →
      ∃ t, exec (.raise p arg v) s = .next t ∧ s.onlyPorch t p ∧ t.porch p = s.porch p ∧ Out.cpRsp p 0b11 0 ∈ t.out ∧
        ∀ w, Out.p2wEvent p w .portErr ∈ t.out)) ∧
  (∀ (s : State) (p : Byte) (op wa : BitVec 2) (arg : Word) (v : Vote) (i : Instr) (o : WaitOp),
    (i, o) ∈ [(Instr.claim p op arg v, WaitOp.cp op arg), (.complete p arg v, .cp 0b10 arg), (.eoi p wa arg v, .vr wa arg),
      (.raise p arg v, if portGenOf s.portGen p.toNat = 0b01 then .vr 0b01 arg else .cp 0b11 arg)] →
    ((s.porch p).on = false →
      ∃ t, exec i s = .next t ∧ s.onlyPorch t p ∧ t.porch p = s.porch p ∧ t.out = []) ∧
    ((s.porch p).on = true → (s.porch p).waiting ≠ [] ∨ (s.porch p).takes o = false →
      ∃ (t : State) (err : Bool), exec i s = .next t ∧ s.onlyPorch t p ∧ t.out = [] ∧
        t.porch p = { s.porch p with waiting := (s.porch p).waiting ++ [(o, v, err)] }) ∧
    ((s.porch p).waiting = [] → (s.porch p).takes o = true → v = .split →
      ∃ t, exec i s = .next t ∧ s.onlyPorch t p ∧ t.porch p = { s.porch p with fault := true }))

/-- R136, R137, CLAIM_RAISE: the claim record of the sender takes a greater claim number, or any if it is invalid; a sender
whose claim is not the porch's highest is answered REFUSE with that higher number and changes nothing else. A porch that is off
or in FAULT takes no beat (R140, R143), and a beat whose reads split puts it in FAULT. R138: a porch whose accepted wing changes
sends the new wing every entry that it holds, its slot report, the four slot keys and REPLAY_END, in that order, and no entry is
dropped. -/
def Obligations.ClaimRaiseSetsTheRecord : Prop :=
  (∀ (s : State) (p : Byte) (w : WingId) (c : Word), ((s.porch p).on = false ∨ (s.porch p).fault = true → ∀ v,
      ∃ t, exec (.claimRaise p w c v) s = .next t ∧ s.onlyPorch t p ∧ t.porch p = s.porch p ∧ t.out = []) ∧
    ((s.porch p).hears = true →
      ∃ t, exec (.claimRaise p w c .split) s = .next t ∧ s.onlyPorch t p ∧ t.porch p = { s.porch p with fault := true } ∧
        t.out = []) ∧
    ((s.porch p).hears = true →
    ((s.porch p).claimOf w).all (fun d => decide (d.toNat < c.toNat)) = true →
    ((∀ d, (s.porch p).claimOf (otherWing w) = some d → d.toNat < c.toNat) →
      ∃ t, exec (.claimRaise p w c .agree) s = .next t ∧ s.onlyPorch t p ∧
        (t.porch p).claimOf w = some c ∧ (t.porch p).accepted = some w ∧
        { t.porch p with claimE := none, claimW := none } = { s.porch p with claimE := none, claimW := none } ∧
        ((s.porch p).accepted ≠ some w → Out.p2w p w 0x7 0 ∈ t.out)) ∧
    (∀ d, (s.porch p).claimOf (otherWing w) = some d → c.toNat < d.toNat →
      ∃ t, exec (.claimRaise p w c .agree) s = .next t ∧ s.onlyPorch t p ∧
        (t.porch p).claimOf w = some c ∧ (t.porch p).accepted = some (otherWing w) ∧
        { t.porch p with claimE := none, claimW := none } = { s.porch p with claimE := none, claimW := none } ∧
        t.out = [.p2wRefuse p w d]))) ∧
  (∀ (s : State) (p : Byte) (w : WingId) (c : Word), (s.porch p).hears = true →
    (s.porch p).accepted ≠ some w → (∀ d, (s.porch p).claimOf w = some d → d.toNat < c.toNat) →
    (∀ d, (s.porch p).claimOf (otherWing w) = some d → d.toNat < c.toNat) →
    ∃ (t : State) (es : List Entry), exec (.claimRaise p w c .agree) s = .next t ∧
      es.Perm ((s.porch p).journal ++ (s.porch p).rets) ∧
      es.Pairwise (fun a b => ((s.porch p).jseq - b.jseq).toNat ≤ ((s.porch p).jseq - a.jseq).toNat) ∧
      t.out = es.map (fun e => Out.p2w p w 0x3 e.encode) ++ [.p2w p w 0x6 (s.porch p).slotReport] ++
        ((s.porch p).slotKeys.map fun k => Out.p2w p w 0x9 (k.setWidth 64)) ++ [.p2w p w 0x7 0])

/-- R142, INIT of the accepted wing: the porch takes PCH_CFG, RP_HDR, GROUP_SHIFT and the core enable, is up, and takes JSEQ
only while it has journalled nothing since its power-up. A porch that is off or in FAULT takes no INIT, and one whose reads
split goes into FAULT. R122 steps 1 to 3 and 6, RELEASE from the accepted wing, with any offers: entries at or below COMMIT are
dropped from the journal, RP, GROUP_SHIFT and CORE_EN are taken, and ACCEPT_RSP reports the slots after the release. A porch
that is off or in FAULT takes no release, and one whose reads split goes into FAULT. R122 steps 2 to 4, CORE_EN of 0: every held
offer is returned and no slot holds anything after the release. -/
def Obligations.PorchesTakeInitAndRelease : Prop :=
  (∀ (s : State) (p : Byte) (w : WingId) (claim cfg : Word) (jseq : BitVec 16) (rp : BitVec 9) (sh : BitVec 3) (en : Bool),
    ((s.porch p).on = false ∨ (s.porch p).fault = true → ∀ (b : BitVec 128) (v : Vote),
      ∃ t, exec (.init p w b v) s = .next t ∧ s.onlyPorch t p ∧ t.porch p = s.porch p ∧ t.out = []) ∧
    ((s.porch p).hears = true → ∀ b : BitVec 128,
      ∃ t, exec (.init p w b .split) s = .next t ∧ s.onlyPorch t p ∧ t.porch p = { s.porch p with fault := true } ∧
        t.out = []) ∧
    ((s.porch p).hears = true → (s.porch p).waiting = [] →
    (∀ d, (s.porch p).claimOf w = some d → d.toNat ≤ claim.toNat) →
    (∀ d, (s.porch p).claimOf (otherWing w) = some d → d.toNat < claim.toNat) →
    ∃ t, exec (.init p w (initBeat claim cfg jseq rp sh en) .agree) s = .next t ∧ s.onlyPorch t p ∧
      (t.porch p).claimOf w = some claim ∧ (t.porch p).up = true ∧
      { t.porch p with claimE := none, claimW := none } =
        { s.porch p with claimE := none, claimW := none, cfg := cfg, rpHdr := rp, shift := sh, coreEn := en, up := true
                         jseq := if (s.porch p).journalled then (s.porch p).jseq else jseq })) ∧
  (∀ (s : State) (p : Byte) (w : WingId) (claim : Word) (commit : BitVec 16) (rp : BitVec 9) (sh : BitVec 3) (en : Bool)
    (n : BitVec 3) (tick : Tick) (os : List (BitVec 97)) (taken : Option (BitVec 2)),
    ((s.porch p).on = false ∨ (s.porch p).fault = true → ∀ (h : BitVec 128) (v : HeaderRead),
      ∃ t, exec (.releaseHeader p w h os v) s = .next t ∧ s.onlyPorch t p ∧ t.porch p = s.porch p ∧ t.out = []) ∧
    ((s.porch p).hears = true → ∀ h : BitVec 128,
      ∃ t, exec (.releaseHeader p w h os ⟨.split, taken⟩) s = .next t ∧ s.onlyPorch t p ∧
        t.porch p = { s.porch p with fault := true } ∧ t.out = []) ∧
    ((s.porch p).hears = true → (s.porch p).up = true →
    (s.porch p).waiting = [] → (s.porch p).claimOf w = some claim → (s.porch p).accepted = some w →
    ∃ (t : State) (bits : BitVec 4),
      exec (.releaseHeader p w (releaseHdr claim commit rp sh en n tick) os ⟨.agree, taken⟩) s = .next t ∧
      s.onlyPorch t p ∧ (t.porch p).journal = (s.porch p).journal.filter (fun e => !jseqLe e.jseq commit) ∧
      (t.porch p).rpHdr = rp ∧ (t.porch p).shift = sh ∧ (t.porch p).coreEn = en ∧
      (∀ e ∈ (s.porch p).rets, jseqLe e.jseq commit = false → e ∈ (t.porch p).rets) ∧
      Out.p2wAccept p w bits ((t.porch p).held.map rkKey) ∈ t.out)) ∧
  (∀ (s : State) (p : Byte) (w : WingId) (claim : Word) (commit : BitVec 16) (rp : BitVec 9) (sh : BitVec 3) (tick : Tick),
    s.porchesSound → (s.porch p).hears = true → (s.porch p).up = true → (s.porch p).waiting = [] →
    (s.porch p).claimOf w = some claim → (s.porch p).accepted = some w →
    ∃ t, exec (.releaseHeader p w (releaseHdr claim commit rp sh false 0 tick) [] ⟨.agree, none⟩) s = .next t ∧ s.onlyPorch t p ∧
      (t.porch p).held = [] ∧
      (t.porch p).rets.map Entry.key = (((s.porch p).rets.filter fun e => !jseqLe e.jseq commit).map Entry.key) ++
        (s.porch p).held.map rkKey ∧
      (t.porch p).jseq = (s.porch p).jseq + BitVec.ofNat 16 (s.porch p).held.length ∧
      Out.p2wAccept p w 0 [] ∈ t.out)

/-- R122 step 5, the four outcomes of an offer: a duplicate is refused and reported; a free slot takes it; with no free slot an
alarm displaces the lowest-ranked offer that is no alarm, which is returned; any other offer is refused. A slot that a claim of
the same cycle has emptied is not free (R135). R124, R127: the porch registers SLICE_CUR and the sleep class, where 3 counts as
2. R126: at a tick boundary an offer that SLICE_CUR hides is returned when it has been hidden for RET_DELAY boundaries, and a
STATUS beat goes to both wings. A porch that is off sends nothing, and one in FAULT sends STATUS with FAULT and nothing else
(R140, R143). The boundary is one command, with the ages and the STATUS beat (log 27, DEDUCED). -/
def Obligations.OffersArePlacedAndReturned : Prop :=
  (∀ (s : State) (p : Byte) (w : WingId) (claim : Word) (commit : BitVec 16) (rp : BitVec 9) (sh : BitVec 3) (tick : Tick)
    (k : BitVec 97) (rets : List Entry) (x : PSlot) (taken : Option (BitVec 2)), s.porchesSound → (s.porch p).hears = true → (s.porch p).up = true →
    (s.porch p).waiting = [] → (s.porch p).claimOf w = some claim → (s.porch p).accepted = some w →
    rets = (s.porch p).rets.filter (fun e => !jseqLe e.jseq commit) →
    x = { key := k, rtick := tick.extractLsb' 0 8, hidden := none } →
    ∃ (t : State) (b : Bool), exec (.releaseHeader p w (releaseHdr claim commit rp sh true 1 tick) [k] ⟨.agree, taken⟩) s = .next t ∧
      s.onlyPorch t p ∧ Out.p2wAccept p w (if b then 1 else 0) ((t.porch p).held.map rkKey) ∈ t.out ∧
      if (∃ h ∈ (s.porch p).held, rkKey h = rkKey k) ∨ ∃ e ∈ rets, e.key = rkKey k then
        b = false ∧ (t.porch p).slots = (s.porch p).slots ∧ (t.porch p).rets = rets ∧ Out.p2wEvent p w .dupOffer ∈ t.out
      else if ∃ i : Fin 4, taken ≠ some (BitVec.ofNat 2 i.val) ∧ (s.porch p).slots[i.val]? = some none then
        b = true ∧ (t.porch p).rets = rets ∧ ∃ i : Fin 4, taken ≠ some (BitVec.ofNat 2 i.val) ∧
          (∀ j : Fin 4, j < i → taken = some (BitVec.ofNat 2 j.val) ∨ (s.porch p).slots[j.val]? ≠ some none) ∧
          (s.porch p).slots[i.val]? = some none ∧ (t.porch p).slots = (s.porch p).slots.set i.val (some x)
      else if rkAlarm k = true ∧ ∃ h ∈ (s.porch p).held, rkAlarm h = false then
        b = true ∧ ∃ y : PSlot, some y ∈ (s.porch p).slots ∧ rkAlarm y.key = false ∧
          (∀ h ∈ (s.porch p).held, rkAlarm h = false → h.toNat ≤ y.key.toNat) ∧
          (t.porch p).slots = (s.porch p).slots.map (fun o => if o = some y then some x else o) ∧
          (t.porch p).rets = rets ++ [{ kind := .ret, accTick := y.rtick.extractLsb' 0 6, prio := rkPrio y.key
                                        jseq := (s.porch p).jseq, key := rkKey y.key }]
      else b = false ∧ (t.porch p).slots = (s.porch p).slots ∧ (t.porch p).rets = rets) ∧
  (∀ (s : State) (p : Byte),
    (∀ (cur : BitVec 12) (sleep : BitVec 2), ∃ t, exec (.sliceCurChange p cur sleep) s = .next t ∧ s.onlyPorch t p ∧
      t.porch p = { s.porch p with cur := cur, sleep := if sleep = 3 then 2 else sleep } ∧ t.out = []) ∧
    ((s.porch p).on = false → ∀ v,
      ∃ t, exec (.sliceCurReturn p v) s = .next t ∧ s.onlyPorch t p ∧ t.porch p = s.porch p ∧ t.out = []) ∧
    ((s.porch p).on = true → (s.porch p).fault = true → ∀ v,
      ∃ t, exec (.sliceCurReturn p v) s = .next t ∧ s.onlyPorch t p ∧ t.porch p = s.porch p ∧
        t.out = [WingId.east, .west].map fun w =>
          Out.p2w p w 0x5 ((statusBits (s.porch p).cur (s.porch p).sleep false true).setWidth 64)) ∧
    (s.porchesSound → (s.porch p).hears = true →
      ∃ (t : State) (age : PSlot → Nat) (due : PSlot → Bool), exec (.sliceCurReturn p .agree) s = .next t ∧ s.onlyPorch t p ∧
        (∀ x, age x = match x.hidden with
          | none => 0
          | some n => n + 1) ∧
        (∀ x, due x = (!(s.porch p).sliceOk x.key && decide ((s.porch p).retDelay ≤ age x))) ∧
        (t.porch p).slots = (s.porch p).slots.map (fun o => o.bind fun x =>
          if due x then none
          else some { x with hidden := if (s.porch p).sliceOk x.key then none else some (age x) }) ∧
        (t.porch p).rets.map Entry.key = (s.porch p).rets.map Entry.key ++
          (((s.porch p).slots.filterMap id).filter due).map (fun x => rkKey x.key) ∧
        (t.porch p).jseq = (s.porch p).jseq + BitVec.ofNat 16 (((s.porch p).slots.filterMap id).filter due).length ∧
        (t.porch p).journal = (s.porch p).journal ∧
        ∀ w, Out.p2w p w 0x5 ((statusBits (s.porch p).cur (s.porch p).sleep (s.porch p).up false).setWidth 64) ∈ t.out))

/-- R142, R141: a domain with a vote powers up with every porch reset, its core inputs standing; with no vote left and every
porch empty it powers down, and no porch of it is on; while a porch holds something the offers are returned and the domain stays
on. Else nothing changes. Other porches stand. The inputs from the cores stand across off and on (log 8), JSEQ is 0 while a
porch is off (log 7), and a porch in FAULT counts as empty (log 30): choices of the model. -/
def Obligations.PorchDomainsPowerUpAndDown : Prop :=
  ∀ (s : State) (k : BitVec 5) (vote : Byte) (votes : List Vote),
    (s.domainHeld k vote = true → s.domainIsOn k = false →
      ∃ t, exec (.porchDomainPowerUp k vote) s = .next t ∧ t.pending = s.pending ∧ t.out = [] ∧
        (∀ p ∈ domainPorches k, t.porch p = { Porch.off with on := true, cur := (s.porch p).cur, sleep := (s.porch p).sleep }) ∧
        (∀ p, p ∉ domainPorches k → t.porch p = s.porch p) ∧
        t.east.pwr.domOn.getLsbD k.toNat = true ∧ t.west.pwr.domOn.getLsbD k.toNat = true) ∧
    (s.domainHeld k vote = false ∨ s.domainIsOn k = true →
      exec (.porchDomainPowerUp k vote) s = .next { s with out := [] }) ∧
    (s.domainHeld k vote = false → s.domainIsOn k = true →
      (∀ p ∈ domainPorches k, (s.porch p).fault = false ∧ (s.porch p).held = [] ∧ (s.porch p).journal = [] ∧
        (s.porch p).rets = []) →
      ∃ t, exec (.porchDomainPowerDown k ⟨vote, votes⟩) s = .next t ∧ t.pending = s.pending ∧
        ((∀ v ∈ votes, v = .agree) → t.out = []) ∧
        (∀ p ∈ domainPorches k, t.porch p = { Porch.off with cur := (s.porch p).cur, sleep := (s.porch p).sleep }) ∧
        (∀ p, p ∉ domainPorches k → t.porch p = s.porch p) ∧
        t.east.pwr.domOn.getLsbD k.toNat = false ∧ t.west.pwr.domOn.getLsbD k.toNat = false) ∧
    (s.domainHeld k vote = false → s.domainIsOn k = true → (∀ v ∈ votes, v ≠ .split) →
      (∃ p ∈ domainPorches k, (s.porch p).empty = false) →
      ∃ t, exec (.porchDomainPowerDown k ⟨vote, votes⟩) s = .next t ∧ t.pending = s.pending ∧ t.east = s.east ∧
        t.west = s.west ∧ (∀ p, p ∉ domainPorches k → t.porch p = s.porch p) ∧
        ∀ p ∈ domainPorches k, (t.porch p).on = true ∧ ((s.porch p).fault = false → (t.porch p).held = [] ∧
          (t.porch p).journal = (s.porch p).journal ∧
          (t.porch p).rets.map Entry.key = (s.porch p).rets.map Entry.key ++ (s.porch p).held.map rkKey)) ∧
    (s.domainHeld k vote = true ∨ s.domainIsOn k = false →
      exec (.porchDomainPowerDown k ⟨vote, votes⟩) s = .next { s with out := [] })

/-! ## What enters a wing from outside -/

/-- R28, R31, R33, R35, R42, R46: a write goes by the range of its page that it starts in. One that fails a registration check
there is discarded, counted and logged with its reason, and takes no sequence. A message or MSI data that passes is registered:
the sequence of its page's origin, and no other, goes up by one. APT_TAKEN takes the write, and APT_CREDIT returns its place
(R399). R55, R300, R404: while older writes wait, a write joins the input buffer behind them and does nothing else; APT_TAKEN
pulses for it while the wing runs and the buffer of 512 has room. In Nap it only waits, and the refused write wakes the wing;
while the aperture is not live it has no effect. -/
def Obligations.ApertureWritesRegister : Prop :=
  (∀ (s : State) (w : WingId) (a : AptWrite) (i : Instr) (check : Option Nat), (s.wing w).running = true →
    (s.wing w).vst.inbuf = [] → (isArrivalWrite a = true → (s.wing w).spillFull a.slice = false) →
    i ∈ [Instr.nativeMessage w a, .msiWrite w a, .commandDoorbell w a, .letterboxDoorbell w a] →
    check = (match AptRange.of a.pageOff with
      | .native => nativeCheck a
      | .msi => msiCheck a
      | .cmd => (s.wing w).doorbellCheck a 0x200
      | .letter => (s.wing w).doorbellCheck a 0x300
      | .none => some rjAddr) →
    (∀ r, check = some r → ∃ t, exec i s = .next t ∧ s.onlyWing t w ∧ t.out = [.aptTaken (s.wing w).id, .aptCredit (s.wing w).id] ∧
      t.wing w = { (s.wing w).count (cReject r) with
        regs := { ((s.wing w).count (cReject r)).regs with
          vstRejectLog := logFirst (s.wing w).regs.vstRejectLog (aptRejectEntry a (BitVec.ofNat 4 r)) }
        out := [] }) ∧
    (check = none → isArrivalWrite a = true →
      ∃ t, exec i s = .next t ∧ s.onlyWing t w ∧ Out.aptTaken (s.wing w).id ∈ t.out ∧
        (t.wing w).seqOf a.slice.toNat = (s.wing w).seqOf a.slice.toNat + 1 ∧
        ∀ j, j ≠ a.slice.toNat → (t.wing w).seqOf j = (s.wing w).seqOf j)) ∧
  (∀ (s : State) (w : WingId) (a : AptWrite) (i : Instr),
    i ∈ [Instr.nativeMessage w a, .msiWrite w a, .commandDoorbell w a, .letterboxDoorbell w a] →
    ((s.wing w).aptLive = false → ∃ t, exec i s = .next t ∧ s.onlyWing t w ∧ t.out = [] ∧
      t.wing w = { s.wing w with out := [] }) ∧
    ((s.wing w).running = true → (s.wing w).vst.inbuf ≠ [] →
      ∃ (t : State) (room : Bool), exec i s = .next t ∧ s.onlyWing t w ∧
        room = decide ((s.wing w).vst.inbuf.length < 512) ∧
        t.wing w = { s.wing w with
          vst := { (s.wing w).vst with inbuf := (s.wing w).vst.inbuf ++ [(a, room)] }, out := [] } ∧
        t.out = if room then [.aptTaken (s.wing w).id] else []) ∧
    ((s.wing w).aptLive = true → (s.wing w).running = false →
      ∃ t, exec i s = .next t ∧ s.onlyWing t w ∧ t.out = [] ∧
        (t.wing w).vst = { (s.wing w).vst with inbuf := (s.wing w).vst.inbuf ++ [(a, false)] } ∧
        ((t.wing w).pwr.sched.isSome = true ∨ (t.wing w).pwr.pendWake.isSome = true) ∧
        ((s.wing w).pwr.sched.isSome = true → (t.wing w).pwr = (s.wing w).pwr)))

/-- R152, R153: the active wing restores POS of a doorbell to the one value at or above CMD_HEAD, or EVT_HEAD, with those low
bits. It applies a CMD_TAIL that lies at most the ring's size above CMD_HEAD and not below the current CMD_TAIL, and an EVT_HEAD
that lies at most at the position past the last record written, and carries it in a RINGPOS record; any other is ignored and
counted in CMD_DB_BAD. -/
def Obligations.CommandDoorbellsMovePositions : Prop :=
  ∀ (s : State) (w : WingId) (a : AptWrite) (d : Word) (v : SliceSt) (n : Nat), (s.wing w).running = true →
    (s.wing w).vst.inbuf = [] → AptRange.of a.pageOff = .cmd → (s.wing w).doorbellCheck a 0x200 = none →
    (s.wing w).admitsNew = true → d = a.field 0 32 → v = (s.wing w).slice a.slice →
    (d.extractLsb' 30 2 = 0#2 → n = ((d.extractLsb' 0 24 : BitVec 24) - v.cmdHead.extractLsb' 0 24).toNat →
      (n ≤ 2 ^ v.cmdLog2.toNat ∧ posDiff v.cmdTail v.cmdHead ≤ n →
        ∃ t, exec (.commandDoorbell w a) s = .next t ∧ s.onlyWing t w ∧
          ((t.wing w).slice a.slice).cmdTail = v.cmdHead + BitVec.ofNat 32 n ∧
          (t.wing w).ctr cCmdDbBad = (s.wing w).ctr cCmdDbBad ∧
          Rec.doorbell { slice := a.slice, kind := 0, pos := v.cmdHead + BitVec.ofNat 32 n } ∈ (t.wing w).psg.defr) ∧
      (¬ (n ≤ 2 ^ v.cmdLog2.toNat ∧ posDiff v.cmdTail v.cmdHead ≤ n) →
        ∃ t, exec (.commandDoorbell w a) s = .next t ∧ s.onlyWing t w ∧
          t.wing w = { (s.wing w).count cCmdDbBad with out := [] })) ∧
    (d.extractLsb' 30 2 = 1#2 → n = ((d.extractLsb' 0 24 : BitVec 24) - v.evtHead.extractLsb' 0 24).toNat →
      (n ≤ posDiff v.wpos v.evtHead →
        ∃ t, exec (.commandDoorbell w a) s = .next t ∧ s.onlyWing t w ∧
          ((t.wing w).slice a.slice).evtHead = v.evtHead + BitVec.ofNat 32 n ∧
          (t.wing w).ctr cCmdDbBad = (s.wing w).ctr cCmdDbBad ∧
          Rec.doorbell { slice := a.slice, kind := 1, pos := v.evtHead + BitVec.ofNat 32 n } ∈ (t.wing w).psg.defr) ∧
      (posDiff v.wpos v.evtHead < n →
        ∃ t, exec (.commandDoorbell w a) s = .next t ∧ s.onlyWing t w ∧
          t.wing w = { (s.wing w).count cCmdDbBad with out := [] }))

/-- R198: a letter takes the next LSEQ of its slice; with a free outbox entry it is kept, or on its way to the manager in a
LETTER record, and with none it is discarded and counted in LBX_DROP. Slice 0 has no letterbox: its write changes nothing (log
22, the model's choice). R30: a read of the aperture is answered and counted, and changes nothing else; none is answered while
the aperture is not live. R328: a rising edge on an alarm line sets its latch with REPEAT 0, or counts in REPEAT up to 15 with
the stamps unchanged, and touches no other latch. R301: it wakes a wing in Nap. R332: in the raw period in which a wake from
Deep was recorded the record names the lowest line that is set. -/
def Obligations.LettersReadsAndAlarmEdges : Prop :=
  (∀ (s : State) (w : WingId) (a : AptWrite), (s.wing w).running = true → (s.wing w).vst.inbuf = [] →
    AptRange.of a.pageOff = .letter → (s.wing w).doorbellCheck a 0x300 = none →
    (a.slice ≠ 0 →
      ∃ (t : State) (q : Word), exec (.letterboxDoorbell w a) s = .next t ∧ s.onlyWing t w ∧
        q = ((s.wing w).slice a.slice).lseq + 1 ∧ ((t.wing w).slice a.slice).lseq = q ∧
        (((s.wing w).slice a.slice).outbox.length < 4 →
          (t.wing w).ctr cLbxDrop = (s.wing w).ctr cLbxDrop ∧
          ((q, (a.field 0 32 : Word)) ∈ ((t.wing w).slice a.slice).outbox ∨
            Rec.letter { fromMgr := false, slice := a.slice, lseq := q, letter := (a.field 0 32 : Word).setWidth 64 } ∈
              (t.wing w).psg.defr)) ∧
        (4 ≤ ((s.wing w).slice a.slice).outbox.length →
          ((t.wing w).slice a.slice).outbox = ((s.wing w).slice a.slice).outbox ∧
            (t.wing w).ctr cLbxDrop = (s.wing w).ctr cLbxDrop + 1)) ∧
    (a.slice = 0 → ∃ t, exec (.letterboxDoorbell w a) s = .next t ∧ s.onlyWing t w ∧ t.wing w = { s.wing w with out := [] })) ∧
  (∀ (s : State) (w : WingId) (line : BitVec 4),
    ((s.wing w).aptLive = true → ∃ t, exec (.apertureRead w) s = .next t ∧ s.onlyWing t w ∧
      t.wing w = { (s.wing w).count cApertureRead with out := [] } ∧ t.out = [.aptRead (s.wing w).id]) ∧
    ((s.wing w).aptLive = false → ∃ t, exec (.apertureRead w) s = .next t ∧ s.onlyWing t w ∧
      t.wing w = { s.wing w with out := [] } ∧ t.out = []) ∧
    ((s.wing w).hrt.powered = true → ∃ (t : State) (l : Latch), exec (.alarmLatch w line) s = .next t ∧ s.onlyWing t w ∧
      l = (s.wing w).hrt.latch line.toNat ∧
      (t.wing w).hrt.latch line.toNat =
        (if l.set then { l with again := if l.again = 15 then 15 else l.again + 1 }
         else { l with set := true, stamped := false, again := 0 }) ∧
      (∀ j, j ≠ line.toNat → (t.wing w).hrt.latch j = (s.wing w).hrt.latch j) ∧
      ((s.wing w).life ≠ .deepWake → (t.wing w).hrt = { (s.wing w).hrt with latches := (t.wing w).hrt.latches }) ∧
      ((s.wing w).life = .deepWake → (s.wing w).ctl.rawWait.isSome = true →
        (s.wing w).hrt.wake.extractLsb' 0 24 = ((s.wing w).hrt.raw.extractLsb' 0 24 : BitVec 24) →
        ∃ i : Nat, i < 16 ∧ ((t.wing w).hrt.latch i).set = true ∧ (∀ j < i, ((t.wing w).hrt.latch j).set = false) ∧
          (t.wing w).hrt.wake = hrtWakeWord 0x5 (BitVec.ofNat 4 i) (s.wing w).hrt.raw) ∧
      ((s.wing w).life = .nap ∨ (s.wing w).life = .napEntry ∨ (s.wing w).life = .deepEntry →
        (t.wing w).pwr.sched.isSome = true ∨ (t.wing w).pwr.pendWake.isSome = true) ∧
      ((s.wing w).life ∉ [Life.nap, .napEntry, .deepEntry, .deepWake] →
        t.wing w = { s.wing w with hrt := { (s.wing w).hrt with latches := (t.wing w).hrt.latches }, out := [] })) ∧
    ((s.wing w).hrt.powered = false → ∃ t, exec (.alarmLatch w line) s = .next t ∧ s.onlyWing t w ∧
      t.wing w = { s.wing w with out := [] }))

/-- R37, R300, R301: an enabled wired source that becomes asserted registers one observation of its origin, and of no other, in
a running wing; in Nap, and on the way to Nap or Deep, it is latched and wakes the wing. A wing in reset follows the levels on
its pins too (log 6, DESIGN CHOICE). A source that does not become asserted, or whose wing is off, only moves its level. R39,
R117, R131, R300: the first RAISE beat on its way to the wing, or with none the oldest raise of the queue, sent on a voted read
to both wings, registers one observation of the porch's origin in a running wing; in Nap, and on the way to Nap or Deep, it is
latched for its porch and index with its SLICE_CUR and wakes the wing. That the first command of either wing takes the raise out
of the queue, and the other wing's beat stays on its way, is log 15 (DEDUCED). A split vote puts the porch in FAULT, and what is
not the next beat changes nothing. -/
def Obligations.SourcesAndRaisesRegister : Prop :=
  (∀ (s : State) (w : WingId) (src : BitVec 10) (level : Bool) (was now : Bool),
    was = assertedAt ((s.wing w).srcCfg src.toNat) ((s.wing w).pinLevel src.toNat) →
    now = assertedAt ((s.wing w).srcCfg src.toNat) level →
    ∃ t, exec (.wiredSourceChange w src level) s = .next t ∧ s.onlyWing t w ∧ (t.wing w).pinLevel src.toNat = level ∧
      (∀ i, i ≠ src.toNat → (t.wing w).pinLevel i = (s.wing w).pinLevel i) ∧
      (srcEnabled ((s.wing w).srcCfg src.toNat) = true → was = false → now = true →
        ((s.wing w).life = .run →
          (t.wing w).seqOf (4096 + src.toNat) = (s.wing w).seqOf (4096 + src.toNat) + 1 ∧
          ∀ j, j ≠ 4096 + src.toNat → (t.wing w).seqOf j = (s.wing w).seqOf j) ∧
        ((s.wing w).life = .nap ∨ (s.wing w).life = .napEntry ∨ (s.wing w).life = .deepEntry →
          src.toNat ∈ (t.wing w).vst.napSrc ∧ (t.wing w).vst.seqs = (s.wing w).vst.seqs ∧
          ((t.wing w).pwr.sched.isSome = true ∨ (t.wing w).pwr.pendWake.isSome = true))) ∧
      (¬ (srcEnabled ((s.wing w).srcCfg src.toNat) = true ∧ was = false ∧ now = true) ∨
          (s.wing w).life ∉ [Life.run, .nap, .napEntry, .deepEntry] →
        t.wing w = { s.wing w with
          vst := { (s.wing w).vst with levels := (t.wing w).vst.levels, raws := (t.wing w).vst.raws }, out := [] })) ∧
  (∀ (s : State) (w : WingId) (p : Byte) (idx : BitVec 4) (cur : BitVec 12) (v : Vote) (next : Option (BitVec 4 × BitVec 12)),
    next = ((s.porch p).raisesTo w ++ (s.porch p).raiseq).head? →
    (next = some (idx, cur) → (s.porch p).raisesTo w ≠ [] ∨ (s.porch p).hears = true ∧ v ≠ .split →
      ∃ t, exec (.raiseBeat w p idx ⟨cur, v⟩) s = .next t ∧ t.wing (otherWing w) = s.wing (otherWing w) ∧
        t.pending = s.pending ∧ (∀ q, q ≠ p → t.porch q = s.porch q) ∧
        (t.porch p).raisesTo w = ((s.porch p).raisesTo w).tail ∧
        (t.porch p).raisesTo (otherWing w) = (s.porch p).raisesTo (otherWing w) ++
          (if (s.porch p).raisesTo w = [] then [(idx, cur)] else []) ∧
        ((s.porch p).raisesTo w = [] → ∀ x, Out.p2w p x 0x4 (raiseBeatWord idx cur) ∈ t.out) ∧
        ((s.wing w).life = .run →
          (t.wing w).seqOf (5120 + p.toNat) = (s.wing w).seqOf (5120 + p.toNat) + 1 ∧
          ∀ j, j ≠ 5120 + p.toNat → (t.wing w).seqOf j = (s.wing w).seqOf j) ∧
        ((s.wing w).life = .nap ∨ (s.wing w).life = .napEntry ∨ (s.wing w).life = .deepEntry →
          SMap.find? (t.wing w).vst.napRaise (p.toNat * 16 + idx.toNat) = some cur ∧
          (t.wing w).vst.seqs = (s.wing w).vst.seqs ∧
          ((t.wing w).pwr.sched.isSome = true ∨ (t.wing w).pwr.pendWake.isSome = true))) ∧
    (next = some (idx, cur) → (s.porch p).raisesTo w = [] → (s.porch p).hears = true → v = .split →
      ∃ t, exec (.raiseBeat w p idx ⟨cur, v⟩) s = .next t ∧ s.onlyPorch t p ∧ t.porch p = { s.porch p with fault := true }) ∧
    (next ≠ some (idx, cur) ∨ (s.porch p).raisesTo w = [] ∧ (s.porch p).hears = false →
      ∃ t, exec (.raiseBeat w p idx ⟨cur, v⟩) s = .next t ∧ s.onlyPorch t p ∧ t.porch p = s.porch p ∧ t.out = []))

/-! ## Beats from a porch -/

/-- R121, R132, R138, R145: a wing keeps a porch's latest STATUS beat and its slot report, puts an entry behind those of its
porch, of which it holds 12, or into the replay while one runs, and each EVENT beat counts in its own counter. A wing that takes
no beats does nothing. -/
def Obligations.BeatsReachTheWing : Prop :=
  ∀ (s : State) (w : WingId) (p : Byte),
    ((s.wing w).takesBeats = false → ∀ i st rep keys d e claim,
      i ∈ [Instr.status w p st, .slotReport w p rep keys, .entry w p d, .porchEvent w p e, .refuse w p claim] →
      ∃ t, exec i s = .next t ∧ s.onlyWing t w ∧ t.out = [] ∧ t.wing w = { s.wing w with out := [] }) ∧
    ((s.wing w).takesBeats = true →
      (∀ st, ∃ t, exec (.status w p st) s = .next t ∧ s.onlyWing t w ∧ t.out = [] ∧
        SMap.find? (t.wing w).pch.status p.toNat = some st ∧
        (∀ q, q ≠ p.toNat → SMap.find? (t.wing w).pch.status q = SMap.find? (s.wing w).pch.status q) ∧
        t.wing w = { s.wing w with pch := { (s.wing w).pch with status := (t.wing w).pch.status }, out := [] }) ∧
      (∀ rep keys, ∃ t, exec (.slotReport w p rep keys) s = .next t ∧ s.onlyWing t w ∧ t.out = [] ∧
        (∀ key rtick, (key, rtick) ∈ SMap.get (t.wing w).pch.slotRep [] p.toNat ↔
          ∃ i < 4, (rep.extractLsb' (16 * i) 16 : BitVec 16).getLsbD 15 = true ∧ rtick = rep.extractLsb' (16 * i + 2) 8 ∧
            key = keys.getD (rep.extractLsb' (16 * i) 2 : BitVec 2).toNat 0) ∧
        t.wing w = { s.wing w with pch := { (s.wing w).pch with slotRep := (t.wing w).pch.slotRep }, out := [] }) ∧
      (∀ e : Entry, SMap.find? (s.wing w).pch.replay p.toNat = none ∨ p.toNat ∈ (s.wing w).pch.ended →
        ∃ t, exec (.entry w p e.encode) s = .next t ∧ s.onlyWing t w ∧ t.out = [] ∧
          SMap.get (t.wing w).pch.entries [] p.toNat = SMap.get (s.wing w).pch.entries [] p.toNat ++
            (if (SMap.get (s.wing w).pch.entries [] p.toNat).length < 12 then [e] else []) ∧
          (t.wing w).pch = { (s.wing w).pch with entries := (t.wing w).pch.entries } ∧
          ((s.wing w).running = true →
            t.wing w = { s.wing w with pch := { (s.wing w).pch with entries := (t.wing w).pch.entries }, out := [] })) ∧
      (∀ (e : Entry) (l : List Entry), p.toNat ∉ (s.wing w).pch.ended →
        SMap.find? (s.wing w).pch.replay p.toNat = some l →
        ∃ t, exec (.entry w p e.encode) s = .next t ∧ s.onlyWing t w ∧ t.out = [] ∧
          SMap.find? (t.wing w).pch.replay p.toNat = some (l ++ [e]) ∧ (t.wing w).pch.entries = (s.wing w).pch.entries) ∧
      ∀ e, ∃ (t : State) (c : Nat), exec (.porchEvent w p e) s = .next t ∧ s.onlyWing t w ∧ t.out = [] ∧
        c = (match e with
          | .voteFix => cPchVoteFix
          | .dupOffer => cDupOffer
          | .linkErr => cLinkErr
          | .claimBusy => cClaimBusy
          | .portErr => cPortErr) ∧
        (t.wing w).ctr c = (s.wing w).ctr c + 1 ∧ (∀ d, d ≠ c → (t.wing w).ctr d = (s.wing w).ctr d) ∧
        t.wing w = { s.wing w with regs := { (s.wing w).regs with ctr := (t.wing w).regs.ctr }, out := [] })

/-- R123: each offer that ACCEPT_RSP reports as accepted, and after 64 ns without one every offer of the release, gets an ACCEPT
record in the frame, in the order of the offers; the release then waits for no answer of that porch. An ACCEPT_RSP that comes
after its deadline gives no record, and a deadline behind the answer does nothing. R62, R63: the vector of an accepted offer is
PRESENTED at the porch's core, with COUNT 0, when no arrival of the tick came on it. -/
def Obligations.AcceptancesAreRecorded : Prop :=
  (∀ (s : State) (w : WingId) (p : Byte),
    ((s.wing w).isActive = true → ∀ offers, SMap.find? (s.wing w).hall.offered p.toNat = some offers →
      (∀ bits held, ∃ t, exec (.acceptRsp w p bits held) s = .next t ∧
        s.onlyWing t w ∧ SMap.find? (t.wing w).hall.offered p.toNat = none ∧
        (t.wing w).psg.acc = (s.wing w).psg.acc ++
          (((List.range offers.length).zip offers).filter fun e => bits.getLsbD e.1).map fun e =>
            Rec.accept { porch := p, key := rkKey e.2 }) ∧
      ∃ t, exec (.acceptRspTimeout w p) s = .next t ∧ s.onlyWing t w ∧
        SMap.find? (t.wing w).hall.offered p.toNat = none ∧ p.toNat ∈ (t.wing w).pch.late ∧
        (t.wing w).ctr cRspLate = (s.wing w).ctr cRspLate + 1 ∧
        (t.wing w).psg.acc = (s.wing w).psg.acc ++ offers.map fun k => Rec.accept { porch := p, key := rkKey k }) ∧
    ((s.wing w).isActive = true → SMap.find? (s.wing w).hall.offered p.toNat = none →
      (∀ bits held, ∃ t, exec (.acceptRsp w p bits held) s = .next t ∧ s.onlyWing t w ∧ t.out = [] ∧
        (t.wing w).psg = (s.wing w).psg ∧ (t.wing w).pan = (s.wing w).pan ∧ (t.wing w).regs = (s.wing w).regs) ∧
      ∃ t, exec (.acceptRspTimeout w p) s = .next t ∧ s.onlyWing t w ∧ t.wing w = { s.wing w with out := [] }) ∧
    ((s.wing w).isActive = false → ∀ i bits held, i ∈ [Instr.acceptRsp w p bits held, .acceptRspTimeout w p] →
      ∃ t, exec i s = .next t ∧ s.onlyWing t w ∧ t.wing w = { s.wing w with out := [] })) ∧
  (∀ (s : State) (w : WingId) (p : Byte) (k : BitVec 97) (held : List Word) (img : RankImg) (n m : Nat) (sl sl0 : Slot),
    (s.wing w).isActive = true → (s.wing w).pch.late.contains p.toNat = false →
    SMap.get (s.wing w).hall.offered [] p.toNat = [k] → (s.wing w).hall.img0 = some img →
    findKey (rkKey k) img.slots = some (m, sl0) → sl0.ctx.state = .pending →
    (s.wing w).slotFor (rkKey k) = some (n, sl) → (s.wing w).arrivalsInFrame (rkKey k) = [] →
    ∃ (t : State) (c : Ctx), exec (.acceptRsp w p 1 held) s = .next t ∧
      (t.wing w).pan.slots = SMap.insert (s.wing w).pan.slots n { sl with ctx := c } ∧
      c.key = sl.ctx.key ∧ c.state = .presented ∧ c.hasLast = true ∧ c.lastCore = p ∧ c.count = 0)

/-- R137, R257, R267, R271: a REFUSE counts and teaches the wing the higher claim; an active wing loses the active role for
JOINING, and drops a resync that it runs. -/
def Obligations.RefuseDemotes : Prop :=
  ∀ (s : State) (w : WingId) (p : Byte) (claim : Word), (s.wing w).takesBeats = true →
    ∃ t, exec (.refuse w p claim) s = .next t ∧ s.onlyWing t w ∧
      (t.wing w).ctr cOfferRefused = (s.wing w).ctr cOfferRefused + 1 ∧
      (t.wing w).ctl.seen.toNat = max (s.wing w).ctl.seen.toNat claim.toNat ∧
      (t.wing w).ctl.claim = (s.wing w).ctl.claim ∧
      (t.wing w).ctl.role = (if (s.wing w).ctl.role = .active then .joining else (s.wing w).ctl.role) ∧
      ((s.wing w).ctl.role = .active → (t.wing w).ctr cDemote = (s.wing w).ctr cDemote + 1 ∧
        (t.wing w).ctr cResyncAbort = (s.wing w).ctr cResyncAbort + (if (s.wing w).ctl.sendPos.isSome then 1 else 0) ∧
        (t.wing w).ctl.sendPos = none ∧ (t.wing w).ctl.duplex = false ∧
        (t.wing w).regs.tkoLog = logFirst (s.wing w).regs.tkoLog (tkoEntry tkDemoted (s.wing w).ctl.tick))

/-- R138, R139, R263: REPLAY_END only marks the replay of an active wing as whole; to a wing that is not active it shows that
the porch has turned to it. When the close of a tick applies it, an entry at or below LAST_JSEQ is counted as a duplicate and
changes no vector; a later CLAIM of a vector PRESENTED at that porch makes it ACTIVE, and LAST_JSEQ follows. -/
def Obligations.ReplaysApplyNewEntries : Prop :=
  (∀ (s : State) (w : WingId) (p : Byte),
    ((s.wing w).isActive = true → (SMap.find? (s.wing w).pch.replay p.toNat).isSome = true → p.toNat ∉ (s.wing w).pch.ended →
      ∃ t, exec (.replayEnd w p) s = .next t ∧ s.onlyWing t w ∧ t.out = [] ∧
        t.wing w = { s.wing w with
          pch := { (s.wing w).pch with ended := (s.wing w).pch.ended ++ [p.toNat] }, out := [] }) ∧
    ((s.wing w).takesBeats = true → (s.wing w).ctl.role ≠ .active →
      ∃ t, exec (.replayEnd w p) s = .next t ∧ s.onlyWing t w ∧ t.out = [] ∧ p.toNat ∈ (t.wing w).pch.turned ∧
        (∀ q, q ≠ p.toNat → (q ∈ (t.wing w).pch.turned ↔ q ∈ (s.wing w).pch.turned)) ∧
        t.wing w = { s.wing w with pch := { (s.wing w).pch with turned := (t.wing w).pch.turned }, out := [] }) ∧
    ((s.wing w).takesBeats = false ∨ (s.wing w).ctl.role = .active ∧ ((s.wing w).isActive = false ∨
        SMap.find? (s.wing w).pch.replay p.toNat = none ∨ p.toNat ∈ (s.wing w).pch.ended) →
      ∃ t, exec (.replayEnd w p) s = .next t ∧ s.onlyWing t w ∧ t.out = [] ∧ t.wing w = { s.wing w with out := [] })) ∧
  ∀ (w : Wing) (p : Byte) (e : Entry) (n : Nat) (sl : Slot), p.toNat ∈ w.pch.ended → w.mayCarry e.key = true →
    SMap.find? w.pch.replay p.toNat = some [e] → SMap.get w.pch.slotRep [] p.toNat = [] → w.slotFor e.key = some (n, sl) →
    SMap.find? (w.applyReplay p).pch.replay p.toNat = none ∧ p.toNat ∉ (w.applyReplay p).pch.ended ∧
    (jseqLe e.jseq (SMap.get w.pch.jseqCommit 0xFFFF p.toNat) = true →
      (w.applyReplay p).ctr cReplayDup = w.ctr cReplayDup + 1 ∧ (w.applyReplay p).pan.slots = w.pan.slots) ∧
    (jseqLe e.jseq (SMap.get w.pch.jseqCommit 0xFFFF p.toNat) = false → e.kind = .claim →
      sl.ctx.state = .presented → sl.ctx.lastCore = p →
      (w.applyReplay p).ctr cReplay = w.ctr cReplay + 1 ∧
      SMap.get (w.applyReplay p).pch.jseqCommit 0xFFFF p.toNat = e.jseq ∧
      ∃ c, (w.applyReplay p).pan.slots = SMap.insert w.pan.slots n { sl with ctx := c } ∧ c.key = sl.ctx.key ∧
        c.state = if sl.ctx.count = 0 then .active else .activePending)

/-! ## The cellar, the spill rings, the study -/

/-- R62, R63, R75, R211: at the close of a tick the window of a COMPLETED vector whose MOD_END has come ends, to IDLE, or to
PENDING when arrivals were counted; a standby drops an image that it has held for 16 ticks; a filter entry leaves 65,536 ticks
after its outcome. The tick that has closed is `Wing.closedTick`: in a standby that of the frame that it acknowledges (log 104,
DEDUCED). Nothing else changes, and nothing at all in a wing that does not run, or that takes no frames. -/
def Obligations.WindowsImagesAndFilterEntriesEnd : Prop :=
  ∀ (s : State) (w : WingId) (key : Word),
    (∀ n sl t0, (s.wing w).running = true → (s.wing w).closedTick = some t0 → (s.wing w).slotFor key = some (n, sl) →
      (sl.ctx.state = .completed → sl.ctx.modEnd.toNat ≤ t0.toNat →
        ∃ (t : State) (c : Ctx), exec (.windowEnd w key) s = .next t ∧ s.onlyWing t w ∧ t.out = [] ∧
          c.state = (if sl.ctx.count = 0 then .idle else .pending) ∧ c.dirty = sl.ctx.dirty ∧
          c = { sl.ctx with state := c.state, touched := t0, wbFresh := false } ∧
          t.wing w = { s.wing w with
            pan := { (s.wing w).pan with slots := SMap.insert (s.wing w).pan.slots n { sl with ctx := c } }, out := [] }) ∧
      (sl.ctx.state ≠ .completed ∨ t0.toNat < sl.ctx.modEnd.toNat →
        ∃ t, exec (.windowEnd w key) s = .next t ∧ s.onlyWing t w ∧ t.out = [] ∧
          t.wing w = { s.wing w with
            pan := { (s.wing w).pan with slots := SMap.insert (s.wing w).pan.slots n sl }, out := [] })) ∧
    ((s.wing w).running = false ∨ (s.wing w).closedTick = none ∨ (s.wing w).slotFor key = none →
      ∃ t, exec (.windowEnd w key) s = .next t ∧ s.onlyWing t w ∧ t.out = [] ∧ t.wing w = { s.wing w with out := [] }) ∧
    ((s.wing w).receives = true → ∃ t, exec (.standbyImageExpiry w key) s = .next t ∧ s.onlyWing t w ∧ t.out = [] ∧
      (∀ i, i ∈ (t.wing w).pan.images ↔
        i ∈ (s.wing w).pan.images ∧ ¬ (i.ctx.key = key ∧ i.tick.toNat + 16 ≤ (s.wing w).now.toNat)) ∧
      t.wing w = { s.wing w with pan := { (s.wing w).pan with images := (t.wing w).pan.images }, out := [] }) ∧
    ((s.wing w).receives = false → ∃ t, exec (.standbyImageExpiry w key) s = .next t ∧ s.onlyWing t w ∧ t.out = [] ∧
      t.wing w = { s.wing w with out := [] }) ∧
    ∀ slice tag,
      ((s.wing w).running = true →
        ∃ t, exec (.filterEntryExpiry w slice tag) s = .next t ∧ s.onlyWing t w ∧ t.out = [] ∧
          (∀ e, e ∈ (t.wing w).vst.filter ↔ e ∈ (s.wing w).vst.filter ∧
            ¬ (e.2.slice = slice ∧ e.2.jobTag = tag ∧ e.2.tick.toNat + 65536 ≤ (s.wing w).now.toNat)) ∧
          t.wing w = { s.wing w with vst := { (s.wing w).vst with filter := (t.wing w).vst.filter }, out := [] }) ∧
      ((s.wing w).running = false →
        ∃ t, exec (.filterEntryExpiry w slice tag) s = .next t ∧ s.onlyWing t w ∧ t.out = [] ∧
          t.wing w = { s.wing w with out := [] })

/-- R70, R72, R74, R75: an entry whose tag checks is installed by the active wing in the free slot that it chooses, with AGE 0
and no steering entry, and carried as an INSTALL record; a standby keeps it; a read that fails for the first time is issued
again and counted. An answer to no read does nothing. R70, R71: when a read fails for the second time the active wing
quarantines the vector, counts the failure and carries a QUAR record; any other wing only counts it, and quarantines nothing. -/
def Obligations.CellarReadsInstallRetryOrQuarantine : Prop :=
  (∀ (s : State) (w : WingId) (key : Word),
    ((s.wing w).running = false ∨ (s.wing w).pan.fetches.find? (fun f => f.key == key && f.issued) = none →
      ∀ rsp, ∃ t, exec (.cellarReadReturn w key rsp) s = .next t ∧ s.onlyWing t w ∧ t.wing w = { s.wing w with out := [] }) ∧
    ∀ (e : BitVec 256) (f : Fetch), (s.wing w).running = true →
      (s.wing w).pan.fetches.find? (fun f => f.key == key && f.issued) = some f →
      (tagOk (s.wing w).key e key domainVector = true →
        (∀ n, (s.wing w).ownsFrame = true → f.causes = [.arrival] → (s.wing w).resident key = false →
          keySlice key ∉ (s.wing w).vst.underCmd → (s.wing w).roomFor 1 = true → (∀ o ∈ (s.wing w).vst.staged, o.key ≠ key) →
          (s.wing w).chooseSlot (keySlice key) false = some (n, none) →
          ∃ t, exec (.cellarReadReturn w key (some e)) s = .next t ∧ s.onlyWing t w ∧
            (t.wing w).pan.slots = SMap.insert (s.wing w).pan.slots n
              { ctx := ctxOfImage key e (s.wing w).now, steer := Steer.reset } ∧
            Rec.install { bank := bankOf n, slot := slotOf n, key := key, tag := e.extractLsb' 224 32 } ∈ (t.wing w).psg.ord ∧
            (t.wing w).ctr cInstall = (s.wing w).ctr cInstall + 1) ∧
        ((s.wing w).ownsFrame = false → (s.wing w).psg.hold = [] → (∀ n u, FetchCause.reload n u ∉ f.causes) →
          ∃ t, exec (.cellarReadReturn w key (some e)) s = .next t ∧ s.onlyWing t w ∧
            { ctx := ctxOfImage key e (s.wing w).now, tick := (s.wing w).now, causes := f.causes : Image } ∈
              (t.wing w).pan.images ∧
            (t.wing w).pan.slots = (s.wing w).pan.slots)) ∧
      ∀ rsp, (rsp = none ∨ rsp = some e ∧ tagOk (s.wing w).key e key domainVector = false) → f.retried = false →
        ∃ t, exec (.cellarReadReturn w key rsp) s = .next t ∧ s.onlyWing t w ∧
          t.out = [.memRead (s.wing w).id ((s.wing w).entryAddr key) 32 (s.wing w).readTag] ∧
          (t.wing w).ctr cReadRetry = (s.wing w).ctr cReadRetry + 1 ∧
          (t.wing w).pan.fetches =
            (s.wing w).pan.fetches.map (fun x => if x.key = key then { x with retried := true } else x) ∧
          (t.wing w).pan.slots = (s.wing w).pan.slots) ∧
  (∀ (s : State) (w : WingId) (key : Word) (f : Fetch), (s.wing w).running = true →
    (s.wing w).pan.fetches.find? (fun f => f.key == key && f.issued) = some f → f.retried = true →
    ((s.wing w).ownsFrame = true → f.causes = [.arrival] → (∀ o ∈ (s.wing w).vst.staged, o.key ≠ key) →
      ∃ t, exec (.cellarReadReturn w key none) s = .next t ∧ s.onlyWing t w ∧ (t.wing w).isQuarantined key = true ∧
        (t.wing w).ctr cReadFail = (s.wing w).ctr cReadFail + 1 ∧
        Rec.quar { recheck := (s.wing w).recheckRoom, key := key } ∈ (t.wing w).psg.defr ∧
        (t.wing w).pan.slots = (s.wing w).pan.slots) ∧
    ((s.wing w).ownsFrame = false → (s.wing w).psg.hold = [] →
      ∃ t, exec (.cellarReadReturn w key none) s = .next t ∧ s.onlyWing t w ∧
        (t.wing w).ctr cReadFail = (s.wing w).ctr cReadFail + 1 ∧ (t.wing w).pan.quar = (s.wing w).pan.quar ∧
        (t.wing w).pan.slots = (s.wing w).pan.slots ∧ (t.wing w).vst = (s.wing w).vst))

/-- R54: a return read brings its entries from the spill ring to staging, behind those that are there, and counts them in
VST_RETURNED alone (log 107). R80, R81: an accepted write-back frees its entry of the write buffer and leaves the vector clean
if nothing changed since; one that is refused is issued again. R79: a wing that is not active any more only frees the entry.
R305: a write of the save area of an entry to Deep, named by its number (log 62), that is refused is issued once more. -/
def Obligations.SpillReturnsAndWriteBacks : Prop :=
  ∀ (s : State) (w : WingId),
    (∀ (slice : BitVec 12) (d : BitVec 512) (es : List Obs), (s.wing w).running = true → (s.wing w).vst.inbuf = [] →
      ((s.wing w).spillOf slice).reads ≠ [] → (s.wing w).returned slice (some d) = es.map (fun o => (o, true)) →
      (s.wing w).admitsNew = false ∨ (∀ o ∈ (s.wing w).vst.staged ++ es, (s.wing w).resident o.key = true) →
      ∃ t, exec (.spillReturn w slice (some d)) s = .next t ∧ s.onlyWing t w ∧
        (∀ o ∈ t.out, ∃ a n tag, o = .memRead (s.wing w).id a n tag) ∧
        (t.wing w).vst.staged = (s.wing w).vst.staged ++ es ∧
        (t.wing w).ctr cReturned = (s.wing w).ctr cReturned + BitVec.ofNat 64 es.length ∧
        ((t.wing w).spillOf slice).reads = ((s.wing w).spillOf slice).reads.drop 1 ∧
        ((t.wing w).spillOf slice).items =
          ((s.wing w).spillOf slice).items.drop (((s.wing w).spillOf slice).reads.headD 0) ∧
        ∀ x, x ≠ slice → (t.wing w).spillOf x = (s.wing w).spillOf x) ∧
    ((s.wing w).running = false → ∀ slice rsp, ∃ t, exec (.spillReturn w slice rsp) s = .next t ∧ s.onlyWing t w ∧
      t.wing w = { s.wing w with out := [] }) ∧
    (∀ (key : Word) (old : List Word), (s.wing w).life = .deepEntry → (s.wing w).pwr.saveAt ≠ none →
      old = (s.wing w).pwr.wbRetried →
      (∃ t, exec (.writeBackAccepted w key true) s = .next t ∧ s.onlyWing t w ∧ t.wing w = { s.wing w with out := [] }) ∧
      (key ∉ old →
        ∃ (t : State) (d : BitVec 512), exec (.writeBackAccepted w key false) s = .next t ∧ s.onlyWing t w ∧
          t.out = [.memWrite (s.wing w).id ((s.wing w).saveBase + BitVec.ofNat 64 (64 * key.toNat)) 64 d (s.wing w).writeTag] ∧
          (t.wing w).pwr = { (s.wing w).pwr with wbRetried := key :: old } ∧ (t.wing w).life = .deepEntry)) ∧
    (∀ key ok, (s.wing w).life ≠ .deepEntry ∨ (s.wing w).pwr.saveAt = none → (s.wing w).pan.wbuf.find? (fun e => e.1 == key) = none →
      ∃ t, exec (.writeBackAccepted w key ok) s = .next t ∧ s.onlyWing t w ∧ t.wing w = { s.wing w with out := [] }) ∧
    (∀ (key : Word) (e : Word × BitVec 256 × Tick), (s.wing w).life ≠ .deepEntry ∨ (s.wing w).pwr.saveAt = none →
      (s.wing w).pan.wbuf.find? (fun e => e.1 == key) = some e →
      (∀ ok, (s.wing w).ctl.role ≠ .active →
        ∃ t, exec (.writeBackAccepted w key ok) s = .next t ∧ s.onlyWing t w ∧ t.out = [] ∧
          t.wing w = { s.wing w with pan := { (s.wing w).pan with wbuf := dropBuf key (s.wing w).pan.wbuf }, out := [] }) ∧
      (∀ n sl, (s.wing w).life = .run → (s.wing w).ctl.role = .active → (s.wing w).slotFor key = some (n, sl) →
        sl.ctx.wbFresh = true → (∀ x ∈ dropBuf key (s.wing w).pan.wbuf, x.1 ≠ key) →
        (∀ e ∈ (s.wing w).sl, ∀ u ∈ e.2.ucmds, u.opcode ≠ opVecReset) →
        (s.wing w).flushes = [] → (s.wing w).dirtyCount ≤ 2048 →
        ∃ t, exec (.writeBackAccepted w key true) s = .next t ∧ s.onlyWing t w ∧ t.out = [] ∧
          t.wing w = { s.wing w with
            pan := { (s.wing w).pan with
              wbuf := dropBuf key (s.wing w).pan.wbuf
              slots := SMap.insert (s.wing w).pan.slots n { sl with ctx := { sl.ctx with dirty := false, wbFresh := false } } }
            out := [] }) ∧
      ((s.wing w).life = .run → (s.wing w).ctl.role = .active →
        ∃ t, exec (.writeBackAccepted w key false) s = .next t ∧ s.onlyWing t w ∧
          t.wing w = { s.wing w with mem := { (s.wing w).mem with write := (s.wing w).mem.write + 1 }, out := [] } ∧
          t.out = [.memWrite (s.wing w).id ((s.wing w).entryAddr key) 32 (e.2.1.setWidth 512) (s.wing w).writeTag]))

/-- MODERATION_COUNT, R84: at a multiple of 64 ticks the acceptance counts and marks start again, once for that tick, and the
active wing carries up to 16 of the count's decisions, none above the MOD_LIMIT that its vector has by then. STEER_REEVALUATION,
R106 and R107: at such a tick the list of vectors to re-evaluate starts again from those PENDING in the latest image, decisions
of the one before that were not issued are counted as dropped, and with STEER_HOLD only refusals are carried. At any other tick,
and in a wing that does not run, nothing changes. R84: an adaptive window doubles, from at least 1 and at most to MOD_LIMIT,
when the core's acceptances exceed MOD_CEILING, halves when they are below half of it or the vector was not accepted or the
ceiling is 0, and stays otherwise; it never passes MOD_LIMIT. STRANDING_LIMIT, R108 and R175: a slice that has been stranded for
16 times RES_DELAY gets one RESIDENCY record with its count and priority, when slice 0's ring and the frame have room. Else
nothing changes. -/
def Obligations.StudyCountsAndReports : Prop :=
  (∀ (s : State) (w : WingId),
    ((s.wing w).running = true → (s.wing w).now.toNat % 64 = 0 →
      (s.wing w).hall.nextCount.toNat ≤ (s.wing w).now.toNat →
      ∃ t, exec (.moderationCount w) s = .next t ∧ s.onlyWing t w ∧ t.out = [] ∧ (t.wing w).hall.modN = [] ∧
        (t.wing w).hall.modAcc = [] ∧
        ((s.wing w).now.toNat + 64 < 2 ^ 56 → (t.wing w).hall.nextCount.toNat = (s.wing w).now.toNat + 64) ∧
        (t.wing w).pan = (s.wing w).pan ∧
        ((s.wing w).isActive = false → (t.wing w).psg = (s.wing w).psg) ∧
        ((s.wing w).isActive = true → ∃ rs : List ModwinRec, rs.length ≤ 16 ∧
          (t.wing w).psg.defr = (s.wing w).psg.defr ++ rs.map Rec.modwin ∧
          ∀ r ∈ rs, ∃ (win : BitVec 7) (c : Ctx), (r.key, win) ∈ (s.wing w).ctxs.filterMap (s.wing w).modFor ∧
            (s.wing w).ctx? r.key = some c ∧
            r.win = (if (cfgModLimit c.cfg).toNat < win.toNat then cfgModLimit c.cfg else win))) ∧
    ((s.wing w).running = false ∨ (s.wing w).now.toNat % 64 ≠ 0 ∨ (s.wing w).now.toNat < (s.wing w).hall.nextCount.toNat →
      ∃ t, exec (.moderationCount w) s = .next t ∧ s.onlyWing t w ∧ t.out = [] ∧ t.wing w = { s.wing w with out := [] }) ∧
    ((s.wing w).running = true → (s.wing w).now.toNat % 64 = 0 →
      ∃ (t : State) (rs : List TargetRec), exec (.steerReevaluation w) s = .next t ∧ s.onlyWing t w ∧ t.out = [] ∧
        (t.wing w).pan = (s.wing w).pan ∧
        (∀ k, k ∈ (t.wing w).hall.seen64 ↔ ∃ img, (s.wing w).hall.img0 = some img ∧ ∃ e ∈ img.slots,
          e.2.ctx.key = k ∧ e.2.ctx.state = .pending ∧ ((s.wing w).view img).mode (cfgCoreset e.2.ctx.cfg) ≠ 3 ∧
          1 < (clustersOf (((s.wing w).view img).setCores (cfgCoreset e.2.ctx.cfg))).length) ∧
        (t.wing w).psg.defr = (s.wing w).psg.defr ++ rs.map Rec.target ∧
        ((s.wing w).ownsFrame = true →
          (t.wing w).ctr cSteerDrop = (s.wing w).ctr cSteerDrop + BitVec.ofNat 64 (s.wing w).hall.periodic.length ∧
          ((s.wing w).steerHold = true → (t.wing w).hall.periodic = [] ∧ ∀ r ∈ rs, r ∈ (s.wing w).hall.refusals)) ∧
        ((s.wing w).ownsFrame = false →
          t.wing w = { s.wing w with hall := { (s.wing w).hall with seen64 := (t.wing w).hall.seen64 }, out := [] })) ∧
    ((s.wing w).running = false ∨ (s.wing w).now.toNat % 64 ≠ 0 →
      ∃ t, exec (.steerReevaluation w) s = .next t ∧ s.onlyWing t w ∧ t.out = [] ∧ t.wing w = { s.wing w with out := [] })) ∧
  (∀ (ceiling n limit win : Nat) (hit : Bool), win ≤ limit →
    modDecide ceiling n hit limit win ≤ limit ∧
      (hit = true → 0 < ceiling → ceiling < n → 0 < limit → win < modDecide ceiling n hit limit win ∨ win = limit) ∧
      (hit = true → ceiling / 2 ≤ n → n ≤ ceiling → 0 < ceiling → modDecide ceiling n hit limit win = win) ∧
      (hit = true → n < ceiling / 2 → modDecide ceiling n hit limit win = win / 2) ∧
      ((hit = false ∨ ceiling = 0) → modDecide ceiling n hit limit win = win / 2)) ∧
  (∀ (s : State) (w : WingId) (slice : BitVec 12),
    (∀ e : BitVec 12 × BitVec 16 × Byte, (s.wing w).ownsFrame = true →
      (s.wing w).hall.resident.find? (fun e => e.1 == slice) = some e → (s.wing w).resDelay ≠ 0 →
      16 * (s.wing w).resDelay ≤ ((s.wing w).slice slice).strand → ((s.wing w).slice slice).strandTold = false →
      (s.wing w).residencyPlaced slice = false → (s.wing w).ringRoom 0 1 = true → (s.wing w).roomDeferred 1 = true →
      ∃ t, exec (.strandingLimit w slice) s = .next t ∧ s.onlyWing t w ∧ t.out = [] ∧
        t.wing w = { s.wing w with
          psg := { (s.wing w).psg with
            defr := (s.wing w).psg.defr ++ [.residency { slice := slice, count := e.2.1, prio := e.2.2 }] }
          out := [] }) ∧
    ((s.wing w).ownsFrame = false ∨ (s.wing w).hall.resident.find? (fun e => e.1 == slice) = none ∨ (s.wing w).resDelay = 0 ∨
        ((s.wing w).slice slice).strand < 16 * (s.wing w).resDelay ∨ ((s.wing w).slice slice).strandTold = true ∨
        (s.wing w).residencyPlaced slice = true ∨ (s.wing w).ringRoom 0 1 = false ∨ (s.wing w).roomDeferred 1 = false →
      ∃ t, exec (.strandingLimit w slice) s = .next t ∧ s.onlyWing t w ∧ t.out = [] ∧ t.wing w = { s.wing w with out := [] }))

/-! ## Slices and rings -/

/-- R181, R182, R183, R195: each half of a create's block is kept, and read once more when the read fails; when both are in and
the checks pass the create goes on to its writes, and a failing check, or a second failure of one half, finishes it with that
code. The last write accepted ends the writes; a wait ends a reset into its writes and a removal at once. Nothing else of the
wing changes, but that a read that comes free goes to what waits for one (R20, R50). CMD_FINISHED counts as the FINISH is placed
in the frame (log 72, DEDUCED). R182, R388: the block of slice 0 at a START. A half that fails is read once more; a second
failure stops the START with code MEMORY, a failing check with its code, and a block that passes leaves the START waiting for
its writes. -/
def Obligations.SliceJobsAdvance : Prop :=
  (∀ (s : State) (w : WingId) (slice : BitVec 12) (j : Job), ((s.wing w).slice slice).job = some j →
    (s.wing w).ownsFrame = true →
    (∀ (half : Bool), slice ≠ 0 → j.phase = .reading → j.opcode = opCreate → half ∉ j.got → (s.wing w).finishing 0 j.pos = false →
      (s.wing w).ring.blockReads.find? (fun x => x.1 == slice && x.2.1 == half) = some (slice, half, true) →
      (∀ (b : BitVec 512) (k : Job), k = j.take half b →
        ((!half) ∉ j.got → ∃ t, exec (.parameterBlockRead w slice ⟨half, some b⟩) s = .next t ∧ s.onlyWing t w ∧
          (∀ o ∈ t.out, ∃ a n tag, o = .memRead (s.wing w).id a n tag) ∧ ((t.wing w).slice slice).job = some k ∧
          (s.wing w).onlyReads (t.wing w) ∧
          ∀ x, x ≠ slice → (t.wing w).slice x = (s.wing w).slice x) ∧
        ((!half) ∈ j.got → (s.wing w).createCheck slice k.param = 0 →
          ∃ t, exec (.parameterBlockRead w slice ⟨half, some b⟩) s = .next t ∧ s.onlyWing t w ∧
            (∀ o ∈ t.out, ∃ a n tag, o = .memRead (s.wing w).id a n tag) ∧
            ((t.wing w).slice slice).job = some { k with
              phase := .writing, left := 2 ^ log5 (pbVt k.param) + 2 ^ (log5 (pbEvt k.param) - 1) + 1 } ∧
            (s.wing w).onlyReads (t.wing w) ∧
            ∀ x, x ≠ slice → (t.wing w).slice x = (s.wing w).slice x)) ∧
      (half ∉ j.retried → ∃ t, exec (.parameterBlockRead w slice ⟨half, none⟩) s = .next t ∧ s.onlyWing t w ∧
        t.out = [.memRead (s.wing w).id ((s.wing w).blockAddr slice j + (if half then 64 else 0)) 64 (s.wing w).readTag] ∧
        ((t.wing w).slice slice).job = some { j with retried := half :: j.retried } ∧
        (t.wing w).ring = (s.wing w).ring ∧ (s.wing w).onlyReads (t.wing w)) ∧
      (∀ (u : UCmd) (rsp : Option (BitVec 512)) (code : Byte),
        (s.wing w).ucmdFor 0 (j.pos.extractLsb' 0 16) = some u → u.opcode = opCreate → (s.wing w).ring.finDue = [] →
        (s.wing w).roomDeferred 12 = true →
        (rsp = none ∧ half ∈ j.retried ∧ code = ccMemory ∨
          ∃ b, rsp = some b ∧ (!half) ∈ j.got ∧ (s.wing w).createCheck slice (j.take half b).param = code ∧ code ≠ 0) →
        ∃ (t : State) (f : FinishRec), exec (.parameterBlockRead w slice ⟨half, rsp⟩) s = .next t ∧ s.onlyWing t w ∧
          (∀ o ∈ t.out, ∃ a n tag, o = .memRead (s.wing w).id a n tag) ∧ Rec.finish f ∈ (t.wing w).psg.defr ∧ f.result = code ∧ f.ring = 0 ∧ f.pos = j.pos.extractLsb' 0 16 ∧ f.nParam = 11 ∧
          ((t.wing w).slice 0).cmdFinished = ((s.wing w).slice 0).cmdFinished + 1)) ∧
    (∀ half rsp, (s.wing w).ring.blockReads.find? (fun x => x.1 == slice && x.2.1 == half) = none →
      ∃ t, exec (.parameterBlockRead w slice ⟨half, rsp⟩) s = .next t ∧ s.onlyWing t w ∧
        t.wing w = { s.wing w with out := [] }) ∧
    (j.phase ≠ .reading → ∀ half rsp, ∃ t, exec (.parameterBlockRead w slice ⟨half, rsp⟩) s = .next t ∧ s.onlyWing t w ∧
      (s.wing w).onlyReads (t.wing w) ∧ (t.wing w).sl = (s.wing w).sl) ∧
    (j.phase = .writing → j.left = 0 →
      ∃ t, exec (.creationWritesDone w slice) s = .next t ∧ s.onlyWing t w ∧ t.out = [] ∧
        ((t.wing w).slice slice).job = some { j with phase := .written } ∧
        t.wing w = { s.wing w with sl := (t.wing w).sl, out := [] } ∧
        ∀ x, x ≠ slice → (t.wing w).slice x = (s.wing w).slice x) ∧
    (j.phase ≠ .writing ∨ j.left ≠ 0 →
      ∃ t, exec (.creationWritesDone w slice) s = .next t ∧ s.onlyWing t w ∧ t.wing w = { s.wing w with out := [] }) ∧
    (j.phase = .waiting → (∀ c ∈ (s.wing w).ctxs, keySlice c.key = slice → c.state ≠ .presented) →
      (j.opcode = opRemove → ∀ i < 16, keySlice ((s.wing w).route i) ≠ slice) →
      ∃ t, exec (.releaseWaitEnd w slice) s = .next t ∧ s.onlyWing t w ∧ t.out = [] ∧
        ((t.wing w).slice slice).job = some (if j.opcode = opReset then { j with
            phase := .writing
            left := 2 ^ ((s.wing w).slice slice).vtLog2.toNat + 2 ^ (((s.wing w).slice slice).evtLog2.toNat - 1) + 1 }
          else { j with phase := .written }) ∧
        t.wing w = { s.wing w with sl := (t.wing w).sl, out := [] } ∧
        ∀ x, x ≠ slice → (t.wing w).slice x = (s.wing w).slice x) ∧
    (j.phase ≠ .waiting ∨ (∃ c ∈ (s.wing w).ctxs, keySlice c.key = slice ∧ c.state = .presented) →
      ∃ t, exec (.releaseWaitEnd w slice) s = .next t ∧ s.onlyWing t w ∧ t.wing w = { s.wing w with out := [] })) ∧
  (∀ (s : State) (w : WingId) (j : Job) (half : Bool), (s.wing w).life = .keyWait ∨ (s.wing w).life = .run →
    (s.wing w).ctl.booting = true → ((s.wing w).slice 0).job = some j → j.phase = .reading → j.opcode = opCreate →
    half ∉ j.got → (s.wing w).ring.blockReads.find? (fun x => x.1 == 0 && x.2.1 == half) = some (0, half, true) →
    (half ∉ j.retried → ∃ t, exec (.parameterBlockRead w 0 ⟨half, none⟩) s = .next t ∧ s.onlyWing t w ∧
      t.out = [.memRead (s.wing w).id ((s.wing w).bootAddr + (if half then 64 else 0)) 64 (s.wing w).readTag] ∧
      ((t.wing w).slice 0).job = some { j with retried := half :: j.retried }) ∧
    (∀ (rsp : Option (BitVec 512)) (code : Byte), (rsp = none ∧ half ∈ j.retried ∧ code = ccMemory ∨
        ∃ b, rsp = some b ∧ (!half) ∈ j.got ∧ (s.wing w).createCheck 0 (j.take half b).param = code ∧ code ≠ 0) →
      ∃ t, exec (.parameterBlockRead w 0 ⟨half, rsp⟩) s = .next t ∧ s.onlyWing t w ∧
        (∀ o ∈ t.out, ∃ a n tag, o = .memRead (s.wing w).id a n tag) ∧
        ((t.wing w).slice 0).job = none ∧
        (t.wing w).ctl = { (s.wing w).ctl with booting := false, bootChecked := false, bootCode := code }) ∧
    ∀ b, (!half) ∈ j.got → (s.wing w).createCheck 0 (j.take half b).param = 0 →
      ∃ t, exec (.parameterBlockRead w 0 ⟨half, some b⟩) s = .next t ∧ s.onlyWing t w ∧
        (∀ o ∈ t.out, ∃ a n tag, o = .memRead (s.wing w).id a n tag) ∧
        (t.wing w).ctl = { (s.wing w).ctl with bootChecked := true } ∧
        (((t.wing w).slice 0).job.map Job.phase) = some .writing)

/-- R192: a quiesce finishes when every enabled port has reported, the slice holds no old arrival and its own ring has no
unfinished command; and after 65,536 ticks whatever it still holds. Its FINISH is carried with result 0, and CMD_FINISHED counts
as it is placed in the frame (log 72, DEDUCED). Till then nothing changes. R219, R220: a drain request that a port takes is
counted and not offered again; a port's report is carried in a DRAIN record, and the request leaves the port's list. A report
that comes while earlier messages wait is kept until they are registered; a standby carries none. -/
def Obligations.QuiescesAndDrainsFinish : Prop :=
  (∀ (s : State) (w : WingId) (slice : BitVec 12) (i : Instr) (c : Prop),
    (i = .quiesceFinish w slice ∧
        (c ↔ (∀ p < 16, (s.wing w).portEn p = true → ((s.wing w).slice slice).drained.getLsbD p = true) ∧
          (s.wing w).oldHeld slice = false ∧ ((s.wing w).slice slice).ucmds = []) ∨
      i = .drainLimit w slice ∧ (c ↔ ((s.wing w).slice slice).quiesceTick.toNat + 65536 ≤ (s.wing w).now.toNat)) →
    (∀ u : UCmd, (s.wing w).ownsFrame = true → ((s.wing w).slice slice).state = .quiescing → c →
      (s.wing w).sliceCmd opQuiesce slice = some u → (s.wing w).ucmdFor 0 (u.pos.extractLsb' 0 16) = some u →
      (s.wing w).finishing 0 u.pos = false → (s.wing w).ring.finDue = [] → (s.wing w).roomDeferred 1 = true →
      ∃ t, exec i s = .next t ∧ s.onlyWing t w ∧ t.out = [] ∧
        (t.wing w).psg.defr = (s.wing w).psg.defr ++
          [.finish { result := 0, ring := 0, hasLast := false, pos := u.pos.extractLsb' 0 16, count := 0, cfgw := 0
                     status := 0, lastCore := 0, nParam := 0 }] ∧
        ((t.wing w).slice 0).cmdFinished = ((s.wing w).slice 0).cmdFinished + 1) ∧
    ((s.wing w).ownsFrame = false ∨ ((s.wing w).slice slice).state ≠ .quiescing ∨ ¬ c →
      ∃ t, exec i s = .next t ∧ s.onlyWing t w ∧ t.wing w = { s.wing w with out := [] })) ∧
  (∀ (s : State) (w : WingId) (port : BitVec 4),
    ((s.wing w).isActive = true → (s.wing w).portEn port.toNat = true →
      (∃ x ∈ (s.wing w).drnOf port.toNat, x.2.2 = false) →
      (∀ x ∈ (s.wing w).drnOf port.toNat, x.2.2 = true ∨ (x.1, x.2.1) ∈ (s.wing w).drainWants port.toNat ∧
        (s.wing w).reported port.toNat (x.1, x.2.1) = false) →
      ∃ t, exec (.drainRequestTaken w port) s = .next t ∧ s.onlyWing t w ∧
        (t.wing w).ctr cDrainReq = (s.wing w).ctr cDrainReq + 1 ∧
        takeFirst ((s.wing w).drnOf port.toNat) <+: (t.wing w).drnOf port.toNat) ∧
    ((s.wing w).isActive = false ∨ (∀ x ∈ (s.wing w).drnOf port.toNat, x.2.2 = true) →
      ∃ t, exec (.drainRequestTaken w port) s = .next t ∧ s.onlyWing t w ∧ t.wing w = { s.wing w with out := [] }) ∧
    ∀ pasid gen,
      ((s.wing w).ownsFrame = true → (s.wing w).vst.inbuf = [] →
        ∃ t, exec (.drnDone w port pasid gen) s = .next t ∧ s.onlyWing t w ∧ t.out = [] ∧
          (t.wing w).drnOf port.toNat =
            ((s.wing w).drnOf port.toNat).filter (fun x => !(x.1 == pasid && x.2.1 == gen)) ∧
          (∀ p, p ≠ port.toNat → (t.wing w).drnOf p = (s.wing w).drnOf p) ∧
          t.wing w = { s.wing w with
            drn := (t.wing w).drn
            psg := { (s.wing w).psg with
              defr := (s.wing w).psg.defr ++ [.drain { port := port, pasid := pasid, gen := gen }] }
            out := [] }) ∧
      (∀ a rest, (s.wing w).running = true → (s.wing w).vst.inbuf = (a, true) :: rest → (∀ e ∈ rest, e.2 = true) →
        rest.length < 512 → (s.wing w).blocks a = true →
        ∃ t, exec (.drnDone w port pasid gen) s = .next t ∧ s.onlyWing t w ∧ t.out = [] ∧
          (t.wing w).vst.drnWait = (s.wing w).vst.drnWait ++ [(port, pasid, gen, rest.length + 1)] ∧
          (t.wing w).psg = (s.wing w).psg ∧ (t.wing w).drn = (s.wing w).drn) ∧
      ((s.wing w).running = false ∨ (s.wing w).ownsFrame = false ∧ (s.wing w).vst.inbuf = [] →
        ∃ t, exec (.drnDone w port pasid gen) s = .next t ∧ s.onlyWing t w ∧ t.wing w = { s.wing w with out := [] }))

/-- R170, R172: a committed record is written at the ring's next position, with the PHASE of that position, and the position
goes up by one. R150, R173: once the port has accepted the last record of the oldest block, the block's tick is carried in a
DONE record. An acceptance of a record that is not on its way does nothing. -/
def Obligations.EventRecordsAreWrittenAndDone : Prop :=
  (∀ (s : State) (w : WingId) (n : BitVec 12) (t0 : Tick) (r : BitVec 256), (s.wing w).mayWrite = true →
    (s.wing w).ring.blocks = [{ tick := t0, accs := [], commits := [(n, r)] }] → t0.toNat ≤ (s.wing w).now.toNat →
    (s.wing w).committed (t0.toNat - 1) = true →
    ∃ (t : State) (v : SliceSt), exec (.eventBlockWrite w) s = .next t ∧ s.onlyWing t w ∧ v = (s.wing w).slice n ∧
      ((t.wing w).slice n).wpos = v.wpos + 1 ∧ (t.wing w).ring.blocks = [] ∧
      (n, v.wpos, t0) ∈ (t.wing w).ring.recOut ∧ (t.wing w).ctr cEvrRecords = (s.wing w).ctr cEvrRecords + 1 ∧
      ∃ tag, Out.memWrite (s.wing w).id (v.evtBase + BitVec.ofNat 64 (32 * (v.wpos.toNat % 2 ^ v.evtLog2.toNat))) 32
        ((r ||| (if v.wpos.toNat / 2 ^ v.evtLog2.toNat % 2 = 0 then 1 else 0)).setWidth 512) tag ∈ t.out) ∧
  (∀ (s : State) (w : WingId) (n : BitVec 12) (p : Word),
    (∀ b : EvBlock, (s.wing w).running = true →
      (s.wing w).ring.written = [b] → (s.wing w).ring.recOut = [(n, p, b.tick)] →
      ∃ t, exec (.recordWriteAccepted w n p) s = .next t ∧ s.onlyWing t w ∧ (t.wing w).ring.recOut = [] ∧
        (t.wing w).ring.written = [] ∧ (t.wing w).psg.defr = (s.wing w).psg.defr ++ [.done b.tick]) ∧
    ((s.wing w).running = false ∨ (∀ r ∈ (s.wing w).ring.recOut, ¬ (r.1 = n ∧ r.2.1 = p)) →
      ∃ t, exec (.recordWriteAccepted w n p) s = .next t ∧ s.onlyWing t w ∧ t.wing w = { s.wing w with out := [] }) ∧
    ((s.wing w).mayWrite = false →
      ∃ t, exec (.eventBlockWrite w) s = .next t ∧ s.onlyWing t w ∧ t.wing w = { s.wing w with out := [] }))

/-- R158, R160: each ring command that may start is admitted: CMD_HEAD goes up by one, it is counted, and a CMD record with its
first failing check's code and a CMD_EXT record with its ring, position and cookie are carried. The checks see the vector as
finishes that are already in the frame leave it (`Wing.applyPlaced`; log 72, DEDUCED). -/
def Obligations.CommandsAreAdmitted : Prop :=
  ∀ (s : State) (w : WingId) (ring : BitVec 12) (a : CmdArgs) (op : Byte) (i : Instr) (d : Desc) (v : Wing),
    (op, i) ∈ [(0x01, Instr.nop w ring a), (0x02, .vecCfg w ring a), (0x03, .vecReset w ring a), (0x04, .vecQuery w ring a),
      (0x05, .vecComplete w ring a), (0x06, .pin w ring a), (0x07, .unpin w ring a), (0x08, .flush w ring a),
      (0x10, .sliceCreate w ring a), (0x11, .sliceShare w ring a), (0x12, .sliceQuiesce w ring a),
      (0x13, .sliceResume w ring a), (0x14, .sliceReset w ring a), (0x15, .sliceRemove w ring a),
      (0x16, .letterPost w ring a)] →
    d = { opcode := op, args := a, v2 := ((s.wing w).slice ring).cmdVer } →
    v = (if isVecOp op then (s.wing w).applyPlaced (cmdKey ring a.target) else s.wing w) →
    ((s.wing w).mayAdmit ring d →
      ∃ (t : State) (c : CmdRec), exec i s = .next t ∧ s.onlyWing t w ∧
        ((t.wing w).slice ring).cmdHead = ((s.wing w).slice ring).cmdHead + 1 ∧
        (t.wing w).ctr cCmdAdmitted = (s.wing w).ctr cCmdAdmitted + 1 ∧
        c.opcode = op ∧ c.target = a.target ∧ c.operand = a.operand ∧ c.fence = a.fence ∧
        c.result = v.cmdCheck ring d ∧ Rec.cmd c ∈ (t.wing w).psg.defr ∧
        Rec.cmdExt { part := 0, ring := ring, pos := ((s.wing w).slice ring).cmdHead, data := a.cookie } ∈ (t.wing w).psg.defr) ∧
    ((s.wing w).takesCmds = false ∨ ((s.wing w).slice ring).admits = false ∨ (s.wing w).mayStart ring d = false →
      ∃ t, exec i s = .next t ∧ s.onlyWing t w ∧ t.wing w = { s.wing w with out := [] })

/-- R62, R71, R78, R83, R163: what the vector commands do, at once, to a vector in the pantry when no check fails and no finish
stands in the frame before them. -/
def Obligations.VectorCommandsChangeTheVector : Prop :=
  ∀ (s : State) (w : WingId) (ring : BitVec 12) (a : CmdArgs) (n : Nat) (sl : Slot),
    (s.wing w).slotFor (cmdKey ring a.target) = some (n, sl) → (∀ f, Rec.finish f ∉ (s.wing w).psg.defr) →
    (∀ op (i : Instr) (f : Ctx → Ctx), (op, i, f) ∈
        [((0x02 : Byte), Instr.vecCfg w ring a, fun c => { c with
            cfg := a.operand.extractLsb' 0 32
            modWin := if (a.operand.extractLsb' 20 7 : BitVec 7).toNat < c.modWin.toNat then a.operand.extractLsb' 20 7 else c.modWin }),
          (0x03, .vecReset w ring a, fun c => { c with
            state := .idle, count := 0, payload := 0, modEnd := 0, gotNative := false }),
          (0x05, .vecComplete w ring a, fun c => { c with
            state := .completed, modEnd := (s.wing w).now + BitVec.ofNat 56 ((s.wing w).windowOf c) }),
          (0x06, .pin w ring a, fun c => { c with pin := true }),
          (0x07, .unpin w ring a, fun c => { c with pin := false }),
          (0x04, .vecQuery w ring a, fun c => c)] →
      (s.wing w).mayAdmit ring { opcode := op, args := a, v2 := ((s.wing w).slice ring).cmdVer } →
      (s.wing w).cmdCheck ring { opcode := op, args := a, v2 := ((s.wing w).slice ring).cmdVer } = 0 →
      ∃ (t : State) (sl' : Slot), exec i s = .next t ∧ s.onlyWing t w ∧
        (t.wing w).slotFor (cmdKey ring a.target) = some (n, sl') ∧
        { sl'.ctx with dirty := false, touched := 0, dirtyAt := 0, wbFresh := false } =
          { f sl.ctx with dirty := false, touched := 0, dirtyAt := 0, wbFresh := false } ∧
        (op = 0x03 → (t.wing w).isQuarantined (cmdKey ring a.target) = false))

/-- R160, R183, R191, R194, R197: a manager's command of slice 0's ring that passes its checks: SLICE_CREATE and SLICE_SHARE
read their parameter block as reads are free, SLICE_RESET and SLICE_REMOVE wait for the release, SLICE_QUIESCE and FLUSH stay
unfinished; each of them stands in the ring's unfinished commands. LETTER_POST enters the inbox, behind the finish of a slice
command that the frame carries (log 72, DEDUCED). NOP and SLICE_RESUME finish at once, and CMD_FINISHED counts them inside the
tick (log 72). R157, R158: the command point admits the command at the head of slice 0's ring; a returned descriptor read puts
its descriptors behind those held, and a read that fails is issued once more and counted; a halted ring keeps what it holds. A
read that comes free goes to what waits for one (R20, R50). -/
def Obligations.ManagerCommandsAndDescriptors : Prop :=
  (∀ (s : State) (w : WingId) (a : CmdArgs) (d : Byte → Desc), (∀ op, d op = { opcode := op, args := a, v2 := ((s.wing w).slice 0).cmdVer }) →
    (∀ (op : Byte) (i : Instr), (op, i) ∈
        [((0x08 : Byte), Instr.flush w 0 a), (0x10, .sliceCreate w 0 a), (0x11, .sliceShare w 0 a), (0x12, .sliceQuiesce w 0 a),
          (0x14, .sliceReset w 0 a), (0x15, .sliceRemove w 0 a)] →
      (s.wing w).mayAdmit 0 (d op) → (s.wing w).cmdCheck 0 (d op) = 0 →
      ∃ (t : State) (u : UCmd), exec i s = .next t ∧ s.onlyWing t w ∧ u.pos = ((s.wing w).slice 0).cmdHead ∧ u.opcode = op ∧
        u.target = a.target ∧ u.cookie = a.cookie ∧ ((t.wing w).slice 0).ucmds = ((s.wing w).slice 0).ucmds ++ [u] ∧
        (op = 0x10 ∨ op = 0x11 → ((t.wing w).slice (keySlice a.target)).job = some (newJob u.pos op .reading) ∧
          ((s.wing w).pan.fetches = [] → (s.wing w).ring.blockReads = [] → (∀ e ∈ (s.wing w).sl, e.2.job = none) →
            (∀ x ∈ ((s.wing w).slice 0).ucmds, x.pos ≠ u.pos) → (s.wing w).finishing 0 u.pos = false →
            (s.wing w).readsOut < 128 → ∃ tag, Out.memRead (s.wing w).id a.operand 64 tag ∈ t.out)) ∧
        (op = 0x14 ∨ op = 0x15 → ((t.wing w).slice (keySlice a.target)).job = some (newJob u.pos op .waiting))) ∧
    ((s.wing w).mayAdmit 0 (d 0x16) → (s.wing w).cmdCheck 0 (d 0x16) = 0 →
      ∃ t, exec (.letterPost w 0 a) s = .next t ∧ s.onlyWing t w ∧
        if (s.wing w).sliceFinishes (keySlice a.target) then
          ((t.wing w).slice (keySlice a.target)).posted = ((s.wing w).slice (keySlice a.target)).posted ++ [a.operand]
        else ((t.wing w).slice (keySlice a.target)).inbox = ((s.wing w).slice (keySlice a.target)).inbox ++ [a.operand]) ∧
    (∀ (op : Byte) (i : Instr), (op, i) ∈ [((0x01 : Byte), Instr.nop w 0 a), (0x13, .sliceResume w 0 a)] →
      (s.wing w).mayAdmit 0 (d op) → (s.wing w).cmdCheck 0 (d op) = 0 → (s.wing w).ring.finDue = [] → (s.wing w).flushes = [] →
      ∃ t, exec i s = .next t ∧ s.onlyWing t w ∧
        ((t.wing w).slice 0).cmdFinished = ((s.wing w).slice 0).cmdFinished + 1 ∧
        ((t.wing w).slice 0).ucmds = ((s.wing w).slice 0).ucmds ∧
        ∃ r, (0, r) ∈ (t.wing w).ring.recsDef ∧ recOutcome r = 0x8)) ∧
  (∀ (s : State) (w : WingId),
    (∀ d, ((s.wing w).slice 0).descs = [(((s.wing w).slice 0).cmdHead, d)] → ((s.wing w).slice 0).failPos = none →
      (s.wing w).sliceNums = [0] → (s.wing w).mayAdmit 0 d → (s.wing w).takesCmds = true →
      ∃ t, exec (.commandPoint w) s = .next t ∧ s.onlyWing t w ∧
        ((t.wing w).slice 0).cmdHead = ((s.wing w).slice 0).cmdHead + 1 ∧
        (t.wing w).ctr cCmdAdmitted = (s.wing w).ctr cCmdAdmitted + 1 ∧ ((t.wing w).slice 0).descs = []) ∧
    ((s.wing w).takesCmds = false →
      ∃ t, exec (.commandPoint w) s = .next t ∧ s.onlyWing t w ∧ t.wing w = { s.wing w with out := [] }) ∧
    ∀ (n : BitVec 12) (pos : Word),
      (∀ r : DescRead, (s.wing w).isActive = true → ((s.wing w).slice n).descReads.find? (fun r => r.first == pos) = some r →
        (((s.wing w).slice n).ringHalt = false →
          (∀ d, ((s.wing w).slice n).failPos = none →
            ∃ t, exec (.descriptorReadReturn w n pos (some d)) s = .next t ∧ s.onlyWing t w ∧
              ((t.wing w).slice n).descs = ((s.wing w).slice n).descs ++ descsOf ((s.wing w).slice n) r d) ∧
          (r.retried = false →
            ∃ t, exec (.descriptorReadReturn w n pos none) s = .next t ∧ s.onlyWing t w ∧
              t.out = [.memRead (s.wing w).id (((s.wing w).slice n).descAddr r) 64 (s.wing w).readTag] ∧
              (t.wing w).ctr cCmdReadRetry = (s.wing w).ctr cCmdReadRetry + 1 ∧
              ((t.wing w).slice n).descs = ((s.wing w).slice n).descs) ∧
          (r.retried = true → ((s.wing w).slice n).failPos = none →
            ∃ t, exec (.descriptorReadReturn w n pos none) s = .next t ∧ s.onlyWing t w ∧
              (∀ o ∈ t.out, ∃ a k tag, o = .memRead (s.wing w).id a k tag) ∧ ((t.wing w).slice n).failPos = some pos)) ∧
        (((s.wing w).slice n).ringHalt = true → ∀ rsp, ((s.wing w).slice n).failPos = none →
          ∃ t, exec (.descriptorReadReturn w n pos rsp) s = .next t ∧ s.onlyWing t w ∧
            ((t.wing w).slice n).descs = ((s.wing w).slice n).descs ∧ ((t.wing w).slice n).failPos = none)) ∧
      ((s.wing w).isActive = false ∨ ((s.wing w).slice n).descReads.find? (fun r => r.first == pos) = none → ∀ rsp,
        ∃ t, exec (.descriptorReadReturn w n pos rsp) s = .next t ∧ s.onlyWing t w ∧ t.wing w = { s.wing w with out := [] }))

/-! ## Records of the passage -/

/-- R234, R235: the 20 record commands ARRIVE, CLAIM_RECORD, COMPLETE_RECORD, CFG_REGW, CFG_CMD, CFG_CMD_EXT, CFG_FINISH,
CFG_PARAM, CFG_DRAIN, CFG_LETTER, CFG_LEVEL, CFG_QUAR, STEER_ACCEPT, STEER_INSTALL, STEER_MODWIN, STEER_TARGET, STEER_RESIDENCY,
STEER_CORESTATE, RINGPOS_DOORBELL and RINGPOS_DONE: a record whose turn it is not has no effect (that each record comes as a
command of its own, and that one out of its turn does nothing, is read from the spec: log 85); one whose turn it is leaves its
frame, and waits with the records before it while a fill or a rebuilt context is missing. R44, R62, R215, R241, R242: what
ARRIVE does in its turn. An arrival that the standby holds too is delivered once: IDLE becomes PENDING with COUNT 1, ACTIVE
becomes ACTIVE_PENDING with COUNT 1, any other state counts on and saturates; the origin's sequence does not fall behind the
record's, and no staged observation of the origin up to it is left. An escalation counts on its route's vector in the same way.
The payload, the escalation's own for an escalation, is kept under R57: the last one under KEEP_LAST, else the first one of a
native arrival since the vector was last accepted. A discard changes no context and counts by its cause. With no content held or
filled, the record waits, and the standby fetches the content. -/
def Obligations.ArriveRecordsDeliverOnce : Prop :=
  (∀ (s : State) (w : WingId) (i : Instr) (r : Rec), i.recordOf = some (w, r) →
    ((s.wing w).takeRec r = none → ∃ t, exec i s = .next t ∧ s.onlyWing t w ∧ t.wing w = { s.wing w with out := [] }) ∧
    (∀ (tk : Tick) (v : Wing), (s.wing w).takeRec r = some (tk, v) → (s.wing w).receives = true →
      (s.wing w).psg.hold ≠ [] ∨ ((s.wing w).ctl.role = .standby ∧ (s.wing w).pan.reloads ≠ []) →
      ∃ t, exec i s = .next t ∧ s.onlyWing t w ∧
        t.wing w = { v with psg := { v.psg with hold := v.psg.hold ++ [(tk, r)] }, out := [] })) ∧
  (∀ (s : State) (w : WingId) (r : ArriveRec) (tk : Tick) (v : Wing), (s.wing w).appliesNow →
    (s.wing w).takeRec (.arrive r) = some (tk, v) →
    (∀ (o : Obs) (n : Nat) (sl : Slot), (s.wing w).heldAt (originIx r.cls r.num) r.seq = some o → o.chk = r.chk →
      r.discard = false → (s.wing w).slotFor r.key = some (n, sl) →
      ∃ (t : State) (c : Ctx), exec (.arrive w r) s = .next t ∧ s.onlyWing t w ∧
        (t.wing w).pan.slots = SMap.insert (s.wing w).pan.slots n { sl with ctx := c } ∧ c.key = sl.ctx.key ∧
        c.state = (match sl.ctx.state with
          | .idle => .pending
          | .active => .activePending
          | x => x) ∧
        c.count = (if sl.ctx.state = .idle ∨ sl.ctx.state = .active then 1
          else if sl.ctx.count = 0xFFFF then 0xFFFF else sl.ctx.count + 1) ∧
        ((t.wing w).seqOf (originIx r.cls r.num) = r.seq ∨
          serialLe ((t.wing w).seqOf (originIx r.cls r.num)) r.seq = false) ∧
        (r.esc = false →
          ∀ x ∈ (t.wing w).vst.staged, ¬ (originIx x.cls x.num = originIx r.cls r.num ∧ serialLe x.seq r.seq = true)) ∧
        (r.esc = false → o.carries = false → c.payload = sl.ctx.payload) ∧
        (r.esc = true ∨ o.carries = true → c.payload =
          if cfgKeepLast sl.ctx.cfg = true ∨ sl.ctx.state = .idle ∨ sl.ctx.state = .active ∨ sl.ctx.count = 0 ∨
              sl.ctx.gotNative = false
          then (if r.esc then o.escPayload r.cause else o.payload) else sl.ctx.payload) ∧
        (r.esc = true → (t.wing w).ctr cEscalate = (s.wing w).ctr cEscalate + 1) ∧
        (t.wing w).ctr cAdmitted = (s.wing w).ctr cAdmitted + 1) ∧
    (∀ o : Obs, (s.wing w).heldAt (originIx r.cls r.num) r.seq = some o → o.chk = r.chk → r.discard = true → r.esc = false →
      r.cause ≠ dcSpillLost →
      ∃ t, exec (.arrive w r) s = .next t ∧ s.onlyWing t w ∧ (t.wing w).pan.slots = (s.wing w).pan.slots ∧
        (∀ x ∈ (t.wing w).vst.staged, ¬ (originIx x.cls x.num = originIx r.cls r.num ∧ serialLe x.seq r.seq = true)) ∧
        (t.wing w).ctr cAdmitted = (s.wing w).ctr cAdmitted ∧
        (r.cause = dcFilter → (t.wing w).ctr cDupDrop = (s.wing w).ctr cDupDrop + 1) ∧
        (r.cause = dcQuarantine → (t.wing w).ctr cQuarantined = (s.wing w).ctr cQuarantined + 1)) ∧
    (r.discard = true → r.cause = dcSpillLost →
      ∃ t, exec (.arrive w r) s = .next t ∧ s.onlyWing t w ∧ (t.wing w).pan.slots = (s.wing w).pan.slots ∧
        (t.wing w).ctr cSpillLost = (s.wing w).ctr cSpillLost + 1 ∧ (t.wing w).psg.hold = []) ∧
    ((r.discard = true → r.cause ≠ dcSpillLost) → (s.wing w).ownObs r = none →
      (∀ f ∈ (s.wing w).psg.arrFills, ¬ (f.asked = true ∧ f.origin = originWord r.cls r.num ∧ f.seq = r.seq)) →
      ∃ t, exec (.arrive w r) s = .next t ∧ s.onlyWing t w ∧ (t.wing w).pan.slots = (s.wing w).pan.slots ∧
        (t.wing w).psg.hold = [(tk, .arrive r)] ∧
        (t.wing w).psg.rsy = (s.wing w).psg.rsy ++
          [.fetch { what := 2, origin := originWord r.cls r.num, seqOrKey := r.seq }]))

/-- R62, R64, R134, R243: CLAIM_RECORD and COMPLETE_RECORD in their turn. A claim makes the vector PRESENTED at its porch
ACTIVE, or ACTIVE_PENDING when arrivals were counted; a return, and one that the active wing made itself, makes it PENDING; a
completion makes an ACTIVE or ACTIVE_PENDING vector of that core COMPLETED. Each that a porch made takes LAST_JSEQ with it. In
any other state of the vector, or with none in the pantry, the record is counted and changes no vector. -/
def Obligations.JournalRecordsMoveVectors : Prop :=
  ∀ (s : State) (w : WingId) (r : JournalRec) (tk : Tick) (v : Wing), (s.wing w).appliesNow →
    ((s.wing w).takeRec (.claim r) = some (tk, v) →
      ∃ t, exec (.claimRecord w r) s = .next t ∧ s.onlyWing t w ∧
        (r.synth = false → SMap.get (t.wing w).pch.jseqCommit 0xFFFF r.porch.toNat = r.entry.jseq) ∧
        (r.synth = true → (t.wing w).pch = (s.wing w).pch) ∧
        (∀ n sl, (s.wing w).slotFor r.entry.key = some (n, sl) → sl.ctx.state = .presented → sl.ctx.lastCore = r.porch →
          ∃ c, (t.wing w).pan.slots = SMap.insert (s.wing w).pan.slots n { sl with ctx := c } ∧ c.key = sl.ctx.key ∧
            c.count = sl.ctx.count ∧
            c.state = if r.ret ∨ r.synth then .pending else if sl.ctx.count = 0 then .active else .activePending) ∧
        ((∀ n sl, (s.wing w).slotFor r.entry.key = some (n, sl) → ¬ (sl.ctx.state = .presented ∧ sl.ctx.lastCore = r.porch)) →
          (t.wing w).pan.slots = (s.wing w).pan.slots ∧ (t.wing w).ctr cBadClaim = (s.wing w).ctr cBadClaim + 1)) ∧
    ((s.wing w).takeRec (.complete r) = some (tk, v) →
      ∃ t, exec (.completeRecord w r) s = .next t ∧ s.onlyWing t w ∧
        SMap.get (t.wing w).pch.jseqCommit 0xFFFF r.porch.toNat = r.entry.jseq ∧
        (∀ n sl, (s.wing w).slotFor r.entry.key = some (n, sl) → sl.ctx.state = .active ∨ sl.ctx.state = .activePending →
          sl.ctx.lastCore = r.porch →
          ∃ c, (t.wing w).pan.slots = SMap.insert (s.wing w).pan.slots n { sl with ctx := c } ∧ c.key = sl.ctx.key ∧
            c.state = .completed ∧ c.count = sl.ctx.count) ∧
        ((∀ n sl, (s.wing w).slotFor r.entry.key = some (n, sl) →
            ¬ ((sl.ctx.state = .active ∨ sl.ctx.state = .activePending) ∧ sl.ctx.lastCore = r.porch)) →
          (t.wing w).pan.slots = (s.wing w).pan.slots ∧ (t.wing w).ctr cBadComplete = (s.wing w).ctr cBadComplete + 1))

/-- R75, R245: the STEER records in their turn. STEER_ACCEPT presents a PENDING vector at its porch; STEER_INSTALL puts a held
image with the record's tag into the slot that it names, its steering cleared and its AGE 0, and waits when no image is held,
for the read that an observation started or for one of its own; STEER_MODWIN sets the window, at most the vector's MOD_LIMIT
(R84), and STEER_TARGET the target; STEER_RESIDENCY and STEER_CORESTATE set what they name. -/
def Obligations.SteerRecordsApply : Prop :=
  ∀ (s : State) (w : WingId) (tk : Tick) (v : Wing), (s.wing w).appliesNow →
    (∀ (r : AcceptRec) n sl, (s.wing w).takeRec (.accept r) = some (tk, v) → (s.wing w).slotFor r.key = some (n, sl) →
      sl.ctx.state = .pending →
      ∃ (t : State) (c : Ctx), exec (.steerAccept w r) s = .next t ∧ s.onlyWing t w ∧
        (t.wing w).pan.slots = SMap.insert (s.wing w).pan.slots n { sl with ctx := c } ∧ c.key = sl.ctx.key ∧
        c.state = .presented ∧ c.hasLast = true ∧ c.lastCore = r.porch ∧ c.count = 0) ∧
    (∀ r : InstallRec, (s.wing w).takeRec (.install r) = some (tk, v) →
      (s.wing w).psg.ctxFills.find? (fun f => f.1 == r.key) = none →
      (∀ i : Image, (s.wing w).pan.images.find? (fun i => i.ctx.key == r.key) = some i → i.ctx.tag = r.tag →
        SMap.find? (s.wing w).pan.slots (slotNo r.bank r.slot) = none →
        ∃ t, exec (.steerInstall w r) s = .next t ∧ s.onlyWing t w ∧
          (t.wing w).pan.slots = SMap.insert (s.wing w).pan.slots (256 * r.bank.toNat + r.slot.toNat)
            { ctx := { i.ctx with touched := (s.wing w).now }, steer := Steer.reset } ∧
          (∀ x ∈ (t.wing w).pan.images, x.ctx.key ≠ r.key)) ∧
      ((s.wing w).pan.images.find? (fun i => i.ctx.key == r.key) = none →
        ∃ t, exec (.steerInstall w r) s = .next t ∧ s.onlyWing t w ∧ (t.wing w).pan.slots = (s.wing w).pan.slots ∧
          (t.wing w).psg.hold = [(tk, .install r)] ∧
          ((s.wing w).ownReadOut r.key = true → (t.wing w).pan.fetches = (s.wing w).pan.fetches) ∧
          ((s.wing w).ownReadOut r.key = false → ∃ f ∈ (t.wing w).pan.fetches, f.key = r.key ∧
            FetchCause.install (slotNo r.bank r.slot) r.tag ∈ f.causes))) ∧
    (∀ (r : ModwinRec) n sl, (s.wing w).takeRec (.modwin r) = some (tk, v) → (s.wing w).slotFor r.key = some (n, sl) →
      ∃ (t : State) (c : Ctx), exec (.steerModwin w r) s = .next t ∧ s.onlyWing t w ∧
        (t.wing w).pan.slots = SMap.insert (s.wing w).pan.slots n { sl with ctx := c } ∧
        c.modWin = (if (cfgModLimit sl.ctx.cfg).toNat < r.win.toNat then cfgModLimit sl.ctx.cfg else r.win) ∧
        c.state = sl.ctx.state ∧ c.key = sl.ctx.key) ∧
    (∀ r : TargetRec, (s.wing w).takeRec (.target r) = some (tk, v) →
      ∃ t, exec (.steerTarget w r) s = .next t ∧ s.onlyWing t w ∧
        (t.wing w).pan.slots = (match SMap.find? (s.wing w).pan.slots (slotNo r.bank r.slot) with
          | some sl =>
              if sl.ctx.key = r.key ∧ cfgCoreset sl.ctx.cfg = r.coreset then
                SMap.insert (s.wing w).pan.slots (slotNo r.bank r.slot)
                  { sl with steer := { sl.steer with valid := true, target := r.cluster } }
              else (s.wing w).pan.slots
          | none => (s.wing w).pan.slots)) ∧
    (∀ r : ResidencyRec, (s.wing w).takeRec (.residency r) = some (tk, v) →
      ∃ (t : State) (x : BitVec 256), exec (.steerResidency w r) s = .next t ∧ s.onlyWing t w ∧
        ((t.wing w).slice r.slice).strandTold = true ∧ (t.wing w).regs.ctr = (s.wing w).regs.ctr ∧
        (t.wing w).ring.recsDef = (s.wing w).ring.recsDef ++ [(0, x)] ∧ recOutcome x = 0x6) ∧
    (∀ r : CoreStateRec, (s.wing w).takeRec (.coreState r) = some (tk, v) →
      (∀ i < 4, (r.words.extractLsb' (16 * i) 16 : BitVec 16).getLsbD 15 = false) →
      ∃ t, exec (.steerCorestate w r) s = .next t ∧ s.onlyWing t w ∧
        (∀ i < 4, (t.wing w).coreSt (4 * r.group.toNat + i) =
          { cur := r.words.extractLsb' (16 * i) 12, sleep := r.words.extractLsb' (16 * i + 12) 2
            on := r.words.getLsbD (16 * i + 14), fault := false }) ∧
        (∀ c, c / 4 ≠ r.group.toNat → (t.wing w).coreSt c = (s.wing w).coreSt c) ∧
        (t.wing w).pan = (s.wing w).pan)

/-- R244, R366: CFG_REGW in its turn sets the mirrored word, stored and in force; a pending first write of a dual-control
register with DUAL_PEND only is kept; R344: the running signature changes by the signatures before and after. -/
def Obligations.RegwRecordsSetRegisters : Prop :=
  ∀ (s : State) (w : WingId) (r : RegwRec) (k : Nat) (tk : Tick) (v : Wing), (s.wing w).appliesNow →
    (s.wing w).takeRec (.regw r) = some (tk, v) → k = (if r.space = 0 then r.addr.toNat else ikey r.addr.toNat) →
    ∃ t, exec (.cfgRegw w r) s = .next t ∧ s.onlyWing t w ∧ t.out = [] ∧
      (r.dualPend = false → (t.wing w).cfgW k = r.val ∧ (t.wing w).effW k = r.val ∧
        (∀ j, j ≠ k → (t.wing w).cfgW j = (s.wing w).cfgW j ∧ (t.wing w).effW j = (s.wing w).effW j) ∧
        (t.wing w).int.sigRun =
          (s.wing w).int.sigRun ^^^ (signatureOf (s.wing w).signedWords ^^^ signatureOf (t.wing w).signedWords)) ∧
      (r.dualPend = true → (t.wing w).regs.cfg = (s.wing w).regs.cfg ∧ (t.wing w).regs.eff = (s.wing w).regs.eff ∧
        ∃ h ∈ (t.wing w).regs.dual, h.addr = k ∧ h.val = r.val ∧ h.req = r.req)

/-- R244: what the other CFG records leave in a standby in their turn. CFG_LEVEL: a level change for its tick, with the rail and
the body bias moved at once for a raise (R289); CFG_DRAIN: a port's drain of the quiescing slice that it names; CFG_QUAR: a
quarantined key; CFG_LETTER: a letter that leaves its box and enters its ring. R153, R173, R246: in its turn RINGPOS_DOORBELL
gives a standby CMD_TAIL or EVT_HEAD; RINGPOS_DONE drops the blocks of ticks up to it and moves every ring's position past their
records. -/
def Obligations.CfgAndRingposRecordsApply : Prop :=
  (∀ (s : State) (w : WingId) (tk : Tick) (v : Wing), (s.wing w).appliesNow →
    (∀ r : LevelRec, (s.wing w).takeRec (.level r) = some (tk, v) →
      ∃ t, exec (.cfgLevel w r) s = .next t ∧ s.onlyWing t w ∧ t.out = [] ∧
        (t.wing w).pwr.next = some (Level.ofCode r.level, r.tick) ∧ (t.wing w).pwr.level = (s.wing w).pwr.level ∧
        (t.wing w).pwr.vsel =
          (if r.level.toNat < (s.wing w).pwr.level.code.toNat then r.level.setWidth 3 else (s.wing w).pwr.vsel) ∧
        (t.wing w).pwr.bias =
          (if r.level.toNat < (s.wing w).pwr.level.code.toNat then (Level.ofCode r.level).bias else (s.wing w).pwr.bias)) ∧
    (∀ r : DrainRec, (s.wing w).takeRec (.drain r) = some (tk, v) →
      ∃ t, exec (.cfgDrain w r) s = .next t ∧ s.onlyWing t w ∧ t.out = [] ∧
        (t.wing w).ctr cDrainDone = (s.wing w).ctr cDrainDone + 1 ∧
        ∀ n, (t.wing w).slice n =
          if ((s.wing w).slice n).state = .quiescing ∧ ((s.wing w).slice n).pasid = r.pasid ∧ ((s.wing w).slice n).gen = r.gen
          then { (s.wing w).slice n with drained := ((s.wing w).slice n).drained ||| (1#16 <<< r.port.toNat) }
          else (s.wing w).slice n) ∧
    (∀ r : QuarRec, (s.wing w).takeRec (.quar r) = some (tk, v) →
      ∃ t, exec (.cfgQuar w r) s = .next t ∧ s.onlyWing t w ∧ t.out = [] ∧
        (t.wing w).isQuarantined r.key = true ∧ (t.wing w).pan.slots = (s.wing w).pan.slots) ∧
    (∀ r : LetterRec, (s.wing w).takeRec (.letter r) = some (tk, v) →
      ∃ (t : State) (x : BitVec 256), exec (.cfgLetter w r) s = .next t ∧ s.onlyWing t w ∧ t.out = [] ∧
        (t.wing w).ring.recsDef = (s.wing w).ring.recsDef ++ [(if r.fromMgr then r.slice else 0, x)] ∧ recOutcome x = 0x7 ∧
        (r.fromMgr = true → ((t.wing w).slice r.slice).inbox = ((s.wing w).slice r.slice).inbox.drop 1) ∧
        (r.fromMgr = false → ((t.wing w).slice r.slice).outbox =
          ((s.wing w).slice r.slice).outbox.filter fun e => !serialLe e.1 r.lseq))) ∧
  (∀ (s : State) (w : WingId) (tk : Tick) (v : Wing), (s.wing w).appliesNow →
    (∀ r : DoorbellRec, (s.wing w).takeRec (.doorbell r) = some (tk, v) →
      ∃ t, exec (.ringposDoorbell w r) s = .next t ∧ s.onlyWing t w ∧
        (r.kind = 0 → (t.wing w).slice r.slice = { (s.wing w).slice r.slice with cmdTail := r.pos }) ∧
        (r.kind ≠ 0 → (t.wing w).slice r.slice = { (s.wing w).slice r.slice with evtHead := r.pos }) ∧
        ∀ x, x ≠ r.slice → (t.wing w).slice x = (s.wing w).slice x) ∧
    (∀ d : Tick, (s.wing w).takeRec (.done d) = some (tk, v) → (s.wing w).sliceNums.Nodup →
      ∃ t, exec (.ringposDone w d) s = .next t ∧ s.onlyWing t w ∧
        (∀ b, b ∈ (t.wing w).ring.blocks ↔ b ∈ (s.wing w).ring.blocks ∧ d.toNat < b.tick.toNat) ∧
        ∀ n ∈ (s.wing w).sliceNums, ((t.wing w).slice n).wpos = ((s.wing w).slice n).wpos + BitVec.ofNat 32
          ((((s.wing w).ring.blocks.filter fun b => decide (b.tick.toNat ≤ d.toNat)).map fun b => b.countFor n).sum)))

/-- R160, R244: a command and its completion at a standby, each record in its turn: CFG_CMD waits for its CFG_CMD_EXT, which
moves CMD_HEAD past the command's position and finishes an immediate command or leaves a long one unfinished; CFG_FINISH, with
its CFG_PARAM records, takes the command out and owes its record. -/
def Obligations.CommandRecordsApply : Prop :=
  ∀ (s : State) (w : WingId) (tk : Tick) (v : Wing), (s.wing w).appliesNow →
    (∀ c : CmdRec, (s.wing w).takeRec (.cmd c) = some (tk, v) →
      ∃ t, exec (.cfgCmd w c) s = .next t ∧ s.onlyWing t w ∧ t.out = [] ∧
        (t.wing w).ring.cmdBuf = some c ∧ (t.wing w).sl = (s.wing w).sl) ∧
    (∀ (c : CmdRec) (x : CmdExtRec), (s.wing w).takeRec (.cmdExt x) = some (tk, v) → (s.wing w).ring.cmdBuf = some c →
      (s.wing w).ring.extBuf = none →
      (2 ≤ c.nExt.toNat → ∃ t, exec (.cfgCmdExt w x) s = .next t ∧ s.onlyWing t w ∧ (t.wing w).ring.cmdBuf = some c ∧
        (t.wing w).ring.extBuf = some x ∧ (t.wing w).sl = (s.wing w).sl) ∧
      (c.nExt.toNat ≤ 1 → ∃ t, exec (.cfgCmdExt w x) s = .next t ∧ s.onlyWing t w ∧ (t.wing w).ring.cmdBuf = none ∧
        ((t.wing w).slice x.ring).cmdHead = x.pos + 1 ∧
        (c.long = true → ∃ u : UCmd, ((t.wing w).slice x.ring).ucmds = ((s.wing w).slice x.ring).ucmds ++ [u] ∧
          u.pos = x.pos ∧ u.opcode = c.opcode ∧ u.target = c.target ∧ u.cookie = x.data) ∧
        (c.long = false → ((t.wing w).slice x.ring).cmdFinished = ((s.wing w).slice x.ring).cmdFinished + 1 ∧
          ∃ r, (t.wing w).ring.recsDef = (s.wing w).ring.recsDef ++ [(x.ring, r)] ∧
            recOutcome r = if c.result = 0 then 0x8 else 0x9))) ∧
    (∀ f : FinishRec, (s.wing w).takeRec (.finish f) = some (tk, v) →
      (f.nParam ≠ 0 → ∃ t, exec (.cfgFinish w f) s = .next t ∧ s.onlyWing t w ∧ t.out = [] ∧
        (t.wing w).ring.finBuf = some f ∧ (t.wing w).ring.params = [] ∧ (t.wing w).sl = (s.wing w).sl) ∧
      (∀ u, f.nParam = 0 → (s.wing w).ucmdFor f.ring f.pos = some u → isSliceOp u.opcode = false →
        ∃ (t : State) (r : BitVec 256), exec (.cfgFinish w f) s = .next t ∧ s.onlyWing t w ∧
          ((t.wing w).slice f.ring).cmdFinished = ((s.wing w).slice f.ring).cmdFinished + 1 ∧
          ((t.wing w).slice f.ring).ucmds = ((s.wing w).slice f.ring).ucmds.filter (fun x => x.pos != u.pos) ∧
          (t.wing w).ring.recsDef = (s.wing w).ring.recsDef ++ [(f.ring, r)] ∧
          recOutcome r = if f.result = 0 then 0x8 else 0x9)) ∧
    (∀ (f : FinishRec) (p : ParamRec), (s.wing w).takeRec (.param p) = some (tk, v) → (s.wing w).ring.finBuf = some f →
      (SMap.insert (s.wing w).ring.params p.off.toNat p.data).length < f.nParam.toNat →
      ∃ t, exec (.cfgParam w p) s = .next t ∧ s.onlyWing t w ∧ t.out = [] ∧
        (t.wing w).ring.params = SMap.insert (s.wing w).ring.params p.off.toNat p.data ∧ (t.wing w).ring.finBuf = some f)

/-- R246, R272: RESYNC_COPY with the first word of a walk gives a joining wing its tick, two ahead of the one named; R70, R242:
the active wing answers RESYNC_FETCH with the four parts of a context, as it was installed last while that is not acknowledged
or else as it stands, or the three of an arrival, and a standby keeps each part of RESYNC_ARRIVAL and RESYNC_FILL that it asked
for. One of these four whose turn it is not has no effect (read from the spec: log 85). -/
def Obligations.ResyncRecordsApply : Prop :=
  ∀ (s : State) (w : WingId) (tk : Tick) (v : Wing),
    (∀ r : CopyRec, (s.wing w).takeRec (.copy r) = some (tk, v) → (s.wing w).running = true → (s.wing w).ctl.role = .joining →
      r.space = 0 → r.pos = 0 →
      ∃ t, exec (.resyncCopy w r) s = .next t ∧ s.onlyWing t w ∧ t.out = [] ∧ (t.wing w).ctl.joinPos = some 1 ∧
        (t.wing w).ctl.hasTick = true ∧ (t.wing w).ctl.tick = r.data.extractLsb' 0 56 + 2 ∧
        (t.wing w).ctl.reconciled = r.data.getLsbD 63) ∧
    (∀ (key : Word) (n : Nat) (c : Ctx),
      (s.wing w).takeRec (.fetch { what := 1, origin := 0, seqOrKey := key }) = some (tk, v) → (s.wing w).ownsFrame = true →
      (∃ m, ((s.wing w).pan.recent.filter fun e => e.2.2.key == key).getLast? = some (m, n, c)) ∨
        ((∀ e ∈ (s.wing w).pan.recent, e.2.2.key ≠ key) ∧ ∃ sl, (s.wing w).slotFor key = some (n, sl) ∧ sl.ctx = c) →
      ∃ (t : State) (d : Nat → DWord), (∀ i, d i = c.copyWord (s.wing w).now false i) ∧ exec (.resyncFetch w { what := 1, origin := 0, seqOrKey := key }) s = .next t ∧
        s.onlyWing t w ∧ t.out = [] ∧ (t.wing w).ctr cPeerFill = (s.wing w).ctr cPeerFill + 1 ∧
        (t.wing w).psg.rsy = (s.wing w).psg.rsy ++ (List.range 4).map fun i => Rec.fill
          { part := BitVec.ofNat 8 i, bank := bankOf n, slot := slotOf n, key := key, data := d i }) ∧
    (∀ (r : FetchRec) (m : Tick) (o : Obs), (s.wing w).takeRec (.fetch r) = some (tk, v) → (s.wing w).ownsFrame = true →
      r.what = 2 →
      (s.wing w).vst.sentArr.find? (fun e => originWord e.2.cls e.2.num == r.origin && e.2.seq == r.seqOrKey) = some (m, o) →
      ∃ (t : State) (d : Nat → DWord), exec (.resyncFetch w r) s = .next t ∧ s.onlyWing t w ∧ t.out = [] ∧ d 0 = o.payload ∧
        (t.wing w).psg.rsy = (s.wing w).psg.rsy ++ (List.range 3).map fun i => Rec.arrival
          { part := BitVec.ofNat 8 i, origin := r.origin, seq := r.seqOrKey, data := d i }) ∧
    (∀ (r : ArrivalRec) (f : ArrFill), (s.wing w).takeRec (.arrival r) = some (tk, v) → (s.wing w).appliesNow →
      (s.wing w).psg.arrFills = [f] → f.asked = true → f.origin = r.origin → f.seq = r.seq →
      ∃ t, exec (.resyncArrival w r) s = .next t ∧ s.onlyWing t w ∧ t.out = [] ∧
        (t.wing w).psg.arrFills = [{ f with parts := SMap.insert f.parts r.part.toNat r.data }]) ∧
    (∀ (r : FillRec) (parts : SMap DWord), (s.wing w).takeRec (.fill r) = some (tk, v) → (s.wing w).appliesNow →
      (s.wing w).psg.ctxFills = [(r.key, parts)] →
      ∃ t, exec (.resyncFill w r) s = .next t ∧ s.onlyWing t w ∧ t.out = [] ∧
        (t.wing w).psg.ctxFills = [(r.key, SMap.insert parts r.part.toNat r.data)]) ∧
    (∀ (i : Instr) (r : Rec),
      (∃ c, i = .resyncCopy w c ∧ r = .copy c) ∨ (∃ c, i = .resyncFetch w c ∧ r = .fetch c) ∨
        (∃ c, i = .resyncArrival w c ∧ r = .arrival c) ∨ (∃ c, i = .resyncFill w c ∧ r = .fill c) →
      (s.wing w).takeRec r = none →
      ∃ t, exec i s = .next t ∧ s.onlyWing t w ∧ t.wing w = { s.wing w with out := [] })

/-- R26, R247, R257, R267: a TICK_CLOSE in time is a heartbeat; the greatest claim seen follows it, and, when it is no replay's,
whether the peer joins or is active; an active wing that sees an active peer with a greater claim is demoted to JOINING; R306: a
wing that woke from Deep joins from it on. A wing whose passage does not run takes none. That TICK_CLOSE comes as a command of
its own, before or after its frame is applied, is read from the spec (log 85). R235: FRAME_APPLIED: when every record of a whole
frame is applied, the wing drops the frame, and a standby acknowledges it; a joining wing acknowledges nothing, but in the tick
of its withdrawal (R270). With no such frame nothing changes. NOP_RECORD has no effect (R240). That one command ends the frame's
application and sets ACK is read from the spec (log 85). -/
def Obligations.FramesTellOfThePeerAndAreAcknowledged : Prop :=
  (∀ (s : State) (w : WingId) (frame : Tick) (replayed : Bool) (r : CloseRec),
    ((s.wing w).passageRuns = true →
      ∃ t, exec (.tickClose w frame replayed r) s = .next t ∧ s.onlyWing t w ∧
        (t.wing w).ctl.seen.toNat = max (s.wing w).ctl.seen.toNat r.claim.toNat ∧
        (t.wing w).psg.peerJoining = (if replayed then (s.wing w).psg.peerJoining else r.role == 0b10) ∧
        (t.wing w).psg.peerActive = (if replayed then (s.wing w).psg.peerActive else r.role == 0b00) ∧
        (t.wing w).psg.hb = ((s.wing w).psg.hb || (!replayed && frame == (s.wing w).now - 1)) ∧
        (t.wing w).life = (if (s.wing w).life = .deepWake then Life.run else (s.wing w).life) ∧
        (t.wing w).ctl.role = (if (s.wing w).ctl.role = .active ∧ r.role = 0 ∧ (s.wing w).ctl.claim.toNat < r.claim.toNat
          then .joining else (s.wing w).ctl.role)) ∧
    ((s.wing w).passageRuns = false →
      ∃ t, exec (.tickClose w frame replayed r) s = .next t ∧ s.onlyWing t w ∧ t.wing w = { s.wing w with out := [] })) ∧
  (∀ (s : State) (w : WingId),
    (∀ f : RxFrame, (s.wing w).receives = true → (s.wing w).psg.hold = [] → (s.wing w).psg.rx = [f] → f.whole = true →
      f.recs = [] →
      ((s.wing w).ctl.role = .standby → (s.wing w).pan.reloads = [] →
        ((s.wing w).psg.ackValid = true → f.tick = (s.wing w).psg.ack + 1) →
        ∃ t, exec (.frameApplied w) s = .next t ∧ s.onlyWing t w ∧ (t.wing w).psg.ackValid = true ∧
          (t.wing w).psg.ack = f.tick ∧ (t.wing w).psg.rx = []) ∧
      ((s.wing w).ctl.role = .joining → (s.wing w).ctl.withdrawAt ≠ some (s.wing w).now →
        ∃ t, exec (.frameApplied w) s = .next t ∧ s.onlyWing t w ∧ (t.wing w).psg.ackValid = (s.wing w).psg.ackValid ∧
          (t.wing w).psg.ack = (s.wing w).psg.ack ∧ (t.wing w).psg.rx = [])) ∧
    ((s.wing w).receives = false ∨ (s.wing w).endable = none →
      ∃ t, exec (.frameApplied w) s = .next t ∧ s.onlyWing t w ∧ t.wing w = { s.wing w with out := [] }) ∧
    ∃ t, exec (.nopRecord w) s = .next t ∧ s.onlyWing t w ∧ t.out = [] ∧ t.wing w = { s.wing w with out := [] })

/-- R227, R228, R230, R234 to R236: BLOCK at a standby. A block whose header and data are good opens its frame, if it is the
first of it, and lays its records into the frame's slots; one of a frame that is applied already changes no frame; one whose
data cannot be corrected, or with no sync, is counted lost on its lane, and reported when its frame is still awaited. A lane
that is not in use, or a wing whose passage does not run, takes no block. R238: REPLAY: the active wing answers the oldest NAK
with the block that it names, on the spare lane or in a position of its frame, and counts it; a NAK of a frame no longer kept is
dropped; with no lane for it, it waits. R252: PSG_RXLOCK: a lane in use whose receiver loses lock fails, and is retired at its
fourth failure. R251: TRAINING_BLOCK: a good one counts, and 64 in a row lock the receiver; a bad one starts the count again. -/
def Obligations.BlocksReplaysAndLanes : Prop :=
  (∀ (s : State) (w : WingId) (lane : BitVec 2) (x : BitVec 2048) (h : BlockHdr) (tk : Tick), h = blockHdr x →
    tk = (s.wing w).frameTick h.tick →
    ((s.wing w).receives = true → (s.wing w).ctl.role = .standby → ((s.wing w).lane lane.toNat).role = .carry →
      (syncFound x = true → headerOk x = true → h.blk ≠ 7 → h.replay = false →
        (∀ (d : BitVec 1792) (n : Nat) (rs : List Rec), blockData x = some (d, n) → recordsOf d = some rs →
          ((∀ f ∈ (s.wing w).psg.rx, f.tick ≠ tk) →
            ((s.wing w).psg.ackValid = true → (s.wing w).psg.ack.toNat < tk.toNat) →
            ∃ (t : State) (f : RxFrame), exec (.block w lane x false) s = .next t ∧ s.onlyWing t w ∧ f ∈ (t.wing w).psg.rx ∧
              f.tick = tk ∧ f.map = some h.map ∧ f.accN = h.accN ∧
              SMap.find? f.data (4 * h.blk.toNat + h.lane.toNat) = some d ∧
              (∀ j r, rs[j]? = some r → r.group ≠ .fill → r.group ≠ .closing →
                SMap.find? f.recs (14 * (4 * h.blk.toNat + h.lane.toNat) + j) = some r) ∧
              (t.wing w).ctr cBlkRx = (s.wing w).ctr cBlkRx + 1) ∧
          ((s.wing w).psg.ackValid = true → tk.toNat ≤ (s.wing w).psg.ack.toNat →
            ∃ t, exec (.block w lane x false) s = .next t ∧ s.onlyWing t w ∧ (t.wing w).psg.rx = (s.wing w).psg.rx ∧
              (t.wing w).ctr cBlkRx = (s.wing w).ctr cBlkRx + 1)) ∧
        (blockData x = none →
          ∃ t, exec (.block w lane x false) s = .next t ∧ s.onlyWing t w ∧
            (t.wing w).ctr (cBlkLost lane.toNat) = (s.wing w).ctr (cBlkLost lane.toNat) + 1 ∧
            ((s.wing w).psg.ackValid = true → (s.wing w).psg.ack.toNat < tk.toNat →
              { tick := tk, lane := h.lane, blk := h.blk } ∈ (t.wing w).psg.lost))) ∧
      (syncFound x = false → ∀ late, ∃ t, exec (.block w lane x late) s = .next t ∧ s.onlyWing t w ∧
        (t.wing w).ctr (cBlkLost lane.toNat) = (s.wing w).ctr (cBlkLost lane.toNat) + 1)) ∧
    ((s.wing w).passageRuns = false ∨
        (((s.wing w).lane lane.toNat).used = false ∧ ((s.wing w).lane lane.toNat).role ≠ .training) →
      ∀ late, ∃ t, exec (.block w lane x late) s = .next t ∧ s.onlyWing t w ∧ t.out = [] ∧
        t.wing w = { s.wing w with out := [] })) ∧
  (∀ (s : State) (w : WingId) (lane : BitVec 2) (v : Lane), v = (s.wing w).lane lane.toNat →
    (∀ (x : LostBlk) (rest : List LostBlk), (s.wing w).isActive = true → (s.wing w).psg.nakq = x :: rest →
      (∀ (f : Frame) (l : Nat) (inFrame : Bool), (s.wing w).psg.sent.find? (fun f => f.tick == x.tick) = some f →
        (s.wing w).replayLane = some (l, inFrame) →
        ∃ t, exec (.replay w) s = .next t ∧ s.onlyWing t w ∧ (t.wing w).psg.nakq = rest ∧
          (t.wing w).ctr cReplayTx = (s.wing w).ctr cReplayTx + 1 ∧
          t.out = [.blockOut (s.wing w).id (BitVec.ofNat 2 l) ((s.wing w).frameBlock f x.lane.toNat x.blk.toNat true)]) ∧
      ((s.wing w).psg.sent.find? (fun f => f.tick == x.tick) = none →
        ∃ t, exec (.replay w) s = .next t ∧ s.onlyWing t w ∧ t.out = [] ∧ (t.wing w).psg.nakq = rest ∧
          (t.wing w).ctr cReplayTx = (s.wing w).ctr cReplayTx) ∧
      (∀ f : Frame, (s.wing w).psg.sent.find? (fun f => f.tick == x.tick) = some f → (s.wing w).replayLane = none →
        ∃ t, exec (.replay w) s = .next t ∧ s.onlyWing t w ∧ t.wing w = { s.wing w with out := [] })) ∧
    ((s.wing w).isActive = false ∨ (s.wing w).psg.nakq = [] →
      ∃ t, exec (.replay w) s = .next t ∧ s.onlyWing t w ∧ t.out = [] ∧ t.wing w = { s.wing w with out := [] }) ∧
    ((s.wing w).passageRuns = true → v.rxlock = true → v.used = true →
      ∃ t, exec (.psgRxlock w lane false) s = .next t ∧ s.onlyWing t w ∧
        ((t.wing w).lane lane.toNat).rxlock = false ∧ ((t.wing w).lane lane.toNat).rxbad = true ∧
        ((t.wing w).lane lane.toNat).fails = (if v.fails = 15 then 15 else v.fails + 1) ∧
        ((t.wing w).lane lane.toNat).role =
          (if 3 ≤ v.fails.toNat then .retired else .training) ∧
        (t.wing w).ctr cLaneFail = (s.wing w).ctr cLaneFail + 1) ∧
    ((s.wing w).passageRuns = true → ∀ lock, v.rxlock = false ∨ lock = true ∨ v.used = false →
      ∃ t, exec (.psgRxlock w lane lock) s = .next t ∧ s.onlyWing t w ∧ t.out = [] ∧
        (t.wing w).lane lane.toNat = { v with rxlock := lock } ∧ (t.wing w).regs.ctr = (s.wing w).regs.ctr) ∧
    (∀ x : BitVec 2048, (s.wing w).passageRuns = true → v.role = .training →
      (syncFound x = true → headerOk x = true → (blockHdr x).blk = 7 → (blockHdr x).lane = lane →
        blockData x = some (trainingData lane.toNat, 0) →
        ∃ t, exec (.trainingBlock w lane x) s = .next t ∧ s.onlyWing t w ∧
          ((t.wing w).lane lane.toNat).role = .training ∧
          ((t.wing w).lane lane.toNat).good = v.good + 1 ∧
          ((t.wing w).lane lane.toNat).locked = (v.locked || decide (63 ≤ v.good)) ∧
          ((t.wing w).lane lane.toNat).peerLocked = (blockHdr x).nak.getLsbD 7 ∧
          ((t.wing w).lane lane.toNat).shown = (if (blockHdr x).nak.getLsbD 7 then v.shown + 1 else 0)) ∧
      (headerOk x = false → ∃ t, exec (.trainingBlock w lane x) s = .next t ∧ s.onlyWing t w ∧ t.out = [] ∧
        ((t.wing w).lane lane.toNat).role = .training ∧ ((t.wing w).lane lane.toNat).good = 0 ∧
        ((t.wing w).lane lane.toNat).shown = 0 ∧ ((t.wing w).lane lane.toNat).locked = v.locked)) ∧
    ((s.wing w).passageRuns = false →
      (∀ lock, ∃ t, exec (.psgRxlock w lane lock) s = .next t ∧ s.onlyWing t w ∧ t.wing w = { s.wing w with out := [] }) ∧
      ∀ x, ∃ t, exec (.trainingBlock w lane x) s = .next t ∧ s.onlyWing t w ∧ t.wing w = { s.wing w with out := [] }))

/-! ## Claims, takeover and return -/

/-- R257 to R259, R306: an invariant that every step keeps: a wing's claim number has the parity of its side, and is not greater
than the greatest claim that it has seen. So no two wings ever hold the same claim. A VOTE_WALK is left out that finds two
copies of a claim, or of the greatest claim seen, wrong in the same bit: what it leaves is what the upsets made of them (log
16). -/
def Obligations.ClaimsStayApart : Prop :=
  (∀ s t : State, s.claimsSound →
    (∀ w fs, s.pending.head? = some (.voteWalk w fs) → ∀ f ∈ fs, f.code = 1 ∨ f.code = 2 → voteMajority f = 0) →
    step s = .next t → t.claimsSound) ∧
  ∀ s : State, s.claimsSound → s.east.ctl.claim ≠ s.west.ctl.claim

/-- R13, R25, R260, R261: at ACK_DEADLINE the frame before is acknowledged, or missing; after four missing ones STANDBY_LOST, in
the next tick, leaves the active wing in simplex with its frames provisional, and raises its claim only where HB_LIMIT exceeds
4; a second release and a porch's answer commit them (PROVISIONAL_COMMIT). Where these conditions do not hold nothing changes. -/
def Obligations.LossOfTheStandby : Prop :=
  ∀ (s : State) (w : WingId),
    ((s.wing w).isActive = true →
      ((s.wing w).ctl.duplex = true → (s.wing w).ctl.hasTick = true →
        ((s.wing w).psg.ackedValid = true ∧ (s.wing w).now.toNat ≤ (s.wing w).psg.acked.toNat + 1 →
          ∃ t, exec (.ackDeadline w) s = .next t ∧ s.onlyWing t w ∧ t.out = [] ∧
            t.wing w = { s.wing w with psg := { (s.wing w).psg with missing := 0, ackClosed := true }, out := [] }) ∧
        (¬ ((s.wing w).psg.ackedValid = true ∧ (s.wing w).now.toNat ≤ (s.wing w).psg.acked.toNat + 1) →
          ∃ t, exec (.ackDeadline w) s = .next t ∧ s.onlyWing t w ∧ t.out = [] ∧
            t.wing w = { s.wing w with
              psg := { (s.wing w).psg with missing := (s.wing w).psg.missing + 1, ackClosed := true }, out := [] })) ∧
      ((s.wing w).ctl.duplex = true → 4 ≤ (s.wing w).psg.missing → (s.wing w).psg.ackClosed = false →
        (s.wing w).ctl.seen.toNat + 2 < 2 ^ 32 →
        ∃ t, exec (.standbyLost w) s = .next t ∧ s.onlyWing t w ∧ (t.wing w).ctl.duplex = false ∧
          (t.wing w).ctl.prov = some { releases := 0, answered := false } ∧
          (t.wing w).ctr cStandbyLost = (s.wing w).ctr cStandbyLost + 1 ∧
          (t.wing w).regs.tkoLog = logFirst (s.wing w).regs.tkoLog (tkoEntry tkStandbyLost (s.wing w).now) ∧
          ((s.wing w).hbLimit ≤ 4 → (t.wing w).ctl.claim = (s.wing w).ctl.claim ∧ t.out = []) ∧
          (4 < (s.wing w).hbLimit → (s.wing w).ctl.seen.toNat < (t.wing w).ctl.claim.toNat ∧
            (t.wing w).ctl.claim.toNat ≤ (s.wing w).ctl.seen.toNat + 2 ∧
            (t.wing w).ctl.claim.toNat % 2 = (if (s.wing w).id = .west then 1 else 0) ∧
            (t.wing w).ctl.seen = (t.wing w).ctl.claim)) ∧
      (∀ p, (s.wing w).ctl.prov = some p → 2 ≤ p.releases → p.answered = true → (s.wing w).ctl.refused = false →
        ∃ t, exec (.provisionalCommit w) s = .next t ∧ s.onlyWing t w ∧ t.out = [] ∧
          t.wing w = { s.wing w with ctl := { (s.wing w).ctl with prov := none }, out := [] })) ∧
    ((s.wing w).ctl.role ≠ .active ∨ (s.wing w).ctl.duplex = false →
      ∃ t, exec (.ackDeadline w) s = .next t ∧ s.onlyWing t w ∧ t.out = [] ∧ t.wing w = { s.wing w with out := [] }) ∧
    ((s.wing w).isActive = false ∨ (s.wing w).ctl.duplex = false ∨ (s.wing w).psg.missing < 4 ∨ (s.wing w).psg.ackClosed = true →
      ∃ t, exec (.standbyLost w) s = .next t ∧ s.onlyWing t w ∧ t.out = [] ∧ t.wing w = { s.wing w with out := [] }) ∧
    ((s.wing w).isActive = false ∨ (s.wing w).ctl.refused = true ∨ (s.wing w).ctl.prov = none →
      ∃ t, exec (.provisionalCommit w) s = .next t ∧ s.onlyWing t w ∧ t.out = [] ∧ t.wing w = { s.wing w with out := [] })

/-- R26, R257, R263, R277 to R279: TAKEOVER: when HB_LIMIT heartbeats are missing a standby takes the active role with the least
claim of its parity above every value seen, sends it to every porch that is up, and keeps every context, dirty; a joining wing
takes it in recovery mode if the walk's mark has come, and is an ORPHAN otherwise; a spent wing stays JOINING (R355). A joining
wing that has not seen an active wing since its reset has none to lose (DEDUCED, log 39): it goes on, as does a wing that has
missed fewer heartbeats. -/
def Obligations.TakeoverRaisesTheClaim : Prop :=
  ∀ (s : State) (w : WingId),
    ((s.wing w).running = true → (s.wing w).hbLimit ≤ (s.wing w).psg.hbMiss → (s.wing w).ctl.seen.toNat + 2 < 2 ^ 32 →
      (s.wing w).ctl.role = .standby ∨
        (s.wing w).ctl.role = .joining ∧ (s.wing w).inBringUp = false ∧ (s.wing w).int.spent = false ∧
          (s.wing w).ctl.mark = true →
      ∃ t, exec (.takeover w) s = .next t ∧ s.onlyWing t w ∧ (t.wing w).ctl.role = .active ∧ (t.wing w).ctl.duplex = false ∧
        (s.wing w).ctl.seen.toNat < (t.wing w).ctl.claim.toNat ∧ (t.wing w).ctl.claim.toNat ≤ (s.wing w).ctl.seen.toNat + 2 ∧
        (t.wing w).ctl.claim.toNat % 2 = (if (s.wing w).id = .west then 1 else 0) ∧ (t.wing w).ctl.seen = (t.wing w).ctl.claim ∧
        (t.wing w).ctr cTakeover = (s.wing w).ctr cTakeover + 1 ∧ (t.wing w).ctl.writesHeld = true ∧
        (t.wing w).ctl.recovery = ((s.wing w).ctl.role == .joining) ∧
        (∀ p ∈ (s.wing w).upPorches, Out.w2p (s.wing w).id p 3 (claimRaiseBeat (t.wing w).ctl.claim) ∈ t.out) ∧
        ((s.wing w).ctl.role = .standby → (t.wing w).pan.slots = (s.wing w).pan.slots.map fun e =>
          (e.1, { e.2 with ctx := { e.2.ctx with dirty := true, dirtyAt := (s.wing w).now, wbFresh := false } }))) ∧
    ((s.wing w).running = true → (s.wing w).hbLimit ≤ (s.wing w).psg.hbMiss → (s.wing w).ctl.role = .joining →
      (s.wing w).inBringUp = false → (s.wing w).int.spent = false → (s.wing w).ctl.mark = false →
      ∃ t, exec (.takeover w) s = .next t ∧ s.onlyWing t w ∧ (t.wing w).ctl.role = .orphan ∧
        (t.wing w).ctl.claim = (s.wing w).ctl.claim) ∧
    ((s.wing w).running = false ∨ (s.wing w).psg.hbMiss < (s.wing w).hbLimit ∨ (s.wing w).ctl.role = .active ∨
        (s.wing w).ctl.role = .orphan ∨
        (s.wing w).ctl.role = .joining ∧ ((s.wing w).inBringUp = true ∨ (s.wing w).int.spent = true) →
      ∃ t, exec (.takeover w) s = .next t ∧ s.onlyWing t w ∧ t.out = [] ∧ t.wing w = { s.wing w with out := [] })

/-- R265: the held writes begin once a porch has answered (TAKEOVER_WRITES). R280: recovery mode ends when no context is left to
be read again and no RECHECK record of the resync waits (RECOVERY_MODE_END). R271: a joining peer is copied from the walk's
start (RESYNC_START), and a walk of a silent peer is dropped (RESYNC_ABORT). Where these conditions do not hold nothing changes. -/
def Obligations.WritesRecoveryAndResync : Prop :=
  ∀ (s : State) (w : WingId),
    ((s.wing w).isActive = true → (s.wing w).ctl.writesHeld = true → (s.wing w).ctl.refused = false →
      ((s.wing w).ctl.tkoPhase = none ∧ (s.wing w).ctl.answered = true ∨ (s.wing w).ctl.tkoPhase = some 9) →
      ∃ t, exec (.takeoverWrites w) s = .next t ∧ s.onlyWing t w ∧ (t.wing w).ctl = { (s.wing w).ctl with writesHeld := false } ∧
        (t.wing w).pan = (s.wing w).pan) ∧
    ((s.wing w).isActive = false ∨ (s.wing w).ctl.writesHeld = false ∨ (s.wing w).ctl.refused = true →
      ∃ t, exec (.takeoverWrites w) s = .next t ∧ s.onlyWing t w ∧ t.wing w = { s.wing w with out := [] }) ∧
    ((s.wing w).ctl.recovery = false ∨ (s.wing w).pan.reloads ≠ [] ∨ (s.wing w).recheckWaits = true →
      ∃ t, exec (.recoveryModeEnd w) s = .next t ∧ s.onlyWing t w ∧ t.wing w = { s.wing w with out := [] }) ∧
    ((s.wing w).isActive = false ∨ (s.wing w).ctl.sendPos ≠ none ∨ (s.wing w).ctl.duplex = true ∨
        (s.wing w).psg.peerJoining = false ∨ (s.wing w).autoResync = false ∨ (s.wing w).forced = true ∨
        lanesIn (s.wing w).psg.map = 0 ∨ (s.wing (otherWing w)).ctl.suspect = true ∨ (s.wing (otherWing w)).int.spent = true →
      ∃ t, exec (.resyncStart w) s = .next t ∧ s.onlyWing t w ∧ t.wing w = { s.wing w with out := [] }) ∧
    ((s.wing w).isActive = false ∨ (s.wing w).ctl.sendPos = none ∨ (s.wing w).ctl.rsySilent < (s.wing w).hbLimit →
      ∃ t, exec (.resyncAbort w) s = .next t ∧ s.onlyWing t w ∧ t.wing w = { s.wing w with out := [] }) ∧
    ((s.wing w).ctl.recovery = true → (s.wing w).pan.reloads = [] → (s.wing w).recheckWaits = false →
      ∃ t, exec (.recoveryModeEnd w) s = .next t ∧ s.onlyWing t w ∧ t.out = [] ∧
        t.wing w = { s.wing w with ctl := { (s.wing w).ctl with recovery := false }, out := [] }) ∧
    ((s.wing w).isActive = true → (s.wing w).ctl.sendPos = none → (s.wing w).ctl.duplex = false →
      (s.wing w).psg.peerJoining = true → (s.wing w).autoResync = true → (s.wing w).forced = false → 0 < lanesIn (s.wing w).psg.map →
      (s.wing (otherWing w)).ctl.suspect = false → (s.wing (otherWing w)).int.spent = false →
      ∃ t, exec (.resyncStart w) s = .next t ∧ s.onlyWing t w ∧ t.out = [] ∧ (t.wing w).ctl.sendPos = some 0 ∧
        (t.wing w).ctr cResyncStart = (s.wing w).ctr cResyncStart + 1 ∧
        (t.wing w).psg.copies.length = min (s.wing w).frameSlots backlogAt) ∧
    (∀ i, (s.wing w).isActive = true → (s.wing w).ctl.sendPos = some i → (s.wing w).hbLimit ≤ (s.wing w).ctl.rsySilent →
      ∃ t, exec (.resyncAbort w) s = .next t ∧ s.onlyWing t w ∧ t.out = [] ∧ (t.wing w).ctl.sendPos = none ∧
        (t.wing w).psg.peerJoining = false ∧
        (t.wing w).psg.copies = [] ∧ (t.wing w).ctr cResyncAbort = (s.wing w).ctr cResyncAbort + 1 ∧
        (t.wing w).pan = (s.wing w).pan)

/-- R276: once the joining wing has applied the walk's last frame it is STANDBY and acknowledges it, and the active wing is in
duplex two ticks after it (RESYNC_DONE). R282, R283: the active wing, when its count of stable ticks reaches 2^22, names the
tick of a handover eight ticks ahead in TKO_HANDOVER (HANDOVER_SCHEDULE); from the tick after it the standby raises its claim,
once, and takes the active role, in duplex, as soon as it has applied that frame (HANDOVER). Where these conditions do not hold
nothing changes. -/
def Obligations.ResyncAndHandoverChangeRoles : Prop :=
  ∀ (s : State) (w : WingId),
    ((s.wing w).running = true → (s.wing w).ctl.role = .joining → (s.wing w).ctl.joinPos = some walkEnd → (s.wing w).psg.hold = [] → (s.wing w).pan.reloads = [] →
      (∀ f ∈ (s.wing w).psg.rx, (s.wing w).ctl.joinTick.toNat < f.tick.toNat) → (s.wing w).psg.ackValid = false →
      ∃ t, exec (.resyncDone w) s = .next t ∧ s.onlyWing t w ∧ t.out = [] ∧ (t.wing w).ctl.role = .standby ∧
        (t.wing w).psg.ackValid = true ∧ (t.wing w).psg.ack = (s.wing w).ctl.joinTick ∧
        (t.wing w).ctr cResyncDone = (s.wing w).ctr cResyncDone + 1 ∧ (t.wing w).pan.slots = (s.wing w).pan.slots) ∧
    ((s.wing w).isActive = true → (s.wing w).ctl.sendPos = some walkEnd → (s.wing w).ctl.backlog = [] →
      (s.wing w).ctl.joinTick.toNat + 2 ≤ (s.wing w).now.toNat →
      ∃ t, exec (.resyncDone w) s = .next t ∧ s.onlyWing t w ∧ t.out = [] ∧ (t.wing w).ctl.role = .active ∧
        (t.wing w).ctl.duplex = true ∧ (t.wing w).ctl.sendPos = none ∧
        (t.wing w).ctr cResyncDone = (s.wing w).ctr cResyncDone + 1 ∧ (t.wing w).pan = (s.wing w).pan) ∧
    ((s.wing w).isActive = true → (s.wing w).ctl.stable.toNat = 2 ^ 22 → (s.wing w).autoReturn = true →
      (s.wing w).handoverPending = false → (s.wing w).ctl.returning = false →
      ∃ (t : State) (a b : RegwRec), exec (.handoverSchedule w) s = .next t ∧ s.onlyWing t w ∧ t.out = [] ∧
        t.wing w = { s.wing w with
          ctl := { (s.wing w).ctl with returning := true }
          psg := { (s.wing w).psg with defr := (s.wing w).psg.defr ++ [.regw a, .regw b] }, out := [] } ∧
        a.space = 0 ∧ b.space = 0 ∧ a.addr.toNat = oTkoHandover ∧ b.addr.toNat = oTkoHandover + 4 ∧ a.dualPend = false ∧ b.dualPend = false ∧
        (b.val ++ a.val : DWord) = 0b1#1 ++ 0#7 ++ ((s.wing w).now + 8)) ∧
    ((s.wing w).isStandby = true → (s.wing w).handoverPending = true →
      (s.wing w).handoverTick.toNat < (s.wing w).now.toNat → (s.wing w).ctl.seen.toNat + 2 < 2 ^ 32 →
      ∃ t, exec (.handover w) s = .next t ∧ s.onlyWing t w ∧
        ((s.wing w).psg.ackValid = true → (s.wing w).psg.ack = (s.wing w).handoverTick →
          (t.wing w).ctl.role = .active ∧ (t.wing w).ctl.duplex = true ∧ (t.wing w).ctr cReturn = (s.wing w).ctr cReturn + 1) ∧
        ((s.wing w).psg.ackValid = false ∨ (s.wing w).psg.ack ≠ (s.wing w).handoverTick →
          (t.wing w).ctl.role = .standby ∧ (t.wing w).pan = (s.wing w).pan ∧ (t.wing w).vst = (s.wing w).vst) ∧
        (t.wing w).ctl.seen = (t.wing w).ctl.claim ∧
        ((s.wing w).ctl.claim = (s.wing w).ctl.seen → (t.wing w).ctl.claim = (s.wing w).ctl.claim) ∧
        ((s.wing w).ctl.claim ≠ (s.wing w).ctl.seen →
          (s.wing w).ctl.seen.toNat < (t.wing w).ctl.claim.toNat ∧ (t.wing w).ctl.claim.toNat ≤ (s.wing w).ctl.seen.toNat + 2 ∧
          (t.wing w).ctl.claim.toNat % 2 = (if (s.wing w).id = .west then 1 else 0) ∧
          ∀ p ∈ (s.wing w).upPorches, Out.w2p (s.wing w).id p 3 (claimRaiseBeat (t.wing w).ctl.claim) ∈ t.out)) ∧
    ((s.wing w).running = false ∨ (s.wing w).ctl.joinPos ≠ some walkEnd ∧ (s.wing w).ctl.sendPos ≠ some walkEnd →
      ∃ t, exec (.resyncDone w) s = .next t ∧ s.onlyWing t w ∧ t.wing w = { s.wing w with out := [] }) ∧
    ((s.wing w).isActive = false ∨ (s.wing w).ctl.stable.toNat ≠ 2 ^ 22 ∨ (s.wing w).autoReturn = false ∨
        (s.wing w).handoverPending = true ∨ (s.wing w).ctl.returning = true →
      ∃ t, exec (.handoverSchedule w) s = .next t ∧ s.onlyWing t w ∧ t.wing w = { s.wing w with out := [] }) ∧
    ((s.wing w).isStandby = false ∨ (s.wing w).handoverPending = false ∨
        (s.wing w).now.toNat ≤ (s.wing w).handoverTick.toNat →
      ∃ t, exec (.handover w) s = .next t ∧ s.onlyWing t w ∧ t.wing w = { s.wing w with out := [] })

/-! ## Power and the hearth -/

/-- R292, R294: LEVEL_CHOICE: the study's choice at a multiple of 64 ticks. No decision is taken while a LEVEL record is
outstanding or within 64 ticks of the last change; FIXED_LEVEL without LEVEL_AUTO; above three quarters of the budget the
slowest level whose budget has a quarter to spare; always within the limits. STUDY_VOTE votes NAP from 16 times NAP_DELAY quiet
ticks on, and with DEEP_EN casts no vote from 4,096 times DEEP_DELAY on. In another tick, and in a wing that is not active,
nothing changes. R289, R290: LEVEL_CHANGE: PWR_VOK is checked at the close of tick L-1; at the first cycle of L the level of the
record is in force, with its voltage code, its clock, body bias and SRAM assist (R288), and the budget of the new level from
tick L on; a raise whose PWR_VOK is 0 leaves the level as it is, sets VFAIL, and counts; the active wing then names its own
level again two ticks later, and a standby withdraws. With no change due nothing happens. That LEVEL_CHANGE comes at the close
of L-1 with PWR_VOK, and again in L, is read from the spec (log 47), and so is the bias after a failed raise (log 118). -/
def Obligations.LevelsAreChosenAndChange : Prop :=
  (∀ (s : State) (w : WingId),
    ((s.wing w).isActive = false ∨ (s.wing w).now.toNat % 64 ≠ 0 →
      ∃ t, exec (.levelChoice w) s = .next t ∧ s.onlyWing t w ∧ t.out = [] ∧ t.wing w = { s.wing w with out := [] }) ∧
    ((s.wing w).isActive = false →
      ∃ t, exec (.studyVote w) s = .next t ∧ s.onlyWing t w ∧ t.out = [] ∧ t.wing w = { s.wing w with out := [] }) ∧
    ((s.wing w).isActive = true → (s.wing w).now.toNat % 64 = 0 →
      ((s.wing w).levelOut = true ∨ (s.wing w).levelFresh = true →
        ∃ t, exec (.levelChoice w) s = .next t ∧ s.onlyWing t w ∧ t.out = [] ∧
          t.wing w = { s.wing w with pwr := { (s.wing w).pwr with slowRun := 0 }, out := [] }) ∧
      (∀ l : Level, (s.wing w).levelOut = false → (s.wing w).levelFresh = false →
        ((s.wing w).levelAuto = false ∧ l.code = (s.wing w).fixedLevel ∨
          (s.wing w).levelAuto = true ∧ 3 * (s.wing w).levelBudget (s.wing w).pwr.level < 4 * (s.wing w).pwr.dmax ∧
            (s.wing w).pwr.dmax + ((s.wing w).pwr.dmax + 3) / 4 ≤ (s.wing w).levelBudget l ∧
            ∀ k : Level, l.code.toNat < k.code.toNat →
              (s.wing w).levelBudget k < (s.wing w).pwr.dmax + ((s.wing w).pwr.dmax + 3) / 4) →
        ∃ t, exec (.levelChoice w) s = .next t ∧ s.onlyWing t w ∧ t.out = [] ∧ (t.wing w).pwr.slowRun = 0 ∧
          (t.wing w).pwr.want =
            (if (s.wing w).permitted l = (s.wing w).pwr.level then none else some ((s.wing w).permitted l)) ∧
          t.wing w = { s.wing w with
            pwr := { (s.wing w).pwr with slowRun := 0, want := (t.wing w).pwr.want }, out := [] })) ∧
    ((s.wing w).isActive = true → ∃ t, exec (.studyVote w) s = .next t ∧ s.onlyWing t w ∧ t.out = [] ∧
      t.wing w = { s.wing w with pwr := { (s.wing w).pwr with studyNap := (t.wing w).pwr.studyNap }, out := [] } ∧
      ((t.wing w).pwr.studyNap = 0 ↔
        (s.wing w).napDelay = 0 ∨ (s.wing w).pwr.quiet.toNat < 16 * (s.wing w).napDelay ∨ (s.wing w).pwr.quiet = 0) ∧
      ((t.wing w).pwr.studyNap = 2 ↔ (s.wing w).napDelay ≠ 0 ∧ 16 * (s.wing w).napDelay ≤ (s.wing w).pwr.quiet.toNat ∧
        (s.wing w).pwr.quiet ≠ 0 ∧ (s.wing w).deepEn = true ∧ (s.wing w).deepDelay * 4096 ≤ (s.wing w).pwr.quiet.toNat))) ∧
  (∀ (s : State) (w : WingId) (vok : Bool),
    (∀ l : Level, (s.wing w).running = true → (s.wing w).pwr.next = some (l, (s.wing w).now) →
      ((s.wing w).pwr.level.code.toNat ≤ l.code.toNat ∨ vok = true →
        ∃ t, exec (.levelChange w vok) s = .next t ∧ s.onlyWing t w ∧ t.out = [] ∧ (t.wing w).pwr.level = l ∧
          (t.wing w).pwr.vsel = l.code.setWidth 3 ∧ (t.wing w).pwr.next = none ∧ (t.wing w).pwr.lastL = (s.wing w).now ∧
          (t.wing w).pwr.given = (t.wing w).budget ∧
          (t.wing w).vst.arrLeft = (t.wing w).budget - ((s.wing w).pwr.given - (s.wing w).vst.arrLeft) ∧
          (t.wing w).pwr.bias = l.bias ∧ (t.wing w).pwr.assist = l.assist ∧ (t.wing w).pwr.divider = l.divider ∧
          (t.wing w).ctr cLevelChanges = (s.wing w).ctr cLevelChanges + (if l = (s.wing w).pwr.level then 0 else 1)) ∧
      (l.code.toNat < (s.wing w).pwr.level.code.toNat → vok = false →
        ∃ t, exec (.levelChange w vok) s = .next t ∧ s.onlyWing t w ∧
          (t.wing w).pwr.level = (s.wing w).pwr.level ∧ (t.wing w).pwr.vfail = true ∧
          (t.wing w).pwr.vsel = (s.wing w).pwr.level.code.setWidth 3 ∧ (t.wing w).pwr.next = none ∧
          (t.wing w).pwr.bias = (s.wing w).pwr.level.bias ∧ (t.wing w).ctr cVfail = (s.wing w).ctr cVfail + 1 ∧
          ((s.wing w).ctl.role = .active → t.out = [] ∧ (t.wing w).psg.defr = (s.wing w).psg.defr ++
            [.level { level := (s.wing w).pwr.level.code, tick := (s.wing w).now + 2 }]) ∧
          ((s.wing w).ctl.role = .standby → (t.wing w).ctl.role = .joining))) ∧
    (∀ l : Level, (s.wing w).running = true → (s.wing w).pwr.next = some (l, (s.wing w).now + 1) →
      ∃ t, exec (.levelChange w vok) s = .next t ∧ s.onlyWing t w ∧ t.out = [] ∧
        t.wing w = { s.wing w with pwr := { (s.wing w).pwr with vok := some vok }, out := [] }) ∧
    ((s.wing w).running = false ∨ (s.wing w).pwr.next = none →
      ∃ t, exec (.levelChange w vok) s = .next t ∧ s.onlyWing t w ∧ t.out = [] ∧ t.wing w = { s.wing w with out := [] }))

/-- R299, R303, R304, R310: NAP_ENTRY: an active wing's entry to Nap at E, where nothing refuses it, ends the tick's budgets and
the pair's pending change; with no quiet tick behind it a wing in simplex refuses the entry with reason QUIET, logged and
counted, and goes on; NAP_WAKE: a wake in Nap names X twelve ticks later, and one during an entry is kept and counted;
RETENTION_MONITOR_TRIP is kept in Nap. Where no entry is due, and for a wing that does not sleep, nothing changes. How a refusal
undoes the pair's entry is read from the spec (log 52), and so is the order in which the reasons of R303 are tried (log 57).
R302, R304: NAP_EXIT: at X a wing in Nap, or in an entry that was aborted, is in Run; before X, and in any other wing, nothing
changes. -/
def Obligations.NapEntriesWakesAndExits : Prop :=
  (∀ (s : State) (w : WingId),
    ((s.wing w).running = true → (s.wing w).changeDue 1 = true → (s.wing w).ctl.role = .active →
      ((s.wing w).entryRefusal false = none →
        ∃ t, exec (.napEntry w) s = .next t ∧ s.onlyWing t w ∧ (t.wing w).life = .napEntry ∧
          (t.wing w).pwr.enterTick = (s.wing w).now ∧ (t.wing w).vst.arrLeft = 0 ∧ (t.wing w).vst.clmLeft = 0 ∧
          (t.wing w).vst.cmpLeft = 0 ∧ (t.wing w).pairPending = false ∧ (t.wing w).pwr.sched = none) ∧
      ((s.wing w).pwr.quiet = 0 → (s.wing w).ctl.duplex = false →
        ∃ t, exec (.napEntry w) s = .next t ∧ s.onlyWing t w ∧ t.out = [] ∧ (t.wing w).life = .run ∧
          (t.wing w).pwr.refuseLog = logFirst (s.wing w).pwr.refuseLog (refuseEntry (rfWing (s.wing w).id) 1 rsQuiet (s.wing w).now) ∧
          (t.wing w).ctr (match (s.wing w).id with
            | .east => cRefuseEast
            | .west => cRefuseWest) = (s.wing w).ctr (match (s.wing w).id with
            | .east => cRefuseEast
            | .west => cRefuseWest) + 1 ∧
          (t.wing w).vst = (s.wing w).vst ∧ (t.wing w).pan = (s.wing w).pan ∧ (t.wing w).psg = (s.wing w).psg)) ∧
    ((s.wing w).running = false ∨ (s.wing w).changeDue 1 = false →
      ∃ t, exec (.napEntry w) s = .next t ∧ s.onlyWing t w ∧ t.out = [] ∧ t.wing w = { s.wing w with out := [] }) ∧
    (∀ c : WakeCause, (s.wing w).pwr.sched ≠ none ∨ (s.wing w).running = true →
      ∃ t, exec (.napWake w c) s = .next t ∧ s.onlyWing t w ∧ t.out = [] ∧ t.wing w = { s.wing w with out := [] }) ∧
    (∀ b : BitVec 7, (s.wing w).life ≠ .nap → (s.wing w).life ≠ .napEntry →
      ∃ t, exec (.retentionMonitorTrip w b) s = .next t ∧ s.onlyWing t w ∧ t.out = [] ∧ t.wing w = { s.wing w with out := [] }) ∧
    (∀ c : WakeCause, (s.wing w).pwr.sched = none →
      ((s.wing w).life = .nap → (s.wing w).ctl.role ≠ .standby →
        ∃ t, exec (.napWake w c) s = .next t ∧ s.onlyWing t w ∧ t.out = [] ∧ (t.wing w).life = .nap ∧
          (t.wing w).pwr.sched = some (0, (s.wing w).now + 12) ∧ (t.wing w).pwr.wake = wakeWord false false c ∧
          (t.wing w).pwr.wakeTick = (s.wing w).now.setWidth 64) ∧
      ((s.wing w).life = .nap → (s.wing w).ctl.role = .standby → c.source ≠ 0x9 → (s.wing w).pwr.pendWake = none →
        ∃ t, exec (.napWake w c) s = .next t ∧ s.onlyWing t w ∧ t.out = [] ∧
          t.wing w = { s.wing w with pwr := { (s.wing w).pwr with pendWake := some (false, c) }, out := [] }) ∧
      ((s.wing w).life = .napEntry ∨ (s.wing w).life = .deepEntry → (s.wing w).pwr.pendWake = none →
        ∃ t, exec (.napWake w c) s = .next t ∧ s.onlyWing t w ∧ t.out = [] ∧ (t.wing w).life = (s.wing w).life ∧
          (t.wing w).pwr.pendWake = some (true, c) ∧
          (t.wing w).ctr cWakeDuringEntry = (s.wing w).ctr cWakeDuringEntry + 1)) ∧
    (∀ b : BitVec 7, (s.wing w).life = .nap ∨ (s.wing w).life = .napEntry →
      ∃ t, exec (.retentionMonitorTrip w b) s = .next t ∧ s.onlyWing t w ∧ t.out = [] ∧
        (∀ x, x ∈ (t.wing w).pwr.tripped ↔ x ∈ (s.wing w).pwr.tripped ∨ x = b) ∧
        t.wing w = { s.wing w with pwr := { (s.wing w).pwr with tripped := (t.wing w).pwr.tripped }, out := [] })) ∧
  (∀ (s : State) (w : WingId) (bad : List (BitVec 7)) (ecc : List EccFind),
    ((s.wing w).life = .nap ∨ (s.wing w).life = .napEntry → (s.wing w).changeDue 0 = true →
      ∃ t, exec (.napExit w bad ecc) s = .next t ∧ s.onlyWing t w ∧ (t.wing w).life = .run ∧ (t.wing w).pwr.tripped = [] ∧
        (t.wing w).now = (s.wing w).now) ∧
    (((s.wing w).life ≠ .nap ∧ (s.wing w).life ≠ .napEntry) ∨ (s.wing w).changeDue 0 = false →
      ∃ t, exec (.napExit w bad ecc) s = .next t ∧ s.onlyWing t w ∧ t.out = [] ∧ t.wing w = { s.wing w with out := [] }))

/-- R303, R305, R306, R324, R332, R404: DEEP_ENTRY starts in the active wing and turns a standby off. At the boundaries the
active wing writes its save area once every write-back is accepted, then begins step 4, with the anchor, and then is off;
HRT_DEEP rises. DEEP_WAKE: a set alarm latch, the lowest line of them, before PWR_WAKE_IN, is recorded with the raw counter;
HRT_DEEP falls, and the wing waits for a raw edge. At the boundary at which its counter then starts the home wing restores the
pair: a save area that fails its checks leaves it out of service, and one that passes makes it active with a claim above the
saved value. The other wing waits from there 4,096 ticks (DEEP_JOIN_TIMEOUT), and then restores the pair itself. With none of
these due nothing changes. What a wing keeps over Deep is read from the spec (log 49); that steps 5 to 7 of R306 take no time is
the model's choice (log 50). -/
def Obligations.DeepTurnsOffAndRestores : Prop :=
  (∀ (s : State) (w : WingId),
    ((s.wing w).running = true → (s.wing w).changeDue 2 = true → (s.wing w).entryRefusal true = none →
      ((s.wing w).ctl.role = .active → ∃ t, exec (.deepEntry w) s = .next t ∧ s.onlyWing t w ∧ (t.wing w).life = .deepEntry ∧
        (t.wing w).pwr.enterTick = (s.wing w).now ∧ (t.wing w).pwr.saveAt = none ∧ (t.wing w).pwr.offAt = none) ∧
      ((s.wing w).ctl.role = .standby → ∃ t, exec (.deepEntry w) s = .next t ∧ s.onlyWing t w ∧ (t.wing w).life = .deep ∧
        (t.wing w).ctr cDeepEntries = (s.wing w).ctr cDeepEntries + 1 ∧ (t.wing w).pan.slots = [] ∧
        (t.wing w).ctl.claim = (s.wing w).ctl.claim ∧ (t.wing w).ctl.seen = (s.wing w).ctl.seen ∧
        Out.hrtDeep (s.wing w).id true ∈ t.out)) ∧
    ((s.wing w).running = false ∨ (s.wing w).changeDue 2 = false →
      ∃ t, exec (.deepEntry w) s = .next t ∧ s.onlyWing t w ∧ t.out = [] ∧ t.wing w = { s.wing w with out := [] }) ∧
    (∀ (c : WakeCause) (save : Option SaveArea),
      ((s.wing w).life ≠ .deep ∨ (s.wing w).hrt.powered = false ∨ ((s.wing w).hrt.lowestLatch = none ∧ c.source ≠ 0xA) →
        ∃ t, exec (.deepWake w c save) s = .next t ∧ s.onlyWing t w ∧ t.out = [] ∧ t.wing w = { s.wing w with out := [] }) ∧
      (∀ x : WakeCause, (s.wing w).life = .deep → (s.wing w).hrt.powered = true →
        ((∃ i, (s.wing w).hrt.lowestLatch = some i ∧ x = { source := 0x5, detail := BitVec.ofNat 12 i }) ∨
          ((s.wing w).hrt.lowestLatch = none ∧ c.source = 0xA ∧ x = c)) →
        ∃ t, exec (.deepWake w c save) s = .next t ∧ s.onlyWing t w ∧ (t.wing w).life = .deepWake ∧
          (t.wing w).ctl.hasTick = (s.wing w).ctl.hasTick ∧ (t.wing w).ctl.rawWait ≠ none ∧
          (t.wing w).ctl.saved = (if (s.wing w).saveValid then save else none) ∧
          (t.wing w).pwr.level = Level.ofCode (s.wing w).fastLimit ∧
          (t.wing w).pwr.vsel = (Level.ofCode (s.wing w).fastLimit).code.setWidth 3 ∧
          (t.wing w).pwr.wake = wakeWord false true x ∧
          (t.wing w).hrt.wake = hrtWakeWord x.source (if x.source = 0x5 then x.detail.extractLsb' 0 4 else 0) (s.wing w).hrt.raw ∧
          Out.hrtDeep (s.wing w).id false ∈ t.out)) ∧
    (∀ (ecc : List EccFind) (tk : Tick), (s.wing w).life = .deepWake → (s.wing w).ctl.tickDue = some tk →
      ((s.wing w).isHome = true → (∀ a, (s.wing w).ctl.saved = some a → readTrailer a = none) →
        ∃ t, exec (.tickBoundary w ecc) s = .next t ∧ (t.wing w).life = .outOfService ∧ (t.wing w).pwr.restoreFail = true) ∧
      (∀ a c0 seen e, (s.wing w).isHome = true → (s.wing w).ctl.saved = some a → readTrailer a = some (c0, seen, e) →
        seen.toNat + 2 < 2 ^ 32 →
        ∃ t, exec (.tickBoundary w ecc) s = .next t ∧ (t.wing w).life = .run ∧ (t.wing w).ctl.role = .active ∧ (t.wing w).now = tk ∧
          (t.wing w).ctl.duplex = false ∧ seen.toNat < (t.wing w).ctl.claim.toNat ∧
          (t.wing w).ctl.claim.toNat ≤ seen.toNat + 2 ∧
          (t.wing w).ctl.claim.toNat % 2 = (if (s.wing w).id = .west then 1 else 0)) ∧
      ((s.wing w).isHome = false →
        ∃ t, exec (.tickBoundary w ecc) s = .next t ∧ (t.wing w).life = .deepWake ∧ (t.wing w).now = tk ∧
          (t.wing w).ctl.hasTick = true ∧ (t.wing w).pwr.waitFrom = tk)) ∧
    ((s.wing w).life = .deepWake → (s.wing w).ctl.hasTick = true → (s.wing w).pwr.waitFrom.toNat + 4096 ≤ (s.wing w).now.toNat →
      (∃ t, exec (.deepJoinTimeout w none) s = .next t ∧ s.onlyWing t w ∧ (t.wing w).life = .outOfService ∧
        (t.wing w).pwr.restoreFail = true) ∧
      ∀ a c0 seen e, (s.wing w).saveValid = true → readTrailer a = some (c0, seen, e) → seen.toNat + 2 < 2 ^ 32 →
        ∃ t, exec (.deepJoinTimeout w (some a)) s = .next t ∧ s.onlyWing t w ∧ (t.wing w).life = .run ∧
          (t.wing w).ctl.role = .active ∧ seen.toNat < (t.wing w).ctl.claim.toNat) ∧
    (∀ save, (s.wing w).life ≠ .deepWake ∨ (s.wing w).ctl.hasTick = false ∨
        (s.wing w).now.toNat < (s.wing w).pwr.waitFrom.toNat + 4096 →
      ∃ t, exec (.deepJoinTimeout w save) s = .next t ∧ s.onlyWing t w ∧ t.out = [] ∧ t.wing w = { s.wing w with out := [] })) ∧
  ∀ v : Wing, v.life = .deepEntry →
    (v.pwr.saveAt = none → v.pwr.enterTick.toNat < v.now.toNat → v.written = true →
      v.arriveDeep = { v with pwr := { v.pwr with saveAt := some v.now, wbRetried := [] }
                              out := v.out ++ [.save v.id v.saveBase v.saveArea] }) ∧
    (∀ x : Tick, v.pwr.saveAt = some x → v.pwr.offAt = none → v.pwr.sleepAt.toNat ≤ v.now.toNat → x.toNat + 101 ≤ v.now.toNat →
      v.arriveDeep.life = .deepEntry ∧ v.arriveDeep.pwr.offAt = some (v.now + 4) ∧
      (v.ctl.hasTick = true → v.ctl.role = .active → v.hrt.powered = true →
        v.arriveDeep.hrt.ancValid = true ∧ v.arriveDeep.hrt.ancTick = v.now)) ∧
    (∀ x y : Tick, v.pwr.saveAt = some x → v.pwr.offAt = some y → y.toNat ≤ v.now.toNat →
      v.arriveDeep.life = .deep ∧ Out.hrtDeep v.id true ∈ v.arriveDeep.out ∧
        v.arriveDeep.ctr cDeepEntries = v.ctr cDeepEntries + 1 ∧ v.arriveDeep.ctl.claim = v.ctl.claim)

/-- R318, R320, R323, R333, R334, R403, R406: what ANCHOR_WRITE, VBAT_CHECK, HRT_CAL_SET, TIME_PAIR and HEARTH_POWER_UP leave in
a hearth, and that they leave the rest of the wing as it is; a wing without a role writes no anchor, a wing in reset answers an
access of its hearth with ERROR, and one in Deep not at all. BACKUP_RAIL_LOSS takes both hearths' state and nothing else. What a
hearth that lost its rail goes on showing (log 54), that HRT_CAL_SET and TIME_PAIR are accesses of the port (log 59), and that
both hearths stand on one rail (log 81), is read from the spec. R319, R320, R328, R333: at RAW_EDGE the raw counter goes up by
one; the calendar takes a value that was set, else goes up by one; every latch that is set takes its stamp once, from the values
after the edge; a pair that was asked for is captured. (What an edge gives a wing that rebuilds its tick counter is stated with
START.) -/
def Obligations.HearthKeepsTime : Prop :=
  (∀ (s : State) (w : WingId) (h : Hearth), h = (s.wing w).hrt →
    (h.powered = true →
      ((s.wing w).ctl.hasTick = false ∨ ((s.wing w).ctl.role ≠ .active ∧ (s.wing w).ctl.role ≠ .standby) ∨
          (s.wing w).running = false ∨ (s.wing w).now.toNat % 65536 ≠ 0 →
        ∃ t, exec (.anchorWrite w) s = .next t ∧ s.onlyWing t w ∧ t.out = [] ∧ t.wing w = { s.wing w with out := [] }) ∧
      ((s.wing w).ctl.hasTick = true → (s.wing w).ctl.role = .active ∨ (s.wing w).ctl.role = .standby → (s.wing w).running = true →
        (s.wing w).now.toNat % 65536 = 0 →
        ∃ t, exec (.anchorWrite w) s = .next t ∧ s.onlyWing t w ∧ t.out = [] ∧
          t.wing w = { s.wing w with
            hrt := { h with
              ancValid := true, ancTick := (s.wing w).now
              ancRaw := if h.ancValid && h.ancTick == (s.wing w).now then h.ancRaw else h.raw }
            out := [] }) ∧
      (∀ mv, ∃ t, exec (.vbatCheck w mv) s = .next t ∧ s.onlyWing t w ∧ t.out = [] ∧
        t.wing w = { s.wing w with
          hrt := { h with railLow := decide (mv.toNat < 2000), vbatLow := h.vbatLow || decide (mv.toNat < 2000) }, out := [] }) ∧
      ((s.wing w).life ≠ .held → (s.wing w).life ≠ .deep →
        (∀ val : DWord,
          ((s.wing w).calLocked = false → ∃ t, exec (.hrtCalSet w val) s = .next t ∧ s.onlyWing t w ∧ t.out = [] ∧
            t.wing w = { s.wing w with hrt := { h with calSet := val.extractLsb' 0 63, calPend := true }, out := [] }) ∧
          ((s.wing w).calLocked = true → ∃ t, exec (.hrtCalSet w val) s = .next t ∧ s.onlyWing t w ∧ t.out = [] ∧
            t.wing w = { s.wing w with out := [] })) ∧
        ∃ t, exec (.timePair w) s = .next t ∧ s.onlyWing t w ∧ t.out = [] ∧
          t.wing w = { s.wing w with hrt := { h with pairPend := true }, out := [] }) ∧
      (∃ t, exec (.hearthPowerUp w) s = .next t ∧ s.onlyWing t w ∧ t.out = [] ∧ t.wing w = { s.wing w with out := [] })) ∧
    (h.powered = false →
      (∃ t, exec (.hearthPowerUp w) s = .next t ∧ s.onlyWing t w ∧ t.out = [] ∧ (t.wing w).hrt.powered = true ∧
        (t.wing w).hrt.raw = 0 ∧ (t.wing w).hrt.cal = 0 ∧ (t.wing w).hrt.fresh = true ∧ (t.wing w).hrt.ancValid = false ∧
        (t.wing w).hrt.timeLost = false ∧ (t.wing w).hrt.vbatLow = false ∧ (t.wing w).hrt.railLow = h.railLow ∧
        t.wing w = { s.wing w with hrt := (t.wing w).hrt, out := [] }) ∧
      ∀ mv, ∃ t, exec (.vbatCheck w mv) s = .next t ∧ s.onlyWing t w ∧ t.out = [] ∧
        t.wing w = { s.wing w with hrt := { h with railLow := decide (mv.toNat < 2000) }, out := [] }) ∧
    (∀ i val, i = Instr.hrtCalSet w val ∨ i = Instr.timePair w →
      ((s.wing w).life = .held → ∃ t, exec i s = .next t ∧ s.onlyWing t w ∧ t.out = [.regRsp (s.wing w).id false 0] ∧
        t.wing w = { s.wing w with out := [] }) ∧
      ((s.wing w).life = .deep → ∃ t, exec i s = .next t ∧ s.onlyWing t w ∧ t.out = [] ∧ t.wing w = { s.wing w with out := [] })) ∧
    (∃ t, exec .backupRailLoss s = .next t ∧ t.out = [] ∧ t.porches = s.porches ∧ t.pending = s.pending ∧
      ∀ v, (t.wing v).hrt.powered = false ∧ (t.wing v).hrt.raw = 0 ∧ (t.wing v).hrt.ancValid = false ∧ (t.wing v).hrt.latches = [] ∧
        (t.wing v).hrt.railLow = true ∧ t.wing v = { s.wing v with hrt := (t.wing v).hrt })) ∧
  (∀ (s : State) (w : WingId) (h : Hearth), h = (s.wing w).hrt → (s.wing w).ctl.rawWait = none →
    (h.powered = true → ∃ (t : State) (cal : BitVec 63), exec (.rawEdge w) s = .next t ∧ s.onlyWing t w ∧ t.out = [] ∧
      t.wing w = { s.wing w with hrt := (t.wing w).hrt, out := [] } ∧ cal = (if h.calPend then h.calSet else h.cal + 1) ∧
      (t.wing w).hrt.raw = h.raw + 1 ∧ (t.wing w).hrt.cal = cal ∧ (t.wing w).hrt.calPend = false ∧
      (∀ i, (t.wing w).hrt.latch i =
        if (h.latch i).set && !(h.latch i).stamped then
          { h.latch i with stamped := true, stampRaw := h.raw + 1, stampCal := cal, ever := true }
        else h.latch i) ∧
      (t.wing w).hrt.pairPend = false ∧
      (h.pairPend = true → (t.wing w).hrt.pairValid = true ∧ (t.wing w).hrt.pairCal = cal ∧ (t.wing w).hrt.pairRaw = h.raw + 1 ∧
        (t.wing w).hrt.pairTick = (s.wing w).now) ∧
      (h.pairPend = false → (t.wing w).hrt.pairValid = h.pairValid ∧ (t.wing w).hrt.pairRaw = h.pairRaw)) ∧
    (h.powered = false → ∃ t, exec (.rawEdge w) s = .next t ∧ s.onlyWing t w ∧ t.out = [] ∧ t.wing w = { s.wing w with out := [] }))

/-! ## Integrity and spares -/

/-- R337, R338: VOTE_WALK: a voted read of three equal copies changes nothing; with one copy that differs the field stands, the
correction is counted and logged; three copies that differ from one another count and set VOTE_SPLIT. A wing that does not run
walks nothing. R340, R341: SCRUB: a corrected error counts in the WEAR of its pantry bank or scan slice, saturating, and in
INT_ECC_CORR for any other word; an uncorrectable one sets ECC_UNCORR, counts, and is logged in a free log. A wing that does not
run reads nothing. -/
def Obligations.VotesAndEccAreCounted : Prop :=
  (∀ (s : State) (w : WingId) (f : VoteFind),
    ((s.wing w).running = false → ∀ fs, ∃ t, exec (.voteWalk w fs) s = .next t ∧ s.onlyWing t w ∧ t.out = [] ∧ t.wing w = { s.wing w with out := [] }) ∧
    ((s.wing w).running = true →
    (f.err0 = 0 → f.err1 = 0 → f.err2 = 0 → ∃ t, exec (.voteWalk w [f]) s = .next t ∧ s.onlyWing t w ∧ t.out = [] ∧
      t.wing w = { s.wing w with out := [] }) ∧
    (f.err0 ≠ 0 ∧ f.err1 = 0 ∧ f.err2 = 0 ∨ f.err0 = 0 ∧ f.err1 ≠ 0 ∧ f.err2 = 0 ∨ f.err0 = 0 ∧ f.err1 = 0 ∧ f.err2 ≠ 0 →
      ∃ t, exec (.voteWalk w [f]) s = .next t ∧ s.onlyWing t w ∧ t.out = [] ∧
      (t.wing w).ctr cVoteFix = (s.wing w).ctr cVoteFix + 1 ∧
      (t.wing w).int.voteLog = logFirst (s.wing w).int.voteLog (voteEntry false f.code f.index (s.wing w).now) ∧
      (t.wing w).ctl = (s.wing w).ctl ∧ (t.wing w).regs.cfg = (s.wing w).regs.cfg ∧ (t.wing w).regs.eff = (s.wing w).regs.eff ∧
      (t.wing w).int.voteSplit = (s.wing w).int.voteSplit) ∧
    (f.err0 ≠ f.err1 → f.err1 ≠ f.err2 → f.err0 ≠ f.err2 → ∃ t, exec (.voteWalk w [f]) s = .next t ∧ s.onlyWing t w ∧
      (t.wing w).int.voteSplit = true ∧ (t.wing w).ctr cVoteSplit = (s.wing w).ctr cVoteSplit + 1 ∧
      (t.wing w).int.voteLog = logFirst (s.wing w).int.voteLog (voteEntry true f.code f.index (s.wing w).now)))) ∧
  (∀ (s : State) (w : WingId) (f : EccFind),
    ((s.wing w).running = false → ∀ fs, ∃ t, exec (.scrub w fs) s = .next t ∧ s.onlyWing t w ∧ t.out = [] ∧ t.wing w = { s.wing w with out := [] }) ∧
    ((s.wing w).running = true → f.corrected = true → ∃ t, exec (.scrub w [f]) s = .next t ∧ s.onlyWing t w ∧
      (f.array = 1 → ((t.wing w).physBank f.unit.toNat).wear = satInc ((s.wing w).physBank f.unit.toNat).wear) ∧
      (f.array = 6 → f.unit.toNat < 9 →
        ((t.wing w).physSlice f.unit.toNat).wear = satInc ((s.wing w).physSlice f.unit.toNat).wear) ∧
      (f.array ≠ 1 → f.array ≠ 6 ∨ 9 ≤ f.unit.toNat → (t.wing w).ctr cEccCorr = (s.wing w).ctr cEccCorr + 1) ∧
      (t.wing w).int.eccUncorr = (s.wing w).int.eccUncorr ∧ (t.wing w).pan.slots = (s.wing w).pan.slots) ∧
    ((s.wing w).running = true → f.corrected = false → ∃ t, exec (.scrub w [f]) s = .next t ∧ s.onlyWing t w ∧ (t.wing w).int.eccUncorr = true ∧
      (t.wing w).ctr cEccUncorr = (s.wing w).ctr cEccUncorr + 1 ∧
      (t.wing w).int.eccLog = logFirst (s.wing w).int.eccLog (eccEntry f.array f.index)))

/-- R344, R345: SIGNATURE_PASS: 9,232 ticks after the pass before it, a pass ends whose result is the signature of the signed
words as the arrays hold them, less what upsets changed behind it. One whose result is the running value is counted and changes
nothing else; any other result replaces the running value, sets SIG_SELF and counts. That a pass begins with the tick counter,
and that its operand is the words that it finds upset, is the model's choice (log 114). R350: WEAR_WINDOW_END: at a multiple of
the window every WEAR restarts at 0. At another tick, and in a wing that does not run, nothing changes. R352, R353: BANK_MOVE
and SCAN_SLICE_MOVE: the lowest bank, or scan slice, that is due begins its move into the lowest spare, which is MIGRATING from
then on while the repair map stands. The move ends at a boundary behind its scan: the map then names the spare, every other
logical unit keeps its own, the move is counted, the spare is IN_SERVICE and the worn unit RETIRED. With no move to begin
nothing changes. That the commands begin the move and the boundaries carry it on is read from the spec (log 84). -/
def Obligations.PassesWindowsAndMoves : Prop :=
  (∀ (s : State) (w : WingId),
    ((s.wing w).running = true → (s.wing w).int.passAt.toNat + 9232 ≤ (s.wing w).now.toNat →
      (signatureOf (s.wing w).signedWords ^^^ (s.wing w).int.passMiss = (s.wing w).int.sigRun →
        ∃ t, exec (.signaturePass w []) s = .next t ∧ s.onlyWing t w ∧ t.out = [] ∧
          t.wing w = { (s.wing w).count cSigPasses with
            int := { (s.wing w).int with passAt := (s.wing w).now, passMiss := 0 }, out := [] }) ∧
      (signatureOf (s.wing w).signedWords ^^^ (s.wing w).int.passMiss ≠ (s.wing w).int.sigRun →
        ∃ t, exec (.signaturePass w []) s = .next t ∧ s.onlyWing t w ∧ t.out = [] ∧
          (t.wing w).int.sigRun = signatureOf (s.wing w).signedWords ^^^ (s.wing w).int.passMiss ∧ (t.wing w).int.sigSelf = true ∧
          (t.wing w).ctr cSigSelf = (s.wing w).ctr cSigSelf + 1 ∧ (t.wing w).ctr cSigPasses = (s.wing w).ctr cSigPasses + 1 ∧
          (t.wing w).int.passAt = (s.wing w).now ∧
          (t.wing w).int.sigLog = logFirst (s.wing w).int.sigLog (sigEntry 0b11 (s.wing w).now)) ∧
      (∀ (k : Nat) (m : Word), isSigned k = true →
        ∃ t, exec (.signaturePass w [(k, m)]) s = .next t ∧ s.onlyWing t w ∧ t.out = [] ∧
          (t.wing w).cfgW k = (s.wing w).cfgW k ^^^ (m &&& rwMask k) ∧ (t.wing w).effW k = (s.wing w).effW k ^^^ (m &&& rwMask k) ∧
          (∀ j, j ≠ k → (t.wing w).cfgW j = (s.wing w).cfgW j ∧ (t.wing w).effW j = (s.wing w).effW j) ∧
          (t.wing w).int.sigRun = signatureOf (t.wing w).signedWords ^^^ (s.wing w).int.passMiss)) ∧
    ((s.wing w).running = false ∨ (s.wing w).now.toNat < (s.wing w).int.passAt.toNat + 9232 →
      ∀ r, ∃ t, exec (.signaturePass w r) s = .next t ∧ s.onlyWing t w ∧ t.out = [] ∧ t.wing w = { s.wing w with out := [] }) ∧
    ((s.wing w).passageRuns = true →
      (s.wing w).now.toNat % 2 ^ ((s.wing w).wearCtrl.extractLsb' 19 5 : BitVec 5).toNat = 0 →
      ∃ t, exec (.wearWindowEnd w) s = .next t ∧ s.onlyWing t w ∧ t.out = [] ∧
        (∀ p, ((t.wing w).physBank p).wear = 0 ∧ ((t.wing w).physSlice p).wear = 0) ∧
        t.wing w = { s.wing w with
          int := { (s.wing w).int with physBank := (t.wing w).int.physBank, physSlice := (t.wing w).int.physSlice }
          psg := { (s.wing w).psg with lanes := (t.wing w).psg.lanes }, out := [] }) ∧
    ((s.wing w).passageRuns = false ∨
        (s.wing w).now.toNat % 2 ^ ((s.wing w).wearCtrl.extractLsb' 19 5 : BitVec 5).toNat ≠ 0 →
      ∃ t, exec (.wearWindowEnd w) s = .next t ∧ s.onlyWing t w ∧ t.out = [] ∧ t.wing w = { s.wing w with out := [] })) ∧
  ((∀ (s : State) (w : WingId) (a p : Nat) (rest : List Nat), (s.wing w).mayMove = true →
    ((s.wing w).dueBanks = a :: rest → (s.wing w).spareBank = some p →
      ∃ t, exec (.bankMove w) s = .next t ∧ s.onlyWing t w ∧ ((t.wing w).physBank p).state = 2 ∧
        (t.wing w).int.move = some { slice := false, old := a, spare := p, ready := (s.wing w).now + 4, scan := none } ∧
        (t.wing w).int.repBank = (s.wing w).int.repBank ∧ (t.wing w).pan.slots = (s.wing w).pan.slots) ∧
    ((s.wing w).dueBanks = [] ∨ (s.wing w).spareBank = none → (s.wing w).dueSlices = a :: rest →
      (s.wing w).spareSlice = some p →
      ∃ t, exec (.scanSliceMove w) s = .next t ∧ s.onlyWing t w ∧ ((t.wing w).physSlice p).state = 2 ∧
        (t.wing w).int.move = some { slice := true, old := a, spare := p, ready := (s.wing w).now + 4, scan := none } ∧
        (t.wing w).int.repSlice = (s.wing w).int.repSlice ∧ (t.wing w).pan.slots = (s.wing w).pan.slots)) ∧
  (∀ (s : State) (w : WingId),
    ((s.wing w).mayMove = false ∨ (s.wing w).dueBanks = [] ∨ (s.wing w).spareBank = none →
      ∃ t, exec (.bankMove w) s = .next t ∧ s.onlyWing t w ∧ t.out = [] ∧ t.wing w = { s.wing w with out := [] }) ∧
    ((s.wing w).mayMove = false ∨ (s.wing w).dueSlices = [] ∨ (s.wing w).spareSlice = none →
      ∃ t, exec (.scanSliceMove w) s = .next t ∧ s.onlyWing t w ∧ t.out = [] ∧ t.wing w = { s.wing w with out := [] })) ∧
  ∀ (v : Wing) (m : UnitMove) (b : Nat), v.int.move = some m → m.ready.toNat ≤ v.now.toNat → m.old ≠ m.spare →
    (∀ k, m.slice = false → m.scan = some k → k.toNat + v.scanTicks ≤ v.now.toNat → v.logicalBank m.old = some b →
      v.moveStep.repBank b = m.spare ∧ (v.moveStep.physBank m.spare).state = 1 ∧ (v.moveStep.physBank m.old).state = 3 ∧
        (∀ j, j ≠ b → v.moveStep.repBank j = v.repBank j) ∧ v.moveStep.int.move = none ∧
        v.moveStep.ctr cMigrateBank = v.ctr cMigrateBank + 1 ∧ v.moveStep.pan.slots = v.pan.slots) ∧
    (m.slice = true → v.scanBegins = true → v.logicalSlice m.old = some b →
      v.moveStep.repSlice b = m.spare ∧ (∀ j, j ≠ b → v.moveStep.repSlice j = v.repSlice j) ∧ v.moveStep.int.move = none ∧
        v.moveStep.ctr cMigrateSlice = v.ctr cMigrateSlice + 1 ∧ v.moveStep.pan.slots = v.pan.slots))

/-! ## The register port -/

/-- R365, R366, R367: REGISTER_WRITE: a 32-bit write to a mirrored register that no lock or dual control guards. The active wing
stores it, with the bits that software does not write and the lock bits that are set kept, decides by the old value, carries a
REGW record, and answers only when that frame commits; any other wing, an active one in its last tick among them (read from the
spec: log 45), answers ERROR, reason NOT_ACTIVE. R367: REGISTER_WRITE_ANSWER: the write that the port holds is answered OK when
every frame with a record of it is committed, and not before. R309, R360, R367, R403: an access of any of the port's commands to
a wing in reset is answered ERROR and logged nowhere, and a wing in Deep answers nothing; in Run an access behind a write that
is not answered yet waits in order (which accesses wait, and where, is read from the spec: log 58). -/
def Obligations.MirroredWritesAreCarried : Prop :=
  (∀ (s : State) (w : WingId) (a : RegAccess) (k : Nat) (d v : Word), (s.wing w).life = .run → (s.wing w).regs.portHeld = none →
    (s.wing w).regs.portQueue = [] → a.alias_ = false →
    (a.strb = 0x0F ∧ k = a.addr.toNat / 8 * 8 ∧ d = a.data.extractLsb' 0 32 ∨
        a.strb = 0xF0 ∧ k = a.addr.toNat / 8 * 8 + 4 ∧ d = a.data.extractLsb' 32 32) → isMirrored k = true → dualBit k = none →
      ((s.wing w).ctl.role = .active → (s.wing w).lastTick = false → (s.wing w).inBringUp = false → (s.wing w).locked k = false →
        v = ((s.wing w).cfgW k &&& ~~~rwMask k) ||| (d &&& rwMask k) ||| ((s.wing w).cfgW k &&& lockMask k) → valueOk k v = true →
        ∃ (t : State) (r : RegwRec), exec (.registerWrite w a) s = .next t ∧ s.onlyWing t w ∧ t.out = [] ∧
          r = { space := 0, dualPend := false, req := a.req, addr := BitVec.ofNat 32 k, val := v } ∧ (t.wing w).cfgW k = v ∧
          (∀ j, j ≠ k → (t.wing w).cfgW j = (s.wing w).cfgW j) ∧ (∀ j, (t.wing w).effW j = (s.wing w).effW j) ∧
          (t.wing w).psg.defr = (s.wing w).psg.defr ++ [.regw r] ∧
          (t.wing w).regs.portHeld = some { recs := [r], req := a.req, path := 0, strb := a.strb
                                            old := [(k, (s.wing w).cfgW k)], dual := (s.wing w).regs.dual }) ∧
      ((s.wing w).takesMirrored = false →
        ∃ t, exec (.registerWrite w a) s = .next t ∧ s.onlyWing t w ∧ t.out = [.regRsp (s.wing w).id false 0] ∧
          (t.wing w).regs.cfg = (s.wing w).regs.cfg ∧ (t.wing w).regs.eff = (s.wing w).regs.eff ∧
          (t.wing w).ctr cRegErr = (s.wing w).ctr cRegErr + 1 ∧
          (t.wing w).regs.regErrLog =
            logFirst (s.wing w).regs.regErrLog (regErrEntry reNotActive a.req 0 a.strb (BitVec.ofNat 24 k)))) ∧
  (∀ (s : State) (w : WingId), ((s.wing w).regs.portHeld = none → (s.wing w).regs.portQueue = [] →
      ∃ t, exec (.registerWriteAnswer w) s = .next t ∧ s.onlyWing t w ∧ t.out = [] ∧ t.wing w = { s.wing w with out := [] }) ∧
    ∀ h : HeldWrite, (s.wing w).regs.portHeld = some h →
    ((∀ r ∈ h.recs, (s.wing w).recCommitted r = true) → (s.wing w).regs.portQueue = [] →
      ∃ t, exec (.registerWriteAnswer w) s = .next t ∧ s.onlyWing t w ∧ t.out = [.regRsp (s.wing w).id true 0] ∧
        (t.wing w).regs.portHeld = none ∧ (t.wing w).regs.cfg = (s.wing w).regs.cfg ∧ (t.wing w).regs.eff = (s.wing w).regs.eff ∧
        (h.path ≠ 2 → t.wing w = { s.wing w with regs := { (s.wing w).regs with portHeld := none }, out := [] })) ∧
    (∀ r ∈ h.recs, (s.wing w).recCommitted r = false →
      ∃ t, exec (.registerWriteAnswer w) s = .next t ∧ s.onlyWing t w ∧ t.out = [] ∧ t.wing w = { s.wing w with out := [] })) ∧
  (∀ (s : State) (w : WingId) (i : Instr) (write : Bool) (a : RegAccess),
    (i, write) ∈ [(Instr.registerWrite w a, true), (.readClear w a, false), (.indirectAccess w true a, true),
      (.indirectAccess w false a, false), (.lockBitSet w a, true), (.dualControlWrite w a, true)] →
    ((s.wing w).life = .held → ∃ t, exec i s = .next t ∧ s.onlyWing t w ∧ t.out = [.regRsp (s.wing w).id false 0] ∧
      t.wing w = { s.wing w with out := [] }) ∧
    ((s.wing w).life = .deep → ∃ t, exec i s = .next t ∧ s.onlyWing t w ∧ t.out = [] ∧ t.wing w = { s.wing w with out := [] }) ∧
    ((s.wing w).life = .run → (s.wing w).regs.portHeld ≠ none →
      ∃ t, exec i s = .next t ∧ s.onlyWing t w ∧ t.out = [] ∧
        t.wing w = { s.wing w with
          regs := { (s.wing w).regs with portQueue := (s.wing w).regs.portQueue ++ [(write, a)] }, out := [] }))

/-- R369, R370, R371, R384: READ_CLEAR: a 64-bit read returns a counter and clears nothing; of REG_ERR_LOG it returns the log
and clears it. A read of the alias window is an error. R373, R374: INDIRECT_ACCESS: a 32-bit read of IND_DATA returns the word
at IND_ADDR, which then moves on by 4 modulo 2^24 where AUTO_INC is 1; the low word of a 64-bit register captures the high one.
An indirect write that the wing may not take leaves IND_ADDR as it is. R372: SNAP_NOW captures every counter and gauge in its
holding register, sets the tick and counts the capture; SNAP_BOUNDARY leaves the capture to the next tick boundary, which takes
it in a wing that is out of service too. -/
def Obligations.ReadsIndirectAccessesAndSnapshots : Prop :=
  (∀ (s : State) (w : WingId) (a : RegAccess), (s.wing w).life = .run → (s.wing w).regs.portHeld = none →
    (s.wing w).regs.portQueue = [] → a.strb = 0xFF → (∀ k c, (s.wing w).regs.indCap = some (k, c) → 0x10000 ≤ k) →
    (a.alias_ = false → 0x4000 ≤ a.addr.toNat → a.addr.toNat < 0x5000 →
      ∃ t, exec (.readClear w a) s = .next t ∧ s.onlyWing t w ∧
        t.out = [.regRsp (s.wing w).id true ((s.wing w).countWord (a.addr.toNat / 8 * 8))] ∧ t.wing w = { s.wing w with out := [] }) ∧
    (a.alias_ = false → a.addr.toNat / 8 * 8 = oRegErrLog →
      ∃ t, exec (.readClear w a) s = .next t ∧ s.onlyWing t w ∧
        t.out = [.regRsp (s.wing w).id true (s.wing w).regs.regErrLog] ∧
        t.wing w = { s.wing w with regs := { (s.wing w).regs with regErrLog := 0 }, out := [] }) ∧
    (a.alias_ = true →
      ∃ t, exec (.readClear w a) s = .next t ∧ s.onlyWing t w ∧ t.out = [.regRsp (s.wing w).id false 0] ∧
        (t.wing w).ctr cRegErr = (s.wing w).ctr cRegErr + 1 ∧
        (t.wing w).regs.regErrLog =
          logFirst (s.wing w).regs.regErrLog (regErrEntry reAliasRead a.req (if a.addr.toNat / 8 * 8 = oIndData then 2 else 1) a.strb (0#8 ++ a.addr)))) ∧
  (∀ (s : State) (w : WingId) (a : RegAccess), (s.wing w).life = .run → (s.wing w).regs.portHeld = none →
    (s.wing w).regs.portQueue = [] → a.strb = 0x0F → a.alias_ = false → a.addr.toNat / 8 * 8 = oIndData →
    ((∀ k c, (s.wing w).regs.indCap = some (k, c) → k ≠ ikey (s.wing w).regs.indAddr.toNat) →
      ∃ t, exec (.indirectAccess w false a) s = .next t ∧ s.onlyWing t w ∧
        t.out = [.regRsp (s.wing w).id true (0#32 ++ (s.wing w).indRead (s.wing w).regs.indAddr.toNat)] ∧
        (t.wing w).regs.indAddr = (if (s.wing w).regs.indInc then
          BitVec.ofNat 32 (((s.wing w).regs.indAddr.toNat + 4) % 2 ^ 24) else (s.wing w).regs.indAddr) ∧
        (t.wing w).regs.indCap = (if isPairLow (s.wing w).regs.indAddr.toNat then
          some (ikey (s.wing w).regs.indAddr.toNat + 4, (s.wing w).indRead ((s.wing w).regs.indAddr.toNat + 4)) else none)) ∧
    ((s.wing w).takesMirrored = false → isMirrored (ikey (s.wing w).regs.indAddr.toNat) = true →
      ∃ t, exec (.indirectAccess w true a) s = .next t ∧ s.onlyWing t w ∧ t.out = [.regRsp (s.wing w).id false 0] ∧
        (t.wing w).regs.indAddr = (s.wing w).regs.indAddr ∧ (t.wing w).regs.cfg = (s.wing w).regs.cfg)) ∧
  (∀ (s : State) (w : WingId), ((s.wing w).life = .outOfService → (s.wing w).regs.snapPend = true →
      ∀ ecc, ∃ t, exec (.tickBoundary w ecc) s = .next t ∧
        (∀ o ∈ counterOffs, SMap.get (t.wing w).regs.hold 0 (o + 0x1000) = (s.wing w).countWord o) ∧
        (t.wing w).regs.snapSeq = (s.wing w).regs.snapSeq + 1 ∧ (t.wing w).regs.snapPend = false) ∧
    ((s.wing w).life = .run → (s.wing w).regs.portHeld = none → (s.wing w).regs.portQueue = [] →
    (∃ t, exec (.snapNow w) s = .next t ∧ s.onlyWing t w ∧ t.out = [.regRsp (s.wing w).id true 0] ∧
      (∀ o ∈ counterOffs, SMap.get (t.wing w).regs.hold 0 (o + 0x1000) = (s.wing w).countWord o) ∧
      (t.wing w).regs.snapSeq = (s.wing w).regs.snapSeq + 1 ∧ (t.wing w).regs.snapTick = (s.wing w).now ∧
      t.wing w = { s.wing w with
        regs := { (s.wing w).regs with hold := (t.wing w).regs.hold, snapSeq := (s.wing w).regs.snapSeq + 1, snapTick := (s.wing w).now }
        out := [] }) ∧
    (∃ t, exec (.snapBoundary w) s = .next t ∧ s.onlyWing t w ∧ t.out = [.regRsp (s.wing w).id true 0] ∧
      t.wing w = { s.wing w with regs := { (s.wing w).regs with snapPend := true }, out := [] })))

/-- R361: the byte strobes of an access must form one run of 1, 2, 4 or 8 bytes that starts at a multiple of its own length; any
other access is answered ERROR, has no effect, and is logged with reason UNALIGNED. -/
def Obligations.UnalignedAccessesAreErrors : Prop :=
  ∀ (s : State) (w : WingId) (a : RegAccess) (i : Instr), (s.wing w).life = .run → (s.wing w).regs.portHeld = none →
    (s.wing w).regs.portQueue = [] →
    i ∈ [Instr.registerWrite w a, .readClear w a, .indirectAccess w true a, .indirectAccess w false a, .lockBitSet w a,
      .dualControlWrite w a] →
    (∀ f n, n ∈ [1, 2, 4, 8] → n ∣ f → f + n ≤ 8 → ¬ ∀ j, j < 8 → a.strb.getLsbD j = decide (f ≤ j ∧ j < f + n)) →
    ∃ t, exec i s = .next t ∧ s.onlyWing t w ∧ t.out = [.regRsp (s.wing w).id false 0] ∧
      (t.wing w).ctr cRegErr = (s.wing w).ctr cRegErr + 1 ∧
      t.wing w = { s.wing w with
        regs := { (s.wing w).regs with
          ctr := (t.wing w).regs.ctr
          regErrLog := logFirst (s.wing w).regs.regErrLog (regErrEntry reUnaligned a.req (pathOf a) a.strb (0#8 ++ a.addr)) }
        out := [] }

/-- R375: LOCK_BIT_SET: a write of 1 sets a lock bit, a write of 0 leaves it, and a write to a field that a lock guards is
refused with reason LOCKED. R376, R377: DUAL_CONTROL_WRITE: under dual control a first write leaves the register and is carried
with DUAL_PEND; a second one of another requester with the same value, in time, completes the pair; with another value it is
refused and nothing is pending. DUAL_PEND_EXPIRY: a window that closes discards its first write and counts it, unless the frame
under formation settles it, in Run and in the wait for the key; not while the wing sleeps. -/
def Obligations.LocksAndDualControl : Prop :=
  (∀ (s : State) (w : WingId) (a : RegAccess) (k : Nat) (d : Word), (s.wing w).life = .run → (s.wing w).regs.portHeld = none →
    (s.wing w).regs.portQueue = [] → a.alias_ = false → (s.wing w).takesMirrored = true →
    (a.strb = 0x0F ∧ k = a.addr.toNat / 8 * 8 ∧ d = a.data.extractLsb' 0 32 ∨
      a.strb = 0xF0 ∧ k = a.addr.toNat / 8 * 8 + 4 ∧ d = a.data.extractLsb' 32 32) →
    (k = oCfgLock ∨ k = oTimeLock ∨ k = oIntCtrl →
      ∃ t, exec (.lockBitSet w a) s = .next t ∧ s.onlyWing t w ∧
        (t.wing w).cfgW k &&& lockMask k = ((s.wing w).cfgW k ||| d) &&& lockMask k ∧
        ∀ j, j ≠ k → (t.wing w).cfgW j = (s.wing w).cfgW j) ∧
    (isMirrored k = true → (s.wing w).locked k = true →
      ∃ t, exec (.lockBitSet w a) s = .next t ∧ s.onlyWing t w ∧ t.out = [.regRsp (s.wing w).id false 0] ∧
        (t.wing w).regs.cfg = (s.wing w).regs.cfg ∧
        (t.wing w).regs.regErrLog =
          logFirst (s.wing w).regs.regErrLog (regErrEntry reLocked a.req 0 a.strb (BitVec.ofNat 24 k)))) ∧
  (∀ (s : State) (w : WingId) (a : RegAccess) (k : Nat) (d : Word),
    ((s.wing w).running = false → (s.wing w).life ≠ .keyWait → ∃ t, exec (.dualPendExpiry w) s = .next t ∧ s.onlyWing t w ∧ t.out = [] ∧ t.wing w = { s.wing w with out := [] }) ∧
    ((s.wing w).life = .run → (s.wing w).regs.portHeld = none → (s.wing w).regs.portQueue = [] → a.alias_ = false →
      (s.wing w).ctl.role = .active →
      (s.wing w).lastTick = false → (s.wing w).inBringUp = false →
      (a.strb = 0x0F ∧ k = a.addr.toNat / 8 * 8 ∧ d = a.data.extractLsb' 0 32 ∨
        a.strb = 0xF0 ∧ k = a.addr.toNat / 8 * 8 + 4 ∧ d = a.data.extractLsb' 32 32) →
      dualBit k ≠ none → (s.wing w).locked k = false →
      ((s.wing w).dualFor k = none →
        ∃ t, exec (.dualControlWrite w a) s = .next t ∧ s.onlyWing t w ∧ t.out = [] ∧ (t.wing w).regs.cfg = (s.wing w).regs.cfg ∧
          (t.wing w).psg.defr = (s.wing w).psg.defr ++
            [.regw { space := 0, dualPend := true, req := a.req, addr := BitVec.ofNat 32 k, val := d }]) ∧
      (∀ h, (s.wing w).dualFor k = some h → (s.wing w).now.toNat ≤ h.at_.toNat + 65536 → h.req ≠ a.req →
        (h.val = d → (s.wing w).dualCheck k d = true →
          ∃ t, exec (.dualControlWrite w a) s = .next t ∧ s.onlyWing t w ∧ t.out = [] ∧ (t.wing w).regs.cfg = (s.wing w).regs.cfg ∧
            (t.wing w).psg.defr = (s.wing w).psg.defr ++
              [.regw { space := 0, dualPend := false, req := a.req, addr := BitVec.ofNat 32 k, val := d &&& rwMask k }]) ∧
        (h.val ≠ d →
          ∃ t, exec (.dualControlWrite w a) s = .next t ∧ s.onlyWing t w ∧ t.out = [.regRsp (s.wing w).id false 0] ∧
            (t.wing w).dualFor k = none ∧ (t.wing w).regs.cfg = (s.wing w).regs.cfg ∧
            (t.wing w).ctr cDualReject = (s.wing w).ctr cDualReject + 1))) ∧
    ((s.wing w).running = true ∨ (s.wing w).life = .keyWait → ∃ t, exec (.dualPendExpiry w) s = .next t ∧ s.onlyWing t w ∧ t.out = [] ∧
      (∀ h, h ∈ (t.wing w).regs.dual ↔ h ∈ (s.wing w).regs.dual ∧
        ((s.wing w).dualNow.toNat < h.at_.toNat + 65536 ∨ (s.wing w).dualPlaced h.addr ≠ none)) ∧
      (t.wing w).ctr cDualExpire = (s.wing w).ctr cDualExpire + BitVec.ofNat 64
        ((s.wing w).regs.dual.length - (t.wing w).regs.dual.length)))
end

