-- ==== Sys2Proof/Laws/SMap.lean ====
section
/-! SUPPORT. Laws of sparse maps: read after write, and the canonical form that every operation keeps. -/

namespace Sys2Proof.Machine

variable {α : Type}

@[simp] theorem SMap.find?_nil (k : Nat) : SMap.find? ([] : SMap α) k = none := rfl

@[simp] theorem SMap.get_nil (d : α) (k : Nat) : SMap.get ([] : SMap α) d k = d := rfl

/-- An insertion is read back at its index, and changes no other index. -/
theorem SMap.find?_insert (m : SMap α) (k j : Nat) (a : α) :
    SMap.find? (SMap.insert m k a) j = if j = k then some a else SMap.find? m j := by
  induction m with
  | nil => by_cases h : j = k <;> simp [SMap.insert, SMap.find?, h, Eq.comm (a := k)]
  | cons e m ih =>
    obtain ⟨i, b⟩ := e
    unfold SMap.insert
    split
    · by_cases h : j = k
      · simp [SMap.find?, h]
      · simp [SMap.find?, h, Ne.symm h]
    · split
      · next h1 h2 =>
        subst h2
        by_cases h : j = k
        · simp [SMap.find?, h]
        · simp [SMap.find?, h, Ne.symm h]
      · next h1 h2 =>
        by_cases h : i = j
        · subst h
          simp [SMap.find?, Ne.symm h2]
        · simp [SMap.find?, h, ih]

@[simp] theorem SMap.find?_insert_self (m : SMap α) (k : Nat) (a : α) :
    SMap.find? (SMap.insert m k a) k = some a := by simp [SMap.find?_insert]

theorem SMap.find?_insert_ne (m : SMap α) {k j : Nat} (a : α) (h : j ≠ k) :
    SMap.find? (SMap.insert m k a) j = SMap.find? m j := by simp [SMap.find?_insert, h]

/-- An erasure lists nothing at its index, and changes no other index. -/
theorem SMap.find?_erase (m : SMap α) (k j : Nat) :
    SMap.find? (SMap.erase m k) j = if j = k then none else SMap.find? m j := by
  induction m with
  | nil => simp [SMap.erase]
  | cons e m ih =>
    obtain ⟨i, b⟩ := e
    by_cases h : i = k
    · subst h
      by_cases h2 : j = i
      · subst h2; simpa [SMap.erase] using ih
      · simp [SMap.erase, ih, h2, SMap.find?, Ne.symm h2]
    · by_cases h2 : i = j
      · subst h2
        simp [SMap.erase, h, SMap.find?]
      · simp [SMap.erase, h, SMap.find?, h2, ih]

@[simp] theorem SMap.find?_erase_self (m : SMap α) (k : Nat) : SMap.find? (SMap.erase m k) k = none := by
  simp [SMap.find?_erase]

@[simp] theorem SMap.get_insert_self (m : SMap α) (d : α) (k : Nat) (a : α) :
    SMap.get (SMap.insert m k a) d k = a := by simp [SMap.get]

theorem SMap.get_insert_ne (m : SMap α) (d : α) {k j : Nat} (a : α) (h : j ≠ k) :
    SMap.get (SMap.insert m k a) d j = SMap.get m d j := by simp [SMap.get, SMap.find?_insert_ne m a h]

@[simp] theorem SMap.get_erase_self (m : SMap α) (d : α) (k : Nat) : SMap.get (SMap.erase m k) d k = d := by
  simp [SMap.get]

theorem SMap.get_erase_ne (m : SMap α) (d : α) {k j : Nat} (h : j ≠ k) :
    SMap.get (SMap.erase m k) d j = SMap.get m d j := by simp [SMap.get, SMap.find?_erase, h]

/-- A value set is read back. -/
@[simp] theorem SMap.get_set_self [DecidableEq α] (m : SMap α) (d : α) (k : Nat) (a : α) :
    SMap.get (SMap.set m d k a) d k = a := by
  unfold SMap.set
  split
  · next h => simp [h]
  · simp

/-- A value set at one index changes no other. -/
theorem SMap.get_set_ne [DecidableEq α] (m : SMap α) (d : α) {k j : Nat} (a : α) (h : j ≠ k) :
    SMap.get (SMap.set m d k a) d j = SMap.get m d j := by
  unfold SMap.set
  split
  · exact SMap.get_erase_ne m d h
  · exact SMap.get_insert_ne m d a h

theorem SMap.get_set [DecidableEq α] (m : SMap α) (d : α) (k j : Nat) (a : α) :
    SMap.get (SMap.set m d k a) d j = if j = k then a else SMap.get m d j := by
  split
  · next h => simp [h]
  · next h => exact SMap.get_set_ne m d a h

/-! ## The canonical form -/

theorem SMap.sortedFrom_mono {m : SMap α} {lo hi : Nat} (h : lo ≤ hi) (s : SMap.sortedFrom hi m = true) :
    SMap.sortedFrom lo m = true := by
  cases m with
  | nil => rfl
  | cons e m =>
    obtain ⟨i, b⟩ := e
    simp only [SMap.sortedFrom, Bool.and_eq_true, decide_eq_true_eq] at s ⊢
    exact ⟨Nat.le_trans h s.1, s.2⟩

theorem SMap.sortedFrom_insert {m : SMap α} {lo k : Nat} (a : α) (h : lo ≤ k) (s : SMap.sortedFrom lo m = true) :
    SMap.sortedFrom lo (SMap.insert m k a) = true := by
  induction m generalizing lo with
  | nil => simpa [SMap.insert, SMap.sortedFrom] using h
  | cons e m ih =>
    obtain ⟨i, b⟩ := e
    simp only [SMap.sortedFrom, Bool.and_eq_true, decide_eq_true_eq] at s
    unfold SMap.insert
    split
    · next h1 => simp [SMap.sortedFrom, h, s.2, h1]
    · split
      · next h1 h2 => subst h2; simp [SMap.sortedFrom, h, s.2]
      · next h1 h2 =>
        simp only [SMap.sortedFrom, Bool.and_eq_true, decide_eq_true_eq]
        exact ⟨s.1, ih (by omega) s.2⟩

theorem SMap.sortedFrom_erase {m : SMap α} {lo : Nat} (k : Nat) (s : SMap.sortedFrom lo m = true) :
    SMap.sortedFrom lo (SMap.erase m k) = true := by
  induction m generalizing lo with
  | nil => rfl
  | cons e m ih =>
    obtain ⟨i, b⟩ := e
    simp only [SMap.sortedFrom, Bool.and_eq_true, decide_eq_true_eq] at s
    unfold SMap.erase
    split
    · exact SMap.sortedFrom_mono (by omega) (ih s.2)
    · simp only [SMap.sortedFrom, Bool.and_eq_true, decide_eq_true_eq]
      exact ⟨s.1, ih s.2⟩

/-- An insertion keeps the canonical form of a map without a default. -/
theorem SMap.wf_insert {m : SMap α} (k : Nat) (a : α) (h : SMap.wf m = true) : SMap.wf (SMap.insert m k a) = true :=
  SMap.sortedFrom_insert a (Nat.zero_le k) h

theorem SMap.wf_erase {m : SMap α} (k : Nat) (h : SMap.wf m = true) : SMap.wf (SMap.erase m k) = true :=
  SMap.sortedFrom_erase k h

theorem SMap.mem_insert {m : SMap α} {k : Nat} {a : α} {e : Nat × α} (h : e ∈ SMap.insert m k a) :
    e = (k, a) ∨ e ∈ m := by
  induction m with
  | nil => simpa [SMap.insert] using h
  | cons x m ih =>
    obtain ⟨i, b⟩ := x
    unfold SMap.insert at h
    split at h
    · simpa using h
    · split at h
      · simp only [List.mem_cons] at h ⊢
        rcases h with h | h
        · exact .inl h
        · exact .inr (.inr h)
      · simp only [List.mem_cons] at h ⊢
        rcases h with h | h
        · exact .inr (.inl h)
        · rcases ih h with h | h
          · exact .inl h
          · exact .inr (.inr h)

theorem SMap.mem_erase {m : SMap α} {k : Nat} {e : Nat × α} (h : e ∈ SMap.erase m k) : e ∈ m := by
  induction m with
  | nil => simp [SMap.erase] at h
  | cons x m ih =>
    obtain ⟨i, b⟩ := x
    unfold SMap.erase at h
    split at h
    · exact List.mem_cons_of_mem _ (ih h)
    · simp only [List.mem_cons] at h ⊢
      rcases h with h | h
      · exact .inl h
      · exact .inr (ih h)

/-- A write keeps the canonical form of a map with a default. -/
theorem SMap.wfd_set [DecidableEq α] {m : SMap α} {d : α} (k : Nat) (a : α) (h : SMap.wfd m d = true) :
    SMap.wfd (SMap.set m d k a) d = true := by
  simp only [SMap.wfd, Bool.and_eq_true, List.all_eq_true] at h ⊢
  unfold SMap.set
  split
  · exact ⟨SMap.sortedFrom_erase k h.1, fun e he => h.2 e (SMap.mem_erase he)⟩
  · next ha =>
    refine ⟨SMap.sortedFrom_insert a (Nat.zero_le k) h.1, fun e he => ?_⟩
    rcases SMap.mem_insert he with rfl | he
    · simpa using ha
    · exact h.2 e he

end Sys2Proof.Machine
end

