-- ==== Sys2Proof/Laws/State.lean ====
section
/-! SUPPORT. Laws of the state: what each update of a wing or a porch reads as, and what a step of one of them leaves alone. -/

namespace Sys2Proof.Machine

/-! ## Wings and porches of the state -/

theorem State.wing_setWing (s : State) (w x : WingId) (v : Wing) :
    (s.setWing w v).wing x = if x = w then v else s.wing x := by
  cases w <;> cases x <;> rfl

@[simp] theorem State.wing_setWing_self (s : State) (w : WingId) (v : Wing) : (s.setWing w v).wing w = v := by
  cases w <;> rfl

@[simp] theorem otherWing_ne (w : WingId) : otherWing w ≠ w := by cases w <;> decide

@[simp] theorem otherWing_otherWing (w : WingId) : otherWing (otherWing w) = w := by cases w <;> rfl

/-- After a step of one wing that wing is as the step left it, its output taken away. -/
@[simp] theorem State.onWing_wing (s : State) (w : WingId) (f : Wing → Wing) :
    (s.onWing w f).wing w = { f { s.wing w with out := [] } with out := [] } := by
  cases w <;> rfl

@[simp] theorem State.onWing_out (s : State) (w : WingId) (f : Wing → Wing) :
    (s.onWing w f).out = (f { s.wing w with out := [] }).out := by
  cases w <;> rfl

/-- A step of one wing changes no more than that wing and what is driven. -/
theorem State.onWing_only (s : State) (w : WingId) (f : Wing → Wing) : s.onlyWing (s.onWing w f) w := by
  cases w <;> exact ⟨rfl, rfl, rfl, rfl⟩

theorem State.porch_setPorch (s : State) (p q : Byte) (x : Porch) :
    (s.setPorch p x).porch q = if q = p then x else s.porch q := by
  unfold State.setPorch State.porch
  by_cases h : q = p
  · simp [h]
  · have : q.toNat ≠ p.toNat := fun e => h (BitVec.eq_of_toNat_eq e)
    simp [h, SMap.get_set_ne _ _ _ this]

/-- After a step of one porch that porch is as the step left it. -/
@[simp] theorem State.onPorch_porch (s : State) (p : Byte) (f : Porch → Porch × List Out) :
    (s.onPorch p f).porch p = (f (s.porch p)).1 := by
  have h : (s.onPorch p f).porch p = (s.setPorch p (f (s.porch p)).1).porch p := rfl
  rw [h, State.porch_setPorch, if_pos rfl]

@[simp] theorem State.onPorch_out (s : State) (p : Byte) (f : Porch → Porch × List Out) :
    (s.onPorch p f).out = (f (s.porch p)).2 := rfl

/-- A step of one porch changes no more than that porch and what is driven. -/
theorem State.onPorch_only (s : State) (p : Byte) (f : Porch → Porch × List Out) : s.onlyPorch (s.onPorch p f) p := by
  refine ⟨rfl, rfl, rfl, fun q h => ?_⟩
  have e : (s.onPorch p f).porch q = (s.setPorch p (f (s.porch p)).1).porch q := rfl
  rw [e, State.porch_setPorch, if_neg h]

/-! ## Updates of a wing -/

/-- Driving changes the output only. -/
@[simp] theorem Wing.emit_keeps (w : Wing) (o : Out) :
    (w.emit o).id = w.id ∧ (w.emit o).life = w.life ∧ (w.emit o).aptBase = w.aptBase ∧ (w.emit o).portGen = w.portGen ∧
    (w.emit o).key = w.key ∧ (w.emit o).keyValid = w.keyValid ∧ (w.emit o).regs = w.regs ∧ (w.emit o).ctl = w.ctl ∧
    (w.emit o).vst = w.vst ∧ (w.emit o).pan = w.pan ∧ (w.emit o).hall = w.hall ∧ (w.emit o).pch = w.pch ∧ (w.emit o).sl = w.sl ∧
    (w.emit o).ring = w.ring ∧ (w.emit o).drn = w.drn ∧ (w.emit o).psg = w.psg ∧ (w.emit o).pwr = w.pwr ∧
    (w.emit o).int = w.int ∧ (w.emit o).hrt = w.hrt ∧ (w.emit o).mem = w.mem := by
  refine ⟨rfl, rfl, rfl, rfl, rfl, rfl, rfl, rfl, rfl, rfl, rfl, rfl, rfl, rfl, rfl, rfl, rfl, rfl, rfl, rfl⟩

@[simp] theorem Wing.emit_out (w : Wing) (o : Out) : (w.emit o).out = w.out ++ [o] := rfl

/-- A read at the memory port changes no more than the output and the number of the next read. -/
@[simp] theorem Wing.emitRead_keeps (w : Wing) (a : DWord) (n : Nat) :
    (w.emitRead a n).id = w.id ∧ (w.emitRead a n).life = w.life ∧ (w.emitRead a n).aptBase = w.aptBase ∧ (w.emitRead a
    n).portGen = w.portGen ∧ (w.emitRead a n).key = w.key ∧ (w.emitRead a n).keyValid = w.keyValid ∧ (w.emitRead a n).regs =
    w.regs ∧ (w.emitRead a n).ctl = w.ctl ∧ (w.emitRead a n).vst = w.vst ∧ (w.emitRead a n).pan = w.pan ∧ (w.emitRead a
    n).hall = w.hall ∧ (w.emitRead a n).pch = w.pch ∧ (w.emitRead a n).sl = w.sl ∧ (w.emitRead a n).ring = w.ring ∧
    (w.emitRead a n).drn = w.drn ∧ (w.emitRead a n).psg = w.psg ∧ (w.emitRead a n).pwr = w.pwr ∧ (w.emitRead a n).int =
    w.int ∧ (w.emitRead a n).hrt = w.hrt := by
  refine ⟨rfl, rfl, rfl, rfl, rfl, rfl, rfl, rfl, rfl, rfl, rfl, rfl, rfl, rfl, rfl, rfl, rfl, rfl, rfl⟩

@[simp] theorem Wing.emitRead_out (w : Wing) (a : DWord) (n : Nat) :
    (w.emitRead a n).out = w.out ++ [.memRead w.id a n w.readTag] ∧ (w.emitRead a n).mem = { w.mem with read := w.mem.read + 1 } :=
  ⟨rfl, rfl⟩

/-- A write at the memory port changes no more than the output and the number of the next write. -/
@[simp] theorem Wing.emitWrite_keeps (w : Wing) (a : DWord) (n : Nat) (d : BitVec 512) :
    (w.emitWrite a n d).id = w.id ∧ (w.emitWrite a n d).life = w.life ∧ (w.emitWrite a n d).aptBase = w.aptBase ∧
    (w.emitWrite a n d).portGen = w.portGen ∧ (w.emitWrite a n d).key = w.key ∧ (w.emitWrite a n d).keyValid = w.keyValid ∧
    (w.emitWrite a n d).regs = w.regs ∧ (w.emitWrite a n d).ctl = w.ctl ∧ (w.emitWrite a n d).vst = w.vst ∧ (w.emitWrite a n
    d).pan = w.pan ∧ (w.emitWrite a n d).hall = w.hall ∧ (w.emitWrite a n d).pch = w.pch ∧ (w.emitWrite a n d).sl = w.sl ∧
    (w.emitWrite a n d).ring = w.ring ∧ (w.emitWrite a n d).drn = w.drn ∧ (w.emitWrite a n d).psg = w.psg ∧ (w.emitWrite a n
    d).pwr = w.pwr ∧ (w.emitWrite a n d).int = w.int ∧ (w.emitWrite a n d).hrt = w.hrt := by
  refine ⟨rfl, rfl, rfl, rfl, rfl, rfl, rfl, rfl, rfl, rfl, rfl, rfl, rfl, rfl, rfl, rfl, rfl, rfl, rfl⟩

@[simp] theorem Wing.emitWrite_out (w : Wing) (a : DWord) (n : Nat) (d : BitVec 512) :
    (w.emitWrite a n d).out = w.out ++ [.memWrite w.id a n d w.writeTag] ∧
    (w.emitWrite a n d).mem = { w.mem with write := w.mem.write + 1 } :=
  ⟨rfl, rfl⟩

/-- `setCtr` changes the register file only. -/
@[simp] theorem Wing.setCtr_keeps (w : Wing) (o : Nat) (v : DWord) :
    (w.setCtr o v).id = w.id ∧ (w.setCtr o v).life = w.life ∧ (w.setCtr o v).aptBase = w.aptBase ∧
    (w.setCtr o v).portGen = w.portGen ∧ (w.setCtr o v).key = w.key ∧ (w.setCtr o v).keyValid = w.keyValid ∧
    (w.setCtr o v).ctl = w.ctl ∧ (w.setCtr o v).vst = w.vst ∧ (w.setCtr o v).pan = w.pan ∧ (w.setCtr o v).hall = w.hall ∧
    (w.setCtr o v).pch = w.pch ∧ (w.setCtr o v).sl = w.sl ∧ (w.setCtr o v).ring = w.ring ∧ (w.setCtr o v).drn = w.drn ∧
    (w.setCtr o v).psg = w.psg ∧ (w.setCtr o v).pwr = w.pwr ∧ (w.setCtr o v).int = w.int ∧ (w.setCtr o v).hrt = w.hrt ∧ (w.setCtr o v).mem = w.mem ∧
    (w.setCtr o v).out = w.out := by
  refine ⟨rfl, rfl, rfl, rfl, rfl, rfl, rfl, rfl, rfl, rfl, rfl, rfl, rfl, rfl, rfl, rfl, rfl, rfl, rfl, rfl⟩

/-- `countN` changes the register file only. -/
@[simp] theorem Wing.countN_keeps (w : Wing) (o n : Nat) :
    (w.countN o n).id = w.id ∧ (w.countN o n).life = w.life ∧ (w.countN o n).aptBase = w.aptBase ∧
    (w.countN o n).portGen = w.portGen ∧ (w.countN o n).key = w.key ∧ (w.countN o n).keyValid = w.keyValid ∧
    (w.countN o n).ctl = w.ctl ∧ (w.countN o n).vst = w.vst ∧ (w.countN o n).pan = w.pan ∧ (w.countN o n).hall = w.hall ∧
    (w.countN o n).pch = w.pch ∧ (w.countN o n).sl = w.sl ∧ (w.countN o n).ring = w.ring ∧ (w.countN o n).drn = w.drn ∧
    (w.countN o n).psg = w.psg ∧ (w.countN o n).pwr = w.pwr ∧ (w.countN o n).int = w.int ∧ (w.countN o n).hrt = w.hrt ∧ (w.countN o n).mem = w.mem ∧
    (w.countN o n).out = w.out := by
  refine ⟨rfl, rfl, rfl, rfl, rfl, rfl, rfl, rfl, rfl, rfl, rfl, rfl, rfl, rfl, rfl, rfl, rfl, rfl, rfl, rfl⟩

/-- `count` changes the register file only. -/
@[simp] theorem Wing.count_keeps (w : Wing) (o : Nat) :
    (w.count o).id = w.id ∧ (w.count o).life = w.life ∧ (w.count o).aptBase = w.aptBase ∧ (w.count o).portGen = w.portGen ∧
    (w.count o).key = w.key ∧ (w.count o).keyValid = w.keyValid ∧ (w.count o).ctl = w.ctl ∧ (w.count o).vst = w.vst ∧
    (w.count o).pan = w.pan ∧ (w.count o).hall = w.hall ∧ (w.count o).pch = w.pch ∧ (w.count o).sl = w.sl ∧
    (w.count o).ring = w.ring ∧ (w.count o).drn = w.drn ∧ (w.count o).psg = w.psg ∧ (w.count o).pwr = w.pwr ∧
    (w.count o).int = w.int ∧ (w.count o).hrt = w.hrt ∧ (w.count o).mem = w.mem ∧ (w.count o).out = w.out := by
  refine ⟨rfl, rfl, rfl, rfl, rfl, rfl, rfl, rfl, rfl, rfl, rfl, rfl, rfl, rfl, rfl, rfl, rfl, rfl, rfl, rfl⟩

/-- `setCfg` changes the register file only. -/
@[simp] theorem Wing.setCfg_keeps (w : Wing) (k : Nat) (v : Word) :
    (w.setCfg k v).id = w.id ∧ (w.setCfg k v).life = w.life ∧ (w.setCfg k v).aptBase = w.aptBase ∧
    (w.setCfg k v).portGen = w.portGen ∧ (w.setCfg k v).key = w.key ∧ (w.setCfg k v).keyValid = w.keyValid ∧
    (w.setCfg k v).ctl = w.ctl ∧ (w.setCfg k v).vst = w.vst ∧ (w.setCfg k v).pan = w.pan ∧ (w.setCfg k v).hall = w.hall ∧
    (w.setCfg k v).pch = w.pch ∧ (w.setCfg k v).sl = w.sl ∧ (w.setCfg k v).ring = w.ring ∧ (w.setCfg k v).drn = w.drn ∧
    (w.setCfg k v).psg = w.psg ∧ (w.setCfg k v).pwr = w.pwr ∧ (w.setCfg k v).int = w.int ∧ (w.setCfg k v).hrt = w.hrt ∧ (w.setCfg k v).mem = w.mem ∧
    (w.setCfg k v).out = w.out := by
  refine ⟨rfl, rfl, rfl, rfl, rfl, rfl, rfl, rfl, rfl, rfl, rfl, rfl, rfl, rfl, rfl, rfl, rfl, rfl, rfl, rfl⟩

/-- `setEff` changes the register file only. -/
@[simp] theorem Wing.setEff_keeps (w : Wing) (k : Nat) (v : Word) :
    (w.setEff k v).id = w.id ∧ (w.setEff k v).life = w.life ∧ (w.setEff k v).aptBase = w.aptBase ∧
    (w.setEff k v).portGen = w.portGen ∧ (w.setEff k v).key = w.key ∧ (w.setEff k v).keyValid = w.keyValid ∧
    (w.setEff k v).ctl = w.ctl ∧ (w.setEff k v).vst = w.vst ∧ (w.setEff k v).pan = w.pan ∧ (w.setEff k v).hall = w.hall ∧
    (w.setEff k v).pch = w.pch ∧ (w.setEff k v).sl = w.sl ∧ (w.setEff k v).ring = w.ring ∧ (w.setEff k v).drn = w.drn ∧
    (w.setEff k v).psg = w.psg ∧ (w.setEff k v).pwr = w.pwr ∧ (w.setEff k v).int = w.int ∧ (w.setEff k v).hrt = w.hrt ∧ (w.setEff k v).mem = w.mem ∧
    (w.setEff k v).out = w.out := by
  refine ⟨rfl, rfl, rfl, rfl, rfl, rfl, rfl, rfl, rfl, rfl, rfl, rfl, rfl, rfl, rfl, rfl, rfl, rfl, rfl, rfl⟩

/-- `logTko` changes the register file only. -/
@[simp] theorem Wing.logTko_keeps (w : Wing) (e : BitVec 4) :
    (w.logTko e).id = w.id ∧ (w.logTko e).life = w.life ∧ (w.logTko e).aptBase = w.aptBase ∧ (w.logTko e).portGen = w.portGen ∧
    (w.logTko e).key = w.key ∧ (w.logTko e).keyValid = w.keyValid ∧ (w.logTko e).ctl = w.ctl ∧ (w.logTko e).vst = w.vst ∧
    (w.logTko e).pan = w.pan ∧ (w.logTko e).hall = w.hall ∧ (w.logTko e).pch = w.pch ∧ (w.logTko e).sl = w.sl ∧
    (w.logTko e).ring = w.ring ∧ (w.logTko e).drn = w.drn ∧ (w.logTko e).psg = w.psg ∧ (w.logTko e).pwr = w.pwr ∧
    (w.logTko e).int = w.int ∧ (w.logTko e).hrt = w.hrt ∧ (w.logTko e).mem = w.mem ∧ (w.logTko e).out = w.out := by
  refine ⟨rfl, rfl, rfl, rfl, rfl, rfl, rfl, rfl, rfl, rfl, rfl, rfl, rfl, rfl, rfl, rfl, rfl, rfl, rfl, rfl⟩

/-- As `count`, when the condition holds. -/
@[simp] theorem Wing.countIf_keeps (w : Wing) (c : Bool) (o : Nat) :
    (w.countIf c o).id = w.id ∧ (w.countIf c o).life = w.life ∧ (w.countIf c o).aptBase = w.aptBase ∧
    (w.countIf c o).portGen = w.portGen ∧ (w.countIf c o).key = w.key ∧ (w.countIf c o).keyValid = w.keyValid ∧
    (w.countIf c o).ctl = w.ctl ∧ (w.countIf c o).vst = w.vst ∧ (w.countIf c o).pan = w.pan ∧ (w.countIf c o).hall = w.hall ∧
    (w.countIf c o).pch = w.pch ∧ (w.countIf c o).sl = w.sl ∧ (w.countIf c o).ring = w.ring ∧ (w.countIf c o).drn = w.drn ∧
    (w.countIf c o).psg = w.psg ∧ (w.countIf c o).pwr = w.pwr ∧ (w.countIf c o).int = w.int ∧ (w.countIf c o).hrt = w.hrt ∧ (w.countIf c o).mem = w.mem ∧
    (w.countIf c o).out = w.out := by
  cases c <;> simp [Wing.countIf]

/-- A counter after an event is counted at one. -/
theorem Wing.ctr_countN (w : Wing) (o n k : Nat) :
    (w.countN o n).ctr k = if k = o then w.ctr o + BitVec.ofNat 64 n else w.ctr k := by
  by_cases h : k = o
  · subst h; simp [Wing.countN, Wing.setCtr, Wing.ctr]
  · simp [Wing.countN, Wing.setCtr, Wing.ctr, SMap.get_set_ne _ _ _ h, h]

@[simp] theorem Wing.ctr_count_self (w : Wing) (o : Nat) : (w.count o).ctr o = w.ctr o + 1 := by
  simp [Wing.count, Wing.ctr_countN]

theorem Wing.ctr_count_ne (w : Wing) {o k : Nat} (h : k ≠ o) : (w.count o).ctr k = w.ctr k := by
  simp [Wing.count, Wing.ctr_countN, h]

/-- Counting changes no register but the counters. -/
@[simp] theorem Wing.setCtr_regs (w : Wing) (o : Nat) (v : DWord) :
    (w.setCtr o v).regs.cfg = w.regs.cfg ∧ (w.setCtr o v).regs.eff = w.regs.eff ∧ (w.setCtr o v).regs.dual = w.regs.dual ∧
    (w.setCtr o v).regs.hold = w.regs.hold ∧ (w.setCtr o v).regs.indAddr = w.regs.indAddr ∧
    (w.setCtr o v).regs.indPeek = w.regs.indPeek ∧ (w.setCtr o v).regs.indInc = w.regs.indInc ∧
    (w.setCtr o v).regs.indCap = w.regs.indCap ∧ (w.setCtr o v).regs.snapSeq = w.regs.snapSeq ∧
    (w.setCtr o v).regs.snapTick = w.regs.snapTick ∧ (w.setCtr o v).regs.snapPend = w.regs.snapPend ∧
    (w.setCtr o v).regs.regErrLog = w.regs.regErrLog ∧ (w.setCtr o v).regs.aliasKept = w.regs.aliasKept ∧
    (w.setCtr o v).regs.portHeld = w.regs.portHeld ∧ (w.setCtr o v).regs.portQueue = w.regs.portQueue ∧
    (w.setCtr o v).regs.srcOld = w.regs.srcOld ∧ (w.setCtr o v).regs.vstRejectLog = w.regs.vstRejectLog ∧
    (w.setCtr o v).regs.engEscLog = w.regs.engEscLog ∧ (w.setCtr o v).regs.pchFault = w.regs.pchFault ∧
    (w.setCtr o v).regs.tkoLog = w.regs.tkoLog ∧ (w.setCtr o v).regs.tkoDigTick = w.regs.tkoDigTick ∧
    (w.setCtr o v).regs.tkoDigLog = w.regs.tkoDigLog := by
  refine ⟨rfl, rfl, rfl, rfl, rfl, rfl, rfl, rfl, rfl, rfl, rfl, rfl, rfl, rfl, rfl, rfl, rfl, rfl, rfl, rfl, rfl, rfl⟩

@[simp] theorem Wing.countN_regs (w : Wing) (o n : Nat) :
    (w.countN o n).regs.cfg = w.regs.cfg ∧ (w.countN o n).regs.eff = w.regs.eff ∧ (w.countN o n).regs.dual = w.regs.dual ∧
    (w.countN o n).regs.hold = w.regs.hold ∧ (w.countN o n).regs.indAddr = w.regs.indAddr ∧
    (w.countN o n).regs.indPeek = w.regs.indPeek ∧ (w.countN o n).regs.indInc = w.regs.indInc ∧
    (w.countN o n).regs.indCap = w.regs.indCap ∧ (w.countN o n).regs.snapSeq = w.regs.snapSeq ∧
    (w.countN o n).regs.snapTick = w.regs.snapTick ∧ (w.countN o n).regs.snapPend = w.regs.snapPend ∧
    (w.countN o n).regs.regErrLog = w.regs.regErrLog ∧ (w.countN o n).regs.aliasKept = w.regs.aliasKept ∧
    (w.countN o n).regs.portHeld = w.regs.portHeld ∧ (w.countN o n).regs.portQueue = w.regs.portQueue ∧
    (w.countN o n).regs.srcOld = w.regs.srcOld ∧ (w.countN o n).regs.vstRejectLog = w.regs.vstRejectLog ∧
    (w.countN o n).regs.engEscLog = w.regs.engEscLog ∧ (w.countN o n).regs.pchFault = w.regs.pchFault ∧
    (w.countN o n).regs.tkoLog = w.regs.tkoLog ∧ (w.countN o n).regs.tkoDigTick = w.regs.tkoDigTick ∧
    (w.countN o n).regs.tkoDigLog = w.regs.tkoDigLog := by
  simp [Wing.countN]

@[simp] theorem Wing.count_regs (w : Wing) (o : Nat) :
    (w.count o).regs.cfg = w.regs.cfg ∧ (w.count o).regs.eff = w.regs.eff ∧ (w.count o).regs.dual = w.regs.dual ∧
    (w.count o).regs.hold = w.regs.hold ∧ (w.count o).regs.indAddr = w.regs.indAddr ∧
    (w.count o).regs.indPeek = w.regs.indPeek ∧ (w.count o).regs.indInc = w.regs.indInc ∧
    (w.count o).regs.indCap = w.regs.indCap ∧ (w.count o).regs.snapSeq = w.regs.snapSeq ∧
    (w.count o).regs.snapTick = w.regs.snapTick ∧ (w.count o).regs.snapPend = w.regs.snapPend ∧
    (w.count o).regs.regErrLog = w.regs.regErrLog ∧ (w.count o).regs.aliasKept = w.regs.aliasKept ∧
    (w.count o).regs.portHeld = w.regs.portHeld ∧ (w.count o).regs.portQueue = w.regs.portQueue ∧
    (w.count o).regs.srcOld = w.regs.srcOld ∧ (w.count o).regs.vstRejectLog = w.regs.vstRejectLog ∧
    (w.count o).regs.engEscLog = w.regs.engEscLog ∧ (w.count o).regs.pchFault = w.regs.pchFault ∧
    (w.count o).regs.tkoLog = w.regs.tkoLog ∧ (w.count o).regs.tkoDigTick = w.regs.tkoDigTick ∧
    (w.count o).regs.tkoDigLog = w.regs.tkoDigLog := by
  simp [Wing.count]

@[simp] theorem Wing.countIf_regs (w : Wing) (c : Bool) (o : Nat) :
    (w.countIf c o).regs.cfg = w.regs.cfg ∧ (w.countIf c o).regs.eff = w.regs.eff ∧ (w.countIf c o).regs.dual = w.regs.dual ∧
    (w.countIf c o).regs.hold = w.regs.hold ∧ (w.countIf c o).regs.indAddr = w.regs.indAddr ∧
    (w.countIf c o).regs.indPeek = w.regs.indPeek ∧ (w.countIf c o).regs.indInc = w.regs.indInc ∧
    (w.countIf c o).regs.indCap = w.regs.indCap ∧ (w.countIf c o).regs.snapSeq = w.regs.snapSeq ∧
    (w.countIf c o).regs.snapTick = w.regs.snapTick ∧ (w.countIf c o).regs.snapPend = w.regs.snapPend ∧
    (w.countIf c o).regs.regErrLog = w.regs.regErrLog ∧ (w.countIf c o).regs.aliasKept = w.regs.aliasKept ∧
    (w.countIf c o).regs.portHeld = w.regs.portHeld ∧ (w.countIf c o).regs.portQueue = w.regs.portQueue ∧
    (w.countIf c o).regs.srcOld = w.regs.srcOld ∧ (w.countIf c o).regs.vstRejectLog = w.regs.vstRejectLog ∧
    (w.countIf c o).regs.engEscLog = w.regs.engEscLog ∧ (w.countIf c o).regs.pchFault = w.regs.pchFault ∧
    (w.countIf c o).regs.tkoLog = w.regs.tkoLog ∧ (w.countIf c o).regs.tkoDigTick = w.regs.tkoDigTick ∧
    (w.countIf c o).regs.tkoDigLog = w.regs.tkoDigLog := by
  cases c <;> simp [Wing.countIf]

@[simp] theorem Wing.cfgW_count (w : Wing) (o k : Nat) : (w.count o).cfgW k = w.cfgW k := rfl

@[simp] theorem Wing.effW_count (w : Wing) (o k : Nat) : (w.count o).effW k = w.effW k := rfl

/-- A stored word after a write. -/
theorem Wing.cfgW_setCfg (w : Wing) (k j : Nat) (v : Word) : (w.setCfg k v).cfgW j = if j = k then v else w.cfgW j := by
  have e : (w.setCfg k v).cfgW j = SMap.get (SMap.set w.regs.cfg (cfgDefault w.portGen k) k v) (cfgDefault w.portGen j) j := rfl
  rw [e]
  by_cases h : j = k
  · subst h; simp
  · rw [if_neg h]
    unfold SMap.set
    split
    · exact SMap.get_erase_ne _ _ h
    · exact SMap.get_insert_ne _ _ _ h

/-- A word in force after a write. -/
theorem Wing.effW_setEff (w : Wing) (k j : Nat) (v : Word) : (w.setEff k v).effW j = if j = k then v else w.effW j := by
  have e : (w.setEff k v).effW j = SMap.get (SMap.set w.regs.eff (cfgDefault w.portGen k) k v) (cfgDefault w.portGen j) j := rfl
  rw [e]
  by_cases h : j = k
  · subst h; simp
  · rw [if_neg h]
    unfold SMap.set
    split
    · exact SMap.get_erase_ne _ _ h
    · exact SMap.get_insert_ne _ _ _ h

@[simp] theorem Wing.effW_setCfg (w : Wing) (k j : Nat) (v : Word) : (w.setCfg k v).effW j = w.effW j := rfl

@[simp] theorem Wing.cfgW_setEff (w : Wing) (k j : Nat) (v : Word) : (w.setEff k v).cfgW j = w.cfgW j := rfl

/-- A slice's state changes the slices only. -/
@[simp] theorem Wing.setSlice_keeps (w : Wing) (s : BitVec 12) (v : SliceSt) :
    (w.setSlice s v).id = w.id ∧ (w.setSlice s v).life = w.life ∧ (w.setSlice s v).aptBase = w.aptBase ∧
    (w.setSlice s v).portGen = w.portGen ∧ (w.setSlice s v).key = w.key ∧ (w.setSlice s v).keyValid = w.keyValid ∧
    (w.setSlice s v).regs = w.regs ∧ (w.setSlice s v).ctl = w.ctl ∧ (w.setSlice s v).vst = w.vst ∧
    (w.setSlice s v).pan = w.pan ∧ (w.setSlice s v).hall = w.hall ∧ (w.setSlice s v).pch = w.pch ∧
    (w.setSlice s v).ring = w.ring ∧ (w.setSlice s v).drn = w.drn ∧ (w.setSlice s v).psg = w.psg ∧
    (w.setSlice s v).pwr = w.pwr ∧ (w.setSlice s v).int = w.int ∧ (w.setSlice s v).hrt = w.hrt ∧ (w.setSlice s v).mem = w.mem ∧
    (w.setSlice s v).out = w.out := by
  refine ⟨rfl, rfl, rfl, rfl, rfl, rfl, rfl, rfl, rfl, rfl, rfl, rfl, rfl, rfl, rfl, rfl, rfl, rfl, rfl, rfl⟩

/-- As `setSlice`. -/
@[simp] theorem Wing.modSlice_keeps (w : Wing) (s : BitVec 12) (f : SliceSt → SliceSt) :
    (w.modSlice s f).id = w.id ∧ (w.modSlice s f).life = w.life ∧ (w.modSlice s f).aptBase = w.aptBase ∧
    (w.modSlice s f).portGen = w.portGen ∧ (w.modSlice s f).key = w.key ∧ (w.modSlice s f).keyValid = w.keyValid ∧
    (w.modSlice s f).regs = w.regs ∧ (w.modSlice s f).ctl = w.ctl ∧ (w.modSlice s f).vst = w.vst ∧
    (w.modSlice s f).pan = w.pan ∧ (w.modSlice s f).hall = w.hall ∧ (w.modSlice s f).pch = w.pch ∧
    (w.modSlice s f).ring = w.ring ∧ (w.modSlice s f).drn = w.drn ∧ (w.modSlice s f).psg = w.psg ∧
    (w.modSlice s f).pwr = w.pwr ∧ (w.modSlice s f).int = w.int ∧ (w.modSlice s f).hrt = w.hrt ∧ (w.modSlice s f).mem = w.mem ∧
    (w.modSlice s f).out = w.out := by
  refine ⟨rfl, rfl, rfl, rfl, rfl, rfl, rfl, rfl, rfl, rfl, rfl, rfl, rfl, rfl, rfl, rfl, rfl, rfl, rfl, rfl⟩

/-- A slice after its state, or another's, was set. -/
theorem Wing.slice_setSlice (w : Wing) (s x : BitVec 12) (v : SliceSt) :
    (w.setSlice s v).slice x = if x = s then v else w.slice x := by
  unfold Wing.setSlice Wing.slice
  by_cases h : x = s
  · simp [h]
  · have : x.toNat ≠ s.toNat := fun e => h (BitVec.eq_of_toNat_eq e)
    simp [h, SMap.get_set_ne _ _ _ this]

@[simp] theorem Wing.slice_modSlice_self (w : Wing) (s : BitVec 12) (f : SliceSt → SliceSt) :
    (w.modSlice s f).slice s = f (w.slice s) := by
  simp [Wing.modSlice, Wing.slice_setSlice]

theorem Wing.slice_modSlice_ne (w : Wing) {s x : BitVec 12} (f : SliceSt → SliceSt) (h : x ≠ s) :
    (w.modSlice s f).slice x = w.slice x := by
  simp [Wing.modSlice, Wing.slice_setSlice, h]

/-- The running signature follows a change of the signed space (R344). -/
theorem Wing.withSigned_sigRun (w : Wing) (f : Wing → Wing) (h : (f w).int.sigRun = w.int.sigRun) :
    (w.withSigned f).int.sigRun = w.int.sigRun ^^^ (signatureOf w.signedWords ^^^ signatureOf (f w).signedWords) := by
  unfold Wing.withSigned
  simp only
  split
  · next e => simp [e, h]
  · rfl

/-- Folding a change into the running signature changes no more than the signature. -/
@[simp] theorem Wing.withSigned_keeps (w : Wing) (f : Wing → Wing) :
    (w.withSigned f).id = (f w).id ∧ (w.withSigned f).life = (f w).life ∧ (w.withSigned f).aptBase = (f w).aptBase ∧
    (w.withSigned f).portGen = (f w).portGen ∧ (w.withSigned f).key = (f w).key ∧ (w.withSigned f).keyValid = (f w).keyValid ∧
    (w.withSigned f).regs = (f w).regs ∧ (w.withSigned f).ctl = (f w).ctl ∧ (w.withSigned f).vst = (f w).vst ∧
    (w.withSigned f).pan = (f w).pan ∧ (w.withSigned f).hall = (f w).hall ∧ (w.withSigned f).pch = (f w).pch ∧
    (w.withSigned f).sl = (f w).sl ∧ (w.withSigned f).ring = (f w).ring ∧ (w.withSigned f).drn = (f w).drn ∧
    (w.withSigned f).psg = (f w).psg ∧ (w.withSigned f).pwr = (f w).pwr ∧ (w.withSigned f).hrt = (f w).hrt ∧ (w.withSigned f).mem = (f w).mem ∧
    (w.withSigned f).out = (f w).out := by
  unfold Wing.withSigned
  simp only
  split <;> simp

/-- The slots of the pantry. -/
@[simp] theorem Wing.setSlots_keeps (w : Wing) (m : SMap Slot) :
    (w.setSlots m).id = w.id ∧ (w.setSlots m).life = w.life ∧ (w.setSlots m).aptBase = w.aptBase ∧
    (w.setSlots m).portGen = w.portGen ∧ (w.setSlots m).key = w.key ∧ (w.setSlots m).keyValid = w.keyValid ∧
    (w.setSlots m).regs = w.regs ∧ (w.setSlots m).ctl = w.ctl ∧ (w.setSlots m).vst = w.vst ∧ (w.setSlots m).hall = w.hall ∧
    (w.setSlots m).pch = w.pch ∧ (w.setSlots m).sl = w.sl ∧ (w.setSlots m).ring = w.ring ∧ (w.setSlots m).drn = w.drn ∧
    (w.setSlots m).psg = w.psg ∧ (w.setSlots m).pwr = w.pwr ∧ (w.setSlots m).int = w.int ∧ (w.setSlots m).hrt = w.hrt ∧ (w.setSlots m).mem = w.mem ∧
    (w.setSlots m).out = w.out := by
  refine ⟨rfl, rfl, rfl, rfl, rfl, rfl, rfl, rfl, rfl, rfl, rfl, rfl, rfl, rfl, rfl, rfl, rfl, rfl, rfl, rfl⟩

@[simp] theorem Wing.setSlots_pan (w : Wing) (m : SMap Slot) : (w.setSlots m).pan = { w.pan with slots := m } := rfl

/-- A vector's slot. -/
@[simp] theorem Wing.modSlot_keeps (w : Wing) (k : Word) (f : Slot → Slot) :
    (w.modSlot k f).id = w.id ∧ (w.modSlot k f).life = w.life ∧ (w.modSlot k f).aptBase = w.aptBase ∧
    (w.modSlot k f).portGen = w.portGen ∧ (w.modSlot k f).key = w.key ∧ (w.modSlot k f).keyValid = w.keyValid ∧
    (w.modSlot k f).regs = w.regs ∧ (w.modSlot k f).ctl = w.ctl ∧ (w.modSlot k f).vst = w.vst ∧ (w.modSlot k f).hall = w.hall ∧
    (w.modSlot k f).pch = w.pch ∧ (w.modSlot k f).sl = w.sl ∧ (w.modSlot k f).ring = w.ring ∧ (w.modSlot k f).drn = w.drn ∧
    (w.modSlot k f).psg = w.psg ∧ (w.modSlot k f).pwr = w.pwr ∧ (w.modSlot k f).int = w.int ∧ (w.modSlot k f).hrt = w.hrt ∧ (w.modSlot k f).mem = w.mem ∧
    (w.modSlot k f).out = w.out := by
  unfold Wing.modSlot
  split <;> simp

/-- A vector's context. -/
@[simp] theorem Wing.modCtx_keeps (w : Wing) (k : Word) (f : Ctx → Ctx) :
    (w.modCtx k f).id = w.id ∧ (w.modCtx k f).life = w.life ∧ (w.modCtx k f).aptBase = w.aptBase ∧
    (w.modCtx k f).portGen = w.portGen ∧ (w.modCtx k f).key = w.key ∧ (w.modCtx k f).keyValid = w.keyValid ∧
    (w.modCtx k f).regs = w.regs ∧ (w.modCtx k f).ctl = w.ctl ∧ (w.modCtx k f).vst = w.vst ∧ (w.modCtx k f).hall = w.hall ∧
    (w.modCtx k f).pch = w.pch ∧ (w.modCtx k f).sl = w.sl ∧ (w.modCtx k f).ring = w.ring ∧ (w.modCtx k f).drn = w.drn ∧
    (w.modCtx k f).psg = w.psg ∧ (w.modCtx k f).pwr = w.pwr ∧ (w.modCtx k f).int = w.int ∧ (w.modCtx k f).hrt = w.hrt ∧ (w.modCtx k f).mem = w.mem ∧
    (w.modCtx k f).out = w.out := by
  simp [Wing.modCtx]

/-- A vector's context, by a record or a command. -/
@[simp] theorem Wing.updCtx_keeps (w : Wing) (k : Word) (t : Tick) (f : Ctx → Ctx) :
    (w.updCtx k t f).id = w.id ∧ (w.updCtx k t f).life = w.life ∧ (w.updCtx k t f).aptBase = w.aptBase ∧
    (w.updCtx k t f).portGen = w.portGen ∧ (w.updCtx k t f).key = w.key ∧ (w.updCtx k t f).keyValid = w.keyValid ∧
    (w.updCtx k t f).regs = w.regs ∧ (w.updCtx k t f).ctl = w.ctl ∧ (w.updCtx k t f).vst = w.vst ∧
    (w.updCtx k t f).hall = w.hall ∧ (w.updCtx k t f).pch = w.pch ∧ (w.updCtx k t f).sl = w.sl ∧
    (w.updCtx k t f).ring = w.ring ∧ (w.updCtx k t f).drn = w.drn ∧ (w.updCtx k t f).psg = w.psg ∧
    (w.updCtx k t f).pwr = w.pwr ∧ (w.updCtx k t f).int = w.int ∧ (w.updCtx k t f).hrt = w.hrt ∧ (w.updCtx k t f).mem = w.mem ∧
    (w.updCtx k t f).out = w.out := by
  simp [Wing.updCtx]

/-- The slot that a search finds holds the key. -/
theorem findKey_key {key : Word} {m : SMap Slot} {n : Nat} {s : Slot} (h : findKey key m = some (n, s)) : s.ctx.key = key := by
  induction m with
  | nil => simp [findKey] at h
  | cons e m ih =>
    obtain ⟨i, x⟩ := e
    unfold findKey at h
    split at h
    · simp_all
    · exact ih h

/-- A resident vector's slot after a change of it. -/
theorem Wing.modSlot_slots (w : Wing) (key : Word) (f : Slot → Slot) {n : Nat} {s : Slot} (h : w.slotFor key = some (n, s)) :
    (w.modSlot key f).pan.slots = SMap.insert w.pan.slots n (f s) := by
  simp [Wing.modSlot, h]

theorem Wing.updCtx_slots (w : Wing) (key : Word) (t : Tick) (f : Ctx → Ctx) {n : Nat} {s : Slot}
    (h : w.slotFor key = some (n, s)) :
    (w.updCtx key t f).pan.slots = SMap.insert w.pan.slots n { s with ctx := s.ctx.changed (f s.ctx) t } := by
  unfold Wing.updCtx Wing.modCtx
  exact Wing.modSlot_slots w key _ h

theorem Wing.ctx?_of_slotFor (w : Wing) {key : Word} {n : Nat} {s : Slot} (h : w.slotFor key = some (n, s)) :
    w.ctx? key = some s.ctx := by
  simp [Wing.ctx?, h]

/-- Noting a change of a context touches its record-keeping only. -/
@[simp] theorem Ctx.changed_keeps (a b : Ctx) (t : Tick) :
    (a.changed b t).key = b.key ∧ (a.changed b t).state = b.state ∧ (a.changed b t).count = b.count ∧
    (a.changed b t).hasLast = b.hasLast ∧ (a.changed b t).lastCore = b.lastCore ∧ (a.changed b t).payload = b.payload ∧
    (a.changed b t).cfg = b.cfg ∧ (a.changed b t).modWin = b.modWin ∧ (a.changed b t).modEnd = b.modEnd ∧
    (a.changed b t).arrTick = b.arrTick ∧ (a.changed b t).pin = b.pin ∧ (a.changed b t).tag = b.tag := by
  unfold Ctx.changed
  split <;> simp

/-- A key enters the quarantine. -/
@[simp] theorem Wing.quarantine_keeps (w : Wing) (k : Word) :
    (w.quarantine k).id = w.id ∧ (w.quarantine k).life = w.life ∧ (w.quarantine k).aptBase = w.aptBase ∧
    (w.quarantine k).portGen = w.portGen ∧ (w.quarantine k).key = w.key ∧ (w.quarantine k).keyValid = w.keyValid ∧
    (w.quarantine k).regs = w.regs ∧ (w.quarantine k).ctl = w.ctl ∧ (w.quarantine k).vst = w.vst ∧
    (w.quarantine k).hall = w.hall ∧ (w.quarantine k).pch = w.pch ∧ (w.quarantine k).sl = w.sl ∧
    (w.quarantine k).ring = w.ring ∧ (w.quarantine k).drn = w.drn ∧ (w.quarantine k).psg = w.psg ∧
    (w.quarantine k).pwr = w.pwr ∧ (w.quarantine k).int = w.int ∧ (w.quarantine k).hrt = w.hrt ∧ (w.quarantine k).mem = w.mem ∧
    (w.quarantine k).out = w.out := by
  unfold Wing.quarantine
  split <;> simp

/-- A record takes its place in its group. -/
@[simp] theorem Wing.place_keeps (w : Wing) (r : Rec) :
    (w.place r).id = w.id ∧ (w.place r).life = w.life ∧ (w.place r).aptBase = w.aptBase ∧ (w.place r).portGen = w.portGen ∧
    (w.place r).key = w.key ∧ (w.place r).keyValid = w.keyValid ∧ (w.place r).regs = w.regs ∧ (w.place r).ctl = w.ctl ∧
    (w.place r).vst = w.vst ∧ (w.place r).pan = w.pan ∧ (w.place r).hall = w.hall ∧ (w.place r).pch = w.pch ∧
    (w.place r).sl = w.sl ∧ (w.place r).ring = w.ring ∧ (w.place r).drn = w.drn ∧ (w.place r).pwr = w.pwr ∧
    (w.place r).int = w.int ∧ (w.place r).hrt = w.hrt ∧ (w.place r).mem = w.mem ∧ (w.place r).out = w.out := by
  unfold Wing.place
  split <;> simp

/-- What a placed record leaves in the passage: one more record at the end of its group. -/
theorem Wing.place_psg (w : Wing) (r : Rec) :
    (w.place r).psg = match r.group with
      | .acceptance => { w.psg with acc := w.psg.acc ++ [r] }
      | .ordered => { w.psg with ord := w.psg.ord ++ [r] }
      | .deferred => { w.psg with defr := w.psg.defr ++ [r] }
      | .independent => { w.psg with rsy := w.psg.rsy ++ [r] }
      | .closing => w.psg
      | .fill => w.psg := by
  unfold Wing.place
  cases r.group <;> rfl

/-- An event record of the ordered group. -/
@[simp] theorem Wing.recordOrd_keeps (w : Wing) (s : BitVec 12) (r : BitVec 256) :
    (w.recordOrd s r).id = w.id ∧ (w.recordOrd s r).life = w.life ∧ (w.recordOrd s r).aptBase = w.aptBase ∧
    (w.recordOrd s r).portGen = w.portGen ∧ (w.recordOrd s r).key = w.key ∧ (w.recordOrd s r).keyValid = w.keyValid ∧
    (w.recordOrd s r).regs = w.regs ∧ (w.recordOrd s r).ctl = w.ctl ∧ (w.recordOrd s r).vst = w.vst ∧
    (w.recordOrd s r).pan = w.pan ∧ (w.recordOrd s r).hall = w.hall ∧ (w.recordOrd s r).pch = w.pch ∧
    (w.recordOrd s r).sl = w.sl ∧ (w.recordOrd s r).drn = w.drn ∧ (w.recordOrd s r).psg = w.psg ∧
    (w.recordOrd s r).pwr = w.pwr ∧ (w.recordOrd s r).int = w.int ∧ (w.recordOrd s r).hrt = w.hrt ∧ (w.recordOrd s r).mem = w.mem ∧
    (w.recordOrd s r).out = w.out := by
  refine ⟨rfl, rfl, rfl, rfl, rfl, rfl, rfl, rfl, rfl, rfl, rfl, rfl, rfl, rfl, rfl, rfl, rfl, rfl, rfl, rfl⟩

/-- An event record of the deferred group. -/
@[simp] theorem Wing.recordDef_keeps (w : Wing) (s : BitVec 12) (r : BitVec 256) :
    (w.recordDef s r).id = w.id ∧ (w.recordDef s r).life = w.life ∧ (w.recordDef s r).aptBase = w.aptBase ∧
    (w.recordDef s r).portGen = w.portGen ∧ (w.recordDef s r).key = w.key ∧ (w.recordDef s r).keyValid = w.keyValid ∧
    (w.recordDef s r).regs = w.regs ∧ (w.recordDef s r).ctl = w.ctl ∧ (w.recordDef s r).vst = w.vst ∧
    (w.recordDef s r).pan = w.pan ∧ (w.recordDef s r).hall = w.hall ∧ (w.recordDef s r).pch = w.pch ∧
    (w.recordDef s r).sl = w.sl ∧ (w.recordDef s r).drn = w.drn ∧ (w.recordDef s r).psg = w.psg ∧
    (w.recordDef s r).pwr = w.pwr ∧ (w.recordDef s r).int = w.int ∧ (w.recordDef s r).hrt = w.hrt ∧ (w.recordDef s r).mem = w.mem ∧
    (w.recordDef s r).out = w.out := by
  refine ⟨rfl, rfl, rfl, rfl, rfl, rfl, rfl, rfl, rfl, rfl, rfl, rfl, rfl, rfl, rfl, rfl, rfl, rfl, rfl, rfl⟩

/-- An acceptance record. -/
@[simp] theorem Wing.recordAcc_keeps (w : Wing) (m : Tick) (s : BitVec 12) (k : BitVec 97) (r : BitVec 256) :
    (w.recordAcc m s k r).id = w.id ∧ (w.recordAcc m s k r).life = w.life ∧ (w.recordAcc m s k r).aptBase = w.aptBase ∧
    (w.recordAcc m s k r).portGen = w.portGen ∧ (w.recordAcc m s k r).key = w.key ∧
    (w.recordAcc m s k r).keyValid = w.keyValid ∧ (w.recordAcc m s k r).regs = w.regs ∧ (w.recordAcc m s k r).ctl = w.ctl ∧
    (w.recordAcc m s k r).vst = w.vst ∧ (w.recordAcc m s k r).pan = w.pan ∧ (w.recordAcc m s k r).hall = w.hall ∧
    (w.recordAcc m s k r).pch = w.pch ∧ (w.recordAcc m s k r).sl = w.sl ∧ (w.recordAcc m s k r).drn = w.drn ∧
    (w.recordAcc m s k r).psg = w.psg ∧ (w.recordAcc m s k r).pwr = w.pwr ∧ (w.recordAcc m s k r).int = w.int ∧
    (w.recordAcc m s k r).hrt = w.hrt ∧ (w.recordAcc m s k r).mem = w.mem ∧ (w.recordAcc m s k r).out = w.out := by
  refine ⟨rfl, rfl, rfl, rfl, rfl, rfl, rfl, rfl, rfl, rfl, rfl, rfl, rfl, rfl, rfl, rfl, rfl, rfl, rfl, rfl⟩

@[simp] theorem Wing.recordOrd_ring (w : Wing) (s : BitVec 12) (r : BitVec 256) :
    (w.recordOrd s r).ring = { w.ring with recsOrd := w.ring.recsOrd ++ [(s, r)] } := rfl

@[simp] theorem Wing.recordDef_ring (w : Wing) (s : BitVec 12) (r : BitVec 256) :
    (w.recordDef s r).ring = { w.ring with recsDef := w.ring.recsDef ++ [(s, r)] } := rfl

/-- A lost RECHECK record is counted and shown. -/
@[simp] theorem Wing.recheckLost_keeps (w : Wing) (n : Nat) :
    (w.recheckLost n).id = w.id ∧ (w.recheckLost n).life = w.life ∧ (w.recheckLost n).aptBase = w.aptBase ∧
    (w.recheckLost n).portGen = w.portGen ∧ (w.recheckLost n).key = w.key ∧ (w.recheckLost n).keyValid = w.keyValid ∧
    (w.recheckLost n).ctl = w.ctl ∧ (w.recheckLost n).vst = w.vst ∧ (w.recheckLost n).pan = w.pan ∧
    (w.recheckLost n).hall = w.hall ∧ (w.recheckLost n).pch = w.pch ∧ (w.recheckLost n).ring = w.ring ∧
    (w.recheckLost n).drn = w.drn ∧ (w.recheckLost n).psg = w.psg ∧ (w.recheckLost n).pwr = w.pwr ∧
    (w.recheckLost n).int = w.int ∧ (w.recheckLost n).hrt = w.hrt ∧ (w.recheckLost n).mem = w.mem ∧ (w.recheckLost n).out = w.out := by
  unfold Wing.recheckLost
  split <;> simp

/-! ## Rounds -/

/-- What every step of a round keeps, the round keeps. -/
theorem foldl_keeps {α γ : Type} (g : Wing → γ) (f : Wing → α → Wing) (h : ∀ w a, g (f w a) = g w) (l : List α) (w : Wing) :
    g (l.foldl f w) = g w := by
  induction l generalizing w with
  | nil => rfl
  | cons a l ih => exact (ih (f w a)).trans (h w a)

end Sys2Proof.Machine
end

