-- ==== Sys2Proof/Laws/Frames.lean ====
section
/-! SUPPORT. Frames of a wing: which parts of it each shared operation leaves alone. An operation reads here as it does in its own file;
a part that a lemma does not name may change. -/

namespace Sys2Proof.Machine

/-! ## Shared operations -/

@[simp] theorem Wing.placePair_keeps (w : Wing) (next : BitVec 2) (t : Tick) :
    (w.placePair next t).id = w.id ∧ (w.placePair next t).life = w.life ∧ (w.placePair next t).aptBase = w.aptBase ∧
    (w.placePair next t).portGen = w.portGen ∧ (w.placePair next t).key = w.key ∧
    (w.placePair next t).keyValid = w.keyValid ∧ (w.placePair next t).regs = w.regs ∧ (w.placePair next t).ctl = w.ctl ∧
    (w.placePair next t).vst = w.vst ∧ (w.placePair next t).pan = w.pan ∧ (w.placePair next t).hall = w.hall ∧
    (w.placePair next t).pch = w.pch ∧ (w.placePair next t).sl = w.sl ∧ (w.placePair next t).ring = w.ring ∧
    (w.placePair next t).drn = w.drn ∧ (w.placePair next t).pwr = w.pwr ∧ (w.placePair next t).int = w.int ∧
    (w.placePair next t).hrt = w.hrt ∧ (w.placePair next t).out = w.out :=
  ⟨rfl, rfl, rfl, rfl, rfl, rfl, rfl, rfl, rfl, rfl, rfl, rfl, rfl, rfl, rfl, rfl, rfl, rfl, rfl⟩

@[simp] theorem Wing.scheduleExit_keeps (w : Wing) (c : WakeCause) (during : Bool) :
    (w.scheduleExit c during).id = w.id ∧ (w.scheduleExit c during).life = w.life ∧
    (w.scheduleExit c during).aptBase = w.aptBase ∧ (w.scheduleExit c during).portGen = w.portGen ∧
    (w.scheduleExit c during).key = w.key ∧ (w.scheduleExit c during).keyValid = w.keyValid ∧
    (w.scheduleExit c during).regs = w.regs ∧ (w.scheduleExit c during).ctl = w.ctl ∧ (w.scheduleExit c during).vst = w.vst ∧
    (w.scheduleExit c during).pan = w.pan ∧ (w.scheduleExit c during).hall = w.hall ∧ (w.scheduleExit c during).pch = w.pch ∧
    (w.scheduleExit c during).sl = w.sl ∧ (w.scheduleExit c during).ring = w.ring ∧ (w.scheduleExit c during).drn = w.drn ∧
    (w.scheduleExit c during).int = w.int ∧ (w.scheduleExit c during).hrt = w.hrt ∧ (w.scheduleExit c during).out = w.out := by
  unfold Wing.scheduleExit
  refine ⟨?_, ?_, ?_, ?_, ?_, ?_, ?_, ?_, ?_, ?_, ?_, ?_, ?_, ?_, ?_, ?_, ?_,
    ?_⟩ <;> dsimp only <;> (repeat' split) <;> first | rfl | (simp; done) | simp [*]

@[simp] theorem Wing.keepWake_keeps (w : Wing) (during : Bool) (c : WakeCause) :
    (w.keepWake during c).id = w.id ∧ (w.keepWake during c).life = w.life ∧ (w.keepWake during c).aptBase = w.aptBase ∧
    (w.keepWake during c).portGen = w.portGen ∧ (w.keepWake during c).key = w.key ∧
    (w.keepWake during c).keyValid = w.keyValid ∧ (w.keepWake during c).ctl = w.ctl ∧ (w.keepWake during c).vst = w.vst ∧
    (w.keepWake during c).pan = w.pan ∧ (w.keepWake during c).hall = w.hall ∧ (w.keepWake during c).pch = w.pch ∧
    (w.keepWake during c).sl = w.sl ∧ (w.keepWake during c).ring = w.ring ∧ (w.keepWake during c).drn = w.drn ∧
    (w.keepWake during c).psg = w.psg ∧ (w.keepWake during c).int = w.int ∧ (w.keepWake during c).hrt = w.hrt ∧
    (w.keepWake during c).out = w.out := by
  unfold Wing.keepWake
  refine ⟨?_, ?_, ?_, ?_, ?_, ?_, ?_, ?_, ?_, ?_, ?_, ?_, ?_, ?_, ?_, ?_, ?_, ?_⟩ <;> (repeat' split) <;> first | rfl | simp

@[simp] theorem Wing.wake_keeps (w : Wing) (c : WakeCause) :
    (w.wake c).id = w.id ∧ (w.wake c).life = w.life ∧ (w.wake c).aptBase = w.aptBase ∧ (w.wake c).portGen = w.portGen ∧
    (w.wake c).key = w.key ∧ (w.wake c).keyValid = w.keyValid ∧ (w.wake c).ctl = w.ctl ∧ (w.wake c).vst = w.vst ∧
    (w.wake c).pan = w.pan ∧ (w.wake c).hall = w.hall ∧ (w.wake c).pch = w.pch ∧ (w.wake c).sl = w.sl ∧
    (w.wake c).ring = w.ring ∧ (w.wake c).drn = w.drn ∧ (w.wake c).int = w.int ∧ (w.wake c).hrt = w.hrt ∧
    (w.wake c).out = w.out := by
  unfold Wing.wake
  refine ⟨?_, ?_, ?_, ?_, ?_, ?_, ?_, ?_, ?_, ?_, ?_, ?_, ?_, ?_, ?_, ?_, ?_⟩ <;> (repeat' split) <;> first | rfl | simp

/-! ## Vectors and the pantry -/

@[simp] theorem Wing.applyClaim_keeps (w : Wing) (p : Byte) (key : Word) (t : Tick) :
    (w.applyClaim p key t).id = w.id ∧ (w.applyClaim p key t).life = w.life ∧ (w.applyClaim p key t).aptBase = w.aptBase ∧
    (w.applyClaim p key t).portGen = w.portGen ∧ (w.applyClaim p key t).key = w.key ∧
    (w.applyClaim p key t).keyValid = w.keyValid ∧ (w.applyClaim p key t).ctl = w.ctl ∧ (w.applyClaim p key t).vst = w.vst ∧
    (w.applyClaim p key t).hall = w.hall ∧ (w.applyClaim p key t).pch = w.pch ∧ (w.applyClaim p key t).sl = w.sl ∧
    (w.applyClaim p key t).ring = w.ring ∧ (w.applyClaim p key t).drn = w.drn ∧ (w.applyClaim p key t).psg = w.psg ∧
    (w.applyClaim p key t).pwr = w.pwr ∧ (w.applyClaim p key t).int = w.int ∧ (w.applyClaim p key t).hrt = w.hrt ∧
    (w.applyClaim p key t).out = w.out := by
  unfold Wing.applyClaim
  refine ⟨?_, ?_, ?_, ?_, ?_, ?_, ?_, ?_, ?_, ?_, ?_, ?_, ?_, ?_, ?_, ?_, ?_, ?_⟩ <;> (repeat' split) <;> first | rfl | simp

@[simp] theorem Wing.applyReturn_keeps (w : Wing) (p : Byte) (key : Word) (t : Tick) :
    (w.applyReturn p key t).id = w.id ∧ (w.applyReturn p key t).life = w.life ∧ (w.applyReturn p key t).aptBase = w.aptBase ∧
    (w.applyReturn p key t).portGen = w.portGen ∧ (w.applyReturn p key t).key = w.key ∧
    (w.applyReturn p key t).keyValid = w.keyValid ∧ (w.applyReturn p key t).ctl = w.ctl ∧
    (w.applyReturn p key t).vst = w.vst ∧ (w.applyReturn p key t).hall = w.hall ∧ (w.applyReturn p key t).pch = w.pch ∧
    (w.applyReturn p key t).sl = w.sl ∧ (w.applyReturn p key t).ring = w.ring ∧ (w.applyReturn p key t).drn = w.drn ∧
    (w.applyReturn p key t).psg = w.psg ∧ (w.applyReturn p key t).pwr = w.pwr ∧ (w.applyReturn p key t).int = w.int ∧
    (w.applyReturn p key t).hrt = w.hrt ∧ (w.applyReturn p key t).out = w.out := by
  unfold Wing.applyReturn
  refine ⟨?_, ?_, ?_, ?_, ?_, ?_, ?_, ?_, ?_, ?_, ?_, ?_, ?_, ?_, ?_, ?_, ?_, ?_⟩ <;> (repeat' split) <;> first | rfl | simp

@[simp] theorem Wing.applyComplete_keeps (w : Wing) (p : Byte) (key : Word) (t : Tick) :
    (w.applyComplete p key t).id = w.id ∧ (w.applyComplete p key t).life = w.life ∧
    (w.applyComplete p key t).aptBase = w.aptBase ∧ (w.applyComplete p key t).portGen = w.portGen ∧
    (w.applyComplete p key t).key = w.key ∧ (w.applyComplete p key t).keyValid = w.keyValid ∧
    (w.applyComplete p key t).ctl = w.ctl ∧ (w.applyComplete p key t).hall = w.hall ∧ (w.applyComplete p key t).pch = w.pch ∧
    (w.applyComplete p key t).sl = w.sl ∧ (w.applyComplete p key t).ring = w.ring ∧ (w.applyComplete p key t).drn = w.drn ∧
    (w.applyComplete p key t).psg = w.psg ∧ (w.applyComplete p key t).pwr = w.pwr ∧ (w.applyComplete p key t).int = w.int ∧
    (w.applyComplete p key t).hrt = w.hrt ∧ (w.applyComplete p key t).out = w.out := by
  unfold Wing.applyComplete
  refine ⟨?_, ?_, ?_, ?_, ?_, ?_, ?_, ?_, ?_, ?_, ?_, ?_, ?_, ?_, ?_, ?_, ?_⟩ <;> (repeat' split) <;> first | rfl | simp

@[simp] theorem Wing.windowEnds_keeps (w : Wing) (t : Tick) :
    (w.windowEnds t).id = w.id ∧ (w.windowEnds t).life = w.life ∧ (w.windowEnds t).aptBase = w.aptBase ∧
    (w.windowEnds t).portGen = w.portGen ∧ (w.windowEnds t).key = w.key ∧ (w.windowEnds t).keyValid = w.keyValid ∧
    (w.windowEnds t).regs = w.regs ∧ (w.windowEnds t).ctl = w.ctl ∧ (w.windowEnds t).vst = w.vst ∧
    (w.windowEnds t).hall = w.hall ∧ (w.windowEnds t).pch = w.pch ∧ (w.windowEnds t).sl = w.sl ∧
    (w.windowEnds t).ring = w.ring ∧ (w.windowEnds t).drn = w.drn ∧ (w.windowEnds t).psg = w.psg ∧
    (w.windowEnds t).pwr = w.pwr ∧ (w.windowEnds t).int = w.int ∧ (w.windowEnds t).hrt = w.hrt ∧ (w.windowEnds t).out = w.out :=
  ⟨rfl, rfl, rfl, rfl, rfl, rfl, rfl, rfl, rfl, rfl, rfl, rfl, rfl, rfl, rfl, rfl, rfl, rfl, rfl⟩

@[simp] theorem Wing.issueReads_keeps (w : Wing) :
    w.issueReads.id = w.id ∧ w.issueReads.life = w.life ∧ w.issueReads.aptBase = w.aptBase ∧
    w.issueReads.portGen = w.portGen ∧ w.issueReads.key = w.key ∧ w.issueReads.keyValid = w.keyValid ∧
    w.issueReads.regs = w.regs ∧ w.issueReads.ctl = w.ctl ∧ w.issueReads.vst = w.vst ∧ w.issueReads.hall = w.hall ∧
    w.issueReads.pch = w.pch ∧ w.issueReads.sl = w.sl ∧ w.issueReads.ring = w.ring ∧ w.issueReads.drn = w.drn ∧
    w.issueReads.psg = w.psg ∧ w.issueReads.pwr = w.pwr ∧ w.issueReads.int = w.int ∧ w.issueReads.hrt = w.hrt := by
  unfold Wing.issueReads
  refine ⟨?_, ?_, ?_, ?_, ?_, ?_, ?_, ?_, ?_, ?_, ?_, ?_, ?_, ?_, ?_, ?_, ?_,
    ?_⟩ <;> (refine foldl_keeps _ _ ?_ _ _; intros; first | rfl | (simp; done) | (split <;> first | rfl | simp))

@[simp] theorem Wing.putSlot_keeps (w : Wing) (n : Nat) (c : Ctx) :
    (w.putSlot n c).id = w.id ∧ (w.putSlot n c).life = w.life ∧ (w.putSlot n c).aptBase = w.aptBase ∧
    (w.putSlot n c).portGen = w.portGen ∧ (w.putSlot n c).key = w.key ∧ (w.putSlot n c).keyValid = w.keyValid ∧
    (w.putSlot n c).ctl = w.ctl ∧ (w.putSlot n c).vst = w.vst ∧ (w.putSlot n c).hall = w.hall ∧ (w.putSlot n c).pch = w.pch ∧
    (w.putSlot n c).sl = w.sl ∧ (w.putSlot n c).ring = w.ring ∧ (w.putSlot n c).drn = w.drn ∧ (w.putSlot n c).psg = w.psg ∧
    (w.putSlot n c).pwr = w.pwr ∧ (w.putSlot n c).int = w.int ∧ (w.putSlot n c).hrt = w.hrt ∧ (w.putSlot n c).out = w.out :=
  ⟨rfl, rfl, rfl, rfl, rfl, rfl, rfl, rfl, rfl, rfl, rfl, rfl, rfl, rfl, rfl, rfl, rfl, rfl⟩

@[simp] theorem Wing.noteNoVictim_keeps (w : Wing) (c : Ctx) (causes : List FetchCause) :
    (w.noteNoVictim c causes).id = w.id ∧ (w.noteNoVictim c causes).life = w.life ∧
    (w.noteNoVictim c causes).aptBase = w.aptBase ∧ (w.noteNoVictim c causes).portGen = w.portGen ∧
    (w.noteNoVictim c causes).key = w.key ∧ (w.noteNoVictim c causes).keyValid = w.keyValid ∧
    (w.noteNoVictim c causes).regs = w.regs ∧ (w.noteNoVictim c causes).ctl = w.ctl ∧ (w.noteNoVictim c causes).vst = w.vst ∧
    (w.noteNoVictim c causes).hall = w.hall ∧ (w.noteNoVictim c causes).pch = w.pch ∧ (w.noteNoVictim c causes).sl = w.sl ∧
    (w.noteNoVictim c causes).ring = w.ring ∧ (w.noteNoVictim c causes).drn = w.drn ∧ (w.noteNoVictim c causes).psg = w.psg ∧
    (w.noteNoVictim c causes).pwr = w.pwr ∧ (w.noteNoVictim c causes).int = w.int ∧ (w.noteNoVictim c causes).hrt = w.hrt ∧
    (w.noteNoVictim c causes).out = w.out := by
  unfold Wing.noteNoVictim
  refine ⟨?_, ?_, ?_, ?_, ?_, ?_, ?_, ?_, ?_, ?_, ?_, ?_, ?_, ?_, ?_, ?_, ?_, ?_, ?_⟩ <;> (repeat' split) <;> first | rfl | simp

/-! ## The vestibule -/

@[simp] theorem Wing.reject_keeps (w : Wing) (code : Nat) (entry : BitVec 4 → DWord) :
    (w.reject code entry).id = w.id ∧ (w.reject code entry).life = w.life ∧ (w.reject code entry).aptBase = w.aptBase ∧
    (w.reject code entry).portGen = w.portGen ∧ (w.reject code entry).key = w.key ∧
    (w.reject code entry).keyValid = w.keyValid ∧ (w.reject code entry).ctl = w.ctl ∧ (w.reject code entry).vst = w.vst ∧
    (w.reject code entry).pan = w.pan ∧ (w.reject code entry).hall = w.hall ∧ (w.reject code entry).pch = w.pch ∧
    (w.reject code entry).sl = w.sl ∧ (w.reject code entry).ring = w.ring ∧ (w.reject code entry).drn = w.drn ∧
    (w.reject code entry).psg = w.psg ∧ (w.reject code entry).pwr = w.pwr ∧ (w.reject code entry).int = w.int ∧
    (w.reject code entry).hrt = w.hrt ∧ (w.reject code entry).out = w.out :=
  ⟨rfl, rfl, rfl, rfl, rfl, rfl, rfl, rfl, rfl, rfl, rfl, rfl, rfl, rfl, rfl, rfl, rfl, rfl, rfl⟩

@[simp] theorem Wing.setSeq_keeps (w : Wing) (i : Nat) (v : Word) :
    (w.setSeq i v).id = w.id ∧ (w.setSeq i v).life = w.life ∧ (w.setSeq i v).aptBase = w.aptBase ∧
    (w.setSeq i v).portGen = w.portGen ∧ (w.setSeq i v).key = w.key ∧ (w.setSeq i v).keyValid = w.keyValid ∧
    (w.setSeq i v).regs = w.regs ∧ (w.setSeq i v).ctl = w.ctl ∧ (w.setSeq i v).pan = w.pan ∧ (w.setSeq i v).hall = w.hall ∧
    (w.setSeq i v).pch = w.pch ∧ (w.setSeq i v).sl = w.sl ∧ (w.setSeq i v).ring = w.ring ∧ (w.setSeq i v).drn = w.drn ∧
    (w.setSeq i v).psg = w.psg ∧ (w.setSeq i v).pwr = w.pwr ∧ (w.setSeq i v).int = w.int ∧ (w.setSeq i v).hrt = w.hrt ∧
    (w.setSeq i v).out = w.out :=
  ⟨rfl, rfl, rfl, rfl, rfl, rfl, rfl, rfl, rfl, rfl, rfl, rfl, rfl, rfl, rfl, rfl, rfl, rfl, rfl⟩

@[simp] theorem Wing.deliverEsc_keeps (w : Wing) (o : Obs) (key : Word) (fate : BitVec 2) (t : Tick) :
    (w.deliverEsc o key fate t).id = w.id ∧ (w.deliverEsc o key fate t).life = w.life ∧
    (w.deliverEsc o key fate t).aptBase = w.aptBase ∧ (w.deliverEsc o key fate t).portGen = w.portGen ∧
    (w.deliverEsc o key fate t).key = w.key ∧ (w.deliverEsc o key fate t).keyValid = w.keyValid ∧
    (w.deliverEsc o key fate t).ctl = w.ctl ∧ (w.deliverEsc o key fate t).vst = w.vst ∧
    (w.deliverEsc o key fate t).hall = w.hall ∧ (w.deliverEsc o key fate t).pch = w.pch ∧
    (w.deliverEsc o key fate t).sl = w.sl ∧ (w.deliverEsc o key fate t).drn = w.drn ∧
    (w.deliverEsc o key fate t).psg = w.psg ∧ (w.deliverEsc o key fate t).pwr = w.pwr ∧
    (w.deliverEsc o key fate t).int = w.int ∧ (w.deliverEsc o key fate t).hrt = w.hrt ∧
    (w.deliverEsc o key fate t).out = w.out := by
  unfold Wing.deliverEsc
  refine ⟨?_, ?_, ?_, ?_, ?_, ?_, ?_, ?_, ?_, ?_, ?_, ?_, ?_, ?_, ?_, ?_,
    ?_⟩ <;> dsimp only <;> (repeat' split) <;> first | rfl | (simp; done) | simp [*]

@[simp] theorem Wing.useCredit_keeps (w : Wing) (s : BitVec 12) :
    (w.useCredit s).id = w.id ∧ (w.useCredit s).life = w.life ∧ (w.useCredit s).aptBase = w.aptBase ∧
    (w.useCredit s).portGen = w.portGen ∧ (w.useCredit s).key = w.key ∧ (w.useCredit s).keyValid = w.keyValid ∧
    (w.useCredit s).regs = w.regs ∧ (w.useCredit s).ctl = w.ctl ∧ (w.useCredit s).pan = w.pan ∧
    (w.useCredit s).hall = w.hall ∧ (w.useCredit s).pch = w.pch ∧ (w.useCredit s).sl = w.sl ∧ (w.useCredit s).ring = w.ring ∧
    (w.useCredit s).drn = w.drn ∧ (w.useCredit s).psg = w.psg ∧ (w.useCredit s).pwr = w.pwr ∧ (w.useCredit s).int = w.int ∧
    (w.useCredit s).hrt = w.hrt ∧ (w.useCredit s).out = w.out :=
  ⟨rfl, rfl, rfl, rfl, rfl, rfl, rfl, rfl, rfl, rfl, rfl, rfl, rfl, rfl, rfl, rfl, rfl, rfl, rfl⟩

@[simp] theorem Wing.useBudget_keeps (w : Wing) (n : Nat) :
    (w.useBudget n).id = w.id ∧ (w.useBudget n).life = w.life ∧ (w.useBudget n).aptBase = w.aptBase ∧
    (w.useBudget n).portGen = w.portGen ∧ (w.useBudget n).key = w.key ∧ (w.useBudget n).keyValid = w.keyValid ∧
    (w.useBudget n).regs = w.regs ∧ (w.useBudget n).ctl = w.ctl ∧ (w.useBudget n).pan = w.pan ∧
    (w.useBudget n).hall = w.hall ∧ (w.useBudget n).pch = w.pch ∧ (w.useBudget n).sl = w.sl ∧ (w.useBudget n).ring = w.ring ∧
    (w.useBudget n).drn = w.drn ∧ (w.useBudget n).psg = w.psg ∧ (w.useBudget n).pwr = w.pwr ∧ (w.useBudget n).int = w.int ∧
    (w.useBudget n).hrt = w.hrt ∧ (w.useBudget n).out = w.out :=
  ⟨rfl, rfl, rfl, rfl, rfl, rfl, rfl, rfl, rfl, rfl, rfl, rfl, rfl, rfl, rfl, rfl, rfl, rfl, rfl⟩

@[simp] theorem Wing.holdSlice_keeps (w : Wing) (s : BitVec 12) :
    (w.holdSlice s).id = w.id ∧ (w.holdSlice s).life = w.life ∧ (w.holdSlice s).aptBase = w.aptBase ∧
    (w.holdSlice s).portGen = w.portGen ∧ (w.holdSlice s).key = w.key ∧ (w.holdSlice s).keyValid = w.keyValid ∧
    (w.holdSlice s).ctl = w.ctl ∧ (w.holdSlice s).pan = w.pan ∧ (w.holdSlice s).hall = w.hall ∧ (w.holdSlice s).pch = w.pch ∧
    (w.holdSlice s).ring = w.ring ∧ (w.holdSlice s).drn = w.drn ∧ (w.holdSlice s).psg = w.psg ∧ (w.holdSlice s).pwr = w.pwr ∧
    (w.holdSlice s).int = w.int ∧ (w.holdSlice s).hrt = w.hrt ∧ (w.holdSlice s).out = w.out := by
  unfold Wing.holdSlice
  refine ⟨?_, ?_, ?_, ?_, ?_, ?_, ?_, ?_, ?_, ?_, ?_, ?_, ?_, ?_, ?_, ?_,
    ?_⟩ <;> dsimp only <;> (repeat' split) <;> first | rfl | (simp; done) | simp [*]

@[simp] theorem Wing.keepSent_keeps (w : Wing) (o : Obs) :
    (w.keepSent o).id = w.id ∧ (w.keepSent o).life = w.life ∧ (w.keepSent o).aptBase = w.aptBase ∧
    (w.keepSent o).portGen = w.portGen ∧ (w.keepSent o).key = w.key ∧ (w.keepSent o).keyValid = w.keyValid ∧
    (w.keepSent o).regs = w.regs ∧ (w.keepSent o).ctl = w.ctl ∧ (w.keepSent o).pan = w.pan ∧ (w.keepSent o).hall = w.hall ∧
    (w.keepSent o).pch = w.pch ∧ (w.keepSent o).sl = w.sl ∧ (w.keepSent o).ring = w.ring ∧ (w.keepSent o).drn = w.drn ∧
    (w.keepSent o).psg = w.psg ∧ (w.keepSent o).pwr = w.pwr ∧ (w.keepSent o).int = w.int ∧ (w.keepSent o).hrt = w.hrt ∧
    (w.keepSent o).out = w.out :=
  ⟨rfl, rfl, rfl, rfl, rfl, rfl, rfl, rfl, rfl, rfl, rfl, rfl, rfl, rfl, rfl, rfl, rfl, rfl, rfl⟩

@[simp] theorem Wing.escalate_keeps (w : Wing) (o : Obs) (fate : BitVec 2) :
    (w.escalate o fate).id = w.id ∧ (w.escalate o fate).life = w.life ∧ (w.escalate o fate).aptBase = w.aptBase ∧
    (w.escalate o fate).portGen = w.portGen ∧ (w.escalate o fate).key = w.key ∧ (w.escalate o fate).keyValid = w.keyValid ∧
    (w.escalate o fate).ctl = w.ctl ∧ (w.escalate o fate).hall = w.hall ∧ (w.escalate o fate).pch = w.pch ∧
    (w.escalate o fate).sl = w.sl ∧ (w.escalate o fate).drn = w.drn ∧ (w.escalate o fate).pwr = w.pwr ∧
    (w.escalate o fate).int = w.int ∧ (w.escalate o fate).hrt = w.hrt ∧ (w.escalate o fate).out = w.out := by
  unfold Wing.escalate
  refine ⟨?_, ?_, ?_, ?_, ?_, ?_, ?_, ?_, ?_, ?_, ?_, ?_, ?_, ?_, ?_⟩ <;> (repeat' split) <;> first | rfl | simp

@[simp] theorem Wing.setSpill_keeps (w : Wing) (s : BitVec 12) (v : Spill) :
    (w.setSpill s v).id = w.id ∧ (w.setSpill s v).life = w.life ∧ (w.setSpill s v).aptBase = w.aptBase ∧
    (w.setSpill s v).portGen = w.portGen ∧ (w.setSpill s v).key = w.key ∧ (w.setSpill s v).keyValid = w.keyValid ∧
    (w.setSpill s v).regs = w.regs ∧ (w.setSpill s v).ctl = w.ctl ∧ (w.setSpill s v).pan = w.pan ∧
    (w.setSpill s v).hall = w.hall ∧ (w.setSpill s v).pch = w.pch ∧ (w.setSpill s v).sl = w.sl ∧
    (w.setSpill s v).ring = w.ring ∧ (w.setSpill s v).drn = w.drn ∧ (w.setSpill s v).psg = w.psg ∧
    (w.setSpill s v).pwr = w.pwr ∧ (w.setSpill s v).int = w.int ∧ (w.setSpill s v).hrt = w.hrt ∧ (w.setSpill s v).out = w.out :=
  ⟨rfl, rfl, rfl, rfl, rfl, rfl, rfl, rfl, rfl, rfl, rfl, rfl, rfl, rfl, rfl, rfl, rfl, rfl, rfl⟩

@[simp] theorem Wing.noteFilterWait_keeps (w : Wing) (o : Obs) :
    (w.noteFilterWait o).id = w.id ∧ (w.noteFilterWait o).life = w.life ∧ (w.noteFilterWait o).aptBase = w.aptBase ∧
    (w.noteFilterWait o).portGen = w.portGen ∧ (w.noteFilterWait o).key = w.key ∧
    (w.noteFilterWait o).keyValid = w.keyValid ∧ (w.noteFilterWait o).regs = w.regs ∧ (w.noteFilterWait o).ctl = w.ctl ∧
    (w.noteFilterWait o).pan = w.pan ∧ (w.noteFilterWait o).hall = w.hall ∧ (w.noteFilterWait o).pch = w.pch ∧
    (w.noteFilterWait o).sl = w.sl ∧ (w.noteFilterWait o).ring = w.ring ∧ (w.noteFilterWait o).drn = w.drn ∧
    (w.noteFilterWait o).psg = w.psg ∧ (w.noteFilterWait o).pwr = w.pwr ∧ (w.noteFilterWait o).int = w.int ∧
    (w.noteFilterWait o).hrt = w.hrt ∧ (w.noteFilterWait o).out = w.out := by
  unfold Wing.noteFilterWait
  refine ⟨?_, ?_, ?_, ?_, ?_, ?_, ?_, ?_, ?_, ?_, ?_, ?_, ?_, ?_, ?_, ?_, ?_, ?_, ?_⟩ <;> (repeat' split) <;> first | rfl | simp

/-! ## Rings: reads and letters -/

@[simp] theorem Wing.keepDoorbell_keeps (w : Wing) (s : BitVec 12) (kind : BitVec 2) (pos : BitVec 24) :
    (w.keepDoorbell s kind pos).id = w.id ∧ (w.keepDoorbell s kind pos).life = w.life ∧
    (w.keepDoorbell s kind pos).aptBase = w.aptBase ∧ (w.keepDoorbell s kind pos).portGen = w.portGen ∧
    (w.keepDoorbell s kind pos).key = w.key ∧ (w.keepDoorbell s kind pos).keyValid = w.keyValid ∧
    (w.keepDoorbell s kind pos).ctl = w.ctl ∧ (w.keepDoorbell s kind pos).vst = w.vst ∧
    (w.keepDoorbell s kind pos).pan = w.pan ∧ (w.keepDoorbell s kind pos).hall = w.hall ∧
    (w.keepDoorbell s kind pos).pch = w.pch ∧ (w.keepDoorbell s kind pos).ring = w.ring ∧
    (w.keepDoorbell s kind pos).drn = w.drn ∧ (w.keepDoorbell s kind pos).psg = w.psg ∧
    (w.keepDoorbell s kind pos).pwr = w.pwr ∧ (w.keepDoorbell s kind pos).int = w.int ∧
    (w.keepDoorbell s kind pos).hrt = w.hrt ∧ (w.keepDoorbell s kind pos).out = w.out := by
  unfold Wing.keepDoorbell
  simp

/-! ## What comes in -/

@[simp] theorem Wing.noteStall_keeps (w : Wing) (a : AptWrite) :
    (w.noteStall a).id = w.id ∧ (w.noteStall a).life = w.life ∧ (w.noteStall a).aptBase = w.aptBase ∧
    (w.noteStall a).portGen = w.portGen ∧ (w.noteStall a).key = w.key ∧ (w.noteStall a).keyValid = w.keyValid ∧
    (w.noteStall a).regs = w.regs ∧ (w.noteStall a).ctl = w.ctl ∧ (w.noteStall a).pan = w.pan ∧
    (w.noteStall a).hall = w.hall ∧ (w.noteStall a).pch = w.pch ∧ (w.noteStall a).sl = w.sl ∧ (w.noteStall a).ring = w.ring ∧
    (w.noteStall a).drn = w.drn ∧ (w.noteStall a).psg = w.psg ∧ (w.noteStall a).pwr = w.pwr ∧ (w.noteStall a).int = w.int ∧
    (w.noteStall a).hrt = w.hrt ∧ (w.noteStall a).out = w.out := by
  unfold Wing.noteStall
  refine ⟨?_, ?_, ?_, ?_, ?_, ?_, ?_, ?_, ?_, ?_, ?_, ?_, ?_, ?_, ?_, ?_, ?_, ?_, ?_⟩ <;> (repeat' split) <;> first | rfl | simp

@[simp] theorem Wing.takeReport_keeps (w : Wing) (p : BitVec 4) (pasid : BitVec 20) (gen : Byte) :
    (w.takeReport p pasid gen).id = w.id ∧ (w.takeReport p pasid gen).life = w.life ∧
    (w.takeReport p pasid gen).aptBase = w.aptBase ∧ (w.takeReport p pasid gen).portGen = w.portGen ∧
    (w.takeReport p pasid gen).key = w.key ∧ (w.takeReport p pasid gen).keyValid = w.keyValid ∧
    (w.takeReport p pasid gen).regs = w.regs ∧ (w.takeReport p pasid gen).ctl = w.ctl ∧
    (w.takeReport p pasid gen).vst = w.vst ∧ (w.takeReport p pasid gen).pan = w.pan ∧
    (w.takeReport p pasid gen).hall = w.hall ∧ (w.takeReport p pasid gen).pch = w.pch ∧
    (w.takeReport p pasid gen).sl = w.sl ∧ (w.takeReport p pasid gen).ring = w.ring ∧
    (w.takeReport p pasid gen).pwr = w.pwr ∧ (w.takeReport p pasid gen).int = w.int ∧
    (w.takeReport p pasid gen).hrt = w.hrt ∧ (w.takeReport p pasid gen).out = w.out := by
  unfold Wing.takeReport
  refine ⟨?_, ?_, ?_, ?_, ?_, ?_, ?_, ?_, ?_, ?_, ?_, ?_, ?_, ?_, ?_, ?_, ?_, ?_⟩ <;> (repeat' split) <;> first | rfl | simp

@[simp] theorem Wing.popWrite_keeps (w : Wing) (rest : List (AptWrite × Bool)) :
    (w.popWrite rest).id = w.id ∧ (w.popWrite rest).life = w.life ∧ (w.popWrite rest).aptBase = w.aptBase ∧
    (w.popWrite rest).portGen = w.portGen ∧ (w.popWrite rest).key = w.key ∧ (w.popWrite rest).keyValid = w.keyValid ∧
    (w.popWrite rest).regs = w.regs ∧ (w.popWrite rest).ctl = w.ctl ∧ (w.popWrite rest).pan = w.pan ∧
    (w.popWrite rest).hall = w.hall ∧ (w.popWrite rest).pch = w.pch ∧ (w.popWrite rest).sl = w.sl ∧
    (w.popWrite rest).ring = w.ring ∧ (w.popWrite rest).drn = w.drn ∧ (w.popWrite rest).psg = w.psg ∧
    (w.popWrite rest).pwr = w.pwr ∧ (w.popWrite rest).int = w.int ∧ (w.popWrite rest).hrt = w.hrt ∧
    (w.popWrite rest).out = w.out :=
  ⟨rfl, rfl, rfl, rfl, rfl, rfl, rfl, rfl, rfl, rfl, rfl, rfl, rfl, rfl, rfl, rfl, rfl, rfl, rfl⟩

@[simp] theorem Wing.refill_keeps (w : Wing) :
    w.refill.id = w.id ∧ w.refill.life = w.life ∧ w.refill.aptBase = w.aptBase ∧ w.refill.portGen = w.portGen ∧
    w.refill.key = w.key ∧ w.refill.keyValid = w.keyValid ∧ w.refill.regs = w.regs ∧ w.refill.ctl = w.ctl ∧
    w.refill.pan = w.pan ∧ w.refill.hall = w.hall ∧ w.refill.pch = w.pch ∧ w.refill.sl = w.sl ∧ w.refill.ring = w.ring ∧
    w.refill.drn = w.drn ∧ w.refill.psg = w.psg ∧ w.refill.pwr = w.pwr ∧ w.refill.int = w.int ∧ w.refill.hrt = w.hrt := by
  unfold Wing.refill
  refine ⟨?_, ?_, ?_, ?_, ?_, ?_, ?_, ?_, ?_, ?_, ?_, ?_, ?_, ?_, ?_, ?_, ?_, ?_⟩ <;> (repeat' split) <;> first | rfl | simp

@[simp] theorem Wing.noteRaw_keeps (w : Wing) (e : RawEvent) :
    (w.noteRaw e).id = w.id ∧ (w.noteRaw e).life = w.life ∧ (w.noteRaw e).aptBase = w.aptBase ∧
    (w.noteRaw e).portGen = w.portGen ∧ (w.noteRaw e).key = w.key ∧ (w.noteRaw e).keyValid = w.keyValid ∧
    (w.noteRaw e).regs = w.regs ∧ (w.noteRaw e).ctl = w.ctl ∧ (w.noteRaw e).pan = w.pan ∧ (w.noteRaw e).hall = w.hall ∧
    (w.noteRaw e).pch = w.pch ∧ (w.noteRaw e).sl = w.sl ∧ (w.noteRaw e).ring = w.ring ∧ (w.noteRaw e).drn = w.drn ∧
    (w.noteRaw e).psg = w.psg ∧ (w.noteRaw e).pwr = w.pwr ∧ (w.noteRaw e).int = w.int ∧ (w.noteRaw e).hrt = w.hrt ∧
    (w.noteRaw e).out = w.out := by
  unfold Wing.noteRaw
  refine ⟨?_, ?_, ?_, ?_, ?_, ?_, ?_, ?_, ?_, ?_, ?_, ?_, ?_, ?_, ?_, ?_, ?_, ?_, ?_⟩ <;> (repeat' split) <;> first | rfl | simp

/-! ## Slices: operations -/

@[simp] theorem Wing.createSlice_keeps (w : Wing) (s : BitVec 12) (b : BitVec 1024) :
    (w.createSlice s b).id = w.id ∧ (w.createSlice s b).life = w.life ∧ (w.createSlice s b).aptBase = w.aptBase ∧
    (w.createSlice s b).portGen = w.portGen ∧ (w.createSlice s b).key = w.key ∧ (w.createSlice s b).keyValid = w.keyValid ∧
    (w.createSlice s b).regs = w.regs ∧ (w.createSlice s b).ctl = w.ctl ∧ (w.createSlice s b).pan = w.pan ∧
    (w.createSlice s b).hall = w.hall ∧ (w.createSlice s b).pch = w.pch ∧ (w.createSlice s b).ring = w.ring ∧
    (w.createSlice s b).drn = w.drn ∧ (w.createSlice s b).psg = w.psg ∧ (w.createSlice s b).pwr = w.pwr ∧
    (w.createSlice s b).int = w.int ∧ (w.createSlice s b).hrt = w.hrt ∧ (w.createSlice s b).out = w.out :=
  ⟨rfl, rfl, rfl, rfl, rfl, rfl, rfl, rfl, rfl, rfl, rfl, rfl, rfl, rfl, rfl, rfl, rfl, rfl⟩

@[simp] theorem Wing.shareSlice_keeps (w : Wing) (s : BitVec 12) (b : BitVec 1024) :
    (w.shareSlice s b).id = w.id ∧ (w.shareSlice s b).life = w.life ∧ (w.shareSlice s b).aptBase = w.aptBase ∧
    (w.shareSlice s b).portGen = w.portGen ∧ (w.shareSlice s b).key = w.key ∧ (w.shareSlice s b).keyValid = w.keyValid ∧
    (w.shareSlice s b).regs = w.regs ∧ (w.shareSlice s b).ctl = w.ctl ∧ (w.shareSlice s b).vst = w.vst ∧
    (w.shareSlice s b).pan = w.pan ∧ (w.shareSlice s b).hall = w.hall ∧ (w.shareSlice s b).pch = w.pch ∧
    (w.shareSlice s b).ring = w.ring ∧ (w.shareSlice s b).drn = w.drn ∧ (w.shareSlice s b).psg = w.psg ∧
    (w.shareSlice s b).pwr = w.pwr ∧ (w.shareSlice s b).int = w.int ∧ (w.shareSlice s b).hrt = w.hrt ∧
    (w.shareSlice s b).out = w.out :=
  ⟨rfl, rfl, rfl, rfl, rfl, rfl, rfl, rfl, rfl, rfl, rfl, rfl, rfl, rfl, rfl, rfl, rfl, rfl, rfl⟩

/-! ## Commands -/

@[simp] theorem Wing.vecCfg_keeps (w : Wing) (key : Word) (cfg : Word) (t : Tick) :
    (w.vecCfg key cfg t).id = w.id ∧ (w.vecCfg key cfg t).life = w.life ∧ (w.vecCfg key cfg t).aptBase = w.aptBase ∧
    (w.vecCfg key cfg t).portGen = w.portGen ∧ (w.vecCfg key cfg t).key = w.key ∧
    (w.vecCfg key cfg t).keyValid = w.keyValid ∧ (w.vecCfg key cfg t).regs = w.regs ∧ (w.vecCfg key cfg t).ctl = w.ctl ∧
    (w.vecCfg key cfg t).vst = w.vst ∧ (w.vecCfg key cfg t).hall = w.hall ∧ (w.vecCfg key cfg t).pch = w.pch ∧
    (w.vecCfg key cfg t).sl = w.sl ∧ (w.vecCfg key cfg t).ring = w.ring ∧ (w.vecCfg key cfg t).drn = w.drn ∧
    (w.vecCfg key cfg t).psg = w.psg ∧ (w.vecCfg key cfg t).pwr = w.pwr ∧ (w.vecCfg key cfg t).int = w.int ∧
    (w.vecCfg key cfg t).hrt = w.hrt ∧ (w.vecCfg key cfg t).out = w.out := by
  unfold Wing.vecCfg
  simp

@[simp] theorem Wing.bootDone_keeps (w : Wing) :
    w.bootDone.id = w.id ∧ w.bootDone.life = w.life ∧ w.bootDone.aptBase = w.aptBase ∧ w.bootDone.portGen = w.portGen ∧
    w.bootDone.key = w.key ∧ w.bootDone.keyValid = w.keyValid ∧ w.bootDone.regs = w.regs ∧ w.bootDone.vst = w.vst ∧
    w.bootDone.pan = w.pan ∧ w.bootDone.hall = w.hall ∧ w.bootDone.pch = w.pch ∧ w.bootDone.sl = w.sl ∧
    w.bootDone.ring = w.ring ∧ w.bootDone.drn = w.drn ∧ w.bootDone.psg = w.psg ∧ w.bootDone.pwr = w.pwr ∧
    w.bootDone.int = w.int ∧ w.bootDone.hrt = w.hrt ∧ w.bootDone.out = w.out := by
  unfold Wing.bootDone
  refine ⟨?_, ?_, ?_, ?_, ?_, ?_, ?_, ?_, ?_, ?_, ?_, ?_, ?_, ?_, ?_, ?_, ?_, ?_, ?_⟩ <;> (repeat' split) <;> first | rfl | simp

@[simp] theorem Wing.postLetter_keeps (w : Wing) (s : BitVec 12) (v : DWord) :
    (w.postLetter s v).id = w.id ∧ (w.postLetter s v).life = w.life ∧ (w.postLetter s v).aptBase = w.aptBase ∧
    (w.postLetter s v).portGen = w.portGen ∧ (w.postLetter s v).key = w.key ∧ (w.postLetter s v).keyValid = w.keyValid ∧
    (w.postLetter s v).regs = w.regs ∧ (w.postLetter s v).ctl = w.ctl ∧ (w.postLetter s v).vst = w.vst ∧
    (w.postLetter s v).pan = w.pan ∧ (w.postLetter s v).hall = w.hall ∧ (w.postLetter s v).pch = w.pch ∧
    (w.postLetter s v).ring = w.ring ∧ (w.postLetter s v).drn = w.drn ∧ (w.postLetter s v).psg = w.psg ∧
    (w.postLetter s v).pwr = w.pwr ∧ (w.postLetter s v).int = w.int ∧ (w.postLetter s v).hrt = w.hrt ∧
    (w.postLetter s v).out = w.out :=
  ⟨rfl, rfl, rfl, rfl, rfl, rfl, rfl, rfl, rfl, rfl, rfl, rfl, rfl, rfl, rfl, rfl, rfl, rfl, rfl⟩

@[simp] theorem Wing.postInOrder_keeps (w : Wing) (s : BitVec 12) (v : DWord) :
    (w.postInOrder s v).id = w.id ∧ (w.postInOrder s v).life = w.life ∧ (w.postInOrder s v).aptBase = w.aptBase ∧
    (w.postInOrder s v).portGen = w.portGen ∧ (w.postInOrder s v).key = w.key ∧ (w.postInOrder s v).keyValid = w.keyValid ∧
    (w.postInOrder s v).regs = w.regs ∧ (w.postInOrder s v).ctl = w.ctl ∧ (w.postInOrder s v).vst = w.vst ∧
    (w.postInOrder s v).pan = w.pan ∧ (w.postInOrder s v).hall = w.hall ∧ (w.postInOrder s v).pch = w.pch ∧
    (w.postInOrder s v).ring = w.ring ∧ (w.postInOrder s v).drn = w.drn ∧ (w.postInOrder s v).psg = w.psg ∧
    (w.postInOrder s v).pwr = w.pwr ∧ (w.postInOrder s v).int = w.int ∧ (w.postInOrder s v).hrt = w.hrt ∧
    (w.postInOrder s v).out = w.out := by
  unfold Wing.postInOrder
  refine ⟨?_, ?_, ?_, ?_, ?_, ?_, ?_, ?_, ?_, ?_, ?_, ?_, ?_, ?_, ?_, ?_, ?_, ?_, ?_⟩ <;> (repeat' split) <;> first | rfl | simp

/-! ## Admission -/

@[simp] theorem Wing.unstage_keeps (w : Wing) (o : Obs) :
    (w.unstage o).id = w.id ∧ (w.unstage o).life = w.life ∧ (w.unstage o).aptBase = w.aptBase ∧
    (w.unstage o).portGen = w.portGen ∧ (w.unstage o).key = w.key ∧ (w.unstage o).keyValid = w.keyValid ∧
    (w.unstage o).regs = w.regs ∧ (w.unstage o).ctl = w.ctl ∧ (w.unstage o).pan = w.pan ∧ (w.unstage o).hall = w.hall ∧
    (w.unstage o).pch = w.pch ∧ (w.unstage o).sl = w.sl ∧ (w.unstage o).ring = w.ring ∧ (w.unstage o).drn = w.drn ∧
    (w.unstage o).psg = w.psg ∧ (w.unstage o).pwr = w.pwr ∧ (w.unstage o).int = w.int ∧ (w.unstage o).hrt = w.hrt ∧
    (w.unstage o).out = w.out :=
  ⟨rfl, rfl, rfl, rfl, rfl, rfl, rfl, rfl, rfl, rfl, rfl, rfl, rfl, rfl, rfl, rfl, rfl, rfl, rfl⟩

/-! ## Records as they are applied -/

@[simp] theorem Wing.noteAcceptance_keeps (w : Wing) (p : Byte) (c : Ctx) (m : Tick) :
    (w.noteAcceptance p c m).id = w.id ∧ (w.noteAcceptance p c m).life = w.life ∧
    (w.noteAcceptance p c m).aptBase = w.aptBase ∧ (w.noteAcceptance p c m).portGen = w.portGen ∧
    (w.noteAcceptance p c m).key = w.key ∧ (w.noteAcceptance p c m).keyValid = w.keyValid ∧
    (w.noteAcceptance p c m).regs = w.regs ∧ (w.noteAcceptance p c m).ctl = w.ctl ∧ (w.noteAcceptance p c m).vst = w.vst ∧
    (w.noteAcceptance p c m).pan = w.pan ∧ (w.noteAcceptance p c m).pch = w.pch ∧ (w.noteAcceptance p c m).sl = w.sl ∧
    (w.noteAcceptance p c m).drn = w.drn ∧ (w.noteAcceptance p c m).psg = w.psg ∧ (w.noteAcceptance p c m).pwr = w.pwr ∧
    (w.noteAcceptance p c m).int = w.int ∧ (w.noteAcceptance p c m).hrt = w.hrt ∧ (w.noteAcceptance p c m).out = w.out := by
  unfold Wing.noteAcceptance
  refine ⟨?_, ?_, ?_, ?_, ?_, ?_, ?_, ?_, ?_, ?_, ?_, ?_, ?_, ?_, ?_, ?_, ?_, ?_⟩ <;> (repeat' split) <;> first | rfl | simp

@[simp] theorem Wing.applyAccept_keeps (w : Wing) (t : Tick) (r : AcceptRec) :
    (w.applyAccept t r).id = w.id ∧ (w.applyAccept t r).life = w.life ∧ (w.applyAccept t r).aptBase = w.aptBase ∧
    (w.applyAccept t r).portGen = w.portGen ∧ (w.applyAccept t r).key = w.key ∧ (w.applyAccept t r).keyValid = w.keyValid ∧
    (w.applyAccept t r).regs = w.regs ∧ (w.applyAccept t r).ctl = w.ctl ∧ (w.applyAccept t r).vst = w.vst ∧
    (w.applyAccept t r).pch = w.pch ∧ (w.applyAccept t r).sl = w.sl ∧ (w.applyAccept t r).drn = w.drn ∧
    (w.applyAccept t r).psg = w.psg ∧ (w.applyAccept t r).pwr = w.pwr ∧ (w.applyAccept t r).int = w.int ∧
    (w.applyAccept t r).hrt = w.hrt ∧ (w.applyAccept t r).out = w.out := by
  unfold Wing.applyAccept
  refine ⟨?_, ?_, ?_, ?_, ?_, ?_, ?_, ?_, ?_, ?_, ?_, ?_, ?_, ?_, ?_, ?_, ?_⟩ <;> (repeat' split) <;> first | rfl | simp

@[simp] theorem Wing.dropHeld_keeps (w : Wing) (f : Obs → Bool) :
    (w.dropHeld f).id = w.id ∧ (w.dropHeld f).life = w.life ∧ (w.dropHeld f).aptBase = w.aptBase ∧
    (w.dropHeld f).portGen = w.portGen ∧ (w.dropHeld f).key = w.key ∧ (w.dropHeld f).keyValid = w.keyValid ∧
    (w.dropHeld f).regs = w.regs ∧ (w.dropHeld f).ctl = w.ctl ∧ (w.dropHeld f).pan = w.pan ∧ (w.dropHeld f).hall = w.hall ∧
    (w.dropHeld f).pch = w.pch ∧ (w.dropHeld f).sl = w.sl ∧ (w.dropHeld f).ring = w.ring ∧ (w.dropHeld f).drn = w.drn ∧
    (w.dropHeld f).psg = w.psg ∧ (w.dropHeld f).pwr = w.pwr ∧ (w.dropHeld f).int = w.int ∧ (w.dropHeld f).hrt = w.hrt ∧
    (w.dropHeld f).out = w.out :=
  ⟨rfl, rfl, rfl, rfl, rfl, rfl, rfl, rfl, rfl, rfl, rfl, rfl, rfl, rfl, rfl, rfl, rfl, rfl, rfl⟩

@[simp] theorem Wing.mapHeld_keeps (w : Wing) (f : Obs → Obs) :
    (w.mapHeld f).id = w.id ∧ (w.mapHeld f).life = w.life ∧ (w.mapHeld f).aptBase = w.aptBase ∧
    (w.mapHeld f).portGen = w.portGen ∧ (w.mapHeld f).key = w.key ∧ (w.mapHeld f).keyValid = w.keyValid ∧
    (w.mapHeld f).regs = w.regs ∧ (w.mapHeld f).ctl = w.ctl ∧ (w.mapHeld f).pan = w.pan ∧ (w.mapHeld f).hall = w.hall ∧
    (w.mapHeld f).pch = w.pch ∧ (w.mapHeld f).sl = w.sl ∧ (w.mapHeld f).ring = w.ring ∧ (w.mapHeld f).drn = w.drn ∧
    (w.mapHeld f).psg = w.psg ∧ (w.mapHeld f).pwr = w.pwr ∧ (w.mapHeld f).int = w.int ∧ (w.mapHeld f).hrt = w.hrt ∧
    (w.mapHeld f).out = w.out :=
  ⟨rfl, rfl, rfl, rfl, rfl, rfl, rfl, rfl, rfl, rfl, rfl, rfl, rfl, rfl, rfl, rfl, rfl, rfl, rfl⟩

@[simp] theorem Wing.askArrival_keeps (w : Wing) (r : ArriveRec) :
    (w.askArrival r).id = w.id ∧ (w.askArrival r).life = w.life ∧ (w.askArrival r).aptBase = w.aptBase ∧
    (w.askArrival r).portGen = w.portGen ∧ (w.askArrival r).key = w.key ∧ (w.askArrival r).keyValid = w.keyValid ∧
    (w.askArrival r).regs = w.regs ∧ (w.askArrival r).ctl = w.ctl ∧ (w.askArrival r).vst = w.vst ∧
    (w.askArrival r).pan = w.pan ∧ (w.askArrival r).hall = w.hall ∧ (w.askArrival r).pch = w.pch ∧
    (w.askArrival r).sl = w.sl ∧ (w.askArrival r).ring = w.ring ∧ (w.askArrival r).drn = w.drn ∧
    (w.askArrival r).pwr = w.pwr ∧ (w.askArrival r).int = w.int ∧ (w.askArrival r).hrt = w.hrt ∧
    (w.askArrival r).out = w.out := by
  unfold Wing.askArrival
  refine ⟨?_, ?_, ?_, ?_, ?_, ?_, ?_, ?_, ?_, ?_, ?_, ?_, ?_, ?_, ?_, ?_, ?_, ?_,
    ?_⟩ <;> dsimp only <;> (repeat' split) <;> first | rfl | (simp; done) | simp [*]

@[simp] theorem Wing.dropFill_keeps (w : Wing) (r : ArriveRec) :
    (w.dropFill r).id = w.id ∧ (w.dropFill r).life = w.life ∧ (w.dropFill r).aptBase = w.aptBase ∧
    (w.dropFill r).portGen = w.portGen ∧ (w.dropFill r).key = w.key ∧ (w.dropFill r).keyValid = w.keyValid ∧
    (w.dropFill r).ctl = w.ctl ∧ (w.dropFill r).vst = w.vst ∧ (w.dropFill r).pan = w.pan ∧ (w.dropFill r).hall = w.hall ∧
    (w.dropFill r).pch = w.pch ∧ (w.dropFill r).sl = w.sl ∧ (w.dropFill r).ring = w.ring ∧ (w.dropFill r).drn = w.drn ∧
    (w.dropFill r).pwr = w.pwr ∧ (w.dropFill r).int = w.int ∧ (w.dropFill r).hrt = w.hrt ∧ (w.dropFill r).out = w.out := by
  unfold Wing.dropFill
  simp

@[simp] theorem Wing.dropOldest_keeps (w : Wing) (s : BitVec 12) :
    (w.dropOldest s).id = w.id ∧ (w.dropOldest s).life = w.life ∧ (w.dropOldest s).aptBase = w.aptBase ∧
    (w.dropOldest s).portGen = w.portGen ∧ (w.dropOldest s).key = w.key ∧ (w.dropOldest s).keyValid = w.keyValid ∧
    (w.dropOldest s).regs = w.regs ∧ (w.dropOldest s).ctl = w.ctl ∧ (w.dropOldest s).pan = w.pan ∧
    (w.dropOldest s).hall = w.hall ∧ (w.dropOldest s).pch = w.pch ∧ (w.dropOldest s).sl = w.sl ∧
    (w.dropOldest s).ring = w.ring ∧ (w.dropOldest s).drn = w.drn ∧ (w.dropOldest s).psg = w.psg ∧
    (w.dropOldest s).pwr = w.pwr ∧ (w.dropOldest s).int = w.int ∧ (w.dropOldest s).hrt = w.hrt ∧
    (w.dropOldest s).out = w.out := by
  unfold Wing.dropOldest
  refine ⟨?_, ?_, ?_, ?_, ?_, ?_, ?_, ?_, ?_, ?_, ?_, ?_, ?_, ?_, ?_, ?_, ?_, ?_, ?_⟩ <;> (repeat' split) <;> first | rfl | simp

@[simp] theorem Wing.mirrorRecheckLost_keeps (w : Wing) (n : Nat) :
    (w.mirrorRecheckLost n).id = w.id ∧ (w.mirrorRecheckLost n).life = w.life ∧ (w.mirrorRecheckLost n).aptBase = w.aptBase ∧
    (w.mirrorRecheckLost n).portGen = w.portGen ∧ (w.mirrorRecheckLost n).key = w.key ∧
    (w.mirrorRecheckLost n).keyValid = w.keyValid ∧ (w.mirrorRecheckLost n).regs = w.regs ∧
    (w.mirrorRecheckLost n).ctl = w.ctl ∧ (w.mirrorRecheckLost n).vst = w.vst ∧ (w.mirrorRecheckLost n).pan = w.pan ∧
    (w.mirrorRecheckLost n).hall = w.hall ∧ (w.mirrorRecheckLost n).pch = w.pch ∧ (w.mirrorRecheckLost n).ring = w.ring ∧
    (w.mirrorRecheckLost n).drn = w.drn ∧ (w.mirrorRecheckLost n).psg = w.psg ∧ (w.mirrorRecheckLost n).pwr = w.pwr ∧
    (w.mirrorRecheckLost n).int = w.int ∧ (w.mirrorRecheckLost n).hrt = w.hrt ∧ (w.mirrorRecheckLost n).out = w.out := by
  unfold Wing.mirrorRecheckLost
  refine ⟨?_, ?_, ?_, ?_, ?_, ?_, ?_, ?_, ?_, ?_, ?_, ?_, ?_, ?_, ?_, ?_, ?_, ?_, ?_⟩ <;> (repeat' split) <;> first | rfl | simp

@[simp] theorem Wing.setJseq_keeps (w : Wing) (p : Byte) (q : BitVec 16) :
    (w.setJseq p q).id = w.id ∧ (w.setJseq p q).life = w.life ∧ (w.setJseq p q).aptBase = w.aptBase ∧
    (w.setJseq p q).portGen = w.portGen ∧ (w.setJseq p q).key = w.key ∧ (w.setJseq p q).keyValid = w.keyValid ∧
    (w.setJseq p q).regs = w.regs ∧ (w.setJseq p q).ctl = w.ctl ∧ (w.setJseq p q).vst = w.vst ∧ (w.setJseq p q).pan = w.pan ∧
    (w.setJseq p q).hall = w.hall ∧ (w.setJseq p q).sl = w.sl ∧ (w.setJseq p q).ring = w.ring ∧ (w.setJseq p q).drn = w.drn ∧
    (w.setJseq p q).psg = w.psg ∧ (w.setJseq p q).pwr = w.pwr ∧ (w.setJseq p q).int = w.int ∧ (w.setJseq p q).hrt = w.hrt ∧
    (w.setJseq p q).out = w.out :=
  ⟨rfl, rfl, rfl, rfl, rfl, rfl, rfl, rfl, rfl, rfl, rfl, rfl, rfl, rfl, rfl, rfl, rfl, rfl, rfl⟩

@[simp] theorem Wing.applyClaimRec_keeps (w : Wing) (t : Tick) (r : JournalRec) :
    (w.applyClaimRec t r).id = w.id ∧ (w.applyClaimRec t r).life = w.life ∧ (w.applyClaimRec t r).aptBase = w.aptBase ∧
    (w.applyClaimRec t r).portGen = w.portGen ∧ (w.applyClaimRec t r).key = w.key ∧
    (w.applyClaimRec t r).keyValid = w.keyValid ∧ (w.applyClaimRec t r).ctl = w.ctl ∧ (w.applyClaimRec t r).vst = w.vst ∧
    (w.applyClaimRec t r).hall = w.hall ∧ (w.applyClaimRec t r).sl = w.sl ∧ (w.applyClaimRec t r).ring = w.ring ∧
    (w.applyClaimRec t r).drn = w.drn ∧ (w.applyClaimRec t r).psg = w.psg ∧ (w.applyClaimRec t r).pwr = w.pwr ∧
    (w.applyClaimRec t r).int = w.int ∧ (w.applyClaimRec t r).hrt = w.hrt ∧ (w.applyClaimRec t r).out = w.out := by
  unfold Wing.applyClaimRec
  refine ⟨?_, ?_, ?_, ?_, ?_, ?_, ?_, ?_, ?_, ?_, ?_, ?_, ?_, ?_, ?_, ?_, ?_⟩ <;> (repeat' split) <;> first | rfl | simp

@[simp] theorem Wing.applyCompleteRec_keeps (w : Wing) (t : Tick) (r : JournalRec) :
    (w.applyCompleteRec t r).id = w.id ∧ (w.applyCompleteRec t r).life = w.life ∧
    (w.applyCompleteRec t r).aptBase = w.aptBase ∧ (w.applyCompleteRec t r).portGen = w.portGen ∧
    (w.applyCompleteRec t r).key = w.key ∧ (w.applyCompleteRec t r).keyValid = w.keyValid ∧
    (w.applyCompleteRec t r).ctl = w.ctl ∧ (w.applyCompleteRec t r).hall = w.hall ∧ (w.applyCompleteRec t r).sl = w.sl ∧
    (w.applyCompleteRec t r).ring = w.ring ∧ (w.applyCompleteRec t r).drn = w.drn ∧ (w.applyCompleteRec t r).psg = w.psg ∧
    (w.applyCompleteRec t r).pwr = w.pwr ∧ (w.applyCompleteRec t r).int = w.int ∧ (w.applyCompleteRec t r).hrt = w.hrt ∧
    (w.applyCompleteRec t r).out = w.out := by
  unfold Wing.applyCompleteRec
  simp

@[simp] theorem Wing.askContext_keeps (w : Wing) (key : Word) :
    (w.askContext key).id = w.id ∧ (w.askContext key).life = w.life ∧ (w.askContext key).aptBase = w.aptBase ∧
    (w.askContext key).portGen = w.portGen ∧ (w.askContext key).key = w.key ∧ (w.askContext key).keyValid = w.keyValid ∧
    (w.askContext key).regs = w.regs ∧ (w.askContext key).ctl = w.ctl ∧ (w.askContext key).vst = w.vst ∧
    (w.askContext key).pan = w.pan ∧ (w.askContext key).hall = w.hall ∧ (w.askContext key).pch = w.pch ∧
    (w.askContext key).sl = w.sl ∧ (w.askContext key).ring = w.ring ∧ (w.askContext key).drn = w.drn ∧
    (w.askContext key).pwr = w.pwr ∧ (w.askContext key).int = w.int ∧ (w.askContext key).hrt = w.hrt ∧
    (w.askContext key).out = w.out := by
  unfold Wing.askContext
  refine ⟨?_, ?_, ?_, ?_, ?_, ?_, ?_, ?_, ?_, ?_, ?_, ?_, ?_, ?_, ?_, ?_, ?_, ?_, ?_⟩ <;> (repeat' split) <;> first | rfl | simp

@[simp] theorem Wing.dropDual_keeps (w : Wing) (k : Nat) :
    (w.dropDual k).id = w.id ∧ (w.dropDual k).life = w.life ∧ (w.dropDual k).aptBase = w.aptBase ∧
    (w.dropDual k).portGen = w.portGen ∧ (w.dropDual k).key = w.key ∧ (w.dropDual k).keyValid = w.keyValid ∧
    (w.dropDual k).ctl = w.ctl ∧ (w.dropDual k).vst = w.vst ∧ (w.dropDual k).pan = w.pan ∧ (w.dropDual k).hall = w.hall ∧
    (w.dropDual k).pch = w.pch ∧ (w.dropDual k).sl = w.sl ∧ (w.dropDual k).ring = w.ring ∧ (w.dropDual k).drn = w.drn ∧
    (w.dropDual k).psg = w.psg ∧ (w.dropDual k).pwr = w.pwr ∧ (w.dropDual k).int = w.int ∧ (w.dropDual k).hrt = w.hrt ∧
    (w.dropDual k).out = w.out :=
  ⟨rfl, rfl, rfl, rfl, rfl, rfl, rfl, rfl, rfl, rfl, rfl, rfl, rfl, rfl, rfl, rfl, rfl, rfl, rfl⟩

@[simp] theorem Wing.dropLocked_keeps (w : Wing) :
    w.dropLocked.id = w.id ∧ w.dropLocked.life = w.life ∧ w.dropLocked.aptBase = w.aptBase ∧
    w.dropLocked.portGen = w.portGen ∧ w.dropLocked.key = w.key ∧ w.dropLocked.keyValid = w.keyValid ∧
    w.dropLocked.ctl = w.ctl ∧ w.dropLocked.vst = w.vst ∧ w.dropLocked.pan = w.pan ∧ w.dropLocked.hall = w.hall ∧
    w.dropLocked.pch = w.pch ∧ w.dropLocked.sl = w.sl ∧ w.dropLocked.ring = w.ring ∧ w.dropLocked.drn = w.drn ∧
    w.dropLocked.psg = w.psg ∧ w.dropLocked.pwr = w.pwr ∧ w.dropLocked.int = w.int ∧ w.dropLocked.hrt = w.hrt ∧
    w.dropLocked.out = w.out := by
  unfold Wing.dropLocked
  refine ⟨?_, ?_, ?_, ?_, ?_, ?_, ?_, ?_, ?_, ?_, ?_, ?_, ?_, ?_, ?_, ?_, ?_, ?_, ?_⟩ <;> (repeat' split) <;> first | rfl | simp

@[simp] theorem Wing.applyDrain_keeps (w : Wing) (r : DrainRec) :
    (w.applyDrain r).id = w.id ∧ (w.applyDrain r).life = w.life ∧ (w.applyDrain r).aptBase = w.aptBase ∧
    (w.applyDrain r).portGen = w.portGen ∧ (w.applyDrain r).key = w.key ∧ (w.applyDrain r).keyValid = w.keyValid ∧
    (w.applyDrain r).ctl = w.ctl ∧ (w.applyDrain r).vst = w.vst ∧ (w.applyDrain r).pan = w.pan ∧
    (w.applyDrain r).hall = w.hall ∧ (w.applyDrain r).pch = w.pch ∧ (w.applyDrain r).ring = w.ring ∧
    (w.applyDrain r).drn = w.drn ∧ (w.applyDrain r).psg = w.psg ∧ (w.applyDrain r).pwr = w.pwr ∧
    (w.applyDrain r).int = w.int ∧ (w.applyDrain r).hrt = w.hrt ∧ (w.applyDrain r).out = w.out :=
  ⟨rfl, rfl, rfl, rfl, rfl, rfl, rfl, rfl, rfl, rfl, rfl, rfl, rfl, rfl, rfl, rfl, rfl, rfl⟩

@[simp] theorem Wing.applyLevel_keeps (w : Wing) (r : LevelRec) :
    (w.applyLevel r).id = w.id ∧ (w.applyLevel r).life = w.life ∧ (w.applyLevel r).aptBase = w.aptBase ∧
    (w.applyLevel r).portGen = w.portGen ∧ (w.applyLevel r).key = w.key ∧ (w.applyLevel r).keyValid = w.keyValid ∧
    (w.applyLevel r).regs = w.regs ∧ (w.applyLevel r).ctl = w.ctl ∧ (w.applyLevel r).vst = w.vst ∧
    (w.applyLevel r).pan = w.pan ∧ (w.applyLevel r).hall = w.hall ∧ (w.applyLevel r).pch = w.pch ∧
    (w.applyLevel r).sl = w.sl ∧ (w.applyLevel r).ring = w.ring ∧ (w.applyLevel r).drn = w.drn ∧
    (w.applyLevel r).psg = w.psg ∧ (w.applyLevel r).int = w.int ∧ (w.applyLevel r).hrt = w.hrt ∧ (w.applyLevel r).out = w.out :=
  ⟨rfl, rfl, rfl, rfl, rfl, rfl, rfl, rfl, rfl, rfl, rfl, rfl, rfl, rfl, rfl, rfl, rfl, rfl, rfl⟩

@[simp] theorem Wing.applyQuar_keeps (w : Wing) (t : Tick) (r : QuarRec) :
    (w.applyQuar t r).id = w.id ∧ (w.applyQuar t r).life = w.life ∧ (w.applyQuar t r).aptBase = w.aptBase ∧
    (w.applyQuar t r).portGen = w.portGen ∧ (w.applyQuar t r).key = w.key ∧ (w.applyQuar t r).keyValid = w.keyValid ∧
    (w.applyQuar t r).regs = w.regs ∧ (w.applyQuar t r).ctl = w.ctl ∧ (w.applyQuar t r).vst = w.vst ∧
    (w.applyQuar t r).hall = w.hall ∧ (w.applyQuar t r).pch = w.pch ∧ (w.applyQuar t r).drn = w.drn ∧
    (w.applyQuar t r).psg = w.psg ∧ (w.applyQuar t r).pwr = w.pwr ∧ (w.applyQuar t r).int = w.int ∧
    (w.applyQuar t r).hrt = w.hrt ∧ (w.applyQuar t r).out = w.out := by
  unfold Wing.applyQuar
  refine ⟨?_, ?_, ?_, ?_, ?_, ?_, ?_, ?_, ?_, ?_, ?_, ?_, ?_, ?_, ?_, ?_, ?_⟩ <;> (repeat' split) <;> first | rfl | simp

@[simp] theorem Wing.applyTarget_keeps (w : Wing) (r : TargetRec) :
    (w.applyTarget r).id = w.id ∧ (w.applyTarget r).life = w.life ∧ (w.applyTarget r).aptBase = w.aptBase ∧
    (w.applyTarget r).portGen = w.portGen ∧ (w.applyTarget r).key = w.key ∧ (w.applyTarget r).keyValid = w.keyValid ∧
    (w.applyTarget r).regs = w.regs ∧ (w.applyTarget r).ctl = w.ctl ∧ (w.applyTarget r).vst = w.vst ∧
    (w.applyTarget r).hall = w.hall ∧ (w.applyTarget r).pch = w.pch ∧ (w.applyTarget r).sl = w.sl ∧
    (w.applyTarget r).ring = w.ring ∧ (w.applyTarget r).drn = w.drn ∧ (w.applyTarget r).psg = w.psg ∧
    (w.applyTarget r).pwr = w.pwr ∧ (w.applyTarget r).int = w.int ∧ (w.applyTarget r).hrt = w.hrt ∧
    (w.applyTarget r).out = w.out := by
  unfold Wing.applyTarget
  refine ⟨?_, ?_, ?_, ?_, ?_, ?_, ?_, ?_, ?_, ?_, ?_, ?_, ?_, ?_, ?_, ?_, ?_, ?_,
    ?_⟩ <;> dsimp only <;> (repeat' split) <;> first | rfl | (simp; done) | simp [*]

@[simp] theorem Wing.applyResidency_keeps (w : Wing) (t : Tick) (r : ResidencyRec) :
    (w.applyResidency t r).id = w.id ∧ (w.applyResidency t r).life = w.life ∧ (w.applyResidency t r).aptBase = w.aptBase ∧
    (w.applyResidency t r).portGen = w.portGen ∧ (w.applyResidency t r).key = w.key ∧
    (w.applyResidency t r).keyValid = w.keyValid ∧ (w.applyResidency t r).ctl = w.ctl ∧ (w.applyResidency t r).vst = w.vst ∧
    (w.applyResidency t r).pan = w.pan ∧ (w.applyResidency t r).hall = w.hall ∧ (w.applyResidency t r).pch = w.pch ∧
    (w.applyResidency t r).drn = w.drn ∧ (w.applyResidency t r).psg = w.psg ∧ (w.applyResidency t r).pwr = w.pwr ∧
    (w.applyResidency t r).int = w.int ∧ (w.applyResidency t r).hrt = w.hrt ∧ (w.applyResidency t r).out = w.out := by
  unfold Wing.applyResidency
  simp

@[simp] theorem Wing.applyDoorbellRec_keeps (w : Wing) (r : DoorbellRec) :
    (w.applyDoorbellRec r).id = w.id ∧ (w.applyDoorbellRec r).life = w.life ∧ (w.applyDoorbellRec r).aptBase = w.aptBase ∧
    (w.applyDoorbellRec r).portGen = w.portGen ∧ (w.applyDoorbellRec r).key = w.key ∧
    (w.applyDoorbellRec r).keyValid = w.keyValid ∧ (w.applyDoorbellRec r).regs = w.regs ∧
    (w.applyDoorbellRec r).ctl = w.ctl ∧ (w.applyDoorbellRec r).vst = w.vst ∧ (w.applyDoorbellRec r).pan = w.pan ∧
    (w.applyDoorbellRec r).hall = w.hall ∧ (w.applyDoorbellRec r).pch = w.pch ∧ (w.applyDoorbellRec r).ring = w.ring ∧
    (w.applyDoorbellRec r).drn = w.drn ∧ (w.applyDoorbellRec r).psg = w.psg ∧ (w.applyDoorbellRec r).pwr = w.pwr ∧
    (w.applyDoorbellRec r).int = w.int ∧ (w.applyDoorbellRec r).hrt = w.hrt ∧ (w.applyDoorbellRec r).out = w.out := by
  unfold Wing.applyDoorbellRec
  refine ⟨?_, ?_, ?_, ?_, ?_, ?_, ?_, ?_, ?_, ?_, ?_, ?_, ?_, ?_, ?_, ?_, ?_, ?_, ?_⟩ <;> (repeat' split) <;> first | rfl | simp

/-! ## Resync -/

@[simp] theorem Wing.loadWord_keeps (w : Wing) (k : Nat) (v : Word) :
    (w.loadWord k v).id = w.id ∧ (w.loadWord k v).life = w.life ∧ (w.loadWord k v).aptBase = w.aptBase ∧
    (w.loadWord k v).portGen = w.portGen ∧ (w.loadWord k v).key = w.key ∧ (w.loadWord k v).keyValid = w.keyValid ∧
    (w.loadWord k v).ctl = w.ctl ∧ (w.loadWord k v).vst = w.vst ∧ (w.loadWord k v).pan = w.pan ∧
    (w.loadWord k v).hall = w.hall ∧ (w.loadWord k v).pch = w.pch ∧ (w.loadWord k v).sl = w.sl ∧
    (w.loadWord k v).ring = w.ring ∧ (w.loadWord k v).drn = w.drn ∧ (w.loadWord k v).psg = w.psg ∧
    (w.loadWord k v).pwr = w.pwr ∧ (w.loadWord k v).int = w.int ∧ (w.loadWord k v).hrt = w.hrt ∧
    (w.loadWord k v).out = w.out := by
  unfold Wing.loadWord
  refine ⟨?_, ?_, ?_, ?_, ?_, ?_, ?_, ?_, ?_, ?_, ?_, ?_, ?_, ?_, ?_, ?_, ?_, ?_, ?_⟩ <;> (repeat' split) <;> first | rfl | simp

@[simp] theorem Wing.alignSeq_keeps (w : Wing) (i : Nat) (q : Word) (f : Tick) :
    (w.alignSeq i q f).id = w.id ∧ (w.alignSeq i q f).life = w.life ∧ (w.alignSeq i q f).aptBase = w.aptBase ∧
    (w.alignSeq i q f).portGen = w.portGen ∧ (w.alignSeq i q f).key = w.key ∧ (w.alignSeq i q f).keyValid = w.keyValid ∧
    (w.alignSeq i q f).regs = w.regs ∧ (w.alignSeq i q f).ctl = w.ctl ∧ (w.alignSeq i q f).pan = w.pan ∧
    (w.alignSeq i q f).hall = w.hall ∧ (w.alignSeq i q f).pch = w.pch ∧ (w.alignSeq i q f).sl = w.sl ∧
    (w.alignSeq i q f).ring = w.ring ∧ (w.alignSeq i q f).drn = w.drn ∧ (w.alignSeq i q f).psg = w.psg ∧
    (w.alignSeq i q f).pwr = w.pwr ∧ (w.alignSeq i q f).int = w.int ∧ (w.alignSeq i q f).hrt = w.hrt ∧
    (w.alignSeq i q f).out = w.out :=
  ⟨rfl, rfl, rfl, rfl, rfl, rfl, rfl, rfl, rfl, rfl, rfl, rfl, rfl, rfl, rfl, rfl, rfl, rfl, rfl⟩

@[simp] theorem Wing.loadContext_keeps (w : Wing) (n j : Nat) (d : DWord) :
    (w.loadContext n j d).id = w.id ∧ (w.loadContext n j d).life = w.life ∧ (w.loadContext n j d).aptBase = w.aptBase ∧
    (w.loadContext n j d).portGen = w.portGen ∧ (w.loadContext n j d).key = w.key ∧
    (w.loadContext n j d).keyValid = w.keyValid ∧ (w.loadContext n j d).regs = w.regs ∧ (w.loadContext n j d).ctl = w.ctl ∧
    (w.loadContext n j d).vst = w.vst ∧ (w.loadContext n j d).hall = w.hall ∧ (w.loadContext n j d).pch = w.pch ∧
    (w.loadContext n j d).sl = w.sl ∧ (w.loadContext n j d).ring = w.ring ∧ (w.loadContext n j d).drn = w.drn ∧
    (w.loadContext n j d).psg = w.psg ∧ (w.loadContext n j d).pwr = w.pwr ∧ (w.loadContext n j d).int = w.int ∧
    (w.loadContext n j d).hrt = w.hrt ∧ (w.loadContext n j d).out = w.out := by
  unfold Wing.loadContext
  refine ⟨?_, ?_, ?_, ?_, ?_, ?_, ?_, ?_, ?_, ?_, ?_, ?_, ?_, ?_, ?_, ?_, ?_, ?_,
    ?_⟩ <;> dsimp only <;> (repeat' split) <;> first | rfl | (simp; done) | simp [*]

@[simp] theorem Wing.restartWalk_keeps (w : Wing) :
    w.restartWalk.id = w.id ∧ w.restartWalk.life = w.life ∧ w.restartWalk.aptBase = w.aptBase ∧
    w.restartWalk.portGen = w.portGen ∧ w.restartWalk.key = w.key ∧ w.restartWalk.keyValid = w.keyValid ∧
    w.restartWalk.regs = w.regs ∧ w.restartWalk.vst = w.vst ∧ w.restartWalk.hall = w.hall ∧ w.restartWalk.pch = w.pch ∧
    w.restartWalk.sl = w.sl ∧ w.restartWalk.ring = w.ring ∧ w.restartWalk.drn = w.drn ∧ w.restartWalk.pwr = w.pwr ∧
    w.restartWalk.int = w.int ∧ w.restartWalk.hrt = w.hrt ∧ w.restartWalk.out = w.out :=
  ⟨rfl, rfl, rfl, rfl, rfl, rfl, rfl, rfl, rfl, rfl, rfl, rfl, rfl, rfl, rfl, rfl, rfl⟩

@[simp] theorem Wing.touchReloads_keeps (w : Wing) (f : Reload → Bool) :
    (w.touchReloads f).id = w.id ∧ (w.touchReloads f).life = w.life ∧ (w.touchReloads f).aptBase = w.aptBase ∧
    (w.touchReloads f).portGen = w.portGen ∧ (w.touchReloads f).key = w.key ∧ (w.touchReloads f).keyValid = w.keyValid ∧
    (w.touchReloads f).regs = w.regs ∧ (w.touchReloads f).ctl = w.ctl ∧ (w.touchReloads f).vst = w.vst ∧
    (w.touchReloads f).hall = w.hall ∧ (w.touchReloads f).pch = w.pch ∧ (w.touchReloads f).sl = w.sl ∧
    (w.touchReloads f).ring = w.ring ∧ (w.touchReloads f).drn = w.drn ∧ (w.touchReloads f).psg = w.psg ∧
    (w.touchReloads f).pwr = w.pwr ∧ (w.touchReloads f).int = w.int ∧ (w.touchReloads f).hrt = w.hrt ∧
    (w.touchReloads f).out = w.out :=
  ⟨rfl, rfl, rfl, rfl, rfl, rfl, rfl, rfl, rfl, rfl, rfl, rfl, rfl, rfl, rfl, rfl, rfl, rfl, rfl⟩

@[simp] theorem Wing.dirReloads_keeps (w : Wing) (r : Rec) :
    (w.dirReloads r).id = w.id ∧ (w.dirReloads r).life = w.life ∧ (w.dirReloads r).aptBase = w.aptBase ∧
    (w.dirReloads r).portGen = w.portGen ∧ (w.dirReloads r).key = w.key ∧ (w.dirReloads r).keyValid = w.keyValid ∧
    (w.dirReloads r).regs = w.regs ∧ (w.dirReloads r).ctl = w.ctl ∧ (w.dirReloads r).vst = w.vst ∧
    (w.dirReloads r).hall = w.hall ∧ (w.dirReloads r).pch = w.pch ∧ (w.dirReloads r).sl = w.sl ∧
    (w.dirReloads r).ring = w.ring ∧ (w.dirReloads r).drn = w.drn ∧ (w.dirReloads r).psg = w.psg ∧
    (w.dirReloads r).pwr = w.pwr ∧ (w.dirReloads r).int = w.int ∧ (w.dirReloads r).hrt = w.hrt ∧ (w.dirReloads r).out = w.out :=
  ⟨rfl, rfl, rfl, rfl, rfl, rfl, rfl, rfl, rfl, rfl, rfl, rfl, rfl, rfl, rfl, rfl, rfl, rfl, rfl⟩

/-! ## The hall -/

@[simp] theorem Wing.countRanking_keeps (w : Wing) (r : Ranking) (whole : Bool) :
    (w.countRanking r whole).id = w.id ∧ (w.countRanking r whole).life = w.life ∧
    (w.countRanking r whole).aptBase = w.aptBase ∧ (w.countRanking r whole).portGen = w.portGen ∧
    (w.countRanking r whole).key = w.key ∧ (w.countRanking r whole).keyValid = w.keyValid ∧
    (w.countRanking r whole).ctl = w.ctl ∧ (w.countRanking r whole).vst = w.vst ∧ (w.countRanking r whole).pan = w.pan ∧
    (w.countRanking r whole).hall = w.hall ∧ (w.countRanking r whole).pch = w.pch ∧ (w.countRanking r whole).sl = w.sl ∧
    (w.countRanking r whole).ring = w.ring ∧ (w.countRanking r whole).drn = w.drn ∧ (w.countRanking r whole).psg = w.psg ∧
    (w.countRanking r whole).pwr = w.pwr ∧ (w.countRanking r whole).int = w.int ∧ (w.countRanking r whole).hrt = w.hrt ∧
    (w.countRanking r whole).out = w.out := by
  unfold Wing.countRanking
  simp

@[simp] theorem Wing.noteUnplaced_keeps (w : Wing) (r : Ranking) :
    (w.noteUnplaced r).id = w.id ∧ (w.noteUnplaced r).life = w.life ∧ (w.noteUnplaced r).aptBase = w.aptBase ∧
    (w.noteUnplaced r).portGen = w.portGen ∧ (w.noteUnplaced r).key = w.key ∧ (w.noteUnplaced r).keyValid = w.keyValid ∧
    (w.noteUnplaced r).regs = w.regs ∧ (w.noteUnplaced r).ctl = w.ctl ∧ (w.noteUnplaced r).vst = w.vst ∧
    (w.noteUnplaced r).hall = w.hall ∧ (w.noteUnplaced r).pch = w.pch ∧ (w.noteUnplaced r).sl = w.sl ∧
    (w.noteUnplaced r).ring = w.ring ∧ (w.noteUnplaced r).drn = w.drn ∧ (w.noteUnplaced r).psg = w.psg ∧
    (w.noteUnplaced r).pwr = w.pwr ∧ (w.noteUnplaced r).int = w.int ∧ (w.noteUnplaced r).hrt = w.hrt ∧
    (w.noteUnplaced r).out = w.out :=
  ⟨rfl, rfl, rfl, rfl, rfl, rfl, rfl, rfl, rfl, rfl, rfl, rfl, rfl, rfl, rfl, rfl, rfl, rfl, rfl⟩

@[simp] theorem Wing.countStranding_keeps (w : Wing) (st : SMap (Nat × Nat)) (ticks : Nat) :
    (w.countStranding st ticks).id = w.id ∧ (w.countStranding st ticks).life = w.life ∧
    (w.countStranding st ticks).aptBase = w.aptBase ∧ (w.countStranding st ticks).portGen = w.portGen ∧
    (w.countStranding st ticks).key = w.key ∧ (w.countStranding st ticks).keyValid = w.keyValid ∧
    (w.countStranding st ticks).regs = w.regs ∧ (w.countStranding st ticks).ctl = w.ctl ∧
    (w.countStranding st ticks).vst = w.vst ∧ (w.countStranding st ticks).pan = w.pan ∧
    (w.countStranding st ticks).pch = w.pch ∧ (w.countStranding st ticks).ring = w.ring ∧
    (w.countStranding st ticks).drn = w.drn ∧ (w.countStranding st ticks).psg = w.psg ∧
    (w.countStranding st ticks).pwr = w.pwr ∧ (w.countStranding st ticks).int = w.int ∧
    (w.countStranding st ticks).hrt = w.hrt ∧ (w.countStranding st ticks).out = w.out :=
  ⟨rfl, rfl, rfl, rfl, rfl, rfl, rfl, rfl, rfl, rfl, rfl, rfl, rfl, rfl, rfl, rfl, rfl, rfl⟩

/-! ## Frames and roles -/

@[simp] theorem Wing.stopBoot_keeps (w : Wing) :
    w.stopBoot.id = w.id ∧ w.stopBoot.life = w.life ∧ w.stopBoot.aptBase = w.aptBase ∧ w.stopBoot.portGen = w.portGen ∧
    w.stopBoot.key = w.key ∧ w.stopBoot.keyValid = w.keyValid ∧ w.stopBoot.regs = w.regs ∧ w.stopBoot.vst = w.vst ∧
    w.stopBoot.pan = w.pan ∧ w.stopBoot.hall = w.hall ∧ w.stopBoot.pch = w.pch ∧ w.stopBoot.ring = w.ring ∧
    w.stopBoot.drn = w.drn ∧ w.stopBoot.psg = w.psg ∧ w.stopBoot.pwr = w.pwr ∧ w.stopBoot.int = w.int ∧
    w.stopBoot.hrt = w.hrt ∧ w.stopBoot.out = w.out := by
  unfold Wing.stopBoot
  refine ⟨?_, ?_, ?_, ?_, ?_, ?_, ?_, ?_, ?_, ?_, ?_, ?_, ?_, ?_, ?_, ?_, ?_, ?_⟩ <;> (repeat' split) <;> first | rfl | simp

@[simp] theorem Wing.withdraw_keeps (w : Wing) :
    w.withdraw.id = w.id ∧ w.withdraw.life = w.life ∧ w.withdraw.aptBase = w.aptBase ∧ w.withdraw.portGen = w.portGen ∧
    w.withdraw.key = w.key ∧ w.withdraw.keyValid = w.keyValid ∧ w.withdraw.regs = w.regs ∧ w.withdraw.vst = w.vst ∧
    w.withdraw.pan = w.pan ∧ w.withdraw.hall = w.hall ∧ w.withdraw.pch = w.pch ∧ w.withdraw.sl = w.sl ∧
    w.withdraw.ring = w.ring ∧ w.withdraw.drn = w.drn ∧ w.withdraw.psg = w.psg ∧ w.withdraw.pwr = w.pwr ∧
    w.withdraw.int = w.int ∧ w.withdraw.hrt = w.hrt ∧ w.withdraw.out = w.out := by
  unfold Wing.withdraw
  refine ⟨?_, ?_, ?_, ?_, ?_, ?_, ?_, ?_, ?_, ?_, ?_, ?_, ?_, ?_, ?_, ?_, ?_, ?_, ?_⟩ <;> (repeat' split) <;> first | rfl | simp

@[simp] theorem Wing.placeHandover_keeps (w : Wing) (pending : Bool) (h : Tick) :
    (w.placeHandover pending h).id = w.id ∧ (w.placeHandover pending h).life = w.life ∧
    (w.placeHandover pending h).aptBase = w.aptBase ∧ (w.placeHandover pending h).portGen = w.portGen ∧
    (w.placeHandover pending h).key = w.key ∧ (w.placeHandover pending h).keyValid = w.keyValid ∧
    (w.placeHandover pending h).regs = w.regs ∧ (w.placeHandover pending h).ctl = w.ctl ∧
    (w.placeHandover pending h).vst = w.vst ∧ (w.placeHandover pending h).pan = w.pan ∧
    (w.placeHandover pending h).hall = w.hall ∧ (w.placeHandover pending h).pch = w.pch ∧
    (w.placeHandover pending h).sl = w.sl ∧ (w.placeHandover pending h).ring = w.ring ∧
    (w.placeHandover pending h).drn = w.drn ∧ (w.placeHandover pending h).pwr = w.pwr ∧
    (w.placeHandover pending h).int = w.int ∧ (w.placeHandover pending h).hrt = w.hrt ∧
    (w.placeHandover pending h).out = w.out :=
  ⟨rfl, rfl, rfl, rfl, rfl, rfl, rfl, rfl, rfl, rfl, rfl, rfl, rfl, rfl, rfl, rfl, rfl, rfl, rfl⟩

@[simp] theorem Wing.noteSeen_keeps (w : Wing) (img : RankImg) :
    (w.noteSeen img).id = w.id ∧ (w.noteSeen img).life = w.life ∧ (w.noteSeen img).aptBase = w.aptBase ∧
    (w.noteSeen img).portGen = w.portGen ∧ (w.noteSeen img).key = w.key ∧ (w.noteSeen img).keyValid = w.keyValid ∧
    (w.noteSeen img).regs = w.regs ∧ (w.noteSeen img).ctl = w.ctl ∧ (w.noteSeen img).vst = w.vst ∧
    (w.noteSeen img).pan = w.pan ∧ (w.noteSeen img).pch = w.pch ∧ (w.noteSeen img).sl = w.sl ∧
    (w.noteSeen img).ring = w.ring ∧ (w.noteSeen img).drn = w.drn ∧ (w.noteSeen img).psg = w.psg ∧
    (w.noteSeen img).pwr = w.pwr ∧ (w.noteSeen img).int = w.int ∧ (w.noteSeen img).hrt = w.hrt ∧ (w.noteSeen img).out = w.out :=
  ⟨rfl, rfl, rfl, rfl, rfl, rfl, rfl, rfl, rfl, rfl, rfl, rfl, rfl, rfl, rfl, rfl, rfl, rfl, rfl⟩

@[simp] theorem Wing.formBlock_keeps (w : Wing) (t : Tick) :
    (w.formBlock t).id = w.id ∧ (w.formBlock t).life = w.life ∧ (w.formBlock t).aptBase = w.aptBase ∧
    (w.formBlock t).portGen = w.portGen ∧ (w.formBlock t).key = w.key ∧ (w.formBlock t).keyValid = w.keyValid ∧
    (w.formBlock t).regs = w.regs ∧ (w.formBlock t).ctl = w.ctl ∧ (w.formBlock t).vst = w.vst ∧ (w.formBlock t).pan = w.pan ∧
    (w.formBlock t).hall = w.hall ∧ (w.formBlock t).pch = w.pch ∧ (w.formBlock t).sl = w.sl ∧ (w.formBlock t).drn = w.drn ∧
    (w.formBlock t).psg = w.psg ∧ (w.formBlock t).pwr = w.pwr ∧ (w.formBlock t).int = w.int ∧ (w.formBlock t).hrt = w.hrt ∧
    (w.formBlock t).out = w.out := by
  unfold Wing.formBlock
  refine ⟨?_, ?_, ?_, ?_, ?_, ?_, ?_, ?_, ?_, ?_, ?_, ?_, ?_, ?_, ?_, ?_, ?_, ?_,
    ?_⟩ <;> dsimp only <;> (repeat' split) <;> first | rfl | (simp; done) | simp [*]

@[simp] theorem Wing.noteOpen_keeps (w : Wing) (r : Rec) :
    (w.noteOpen r).id = w.id ∧ (w.noteOpen r).life = w.life ∧ (w.noteOpen r).aptBase = w.aptBase ∧
    (w.noteOpen r).portGen = w.portGen ∧ (w.noteOpen r).key = w.key ∧ (w.noteOpen r).keyValid = w.keyValid ∧
    (w.noteOpen r).regs = w.regs ∧ (w.noteOpen r).ctl = w.ctl ∧ (w.noteOpen r).vst = w.vst ∧ (w.noteOpen r).pan = w.pan ∧
    (w.noteOpen r).pch = w.pch ∧ (w.noteOpen r).sl = w.sl ∧ (w.noteOpen r).ring = w.ring ∧ (w.noteOpen r).drn = w.drn ∧
    (w.noteOpen r).psg = w.psg ∧ (w.noteOpen r).pwr = w.pwr ∧ (w.noteOpen r).int = w.int ∧ (w.noteOpen r).hrt = w.hrt ∧
    (w.noteOpen r).out = w.out := by
  unfold Wing.noteOpen
  refine ⟨?_, ?_, ?_, ?_, ?_, ?_, ?_, ?_, ?_, ?_, ?_, ?_, ?_, ?_, ?_, ?_, ?_, ?_, ?_⟩ <;> (repeat' split) <;> first | rfl | simp

@[simp] theorem Wing.acceptAhead_keeps (w : Wing) (p : Byte) (key : Word) :
    (w.acceptAhead p key).id = w.id ∧ (w.acceptAhead p key).life = w.life ∧ (w.acceptAhead p key).aptBase = w.aptBase ∧
    (w.acceptAhead p key).portGen = w.portGen ∧ (w.acceptAhead p key).key = w.key ∧
    (w.acceptAhead p key).keyValid = w.keyValid ∧ (w.acceptAhead p key).regs = w.regs ∧ (w.acceptAhead p key).ctl = w.ctl ∧
    (w.acceptAhead p key).vst = w.vst ∧ (w.acceptAhead p key).pch = w.pch ∧ (w.acceptAhead p key).sl = w.sl ∧
    (w.acceptAhead p key).drn = w.drn ∧ (w.acceptAhead p key).psg = w.psg ∧ (w.acceptAhead p key).pwr = w.pwr ∧
    (w.acceptAhead p key).int = w.int ∧ (w.acceptAhead p key).hrt = w.hrt ∧ (w.acceptAhead p key).out = w.out := by
  unfold Wing.acceptAhead
  refine ⟨?_, ?_, ?_, ?_, ?_, ?_, ?_, ?_, ?_, ?_, ?_, ?_, ?_, ?_, ?_, ?_, ?_⟩ <;> (repeat' split) <;> first | rfl | simp

/-! ## Beats of the porches -/

@[simp] theorem Wing.acceptOffer_keeps (w : Wing) (p : Byte) (key : Word) :
    (w.acceptOffer p key).id = w.id ∧ (w.acceptOffer p key).life = w.life ∧ (w.acceptOffer p key).aptBase = w.aptBase ∧
    (w.acceptOffer p key).portGen = w.portGen ∧ (w.acceptOffer p key).key = w.key ∧
    (w.acceptOffer p key).keyValid = w.keyValid ∧ (w.acceptOffer p key).regs = w.regs ∧ (w.acceptOffer p key).ctl = w.ctl ∧
    (w.acceptOffer p key).vst = w.vst ∧ (w.acceptOffer p key).pch = w.pch ∧ (w.acceptOffer p key).sl = w.sl ∧
    (w.acceptOffer p key).drn = w.drn ∧ (w.acceptOffer p key).pwr = w.pwr ∧ (w.acceptOffer p key).int = w.int ∧
    (w.acceptOffer p key).hrt = w.hrt ∧ (w.acceptOffer p key).out = w.out := by
  unfold Wing.acceptOffer
  simp

@[simp] theorem Wing.noteAnswer_keeps (w : Wing) :
    w.noteAnswer.id = w.id ∧ w.noteAnswer.life = w.life ∧ w.noteAnswer.aptBase = w.aptBase ∧
    w.noteAnswer.portGen = w.portGen ∧ w.noteAnswer.key = w.key ∧ w.noteAnswer.keyValid = w.keyValid ∧
    w.noteAnswer.regs = w.regs ∧ w.noteAnswer.vst = w.vst ∧ w.noteAnswer.pan = w.pan ∧ w.noteAnswer.pch = w.pch ∧
    w.noteAnswer.sl = w.sl ∧ w.noteAnswer.ring = w.ring ∧ w.noteAnswer.drn = w.drn ∧ w.noteAnswer.psg = w.psg ∧
    w.noteAnswer.pwr = w.pwr ∧ w.noteAnswer.int = w.int ∧ w.noteAnswer.hrt = w.hrt ∧ w.noteAnswer.out = w.out :=
  ⟨rfl, rfl, rfl, rfl, rfl, rfl, rfl, rfl, rfl, rfl, rfl, rfl, rfl, rfl, rfl, rfl, rfl, rfl⟩

@[simp] theorem Wing.takeEntry_keeps (w : Wing) (p : Byte) (d : DWord) :
    (w.takeEntry p d).id = w.id ∧ (w.takeEntry p d).life = w.life ∧ (w.takeEntry p d).aptBase = w.aptBase ∧
    (w.takeEntry p d).portGen = w.portGen ∧ (w.takeEntry p d).key = w.key ∧ (w.takeEntry p d).keyValid = w.keyValid ∧
    (w.takeEntry p d).regs = w.regs ∧ (w.takeEntry p d).ctl = w.ctl ∧ (w.takeEntry p d).vst = w.vst ∧
    (w.takeEntry p d).pan = w.pan ∧ (w.takeEntry p d).hall = w.hall ∧ (w.takeEntry p d).sl = w.sl ∧
    (w.takeEntry p d).ring = w.ring ∧ (w.takeEntry p d).drn = w.drn ∧ (w.takeEntry p d).psg = w.psg ∧
    (w.takeEntry p d).pwr = w.pwr ∧ (w.takeEntry p d).int = w.int ∧ (w.takeEntry p d).hrt = w.hrt ∧
    (w.takeEntry p d).out = w.out := by
  unfold Wing.takeEntry
  refine ⟨?_, ?_, ?_, ?_, ?_, ?_, ?_, ?_, ?_, ?_, ?_, ?_, ?_, ?_, ?_, ?_, ?_, ?_,
    ?_⟩ <;> dsimp only <;> (repeat' split) <;> first | rfl | (simp; done) | simp [*]

@[simp] theorem Wing.acceptReported_keeps (w : Wing) (p : Byte) (c : Ctx) (m : Tick) :
    (w.acceptReported p c m).id = w.id ∧ (w.acceptReported p c m).life = w.life ∧
    (w.acceptReported p c m).aptBase = w.aptBase ∧ (w.acceptReported p c m).portGen = w.portGen ∧
    (w.acceptReported p c m).key = w.key ∧ (w.acceptReported p c m).keyValid = w.keyValid ∧
    (w.acceptReported p c m).regs = w.regs ∧ (w.acceptReported p c m).ctl = w.ctl ∧ (w.acceptReported p c m).vst = w.vst ∧
    (w.acceptReported p c m).pch = w.pch ∧ (w.acceptReported p c m).sl = w.sl ∧ (w.acceptReported p c m).drn = w.drn ∧
    (w.acceptReported p c m).psg = w.psg ∧ (w.acceptReported p c m).pwr = w.pwr ∧ (w.acceptReported p c m).int = w.int ∧
    (w.acceptReported p c m).hrt = w.hrt ∧ (w.acceptReported p c m).out = w.out := by
  unfold Wing.acceptReported
  simp

@[simp] theorem Wing.slotReported_keeps (w : Wing) (p : Byte) (key : Word) (rtick : Byte) :
    (w.slotReported p key rtick).1.id = w.id ∧ (w.slotReported p key rtick).1.life = w.life ∧
    (w.slotReported p key rtick).1.aptBase = w.aptBase ∧ (w.slotReported p key rtick).1.portGen = w.portGen ∧
    (w.slotReported p key rtick).1.key = w.key ∧ (w.slotReported p key rtick).1.keyValid = w.keyValid ∧
    (w.slotReported p key rtick).1.regs = w.regs ∧ (w.slotReported p key rtick).1.ctl = w.ctl ∧
    (w.slotReported p key rtick).1.vst = w.vst ∧ (w.slotReported p key rtick).1.pch = w.pch ∧
    (w.slotReported p key rtick).1.sl = w.sl ∧ (w.slotReported p key rtick).1.drn = w.drn ∧
    (w.slotReported p key rtick).1.psg = w.psg ∧ (w.slotReported p key rtick).1.pwr = w.pwr ∧
    (w.slotReported p key rtick).1.int = w.int ∧ (w.slotReported p key rtick).1.hrt = w.hrt ∧
    (w.slotReported p key rtick).1.out = w.out := by
  unfold Wing.slotReported
  refine ⟨?_, ?_, ?_, ?_, ?_, ?_, ?_, ?_, ?_, ?_, ?_, ?_, ?_, ?_, ?_, ?_, ?_⟩ <;> (repeat' split) <;> first | rfl | simp

@[simp] theorem Wing.replayEnded_keeps (w : Wing) (p : Byte) :
    (w.replayEnded p).id = w.id ∧ (w.replayEnded p).life = w.life ∧ (w.replayEnded p).aptBase = w.aptBase ∧
    (w.replayEnded p).portGen = w.portGen ∧ (w.replayEnded p).key = w.key ∧ (w.replayEnded p).keyValid = w.keyValid ∧
    (w.replayEnded p).regs = w.regs ∧ (w.replayEnded p).ctl = w.ctl ∧ (w.replayEnded p).vst = w.vst ∧
    (w.replayEnded p).pan = w.pan ∧ (w.replayEnded p).hall = w.hall ∧ (w.replayEnded p).sl = w.sl ∧
    (w.replayEnded p).ring = w.ring ∧ (w.replayEnded p).drn = w.drn ∧ (w.replayEnded p).psg = w.psg ∧
    (w.replayEnded p).pwr = w.pwr ∧ (w.replayEnded p).int = w.int ∧ (w.replayEnded p).hrt = w.hrt ∧
    (w.replayEnded p).out = w.out := by
  unfold Wing.replayEnded
  refine ⟨?_, ?_, ?_, ?_, ?_, ?_, ?_, ?_, ?_, ?_, ?_, ?_, ?_, ?_, ?_, ?_, ?_, ?_, ?_⟩ <;> (repeat' split) <;> first | rfl | simp

/-! ## Slices: long commands -/

@[simp] theorem Wing.setJob_keeps (w : Wing) (s : BitVec 12) (j : Job) :
    (w.setJob s j).id = w.id ∧ (w.setJob s j).life = w.life ∧ (w.setJob s j).aptBase = w.aptBase ∧
    (w.setJob s j).portGen = w.portGen ∧ (w.setJob s j).key = w.key ∧ (w.setJob s j).keyValid = w.keyValid ∧
    (w.setJob s j).regs = w.regs ∧ (w.setJob s j).ctl = w.ctl ∧ (w.setJob s j).vst = w.vst ∧ (w.setJob s j).pan = w.pan ∧
    (w.setJob s j).hall = w.hall ∧ (w.setJob s j).pch = w.pch ∧ (w.setJob s j).ring = w.ring ∧ (w.setJob s j).drn = w.drn ∧
    (w.setJob s j).psg = w.psg ∧ (w.setJob s j).pwr = w.pwr ∧ (w.setJob s j).int = w.int ∧ (w.setJob s j).hrt = w.hrt ∧
    (w.setJob s j).out = w.out :=
  ⟨rfl, rfl, rfl, rfl, rfl, rfl, rfl, rfl, rfl, rfl, rfl, rfl, rfl, rfl, rfl, rfl, rfl, rfl, rfl⟩

@[simp] theorem Wing.writesDone_keeps (w : Wing) (s : BitVec 12) :
    (w.writesDone s).id = w.id ∧ (w.writesDone s).life = w.life ∧ (w.writesDone s).aptBase = w.aptBase ∧
    (w.writesDone s).portGen = w.portGen ∧ (w.writesDone s).key = w.key ∧ (w.writesDone s).keyValid = w.keyValid ∧
    (w.writesDone s).regs = w.regs ∧ (w.writesDone s).ctl = w.ctl ∧ (w.writesDone s).vst = w.vst ∧
    (w.writesDone s).pan = w.pan ∧ (w.writesDone s).hall = w.hall ∧ (w.writesDone s).pch = w.pch ∧
    (w.writesDone s).ring = w.ring ∧ (w.writesDone s).drn = w.drn ∧ (w.writesDone s).psg = w.psg ∧
    (w.writesDone s).pwr = w.pwr ∧ (w.writesDone s).int = w.int ∧ (w.writesDone s).hrt = w.hrt ∧
    (w.writesDone s).out = w.out := by
  unfold Wing.writesDone
  refine ⟨?_, ?_, ?_, ?_, ?_, ?_, ?_, ?_, ?_, ?_, ?_, ?_, ?_, ?_, ?_, ?_, ?_, ?_, ?_⟩ <;> (repeat' split) <;> first | rfl | simp

@[simp] theorem Wing.waitEnd_keeps (w : Wing) (s : BitVec 12) :
    (w.waitEnd s).id = w.id ∧ (w.waitEnd s).life = w.life ∧ (w.waitEnd s).aptBase = w.aptBase ∧
    (w.waitEnd s).portGen = w.portGen ∧ (w.waitEnd s).key = w.key ∧ (w.waitEnd s).keyValid = w.keyValid ∧
    (w.waitEnd s).regs = w.regs ∧ (w.waitEnd s).ctl = w.ctl ∧ (w.waitEnd s).vst = w.vst ∧ (w.waitEnd s).pan = w.pan ∧
    (w.waitEnd s).hall = w.hall ∧ (w.waitEnd s).pch = w.pch ∧ (w.waitEnd s).ring = w.ring ∧ (w.waitEnd s).drn = w.drn ∧
    (w.waitEnd s).psg = w.psg ∧ (w.waitEnd s).pwr = w.pwr ∧ (w.waitEnd s).int = w.int ∧ (w.waitEnd s).hrt = w.hrt ∧
    (w.waitEnd s).out = w.out := by
  unfold Wing.waitEnd
  refine ⟨?_, ?_, ?_, ?_, ?_, ?_, ?_, ?_, ?_, ?_, ?_, ?_, ?_, ?_, ?_, ?_, ?_, ?_, ?_⟩ <;> (repeat' split) <;> first | rfl | simp

/-! ## Event rings -/

@[simp] theorem Wing.writeRecord_keeps (w : Wing) (n : BitVec 12) (t : Tick) (rewrite : Bool) (r : BitVec 256) :
    (w.writeRecord n t rewrite r).id = w.id ∧ (w.writeRecord n t rewrite r).life = w.life ∧
    (w.writeRecord n t rewrite r).aptBase = w.aptBase ∧ (w.writeRecord n t rewrite r).portGen = w.portGen ∧
    (w.writeRecord n t rewrite r).key = w.key ∧ (w.writeRecord n t rewrite r).keyValid = w.keyValid ∧
    (w.writeRecord n t rewrite r).ctl = w.ctl ∧ (w.writeRecord n t rewrite r).vst = w.vst ∧
    (w.writeRecord n t rewrite r).pan = w.pan ∧ (w.writeRecord n t rewrite r).hall = w.hall ∧
    (w.writeRecord n t rewrite r).pch = w.pch ∧ (w.writeRecord n t rewrite r).drn = w.drn ∧
    (w.writeRecord n t rewrite r).psg = w.psg ∧ (w.writeRecord n t rewrite r).pwr = w.pwr ∧
    (w.writeRecord n t rewrite r).int = w.int ∧ (w.writeRecord n t rewrite r).hrt = w.hrt := by
  unfold Wing.writeRecord
  simp

@[simp] theorem Wing.settleDone_keeps (w : Wing) :
    w.settleDone.id = w.id ∧ w.settleDone.life = w.life ∧ w.settleDone.aptBase = w.aptBase ∧
    w.settleDone.portGen = w.portGen ∧ w.settleDone.key = w.key ∧ w.settleDone.keyValid = w.keyValid ∧
    w.settleDone.regs = w.regs ∧ w.settleDone.ctl = w.ctl ∧ w.settleDone.vst = w.vst ∧ w.settleDone.pan = w.pan ∧
    w.settleDone.hall = w.hall ∧ w.settleDone.pch = w.pch ∧ w.settleDone.sl = w.sl ∧ w.settleDone.drn = w.drn ∧
    w.settleDone.pwr = w.pwr ∧ w.settleDone.int = w.int ∧ w.settleDone.hrt = w.hrt ∧ w.settleDone.out = w.out := by
  unfold Wing.settleDone
  refine ⟨?_, ?_, ?_, ?_, ?_, ?_, ?_, ?_, ?_, ?_, ?_, ?_, ?_, ?_, ?_, ?_, ?_,
    ?_⟩ <;> dsimp only <;> (repeat' split) <;> first | rfl | (simp; done) | simp [*]

/-! ## Levels and votes -/

@[simp] theorem Wing.placeLevel_keeps (w : Wing) (l : Level) :
    (w.placeLevel l).id = w.id ∧ (w.placeLevel l).life = w.life ∧ (w.placeLevel l).aptBase = w.aptBase ∧
    (w.placeLevel l).portGen = w.portGen ∧ (w.placeLevel l).key = w.key ∧ (w.placeLevel l).keyValid = w.keyValid ∧
    (w.placeLevel l).regs = w.regs ∧ (w.placeLevel l).ctl = w.ctl ∧ (w.placeLevel l).vst = w.vst ∧
    (w.placeLevel l).pan = w.pan ∧ (w.placeLevel l).hall = w.hall ∧ (w.placeLevel l).pch = w.pch ∧
    (w.placeLevel l).sl = w.sl ∧ (w.placeLevel l).ring = w.ring ∧ (w.placeLevel l).drn = w.drn ∧
    (w.placeLevel l).pwr = w.pwr ∧ (w.placeLevel l).int = w.int ∧ (w.placeLevel l).hrt = w.hrt ∧ (w.placeLevel l).out = w.out :=
  ⟨rfl, rfl, rfl, rfl, rfl, rfl, rfl, rfl, rfl, rfl, rfl, rfl, rfl, rfl, rfl, rfl, rfl, rfl, rfl⟩

@[simp] theorem Wing.levelChoice_keeps (w : Wing) :
    w.levelChoice.id = w.id ∧ w.levelChoice.life = w.life ∧ w.levelChoice.aptBase = w.aptBase ∧
    w.levelChoice.portGen = w.portGen ∧ w.levelChoice.key = w.key ∧ w.levelChoice.keyValid = w.keyValid ∧
    w.levelChoice.regs = w.regs ∧ w.levelChoice.ctl = w.ctl ∧ w.levelChoice.vst = w.vst ∧ w.levelChoice.pan = w.pan ∧
    w.levelChoice.hall = w.hall ∧ w.levelChoice.pch = w.pch ∧ w.levelChoice.sl = w.sl ∧ w.levelChoice.ring = w.ring ∧
    w.levelChoice.drn = w.drn ∧ w.levelChoice.psg = w.psg ∧ w.levelChoice.int = w.int ∧ w.levelChoice.hrt = w.hrt ∧
    w.levelChoice.out = w.out := by
  unfold Wing.levelChoice
  refine ⟨?_, ?_, ?_, ?_, ?_, ?_, ?_, ?_, ?_, ?_, ?_, ?_, ?_, ?_, ?_, ?_, ?_, ?_, ?_⟩ <;> (repeat' split) <;> first | rfl | simp

@[simp] theorem Wing.rebudget_keeps (w : Wing) :
    w.rebudget.id = w.id ∧ w.rebudget.life = w.life ∧ w.rebudget.aptBase = w.aptBase ∧ w.rebudget.portGen = w.portGen ∧
    w.rebudget.key = w.key ∧ w.rebudget.keyValid = w.keyValid ∧ w.rebudget.regs = w.regs ∧ w.rebudget.ctl = w.ctl ∧
    w.rebudget.pan = w.pan ∧ w.rebudget.hall = w.hall ∧ w.rebudget.pch = w.pch ∧ w.rebudget.sl = w.sl ∧
    w.rebudget.ring = w.ring ∧ w.rebudget.drn = w.drn ∧ w.rebudget.psg = w.psg ∧ w.rebudget.int = w.int ∧
    w.rebudget.hrt = w.hrt ∧ w.rebudget.out = w.out :=
  ⟨rfl, rfl, rfl, rfl, rfl, rfl, rfl, rfl, rfl, rfl, rfl, rfl, rfl, rfl, rfl, rfl, rfl, rfl⟩

@[simp] theorem Wing.noteRefusal_keeps (w : Wing) (refuser request : BitVec 2) (reason : BitVec 3) (e : Tick) :
    (w.noteRefusal refuser request reason e).id = w.id ∧ (w.noteRefusal refuser request reason e).life = w.life ∧
    (w.noteRefusal refuser request reason e).aptBase = w.aptBase ∧
    (w.noteRefusal refuser request reason e).portGen = w.portGen ∧ (w.noteRefusal refuser request reason e).key = w.key ∧
    (w.noteRefusal refuser request reason e).keyValid = w.keyValid ∧ (w.noteRefusal refuser request reason e).ctl = w.ctl ∧
    (w.noteRefusal refuser request reason e).vst = w.vst ∧ (w.noteRefusal refuser request reason e).pan = w.pan ∧
    (w.noteRefusal refuser request reason e).hall = w.hall ∧ (w.noteRefusal refuser request reason e).pch = w.pch ∧
    (w.noteRefusal refuser request reason e).sl = w.sl ∧ (w.noteRefusal refuser request reason e).ring = w.ring ∧
    (w.noteRefusal refuser request reason e).drn = w.drn ∧ (w.noteRefusal refuser request reason e).psg = w.psg ∧
    (w.noteRefusal refuser request reason e).int = w.int ∧ (w.noteRefusal refuser request reason e).hrt = w.hrt ∧
    (w.noteRefusal refuser request reason e).out = w.out :=
  ⟨rfl, rfl, rfl, rfl, rfl, rfl, rfl, rfl, rfl, rfl, rfl, rfl, rfl, rfl, rfl, rfl, rfl, rfl⟩

@[simp] theorem Wing.abortEntry_keeps (w : Wing) (reason : BitVec 3) :
    (w.abortEntry reason).id = w.id ∧ (w.abortEntry reason).aptBase = w.aptBase ∧ (w.abortEntry reason).portGen = w.portGen ∧
    (w.abortEntry reason).key = w.key ∧ (w.abortEntry reason).keyValid = w.keyValid ∧ (w.abortEntry reason).ctl = w.ctl ∧
    (w.abortEntry reason).vst = w.vst ∧ (w.abortEntry reason).pan = w.pan ∧ (w.abortEntry reason).hall = w.hall ∧
    (w.abortEntry reason).pch = w.pch ∧ (w.abortEntry reason).sl = w.sl ∧ (w.abortEntry reason).ring = w.ring ∧
    (w.abortEntry reason).drn = w.drn ∧ (w.abortEntry reason).int = w.int ∧ (w.abortEntry reason).hrt = w.hrt ∧
    (w.abortEntry reason).out = w.out := by
  unfold Wing.abortEntry
  refine ⟨?_, ?_, ?_, ?_, ?_, ?_, ?_, ?_, ?_, ?_, ?_, ?_, ?_, ?_, ?_, ?_⟩ <;> (repeat' split) <;> first | rfl | simp

@[simp] theorem Wing.recheckUncertain_keeps (w : Wing) (key : Word) (resync : Bool) :
    (w.recheckUncertain key resync).id = w.id ∧ (w.recheckUncertain key resync).life = w.life ∧
    (w.recheckUncertain key resync).aptBase = w.aptBase ∧ (w.recheckUncertain key resync).portGen = w.portGen ∧
    (w.recheckUncertain key resync).key = w.key ∧ (w.recheckUncertain key resync).keyValid = w.keyValid ∧
    (w.recheckUncertain key resync).ctl = w.ctl ∧ (w.recheckUncertain key resync).vst = w.vst ∧
    (w.recheckUncertain key resync).pan = w.pan ∧ (w.recheckUncertain key resync).hall = w.hall ∧
    (w.recheckUncertain key resync).pch = w.pch ∧ (w.recheckUncertain key resync).drn = w.drn ∧
    (w.recheckUncertain key resync).psg = w.psg ∧ (w.recheckUncertain key resync).pwr = w.pwr ∧
    (w.recheckUncertain key resync).int = w.int ∧ (w.recheckUncertain key resync).hrt = w.hrt ∧
    (w.recheckUncertain key resync).out = w.out := by
  unfold Wing.recheckUncertain
  refine ⟨?_, ?_, ?_, ?_, ?_, ?_, ?_, ?_, ?_, ?_, ?_, ?_, ?_, ?_, ?_, ?_,
    ?_⟩ <;> dsimp only <;> (repeat' split) <;> first | rfl | (simp; done) | simp [*]

/-! ## The study -/

@[simp] theorem Wing.restartSeen_keeps (w : Wing) :
    w.restartSeen.id = w.id ∧ w.restartSeen.life = w.life ∧ w.restartSeen.aptBase = w.aptBase ∧
    w.restartSeen.portGen = w.portGen ∧ w.restartSeen.key = w.key ∧ w.restartSeen.keyValid = w.keyValid ∧
    w.restartSeen.regs = w.regs ∧ w.restartSeen.ctl = w.ctl ∧ w.restartSeen.vst = w.vst ∧ w.restartSeen.pan = w.pan ∧
    w.restartSeen.pch = w.pch ∧ w.restartSeen.sl = w.sl ∧ w.restartSeen.ring = w.ring ∧ w.restartSeen.drn = w.drn ∧
    w.restartSeen.psg = w.psg ∧ w.restartSeen.pwr = w.pwr ∧ w.restartSeen.int = w.int ∧ w.restartSeen.hrt = w.hrt ∧
    w.restartSeen.out = w.out := by
  unfold Wing.restartSeen
  refine ⟨?_, ?_, ?_, ?_, ?_, ?_, ?_, ?_, ?_, ?_, ?_, ?_, ?_, ?_, ?_, ?_, ?_, ?_, ?_⟩ <;> (repeat' split) <;> first | rfl | simp

@[simp] theorem Wing.strandLimit_keeps (w : Wing) (s : BitVec 12) :
    (w.strandLimit s).id = w.id ∧ (w.strandLimit s).life = w.life ∧ (w.strandLimit s).aptBase = w.aptBase ∧
    (w.strandLimit s).portGen = w.portGen ∧ (w.strandLimit s).key = w.key ∧ (w.strandLimit s).keyValid = w.keyValid ∧
    (w.strandLimit s).regs = w.regs ∧ (w.strandLimit s).ctl = w.ctl ∧ (w.strandLimit s).vst = w.vst ∧
    (w.strandLimit s).pan = w.pan ∧ (w.strandLimit s).hall = w.hall ∧ (w.strandLimit s).pch = w.pch ∧
    (w.strandLimit s).sl = w.sl ∧ (w.strandLimit s).ring = w.ring ∧ (w.strandLimit s).drn = w.drn ∧
    (w.strandLimit s).pwr = w.pwr ∧ (w.strandLimit s).int = w.int ∧ (w.strandLimit s).hrt = w.hrt ∧
    (w.strandLimit s).out = w.out := by
  unfold Wing.strandLimit
  refine ⟨?_, ?_, ?_, ?_, ?_, ?_, ?_, ?_, ?_, ?_, ?_, ?_, ?_, ?_, ?_, ?_, ?_, ?_,
    ?_⟩ <;> dsimp only <;> (repeat' split) <;> first | rfl | (simp; done) | simp [*]

/-! ## Takeover and return -/

@[simp] theorem Wing.sendInit_keeps (w : Wing) (p : Byte) :
    (w.sendInit p).id = w.id ∧ (w.sendInit p).life = w.life ∧ (w.sendInit p).aptBase = w.aptBase ∧
    (w.sendInit p).portGen = w.portGen ∧ (w.sendInit p).key = w.key ∧ (w.sendInit p).keyValid = w.keyValid ∧
    (w.sendInit p).regs = w.regs ∧ (w.sendInit p).ctl = w.ctl ∧ (w.sendInit p).vst = w.vst ∧ (w.sendInit p).pan = w.pan ∧
    (w.sendInit p).hall = w.hall ∧ (w.sendInit p).pch = w.pch ∧ (w.sendInit p).sl = w.sl ∧ (w.sendInit p).ring = w.ring ∧
    (w.sendInit p).drn = w.drn ∧ (w.sendInit p).psg = w.psg ∧ (w.sendInit p).pwr = w.pwr ∧ (w.sendInit p).int = w.int ∧
    (w.sendInit p).hrt = w.hrt :=
  ⟨rfl, rfl, rfl, rfl, rfl, rfl, rfl, rfl, rfl, rfl, rfl, rfl, rfl, rfl, rfl, rfl, rfl, rfl, rfl⟩

@[simp] theorem Wing.becomeActive_keeps (w : Wing) :
    w.becomeActive.id = w.id ∧ w.becomeActive.life = w.life ∧ w.becomeActive.aptBase = w.aptBase ∧
    w.becomeActive.portGen = w.portGen ∧ w.becomeActive.key = w.key ∧ w.becomeActive.keyValid = w.keyValid ∧
    w.becomeActive.pwr = w.pwr ∧ w.becomeActive.int = w.int ∧ w.becomeActive.hrt = w.hrt ∧ w.becomeActive.out = w.out :=
  ⟨rfl, rfl, rfl, rfl, rfl, rfl, rfl, rfl, rfl, rfl⟩

@[simp] theorem Wing.awaitReplays_keeps (w : Wing) :
    w.awaitReplays.id = w.id ∧ w.awaitReplays.life = w.life ∧ w.awaitReplays.aptBase = w.aptBase ∧
    w.awaitReplays.portGen = w.portGen ∧ w.awaitReplays.key = w.key ∧ w.awaitReplays.keyValid = w.keyValid ∧
    w.awaitReplays.regs = w.regs ∧ w.awaitReplays.ctl = w.ctl ∧ w.awaitReplays.vst = w.vst ∧ w.awaitReplays.pan = w.pan ∧
    w.awaitReplays.hall = w.hall ∧ w.awaitReplays.sl = w.sl ∧ w.awaitReplays.ring = w.ring ∧ w.awaitReplays.drn = w.drn ∧
    w.awaitReplays.psg = w.psg ∧ w.awaitReplays.pwr = w.pwr ∧ w.awaitReplays.int = w.int ∧ w.awaitReplays.hrt = w.hrt ∧
    w.awaitReplays.out = w.out :=
  ⟨rfl, rfl, rfl, rfl, rfl, rfl, rfl, rfl, rfl, rfl, rfl, rfl, rfl, rfl, rfl, rfl, rfl, rfl, rfl⟩

@[simp] theorem Wing.provisionalCommit_keeps (w : Wing) :
    w.provisionalCommit.id = w.id ∧ w.provisionalCommit.life = w.life ∧ w.provisionalCommit.aptBase = w.aptBase ∧
    w.provisionalCommit.portGen = w.portGen ∧ w.provisionalCommit.key = w.key ∧ w.provisionalCommit.keyValid = w.keyValid ∧
    w.provisionalCommit.regs = w.regs ∧ w.provisionalCommit.vst = w.vst ∧ w.provisionalCommit.pan = w.pan ∧
    w.provisionalCommit.hall = w.hall ∧ w.provisionalCommit.pch = w.pch ∧ w.provisionalCommit.sl = w.sl ∧
    w.provisionalCommit.ring = w.ring ∧ w.provisionalCommit.drn = w.drn ∧ w.provisionalCommit.psg = w.psg ∧
    w.provisionalCommit.pwr = w.pwr ∧ w.provisionalCommit.int = w.int ∧ w.provisionalCommit.hrt = w.hrt ∧
    w.provisionalCommit.out = w.out := by
  unfold Wing.provisionalCommit
  refine ⟨?_, ?_, ?_, ?_, ?_, ?_, ?_, ?_, ?_, ?_, ?_, ?_, ?_, ?_, ?_, ?_, ?_, ?_, ?_⟩ <;> (repeat' split) <;> first | rfl | simp

@[simp] theorem Wing.recoveryEnds_keeps (w : Wing) :
    w.recoveryEnds.id = w.id ∧ w.recoveryEnds.life = w.life ∧ w.recoveryEnds.aptBase = w.aptBase ∧
    w.recoveryEnds.portGen = w.portGen ∧ w.recoveryEnds.key = w.key ∧ w.recoveryEnds.keyValid = w.keyValid ∧
    w.recoveryEnds.regs = w.regs ∧ w.recoveryEnds.vst = w.vst ∧ w.recoveryEnds.pan = w.pan ∧ w.recoveryEnds.hall = w.hall ∧
    w.recoveryEnds.pch = w.pch ∧ w.recoveryEnds.sl = w.sl ∧ w.recoveryEnds.ring = w.ring ∧ w.recoveryEnds.drn = w.drn ∧
    w.recoveryEnds.psg = w.psg ∧ w.recoveryEnds.pwr = w.pwr ∧ w.recoveryEnds.int = w.int ∧ w.recoveryEnds.hrt = w.hrt ∧
    w.recoveryEnds.out = w.out := by
  unfold Wing.recoveryEnds
  refine ⟨?_, ?_, ?_, ?_, ?_, ?_, ?_, ?_, ?_, ?_, ?_, ?_, ?_, ?_, ?_, ?_, ?_, ?_, ?_⟩ <;> (repeat' split) <;> first | rfl | simp

@[simp] theorem Wing.resyncAbort_keeps (w : Wing) :
    w.resyncAbort.id = w.id ∧ w.resyncAbort.life = w.life ∧ w.resyncAbort.aptBase = w.aptBase ∧
    w.resyncAbort.portGen = w.portGen ∧ w.resyncAbort.key = w.key ∧ w.resyncAbort.keyValid = w.keyValid ∧
    w.resyncAbort.vst = w.vst ∧ w.resyncAbort.pan = w.pan ∧ w.resyncAbort.hall = w.hall ∧ w.resyncAbort.pch = w.pch ∧
    w.resyncAbort.sl = w.sl ∧ w.resyncAbort.ring = w.ring ∧ w.resyncAbort.drn = w.drn ∧ w.resyncAbort.pwr = w.pwr ∧
    w.resyncAbort.int = w.int ∧ w.resyncAbort.hrt = w.hrt ∧ w.resyncAbort.out = w.out := by
  unfold Wing.resyncAbort
  refine ⟨?_, ?_, ?_, ?_, ?_, ?_, ?_, ?_, ?_, ?_, ?_, ?_, ?_, ?_, ?_, ?_, ?_⟩ <;> (repeat' split) <;> first | rfl | simp

@[simp] theorem Wing.scheduleHandover_keeps (w : Wing) :
    w.scheduleHandover.id = w.id ∧ w.scheduleHandover.life = w.life ∧ w.scheduleHandover.aptBase = w.aptBase ∧
    w.scheduleHandover.portGen = w.portGen ∧ w.scheduleHandover.key = w.key ∧ w.scheduleHandover.keyValid = w.keyValid ∧
    w.scheduleHandover.regs = w.regs ∧ w.scheduleHandover.vst = w.vst ∧ w.scheduleHandover.pan = w.pan ∧
    w.scheduleHandover.hall = w.hall ∧ w.scheduleHandover.pch = w.pch ∧ w.scheduleHandover.sl = w.sl ∧
    w.scheduleHandover.ring = w.ring ∧ w.scheduleHandover.drn = w.drn ∧ w.scheduleHandover.pwr = w.pwr ∧
    w.scheduleHandover.int = w.int ∧ w.scheduleHandover.hrt = w.hrt ∧ w.scheduleHandover.out = w.out := by
  unfold Wing.scheduleHandover
  refine ⟨?_, ?_, ?_, ?_, ?_, ?_, ?_, ?_, ?_, ?_, ?_, ?_, ?_, ?_, ?_, ?_, ?_, ?_⟩ <;> (repeat' split) <;> first | rfl | simp

@[simp] theorem Wing.setLane_keeps (w : Wing) (l : Nat) (v : Lane) :
    (w.setLane l v).id = w.id ∧ (w.setLane l v).life = w.life ∧ (w.setLane l v).aptBase = w.aptBase ∧
    (w.setLane l v).portGen = w.portGen ∧ (w.setLane l v).key = w.key ∧ (w.setLane l v).keyValid = w.keyValid ∧
    (w.setLane l v).regs = w.regs ∧ (w.setLane l v).ctl = w.ctl ∧ (w.setLane l v).vst = w.vst ∧ (w.setLane l v).pan = w.pan ∧
    (w.setLane l v).hall = w.hall ∧ (w.setLane l v).pch = w.pch ∧ (w.setLane l v).sl = w.sl ∧ (w.setLane l v).ring = w.ring ∧
    (w.setLane l v).drn = w.drn ∧ (w.setLane l v).pwr = w.pwr ∧ (w.setLane l v).int = w.int ∧ (w.setLane l v).hrt = w.hrt ∧
    (w.setLane l v).out = w.out :=
  ⟨rfl, rfl, rfl, rfl, rfl, rfl, rfl, rfl, rfl, rfl, rfl, rfl, rfl, rfl, rfl, rfl, rfl, rfl, rfl⟩

@[simp] theorem Wing.noteLost_keeps (w : Wing) (xs : List LostBlk) :
    (w.noteLost xs).id = w.id ∧ (w.noteLost xs).life = w.life ∧ (w.noteLost xs).aptBase = w.aptBase ∧
    (w.noteLost xs).portGen = w.portGen ∧ (w.noteLost xs).key = w.key ∧ (w.noteLost xs).keyValid = w.keyValid ∧
    (w.noteLost xs).ctl = w.ctl ∧ (w.noteLost xs).vst = w.vst ∧ (w.noteLost xs).pan = w.pan ∧ (w.noteLost xs).hall = w.hall ∧
    (w.noteLost xs).pch = w.pch ∧ (w.noteLost xs).sl = w.sl ∧ (w.noteLost xs).ring = w.ring ∧ (w.noteLost xs).drn = w.drn ∧
    (w.noteLost xs).pwr = w.pwr ∧ (w.noteLost xs).int = w.int ∧ (w.noteLost xs).hrt = w.hrt ∧ (w.noteLost xs).out = w.out :=
  ⟨rfl, rfl, rfl, rfl, rfl, rfl, rfl, rfl, rfl, rfl, rfl, rfl, rfl, rfl, rfl, rfl, rfl, rfl⟩

@[simp] theorem Wing.loseLane_keeps (w : Wing) (l : Nat) :
    (w.loseLane l).id = w.id ∧ (w.loseLane l).life = w.life ∧ (w.loseLane l).aptBase = w.aptBase ∧
    (w.loseLane l).portGen = w.portGen ∧ (w.loseLane l).key = w.key ∧ (w.loseLane l).keyValid = w.keyValid ∧
    (w.loseLane l).ctl = w.ctl ∧ (w.loseLane l).vst = w.vst ∧ (w.loseLane l).pan = w.pan ∧ (w.loseLane l).hall = w.hall ∧
    (w.loseLane l).pch = w.pch ∧ (w.loseLane l).sl = w.sl ∧ (w.loseLane l).ring = w.ring ∧ (w.loseLane l).drn = w.drn ∧
    (w.loseLane l).pwr = w.pwr ∧ (w.loseLane l).int = w.int ∧ (w.loseLane l).hrt = w.hrt ∧ (w.loseLane l).out = w.out :=
  ⟨rfl, rfl, rfl, rfl, rfl, rfl, rfl, rfl, rfl, rfl, rfl, rfl, rfl, rfl, rfl, rfl, rfl, rfl⟩

@[simp] theorem Wing.blockPassed_keeps (w : Wing) (l : Nat) (ok : Bool) (h : BlockHdr) :
    (w.blockPassed l ok h).id = w.id ∧ (w.blockPassed l ok h).life = w.life ∧ (w.blockPassed l ok h).aptBase = w.aptBase ∧
    (w.blockPassed l ok h).portGen = w.portGen ∧ (w.blockPassed l ok h).key = w.key ∧
    (w.blockPassed l ok h).keyValid = w.keyValid ∧ (w.blockPassed l ok h).regs = w.regs ∧
    (w.blockPassed l ok h).ctl = w.ctl ∧ (w.blockPassed l ok h).vst = w.vst ∧ (w.blockPassed l ok h).pan = w.pan ∧
    (w.blockPassed l ok h).hall = w.hall ∧ (w.blockPassed l ok h).pch = w.pch ∧ (w.blockPassed l ok h).sl = w.sl ∧
    (w.blockPassed l ok h).ring = w.ring ∧ (w.blockPassed l ok h).drn = w.drn ∧ (w.blockPassed l ok h).pwr = w.pwr ∧
    (w.blockPassed l ok h).int = w.int ∧ (w.blockPassed l ok h).hrt = w.hrt ∧ (w.blockPassed l ok h).out = w.out := by
  unfold Wing.blockPassed
  refine ⟨?_, ?_, ?_, ?_, ?_, ?_, ?_, ?_, ?_, ?_, ?_, ?_, ?_, ?_, ?_, ?_, ?_, ?_, ?_⟩ <;> (repeat' split) <;> first | rfl | simp

@[simp] theorem Wing.openFrame_keeps (w : Wing) (t : Tick) :
    (w.openFrame t).id = w.id ∧ (w.openFrame t).life = w.life ∧ (w.openFrame t).aptBase = w.aptBase ∧
    (w.openFrame t).portGen = w.portGen ∧ (w.openFrame t).key = w.key ∧ (w.openFrame t).keyValid = w.keyValid ∧
    (w.openFrame t).regs = w.regs ∧ (w.openFrame t).ctl = w.ctl ∧ (w.openFrame t).vst = w.vst ∧ (w.openFrame t).pan = w.pan ∧
    (w.openFrame t).hall = w.hall ∧ (w.openFrame t).pch = w.pch ∧ (w.openFrame t).sl = w.sl ∧ (w.openFrame t).ring = w.ring ∧
    (w.openFrame t).drn = w.drn ∧ (w.openFrame t).pwr = w.pwr ∧ (w.openFrame t).int = w.int ∧ (w.openFrame t).hrt = w.hrt ∧
    (w.openFrame t).out = w.out := by
  unfold Wing.openFrame
  refine ⟨?_, ?_, ?_, ?_, ?_, ?_, ?_, ?_, ?_, ?_, ?_, ?_, ?_, ?_, ?_, ?_, ?_, ?_, ?_⟩ <;> (repeat' split) <;> first | rfl | simp

@[simp] theorem Wing.modFrame_keeps (w : Wing) (t : Tick) (f : RxFrame → RxFrame) :
    (w.modFrame t f).id = w.id ∧ (w.modFrame t f).life = w.life ∧ (w.modFrame t f).aptBase = w.aptBase ∧
    (w.modFrame t f).portGen = w.portGen ∧ (w.modFrame t f).key = w.key ∧ (w.modFrame t f).keyValid = w.keyValid ∧
    (w.modFrame t f).regs = w.regs ∧ (w.modFrame t f).ctl = w.ctl ∧ (w.modFrame t f).vst = w.vst ∧
    (w.modFrame t f).pan = w.pan ∧ (w.modFrame t f).hall = w.hall ∧ (w.modFrame t f).pch = w.pch ∧
    (w.modFrame t f).sl = w.sl ∧ (w.modFrame t f).ring = w.ring ∧ (w.modFrame t f).drn = w.drn ∧
    (w.modFrame t f).pwr = w.pwr ∧ (w.modFrame t f).int = w.int ∧ (w.modFrame t f).hrt = w.hrt ∧ (w.modFrame t f).out = w.out :=
  ⟨rfl, rfl, rfl, rfl, rfl, rfl, rfl, rfl, rfl, rfl, rfl, rfl, rfl, rfl, rfl, rfl, rfl, rfl, rfl⟩

@[simp] theorem Wing.dropAbandoned_keeps (w : Wing) :
    w.dropAbandoned.id = w.id ∧ w.dropAbandoned.life = w.life ∧ w.dropAbandoned.aptBase = w.aptBase ∧
    w.dropAbandoned.portGen = w.portGen ∧ w.dropAbandoned.key = w.key ∧ w.dropAbandoned.keyValid = w.keyValid ∧
    w.dropAbandoned.regs = w.regs ∧ w.dropAbandoned.ctl = w.ctl ∧ w.dropAbandoned.vst = w.vst ∧ w.dropAbandoned.pan = w.pan ∧
    w.dropAbandoned.hall = w.hall ∧ w.dropAbandoned.pch = w.pch ∧ w.dropAbandoned.sl = w.sl ∧ w.dropAbandoned.ring = w.ring ∧
    w.dropAbandoned.drn = w.drn ∧ w.dropAbandoned.pwr = w.pwr ∧ w.dropAbandoned.int = w.int ∧ w.dropAbandoned.hrt = w.hrt ∧
    w.dropAbandoned.out = w.out := by
  unfold Wing.dropAbandoned
  refine ⟨?_, ?_, ?_, ?_, ?_, ?_, ?_, ?_, ?_, ?_, ?_, ?_, ?_, ?_, ?_, ?_, ?_, ?_, ?_⟩ <;> (repeat' split) <;> first | rfl | simp

@[simp] theorem Wing.skipPlace_keeps (w : Wing) (l : Nat) :
    (w.skipPlace l).id = w.id ∧ (w.skipPlace l).life = w.life ∧ (w.skipPlace l).aptBase = w.aptBase ∧
    (w.skipPlace l).portGen = w.portGen ∧ (w.skipPlace l).key = w.key ∧ (w.skipPlace l).keyValid = w.keyValid ∧
    (w.skipPlace l).regs = w.regs ∧ (w.skipPlace l).ctl = w.ctl ∧ (w.skipPlace l).vst = w.vst ∧ (w.skipPlace l).pan = w.pan ∧
    (w.skipPlace l).hall = w.hall ∧ (w.skipPlace l).pch = w.pch ∧ (w.skipPlace l).sl = w.sl ∧ (w.skipPlace l).ring = w.ring ∧
    (w.skipPlace l).drn = w.drn ∧ (w.skipPlace l).pwr = w.pwr ∧ (w.skipPlace l).int = w.int ∧ (w.skipPlace l).hrt = w.hrt ∧
    (w.skipPlace l).out = w.out := by
  unfold Wing.skipPlace
  refine ⟨?_, ?_, ?_, ?_, ?_, ?_, ?_, ?_, ?_, ?_, ?_, ?_, ?_, ?_, ?_, ?_, ?_, ?_, ?_⟩ <;> (repeat' split) <;> first | rfl | simp

@[simp] theorem Wing.sendTraining_keeps (w : Wing) :
    w.sendTraining.id = w.id ∧ w.sendTraining.life = w.life ∧ w.sendTraining.aptBase = w.aptBase ∧
    w.sendTraining.portGen = w.portGen ∧ w.sendTraining.key = w.key ∧ w.sendTraining.keyValid = w.keyValid ∧
    w.sendTraining.regs = w.regs ∧ w.sendTraining.ctl = w.ctl ∧ w.sendTraining.vst = w.vst ∧ w.sendTraining.pan = w.pan ∧
    w.sendTraining.hall = w.hall ∧ w.sendTraining.pch = w.pch ∧ w.sendTraining.sl = w.sl ∧ w.sendTraining.ring = w.ring ∧
    w.sendTraining.drn = w.drn ∧ w.sendTraining.psg = w.psg ∧ w.sendTraining.pwr = w.pwr ∧ w.sendTraining.int = w.int ∧
    w.sendTraining.hrt = w.hrt :=
  ⟨rfl, rfl, rfl, rfl, rfl, rfl, rfl, rfl, rfl, rfl, rfl, rfl, rfl, rfl, rfl, rfl, rfl, rfl, rfl⟩

@[simp] theorem Wing.showEn_keeps (w : Wing) (before : BitVec 4) :
    (w.showEn before).id = w.id ∧ (w.showEn before).life = w.life ∧ (w.showEn before).aptBase = w.aptBase ∧
    (w.showEn before).portGen = w.portGen ∧ (w.showEn before).key = w.key ∧ (w.showEn before).keyValid = w.keyValid ∧
    (w.showEn before).regs = w.regs ∧ (w.showEn before).ctl = w.ctl ∧ (w.showEn before).vst = w.vst ∧
    (w.showEn before).pan = w.pan ∧ (w.showEn before).hall = w.hall ∧ (w.showEn before).pch = w.pch ∧
    (w.showEn before).sl = w.sl ∧ (w.showEn before).ring = w.ring ∧ (w.showEn before).drn = w.drn ∧
    (w.showEn before).psg = w.psg ∧ (w.showEn before).pwr = w.pwr ∧ (w.showEn before).int = w.int ∧
    (w.showEn before).hrt = w.hrt := by
  unfold Wing.showEn
  refine ⟨?_, ?_, ?_, ?_, ?_, ?_, ?_, ?_, ?_, ?_, ?_, ?_, ?_, ?_, ?_, ?_, ?_, ?_, ?_⟩ <;> (repeat' split) <;> first | rfl | simp

/-! ## The hearth -/

@[simp] theorem Wing.onHearth_keeps (w : Wing) (f : Hearth → Hearth) :
    (w.onHearth f).id = w.id ∧ (w.onHearth f).life = w.life ∧ (w.onHearth f).aptBase = w.aptBase ∧
    (w.onHearth f).portGen = w.portGen ∧ (w.onHearth f).key = w.key ∧ (w.onHearth f).keyValid = w.keyValid ∧
    (w.onHearth f).regs = w.regs ∧ (w.onHearth f).ctl = w.ctl ∧ (w.onHearth f).vst = w.vst ∧ (w.onHearth f).pan = w.pan ∧
    (w.onHearth f).hall = w.hall ∧ (w.onHearth f).pch = w.pch ∧ (w.onHearth f).sl = w.sl ∧ (w.onHearth f).ring = w.ring ∧
    (w.onHearth f).drn = w.drn ∧ (w.onHearth f).psg = w.psg ∧ (w.onHearth f).pwr = w.pwr ∧ (w.onHearth f).int = w.int ∧
    (w.onHearth f).out = w.out := by
  unfold Wing.onHearth
  refine ⟨?_, ?_, ?_, ?_, ?_, ?_, ?_, ?_, ?_, ?_, ?_, ?_, ?_, ?_, ?_, ?_, ?_, ?_, ?_⟩ <;> (repeat' split) <;> first | rfl | simp

@[simp] theorem Wing.writeAnchor_keeps (w : Wing) :
    w.writeAnchor.id = w.id ∧ w.writeAnchor.life = w.life ∧ w.writeAnchor.aptBase = w.aptBase ∧
    w.writeAnchor.portGen = w.portGen ∧ w.writeAnchor.key = w.key ∧ w.writeAnchor.keyValid = w.keyValid ∧
    w.writeAnchor.regs = w.regs ∧ w.writeAnchor.ctl = w.ctl ∧ w.writeAnchor.vst = w.vst ∧ w.writeAnchor.pan = w.pan ∧
    w.writeAnchor.hall = w.hall ∧ w.writeAnchor.pch = w.pch ∧ w.writeAnchor.sl = w.sl ∧ w.writeAnchor.ring = w.ring ∧
    w.writeAnchor.drn = w.drn ∧ w.writeAnchor.psg = w.psg ∧ w.writeAnchor.pwr = w.pwr ∧ w.writeAnchor.int = w.int ∧
    w.writeAnchor.out = w.out := by
  unfold Wing.writeAnchor
  refine ⟨?_, ?_, ?_, ?_, ?_, ?_, ?_, ?_, ?_, ?_, ?_, ?_, ?_, ?_, ?_, ?_, ?_, ?_, ?_⟩ <;> (repeat' split) <;> first | rfl | simp

@[simp] theorem Wing.setCalendar_keeps (w : Wing) (val : BitVec 63) :
    (w.setCalendar val).id = w.id ∧ (w.setCalendar val).life = w.life ∧ (w.setCalendar val).aptBase = w.aptBase ∧
    (w.setCalendar val).portGen = w.portGen ∧ (w.setCalendar val).key = w.key ∧ (w.setCalendar val).keyValid = w.keyValid ∧
    (w.setCalendar val).regs = w.regs ∧ (w.setCalendar val).ctl = w.ctl ∧ (w.setCalendar val).vst = w.vst ∧
    (w.setCalendar val).pan = w.pan ∧ (w.setCalendar val).hall = w.hall ∧ (w.setCalendar val).pch = w.pch ∧
    (w.setCalendar val).sl = w.sl ∧ (w.setCalendar val).ring = w.ring ∧ (w.setCalendar val).drn = w.drn ∧
    (w.setCalendar val).psg = w.psg ∧ (w.setCalendar val).pwr = w.pwr ∧ (w.setCalendar val).int = w.int ∧
    (w.setCalendar val).out = w.out := by
  unfold Wing.setCalendar
  simp

@[simp] theorem Wing.askPair_keeps (w : Wing) :
    w.askPair.id = w.id ∧ w.askPair.life = w.life ∧ w.askPair.aptBase = w.aptBase ∧ w.askPair.portGen = w.portGen ∧
    w.askPair.key = w.key ∧ w.askPair.keyValid = w.keyValid ∧ w.askPair.regs = w.regs ∧ w.askPair.ctl = w.ctl ∧
    w.askPair.vst = w.vst ∧ w.askPair.pan = w.pan ∧ w.askPair.hall = w.hall ∧ w.askPair.pch = w.pch ∧ w.askPair.sl = w.sl ∧
    w.askPair.ring = w.ring ∧ w.askPair.drn = w.drn ∧ w.askPair.psg = w.psg ∧ w.askPair.pwr = w.pwr ∧ w.askPair.int = w.int ∧
    w.askPair.out = w.out := by
  unfold Wing.askPair
  simp

@[simp] theorem Wing.setPhysBank_keeps (w : Wing) (p : Nat) (v : Phys) :
    (w.setPhysBank p v).id = w.id ∧ (w.setPhysBank p v).life = w.life ∧ (w.setPhysBank p v).aptBase = w.aptBase ∧
    (w.setPhysBank p v).portGen = w.portGen ∧ (w.setPhysBank p v).key = w.key ∧ (w.setPhysBank p v).keyValid = w.keyValid ∧
    (w.setPhysBank p v).regs = w.regs ∧ (w.setPhysBank p v).ctl = w.ctl ∧ (w.setPhysBank p v).vst = w.vst ∧
    (w.setPhysBank p v).pan = w.pan ∧ (w.setPhysBank p v).hall = w.hall ∧ (w.setPhysBank p v).pch = w.pch ∧
    (w.setPhysBank p v).sl = w.sl ∧ (w.setPhysBank p v).ring = w.ring ∧ (w.setPhysBank p v).drn = w.drn ∧
    (w.setPhysBank p v).psg = w.psg ∧ (w.setPhysBank p v).pwr = w.pwr ∧ (w.setPhysBank p v).hrt = w.hrt ∧
    (w.setPhysBank p v).out = w.out :=
  ⟨rfl, rfl, rfl, rfl, rfl, rfl, rfl, rfl, rfl, rfl, rfl, rfl, rfl, rfl, rfl, rfl, rfl, rfl, rfl⟩

@[simp] theorem Wing.setPhysSlice_keeps (w : Wing) (p : Nat) (v : Phys) :
    (w.setPhysSlice p v).id = w.id ∧ (w.setPhysSlice p v).life = w.life ∧ (w.setPhysSlice p v).aptBase = w.aptBase ∧
    (w.setPhysSlice p v).portGen = w.portGen ∧ (w.setPhysSlice p v).key = w.key ∧
    (w.setPhysSlice p v).keyValid = w.keyValid ∧ (w.setPhysSlice p v).regs = w.regs ∧ (w.setPhysSlice p v).ctl = w.ctl ∧
    (w.setPhysSlice p v).vst = w.vst ∧ (w.setPhysSlice p v).pan = w.pan ∧ (w.setPhysSlice p v).hall = w.hall ∧
    (w.setPhysSlice p v).pch = w.pch ∧ (w.setPhysSlice p v).sl = w.sl ∧ (w.setPhysSlice p v).ring = w.ring ∧
    (w.setPhysSlice p v).drn = w.drn ∧ (w.setPhysSlice p v).psg = w.psg ∧ (w.setPhysSlice p v).pwr = w.pwr ∧
    (w.setPhysSlice p v).hrt = w.hrt ∧ (w.setPhysSlice p v).out = w.out :=
  ⟨rfl, rfl, rfl, rfl, rfl, rfl, rfl, rfl, rfl, rfl, rfl, rfl, rfl, rfl, rfl, rfl, rfl, rfl, rfl⟩

@[simp] theorem Wing.markWorn_keeps (w : Wing) (u : Nat) :
    (w.markWorn u).id = w.id ∧ (w.markWorn u).life = w.life ∧ (w.markWorn u).aptBase = w.aptBase ∧
    (w.markWorn u).portGen = w.portGen ∧ (w.markWorn u).key = w.key ∧ (w.markWorn u).keyValid = w.keyValid ∧
    (w.markWorn u).regs = w.regs ∧ (w.markWorn u).ctl = w.ctl ∧ (w.markWorn u).vst = w.vst ∧ (w.markWorn u).pan = w.pan ∧
    (w.markWorn u).hall = w.hall ∧ (w.markWorn u).pch = w.pch ∧ (w.markWorn u).sl = w.sl ∧ (w.markWorn u).ring = w.ring ∧
    (w.markWorn u).drn = w.drn ∧ (w.markWorn u).psg = w.psg ∧ (w.markWorn u).pwr = w.pwr ∧ (w.markWorn u).hrt = w.hrt ∧
    (w.markWorn u).out = w.out := by
  unfold Wing.markWorn
  refine ⟨?_, ?_, ?_, ?_, ?_, ?_, ?_, ?_, ?_, ?_, ?_, ?_, ?_, ?_, ?_, ?_, ?_, ?_, ?_⟩ <;> (repeat' split) <;> first | rfl | simp

@[simp] theorem Wing.breakBank_keeps (w : Wing) (p : Nat) :
    (w.breakBank p).id = w.id ∧ (w.breakBank p).life = w.life ∧ (w.breakBank p).aptBase = w.aptBase ∧
    (w.breakBank p).portGen = w.portGen ∧ (w.breakBank p).key = w.key ∧ (w.breakBank p).keyValid = w.keyValid ∧
    (w.breakBank p).regs = w.regs ∧ (w.breakBank p).ctl = w.ctl ∧ (w.breakBank p).vst = w.vst ∧ (w.breakBank p).pan = w.pan ∧
    (w.breakBank p).hall = w.hall ∧ (w.breakBank p).pch = w.pch ∧ (w.breakBank p).sl = w.sl ∧ (w.breakBank p).ring = w.ring ∧
    (w.breakBank p).drn = w.drn ∧ (w.breakBank p).psg = w.psg ∧ (w.breakBank p).pwr = w.pwr ∧ (w.breakBank p).hrt = w.hrt ∧
    (w.breakBank p).out = w.out := by
  unfold Wing.breakBank
  simp

@[simp] theorem Wing.breakSlice_keeps (w : Wing) (p : Nat) :
    (w.breakSlice p).id = w.id ∧ (w.breakSlice p).life = w.life ∧ (w.breakSlice p).aptBase = w.aptBase ∧
    (w.breakSlice p).portGen = w.portGen ∧ (w.breakSlice p).key = w.key ∧ (w.breakSlice p).keyValid = w.keyValid ∧
    (w.breakSlice p).regs = w.regs ∧ (w.breakSlice p).ctl = w.ctl ∧ (w.breakSlice p).vst = w.vst ∧
    (w.breakSlice p).pan = w.pan ∧ (w.breakSlice p).hall = w.hall ∧ (w.breakSlice p).pch = w.pch ∧
    (w.breakSlice p).sl = w.sl ∧ (w.breakSlice p).ring = w.ring ∧ (w.breakSlice p).drn = w.drn ∧
    (w.breakSlice p).psg = w.psg ∧ (w.breakSlice p).pwr = w.pwr ∧ (w.breakSlice p).hrt = w.hrt ∧
    (w.breakSlice p).out = w.out := by
  unfold Wing.breakSlice
  simp

@[simp] theorem Wing.noSpare_keeps (w : Wing) (u : Nat) :
    (w.noSpare u).id = w.id ∧ (w.noSpare u).life = w.life ∧ (w.noSpare u).aptBase = w.aptBase ∧
    (w.noSpare u).portGen = w.portGen ∧ (w.noSpare u).key = w.key ∧ (w.noSpare u).keyValid = w.keyValid ∧
    (w.noSpare u).ctl = w.ctl ∧ (w.noSpare u).vst = w.vst ∧ (w.noSpare u).pan = w.pan ∧ (w.noSpare u).hall = w.hall ∧
    (w.noSpare u).pch = w.pch ∧ (w.noSpare u).sl = w.sl ∧ (w.noSpare u).ring = w.ring ∧ (w.noSpare u).drn = w.drn ∧
    (w.noSpare u).psg = w.psg ∧ (w.noSpare u).pwr = w.pwr ∧ (w.noSpare u).hrt = w.hrt ∧ (w.noSpare u).out = w.out := by
  unfold Wing.noSpare
  refine ⟨?_, ?_, ?_, ?_, ?_, ?_, ?_, ?_, ?_, ?_, ?_, ?_, ?_, ?_, ?_, ?_, ?_, ?_⟩ <;> (repeat' split) <;> first | rfl | simp

@[simp] theorem Wing.poisonSlot_keeps (w : Wing) (n : Nat) :
    (w.poisonSlot n).id = w.id ∧ (w.poisonSlot n).life = w.life ∧ (w.poisonSlot n).aptBase = w.aptBase ∧
    (w.poisonSlot n).portGen = w.portGen ∧ (w.poisonSlot n).key = w.key ∧ (w.poisonSlot n).keyValid = w.keyValid ∧
    (w.poisonSlot n).regs = w.regs ∧ (w.poisonSlot n).ctl = w.ctl ∧ (w.poisonSlot n).vst = w.vst ∧
    (w.poisonSlot n).hall = w.hall ∧ (w.poisonSlot n).pch = w.pch ∧ (w.poisonSlot n).sl = w.sl ∧
    (w.poisonSlot n).ring = w.ring ∧ (w.poisonSlot n).drn = w.drn ∧ (w.poisonSlot n).psg = w.psg ∧
    (w.poisonSlot n).pwr = w.pwr ∧ (w.poisonSlot n).int = w.int ∧ (w.poisonSlot n).hrt = w.hrt ∧
    (w.poisonSlot n).out = w.out := by
  unfold Wing.poisonSlot
  refine ⟨?_, ?_, ?_, ?_, ?_, ?_, ?_, ?_, ?_, ?_, ?_, ?_, ?_, ?_, ?_, ?_, ?_, ?_, ?_⟩ <;> (repeat' split) <;> first | rfl | simp

@[simp] theorem Wing.fence_keeps (w : Wing) (n : Nat) :
    (w.fence n).id = w.id ∧ (w.fence n).life = w.life ∧ (w.fence n).aptBase = w.aptBase ∧ (w.fence n).portGen = w.portGen ∧
    (w.fence n).key = w.key ∧ (w.fence n).keyValid = w.keyValid ∧ (w.fence n).ctl = w.ctl ∧ (w.fence n).vst = w.vst ∧
    (w.fence n).hall = w.hall ∧ (w.fence n).pch = w.pch ∧ (w.fence n).sl = w.sl ∧ (w.fence n).ring = w.ring ∧
    (w.fence n).drn = w.drn ∧ (w.fence n).psg = w.psg ∧ (w.fence n).pwr = w.pwr ∧ (w.fence n).hrt = w.hrt ∧
    (w.fence n).out = w.out := by
  unfold Wing.fence
  refine ⟨?_, ?_, ?_, ?_, ?_, ?_, ?_, ?_, ?_, ?_, ?_, ?_, ?_, ?_, ?_, ?_, ?_⟩ <;> (repeat' split) <;> first | rfl | simp

@[simp] theorem Wing.loseSlot_keeps (w : Wing) (n : Nat) (s : Slot) (uncertain : Bool) :
    (w.loseSlot n s uncertain).id = w.id ∧ (w.loseSlot n s uncertain).life = w.life ∧
    (w.loseSlot n s uncertain).aptBase = w.aptBase ∧ (w.loseSlot n s uncertain).portGen = w.portGen ∧
    (w.loseSlot n s uncertain).key = w.key ∧ (w.loseSlot n s uncertain).keyValid = w.keyValid ∧
    (w.loseSlot n s uncertain).regs = w.regs ∧ (w.loseSlot n s uncertain).ctl = w.ctl ∧
    (w.loseSlot n s uncertain).vst = w.vst ∧ (w.loseSlot n s uncertain).hall = w.hall ∧
    (w.loseSlot n s uncertain).pch = w.pch ∧ (w.loseSlot n s uncertain).sl = w.sl ∧
    (w.loseSlot n s uncertain).ring = w.ring ∧ (w.loseSlot n s uncertain).drn = w.drn ∧
    (w.loseSlot n s uncertain).psg = w.psg ∧ (w.loseSlot n s uncertain).pwr = w.pwr ∧
    (w.loseSlot n s uncertain).int = w.int ∧ (w.loseSlot n s uncertain).hrt = w.hrt ∧ (w.loseSlot n s uncertain).out = w.out :=
  ⟨rfl, rfl, rfl, rfl, rfl, rfl, rfl, rfl, rfl, rfl, rfl, rfl, rfl, rfl, rfl, rfl, rfl, rfl, rfl⟩

@[simp] theorem Wing.noteUnreadable_keeps (w : Wing) (f : EccFind) :
    (w.noteUnreadable f).id = w.id ∧ (w.noteUnreadable f).life = w.life ∧ (w.noteUnreadable f).aptBase = w.aptBase ∧
    (w.noteUnreadable f).portGen = w.portGen ∧ (w.noteUnreadable f).key = w.key ∧
    (w.noteUnreadable f).keyValid = w.keyValid ∧ (w.noteUnreadable f).ctl = w.ctl ∧ (w.noteUnreadable f).vst = w.vst ∧
    (w.noteUnreadable f).pan = w.pan ∧ (w.noteUnreadable f).hall = w.hall ∧ (w.noteUnreadable f).pch = w.pch ∧
    (w.noteUnreadable f).sl = w.sl ∧ (w.noteUnreadable f).ring = w.ring ∧ (w.noteUnreadable f).drn = w.drn ∧
    (w.noteUnreadable f).psg = w.psg ∧ (w.noteUnreadable f).pwr = w.pwr ∧ (w.noteUnreadable f).hrt = w.hrt ∧
    (w.noteUnreadable f).out = w.out :=
  ⟨rfl, rfl, rfl, rfl, rfl, rfl, rfl, rfl, rfl, rfl, rfl, rfl, rfl, rfl, rfl, rfl, rfl, rfl⟩

/-! ## Frames and roles -/

@[simp] theorem Wing.logSig_keeps (w : Wing) (kind : BitVec 2) (other own : Word) :
    (w.logSig kind other own).id = w.id ∧ (w.logSig kind other own).life = w.life ∧
    (w.logSig kind other own).aptBase = w.aptBase ∧ (w.logSig kind other own).portGen = w.portGen ∧
    (w.logSig kind other own).key = w.key ∧ (w.logSig kind other own).keyValid = w.keyValid ∧
    (w.logSig kind other own).regs = w.regs ∧ (w.logSig kind other own).ctl = w.ctl ∧ (w.logSig kind other own).vst = w.vst ∧
    (w.logSig kind other own).pan = w.pan ∧ (w.logSig kind other own).hall = w.hall ∧ (w.logSig kind other own).pch = w.pch ∧
    (w.logSig kind other own).sl = w.sl ∧ (w.logSig kind other own).ring = w.ring ∧ (w.logSig kind other own).drn = w.drn ∧
    (w.logSig kind other own).psg = w.psg ∧ (w.logSig kind other own).pwr = w.pwr ∧ (w.logSig kind other own).hrt = w.hrt ∧
    (w.logSig kind other own).out = w.out :=
  ⟨rfl, rfl, rfl, rfl, rfl, rfl, rfl, rfl, rfl, rfl, rfl, rfl, rfl, rfl, rfl, rfl, rfl, rfl, rfl⟩

/-! ## Integrity and spares -/

@[simp] theorem Wing.noteBankWake_keeps (w : Wing) (p : Nat) (source : Word) :
    (w.noteBankWake p source).id = w.id ∧ (w.noteBankWake p source).life = w.life ∧
    (w.noteBankWake p source).aptBase = w.aptBase ∧ (w.noteBankWake p source).portGen = w.portGen ∧
    (w.noteBankWake p source).key = w.key ∧ (w.noteBankWake p source).keyValid = w.keyValid ∧
    (w.noteBankWake p source).regs = w.regs ∧ (w.noteBankWake p source).ctl = w.ctl ∧ (w.noteBankWake p source).vst = w.vst ∧
    (w.noteBankWake p source).pan = w.pan ∧ (w.noteBankWake p source).hall = w.hall ∧ (w.noteBankWake p source).pch = w.pch ∧
    (w.noteBankWake p source).sl = w.sl ∧ (w.noteBankWake p source).ring = w.ring ∧ (w.noteBankWake p source).drn = w.drn ∧
    (w.noteBankWake p source).psg = w.psg ∧ (w.noteBankWake p source).int = w.int ∧ (w.noteBankWake p source).hrt = w.hrt ∧
    (w.noteBankWake p source).out = w.out :=
  ⟨rfl, rfl, rfl, rfl, rfl, rfl, rfl, rfl, rfl, rfl, rfl, rfl, rfl, rfl, rfl, rfl, rfl, rfl, rfl⟩

@[simp] theorem Wing.dropMove_keeps (w : Wing) :
    w.dropMove.id = w.id ∧ w.dropMove.life = w.life ∧ w.dropMove.aptBase = w.aptBase ∧ w.dropMove.portGen = w.portGen ∧
    w.dropMove.key = w.key ∧ w.dropMove.keyValid = w.keyValid ∧ w.dropMove.regs = w.regs ∧ w.dropMove.ctl = w.ctl ∧
    w.dropMove.vst = w.vst ∧ w.dropMove.pan = w.pan ∧ w.dropMove.hall = w.hall ∧ w.dropMove.pch = w.pch ∧
    w.dropMove.sl = w.sl ∧ w.dropMove.ring = w.ring ∧ w.dropMove.drn = w.drn ∧ w.dropMove.psg = w.psg ∧
    w.dropMove.pwr = w.pwr ∧ w.dropMove.hrt = w.hrt ∧ w.dropMove.out = w.out := by
  unfold Wing.dropMove
  refine ⟨?_, ?_, ?_, ?_, ?_, ?_, ?_, ?_, ?_, ?_, ?_, ?_, ?_, ?_, ?_, ?_, ?_, ?_, ?_⟩ <;> (repeat' split) <;> first | rfl | simp

/-! ## The register port -/

@[simp] theorem Wing.portOk_keeps (w : Wing) (data : DWord) :
    (w.portOk data).id = w.id ∧ (w.portOk data).life = w.life ∧ (w.portOk data).aptBase = w.aptBase ∧
    (w.portOk data).portGen = w.portGen ∧ (w.portOk data).key = w.key ∧ (w.portOk data).keyValid = w.keyValid ∧
    (w.portOk data).regs = w.regs ∧ (w.portOk data).ctl = w.ctl ∧ (w.portOk data).vst = w.vst ∧ (w.portOk data).pan = w.pan ∧
    (w.portOk data).hall = w.hall ∧ (w.portOk data).pch = w.pch ∧ (w.portOk data).sl = w.sl ∧ (w.portOk data).ring = w.ring ∧
    (w.portOk data).drn = w.drn ∧ (w.portOk data).psg = w.psg ∧ (w.portOk data).pwr = w.pwr ∧ (w.portOk data).int = w.int ∧
    (w.portOk data).hrt = w.hrt :=
  ⟨rfl, rfl, rfl, rfl, rfl, rfl, rfl, rfl, rfl, rfl, rfl, rfl, rfl, rfl, rfl, rfl, rfl, rfl, rfl⟩

@[simp] theorem Wing.refuseAccess_keeps (w : Wing) (a : RegAccess) (reason : BitVec 4) (addr : BitVec 24) :
    (w.refuseAccess a reason addr).id = w.id ∧ (w.refuseAccess a reason addr).life = w.life ∧
    (w.refuseAccess a reason addr).aptBase = w.aptBase ∧ (w.refuseAccess a reason addr).portGen = w.portGen ∧
    (w.refuseAccess a reason addr).key = w.key ∧ (w.refuseAccess a reason addr).keyValid = w.keyValid ∧
    (w.refuseAccess a reason addr).ctl = w.ctl ∧ (w.refuseAccess a reason addr).vst = w.vst ∧
    (w.refuseAccess a reason addr).pan = w.pan ∧ (w.refuseAccess a reason addr).hall = w.hall ∧
    (w.refuseAccess a reason addr).pch = w.pch ∧ (w.refuseAccess a reason addr).sl = w.sl ∧
    (w.refuseAccess a reason addr).ring = w.ring ∧ (w.refuseAccess a reason addr).drn = w.drn ∧
    (w.refuseAccess a reason addr).psg = w.psg ∧ (w.refuseAccess a reason addr).pwr = w.pwr ∧
    (w.refuseAccess a reason addr).int = w.int ∧ (w.refuseAccess a reason addr).hrt = w.hrt :=
  ⟨rfl, rfl, rfl, rfl, rfl, rfl, rfl, rfl, rfl, rfl, rfl, rfl, rfl, rfl, rfl, rfl, rfl, rfl⟩

@[simp] theorem Wing.clearHearth_keeps (w : Wing) (m : Word) :
    (w.clearHearth m).id = w.id ∧ (w.clearHearth m).life = w.life ∧ (w.clearHearth m).aptBase = w.aptBase ∧
    (w.clearHearth m).portGen = w.portGen ∧ (w.clearHearth m).key = w.key ∧ (w.clearHearth m).keyValid = w.keyValid ∧
    (w.clearHearth m).regs = w.regs ∧ (w.clearHearth m).ctl = w.ctl ∧ (w.clearHearth m).vst = w.vst ∧
    (w.clearHearth m).pan = w.pan ∧ (w.clearHearth m).hall = w.hall ∧ (w.clearHearth m).pch = w.pch ∧
    (w.clearHearth m).sl = w.sl ∧ (w.clearHearth m).ring = w.ring ∧ (w.clearHearth m).drn = w.drn ∧
    (w.clearHearth m).psg = w.psg ∧ (w.clearHearth m).pwr = w.pwr ∧ (w.clearHearth m).int = w.int ∧
    (w.clearHearth m).out = w.out := by
  unfold Wing.clearHearth
  simp

@[simp] theorem Wing.indNext_keeps (w : Wing) (r : Nat × Nat) :
    (w.indNext r).id = w.id ∧ (w.indNext r).life = w.life ∧ (w.indNext r).aptBase = w.aptBase ∧
    (w.indNext r).portGen = w.portGen ∧ (w.indNext r).key = w.key ∧ (w.indNext r).keyValid = w.keyValid ∧
    (w.indNext r).ctl = w.ctl ∧ (w.indNext r).vst = w.vst ∧ (w.indNext r).pan = w.pan ∧ (w.indNext r).hall = w.hall ∧
    (w.indNext r).pch = w.pch ∧ (w.indNext r).sl = w.sl ∧ (w.indNext r).ring = w.ring ∧ (w.indNext r).drn = w.drn ∧
    (w.indNext r).psg = w.psg ∧ (w.indNext r).pwr = w.pwr ∧ (w.indNext r).int = w.int ∧ (w.indNext r).hrt = w.hrt ∧
    (w.indNext r).out = w.out := by
  unfold Wing.indNext
  refine ⟨?_, ?_, ?_, ?_, ?_, ?_, ?_, ?_, ?_, ?_, ?_, ?_, ?_, ?_, ?_, ?_, ?_, ?_, ?_⟩ <;> (repeat' split) <;> first | rfl | simp

@[simp] theorem Wing.capture_keeps (w : Wing) (hs : List (Nat × Word × Word)) :
    (w.capture hs).id = w.id ∧ (w.capture hs).life = w.life ∧ (w.capture hs).aptBase = w.aptBase ∧
    (w.capture hs).portGen = w.portGen ∧ (w.capture hs).key = w.key ∧ (w.capture hs).keyValid = w.keyValid ∧
    (w.capture hs).ctl = w.ctl ∧ (w.capture hs).vst = w.vst ∧ (w.capture hs).pan = w.pan ∧ (w.capture hs).hall = w.hall ∧
    (w.capture hs).pch = w.pch ∧ (w.capture hs).sl = w.sl ∧ (w.capture hs).ring = w.ring ∧ (w.capture hs).drn = w.drn ∧
    (w.capture hs).psg = w.psg ∧ (w.capture hs).pwr = w.pwr ∧ (w.capture hs).int = w.int ∧ (w.capture hs).hrt = w.hrt ∧
    (w.capture hs).out = w.out :=
  ⟨rfl, rfl, rfl, rfl, rfl, rfl, rfl, rfl, rfl, rfl, rfl, rfl, rfl, rfl, rfl, rfl, rfl, rfl, rfl⟩

/-! ## Bring-up -/

@[simp] theorem Wing.timeLost_keeps (w : Wing) :
    w.timeLost.id = w.id ∧ w.timeLost.life = w.life ∧ w.timeLost.aptBase = w.aptBase ∧ w.timeLost.portGen = w.portGen ∧
    w.timeLost.key = w.key ∧ w.timeLost.keyValid = w.keyValid ∧ w.timeLost.regs = w.regs ∧ w.timeLost.ctl = w.ctl ∧
    w.timeLost.vst = w.vst ∧ w.timeLost.pan = w.pan ∧ w.timeLost.hall = w.hall ∧ w.timeLost.pch = w.pch ∧
    w.timeLost.sl = w.sl ∧ w.timeLost.ring = w.ring ∧ w.timeLost.drn = w.drn ∧ w.timeLost.psg = w.psg ∧
    w.timeLost.pwr = w.pwr ∧ w.timeLost.int = w.int ∧ w.timeLost.out = w.out := by
  unfold Wing.timeLost
  simp

@[simp] theorem Wing.dropUnpaired_keeps (w : Wing) :
    w.dropUnpaired.id = w.id ∧ w.dropUnpaired.life = w.life ∧ w.dropUnpaired.aptBase = w.aptBase ∧
    w.dropUnpaired.portGen = w.portGen ∧ w.dropUnpaired.key = w.key ∧ w.dropUnpaired.keyValid = w.keyValid ∧
    w.dropUnpaired.ctl = w.ctl ∧ w.dropUnpaired.vst = w.vst ∧ w.dropUnpaired.pan = w.pan ∧ w.dropUnpaired.hall = w.hall ∧
    w.dropUnpaired.pch = w.pch ∧ w.dropUnpaired.sl = w.sl ∧ w.dropUnpaired.ring = w.ring ∧ w.dropUnpaired.drn = w.drn ∧
    w.dropUnpaired.psg = w.psg ∧ w.dropUnpaired.pwr = w.pwr ∧ w.dropUnpaired.int = w.int ∧ w.dropUnpaired.hrt = w.hrt ∧
    w.dropUnpaired.out = w.out :=
  ⟨rfl, rfl, rfl, rfl, rfl, rfl, rfl, rfl, rfl, rfl, rfl, rfl, rfl, rfl, rfl, rfl, rfl, rfl, rfl⟩

@[simp] theorem Wing.takeKey_keeps (w : Wing) (key : BitVec 128) :
    (w.takeKey key).id = w.id ∧ (w.takeKey key).life = w.life ∧ (w.takeKey key).aptBase = w.aptBase ∧
    (w.takeKey key).portGen = w.portGen ∧ (w.takeKey key).regs = w.regs ∧ (w.takeKey key).ctl = w.ctl ∧
    (w.takeKey key).vst = w.vst ∧ (w.takeKey key).pan = w.pan ∧ (w.takeKey key).hall = w.hall ∧ (w.takeKey key).pch = w.pch ∧
    (w.takeKey key).sl = w.sl ∧ (w.takeKey key).ring = w.ring ∧ (w.takeKey key).drn = w.drn ∧ (w.takeKey key).psg = w.psg ∧
    (w.takeKey key).pwr = w.pwr ∧ (w.takeKey key).int = w.int ∧ (w.takeKey key).hrt = w.hrt ∧ (w.takeKey key).out = w.out := by
  unfold Wing.takeKey
  refine ⟨?_, ?_, ?_, ?_, ?_, ?_, ?_, ?_, ?_, ?_, ?_, ?_, ?_, ?_, ?_, ?_, ?_, ?_⟩ <;> (repeat' split) <;> first | rfl | simp

/-! ## Registers -/

@[simp] theorem Wing.storeHalf_keeps (w : Wing) (req : Byte) (h : Nat × Word × Word) :
    (w.storeHalf req h).1.id = w.id ∧ (w.storeHalf req h).1.life = w.life ∧ (w.storeHalf req h).1.aptBase = w.aptBase ∧
    (w.storeHalf req h).1.portGen = w.portGen ∧ (w.storeHalf req h).1.key = w.key ∧
    (w.storeHalf req h).1.keyValid = w.keyValid ∧ (w.storeHalf req h).1.ctl = w.ctl ∧ (w.storeHalf req h).1.vst = w.vst ∧
    (w.storeHalf req h).1.pan = w.pan ∧ (w.storeHalf req h).1.hall = w.hall ∧ (w.storeHalf req h).1.pch = w.pch ∧
    (w.storeHalf req h).1.sl = w.sl ∧ (w.storeHalf req h).1.ring = w.ring ∧ (w.storeHalf req h).1.drn = w.drn ∧
    (w.storeHalf req h).1.pwr = w.pwr ∧ (w.storeHalf req h).1.int = w.int ∧ (w.storeHalf req h).1.hrt = w.hrt ∧
    (w.storeHalf req h).1.out = w.out := by
  unfold Wing.storeHalf
  simp

@[simp] theorem Wing.dropLate_keeps (w : Wing) (k : Nat) :
    (w.dropLate k).id = w.id ∧ (w.dropLate k).life = w.life ∧ (w.dropLate k).aptBase = w.aptBase ∧
    (w.dropLate k).portGen = w.portGen ∧ (w.dropLate k).key = w.key ∧ (w.dropLate k).keyValid = w.keyValid ∧
    (w.dropLate k).ctl = w.ctl ∧ (w.dropLate k).vst = w.vst ∧ (w.dropLate k).pan = w.pan ∧ (w.dropLate k).hall = w.hall ∧
    (w.dropLate k).pch = w.pch ∧ (w.dropLate k).sl = w.sl ∧ (w.dropLate k).ring = w.ring ∧ (w.dropLate k).drn = w.drn ∧
    (w.dropLate k).psg = w.psg ∧ (w.dropLate k).pwr = w.pwr ∧ (w.dropLate k).int = w.int ∧ (w.dropLate k).hrt = w.hrt ∧
    (w.dropLate k).out = w.out := by
  unfold Wing.dropLate
  refine ⟨?_, ?_, ?_, ?_, ?_, ?_, ?_, ?_, ?_, ?_, ?_, ?_, ?_, ?_, ?_, ?_, ?_, ?_, ?_⟩ <;> (repeat' split) <;> first | rfl | simp

@[simp] theorem Wing.keepCopy_keeps (w : Wing) (a : RegAccess) (hs : List (Nat × Word × Word)) :
    (w.keepCopy a hs).id = w.id ∧ (w.keepCopy a hs).life = w.life ∧ (w.keepCopy a hs).aptBase = w.aptBase ∧
    (w.keepCopy a hs).portGen = w.portGen ∧ (w.keepCopy a hs).key = w.key ∧ (w.keepCopy a hs).keyValid = w.keyValid ∧
    (w.keepCopy a hs).ctl = w.ctl ∧ (w.keepCopy a hs).vst = w.vst ∧ (w.keepCopy a hs).pan = w.pan ∧
    (w.keepCopy a hs).hall = w.hall ∧ (w.keepCopy a hs).pch = w.pch ∧ (w.keepCopy a hs).sl = w.sl ∧
    (w.keepCopy a hs).ring = w.ring ∧ (w.keepCopy a hs).drn = w.drn ∧ (w.keepCopy a hs).psg = w.psg ∧
    (w.keepCopy a hs).pwr = w.pwr ∧ (w.keepCopy a hs).int = w.int ∧ (w.keepCopy a hs).hrt = w.hrt ∧
    (w.keepCopy a hs).out = w.out := by
  unfold Wing.keepCopy
  refine ⟨?_, ?_, ?_, ?_, ?_, ?_, ?_, ?_, ?_, ?_, ?_, ?_, ?_, ?_, ?_, ?_, ?_, ?_,
    ?_⟩ <;> dsimp only <;> (repeat' split) <;> first | rfl | (simp; done) | simp [*]

@[simp] theorem Wing.indStep_keeps (w : Wing) (path : BitVec 2) (strb : Byte) :
    (w.indStep path strb).id = w.id ∧ (w.indStep path strb).life = w.life ∧ (w.indStep path strb).aptBase = w.aptBase ∧
    (w.indStep path strb).portGen = w.portGen ∧ (w.indStep path strb).key = w.key ∧
    (w.indStep path strb).keyValid = w.keyValid ∧ (w.indStep path strb).ctl = w.ctl ∧ (w.indStep path strb).vst = w.vst ∧
    (w.indStep path strb).pan = w.pan ∧ (w.indStep path strb).hall = w.hall ∧ (w.indStep path strb).pch = w.pch ∧
    (w.indStep path strb).sl = w.sl ∧ (w.indStep path strb).ring = w.ring ∧ (w.indStep path strb).drn = w.drn ∧
    (w.indStep path strb).psg = w.psg ∧ (w.indStep path strb).pwr = w.pwr ∧ (w.indStep path strb).int = w.int ∧
    (w.indStep path strb).hrt = w.hrt ∧ (w.indStep path strb).out = w.out := by
  unfold Wing.indStep
  refine ⟨?_, ?_, ?_, ?_, ?_, ?_, ?_, ?_, ?_, ?_, ?_, ?_, ?_, ?_, ?_, ?_, ?_, ?_, ?_⟩ <;> (repeat' split) <;> first | rfl | simp

@[simp] theorem Wing.expireDual_keeps (w : Wing) :
    w.expireDual.id = w.id ∧ w.expireDual.life = w.life ∧ w.expireDual.aptBase = w.aptBase ∧
    w.expireDual.portGen = w.portGen ∧ w.expireDual.key = w.key ∧ w.expireDual.keyValid = w.keyValid ∧
    w.expireDual.ctl = w.ctl ∧ w.expireDual.vst = w.vst ∧ w.expireDual.pan = w.pan ∧ w.expireDual.hall = w.hall ∧
    w.expireDual.pch = w.pch ∧ w.expireDual.sl = w.sl ∧ w.expireDual.ring = w.ring ∧ w.expireDual.drn = w.drn ∧
    w.expireDual.psg = w.psg ∧ w.expireDual.pwr = w.pwr ∧ w.expireDual.int = w.int ∧ w.expireDual.hrt = w.hrt ∧
    w.expireDual.out = w.out :=
  ⟨rfl, rfl, rfl, rfl, rfl, rfl, rfl, rfl, rfl, rfl, rfl, rfl, rfl, rfl, rfl, rfl, rfl, rfl, rfl⟩

/-! ## The opening of a tick -/

@[simp] theorem Wing.openBudgets_keeps (w : Wing) :
    w.openBudgets.id = w.id ∧ w.openBudgets.life = w.life ∧ w.openBudgets.aptBase = w.aptBase ∧
    w.openBudgets.portGen = w.portGen ∧ w.openBudgets.key = w.key ∧ w.openBudgets.keyValid = w.keyValid ∧
    w.openBudgets.regs = w.regs ∧ w.openBudgets.ctl = w.ctl ∧ w.openBudgets.pan = w.pan ∧ w.openBudgets.hall = w.hall ∧
    w.openBudgets.pch = w.pch ∧ w.openBudgets.sl = w.sl ∧ w.openBudgets.ring = w.ring ∧ w.openBudgets.drn = w.drn ∧
    w.openBudgets.psg = w.psg ∧ w.openBudgets.int = w.int ∧ w.openBudgets.hrt = w.hrt ∧ w.openBudgets.out = w.out :=
  ⟨rfl, rfl, rfl, rfl, rfl, rfl, rfl, rfl, rfl, rfl, rfl, rfl, rfl, rfl, rfl, rfl, rfl, rfl⟩

@[simp] theorem Wing.expireFilter_keeps (w : Wing) :
    w.expireFilter.id = w.id ∧ w.expireFilter.life = w.life ∧ w.expireFilter.aptBase = w.aptBase ∧
    w.expireFilter.portGen = w.portGen ∧ w.expireFilter.key = w.key ∧ w.expireFilter.keyValid = w.keyValid ∧
    w.expireFilter.regs = w.regs ∧ w.expireFilter.ctl = w.ctl ∧ w.expireFilter.pan = w.pan ∧ w.expireFilter.hall = w.hall ∧
    w.expireFilter.pch = w.pch ∧ w.expireFilter.sl = w.sl ∧ w.expireFilter.ring = w.ring ∧ w.expireFilter.drn = w.drn ∧
    w.expireFilter.psg = w.psg ∧ w.expireFilter.pwr = w.pwr ∧ w.expireFilter.int = w.int ∧ w.expireFilter.hrt = w.hrt ∧
    w.expireFilter.out = w.out :=
  ⟨rfl, rfl, rfl, rfl, rfl, rfl, rfl, rfl, rfl, rfl, rfl, rfl, rfl, rfl, rfl, rfl, rfl, rfl, rfl⟩

/-! ## Power -/

@[simp] theorem Wing.arriveNap_keeps (w : Wing) :
    w.arriveNap.id = w.id ∧ w.arriveNap.aptBase = w.aptBase ∧ w.arriveNap.portGen = w.portGen ∧ w.arriveNap.key = w.key ∧
    w.arriveNap.keyValid = w.keyValid ∧ w.arriveNap.ctl = w.ctl ∧ w.arriveNap.vst = w.vst ∧ w.arriveNap.pan = w.pan ∧
    w.arriveNap.hall = w.hall ∧ w.arriveNap.pch = w.pch ∧ w.arriveNap.sl = w.sl ∧ w.arriveNap.ring = w.ring ∧
    w.arriveNap.drn = w.drn ∧ w.arriveNap.int = w.int ∧ w.arriveNap.hrt = w.hrt ∧ w.arriveNap.out = w.out := by
  unfold Wing.arriveNap
  refine ⟨?_, ?_, ?_, ?_, ?_, ?_, ?_, ?_, ?_, ?_, ?_, ?_, ?_, ?_, ?_,
    ?_⟩ <;> dsimp only <;> (repeat' split) <;> first | rfl | (simp; done) | simp [*]

@[simp] theorem Wing.peerRefused_keeps (w : Wing) :
    w.peerRefused.id = w.id ∧ w.peerRefused.life = w.life ∧ w.peerRefused.aptBase = w.aptBase ∧
    w.peerRefused.portGen = w.portGen ∧ w.peerRefused.key = w.key ∧ w.peerRefused.keyValid = w.keyValid ∧
    w.peerRefused.ctl = w.ctl ∧ w.peerRefused.vst = w.vst ∧ w.peerRefused.pan = w.pan ∧ w.peerRefused.hall = w.hall ∧
    w.peerRefused.pch = w.pch ∧ w.peerRefused.sl = w.sl ∧ w.peerRefused.ring = w.ring ∧ w.peerRefused.drn = w.drn ∧
    w.peerRefused.int = w.int ∧ w.peerRefused.hrt = w.hrt ∧ w.peerRefused.out = w.out := by
  unfold Wing.peerRefused
  refine ⟨?_, ?_, ?_, ?_, ?_, ?_, ?_, ?_, ?_, ?_, ?_, ?_, ?_, ?_, ?_, ?_, ?_⟩ <;> (repeat' split) <;> first | rfl | simp

@[simp] theorem Wing.notePairWake_keeps (w : Wing) :
    w.notePairWake.id = w.id ∧ w.notePairWake.life = w.life ∧ w.notePairWake.aptBase = w.aptBase ∧
    w.notePairWake.portGen = w.portGen ∧ w.notePairWake.key = w.key ∧ w.notePairWake.keyValid = w.keyValid ∧
    w.notePairWake.regs = w.regs ∧ w.notePairWake.ctl = w.ctl ∧ w.notePairWake.vst = w.vst ∧ w.notePairWake.pan = w.pan ∧
    w.notePairWake.hall = w.hall ∧ w.notePairWake.pch = w.pch ∧ w.notePairWake.sl = w.sl ∧ w.notePairWake.ring = w.ring ∧
    w.notePairWake.drn = w.drn ∧ w.notePairWake.psg = w.psg ∧ w.notePairWake.int = w.int ∧ w.notePairWake.hrt = w.hrt ∧
    w.notePairWake.out = w.out := by
  unfold Wing.notePairWake
  refine ⟨?_, ?_, ?_, ?_, ?_, ?_, ?_, ?_, ?_, ?_, ?_, ?_, ?_, ?_, ?_, ?_, ?_, ?_, ?_⟩ <;> (repeat' split) <;> first | rfl | simp

@[simp] theorem Wing.dropPort_keeps (w : Wing) :
    w.dropPort.id = w.id ∧ w.dropPort.life = w.life ∧ w.dropPort.aptBase = w.aptBase ∧ w.dropPort.portGen = w.portGen ∧
    w.dropPort.key = w.key ∧ w.dropPort.keyValid = w.keyValid ∧ w.dropPort.ctl = w.ctl ∧ w.dropPort.vst = w.vst ∧
    w.dropPort.pan = w.pan ∧ w.dropPort.hall = w.hall ∧ w.dropPort.pch = w.pch ∧ w.dropPort.sl = w.sl ∧
    w.dropPort.ring = w.ring ∧ w.dropPort.drn = w.drn ∧ w.dropPort.psg = w.psg ∧ w.dropPort.pwr = w.pwr ∧
    w.dropPort.int = w.int ∧ w.dropPort.hrt = w.hrt :=
  ⟨rfl, rfl, rfl, rfl, rfl, rfl, rfl, rfl, rfl, rfl, rfl, rfl, rfl, rfl, rfl, rfl, rfl, rfl⟩

/-! ## The tick -/

@[simp] theorem Wing.noteDemand_keeps (w : Wing) (d : Nat) :
    (w.noteDemand d).id = w.id ∧ (w.noteDemand d).life = w.life ∧ (w.noteDemand d).aptBase = w.aptBase ∧
    (w.noteDemand d).portGen = w.portGen ∧ (w.noteDemand d).key = w.key ∧ (w.noteDemand d).keyValid = w.keyValid ∧
    (w.noteDemand d).regs = w.regs ∧ (w.noteDemand d).ctl = w.ctl ∧ (w.noteDemand d).vst = w.vst ∧
    (w.noteDemand d).pan = w.pan ∧ (w.noteDemand d).hall = w.hall ∧ (w.noteDemand d).pch = w.pch ∧
    (w.noteDemand d).sl = w.sl ∧ (w.noteDemand d).ring = w.ring ∧ (w.noteDemand d).drn = w.drn ∧
    (w.noteDemand d).psg = w.psg ∧ (w.noteDemand d).int = w.int ∧ (w.noteDemand d).hrt = w.hrt ∧
    (w.noteDemand d).out = w.out := by
  unfold Wing.noteDemand
  refine ⟨?_, ?_, ?_, ?_, ?_, ?_, ?_, ?_, ?_, ?_, ?_, ?_, ?_, ?_, ?_, ?_, ?_, ?_, ?_⟩ <;> (repeat' split) <;> first | rfl | simp

@[simp] theorem Wing.takePosted_keeps (w : Wing) :
    w.takePosted.id = w.id ∧ w.takePosted.life = w.life ∧ w.takePosted.aptBase = w.aptBase ∧
    w.takePosted.portGen = w.portGen ∧ w.takePosted.key = w.key ∧ w.takePosted.keyValid = w.keyValid ∧
    w.takePosted.regs = w.regs ∧ w.takePosted.ctl = w.ctl ∧ w.takePosted.vst = w.vst ∧ w.takePosted.pan = w.pan ∧
    w.takePosted.hall = w.hall ∧ w.takePosted.pch = w.pch ∧ w.takePosted.ring = w.ring ∧ w.takePosted.drn = w.drn ∧
    w.takePosted.psg = w.psg ∧ w.takePosted.pwr = w.pwr ∧ w.takePosted.int = w.int ∧ w.takePosted.hrt = w.hrt ∧
    w.takePosted.out = w.out :=
  ⟨rfl, rfl, rfl, rfl, rfl, rfl, rfl, rfl, rfl, rfl, rfl, rfl, rfl, rfl, rfl, rfl, rfl, rfl, rfl⟩

@[simp] theorem Wing.setMap_keeps (w : Wing) :
    w.setMap.id = w.id ∧ w.setMap.life = w.life ∧ w.setMap.aptBase = w.aptBase ∧ w.setMap.portGen = w.portGen ∧
    w.setMap.key = w.key ∧ w.setMap.keyValid = w.keyValid ∧ w.setMap.regs = w.regs ∧ w.setMap.ctl = w.ctl ∧
    w.setMap.vst = w.vst ∧ w.setMap.pan = w.pan ∧ w.setMap.hall = w.hall ∧ w.setMap.pch = w.pch ∧ w.setMap.sl = w.sl ∧
    w.setMap.ring = w.ring ∧ w.setMap.drn = w.drn ∧ w.setMap.pwr = w.pwr ∧ w.setMap.int = w.int ∧ w.setMap.hrt = w.hrt ∧
    w.setMap.out = w.out :=
  ⟨rfl, rfl, rfl, rfl, rfl, rfl, rfl, rfl, rfl, rfl, rfl, rfl, rfl, rfl, rfl, rfl, rfl, rfl, rfl⟩

@[simp] theorem Wing.countBeats_keeps (w : Wing) :
    w.countBeats.id = w.id ∧ w.countBeats.life = w.life ∧ w.countBeats.aptBase = w.aptBase ∧
    w.countBeats.portGen = w.portGen ∧ w.countBeats.key = w.key ∧ w.countBeats.keyValid = w.keyValid ∧
    w.countBeats.regs = w.regs ∧ w.countBeats.vst = w.vst ∧ w.countBeats.pan = w.pan ∧ w.countBeats.hall = w.hall ∧
    w.countBeats.pch = w.pch ∧ w.countBeats.sl = w.sl ∧ w.countBeats.ring = w.ring ∧ w.countBeats.drn = w.drn ∧
    w.countBeats.pwr = w.pwr ∧ w.countBeats.int = w.int ∧ w.countBeats.hrt = w.hrt ∧ w.countBeats.out = w.out :=
  ⟨rfl, rfl, rfl, rfl, rfl, rfl, rfl, rfl, rfl, rfl, rfl, rfl, rfl, rfl, rfl, rfl, rfl, rfl⟩

@[simp] theorem Wing.clearFull_keeps (w : Wing) :
    w.clearFull.id = w.id ∧ w.clearFull.life = w.life ∧ w.clearFull.aptBase = w.aptBase ∧ w.clearFull.portGen = w.portGen ∧
    w.clearFull.key = w.key ∧ w.clearFull.keyValid = w.keyValid ∧ w.clearFull.regs = w.regs ∧ w.clearFull.ctl = w.ctl ∧
    w.clearFull.vst = w.vst ∧ w.clearFull.pan = w.pan ∧ w.clearFull.hall = w.hall ∧ w.clearFull.pch = w.pch ∧
    w.clearFull.ring = w.ring ∧ w.clearFull.drn = w.drn ∧ w.clearFull.psg = w.psg ∧ w.clearFull.pwr = w.pwr ∧
    w.clearFull.int = w.int ∧ w.clearFull.hrt = w.hrt ∧ w.clearFull.out = w.out :=
  ⟨rfl, rfl, rfl, rfl, rfl, rfl, rfl, rfl, rfl, rfl, rfl, rfl, rfl, rfl, rfl, rfl, rfl, rfl, rfl⟩

@[simp] theorem Wing.clearFlags_keeps (w : Wing) :
    w.clearFlags.id = w.id ∧ w.clearFlags.life = w.life ∧ w.clearFlags.aptBase = w.aptBase ∧
    w.clearFlags.portGen = w.portGen ∧ w.clearFlags.key = w.key ∧ w.clearFlags.keyValid = w.keyValid ∧
    w.clearFlags.regs = w.regs ∧ w.clearFlags.ctl = w.ctl ∧ w.clearFlags.hall = w.hall ∧ w.clearFlags.pch = w.pch ∧
    w.clearFlags.drn = w.drn ∧ w.clearFlags.psg = w.psg ∧ w.clearFlags.pwr = w.pwr ∧ w.clearFlags.int = w.int ∧
    w.clearFlags.hrt = w.hrt ∧ w.clearFlags.out = w.out :=
  ⟨rfl, rfl, rfl, rfl, rfl, rfl, rfl, rfl, rfl, rfl, rfl, rfl, rfl, rfl, rfl, rfl⟩

@[simp] theorem Wing.countQuiet_keeps (w : Wing) :
    w.countQuiet.id = w.id ∧ w.countQuiet.life = w.life ∧ w.countQuiet.aptBase = w.aptBase ∧
    w.countQuiet.portGen = w.portGen ∧ w.countQuiet.key = w.key ∧ w.countQuiet.keyValid = w.keyValid ∧
    w.countQuiet.regs = w.regs ∧ w.countQuiet.ctl = w.ctl ∧ w.countQuiet.vst = w.vst ∧ w.countQuiet.pan = w.pan ∧
    w.countQuiet.hall = w.hall ∧ w.countQuiet.pch = w.pch ∧ w.countQuiet.sl = w.sl ∧ w.countQuiet.ring = w.ring ∧
    w.countQuiet.drn = w.drn ∧ w.countQuiet.psg = w.psg ∧ w.countQuiet.int = w.int ∧ w.countQuiet.hrt = w.hrt ∧
    w.countQuiet.out = w.out := by
  unfold Wing.countQuiet
  refine ⟨?_, ?_, ?_, ?_, ?_, ?_, ?_, ?_, ?_, ?_, ?_, ?_, ?_, ?_, ?_, ?_, ?_, ?_, ?_⟩ <;> (repeat' split) <;> first | rfl | simp

@[simp] theorem Wing.countTick_keeps (w : Wing) :
    w.countTick.id = w.id ∧ w.countTick.life = w.life ∧ w.countTick.aptBase = w.aptBase ∧ w.countTick.portGen = w.portGen ∧
    w.countTick.key = w.key ∧ w.countTick.keyValid = w.keyValid ∧ w.countTick.ctl = w.ctl ∧ w.countTick.vst = w.vst ∧
    w.countTick.pan = w.pan ∧ w.countTick.hall = w.hall ∧ w.countTick.pch = w.pch ∧ w.countTick.sl = w.sl ∧
    w.countTick.ring = w.ring ∧ w.countTick.drn = w.drn ∧ w.countTick.psg = w.psg ∧ w.countTick.pwr = w.pwr ∧
    w.countTick.int = w.int ∧ w.countTick.hrt = w.hrt ∧ w.countTick.out = w.out := by
  unfold Wing.countTick
  simp

@[simp] theorem Wing.countStable_keeps (w : Wing) (before : BitVec 4) :
    (w.countStable before).id = w.id ∧ (w.countStable before).life = w.life ∧ (w.countStable before).aptBase = w.aptBase ∧
    (w.countStable before).portGen = w.portGen ∧ (w.countStable before).key = w.key ∧
    (w.countStable before).keyValid = w.keyValid ∧ (w.countStable before).regs = w.regs ∧
    (w.countStable before).vst = w.vst ∧ (w.countStable before).pan = w.pan ∧ (w.countStable before).hall = w.hall ∧
    (w.countStable before).pch = w.pch ∧ (w.countStable before).sl = w.sl ∧ (w.countStable before).ring = w.ring ∧
    (w.countStable before).drn = w.drn ∧ (w.countStable before).pwr = w.pwr ∧ (w.countStable before).int = w.int ∧
    (w.countStable before).hrt = w.hrt ∧ (w.countStable before).out = w.out := by
  unfold Wing.countStable
  refine ⟨?_, ?_, ?_, ?_, ?_, ?_, ?_, ?_, ?_, ?_, ?_, ?_, ?_, ?_, ?_, ?_, ?_,
    ?_⟩ <;> dsimp only <;> (repeat' split) <;> first | rfl | (simp; done) | simp [*]

@[simp] theorem Wing.settleReady_keeps (w : Wing) :
    w.settleReady.id = w.id ∧ w.settleReady.life = w.life ∧ w.settleReady.aptBase = w.aptBase ∧
    w.settleReady.portGen = w.portGen ∧ w.settleReady.key = w.key ∧ w.settleReady.keyValid = w.keyValid ∧
    w.settleReady.regs = w.regs ∧ w.settleReady.vst = w.vst ∧ w.settleReady.pan = w.pan ∧ w.settleReady.hall = w.hall ∧
    w.settleReady.pch = w.pch ∧ w.settleReady.sl = w.sl ∧ w.settleReady.ring = w.ring ∧ w.settleReady.drn = w.drn ∧
    w.settleReady.psg = w.psg ∧ w.settleReady.pwr = w.pwr ∧ w.settleReady.int = w.int ∧ w.settleReady.hrt = w.hrt ∧
    w.settleReady.out = w.out :=
  ⟨rfl, rfl, rfl, rfl, rfl, rfl, rfl, rfl, rfl, rfl, rfl, rfl, rfl, rfl, rfl, rfl, rfl, rfl, rfl⟩

@[simp] theorem Wing.captureImage_keeps (w : Wing) :
    w.captureImage.id = w.id ∧ w.captureImage.life = w.life ∧ w.captureImage.aptBase = w.aptBase ∧
    w.captureImage.portGen = w.portGen ∧ w.captureImage.key = w.key ∧ w.captureImage.keyValid = w.keyValid ∧
    w.captureImage.regs = w.regs ∧ w.captureImage.ctl = w.ctl ∧ w.captureImage.vst = w.vst ∧ w.captureImage.pan = w.pan ∧
    w.captureImage.pch = w.pch ∧ w.captureImage.sl = w.sl ∧ w.captureImage.ring = w.ring ∧ w.captureImage.drn = w.drn ∧
    w.captureImage.psg = w.psg ∧ w.captureImage.pwr = w.pwr ∧ w.captureImage.int = w.int ∧ w.captureImage.hrt = w.hrt ∧
    w.captureImage.out = w.out :=
  ⟨rfl, rfl, rfl, rfl, rfl, rfl, rfl, rfl, rfl, rfl, rfl, rfl, rfl, rfl, rfl, rfl, rfl, rfl, rfl⟩

@[simp] theorem Wing.endWait_keeps (w : Wing) :
    w.endWait.id = w.id ∧ w.endWait.life = w.life ∧ w.endWait.aptBase = w.aptBase ∧ w.endWait.portGen = w.portGen ∧
    w.endWait.key = w.key ∧ w.endWait.keyValid = w.keyValid ∧ w.endWait.regs = w.regs ∧ w.endWait.ctl = w.ctl ∧
    w.endWait.vst = w.vst ∧ w.endWait.pan = w.pan ∧ w.endWait.pch = w.pch ∧ w.endWait.sl = w.sl ∧ w.endWait.ring = w.ring ∧
    w.endWait.drn = w.drn ∧ w.endWait.psg = w.psg ∧ w.endWait.pwr = w.pwr ∧ w.endWait.int = w.int ∧ w.endWait.hrt = w.hrt ∧
    w.endWait.out = w.out :=
  ⟨rfl, rfl, rfl, rfl, rfl, rfl, rfl, rfl, rfl, rfl, rfl, rfl, rfl, rfl, rfl, rfl, rfl, rfl, rfl⟩

@[simp] theorem Wing.keepJseq_keeps (w : Wing) :
    w.keepJseq.id = w.id ∧ w.keepJseq.life = w.life ∧ w.keepJseq.aptBase = w.aptBase ∧ w.keepJseq.portGen = w.portGen ∧
    w.keepJseq.key = w.key ∧ w.keepJseq.keyValid = w.keyValid ∧ w.keepJseq.regs = w.regs ∧ w.keepJseq.ctl = w.ctl ∧
    w.keepJseq.vst = w.vst ∧ w.keepJseq.pan = w.pan ∧ w.keepJseq.hall = w.hall ∧ w.keepJseq.sl = w.sl ∧
    w.keepJseq.ring = w.ring ∧ w.keepJseq.drn = w.drn ∧ w.keepJseq.psg = w.psg ∧ w.keepJseq.pwr = w.pwr ∧
    w.keepJseq.int = w.int ∧ w.keepJseq.hrt = w.hrt ∧ w.keepJseq.out = w.out :=
  ⟨rfl, rfl, rfl, rfl, rfl, rfl, rfl, rfl, rfl, rfl, rfl, rfl, rfl, rfl, rfl, rfl, rfl, rfl, rfl⟩

@[simp] theorem Wing.takeConf_keeps (w : Wing) :
    w.takeConf.id = w.id ∧ w.takeConf.life = w.life ∧ w.takeConf.aptBase = w.aptBase ∧ w.takeConf.portGen = w.portGen ∧
    w.takeConf.key = w.key ∧ w.takeConf.keyValid = w.keyValid ∧ w.takeConf.regs = w.regs ∧ w.takeConf.ctl = w.ctl ∧
    w.takeConf.vst = w.vst ∧ w.takeConf.pan = w.pan ∧ w.takeConf.pch = w.pch ∧ w.takeConf.sl = w.sl ∧
    w.takeConf.ring = w.ring ∧ w.takeConf.drn = w.drn ∧ w.takeConf.psg = w.psg ∧ w.takeConf.pwr = w.pwr ∧
    w.takeConf.int = w.int ∧ w.takeConf.hrt = w.hrt ∧ w.takeConf.out = w.out := by
  unfold Wing.takeConf
  refine ⟨?_, ?_, ?_, ?_, ?_, ?_, ?_, ?_, ?_, ?_, ?_, ?_, ?_, ?_, ?_, ?_, ?_, ?_, ?_⟩ <;> (repeat' split) <;> first | rfl | simp

@[simp] theorem Wing.peerWithdrew_keeps (w : Wing) :
    w.peerWithdrew.id = w.id ∧ w.peerWithdrew.life = w.life ∧ w.peerWithdrew.aptBase = w.aptBase ∧
    w.peerWithdrew.portGen = w.portGen ∧ w.peerWithdrew.key = w.key ∧ w.peerWithdrew.keyValid = w.keyValid ∧
    w.peerWithdrew.regs = w.regs ∧ w.peerWithdrew.vst = w.vst ∧ w.peerWithdrew.pan = w.pan ∧ w.peerWithdrew.hall = w.hall ∧
    w.peerWithdrew.pch = w.pch ∧ w.peerWithdrew.sl = w.sl ∧ w.peerWithdrew.ring = w.ring ∧ w.peerWithdrew.drn = w.drn ∧
    w.peerWithdrew.pwr = w.pwr ∧ w.peerWithdrew.int = w.int ∧ w.peerWithdrew.hrt = w.hrt ∧ w.peerWithdrew.out = w.out := by
  unfold Wing.peerWithdrew
  refine ⟨?_, ?_, ?_, ?_, ?_, ?_, ?_, ?_, ?_, ?_, ?_, ?_, ?_, ?_, ?_, ?_, ?_, ?_⟩ <;> (repeat' split) <;> first | rfl | simp

@[simp] theorem Wing.endWithdrawal_keeps (w : Wing) :
    w.endWithdrawal.id = w.id ∧ w.endWithdrawal.life = w.life ∧ w.endWithdrawal.aptBase = w.aptBase ∧
    w.endWithdrawal.portGen = w.portGen ∧ w.endWithdrawal.key = w.key ∧ w.endWithdrawal.keyValid = w.keyValid ∧
    w.endWithdrawal.regs = w.regs ∧ w.endWithdrawal.vst = w.vst ∧ w.endWithdrawal.pan = w.pan ∧
    w.endWithdrawal.hall = w.hall ∧ w.endWithdrawal.pch = w.pch ∧ w.endWithdrawal.sl = w.sl ∧ w.endWithdrawal.ring = w.ring ∧
    w.endWithdrawal.drn = w.drn ∧ w.endWithdrawal.pwr = w.pwr ∧ w.endWithdrawal.int = w.int ∧ w.endWithdrawal.hrt = w.hrt ∧
    w.endWithdrawal.out = w.out := by
  unfold Wing.endWithdrawal
  refine ⟨?_, ?_, ?_, ?_, ?_, ?_, ?_, ?_, ?_, ?_, ?_, ?_, ?_, ?_, ?_, ?_, ?_, ?_⟩ <;> (repeat' split) <;> first | rfl | simp

@[simp] theorem Wing.voteWakes_keeps (w : Wing) (v : BitVec 32) :
    (w.voteWakes v).id = w.id ∧ (w.voteWakes v).life = w.life ∧ (w.voteWakes v).aptBase = w.aptBase ∧
    (w.voteWakes v).portGen = w.portGen ∧ (w.voteWakes v).key = w.key ∧ (w.voteWakes v).keyValid = w.keyValid ∧
    (w.voteWakes v).ctl = w.ctl ∧ (w.voteWakes v).vst = w.vst ∧ (w.voteWakes v).pan = w.pan ∧ (w.voteWakes v).pch = w.pch ∧
    (w.voteWakes v).sl = w.sl ∧ (w.voteWakes v).ring = w.ring ∧ (w.voteWakes v).drn = w.drn ∧ (w.voteWakes v).psg = w.psg ∧
    (w.voteWakes v).pwr = w.pwr ∧ (w.voteWakes v).int = w.int ∧ (w.voteWakes v).hrt = w.hrt ∧ (w.voteWakes v).out = w.out :=
  ⟨rfl, rfl, rfl, rfl, rfl, rfl, rfl, rfl, rfl, rfl, rfl, rfl, rfl, rfl, rfl, rfl, rfl, rfl⟩

@[simp] theorem Wing.voteConfirm_keeps (w : Wing) :
    w.voteConfirm.id = w.id ∧ w.voteConfirm.life = w.life ∧ w.voteConfirm.aptBase = w.aptBase ∧
    w.voteConfirm.portGen = w.portGen ∧ w.voteConfirm.key = w.key ∧ w.voteConfirm.keyValid = w.keyValid ∧
    w.voteConfirm.ctl = w.ctl ∧ w.voteConfirm.vst = w.vst ∧ w.voteConfirm.pan = w.pan ∧ w.voteConfirm.pch = w.pch ∧
    w.voteConfirm.sl = w.sl ∧ w.voteConfirm.ring = w.ring ∧ w.voteConfirm.drn = w.drn ∧ w.voteConfirm.psg = w.psg ∧
    w.voteConfirm.pwr = w.pwr ∧ w.voteConfirm.int = w.int ∧ w.voteConfirm.hrt = w.hrt ∧ w.voteConfirm.out = w.out := by
  unfold Wing.voteConfirm
  simp

@[simp] theorem Wing.sampleLevels_keeps (w : Wing) :
    w.sampleLevels.id = w.id ∧ w.sampleLevels.life = w.life ∧ w.sampleLevels.aptBase = w.aptBase ∧
    w.sampleLevels.portGen = w.portGen ∧ w.sampleLevels.key = w.key ∧ w.sampleLevels.keyValid = w.keyValid ∧
    w.sampleLevels.regs = w.regs ∧ w.sampleLevels.ctl = w.ctl ∧ w.sampleLevels.pan = w.pan ∧ w.sampleLevels.hall = w.hall ∧
    w.sampleLevels.pch = w.pch ∧ w.sampleLevels.sl = w.sl ∧ w.sampleLevels.ring = w.ring ∧ w.sampleLevels.drn = w.drn ∧
    w.sampleLevels.psg = w.psg ∧ w.sampleLevels.pwr = w.pwr ∧ w.sampleLevels.int = w.int ∧ w.sampleLevels.hrt = w.hrt ∧
    w.sampleLevels.out = w.out := by
  unfold Wing.sampleLevels
  refine ⟨?_, ?_, ?_, ?_, ?_, ?_, ?_, ?_, ?_, ?_, ?_, ?_, ?_, ?_, ?_, ?_, ?_, ?_, ?_⟩ <;> (repeat' split) <;> first | rfl | simp

@[simp] theorem Wing.closeCounts_keeps (w : Wing) (before : BitVec 4) :
    (w.closeCounts before).id = w.id ∧ (w.closeCounts before).life = w.life ∧ (w.closeCounts before).aptBase = w.aptBase ∧
    (w.closeCounts before).portGen = w.portGen ∧ (w.closeCounts before).key = w.key ∧
    (w.closeCounts before).keyValid = w.keyValid ∧ (w.closeCounts before).hall = w.hall ∧
    (w.closeCounts before).pch = w.pch ∧ (w.closeCounts before).drn = w.drn ∧ (w.closeCounts before).int = w.int ∧
    (w.closeCounts before).hrt = w.hrt ∧ (w.closeCounts before).out = w.out := by
  unfold Wing.closeCounts
  simp

@[simp] theorem Wing.closePassage_keeps (w : Wing) :
    w.closePassage.id = w.id ∧ w.closePassage.life = w.life ∧ w.closePassage.aptBase = w.aptBase ∧
    w.closePassage.portGen = w.portGen ∧ w.closePassage.key = w.key ∧ w.closePassage.keyValid = w.keyValid ∧
    w.closePassage.regs = w.regs ∧ w.closePassage.ctl = w.ctl ∧ w.closePassage.vst = w.vst ∧ w.closePassage.pan = w.pan ∧
    w.closePassage.hall = w.hall ∧ w.closePassage.pch = w.pch ∧ w.closePassage.sl = w.sl ∧ w.closePassage.ring = w.ring ∧
    w.closePassage.drn = w.drn ∧ w.closePassage.pwr = w.pwr ∧ w.closePassage.int = w.int ∧ w.closePassage.hrt = w.hrt :=
  ⟨rfl, rfl, rfl, rfl, rfl, rfl, rfl, rfl, rfl, rfl, rfl, rfl, rfl, rfl, rfl, rfl, rfl, rfl⟩

@[simp] theorem Wing.closeOther_keeps (w : Wing) :
    w.closeOther.id = w.id ∧ w.closeOther.life = w.life ∧ w.closeOther.aptBase = w.aptBase ∧
    w.closeOther.portGen = w.portGen ∧ w.closeOther.key = w.key ∧ w.closeOther.keyValid = w.keyValid ∧
    w.closeOther.regs = w.regs ∧ w.closeOther.ctl = w.ctl ∧ w.closeOther.vst = w.vst ∧ w.closeOther.pan = w.pan ∧
    w.closeOther.hall = w.hall ∧ w.closeOther.pch = w.pch ∧ w.closeOther.sl = w.sl ∧ w.closeOther.ring = w.ring ∧
    w.closeOther.drn = w.drn ∧ w.closeOther.pwr = w.pwr ∧ w.closeOther.int = w.int ∧ w.closeOther.hrt = w.hrt := by
  unfold Wing.closeOther
  refine ⟨?_, ?_, ?_, ?_, ?_, ?_, ?_, ?_, ?_, ?_, ?_, ?_, ?_, ?_, ?_, ?_, ?_,
    ?_⟩ <;> dsimp only <;> (repeat' split) <;> first | rfl | (simp; done) | simp [*]


end Sys2Proof.Machine
end

