-- ==== Sys2Proof/Laws/Porches.lean ====
section
/-! SUPPORT. Laws of the porches: the best offer among those held, and what each operation of a porch leaves alone. -/

namespace Sys2Proof.Machine

/-! ## The best offer -/

/-- The least key of a list is in it and below every other. -/
theorem minKey_spec : ∀ (l : List (BitVec 97)) (m : BitVec 97), minKey l = some m → m ∈ l ∧ ∀ h ∈ l, m.toNat ≤ h.toNat := by
  intro l
  induction l with
  | nil => simp [minKey]
  | cons k ks ih =>
    intro m h
    unfold minKey at h
    cases hm : minKey ks with
    | none =>
      rw [hm] at h
      have : ks = [] := by
        cases ks with
        | nil => rfl
        | cons a b => unfold minKey at hm; cases h2 : minKey b <;> rw [h2] at hm <;> simp at hm; split at hm <;> simp at hm
      simp_all
    | some x =>
      rw [hm] at h
      obtain ⟨h1, h2⟩ := ih x hm
      simp only at h
      split at h <;> simp only [Option.some.injEq] at h <;> subst h
      · refine ⟨List.mem_cons_of_mem _ h1, fun y hy => ?_⟩
        rcases List.mem_cons.1 hy with rfl | hy
        · omega
        · exact h2 y hy
      · refine ⟨List.mem_cons_self, fun y hy => ?_⟩
        rcases List.mem_cons.1 hy with rfl | hy
        · omega
        · have := h2 y hy; omega

/-- A list with an element has a least key. -/
theorem minKey_some : ∀ (l : List (BitVec 97)), l ≠ [] → ∃ m, minKey l = some m := by
  intro l h
  cases l with
  | nil => exact absurd rfl h
  | cons a b => unfold minKey; cases minKey b <;> simp; split <;> simp

/-- A held and presentable offer below every other such is the one that a live porch presents (R124). -/
theorem Porch.best_of (q : Porch) (k : BitVec 97) (hl : q.live = true) (h1 : k ∈ q.held) (h2 : q.presentable k = true)
    (h3 : ∀ h ∈ q.held, q.presentable h = true → k.toNat ≤ h.toNat) : q.best = some k := by
  unfold Porch.best
  rw [if_pos hl]
  have hk : k ∈ q.held.filter q.presentable := List.mem_filter.2 ⟨h1, h2⟩
  obtain ⟨m, hm⟩ := minKey_some _ (List.ne_nil_of_mem hk)
  obtain ⟨a, b⟩ := minKey_spec _ _ hm
  have := b k hk
  obtain ⟨c, d⟩ := List.mem_filter.1 a
  have e := h3 m c d
  have : m = k := BitVec.eq_of_toNat_eq (by omega)
  rw [hm, this]

/-- A held offer stands in a slot, and a search by its key finds one with it. -/
theorem Porch.slot_of_held (q : Porch) (k : BitVec 97) (h : k ∈ q.held) :
    ∃ x, (q.slots.filterMap id).find? (fun x => x.key == k) = some x ∧ some x ∈ q.slots ∧ x.key = k := by
  unfold Porch.held at h
  obtain ⟨o, ho, hk⟩ := List.mem_filterMap.1 h
  cases o with
  | none => simp at hk
  | some y =>
    simp at hk
    cases hf : (q.slots.filterMap id).find? (fun x => x.key == k) with
    | none =>
      rw [List.find?_eq_none] at hf
      have := hf y (List.mem_filterMap.2 ⟨some y, ho, rfl⟩)
      simp [hk] at this
    | some x =>
      refine ⟨x, rfl, ?_, ?_⟩
      · have := List.mem_of_find?_eq_some hf
        obtain ⟨o, h1, h2⟩ := List.mem_filterMap.1 this
        simp at h2; rw [← h2]; exact h1
      · have := List.find?_some hf; simpa using this

/-! ## What an operation leaves alone -/

@[simp] theorem Porch.journalise_keeps (q : Porch) (p : Byte) (e : Entry) :
    (q.journalise p e).1.on = q.on ∧ (q.journalise p e).1.up = q.up ∧ (q.journalise p e).1.fault = q.fault ∧
    (q.journalise p e).1.slots = q.slots ∧ (q.journalise p e).1.rets = q.rets ∧ (q.journalise p e).1.claimE = q.claimE ∧
    (q.journalise p e).1.claimW = q.claimW ∧ (q.journalise p e).1.rpHdr = q.rpHdr ∧ (q.journalise p e).1.shift = q.shift ∧
    (q.journalise p e).1.coreEn = q.coreEn ∧ (q.journalise p e).1.cfg = q.cfg ∧ (q.journalise p e).1.raiseq = q.raiseq ∧
    (q.journalise p e).1.cur = q.cur ∧ (q.journalise p e).1.sleep = q.sleep ∧ (q.journalise p e).1.waiting = q.waiting :=
  ⟨rfl, rfl, rfl, rfl, rfl, rfl, rfl, rfl, rfl, rfl, rfl, rfl, rfl, rfl, rfl⟩

@[simp] theorem Porch.giveBack_keeps (q : Porch) (p : Byte) (x : PSlot) :
    (q.giveBack p x).1.on = q.on ∧ (q.giveBack p x).1.up = q.up ∧ (q.giveBack p x).1.fault = q.fault ∧
    (q.giveBack p x).1.journal = q.journal ∧ (q.giveBack p x).1.claimE = q.claimE ∧ (q.giveBack p x).1.claimW = q.claimW ∧
    (q.giveBack p x).1.rpHdr = q.rpHdr ∧ (q.giveBack p x).1.shift = q.shift ∧ (q.giveBack p x).1.coreEn = q.coreEn ∧
    (q.giveBack p x).1.cfg = q.cfg ∧ (q.giveBack p x).1.raiseq = q.raiseq ∧ (q.giveBack p x).1.cur = q.cur ∧
    (q.giveBack p x).1.sleep = q.sleep ∧ (q.giveBack p x).1.waiting = q.waiting :=
  ⟨rfl, rfl, rfl, rfl, rfl, rfl, rfl, rfl, rfl, rfl, rfl, rfl, rfl, rfl⟩

@[simp] theorem Porch.claimEffect_keeps (q : Porch) (p : Byte) (lim : Nat) :
    (q.claimEffect p lim).1.on = q.on ∧ (q.claimEffect p lim).1.up = q.up ∧ (q.claimEffect p lim).1.fault = q.fault ∧
    (q.claimEffect p lim).1.rets = q.rets ∧ (q.claimEffect p lim).1.claimE = q.claimE ∧
    (q.claimEffect p lim).1.claimW = q.claimW ∧ (q.claimEffect p lim).1.rpHdr = q.rpHdr ∧
    (q.claimEffect p lim).1.shift = q.shift ∧ (q.claimEffect p lim).1.coreEn = q.coreEn ∧
    (q.claimEffect p lim).1.cfg = q.cfg ∧ (q.claimEffect p lim).1.raiseq = q.raiseq ∧ (q.claimEffect p lim).1.cur = q.cur ∧
    (q.claimEffect p lim).1.sleep = q.sleep ∧ (q.claimEffect p lim).1.waiting = q.waiting := by
  unfold Porch.claimEffect
  refine ⟨?_, ?_, ?_, ?_, ?_, ?_, ?_, ?_, ?_, ?_, ?_, ?_, ?_, ?_⟩ <;> (repeat' split) <;> first | rfl | simp

@[simp] theorem Porch.completeEffect_keeps (q : Porch) (p : Byte) (key : Word) :
    (q.completeEffect p key).1.on = q.on ∧ (q.completeEffect p key).1.up = q.up ∧
    (q.completeEffect p key).1.fault = q.fault ∧ (q.completeEffect p key).1.slots = q.slots ∧
    (q.completeEffect p key).1.rets = q.rets ∧ (q.completeEffect p key).1.claimE = q.claimE ∧
    (q.completeEffect p key).1.claimW = q.claimW ∧ (q.completeEffect p key).1.rpHdr = q.rpHdr ∧
    (q.completeEffect p key).1.shift = q.shift ∧ (q.completeEffect p key).1.coreEn = q.coreEn ∧
    (q.completeEffect p key).1.cfg = q.cfg ∧ (q.completeEffect p key).1.raiseq = q.raiseq ∧
    (q.completeEffect p key).1.cur = q.cur ∧ (q.completeEffect p key).1.sleep = q.sleep ∧
    (q.completeEffect p key).1.waiting = q.waiting :=
  ⟨rfl, rfl, rfl, rfl, rfl, rfl, rfl, rfl, rfl, rfl, rfl, rfl, rfl, rfl, rfl⟩

@[simp] theorem Porch.raiseEffect_keeps (q : Porch) (idx : BitVec 4) :
    (q.raiseEffect idx).on = q.on ∧ (q.raiseEffect idx).up = q.up ∧ (q.raiseEffect idx).fault = q.fault ∧
    (q.raiseEffect idx).slots = q.slots ∧ (q.raiseEffect idx).journal = q.journal ∧ (q.raiseEffect idx).rets = q.rets ∧
    (q.raiseEffect idx).claimE = q.claimE ∧ (q.raiseEffect idx).claimW = q.claimW ∧ (q.raiseEffect idx).jseq = q.jseq ∧
    (q.raiseEffect idx).journalled = q.journalled ∧ (q.raiseEffect idx).rpHdr = q.rpHdr ∧
    (q.raiseEffect idx).shift = q.shift ∧ (q.raiseEffect idx).coreEn = q.coreEn ∧ (q.raiseEffect idx).cfg = q.cfg ∧
    (q.raiseEffect idx).cur = q.cur ∧ (q.raiseEffect idx).sleep = q.sleep ∧ (q.raiseEffect idx).waiting = q.waiting :=
  ⟨rfl, rfl, rfl, rfl, rfl, rfl, rfl, rfl, rfl, rfl, rfl, rfl, rfl, rfl, rfl, rfl, rfl⟩

@[simp] theorem Porch.takeOp_keeps (q : Porch) (p : Byte) (o : WaitOp) :
    (q.takeOp p o).1.on = q.on ∧ (q.takeOp p o).1.up = q.up ∧ (q.takeOp p o).1.fault = q.fault ∧
    (q.takeOp p o).1.rets = q.rets ∧ (q.takeOp p o).1.claimE = q.claimE ∧ (q.takeOp p o).1.claimW = q.claimW ∧
    (q.takeOp p o).1.rpHdr = q.rpHdr ∧ (q.takeOp p o).1.shift = q.shift ∧ (q.takeOp p o).1.coreEn = q.coreEn ∧
    (q.takeOp p o).1.cfg = q.cfg ∧ (q.takeOp p o).1.cur = q.cur ∧ (q.takeOp p o).1.sleep = q.sleep ∧
    (q.takeOp p o).1.waiting = q.waiting := by
  unfold Porch.takeOp
  refine ⟨?_, ?_, ?_, ?_, ?_, ?_, ?_, ?_, ?_, ?_, ?_, ?_, ?_⟩ <;> (repeat' split) <;> first | rfl | simp

@[simp] theorem Porch.noteClaim_keeps (q : Porch) (w : WingId) (c : Word) :
    (q.noteClaim w c).on = q.on ∧ (q.noteClaim w c).up = q.up ∧ (q.noteClaim w c).fault = q.fault ∧
    (q.noteClaim w c).slots = q.slots ∧ (q.noteClaim w c).journal = q.journal ∧ (q.noteClaim w c).rets = q.rets ∧
    (q.noteClaim w c).jseq = q.jseq ∧ (q.noteClaim w c).journalled = q.journalled ∧ (q.noteClaim w c).rpHdr = q.rpHdr ∧
    (q.noteClaim w c).shift = q.shift ∧ (q.noteClaim w c).coreEn = q.coreEn ∧ (q.noteClaim w c).cfg = q.cfg ∧
    (q.noteClaim w c).raiseq = q.raiseq ∧ (q.noteClaim w c).cur = q.cur ∧ (q.noteClaim w c).sleep = q.sleep ∧
    (q.noteClaim w c).waiting = q.waiting := by
  unfold Porch.noteClaim
  refine ⟨?_, ?_, ?_, ?_, ?_, ?_, ?_, ?_, ?_, ?_, ?_, ?_, ?_, ?_, ?_,
    ?_⟩ <;> dsimp only <;> (repeat' split) <;> first | rfl | (simp; done) | simp [*]

@[simp] theorem Porch.offer_keeps (q : Porch) (p : Byte) (taken : Option (BitVec 2)) (rtick : Byte) (k : BitVec 97) :
    (q.offer p taken rtick k).1.on = q.on ∧ (q.offer p taken rtick k).1.up = q.up ∧ (q.offer p taken rtick k).1.fault = q.fault ∧
    (q.offer p taken rtick k).1.journal = q.journal ∧ (q.offer p taken rtick k).1.claimE = q.claimE ∧
    (q.offer p taken rtick k).1.claimW = q.claimW ∧ (q.offer p taken rtick k).1.rpHdr = q.rpHdr ∧ (q.offer p taken rtick k).1.shift = q.shift ∧
    (q.offer p taken rtick k).1.coreEn = q.coreEn ∧ (q.offer p taken rtick k).1.cfg = q.cfg ∧ (q.offer p taken rtick k).1.raiseq = q.raiseq ∧
    (q.offer p taken rtick k).1.cur = q.cur ∧ (q.offer p taken rtick k).1.sleep = q.sleep ∧ (q.offer p taken rtick k).1.waiting = q.waiting := by
  unfold Porch.offer
  refine ⟨?_, ?_, ?_, ?_, ?_, ?_, ?_, ?_, ?_, ?_, ?_, ?_, ?_, ?_⟩ <;> (repeat' split) <;> first | rfl | simp

@[simp] theorem Porch.dropCommitted_keeps (q : Porch) (c : BitVec 16) :
    (q.dropCommitted c).on = q.on ∧ (q.dropCommitted c).up = q.up ∧ (q.dropCommitted c).fault = q.fault ∧
    (q.dropCommitted c).slots = q.slots ∧ (q.dropCommitted c).claimE = q.claimE ∧ (q.dropCommitted c).claimW = q.claimW ∧
    (q.dropCommitted c).jseq = q.jseq ∧ (q.dropCommitted c).journalled = q.journalled ∧ (q.dropCommitted c).rpHdr = q.rpHdr ∧
    (q.dropCommitted c).shift = q.shift ∧ (q.dropCommitted c).coreEn = q.coreEn ∧ (q.dropCommitted c).cfg = q.cfg ∧
    (q.dropCommitted c).raiseq = q.raiseq ∧ (q.dropCommitted c).cur = q.cur ∧ (q.dropCommitted c).sleep = q.sleep ∧
    (q.dropCommitted c).waiting = q.waiting :=
  ⟨rfl, rfl, rfl, rfl, rfl, rfl, rfl, rfl, rfl, rfl, rfl, rfl, rfl, rfl, rfl, rfl⟩


/-- Returning offers touches the slots, the return list and JSEQ. -/
@[simp] theorem Porch.giveBackAll_keeps (p : Byte) (l : List PSlot) (q : Porch) :
    (Porch.giveBackAll p l q).1.on = q.on ∧ (Porch.giveBackAll p l q).1.up = q.up ∧ (Porch.giveBackAll p l q).1.fault = q.fault ∧
    (Porch.giveBackAll p l q).1.journal = q.journal ∧ (Porch.giveBackAll p l q).1.claimE = q.claimE ∧
    (Porch.giveBackAll p l q).1.claimW = q.claimW ∧ (Porch.giveBackAll p l q).1.cfg = q.cfg ∧
    (Porch.giveBackAll p l q).1.raiseq = q.raiseq ∧ (Porch.giveBackAll p l q).1.cur = q.cur ∧
    (Porch.giveBackAll p l q).1.sleep = q.sleep ∧ (Porch.giveBackAll p l q).1.waiting = q.waiting := by
  induction l generalizing q with
  | nil => simp [Porch.giveBackAll]
  | cons x xs ih => simp [Porch.giveBackAll, ih]

/-- An operation that is taken with the vote on what it reads touches no more than the slots, the journal, the raises and FAULT. -/
@[simp] theorem Porch.takeVoted_keeps (q : Porch) (p : Byte) (o : WaitOp) (v : Vote) (err : Bool) :
    (q.takeVoted p o v err).1.on = q.on ∧ (q.takeVoted p o v err).1.up = q.up ∧
    (q.takeVoted p o v err).1.rets = q.rets ∧ (q.takeVoted p o v err).1.claimE = q.claimE ∧
    (q.takeVoted p o v err).1.claimW = q.claimW ∧ (q.takeVoted p o v err).1.cfg = q.cfg ∧
    (q.takeVoted p o v err).1.cur = q.cur ∧ (q.takeVoted p o v err).1.sleep = q.sleep := by
  cases v <;> simp [Porch.takeVoted, Porch.voted]

/-- Operations that waited touch neither the claim records nor what the core drives. -/
@[simp] theorem Porch.drainOps_keeps (p : Byte) (n : Nat) (q : Porch) :
    (Porch.drainOps p n q).1.on = q.on ∧ (Porch.drainOps p n q).1.up = q.up ∧
    (Porch.drainOps p n q).1.rets = q.rets ∧ (Porch.drainOps p n q).1.claimE = q.claimE ∧
    (Porch.drainOps p n q).1.claimW = q.claimW ∧ (Porch.drainOps p n q).1.cfg = q.cfg ∧
    (Porch.drainOps p n q).1.cur = q.cur ∧ (Porch.drainOps p n q).1.sleep = q.sleep := by
  induction n generalizing q with
  | zero => simp [Porch.drainOps]
  | succ n ih =>
    unfold Porch.drainOps
    cases h : q.waiting with
    | nil => simp
    | cons o os =>
      by_cases h2 : q.takes o.1
      · simp [h2, ih]
      · simp [h2]

end Sys2Proof.Machine
end

