-- ==== Sys2Proof/Tests/Slice0.lean ====
section
/-! SUPPORT. Tests: ill-formed commands that the checks refuse, a witness for the hypotheses of each statement, and single steps
whose expected results come from the spec. -/

namespace Sys2Proof.Tests

set_option Elab.async false

open Sys2Proof.Machine

/-! ## What these tests start from -/

/-- Keys and offers of the tests: two ordinary vectors, an alarm's, and one of slice 0. -/
def kA : Word := mkKey 1 5
def kB : Word := mkKey 1 6
def kM : Word := mkKey 0 7
def offA : BitVec 97 := rankKey false 10 100 kA
def offB : BitVec 97 := rankKey false 20 100 kB
def offM : BitVec 97 := rankKey false 30 100 kM
def offX : BitVec 97 := rankKey true 40 100 (mkKey 2 9)

/-- A porch that is up for the east wing's claim 4, with slice 1 current. -/
def up : Porch :=
  { Porch.off with
    on := true, up := true, coreEn := true, claimE := some 4, claimW := some 3, rpHdr := 256, cur := 1, cfg := 0x31
    jseq := 7, journalled := true }

def slotOfOffer (k : BitVec 97) : Option PSlot := some { key := k, rtick := 44, hidden := none }

/-- The porch with two offers, the better one in slot 1. -/
def two : Porch := { up with slots := [slotOfOffer offB, slotOfOffer offA, none, none] }

/-- The porch with no free slot. -/
def crowd : Porch := { up with slots := [slotOfOffer offB, slotOfOffer offA, slotOfOffer offM, slotOfOffer (rankKey false 50 100 (mkKey 0 8))] }

def entryOf (q : BitVec 16) (k : Word) : Entry := { kind := .claim, accTick := 0, prio := 200, jseq := q, key := k }

/-- A journal of `n` entries. -/
def journalOf (n : Nat) : List Entry := (List.range n).map fun i => entryOf (BitVec.ofNat 16 i) (mkKey 3 (BitVec.ofNat 20 i))

def atPorch (q : Porch) : State := { State.reset with porches := [(9, q)] }

/-- A wing that runs, active, at tick 1000. -/
def active : Wing :=
  { Wing.reset .east with
    life := .run, keyValid := true
    ctl := { Ctl.reset .east with role := .active, hasTick := true, tick := 1000, claim := 4, seen := 5 } }

def standby : Wing := { active with ctl := { active.ctl with role := .standby } }

def joining : Wing := { active with ctl := { active.ctl with role := .joining } }

def napping : Wing := { active with life := .nap }

def east (v : Wing) : State := { State.reset with east := v }

/-- The context of vector `kA`, IDLE and clean. -/
def ctxA : Ctx := ctxOfImage kA 0 0

/-- The wing with `ctxA`, changed by `f`, in slot 3. -/
def withA (v : Wing) (f : Ctx → Ctx) : Wing :=
  { v with pan := { v.pan with slots := [(3, { ctx := f ctxA, steer := Steer.reset })] } }

/-- A list of which a test holds throughout. -/
theorem mem_of_all {α : Type} {P : α → Prop} [DecidablePred P] {l : List α} (h : l.all (fun x => decide (P x)) = true) :
    ∀ x ∈ l, P x := fun x hx => of_decide_eq_true (List.all_eq_true.1 h x hx)

/-- What makes a state with one porch listed sound. -/
theorem sound_of {q : Porch} (h : q ≠ Porch.off) (h1 : q.slots.length = 4 ∧ q.journal.length ≤ 8 ∧ q.raiseq.length ≤ 4)
    (h2 : (q.held.map rkKey).Nodup) (h3 : q.rets = []) : (atPorch q).porchesSound := by
  refine ⟨by simp [atPorch, SMap.wfd, SMap.sortedFrom, h], ?_⟩
  intro e he
  simp only [atPorch, List.mem_singleton] at he
  subst he
  exact ⟨h1.1, h1.2.1, h1.2.2, h2, by simp [h3]⟩

/-! ## Well-formed commands: an ill-formed term for each check, which the check refuses -/

def args0 : CmdArgs := { fence := false, flags := 0, rsv := 0, target := 0, operand := 0, operand2 := 0, cookie := 0 }
def arr0 : ArriveRec :=
  { alarm := false, discard := false, esc := false, recheck := false, regLo := 0, cls := 0, cause := 0, num := 1, seq := 1
    key := kA, chk := 0 }
def jr0 (k : EntryKind) : JournalRec :=
  { ret := false, replay := false, synth := false, porch := 9, entry := { kind := k, accTick := 0, prio := 0, jseq := 1, key := kA } }
def regw0 : RegwRec := { space := 0, dualPend := false, req := 1, addr := 0, val := 0 }

theorem test_wf_accepts : Instr.wf (.arrive .east arr0) = true ∧ Instr.wf (.claimRecord .east (jr0 .claim)) = true ∧
    Instr.wf (.cfgRegw .east regw0) = true ∧ Instr.wf (.claim 9 1 0 .agree) = true := by decide

theorem test_wf_releaseHeader : Instr.wf (.releaseHeader 9 .east (releaseHdr 4 0 0 0 true 1 0) [] ⟨.agree, none⟩) = false ∧
    Instr.wf (.releaseHeader 9 .east (releaseHdr 4 0 0 0 true 5 0) [0, 0, 0, 0, 0] ⟨.agree, none⟩) = false := by decide

theorem test_wf_acceptRsp : Instr.wf (.acceptRsp .east 9 0 [1, 2, 3, 4, 5]) = false := by decide

theorem test_wf_slotReport : Instr.wf (.slotReport .east 9 0 [1, 2, 3]) = false := by decide

theorem test_wf_claimRecord : Instr.wf (.claimRecord .east (jr0 .complete)) = false ∧
    Instr.wf (.claimRecord .east { jr0 .claim with ret := true }) = false ∧
    Instr.wf (.claimRecord .east { jr0 .claim with synth := true }) = false ∧
    Instr.wf (.claimRecord .east (jr0 .ret)) = false := by decide

theorem test_wf_completeRecord : Instr.wf (.completeRecord .east (jr0 .claim)) = false ∧
    Instr.wf (.completeRecord .east { jr0 .complete with ret := true }) = false ∧
    Instr.wf (.completeRecord .east { jr0 .complete with synth := true }) = false := by decide

theorem test_wf_arrive : Instr.wf (.arrive .east { arr0 with recheck := true }) = false ∧
    Instr.wf (.arrive .east { arr0 with cause := 1 }) = false ∧
    Instr.wf (.arrive .east { arr0 with discard := true, esc := true }) = false := by decide

theorem test_wf_cfgRegw : Instr.wf (.cfgRegw .east { regw0 with space := 2 }) = false ∧
    Instr.wf (.cfgRegw .east { regw0 with addr := 6 }) = false := by decide

theorem test_wf_banks : Instr.wf (.steerInstall .east { bank := 64, slot := 0, key := kA, tag := 0 }) = false ∧
    Instr.wf (.steerTarget .east { cluster := 0, bank := 64, slot := 0, key := kA, coreset := 0 }) = false ∧
    Instr.wf (.resyncFill .east { part := 0, bank := 64, slot := 0, key := kA, data := 0 }) = false := by decide

theorem test_wf_parts : Instr.wf (.resyncFill .east { part := 4, bank := 0, slot := 0, key := kA, data := 0 }) = false ∧
    Instr.wf (.resyncCopy .east { space := 4, pos := 0, data := 0 }) = false := by decide

theorem test_wf_steerModwin : Instr.wf (.steerModwin .east { win := 65, key := kA }) = false := by decide

theorem test_wf_units : Instr.wf (.retentionMonitorTrip .east 68) = false ∧ Instr.wf (.napExit .east [68] []) = false := by
  decide

theorem test_wf_wakes : Instr.wf (.napWake .east { source := 0, detail := 0 }) = false ∧
    Instr.wf (.napWake .east { source := 0xC, detail := 0 }) = false ∧
    Instr.wf (.deepWake .east { source := 0x4, detail := 0 } none) = false := by decide

theorem test_wf_claim : Instr.wf (.claim 9 2 0 .agree) = false := by decide

/-! ## Witnesses: porches -/

theorem wit_two : (atPorch two).porchesSound ∧ ((atPorch two).porch 9).live = true ∧ ((atPorch two).porch 9).waiting = [] ∧
    ((atPorch two).porch 9).hears = true ∧ ((atPorch two).porch 9).accepted = some .east :=
  ⟨sound_of (by decide +kernel) (by decide +kernel) (by decide +kernel) rfl, by decide +kernel⟩

theorem wit_PresentableOffers : two.live = true ∧ ((atPorch two).porch 9) = two ∧ two.waiting = [] ∧
    two.best = some offA ∧ offA ∈ two.held ∧ two.presentable offA = true ∧
    two.presentable (rankKey false 10 0 (mkKey 2 5)) = false := by decide +kernel

/-- LIMIT just above the offer's priority (10), and at 0 for an alarm. -/
theorem wit_ClaimsTakeTheBestOffer_claim : offA ∈ ((atPorch two).porch 9).held ∧
    (11#32).extractLsb' 9 23 = 0#23 ∧ ((atPorch two).porch 9).presentable offA = true ∧
    (∀ h ∈ ((atPorch two).porch 9).held, ((atPorch two).porch 9).presentable h = true → offA.toNat ≤ h.toNat) ∧
    (rkAlarm offA = true ∨ (rkPrio offA).toNat < ((11#32).extractLsb' 0 9 : BitVec 9).toNat) ∧
    ((atPorch two).porch 9).journal.length < 8 :=
  ⟨by decide +kernel, by decide, by decide +kernel, mem_of_all (by decide +kernel), by decide +kernel, by decide +kernel⟩

theorem wit_ClaimsTakeTheBestOffer_vrRd : ((atPorch two).porch 9).best = some offA ∧
    ((atPorch two).porch 9).slots.find? (fun o => o.any fun x => x.key == offA) = some (slotOfOffer offA) ∧
    ((atPorch up).porch 9).live = true ∧ ((atPorch up).porch 9).best = none ∧
    ((atPorch { two with journal := journalOf 8 }).porch 9).live = true ∧
    ((atPorch { two with journal := journalOf 8 }).porch 9).best = some offA ∧
    ((atPorch { two with journal := journalOf 8 }).porch 9).journal.length = 8 := by decide +kernel

theorem wit_CompletionsAndRaisesAreQueued :
    ((atPorch { up with journal := journalOf 7 }).porch 9).live = true ∧ (journalOf 7).length < 8 ∧
    ((atPorch { up with journal := journalOf 8 }).porch 9).live = true ∧ (journalOf 8).length = 8 ∧
    ((atPorch { up with raiseq := [(0, 1), (1, 1), (2, 1)] }).porch 9).raiseq.length < 4 ∧
    ((atPorch { up with raiseq := [(0, 1), (1, 1), (2, 1), (3, 1)] }).porch 9).raiseq.length = 4 := by decide +kernel

/-- A porch whose west claim lies low. -/
def lowWest : Porch := { up with claimW := some 1 }

theorem wit_ClaimRaiseSetsTheRecord : (up.claimOf .west).all (fun d : Word => decide (d.toNat < (5#32).toNat)) = true ∧
    (∀ d : Word, up.claimOf .east = some d → d.toNat < (5#32).toNat) ∧
    (lowWest.claimOf .west).all (fun d : Word => decide (d.toNat < (3#32).toNat)) = true ∧
    lowWest.claimOf .east = some 4#32 ∧ (3#32).toNat < (4#32).toNat ∧
    up.accepted ≠ some .west := by
  refine ⟨by decide +kernel, ?_, by decide +kernel, by decide +kernel, by decide, by decide +kernel⟩
  rintro d h
  cases h
  decide

theorem wit_InitSetsThePorch : ((atPorch up).porch 9).hears = true ∧ ((atPorch up).porch 9).waiting = [] ∧
    (∀ d, ((atPorch up).porch 9).claimOf .east = some d → d.toNat ≤ (4#32).toNat) ∧
    (∀ d, ((atPorch up).porch 9).claimOf .west = some d → d.toNat < (4#32).toNat) := by
  refine ⟨by decide +kernel, by decide +kernel, ?_, ?_⟩ <;> intro d h <;> cases h <;> decide

theorem wit_ReleaseTakesTheHeader : ((atPorch two).porch 9).up = true ∧ ((atPorch two).porch 9).claimOf .east = some 4 := by
  decide +kernel

/-- A duplicate, a free slot, a displaced offer, and a refusal: the four cases of a placement. -/
theorem wit_OfferPlacement : (∃ h ∈ two.held, rkKey h = rkKey offA) ∧ (∀ h ∈ two.held, rkKey h ≠ rkKey offX) ∧
    none ∈ two.slots ∧ none ∉ crowd.slots ∧ rkAlarm offX = true ∧ (∃ h ∈ crowd.held, rkAlarm h = false) ∧
    rkAlarm (rankKey false 5 5 (mkKey 0 1)) = false ∧ crowd.up = true ∧ crowd.hears = true ∧ crowd.accepted = some .east :=
  ⟨⟨offA, by decide +kernel, rfl⟩, mem_of_all (by decide +kernel), by decide +kernel, by decide +kernel, by decide +kernel,
    ⟨offA, by decide +kernel, by decide +kernel⟩, by decide +kernel⟩

theorem wit_crowd_sound : (atPorch crowd).porchesSound :=
  sound_of (by decide +kernel) (by decide +kernel) (by decide +kernel) rfl

theorem wit_PorchDomains_up : (east active).domainHeld 1 1 = true ∧ (east active).domainIsOn 1 = false := by decide +kernel

def domainOne (q : Porch) : State := { State.reset with porches := (List.range 8).map fun i => (8 + i, q) }

theorem wit_PorchDomains_down : (domainOne up).domainHeld 1 0 = false ∧ (domainOne up).domainIsOn 1 = true ∧
    (∀ p ∈ domainPorches 1, ((domainOne up).porch p).fault = false ∧ ((domainOne up).porch p).held = [] ∧
      ((domainOne up).porch p).journal = [] ∧ ((domainOne up).porch p).rets = []) := by decide +kernel

/-! ## Witnesses: what enters a wing -/

/-- A slice that runs, with rings of 16 entries. -/
def runningSlice : SliceSt :=
  { SliceSt.reset with
    state := .running, gen := 1, pasid := 5, vtLog2 := 10, spLog2 := 4, cmdLog2 := 4, evtLog2 := 4, vtBase := 0x100000
    spBase := 0x200000, cmdBase := 0x300000, evtBase := 0x400000, hdrBase := 0x500000, maxCtx := 64, guarCtx := 1
    stageShare := 64, credit := 16 }

/-- Slices 0 and 1 run. -/
def withSlices (v : Wing) : Wing := { v with sl := [(0, { runningSlice with pasid := 0 }), (1, runningSlice)] }

/-- A write of the page of slice 1 at offset `off`. -/
def wr (off : BitVec 12) (data : BitVec 256) (strb : BitVec 32) : AptWrite :=
  { off := 1#12 ++ off, data := data, strb := strb, pasidP := true, pasid := 5, req := 2 }

theorem wit_ApertureWritesRegister_native :
    ((east (withSlices active)).wing .east).running = true ∧ ((east (withSlices active)).wing .east).vst.inbuf = [] ∧
    ((east (withSlices active)).wing .east).spillFull (wr 0 5 0xFFFFFFFF).slice = false ∧
    AptRange.of (wr 0 5 0xFFFFFFFF).pageOff = .native ∧ nativeCheck (wr 0 5 0xFFFFFFFF) = none ∧
    AptRange.of (wr 0x1F 5 1).pageOff = .native ∧ nativeCheck (wr 0x1F 5 1) = some rjSize := by decide +kernel

theorem wit_ApertureWritesRegister_msi : AptRange.of (wr 0x100 5 0xF).pageOff = .msi ∧ msiCheck (wr 0x100 5 0xF) = none ∧
    AptRange.of (wr 0x103 5 1).pageOff = .msi ∧ msiCheck (wr 0x103 5 1) = some rjSize := by decide +kernel

/-- An input buffer that holds `n` writes. -/
def waiting (n : Nat) : Wing := { active with vst := { active.vst with inbuf := List.replicate n (wr 0 5 0xFFFFFFFF, true) } }

theorem wit_ApertureWritesRegister_waits : (waiting 511).aptLive = true ∧ (waiting 511).vst.inbuf ≠ [] ∧
    (waiting 511).vst.inbuf.length < 512 ∧ ¬ (waiting 512).vst.inbuf.length < 512 := by decide +kernel

/-- Doorbells at the ring's size above CMD_HEAD, one past it, at the last record, and past it. -/
def ringed : Wing :=
  { active with sl := [(1, { runningSlice with cmdHead := 0xFFFFFFFE, cmdTail := 0xFFFFFFFF, evtHead := 3, wpos := 6 })] }

theorem wit_CommandDoorbells_tail : (ringed.doorbellCheck (wr 0x200 0x00000E 0xF) 0x200) = none ∧
    AptRange.of (wr 0x200 0x00000E 0xF).pageOff = .cmd ∧ ringed.admitsNew = true ∧ ringed.running = true ∧ ringed.vst.inbuf = [] ∧
    (((0x00000E#32).extractLsb' 0 24 : BitVec 24) - (ringed.slice 1).cmdHead.extractLsb' 0 24).toNat = 2 ^ (ringed.slice 1).cmdLog2.toNat ∧
    posDiff (ringed.slice 1).cmdTail (ringed.slice 1).cmdHead ≤ 16 ∧
    ((0x00000F#32 : Word).extractLsb' 0 24 - (ringed.slice 1).cmdHead.extractLsb' 0 24 : BitVec 24).toNat = 17 := by decide +kernel

theorem wit_CommandDoorbells_head : (ringed.doorbellCheck (wr 0x200 0x40000006 0xF) 0x200) = none ∧
    (0x40000006#32).extractLsb' 30 2 = 1#2 ∧
    ((0x000006#32 : Word).extractLsb' 0 24 - (ringed.slice 1).evtHead.extractLsb' 0 24 : BitVec 24).toNat =
      posDiff (ringed.slice 1).wpos (ringed.slice 1).evtHead ∧
    posDiff (ringed.slice 1).wpos (ringed.slice 1).evtHead <
      ((0x000007#32 : Word).extractLsb' 0 24 - (ringed.slice 1).evtHead.extractLsb' 0 24 : BitVec 24).toNat := by decide +kernel

def lettered (n : Nat) : Wing :=
  { active with sl := [(1, { runningSlice with outbox := List.replicate n (1, 2) })] }

theorem wit_LettersReadsAndAlarmEdges : AptRange.of (wr 0x300 9 0xF).pageOff = .letter ∧
    (lettered 3).doorbellCheck (wr 0x300 9 0xF) 0x300 = none ∧ (wr 0x300 9 0xF).slice ≠ 0 ∧
    ((lettered 3).slice 1).outbox.length < 4 ∧ (lettered 4).doorbellCheck (wr 0x300 9 0xF) 0x300 = none ∧
    4 ≤ ((lettered 4).slice 1).outbox.length ∧ active.aptLive = true ∧ active.hrt.powered = true := by decide +kernel

/-- The wing with the entry of wired source 3 enabled for vector `kA`. -/
def wired (v : Wing) : Wing := (v.setEff (ikey (aSrcCfg 3)) kA).setEff (ikey (aSrcCfg 3) + 4) 1

theorem wit_SourcesAndRaisesRegister : assertedAt ((wired active).srcCfg 3) ((wired active).pinLevel 3) = false ∧
    assertedAt ((wired active).srcCfg 3) true = true ∧ srcEnabled ((wired active).srcCfg 3) = true ∧ (wired active).life = .run ∧
    assertedAt ((wired napping).srcCfg 3) ((wired napping).pinLevel 3) = false ∧ (wired napping).life = .nap ∧
    srcEnabled ((wired napping).srcCfg 3) = true ∧
    ¬ (srcEnabled (active.srcCfg 3) = true ∧ assertedAt (active.srcCfg 3) (active.pinLevel 3) = false ∧
        assertedAt (active.srcCfg 3) true = true) := by decide +kernel

/-! ## Witnesses: beats -/

/-- Eleven entries of porch 9 at the active wing, and a replay under way. -/
def eleven : Wing := { active with pch := { active.pch with entries := [(9, List.replicate 11 (entryOf 1 kA))] } }
def replaying (e : Entry) : Wing := { active with pch := { active.pch with replay := [(9, [e])], jseqCommit := [(9, 4)] } }

theorem wit_BeatsReachTheWing : active.takesBeats = true ∧ eleven.takesBeats = true ∧ eleven.ctl.role = .active ∧
    SMap.find? eleven.pch.replay 9 = none ∧ (SMap.get eleven.pch.entries [] 9).length < 12 ∧
    (replaying (entryOf 5 kA)).takesBeats = true ∧
    SMap.find? (replaying (entryOf 5 kA)).pch.replay 9 = some [entryOf 5 kA] := by decide +kernel

/-- The active wing has offered `offA` to porch 9, and its vector was PENDING at the close before. -/
def offering : Wing :=
  let v := withA active fun c => { c with state := .pending, count := 1 }
  { v with hall := { v.hall with
      offered := [(9, [offA])]
      img0 := some { tick := 999, slots := v.pan.slots, cores := [], eff := [], routes := [], muted := [] } } }

theorem wit_AcceptancesAreRecorded : offering.isActive = true ∧ SMap.get offering.hall.offered [] 9 = [offA] ∧
    offering.pch.late.contains 9 = false ∧ rkKey offA = kA ∧
    (∃ i, offering.hall.img0 = some i ∧ ∃ m sl, findKey kA i.slots = some (m, sl) ∧ sl.ctx.state = .pending) ∧
    (∃ n sl, offering.slotFor kA = some (n, sl)) ∧ offering.arrivalsInFrame kA = [] :=
  ⟨by decide +kernel, by decide +kernel, by decide +kernel, by decide +kernel, ⟨_, rfl, _, _, rfl, rfl⟩, ⟨_, _, rfl⟩, rfl⟩

theorem wit_RefuseDemotes : active.running = true ∧ active.ctl.role = .active ∧ standby.running = true ∧
    standby.ctl.role ≠ .active := by decide +kernel

def claimedAt (v : Wing) : Wing :=
  { v with pan := { v.pan with
      slots := [(3, { ctx := { ctxA with state := .presented, hasLast := true, lastCore := 9 }, steer := Steer.reset })] } }

/-- An entry at LAST_JSEQ, and the one above it. -/
theorem wit_ReplaysApplyNewEntries : (claimedAt (replaying (entryOf 4 kA))).isActive = true ∧
    (claimedAt (replaying (entryOf 4 kA))).ctl.tkoPhase = none ∧
    SMap.find? (claimedAt (replaying (entryOf 4 kA))).pch.replay 9 = some [entryOf 4 kA] ∧
    SMap.get (claimedAt (replaying (entryOf 4 kA))).pch.slotRep [] 9 = [] ∧
    (claimedAt (replaying (entryOf 4 kA))).pch.deferred = [] ∧ (claimedAt (replaying (entryOf 4 kA))).ctx? kA ≠ none ∧
    jseqLe (entryOf 4 kA).jseq (SMap.get (claimedAt (replaying (entryOf 4 kA))).pch.jseqCommit 0xFFFF 9) = true ∧
    jseqLe (entryOf 5 kA).jseq (SMap.get (claimedAt (replaying (entryOf 5 kA))).pch.jseqCommit 0xFFFF 9) = false ∧
    (entryOf 5 kA).kind = .claim := by decide +kernel

/-! ## Witnesses: reset, bring-up, the tick -/

/-- A wing that may start: in Run, never active, with BOOT_PARAM armed. -/
def startable : Wing :=
  ({ Wing.reset .east with life := .run, keyValid := true }.setEff oBootParam 0x8001).setCfg oBootParam 0x8001

/-- The job of a START whose writes are done. -/
def started : Wing :=
  { active with
    ctl := { active.ctl with booting := true }
    sl := [(0, { SliceSt.reset with
      job := some { pos := 0, opcode := opCreate, phase := .writing, param := 0, left := 0, got := [], retried := [] } })] }

theorem wit_ResetAndBringUp : (State.reset.wing .west).life = .held ∧ { Wing.reset .east with life := .keyWait }.life = .keyWait ∧
    active.life ≠ .held ∧ active.life ≠ .deep ∧ startable.canStart = true ∧ startable.saveValid = false ∧
    active.life = .run ∧ active.canStart = false ∧ started.ctl.booting = true ∧ started.isActive = true ∧
    (∃ j, (started.slice 0).job = some j ∧ j.phase = .writing ∧ j.left = 0) :=
  ⟨rfl, rfl, by decide, by decide, by decide +kernel, by decide +kernel, rfl, by decide +kernel, rfl, by decide +kernel,
    ⟨_, rfl, rfl, rfl⟩⟩

theorem wit_TickBoundaryCounts : (State.reset.wing .east).life = .held ∧
    { Wing.reset .east with life := .keyWait }.keyValid = false ∧
    { Wing.reset .east with life := .keyWait }.ctl.tickDue = none ∧ { Wing.reset .east with life := .keyWait }.ctl.hasTick = false ∧
    active.ctl.tickDue = none ∧ active.ctl.hasTick = true ∧ napping.life = .nap ∧
    { startable with ctl := { startable.ctl with tickDue := some 0 } }.ctl.tickDue = some 0 := by
  refine ⟨rfl, rfl, rfl, rfl, rfl, rfl, rfl, rfl⟩

/-! ## Witnesses: the cellar, the spill rings, the study -/

/-- `ctxA` COMPLETED with a window that ends in this tick. -/
def completedA (n : BitVec 16) : Wing := withA active fun c => { c with state := .completed, modEnd := 1000, count := n }

/-- A standby that receives, with an image held since 16 ticks, and a filter entry of 65,536 ticks. -/
def oldImages : Wing :=
  { standby with
    ctl := { standby.ctl with tick := 70000 }
    pan := { standby.pan with images := [{ ctx := ctxA, tick := 69984, causes := [.observed] },
      { ctx := ctxA, tick := 69985, causes := [.observed] }] }
    vst := { standby.vst with filter := [(0, { slice := 1, jobTag := 7, tick := 4464, poisoned := false }),
      (1, { slice := 1, jobTag := 7, tick := 4465, poisoned := false })] } }

theorem wit_WindowsImagesAndFilterEntriesEnd : (completedA 0).running = true ∧ (completedA 0).slotFor kA ≠ none ∧
    (completedA 0).ctx? kA = some { ctxA with state := .completed, modEnd := 1000, count := 0 } ∧
    (1000#56).toNat ≤ (completedA 0).now.toNat ∧ oldImages.receives = true ∧ oldImages.running = true := by decide +kernel

/-- A vector's entry with its tag under a key. -/
def entryA (key : BitVec 128) : BitVec 256 := withTag key 0 kA domainVector

theorem high_append {m n : Nat} (x : BitVec m) (y : BitVec n) : (x ++ y).extractLsb' n m = x := by
  ext i hi
  simp [BitVec.getLsbD_append, hi]

theorem low_append {m n : Nat} (x : BitVec m) (y : BitVec n) : (x ++ y).extractLsb' 0 n = y := by
  ext i hi
  simp [BitVec.getLsbD_append, hi]

theorem mid_append {k m n : Nat} (x : BitVec k) (y : BitVec m) (z : BitVec n) : ((x ++ y) ++ z).extractLsb' n m = y := by
  ext i hi
  simp [BitVec.getLsbD_append, hi]

/-- What `withTag` makes checks. -/
theorem tagOk_withTag (key : BitVec 128) (body : BitVec 224) (b d : Word) : tagOk key (withTag key body b d) b d = true := by
  unfold tagOk withTag
  rw [high_append (integrityTag key body b d) body, low_append (integrityTag key body b d) body]
  simp

/-- A wing that reads vector `kA` from the cellar. -/
def reading (v : Wing) (again : Bool) : Wing :=
  { withSlices v with pan := { v.pan with fetches := [{ key := kA, causes := [.arrival], issued := true, retried := again }] } }

theorem wit_CellarReads : (reading active false).running = true ∧
    (∃ f, (reading active false).pan.fetches.find? (fun f => f.key == kA && f.issued) = some f ∧ f.causes = [.arrival] ∧ f.retried = false) ∧
    tagOk (reading active false).key (entryA 0) kA domainVector = true ∧ (reading active false).ownsFrame = true ∧
    (reading active false).resident kA = false ∧ keySlice kA ∉ (reading active false).vst.underCmd ∧
    (reading active false).roomFor 1 = true ∧ (∀ o ∈ (reading active false).vst.staged, o.key ≠ kA) ∧
    (reading active false).chooseSlot (keySlice kA) false = some (0, none) ∧ (reading standby false).ownsFrame = false ∧
    (reading standby false).psg.hold = [] ∧ (reading active true).ownsFrame = true ∧
    (∃ f, (reading active true).pan.fetches.find? (fun f => f.key == kA && f.issued) = some f ∧ f.retried = true ∧ f.causes = [.arrival]) :=
  ⟨by decide +kernel, ⟨_, rfl, rfl, rfl⟩, tagOk_withTag _ _ _ _, by decide +kernel, by decide +kernel, by decide +kernel,
    by decide +kernel, nofun, by decide +kernel, by decide +kernel, rfl, by decide +kernel, ⟨_, rfl, rfl, rfl⟩⟩

/-- An entry whose tag is one too high fails its check. -/
theorem tagOk_wrong (key : BitVec 128) (body : BitVec 224) (b d : Word) :
    tagOk key ((integrityTag key body b d + 1) ++ body) b d = false := by
  unfold tagOk
  rw [high_append (integrityTag key body b d + 1) body, low_append (integrityTag key body b d + 1) body]
  simp

theorem wit_CellarReads_bad : tagOk (reading active false).key ((integrityTag 0 0 kA domainVector + 1) ++ 0#224) kA domainVector = false :=
  tagOk_wrong _ _ _ _

def obsA (n : Nat) : Obs :=
  { cls := 0, num := 1, seq := BitVec.ofNat 32 n, key := kA, reg := 990, ctrl := 5, engStatus := 0, jobTag := 0, payload := 9
    carries := true, req := 2, pasidP := true, pasid := 5, off := 0, swe := true, chk := 0xABCD }

/-- A spilled observation whose return read is on its way; the memory answers with the entry that was written. -/
def spilling : Wing :=
  { withSlices active with vst := { active.vst with
      spill := [(1, { head := 0, tail := 1, items := [obsA 1], reads := [1], retried := false, dead := [] })] } }

def spilled : BitVec 512 := (spilling.spillEntry (obsA 1)).setWidth 512

theorem spilled_low : spilled.extractLsb' (256 * ((0 + 0) % 2)) 256 = spilling.spillEntry (obsA 1) := by
  unfold spilled
  generalize spilling.spillEntry (obsA 1) = x
  ext i hi
  simp [hi]
  omega

/-- A return read of one entry at an even position. -/
theorem returned_one (w : Wing) (s : BitVec 12) (o : Obs) (d : BitVec 512)
    (h : w.spillOf s = { head := 0, tail := 1, items := [o], reads := [1], retried := false, dead := [] })
    (ht : tagOk w.key (d.extractLsb' (256 * ((0 + 0) % 2)) 256) (mkKey s 0) (domainSpill w.id) = true) :
    w.returned s (some d) = [(o.fromEntry s (d.extractLsb' (256 * ((0 + 0) % 2)) 256) w.now, true)] := by
  unfold Wing.returned
  simp only [h]
  simp only [List.headD_cons, List.range_one, List.filterMap_cons, List.filterMap_nil, List.contains_nil, Bool.false_eq_true,
    if_false, List.getElem?_cons_zero]
  rw [if_pos ht]

/-- The same at a standby, which admits nothing. -/
def spillingStandby : Wing := { spilling with ctl := standby.ctl }

theorem wit_SpillReturns : spillingStandby.admitsNew = false ∧ spillingStandby.running = true ∧ spillingStandby.vst.inbuf = [] ∧
    (spillingStandby.spillOf 1).reads ≠ [] ∧ spillingStandby.key = spilling.key ∧ spillingStandby.vst = spilling.vst ∧
    spillingStandby.id = spilling.id ∧ spilling.running = true ∧ spilling.vst.inbuf = [] ∧ (spilling.spillOf 1).reads ≠ [] ∧
    (∃ es : List Obs, spilling.returned 1 (some spilled) = es.map (fun o => (o, true))) := by
  refine ⟨by decide +kernel, by decide +kernel, rfl, by decide +kernel, rfl, rfl, rfl, by decide +kernel, rfl, by decide +kernel, [_],
    returned_one spilling 1 (obsA 1) spilled (by decide +kernel) ?_⟩
  rw [spilled_low]
  exact tagOk_withTag _ _ _ _

/-- A write-back of `ctxA` in flight, nothing changed since. -/
def writing : Wing :=
  let v := withA active fun c => { c with dirty := true, wbFresh := true }
  { v with pan := { v.pan with wbuf := [(kA, 5)] } }

theorem wit_WriteBacks : writing.pan.wbuf.find? (fun e => e.1 == kA) = some (kA, 5) ∧ writing.life = .run ∧
    (∃ n sl, writing.slotFor kA = some (n, sl) ∧ sl.ctx.wbFresh = true) ∧ (∀ x ∈ dropBuf kA writing.pan.wbuf, x.1 ≠ kA) ∧
    writing.isQuarantined kA = false ∧ writing.flushes = [] ∧ writing.dirtyCount ≤ 2048 :=
  ⟨by decide +kernel, rfl, ⟨_, _, rfl, rfl⟩, mem_of_all (by decide +kernel), by decide +kernel, by decide +kernel, by decide +kernel⟩

/-- A wing at tick 64 times 16. -/
def at1024 (v : Wing) : Wing := { v with ctl := { v.ctl with tick := 1024 } }

theorem wit_StudyCountsAndReports : (at1024 active).running = true ∧ (at1024 active).now.toNat % 64 = 0 ∧
    (at1024 active).hall.nextCount.toNat ≤ (at1024 active).now.toNat ∧ (at1024 active).isActive = true ∧
    (at1024 standby).isActive = false ∧ (at1024 standby).running = true ∧
    ((at1024 active).setEff oHallCtrl 0x00100100).steerHold = true := by decide +kernel

/-- The hearts of R84's rule: above, at and below the ceiling, at the limit, and with no ceiling. -/
theorem test_modDecide : modDecide 8 9 true 64 4 = 8 ∧ modDecide 8 9 true 64 0 = 1 ∧ modDecide 8 9 true 5 4 = 5 ∧
    modDecide 8 8 true 64 4 = 4 ∧ modDecide 8 3 true 64 4 = 2 ∧ modDecide 8 9 false 64 4 = 2 ∧ modDecide 0 9 true 64 4 = 2 := by
  decide +kernel

/-- Slice 1 has been stranded for 16 times RES_DELAY (16, its reset value) ticks. -/
def stranded : Wing :=
  { active with
    sl := [(0, { runningSlice with pasid := 0, evtLog2 := 12 }), (1, { runningSlice with strand := 256 })]
    hall := { active.hall with resident := [(1, 3, 40)] } }

theorem wit_StudyCountsAndReports_residency : stranded.ownsFrame = true ∧
    stranded.hall.resident.find? (fun e => e.1 == 1#12) = some (1, 3, 40) ∧ stranded.resDelay ≠ 0 ∧
    16 * stranded.resDelay = (stranded.slice 1).strand ∧ (stranded.slice 1).strandTold = false ∧
    stranded.residencyPlaced 1 = false ∧ stranded.ringRoom 0 1 = true ∧ stranded.roomDeferred 1 = true := by decide +kernel

/-! ## Witnesses: slices and rings -/

/-- A parameter block that passes its checks: tables of 64 entries, rings of the least size. -/
def block0 : BitVec 1024 :=
  ofBytes 1024 ([1, 0, 4, 0, 16, 0, 1] ++ List.replicate 57 0 ++ [9] ++ List.replicate 7 0 ++ [6, 0x10, 0, 0, 0, 0, 0, 0] ++
    [6, 0x20, 0, 0, 0, 0, 0, 0] ++ [4, 0x30, 0, 0, 0, 0, 0, 0] ++ [10, 0, 1, 0, 0, 0, 0, 0] ++ [0, 0x50, 0, 0, 0, 0, 0, 0])

/-- Both halves of slice `n`'s parameter block are being read. -/
def readingBlock (v : Wing) (n : BitVec 12) : Wing :=
  { v with ring := { v.ring with blockReads := [(n, false, true), (n, true, true)] } }

/-- Slice 2 with a job. -/
def withJob (op : Byte) (ph : JobPhase) : Wing :=
  { active with sl := [(0, { runningSlice with pasid := 0, evtLog2 := 12 }),
      (2, { SliceSt.reset with state := .creating, vtLog2 := 6, evtLog2 := 10
                               job := some { pos := 3, opcode := op, phase := ph, param := 0, left := 0, got := [], retried := [] } })] }

theorem wit_SliceJobsAdvance : (withJob opCreate .reading).ownsFrame = true ∧
    (withJob opCreate .reading).finishing 0 3 = false ∧ (withJob opCreate .reading).createCheck 2 block0 = 0 ∧
    (∃ j, ((withJob opCreate .writing).slice 2).job = some j ∧ j.phase = .writing ∧ j.left = 0) ∧
    (∃ j, ((withJob opRemove .waiting).slice 2).job = some j ∧ j.phase = .waiting ∧ j.opcode = opRemove) ∧
    (withJob opRemove .waiting).ctxs = [] ∧ ∀ i < 16, keySlice ((withJob opRemove .waiting).route i) ≠ 2 :=
  ⟨by decide +kernel, by decide +kernel, by decide +kernel, ⟨_, rfl, rfl, rfl⟩, ⟨_, rfl, rfl, rfl⟩, rfl, by decide +kernel⟩

/-- Slice 1 quiesces since tick `q`; port 0 has reported. -/
def quiescing (q : Tick) : Wing :=
  { active with
    ctl := { active.ctl with tick := 66000 }
    sl := [(0, { runningSlice with
        pasid := 0, evtLog2 := 12
        ucmds := [{ pos := 2, opcode := opQuiesce, target := mkKey 1 0, operand := 0, operand2 := 0, cookie := 0, at_ := q, applied := false }] }),
      (1, { runningSlice with state := .quiescing, stopTick := q + 1, quiesceTick := q, drained := 1 })] }

theorem wit_QuiescesAndDrainsFinish : (quiescing 464).ownsFrame = true ∧
    (∃ u, (quiescing 464).sliceCmd opQuiesce 1 = some u ∧ (quiescing 464).ucmdFor 0 (u.pos.extractLsb' 0 16) = some u ∧
      (quiescing 464).finishing 0 u.pos = false) ∧
    ((quiescing 464).slice 1).state = .quiescing ∧ (quiescing 464).ring.finDue = [] ∧ (quiescing 464).roomDeferred 1 = true ∧
    ((quiescing 464).slice 1).quiesceTick.toNat + 65536 = (quiescing 464).now.toNat ∧
    (∀ p < 16, (quiescing 464).portEn p = true → ((quiescing 464).slice 1).drained.getLsbD p = true) ∧
    (quiescing 464).oldHeld 1 = false ∧ ((quiescing 464).slice 1).ucmds = [] :=
  ⟨by decide +kernel, ⟨_, rfl, by decide +kernel, by decide +kernel⟩, by decide +kernel, rfl, by decide +kernel, by decide +kernel,
    by decide +kernel, by decide +kernel, rfl⟩

/-- Port 3 is enabled and owes the drain of slice 1. -/
def draining : Wing :=
  let v := (quiescing 464).setEff oEngCtrl 0x0008000C
  { v with drn := [(3, [(5, 1, false)])] }

theorem wit_QuiescesAndDrainsFinish_ports : draining.isActive = true ∧ draining.portEn 3 = true ∧
    (∃ x ∈ draining.drnOf 3, x.2.2 = false) ∧ (∀ x ∈ draining.drnOf 3, (x.1, x.2.1) ∈ draining.drainWants 3) ∧
    draining.vst.inbuf = [] :=
  ⟨by decide +kernel, by decide +kernel, ⟨(5, 1, false), by decide +kernel, rfl⟩, mem_of_all (by decide +kernel), rfl⟩

/-- A committed record of ring 1 waits for its tick; then the port accepts it. -/
def eventDue : Wing :=
  { withSlices active with ring := { active.ring with blocks := [{ tick := 1000, accs := [], commits := [(1, 5)] }] } }

def eventOut : Wing :=
  { withSlices active with ring := { active.ring with
      written := [{ tick := 1000, accs := [], commits := [] }], recOut := [(1, 4, 1000)] } }

theorem wit_EventRecords : eventDue.mayWrite = true ∧ (1000#56).toNat ≤ eventDue.now.toNat ∧
    eventDue.committed ((1000#56).toNat - 1) = true ∧ eventOut.running = true := by decide +kernel

/-- Slice 0 and slice 1 run with rings that have room, and vector `kA` is resident as `f` makes it. -/
def commanded (f : Ctx → Ctx) : Wing :=
  { withA active f with
    sl := [(0, { runningSlice with pasid := 0, evtLog2 := 12 }), (1, { runningSlice with evtLog2 := 10, csAllow := 1 })] }

def descOf (op : Byte) (a : CmdArgs) : Desc := { opcode := op, args := a, v2 := false }

def vecArgs : CmdArgs := { args0 with target := kA }

theorem mayAdmit_of {w : Wing} {ring : BitVec 12} {d : Desc}
    (h : (w.takesCmds && (w.slice ring).admits && w.mayStart ring d && !w.letterHold ring d && !w.dirtyHold ring d &&
      w.ringRoom ring 1 && w.roomDeferred (cmdRecords d)) = true) : w.mayAdmit ring d := by
  simp only [Bool.and_eq_true, Bool.not_eq_true'] at h
  exact ⟨h.1.1.1.1.1.1, h.1.1.1.1.1.2, h.1.1.1.1.2, h.1.1.1.2, h.1.1.2, h.1.2, h.2⟩

theorem wit_CommandsAreAdmitted : (commanded id).mayAdmit 0 (descOf opNop args0) ∧
    (commanded id).mayAdmit 1 (descOf opVecQuery { args0 with target := 5 }) :=
  ⟨mayAdmit_of (by decide +kernel), mayAdmit_of (by decide +kernel)⟩

/-- Each vector command passes its checks on a vector that is in the pantry. -/
theorem wit_VectorCommands : (∃ n sl, (commanded id).slotFor (cmdKey 0 kA) = some (n, sl)) ∧
    (∀ op ∈ [opVecCfg, opVecReset, opVecQuery, opPin, opUnpin],
      ((commanded id).takesCmds && (commanded id).mayStart 0 (descOf op vecArgs) && (commanded id).cmdCheck 0 (descOf op vecArgs) == 0) = true) ∧
    (commanded fun c => { c with state := .active }).mayAdmit 0 (descOf opVecComplete vecArgs) ∧
    (commanded fun c => { c with state := .active }).cmdCheck 0 (descOf opVecComplete vecArgs) = 0 ∧
    (commanded id).mayAdmit 0 (descOf opVecCfg vecArgs) :=
  ⟨⟨_, _, rfl⟩, mem_of_all (by decide +kernel), mayAdmit_of (by decide +kernel), by decide +kernel, mayAdmit_of (by decide +kernel)⟩

/-- The wing with slice 1 QUIESCED. -/
def stopped : Wing :=
  { active with sl := [(0, { runningSlice with pasid := 0, evtLog2 := 12 }), (1, { runningSlice with state := .quiesced, evtLog2 := 10 })] }

def sliceArgs (n : BitVec 12) : CmdArgs := { args0 with target := mkKey n 0 }

/-- FLUSH, SLICE_CREATE of slice 2, SLICE_SHARE and SLICE_QUIESCE of slice 1, LETTER_POST and NOP. -/
theorem wit_ManagerCommands : (commanded id).mayAdmit 0 (descOf opFlush args0) ∧ (commanded id).cmdCheck 0 (descOf opFlush args0) = 0 ∧
    (commanded id).mayAdmit 0 (descOf opCreate (sliceArgs 2)) ∧ (commanded id).cmdCheck 0 (descOf opCreate (sliceArgs 2)) = 0 ∧
    (commanded id).mayAdmit 0 (descOf opShare (sliceArgs 1)) ∧ (commanded id).cmdCheck 0 (descOf opShare (sliceArgs 1)) = 0 ∧
    (commanded id).mayAdmit 0 (descOf opQuiesce (sliceArgs 1)) ∧ (commanded id).cmdCheck 0 (descOf opQuiesce (sliceArgs 1)) = 0 ∧
    (commanded id).mayAdmit 0 (descOf opLetterPost (sliceArgs 1)) ∧ (commanded id).cmdCheck 0 (descOf opLetterPost (sliceArgs 1)) = 0 ∧
    (commanded id).cmdCheck 0 (descOf opNop args0) = 0 ∧ (commanded id).ring.finDue = [] ∧ (commanded id).flushes = [] :=
  ⟨mayAdmit_of (by decide +kernel), by decide +kernel, mayAdmit_of (by decide +kernel), by decide +kernel,
    mayAdmit_of (by decide +kernel), by decide +kernel, mayAdmit_of (by decide +kernel), by decide +kernel,
    mayAdmit_of (by decide +kernel), by decide +kernel, by decide +kernel, rfl, by decide +kernel⟩

/-- SLICE_RESET, SLICE_REMOVE and SLICE_RESUME of a slice that is QUIESCED. -/
theorem wit_ManagerCommands_stopped : stopped.mayAdmit 0 (descOf opReset (sliceArgs 1)) ∧ stopped.cmdCheck 0 (descOf opReset (sliceArgs 1)) = 0 ∧
    stopped.mayAdmit 0 (descOf opRemove (sliceArgs 1)) ∧ stopped.cmdCheck 0 (descOf opRemove (sliceArgs 1)) = 0 ∧
    stopped.mayAdmit 0 (descOf opResume (sliceArgs 1)) ∧ stopped.cmdCheck 0 (descOf opResume (sliceArgs 1)) = 0 :=
  ⟨mayAdmit_of (by decide +kernel), by decide +kernel, mayAdmit_of (by decide +kernel), by decide +kernel,
    mayAdmit_of (by decide +kernel), by decide +kernel⟩

/-- A descriptor of slice 0's ring was read, and a read of two more is on its way. -/
def described (again : Bool) : Wing :=
  { active with sl := [(0, { runningSlice with
      pasid := 0, evtLog2 := 12, cmdTail := 3, descs := [(0, descOf opNop args0)]
      descReads := [{ first := 1, count := 2, retried := again }] })] }

theorem wit_Descriptors : ((described false).slice 0).descs = [(((described false).slice 0).cmdHead, descOf opNop args0)] ∧
    ((described false).slice 0).failPos = none ∧ (described false).sliceNums = [0] ∧
    (described false).mayAdmit 0 (descOf opNop args0) ∧ (described false).isActive = true ∧
    ((described false).slice 0).descReads.find? (fun r => r.first == 1) = some { first := 1, count := 2, retried := false } ∧
    ((described true).slice 0).descReads.find? (fun r => r.first == 1) = some { first := 1, count := 2, retried := true } :=
  ⟨rfl, rfl, by decide +kernel, mayAdmit_of (by decide +kernel), by decide +kernel, by decide +kernel, by decide +kernel⟩

/-! ## Witnesses: records of the passage at a standby -/

/-- A frame of one lane with its seven blocks in, and records that it holds. -/
def frameWith (rs : SMap Rec) : RxFrame :=
  { tick := 999, map := some 1, accN := 0, data := (List.range 7).map fun i => (4 * i, 0), skip := [], took := [], accTook := 0
    recs := rs }

def wholeFrame : RxFrame := frameWith []

/-- The wing with a whole frame in, whose next record is `r`. -/
def withRec (v : Wing) (r : Rec) : Wing := { v with psg := { v.psg with rx := [frameWith [(0, r)]] } }

/-- The record is the one whose turn it is. -/
def turn (v : Wing) (r : Rec) : Bool := ((withRec v r).takeRec r).any fun x => x.1 == 999 && x.2.psg.rx.length == 1

theorem appliesNow_of {v : Wing} (h : v.receives = true ∧ v.ctl.role = .standby ∧ v.psg.hold = [] ∧ v.pan.reloads = []) : v.appliesNow := h

/-- A standby with vector `kA` in slot 3 and the observation of sequence 4 of slice 1's page. -/
def holding : Wing :=
  let v := withA standby id
  { v with vst := { v.vst with staged := [obsA 4], seqs := [(1, 4)] } }

def arr4 : ArriveRec := { arr0 with seq := 4, chk := 0xABCD }

theorem wit_ArriveRecords : holding.appliesNow ∧ arr4.discard = false ∧ arr4.esc = false ∧
    holding.heldAt (originIx arr4.cls arr4.num) arr4.seq = some (obsA 4) ∧ (obsA 4).chk = arr4.chk ∧
    (∃ n sl, holding.slotFor arr4.key = some (n, sl)) :=
  ⟨appliesNow_of (by decide +kernel), rfl, rfl, by decide +kernel, rfl, ⟨_, _, rfl⟩⟩

/-- The standby with `ctxA` in a state, last at core 9. -/
def standbyA (x : VState) : Wing := withA standby fun c => { c with state := x, hasLast := true, lastCore := 9 }

theorem wit_JournalRecords : (standbyA .presented).appliesNow ∧ (jr0 .claim).synth = false ∧
    (∃ n sl, (standbyA .presented).slotFor (jr0 .claim).entry.key = some (n, sl) ∧ sl.ctx.state = .presented ∧
      sl.ctx.lastCore = (jr0 .claim).porch) ∧
    (standbyA .active).appliesNow ∧ (∃ n sl, (standbyA .active).slotFor kA = some (n, sl) ∧ sl.ctx.state = .active) ∧
    (∃ n sl, (standbyA .idle).slotFor kA = some (n, sl) ∧ sl.ctx.state ≠ .presented ∧ sl.ctx.state ≠ .active) :=
  ⟨appliesNow_of (by decide +kernel), rfl, ⟨_, _, rfl, rfl, rfl⟩, appliesNow_of (by decide +kernel), ⟨_, _, rfl, rfl⟩,
    ⟨_, _, rfl, nofun, nofun⟩⟩

/-- A standby that holds the image of `kB`, TAG 0, and has slot 7 free. -/
def imaged : Wing := { standby with pan := { standby.pan with images := [{ ctx := ctxOfImage kB 0 0, tick := 990, causes := [.observed] }] } }

theorem wit_SteerRecords : (standbyA .pending).appliesNow ∧
    (∃ n sl, (standbyA .pending).slotFor kA = some (n, sl) ∧ sl.ctx.state = .pending ∧ cfgCoreset sl.ctx.cfg = 0) ∧
    imaged.appliesNow ∧ imaged.psg.ctxFills.find? (fun f => f.1 == kB) = none ∧
    (∃ i, imaged.pan.images.find? (fun i => i.ctx.key == kB) = some i ∧ i.ctx.tag = 0) ∧
    SMap.find? imaged.pan.slots (slotNo 0 7) = none ∧ SMap.find? (standbyA .pending).pan.slots (slotNo 0 3) ≠ none ∧
    (∀ i < 4, ((0x4001400240034004#64).extractLsb' (16 * i) 16 : BitVec 16).getLsbD 15 = false) :=
  ⟨appliesNow_of (by decide +kernel), ⟨_, _, rfl, rfl, by decide +kernel⟩, appliesNow_of (by decide +kernel), by decide +kernel,
    ⟨_, rfl, by decide +kernel⟩, by decide +kernel, by decide +kernel, by decide +kernel⟩

/-- A standby whose read of `kB` an observation started, and one with no read out; neither holds an image of it. -/
def readingB : Wing := { standby with pan := { standby.pan with
  fetches := [{ key := kB, causes := [.observed], issued := true, retried := false }] } }

theorem wit_SteerRecords_wait : readingB.appliesNow ∧ readingB.ownReadOut kB = true ∧ standby.ownReadOut kB = false ∧
    readingB.psg.ctxFills.find? (fun f => f.1 == kB) = none ∧ standby.psg.ctxFills.find? (fun f => f.1 == kB) = none ∧
    readingB.pan.images.find? (fun i => i.ctx.key == kB) = none ∧ standby.pan.images.find? (fun i => i.ctx.key == kB) = none :=
  ⟨appliesNow_of (by decide +kernel), by decide +kernel, by decide +kernel, by decide +kernel, by decide +kernel, by decide +kernel,
    by decide +kernel⟩

theorem wit_RingposRecords : (withSlices standby).appliesNow ∧ (withSlices standby).sliceNums.Nodup :=
  ⟨appliesNow_of (by decide +kernel), by decide +kernel⟩

theorem wit_RegwRecords : (regw0.dualPend = false ∧ { regw0 with dualPend := true }.dualPend = true) ∧ standby.appliesNow ∧
    oTkoCtrl = (if { regw0 with addr := BitVec.ofNat 32 oTkoCtrl }.space = 0 then
      ({ regw0 with addr := BitVec.ofNat 32 oTkoCtrl }.addr).toNat else ikey 0) :=
  ⟨⟨rfl, rfl⟩, appliesNow_of (by decide +kernel), by decide +kernel⟩

def cmd0 (op : Byte) (long : Bool) : CmdRec :=
  { opcode := op, result := 0, nExt := 1, long := long, fence := false, v2 := false, target := kA, operand := 0 }

/-- A standby whose last record was a CMD, one with an unfinished VEC_QUERY, and one with a FINISH that waits for its block. -/
def buffered : Wing := { withSlices standby with ring := { standby.ring with cmdBuf := some (cmd0 opNop false) } }

def unfinished : Wing :=
  { standby with sl := [(0, { runningSlice with
      ucmds := [{ pos := 2, opcode := opVecQuery, target := kA, operand := 0, operand2 := 0, cookie := 0, at_ := 0, applied := false }] })] }

def fin0 (n : Byte) : FinishRec :=
  { result := 0, ring := 0, hasLast := false, pos := 2, count := 0, cfgw := 0, status := 0, lastCore := 0, nParam := n }

def parts : Wing := { withSlices standby with ring := { standby.ring with finBuf := some (fin0 2) } }

theorem wit_CommandRecords : buffered.appliesNow ∧ buffered.ring.cmdBuf = some (cmd0 opNop false) ∧ buffered.ring.extBuf = none ∧
    (cmd0 opNop false).nExt.toNat ≤ 1 ∧ unfinished.appliesNow ∧
    (∃ u, unfinished.ucmdFor (fin0 0).ring (fin0 0).pos = some u ∧ isSliceOp u.opcode = false) ∧
    parts.appliesNow ∧ parts.ring.finBuf = some (fin0 2) ∧
    (SMap.insert parts.ring.params 0 (5 : DWord)).length < (fin0 2).nParam.toNat :=
  ⟨appliesNow_of (by decide +kernel), rfl, rfl, by decide, appliesNow_of (by decide +kernel), ⟨_, rfl, by decide +kernel⟩,
    appliesNow_of (by decide +kernel), rfl, by decide +kernel⟩

/-- The active wing with an arrival in a frame that is not acknowledged, and a standby that asked for it and for a context. -/
def sentOne : Wing := { active with vst := { active.vst with sentArr := [(999, obsA 4)] } }

def asking : Wing :=
  { standby with psg := { standby.psg with
      arrFills := [{ origin := originWord 0 1, seq := 4, asked := true, parts := [] }], ctxFills := [(kA, [])] } }

theorem wit_ResyncRecords : joining.running = true ∧ joining.ctl.role = .joining ∧ (withA active id).ownsFrame = true ∧
    (withA active id).pan.recent = [] ∧ (∃ n sl, (withA active id).slotFor kA = some (n, sl)) ∧ sentOne.ownsFrame = true ∧
    sentOne.vst.sentArr.find? (fun e => originWord e.2.cls e.2.num == originWord 0 1 && e.2.seq == 4) = some (999, obsA 4) ∧
    asking.appliesNow ∧ asking.psg.ctxFills = [(kA, [])] :=
  ⟨rfl, rfl, by decide +kernel, rfl, ⟨_, _, rfl⟩, by decide +kernel, by decide +kernel, appliesNow_of (by decide +kernel), rfl⟩

theorem wit_Frames : { standby with psg := { standby.psg with rx := [wholeFrame] } }.appliesNow ∧ standby.running = true ∧
    wholeFrame.whole = true ∧ wholeFrame.recs = [] ∧ active.ctl.claim.toNat < (6#32).toNat :=
  ⟨appliesNow_of (by decide +kernel), rfl, by decide +kernel, rfl, by decide⟩

/-! ## Witnesses: blocks and lanes -/

/-- Block 0 of a frame of tick 1000 on lane 0, all its records fill; its DATA and CHECK are 0. -/
def fillBlock : BitVec 2048 := 0x62B20000000003E8000001009C714EB3

/-- A training block on lane 0 that shows LOCKED, with the RS check of R228 over bytes 0x00 to 0xDF. -/
def trainBlock : BitVec 2048 := 0x5b11971baa8768e4ae8b5f0be40e5da1dfdedddcdbdad9d8d7d6d5d4d3d2d1d0cfcecdcccbcac9c8c7c6c5c4c3c2c1c0bfbebdbcbbbab9b8b7b6b5b4b3b2b1b0afaeadacabaaa9a8a7a6a5a4a3a2a1a09f9e9d9c9b9a999897969594939291908f8e8d8c8b8a898887868584838281807f7e7d7c7b7a797877767574737271706f6e6d6c6b6a696867666564636261605f5e5d5c5b5a595857565554535251504f4e4d4c4b4a494847464544434241403f3e3d3c3b3a393837363534333231302f2e2d2c2b2a292827262524232221201f1e1d1c1b1a191817161514131211100f0e0d0c0b0a0908070605040302010075d90080000003e8000000389c714eb3

/-- A fold over bytes that looks at each byte on its way. -/
def foldSeen (f : Byte → Byte → Byte) : List Byte → Byte → Byte
  | [], a => a
  | b :: l, a => if a.toNat < 256 then foldSeen f l (f a b) else a

theorem foldSeen_eq (f : Byte → Byte → Byte) (l : List Byte) (a : Byte) : foldSeen f l a = l.foldl f a := by
  induction l generalizing a with
  | nil => rfl
  | cons b l ih =>
    unfold foldSeen
    rw [if_pos a.isLt]
    exact ih (f a b)

/-- A codeword decodes to itself. -/
theorem rsDecode_word (c : List Byte)
    (h : ((List.range 16).all fun j => foldSeen (fun a b => rsMul a (rsAlpha j) ^^^ b) c 0 == 0) = true) :
    rsDecode c = some (c, 0) := by
  have e : (rsSyndromes c).all (· == 0) = true := by
    unfold rsSyndromes rsEval
    rw [List.all_map]
    simp only [foldSeen_eq] at h
    exact h
  unfold rsDecode
  simp only [e, if_true]

theorem blockData_of (x : BitVec 2048) (c : List Byte) (h1 : ((List.range 240).map fun i => byteAt x (16 + i)) = c)
    (h : ((List.range 16).all fun j => foldSeen (fun a b => rsMul a (rsAlpha j) ^^^ b) c 0 == 0) = true) :
    blockData x = some (ofBytes 1792 (c.take 224), 0) := by
  unfold blockData
  rw [h1, rsDecode_word c h]
  rfl

theorem zeros_fold (j n : Nat) : foldSeen (fun a b => rsMul a (rsAlpha j) ^^^ b) (List.replicate n 0) 0 = 0 := by
  induction n with
  | zero => rfl
  | succ n ih =>
    have z : rsMul 0 (rsAlpha j) ^^^ 0 = 0 := by
      have m : ∀ k (b p : Byte), gfMulAux rsRed k 0 b p = p := by
        intro k
        induction k with
        | zero => intros; rfl
        | succ k ihk =>
          intro b p
          unfold gfMulAux
          rw [show (0 : Byte).msb = false from rfl, show (if false = true then (0 : Byte) <<< 1 ^^^ rsRed else (0 : Byte) <<< 1) = 0 from rfl, ihk]
          simp
      unfold rsMul gfMul
      rw [m]
      decide
    rw [List.replicate_succ]
    unfold foldSeen
    rw [z]
    simpa using ih

/-- A standby whose lanes carry, and a joining wing whose lane 0 trains. -/
def lanes (v : Wing) (r : LaneRole) : Wing := v.setLane 0 { Lane.reset with role := r, rxlock := true, good := 63 }

theorem wit_BlocksFillFrames : (lanes standby .carry).receives = true ∧ ((lanes standby .carry).lane 0).role = .carry ∧
    syncFound fillBlock = true ∧ headerOk fillBlock = true ∧ blockData fillBlock = some (0, 0) ∧
    recordsOf 0 = some (List.replicate 14 .nop) ∧ (blockHdr fillBlock).blk = 0 ∧ (blockHdr fillBlock).replay = false ∧
    (lanes standby .carry).psg.rx = [] ∧ (lanes standby .carry).psg.ackValid = false := by
  refine ⟨by decide +kernel, by decide +kernel, by decide +kernel, by decide +kernel, ?_, by decide +kernel, by decide +kernel,
    by decide +kernel, rfl, rfl⟩
  rw [blockData_of fillBlock (List.replicate 240 0) (by decide +kernel) (by
    rw [List.all_eq_true]
    intro j _
    rw [zeros_fold]
    rfl)]
  decide +kernel

theorem trainBlock_check : ((List.range 16).all fun j => foldSeen (fun a b => rsMul a (rsAlpha j) ^^^ b)
    ((List.range 240).map fun i => byteAt trainBlock (16 + i)) 0 == 0) = true := by decide +kernel

theorem trainBlock_data : ofBytes 1792 (((List.range 240).map fun i => byteAt trainBlock (16 + i)).take 224) = trainingData 0 := by
  decide +kernel

theorem wit_Lanes_training : (lanes joining .training).passageRuns = true ∧ ((lanes joining .training).lane 0).role = .training ∧
    syncFound trainBlock = true ∧ headerOk trainBlock = true ∧ (blockHdr trainBlock).blk = 7 ∧ (blockHdr trainBlock).lane = 0 ∧
    blockData trainBlock = some (trainingData 0, 0) ∧ headerOk 0x9C714EB3 = false ∧ 63 ≤ ((lanes joining .training).lane 0).good := by
  refine ⟨by decide +kernel, by decide +kernel, by decide +kernel, by decide +kernel, by decide +kernel, by decide +kernel, ?_,
    by decide +kernel, by decide +kernel⟩
  rw [blockData_of trainBlock _ rfl trainBlock_check, trainBlock_data]

/-- The active wing has frame 999 kept and its block 2 of lane 1 named by a NAK; lane 3 is spare; lane 0 fails the fourth time. -/
def naked : Wing :=
  let v := { active with psg := { active.psg with
    map := 7, nakq := [{ tick := 999, lane := 1, blk := 2 }]
    sent := [{ tick := 999, map := 7, acc := [], ord := [], defr := [], rsy := [], replays := 0
               close := { role := 0, level := 0, recovery := false, fchk := 0, claim := 4, sig := 0, digest := 0 }, rxbad := 0 }] } }
  (v.setLane 3 { Lane.reset with role := .spare }).setLane 0 { Lane.reset with role := .carry, rxlock := true, fails := 3 }

theorem wit_ReplaysAndLanes : naked.isActive = true ∧ naked.psg.nakq = [{ tick := 999, lane := 1, blk := 2 }] ∧
    (∃ f, naked.psg.sent.find? (fun f => f.tick == 999) = some f) ∧ naked.spareLane = some 3 ∧ naked.passageRuns = true ∧
    (naked.lane 0).rxlock = true ∧ (naked.lane 0).used = true ∧ 3 ≤ (naked.lane 0).fails.toNat :=
  ⟨by decide +kernel, by decide +kernel, ⟨_, rfl⟩, by decide +kernel, by decide +kernel, by decide +kernel, by decide +kernel,
    by decide +kernel⟩

/-! ## Witnesses: claims, takeover and return -/

/-- The active wing in duplex, with tick 998 acknowledged, and one that has missed four. -/
def duplex (acked : Tick) (missing : Nat) : Wing :=
  { active with
    ctl := { active.ctl with duplex := true }
    psg := { active.psg with map := 7, ackedValid := true, acked := acked, missing := missing } }

def provisional : Wing := { active with ctl := { active.ctl with prov := some { releases := 2, answered := true } } }

theorem wit_LossOfTheStandby : (duplex 999 0).isActive = true ∧ (duplex 999 0).ctl.duplex = true ∧
    (duplex 999 0).now.toNat ≤ (duplex 999 0).psg.acked.toNat + 1 ∧ ¬ (duplex 998 0).now.toNat ≤ (duplex 998 0).psg.acked.toNat + 1 ∧
    4 ≤ (duplex 994 4).psg.missing ∧ (duplex 994 4).psg.acked.toNat + 6 ≤ (duplex 994 4).now.toNat ∧
    (duplex 994 4).ctl.seen.toNat + 2 < 2 ^ 32 ∧ (duplex 994 4).hbLimit ≤ 4 ∧ 4 < ((duplex 994 4).setEff oTkoCtrl 0x705).hbLimit ∧
    provisional.isActive = true ∧ provisional.ctl.refused = false := by decide +kernel

/-- HB_LIMIT heartbeats are missing. -/
def silent (v : Wing) : Wing := { v with psg := { v.psg with hbMiss := 4 }, pch := { v.pch with status := [(9, 0x4000)] } }

def walked (mark : Bool) : Wing := silent { joining with ctl := { joining.ctl with joinPos := some 5, mark := mark } }

theorem wit_TakeoverRaisesTheClaim : (silent standby).running = true ∧ (silent standby).hbLimit ≤ (silent standby).psg.hbMiss ∧
    (silent standby).ctl.seen.toNat + 2 < 2 ^ 32 ∧ (silent standby).ctl.role = .standby ∧ (9 : Byte) ∈ (silent standby).upPorches ∧
    (walked true).ctl.role = .joining ∧ (walked true).ctl.joinPos ≠ none ∧ (walked true).ctl.mark = true ∧
    (walked false).ctl.mark = false ∧ (walked false).hbLimit ≤ (walked false).psg.hbMiss := by decide +kernel

def heldWrites : Wing := { active with ctl := { active.ctl with writesHeld := true, answered := true } }

def peerJoins : State := east { active with psg := { active.psg with peerJoining := true, map := 7 } }

theorem wit_WritesRecoveryAndResync : heldWrites.isActive = true ∧ heldWrites.ctl.refused = false ∧ heldWrites.ctl.tkoPhase = none ∧
    { active with ctl := { active.ctl with recovery := true } }.pan.reloads = [] ∧ active.recheckWaits = false ∧
    (peerJoins.wing .east).isActive = true ∧ (peerJoins.wing .east).ctl.sendPos = none ∧ (peerJoins.wing .east).ctl.duplex = false ∧
    (peerJoins.wing .east).autoResync = true ∧ (peerJoins.wing .east).forced = false ∧ 0 < lanesIn (peerJoins.wing .east).psg.map ∧
    (peerJoins.wing .west).ctl.suspect = false ∧ (peerJoins.wing .west).int.spent = false ∧
    active.hbLimit = { active with ctl := { active.ctl with sendPos := some 9, rsySilent := 4 } }.ctl.rsySilent := by decide +kernel

/-- The end of a walk at both wings. -/
def walkedOut : Wing := { joining with ctl := { joining.ctl with joinPos := some walkEnd, joinTick := 998 } }
def walkSent : Wing := { active with ctl := { active.ctl with sendPos := some walkEnd, joinTick := 998 } }

/-- A wing that has been active for 2^22 ticks, and a standby in the tick after the handover's. -/
def settled : Wing := { active with ctl := { active.ctl with stable := 0x400000 } }
def handed : Wing :=
  let v := { standby with psg := { standby.psg with ackValid := true, ack := 999 } }
  (v.setEff oTkoHandover 999).setEff (oTkoHandover + 4) 0x80000000

theorem wit_ResyncAndHandover : walkedOut.running = true ∧ walkedOut.ctl.joinPos = some walkEnd ∧ walkedOut.psg.hold = [] ∧
    walkedOut.psg.rx = [] ∧ walkSent.ctl.sendPos = some walkEnd ∧ walkSent.ctl.backlog = [] ∧
    walkSent.ctl.joinTick.toNat + 2 = walkSent.now.toNat ∧ 2 ^ 22 ≤ settled.ctl.stable.toNat ∧ settled.autoReturn = true ∧
    settled.handoverPending = false ∧ handed.handoverPending = true ∧ handed.now = handed.handoverTick + 1 ∧
    handed.psg.ack = handed.handoverTick ∧ handed.ctl.seen.toNat + 2 < 2 ^ 32 := by decide +kernel

/-! ## Witnesses: power and the hearth -/

/-- The active wing at tick 1024 with a demand, at a level, with LEVEL_AUTO as its reset value has it. -/
def demanding (l : Level) (d : Nat) : Wing := { at1024 active with pwr := { active.pwr with level := l, dmax := d } }

theorem wit_LevelsAreChosen : (demanding .p3 40).isActive = true ∧ (demanding .p3 40).levelOut = false ∧
    (demanding .p3 40).levelFresh = false ∧ (demanding .p3 40).levelAuto = true ∧
    3 * (demanding .p3 40).levelBudget .p3 < 4 * (demanding .p3 40).pwr.dmax ∧
    (demanding .p3 40).pwr.dmax + ((demanding .p3 40).pwr.dmax + 3) / 4 ≤ (demanding .p3 40).levelBudget .p0 ∧
    (∀ k ∈ [Level.p1, .p2, .p3], (demanding .p3 40).levelBudget k < 40 + (40 + 3) / 4) ∧
    ((demanding .p0 0).setEff oPwrCtrl 0x00F4102C).levelAuto = false ∧
    Level.code .p1 = ((demanding .p0 0).setEff oPwrCtrl 0x00F4102C).fixedLevel ∧
    { demanding .p0 0 with pwr := { active.pwr with want := some .p1 } }.levelOut = true := by
  refine ⟨by decide +kernel, by decide +kernel, by decide +kernel, by decide +kernel, by decide +kernel, by decide +kernel, ?_,
    by decide +kernel, by decide +kernel, by decide +kernel⟩
  intro k hk
  simp only [List.mem_cons, List.not_mem_nil, or_false] at hk
  rcases hk with rfl | rfl | rfl <;> decide +kernel

def changing (l m : Level) : Wing := { active with pwr := { active.pwr with level := l, next := some (m, 1000) } }

theorem wit_LevelChange : (changing .p0 .p1).pwr.next = some (.p1, (changing .p0 .p1).now) ∧
    (changing .p0 .p1).pwr.level.code.toNat ≤ Level.p1.code.toNat ∧ (changing .p2 .p0).running = true ∧
    Level.p0.code.toNat < (changing .p2 .p0).pwr.level.code.toNat ∧ (changing .p2 .p0).ctl.role = .active := by decide +kernel

/-- An entry that is due in this tick, with quiet ticks behind it, and with none. -/
def sleepy (n : BitVec 2) (q : DWord) (v : Wing) : Wing := { v with pwr := { v.pwr with sched := some (n, 1000), quiet := q } }

theorem wit_NapEntries : (sleepy 1 64 active).running = true ∧ (sleepy 1 64 active).changeDue 1 = true ∧
    (sleepy 1 64 active).entryRefusal false = none ∧ (sleepy 1 0 active).changeDue 1 = true ∧ (sleepy 1 0 active).pwr.quiet = 0 ∧
    (sleepy 1 0 active).ctl.duplex = false ∧ napping.pwr.sched = none ∧ napping.ctl.role ≠ .standby ∧
    { active with life := .napEntry }.pwr.pendWake = none ∧ (sleepy 0 0 napping).changeDue 0 = true ∧ napping.changeDue 0 = false := by
  decide +kernel

/-- A wing that may keep its state in a save area. -/
def saving (v : Wing) : Wing := v.setEff oPwrSaveBase 0x00200001

def deep (v : Wing) : Wing := { v with life := .deep }

/-- The west wing in Deep, with an anchor. -/
def deepWest : Wing :=
  { Wing.reset .west with life := .deep, keyValid := true, hrt := { Hearth.reset with ancValid := true, ancTick := 65536, ancRaw := 0x10, raw := 0x20 } }

def area : SaveArea := { words := [], trailer := saveTrailer [] 6 7 500 }

theorem readTrailer_area : readTrailer area = some (6, 7, 500) := by
  have h1 : area.trailer.extractLsb' 0 160 = trailerHead 6 7 500 := by
    unfold area saveTrailer
    exact low_append _ (trailerHead 6 7 500)
  have h2 : area.trailer.extractLsb' 160 32 = saveCrc [] (trailerHead 6 7 500) := by
    exact mid_append 0#320 _ (trailerHead 6 7 500)
  unfold readTrailer
  simp only [h1, h2]
  rw [if_pos ⟨by decide +kernel, rfl⟩]
  decide +kernel

theorem wit_DeepTurnsOff : (sleepy 2 64 (saving active)).changeDue 2 = true ∧ (sleepy 2 64 (saving active)).entryRefusal true = none ∧
    (sleepy 2 64 (saving standby)).changeDue 2 = true ∧ (sleepy 2 64 (saving standby)).entryRefusal true = none ∧
    deepWest.isHome = false ∧ deepWest.hrt.powered = true ∧ deepWest.hrt.ancValid = true ∧ (deep active).isHome = true ∧
    (saving (deep active)).isHome = true ∧ (saving (deep active)).saveValid = true ∧ (7#32).toNat + 2 < 2 ^ 32 ∧
    { active with life := .deepWake }.pwr.enterTick.toNat + 4096 > { active with life := .deepWake }.now.toNat := by decide +kernel

theorem wit_DeepJoinTimeout : { at1024 active with life := .deepWake, ctl := { active.ctl with tick := 4096 } }.pwr.enterTick.toNat + 4096 ≤
    { at1024 active with life := .deepWake, ctl := { active.ctl with tick := 4096 } }.now.toNat := by decide +kernel

/-- The hearth, powered and not, its calendar locked and not. -/
theorem wit_HearthKeepsTime : active.hrt.powered = true ∧ { active with ctl := { active.ctl with tick := 65536 } }.running = true ∧
    { active with ctl := { active.ctl with tick := 65536 } }.now.toNat % 65536 = 0 ∧ active.ctl.hasTick = true ∧
    active.calLocked = false ∧ (active.setCfg oTimeLock 2).calLocked = true := by decide +kernel

/-! ## Witnesses: integrity and spares -/

def vote0 (a b c : BitVec 96) : VoteFind := { code := 5, index := 0, err0 := a, err1 := b, err2 := c }

theorem wit_Votes : (vote0 0 0 0).err0 = 0 ∧ ((vote0 0 4 0).err0 = 0 ∧ (vote0 0 4 0).err1 ≠ 0 ∧ (vote0 0 4 0).err2 = 0) ∧
    ((vote0 1 2 4).err0 ≠ (vote0 1 2 4).err1 ∧ (vote0 1 2 4).err1 ≠ (vote0 1 2 4).err2 ∧ (vote0 1 2 4).err0 ≠ (vote0 1 2 4).err2) := by
  decide

/-- A wing at a multiple of its wear window, 2^22 ticks by the reset value of INT_WEAR_CTRL; a wing one of whose banks is worn. -/
def windowDue : Wing := { active with ctl := { active.ctl with tick := 0x400000 } }
def worn (u : Nat) : Wing := { active with int := { active.int with worn := [u] } }

theorem wit_PassesWindowsAndMoves : active.running = true ∧
    windowDue.now.toNat % 2 ^ (windowDue.wearCtrl.extractLsb' 19 5 : BitVec 5).toNat = 0 ∧ (worn 3).mayMove = true ∧
    (worn 3).dueBanks = [3] ∧ (worn 3).spareBank = some 64 ∧ (worn 3).logicalBank 3 = some 3 ∧ (worn (sliceUnit 2)).dueBanks = [] ∧
    (worn (sliceUnit 2)).dueSlices = [2] ∧ (worn (sliceUnit 2)).spareSlice = some 8 ∧ (worn (sliceUnit 2)).logicalSlice 2 = some 2 := by
  decide +kernel

/-! ## Witnesses: the register port -/

def acc (k : BitVec 16) (strb : Byte) (data : DWord) : RegAccess := { alias_ := false, addr := k, data := data, strb := strb, req := 3 }

/-- A wing that has been active and is not in bring-up. -/
def seasoned : Wing := { active with ctl := { active.ctl with seenActive := true } }

/-- A legal and an illegal HB_LIMIT stand apart; the high half of a pair; a standby past bring-up. -/
theorem wit_MirroredWrites : seasoned.life = .run ∧ seasoned.regs.portHeld = none ∧ seasoned.regs.portQueue = [] ∧
    isMirrored oTkoCtrl = true ∧ dualBit oTkoCtrl = none ∧ oTkoCtrl = 0x500 / 8 * 8 ∧ seasoned.lastTick = false ∧
    seasoned.inBringUp = false ∧ seasoned.locked oTkoCtrl = false ∧ valueOk oTkoCtrl 0x702 = true ∧ valueOk oTkoCtrl 0x701 = false ∧
    { seasoned with ctl := { seasoned.ctl with role := .standby } }.takesMirrored = false := by decide +kernel

def held (r : RegwRec) : HeldWrite := { recs := [r], req := 3, path := 0, strb := 0x0F, old := [], dual := [] }

theorem wit_MirroredWrites_answer : seasoned.recCommitted regw0 = true ∧
    { seasoned with psg := { seasoned.psg with defr := [.regw regw0] } }.recCommitted regw0 = false ∧
    (∀ r ∈ (held regw0).recs, r = regw0) :=
  ⟨by decide +kernel, by decide +kernel, by simp [held]⟩

theorem wit_Reads : seasoned.regs.indCap = none ∧ (acc 0x4000 0xFF 0).addr.toNat = 0x4000 ∧ (acc 0x4FF8 0xFF 0).addr.toNat < 0x5000 ∧
    oRegErrLog / 8 * 8 = oRegErrLog ∧ oIndData / 8 * 8 = (BitVec.ofNat 16 oIndData).toNat / 8 * 8 ∧
    isMirrored (ikey { seasoned with regs := { seasoned.regs with indAddr := 0x80000 } }.regs.indAddr.toNat) = true := by decide +kernel

/-- Strobes of two runs, and of a run at an address that its length does not divide. -/
theorem wit_UnalignedAccesses : (∀ f < 8, ∀ n ∈ [1, 2, 4, 8], n ∣ f → f + n ≤ 8 →
      ¬ ∀ j, j < 8 → (0x05#8).getLsbD j = decide (f ≤ j ∧ j < f + n)) ∧
    ∀ f < 8, ∀ n ∈ [1, 2, 4, 8], n ∣ f → f + n ≤ 8 → ¬ ∀ j, j < 8 → (0x1E#8).getLsbD j = decide (f ≤ j ∧ j < f + n) := by
  decide +kernel

/-- Locks that are open and shut, and dual control with nothing pending, the same value, and another. -/
def shut : Wing := seasoned.setCfg oCfgLock 1
def firstWrite (v : Word) : Wing :=
  { seasoned with regs := { seasoned.regs with dual := [{ addr := oTkoForce, val := v, req := 4, at_ := 1000 - 65536 + 65536 }] } }

theorem wit_LocksAndDualControl : seasoned.takesMirrored = true ∧ isMirrored 0x220 = true ∧ shut.locked 0x220 = true ∧
    shut.takesMirrored = true ∧ dualBit oTkoForce ≠ none ∧ seasoned.locked oTkoForce = false ∧ seasoned.dualFor oTkoForce = none ∧
    (∃ h, (firstWrite 1).dualFor oTkoForce = some h ∧ h.val = 1 ∧ h.req ≠ (acc 0 0 0).req ∧
      (firstWrite 1).now.toNat ≤ h.at_.toNat + 65536) ∧
    (firstWrite 1).dualCheck oTkoForce 1 = true :=
  ⟨by decide +kernel, by decide +kernel, by decide +kernel, by decide +kernel, by decide +kernel, by decide +kernel,
    by decide +kernel, ⟨_, rfl, rfl, by decide, by decide +kernel⟩, by decide +kernel⟩

/-! ## Witnesses: the forms that wait, fail or do nothing -/

def journalFull : Porch := { up with journal := journalOf 8 }

theorem wit_CompletionsAndRaisesAreQueued_forms : up.live = true ∧ up.waiting = [] ∧ portGenOf 0x5555555555555555 9 = 0b01 ∧
    portGenOf State.reset.east.portGen 9 ≠ 0b01 ∧ (16#32).extractLsb' 4 28 ≠ 0#28 ∧ (15#32).extractLsb' 4 28 = 0#28 ∧
    (2#2).toNat = 2 ∧ Porch.off.on = false ∧ up.on = true ∧ up.takes (.cp 0b10 kA) = true ∧ journalFull.takes (.cp 0b10 kA) = false ∧
    { up with waiting := [(.cp 0b10 kA, .agree, true)] }.waiting ≠ [] := by decide +kernel

/-- A wing that votes for no porch domain. -/
def voteless : Wing := active.setEff oPwrPchVote 0

theorem wit_PorchDomains_else : (east voteless).domainHeld 1 0 = false ∧ { domainOne up with east := voteless }.domainHeld 1 0 = false ∧
    State.reset.domainHeld 1 1 = false ∧
    { domainOne up with east := active }.domainHeld 1 1 = true ∧
    (domainOne two).domainHeld 1 0 = false ∧ (domainOne two).domainIsOn 1 = true ∧ 8#8 ∈ domainPorches 1 ∧
    ((domainOne two).porch 8).empty = false := by decide +kernel

theorem wit_ApertureWritesRegister_else : State.reset.east.aptLive = false ∧ napping.aptLive = true ∧ napping.running = false ∧
    (sleepy 1 64 napping).pwr.sched.isSome = true ∧ AptRange.of (wr 0x400 0 0xF).pageOff = .none ∧
    AptRange.of (wr 0x200 0xE 3).pageOff = .cmd ∧ ringed.doorbellCheck (wr 0x200 0xE 3) 0x200 ≠ none ∧
    isArrivalWrite (wr 0 5 0xFFFFFFFF) = true ∧ isArrivalWrite (wr 0x200 0xE 0xF) = false := by decide +kernel

/-- A letter to slice 0's page, which has no letterbox. -/
def letter0 : AptWrite := { off := 0x300, data := 9, strb := 0xF, pasidP := true, pasid := 0, req := 2 }

theorem wit_LettersReadsAndAlarmEdges_else : (withSlices active).running = true ∧ (withSlices active).vst.inbuf = [] ∧
    AptRange.of letter0.pageOff = .letter ∧ (withSlices active).doorbellCheck letter0 0x300 = none ∧ letter0.slice = 0 ∧
    State.reset.east.aptLive = false ∧ napping.hrt.powered = true ∧ napping.life = .nap ∧
    { active with hrt := { active.hrt with powered := false } }.hrt.powered = false := by decide +kernel

/-- A porch with a raise in its queue, and one whose RAISE beat is on its way to the east wing. -/
def raising : Porch := { up with raiseq := [(3, 1)] }
def raised : Porch := { up with raiseE := [(3, 1)] }

theorem wit_SourcesAndRaisesRegister_beats :
    (((atPorch raising).porch 9).raisesTo .east ++ ((atPorch raising).porch 9).raiseq).head? = some (3, 1) ∧
    ((atPorch raising).porch 9).raisesTo .east = [] ∧ ((atPorch raising).porch 9).hears = true ∧
    (((atPorch raised).porch 9).raisesTo .east ++ ((atPorch raised).porch 9).raiseq).head? = some (3, 1) ∧
    ((atPorch raised).porch 9).raisesTo .east ≠ [] ∧
    (((atPorch up).porch 9).raisesTo .east ++ ((atPorch up).porch 9).raiseq).head? = none ∧ Porch.off.hears = false ∧
    Porch.off.raisesTo .east = [] ∧ State.reset.east.life ∉ [Life.run, .nap, .napEntry] := by decide +kernel

theorem wit_BeatsReachTheWing_else : State.reset.east.takesBeats = false ∧ standby.takesBeats = true ∧ standby.ctl.role ≠ .active ∧
    (BitVec.toNat (9#8)) ∈ { (replaying (entryOf 5 kA)).pch with ended := [9] }.ended ∧
    (9#8).toNat ∉ (replaying (entryOf 5 kA)).pch.ended := by decide +kernel

theorem wit_AcceptancesAreRecorded_else : SMap.find? active.hall.offered 9 = none ∧ active.isActive = true ∧ standby.isActive = false ∧
    SMap.find? offering.hall.offered 9 = some [offA] := by decide +kernel

theorem wit_RefuseDemotes_walk : active.takesBeats = true ∧ walkSent.takesBeats = true ∧ walkSent.ctl.sendPos.isSome = true ∧
    (silent standby).takesBeats = true := by decide +kernel

theorem wit_ReplaysApplyNewEntries_marks : (claimedAt (replaying (entryOf 4 kA))).isActive = true ∧
    (SMap.find? (claimedAt (replaying (entryOf 4 kA))).pch.replay 9).isSome = true ∧
    9 ∉ (claimedAt (replaying (entryOf 4 kA))).pch.ended ∧ standby.isActive = false ∧ SMap.find? active.pch.replay 9 = none ∧
    { (claimedAt (replaying (entryOf 5 kA))).pch with ended := [9] }.ended = [9] ∧
    (claimedAt (replaying (entryOf 5 kA))).mayCarry kA = true ∧
    (∃ n sl, (claimedAt (replaying (entryOf 5 kA))).slotFor kA = some (n, sl) ∧ sl.ctx.state = .presented ∧ sl.ctx.lastCore = 9) :=
  ⟨by decide +kernel, by decide +kernel, by decide +kernel, by decide +kernel, by decide +kernel, rfl, by decide +kernel,
    ⟨_, _, rfl, rfl, rfl⟩⟩

/-- The same wing a tick later, which has closed the tick of the window's end. -/
def closed (v : Wing) : Wing := { v with ctl := { v.ctl with tick := 1001 } }

theorem wit_WindowsImagesAndFilterEntriesEnd_close : (closed (completedA 0)).running = true ∧
    (closed (completedA 0)).closedTick = some 1000 ∧
    (∃ n sl, (closed (completedA 0)).slotFor kA = some (n, sl) ∧ sl.ctx.state = .completed ∧ sl.ctx.modEnd = 1000) ∧
    (completedA 0).closedTick = some 999 ∧ (∃ n sl, (withA active id).slotFor kA = some (n, sl) ∧ sl.ctx.state ≠ .completed) ∧
    State.reset.east.running = false ∧ joining.closedTick = none ∧ active.slotFor kA = none ∧ active.receives = false :=
  ⟨by decide +kernel, by decide +kernel, ⟨_, _, rfl, rfl, rfl⟩, by decide +kernel, ⟨_, _, rfl, nofun⟩, by decide +kernel,
    by decide +kernel, by decide +kernel, by decide +kernel⟩

theorem wit_CellarReads_else : State.reset.east.running = false ∧ active.pan.fetches = [] ∧ (reading standby true).running = true ∧
    (reading standby true).ownsFrame = false ∧
    (∃ f, (reading standby true).pan.fetches.find? (fun f => f.key == kA && f.issued) = some f ∧ f.retried = true) ∧
    tagOk (reading active false).key ((integrityTag 0 0 kA domainVector + 1) ++ 0#224) kA domainVector = false :=
  ⟨by decide +kernel, by decide +kernel, by decide +kernel, by decide +kernel, ⟨_, rfl, rfl⟩, tagOk_wrong _ _ _ _⟩

theorem wit_SpillReturnsAndWriteBacks_else : State.reset.east.running = false ∧ active.pan.wbuf = [] ∧
    writing.ctl.role = .active ∧ (∀ e ∈ writing.sl, ∀ u ∈ e.2.ucmds, u.opcode ≠ opVecReset) ∧
    { writing with ctl := standby.ctl }.ctl.role ≠ .active := by
  refine ⟨by decide +kernel, by decide +kernel, by decide +kernel, ?_, by decide +kernel⟩
  intro e he
  exact absurd he (by rw [show writing.sl = [] from rfl]; exact List.not_mem_nil)

theorem wit_StudyCountsAndReports_else : State.reset.east.running = false ∧ active.now.toNat % 64 ≠ 0 ∧
    (at1024 { active with hall := { active.hall with nextCount := 1088 } }).now.toNat <
      (at1024 { active with hall := { active.hall with nextCount := 1088 } }).hall.nextCount.toNat ∧
    (at1024 active).ownsFrame = true ∧ (at1024 standby).ownsFrame = false ∧ (at1024 standby).running = true ∧
    active.hall.resident.find? (fun e => e.1 == 1#12) = none ∧ (stranded.slice 0).strand < 16 * stranded.resDelay := by decide +kernel

/-- The job of slice 2's create, with the first half of its block in, or read again; the command is unfinished in slice 0's ring. -/
def creating (op : Byte) (ph : JobPhase) (got retried : List Bool) (b : BitVec 1024) : Wing :=
  { readingBlock active 2 with sl := [(0, { runningSlice with
        pasid := 0, evtLog2 := 12
        ucmds := [{ pos := 3, opcode := op, target := mkKey 2 0, operand := 0x600000, operand2 := 0, cookie := 0, at_ := 990, applied := true }] }),
      (2, { SliceSt.reset with
        state := .creating, vtLog2 := 6, evtLog2 := 10
        job := some { pos := 3, opcode := op, phase := ph, param := b, left := 0, got := got, retried := retried } })] }

/-- The first half of a block, and a block for slice 0, whose event ring is larger. -/
def low (b : BitVec 1024) : BitVec 1024 := (b.extractLsb' 0 512).setWidth 1024

def block12 : BitVec 1024 :=
  ofBytes 1024 ([1, 0, 4, 0, 16, 0, 1] ++ List.replicate 57 0 ++ [9] ++ List.replicate 7 0 ++ [6, 0x10, 0, 0, 0, 0, 0, 0] ++
    [6, 0x20, 0, 0, 0, 0, 0, 0] ++ [4, 0x30, 0, 0, 0, 0, 0, 0] ++ [12, 0, 2, 0, 0, 0, 0, 0] ++ [0, 0x50, 0, 0, 0, 0, 0, 0])

def jobOf (ph : JobPhase) (got retried : List Bool) (b : BitVec 1024) : Job :=
  { pos := 3, opcode := opCreate, phase := ph, param := b, left := 0, got := got, retried := retried }

theorem wit_SliceJobsAdvance_halves : ((creating opCreate .reading [] [] 0).slice 2).job = some (jobOf .reading [] [] 0) ∧
    (creating opCreate .reading [] [] 0).ownsFrame = true ∧ (creating opCreate .reading [] [] 0).finishing 0 3 = false ∧
    ((creating opCreate .reading [false] [true] (low block0)).slice 2).job = some (jobOf .reading [false] [true] (low block0)) ∧
    (creating opCreate .reading [false] [true] (low block0)).createCheck 2
      ((jobOf .reading [false] [true] (low block0)).take true (block0.extractLsb' 512 512)).param = 0 ∧
    (creating opCreate .reading [false] [true] (low block0)).createCheck 2
      ((jobOf .reading [false] [true] (low block0)).take true 0).param ≠ 0 ∧
    (creating opCreate .reading [] [] 0).ring.blockReads.find? (fun x => x.1 == 2 && x.2.1 == false) = some (2, false, true) ∧
    (creating opCreate .reading [false] [true] (low block0)).ring.blockReads.find? (fun x => x.1 == 2 && x.2.1 == true) =
      some (2, true, true) ∧
    (withJob opCreate .reading).ring.blockReads.find? (fun x => x.1 == 2 && x.2.1 == true) = none ∧
    (∃ u, (creating opCreate .reading [false] [true] (low block0)).ucmdFor 0 3 = some u ∧ u.opcode = opCreate) ∧
    (creating opCreate .reading [false] [true] (low block0)).ring.finDue = [] ∧
    (creating opCreate .reading [false] [true] (low block0)).roomDeferred 12 = true :=
  ⟨rfl, by decide +kernel, by decide +kernel, rfl, by decide +kernel, by decide +kernel, by decide +kernel, by decide +kernel,
    by decide +kernel, ⟨_, rfl, rfl⟩, rfl, by decide +kernel⟩

/-- A vector of slice 2 that is PRESENTED holds the wait of a reset. -/
def releaseHeld : Wing :=
  let v := creating opReset .waiting [] [] 0
  { v with pan := { v.pan with slots := [(3, { ctx := { ctxOfImage (mkKey 2 5) 0 0 with state := .presented }, steer := Steer.reset })] } }

theorem wit_SliceJobsAdvance_else : ((creating opCreate .writing [] [] 0).slice 2).job = some (jobOf .writing [] [] 0) ∧
    releaseHeld.ownsFrame = true ∧ ((releaseHeld.slice 2).job.map Job.phase) = some .waiting ∧
    (releaseHeld.ctxs.any fun c => keySlice c.key == 2 && c.state == .presented) = true := by decide +kernel

/-- A START whose block is being read, before the key's boundary and after it. -/
def booting (l : Life) (got retried : List Bool) : Wing :=
  { readingBlock (Wing.reset .east) 0 with
    life := l, keyValid := true
    ctl := { Ctl.reset .east with booting := true }
    sl := [(0, { SliceSt.reset with
      job := some { pos := 0, opcode := opCreate, phase := .reading, param := low block12, left := 0, got := got, retried := retried } })] }

theorem wit_SliceJobsAdvance_boot :
    (booting .run [false] [true]).ring.blockReads.find? (fun x => x.1 == 0 && x.2.1 == true) = some (0, true, true) ∧
    (booting .keyWait [] []).ctl.booting = true ∧ (booting .run [false] [true]).life = .run ∧
    (((booting .run [false] [true]).slice 0).job.map Job.phase) = some .reading ∧
    (booting .run [false] [true]).createCheck 0 ((jobOf .reading [false] [true] (low block12)).take true 0).param ≠ 0 ∧
    (booting .run [false] [true]).createCheck 0
      ((jobOf .reading [false] [true] (low block12)).take true (block12.extractLsb' 512 512)).param = 0 := by decide +kernel

theorem wit_QuiescesAndDrainsFinish_else : standby.ownsFrame = false ∧ ((commanded id).slice 1).state ≠ .quiescing ∧
    ((quiescing 465).slice 1).quiesceTick.toNat + 65536 > (quiescing 465).now.toNat ∧ standby.isActive = false ∧
    (∀ x ∈ draining.drnOf 3, x.2.2 = true ∨ (x.1, x.2.1) ∈ draining.drainWants 3 ∧ draining.reported 3 (x.1, x.2.1) = false) ∧
    draining.ownsFrame = true ∧ standby.running = true ∧ standby.vst.inbuf = [] :=
  ⟨by decide +kernel, by decide +kernel, by decide +kernel, by decide +kernel, mem_of_all (by decide +kernel), by decide +kernel,
    by decide +kernel, rfl⟩

/-- The oldest buffered write waits for its slice's spill ring. -/
def stuck : Wing :=
  let full : Spill := { head := 0, tail := 16, items := List.replicate 16 (obsA 1), reads := [], retried := false, dead := [] }
  let v := withSlices active
  { v with
    sl := [(0, { runningSlice with pasid := 0 }), (1, { runningSlice with stageShare := 0 })]
    vst := { v.vst with inbuf := [(wr 0 5 0xFFFFFFFF, true)], spill := [(1, full)] } }

theorem wit_QuiescesAndDrainsFinish_waits : stuck.running = true ∧ stuck.vst.inbuf = [(wr 0 5 0xFFFFFFFF, true)] ∧
    stuck.blocks (wr 0 5 0xFFFFFFFF) = true := by decide +kernel

theorem wit_EventRecords_else : (∀ r ∈ eventOut.ring.recOut, ¬ (r.1 = 2#12 ∧ r.2.1 = 4#32)) ∧ standby.mayWrite = false ∧
    State.reset.east.running = false :=
  ⟨mem_of_all (by decide +kernel), by decide +kernel, by decide +kernel⟩

theorem wit_CommandsAreAdmitted_else : standby.takesCmds = false ∧ (stopped.slice 2).admits = false ∧
    (described false).mayStart 0 (descOf opNop args0) = true := by decide +kernel

theorem wit_VectorCommands_frame : ∀ f : FinishRec, Rec.finish f ∉ (commanded id).psg.defr := by
  intro f
  rw [show (commanded id).psg.defr = [] from rfl]
  exact List.not_mem_nil

theorem wit_Descriptors_else : standby.takesCmds = false ∧ ((described false).slice 0).ringHalt = false ∧
    { runningSlice with ringHalt := true }.ringHalt = true ∧ standby.isActive = false ∧
    (((described false).slice 0).descReads.find? (fun r => r.first == 7)) = none ∧ (described false).takesCmds = true := by decide +kernel

/-! ## Witnesses: records in their turn -/

theorem takes_of {v : Wing} {r : Rec} (h : turn v r = true) : ∃ tk x, (withRec v r).takeRec r = some (tk, x) := by
  unfold turn at h
  cases e : (withRec v r).takeRec r with
  | none => rw [e] at h; exact absurd h (by decide)
  | some p => exact ⟨p.1, p.2, rfl⟩

theorem wit_ArriveRecords_turn : active.takeRec (.arrive arr4) = none ∧
    (∃ tk x, (withRec holding (.arrive arr4)).takeRec (.arrive arr4) = some (tk, x)) ∧
    (withRec holding (.arrive arr4)).appliesNow ∧
    (withRec holding (.arrive arr4)).heldAt (originIx arr4.cls arr4.num) arr4.seq = some (obsA 4) ∧
    (withRec holding (.arrive arr4)).receives = true ∧
    { (withRec holding (.arrive arr4)).psg with hold := [(998, Rec.nop)] }.hold ≠ [] :=
  ⟨by decide +kernel, takes_of (by decide +kernel), appliesNow_of (by decide +kernel), by decide +kernel, by decide +kernel,
    List.cons_ne_nil _ _⟩

/-- A filtered discard, a lost spill, and an arrival of which this wing holds nothing. -/
def arrFilter : ArriveRec := { arr4 with discard := true, cause := dcFilter }
def arrLost : ArriveRec := { arr4 with discard := true, cause := dcSpillLost }
def arr9 : ArriveRec := { arr4 with seq := 9 }

theorem wit_ArriveRecords_others : (∃ tk x, (withRec holding (.arrive arrFilter)).takeRec (.arrive arrFilter) = some (tk, x)) ∧
    (withRec holding (.arrive arrFilter)).heldAt (originIx arrFilter.cls arrFilter.num) arrFilter.seq = some (obsA 4) ∧
    arrFilter.cause ≠ dcSpillLost ∧ arrFilter.esc = false ∧
    (∃ tk x, (withRec holding (.arrive arrLost)).takeRec (.arrive arrLost) = some (tk, x)) ∧
    (∃ tk x, (withRec holding (.arrive arr9)).takeRec (.arrive arr9) = some (tk, x)) ∧
    (withRec holding (.arrive arr9)).ownObs arr9 = none ∧ (withRec holding (.arrive arr9)).psg.arrFills = [] :=
  ⟨takes_of (by decide +kernel), by decide +kernel, by decide +kernel, rfl, takes_of (by decide +kernel), takes_of (by decide +kernel),
    by decide +kernel, by decide +kernel⟩

theorem wit_JournalRecords_turn :
    (∃ tk x, (withRec (standbyA .presented) (.claim (jr0 .claim))).takeRec (.claim (jr0 .claim)) = some (tk, x)) ∧
    (withRec (standbyA .presented) (.claim (jr0 .claim))).appliesNow ∧
    (∃ n sl, (withRec (standbyA .presented) (.claim (jr0 .claim))).slotFor kA = some (n, sl) ∧ sl.ctx.state = .presented ∧
      sl.ctx.lastCore = 9) ∧
    (∃ tk x, (withRec (standbyA .active) (.complete (jr0 .complete))).takeRec (.complete (jr0 .complete)) = some (tk, x)) ∧
    (∃ n sl, (withRec (standbyA .active) (.complete (jr0 .complete))).slotFor kA = some (n, sl) ∧ sl.ctx.state = .active ∧
      sl.ctx.lastCore = 9) ∧
    (∃ n sl, (withRec (standbyA .idle) (.complete (jr0 .complete))).slotFor kA = some (n, sl) ∧ sl.ctx.state = .idle) :=
  ⟨takes_of (by decide +kernel), appliesNow_of (by decide +kernel), ⟨_, _, rfl, rfl, rfl⟩, takes_of (by decide +kernel),
    ⟨_, _, rfl, rfl, rfl⟩, ⟨_, _, rfl, rfl⟩⟩

def acceptA : AcceptRec := { porch := 9, key := kA }
def installB : InstallRec := { bank := 0, slot := 7, key := kB, tag := 0 }
def coreRec2 : CoreStateRec := { group := 2, rchkN := 0, words := 0x4001400240034004 }

theorem wit_SteerRecords_turn : (∃ tk x, (withRec (standbyA .pending) (.accept acceptA)).takeRec (.accept acceptA) = some (tk, x)) ∧
    (withRec (standbyA .pending) (.accept acceptA)).appliesNow ∧
    (∃ tk x, (withRec imaged (.install installB)).takeRec (.install installB) = some (tk, x)) ∧
    (∃ i, (withRec imaged (.install installB)).pan.images.find? (fun i => i.ctx.key == kB) = some i ∧ i.ctx.tag = 0) ∧
    (∃ tk x, (withRec standby (.install installB)).takeRec (.install installB) = some (tk, x)) ∧ standby.pan.images = [] ∧
    (∃ tk x, (withRec (standbyA .pending) (.modwin { win := 3, key := kA })).takeRec (.modwin { win := 3, key := kA }) = some (tk, x)) ∧
    (∃ tk x, (withRec (standbyA .pending) (.target { cluster := 2, bank := 0, slot := 3, key := kA, coreset := 0 })).takeRec
      (.target { cluster := 2, bank := 0, slot := 3, key := kA, coreset := 0 }) = some (tk, x)) ∧
    (∃ tk x, (withRec standby (.residency { slice := 1, count := 3, prio := 40 })).takeRec
      (.residency { slice := 1, count := 3, prio := 40 }) = some (tk, x)) ∧
    (∃ tk x, (withRec standby (.coreState coreRec2)).takeRec (.coreState coreRec2) = some (tk, x)) :=
  ⟨takes_of (by decide +kernel), appliesNow_of (by decide +kernel), takes_of (by decide +kernel), ⟨_, rfl, by decide +kernel⟩,
    takes_of (by decide +kernel), rfl, takes_of (by decide +kernel), takes_of (by decide +kernel), takes_of (by decide +kernel),
    takes_of (by decide +kernel)⟩

def regwTko : RegwRec := { regw0 with addr := BitVec.ofNat 32 oTkoCtrl, val := 0x705 }

theorem wit_ConfigRecords_turn : (∃ tk x, (withRec standby (.regw regwTko)).takeRec (.regw regwTko) = some (tk, x)) ∧
    (withRec standby (.regw regwTko)).appliesNow ∧
    (∃ tk x, (withRec standby (.level { level := 2, tick := 1026 })).takeRec (.level { level := 2, tick := 1026 }) = some (tk, x)) ∧
    (∃ tk x, (withRec standby (.drain { port := 3, pasid := 5, gen := 1 })).takeRec (.drain { port := 3, pasid := 5, gen := 1 }) =
      some (tk, x)) ∧
    (∃ tk x, (withRec standby (.quar { recheck := false, key := kA })).takeRec (.quar { recheck := false, key := kA }) = some (tk, x)) ∧
    (∃ tk x, (withRec standby (.letter { fromMgr := true, slice := 1, lseq := 1, letter := 7 })).takeRec
      (.letter { fromMgr := true, slice := 1, lseq := 1, letter := 7 }) = some (tk, x)) ∧
    (∃ tk x, (withRec (withSlices standby) (.doorbell { slice := 1, kind := 0, pos := 3 })).takeRec
      (.doorbell { slice := 1, kind := 0, pos := 3 }) = some (tk, x)) ∧
    (∃ tk x, (withRec (withSlices standby) (.done 990)).takeRec (.done 990) = some (tk, x)) :=
  ⟨takes_of (by decide +kernel), appliesNow_of (by decide +kernel), takes_of (by decide +kernel), takes_of (by decide +kernel),
    takes_of (by decide +kernel), takes_of (by decide +kernel), takes_of (by decide +kernel), takes_of (by decide +kernel)⟩

def ext0 : CmdExtRec := { part := 0, ring := 1, pos := 0, data := 9 }

theorem wit_CommandRecords_turn : (∃ tk x, (withRec standby (.cmd (cmd0 opNop false))).takeRec (.cmd (cmd0 opNop false)) = some (tk, x)) ∧
    (∃ tk x, (withRec buffered (.cmdExt ext0)).takeRec (.cmdExt ext0) = some (tk, x)) ∧ (withRec buffered (.cmdExt ext0)).appliesNow ∧
    (withRec buffered (.cmdExt ext0)).ring.cmdBuf = some (cmd0 opNop false) ∧ (withRec buffered (.cmdExt ext0)).ring.extBuf = none ∧
    (∃ tk x, (withRec unfinished (.finish (fin0 0))).takeRec (.finish (fin0 0)) = some (tk, x)) ∧
    (∃ u, (withRec unfinished (.finish (fin0 0))).ucmdFor 0 2 = some u ∧ isSliceOp u.opcode = false) ∧
    (∃ tk x, (withRec parts (.param { off := 0, data := 5 })).takeRec (.param { off := 0, data := 5 }) = some (tk, x)) :=
  ⟨takes_of (by decide +kernel), takes_of (by decide +kernel), appliesNow_of (by decide +kernel), by decide +kernel, by decide +kernel,
    takes_of (by decide +kernel), ⟨_, rfl, by decide +kernel⟩, takes_of (by decide +kernel)⟩

def copy0 : CopyRec := { space := 0, pos := 0, data := 0x80000000000003E8 }
def fetchA : FetchRec := { what := 1, origin := 0, seqOrKey := kA }
def fetchObs : FetchRec := { what := 2, origin := originWord 0 1, seqOrKey := 4 }
def arrivalPart0 : ArrivalRec := { part := 0, origin := originWord 0 1, seq := 4, data := 9 }
def fillPart0 : FillRec := { part := 0, bank := 0, slot := 3, key := kA, data := 9 }

theorem wit_ResyncRecords_turn : (∃ tk x, (withRec joining (.copy copy0)).takeRec (.copy copy0) = some (tk, x)) ∧
    (∃ tk x, (withRec (withA active id) (.fetch fetchA)).takeRec (.fetch fetchA) = some (tk, x)) ∧
    (∃ tk x, (withRec sentOne (.fetch fetchObs)).takeRec (.fetch fetchObs) = some (tk, x)) ∧
    (∃ tk x, (withRec asking (.arrival arrivalPart0)).takeRec (.arrival arrivalPart0) = some (tk, x)) ∧
    (withRec asking (.arrival arrivalPart0)).appliesNow ∧
    (∃ tk x, (withRec asking (.fill fillPart0)).takeRec (.fill fillPart0) = some (tk, x)) ∧ active.takeRec (.copy copy0) = none :=
  ⟨takes_of (by decide +kernel), takes_of (by decide +kernel), takes_of (by decide +kernel), takes_of (by decide +kernel),
    appliesNow_of (by decide +kernel), takes_of (by decide +kernel), by decide +kernel⟩

/-! ## Witnesses: frames, claims, power, units and the port where nothing is due -/

def received (v : Wing) : Wing := { v with psg := { v.psg with rx := [wholeFrame] } }

theorem wit_Frames_else : State.reset.east.passageRuns = false ∧ active.passageRuns = true ∧ (received joining).receives = true ∧
    (received joining).ctl.role = .joining ∧ (received joining).ctl.withdrawAt = none ∧ (received standby).pan.reloads = [] ∧
    (received standby).psg.ackValid = false ∧ standby.endable = none ∧ active.receives = false := by decide +kernel

/-- A standby that has applied frame 1000, and lost lanes. -/
theorem wit_BlocksFillFrames_else :
    { (lanes standby .carry).psg with ackValid := true, ack := 1000 }.ack.toNat = 1000 ∧
    ({ lanes standby .carry with psg := { (lanes standby .carry).psg with ackValid := true, ack := 1000 } }).frameTick
      (blockHdr fillBlock).tick = 1000 ∧
    ({ lanes standby .carry with psg := { (lanes standby .carry).psg with ackValid := true, ack := 999 } }).frameTick
      (blockHdr fillBlock).tick = 1000 ∧
    syncFound 0 = false ∧ (standby.lane 0).used = false ∧ (standby.lane 0).role ≠ .training ∧
    State.reset.east.passageRuns = false := by decide +kernel

/-- A spare lane answers the NAK; none is left; the frame is no longer kept. -/
def nakedFull : Wing := { naked with psg := { naked.psg with spareSent := 7 } }
def nakedOld : Wing := { active with psg := { active.psg with nakq := [{ tick := 900, lane := 1, blk := 2 }] } }

theorem wit_ReplaysAndLanes_else : naked.replayLane = some (3, false) ∧ nakedFull.replayLane = none ∧ nakedFull.isActive = true ∧
    (∃ f, nakedFull.psg.sent.find? (fun f => f.tick == 999) = some f) ∧
    nakedOld.psg.sent.find? (fun f => f.tick == 900) = none ∧ nakedOld.psg.nakq ≠ [] ∧ standby.isActive = false ∧
    active.psg.nakq = [] ∧ (active.lane 2).rxlock = false ∧ State.reset.east.passageRuns = false ∧
    ((lanes joining .training).lane 0).good = 63 :=
  ⟨by decide +kernel, by decide +kernel, by decide +kernel, ⟨_, rfl⟩, by decide +kernel, by decide +kernel, by decide +kernel,
    by decide +kernel, by decide +kernel, by decide +kernel, by decide +kernel⟩

theorem wit_LossOfTheStandby_else : (duplex 999 0).ctl.hasTick = true ∧ (duplex 999 0).psg.ackedValid = true ∧
    (duplex 994 4).psg.ackClosed = false ∧ (duplex 994 3).psg.missing < 4 ∧ standby.ctl.role ≠ .active ∧ active.ctl.duplex = false ∧
    active.ctl.prov = none ∧ provisional.ctl.prov = some { releases := 2, answered := true } ∧
    { active with ctl := { active.ctl with refused := true } }.ctl.refused = true := by decide +kernel

/-- A joining wing that has seen an active wing, and one that has not. -/
theorem wit_TakeoverRaisesTheClaim_else : (walked true).inBringUp = false ∧ (walked true).running = true ∧
    { (Wing.reset .east) with life := .run }.inBringUp = true ∧ { (Wing.reset .east) with life := .run }.ctl.role = .joining ∧
    State.reset.east.running = false ∧ standby.psg.hbMiss < standby.hbLimit ∧ active.ctl.role = .active ∧
    { joining with ctl := { joining.ctl with role := .orphan } }.ctl.role = .orphan := by decide +kernel

theorem wit_WritesRecoveryAndResync_else : standby.isActive = false ∧ active.ctl.writesHeld = false ∧
    { heldWrites with ctl := { heldWrites.ctl with answered := false, tkoPhase := some 9 } }.ctl.tkoPhase = some 9 ∧
    active.ctl.recovery = false ∧ walkSent.ctl.sendPos ≠ none ∧ active.psg.peerJoining = false ∧
    walkSent.ctl.rsySilent < walkSent.hbLimit ∧ walkSent.isActive = true := by decide +kernel

theorem wit_ResyncAndHandover_else : walkedOut.ctl.role = .joining ∧ walkedOut.pan.reloads = [] ∧ walkedOut.psg.ackValid = false ∧
    settled.ctl.stable.toNat = 2 ^ 22 ∧ settled.isActive = true ∧ settled.ctl.returning = false ∧ handed.isStandby = true ∧
    handed.psg.ackValid = true ∧ active.ctl.joinPos ≠ some walkEnd ∧ active.ctl.sendPos ≠ some walkEnd ∧
    active.ctl.stable.toNat ≠ 2 ^ 22 ∧ active.isStandby = false ∧ standby.handoverPending = false := by decide +kernel

theorem wit_LevelsAreChosenAndChange_else : standby.isActive = false ∧ active.now.toNat % 64 ≠ 0 ∧
    ({ active with pwr := { active.pwr with next := some (.p1, 1001) } }).pwr.next = some (Level.p1, active.now + 1) ∧
    active.pwr.next = none ∧ (at1024 active).isActive = true ∧ (at1024 active).now.toNat % 64 = 0 ∧
    { at1024 active with pwr := { active.pwr with want := some .p1 } }.levelOut = true ∧
    { changing .p2 .p0 with ctl := standby.ctl }.ctl.role = .standby ∧ (active.pwr.quiet = 0) := by decide +kernel

theorem wit_NapEntries_else : active.changeDue 1 = false ∧ State.reset.east.running = false ∧ active.running = true ∧
    (sleepy 1 64 active).ctl.role = .active ∧ active.life ≠ .nap ∧ active.life ≠ .napEntry ∧
    (sleepy 0 0 napping).life = .nap ∧ { sleepy 0 0 active with life := .napEntry }.changeDue 0 = true := by decide +kernel

theorem wit_DeepTurnsOffAndRestores_else : active.changeDue 2 = false ∧ active.life ≠ .deep ∧ active.life ≠ .deepWake ∧
    (saving { at1024 active with life := .deepWake }).saveValid = true ∧ deepWest.life = .deep ∧
    (deep active).saveValid = false := by decide +kernel

theorem wit_HearthKeepsTime_else : { active with life := .deepEntry }.life = .deepEntry ∧ active.now.toNat % 65536 ≠ 0 ∧
    State.reset.east.ctl.hasTick = false ∧ State.reset.east.hrt.powered = true ∧
    { active.hrt with calPend := true, calSet := 5, pairPend := true }.pairPend = true ∧
    { active.hrt with powered := false }.powered = false := by decide +kernel

/-- A bank's move whose copy scan is over, and a scan slice's that may end. -/
def moving (slice : Bool) (old spare : Nat) (scan : Option Tick) : Wing :=
  { active with int := { active.int with
      move := some { slice := slice, old := old, spare := spare, ready := 998, scan := scan } } }

theorem wit_PassesWindowsAndMoves_end : (moving false 3 64 (some 999)).logicalBank 3 = some 3 ∧
    (999#56).toNat + (moving false 3 64 (some 999)).scanTicks ≤ (moving false 3 64 (some 999)).now.toNat ∧
    (moving true 2 8 none).scanBegins = true ∧ (moving true 2 8 none).logicalSlice 2 = some 2 ∧ (moving true 2 8 none).mayMove = false ∧
    active.dueBanks = [] ∧ active.dueSlices = [] ∧ State.reset.east.passageRuns = false ∧
    active.now.toNat % 2 ^ (active.wearCtrl.extractLsb' 19 5 : BitVec 5).toNat ≠ 0 := by decide +kernel

/-- A signature pass that is due, with a running value that agrees with the signed words, and one that does not. -/
def passDue (v : Wing) : Wing := { v with ctl := { v.ctl with tick := 10232 }, int := { v.int with passAt := 1000, sigRun := signatureOf v.signedWords } }

theorem signedWords_passDue (v : Wing) : (passDue v).signedWords = v.signedWords := rfl

theorem wit_SignaturePass : (passDue active).running = true ∧
    (passDue active).int.passAt.toNat + 9232 ≤ (passDue active).now.toNat ∧
    signatureOf (passDue active).signedWords ^^^ (passDue active).int.passMiss = (passDue active).int.sigRun ∧
    (∀ x : Word, signatureOf (passDue active).signedWords ^^^ (x + 1) ≠ signatureOf (passDue active).signedWords ^^^ x) ∧
    isSigned oTkoCtrl = true ∧ active.now.toNat < active.int.passAt.toNat + 9232 := by
  refine ⟨by decide +kernel, by decide +kernel, ?_, ?_, by decide +kernel, by decide +kernel⟩
  · rw [signedWords_passDue]
    exact BitVec.xor_zero
  · intro x h
    exact absurd ((BitVec.xor_right_inj _).1 h) (by simp)

/-- R352: what ends a move: the map names the spare, and the worn bank is RETIRED. -/
theorem test_moveStep : (moving false 3 64 (some 999)).moveStep.repBank 3 = 64 ∧
    ((moving false 3 64 (some 999)).moveStep.physBank 3).state = 3 ∧ ((moving false 3 64 (some 999)).moveStep.physBank 64).state = 1 := by
  decide +kernel

theorem wit_VotesAndEcc_else : State.reset.east.running = false ∧ (vote0 4 0 0).err1 = 0 ∧
    ({ array := 1, unit := 3, index := 0, corrected := true : EccFind }).corrected = true ∧
    ({ array := 6, unit := 2, index := 0, corrected := false : EccFind }).corrected = false := by decide +kernel

def busy : Wing := { seasoned with regs := { seasoned.regs with portHeld := some (held regw0) } }

theorem wit_MirroredWritesAreCarried_port : State.reset.east.life = .held ∧ (deep active).life = .deep ∧ busy.life = .run ∧
    busy.regs.portHeld ≠ none ∧ busy.regs.portQueue = [] ∧ seasoned.regs.portHeld = none := by decide +kernel

/-! ## Witnesses: the steps of a tick boundary -/

/-- Porch 9 has sent a CLAIM entry, or two completions, for vector `kA`, PRESENTED or ACTIVE at its core, and `n` records of each kind
may go. -/
def collecting (es : List Entry) (n : Nat) : Wing :=
  let v := claimedAt active
  { v with pch := { v.pch with entries := [(9, es)] }, vst := { v.vst with clmLeft := n, cmpLeft := n } }

def completion (q : BitVec 16) : Entry := { kind := .complete, accTick := 0, prio := 0, jseq := q, key := kA }

def passOf (v : Wing) : Pass := { wing := v, claims := 0, completes := 0 }

/-- Vector `kA` is being read again. -/
def lostA : Reload := { slot := 3, key := kA, pin := false, steer := Steer.reset, uncertain := false, copied := false, lostBank := false, parts := [] }

theorem wit_CollectionTakesEntries : (∀ q, q ≠ 9 → SMap.get (collecting [entryOf 1 kA] 1).pch.entries [] q = []) ∧
    SMap.get (collecting [entryOf 1 kA] 1).pch.entries [] 9 = [entryOf 1 kA] ∧
    SMap.find? (collecting [entryOf 1 kA] 1).pch.replay 9 = none ∧
    [entryOf 1 kA].find? (fun e => e.kind != .complete) = some (entryOf 1 kA) ∧ firstComplete [] [entryOf 1 kA] = none ∧
    firstComplete [] ([entryOf 1 kA].erase (entryOf 1 kA)) = none ∧ (collecting [entryOf 1 kA] 1).collectable (entryOf 1 kA) = true ∧
    (collecting [entryOf 1 kA] 0).vst.clmLeft = 0 ∧ (SMap.find? (replaying (entryOf 5 kA)).pch.replay 9).isSome = true ∧
    { collecting [entryOf 1 kA] 1 with pan := { active.pan with reloads := [lostA] } }.collectable
      (entryOf 1 kA) = false := by
  refine ⟨?_, by decide +kernel, by decide +kernel, by decide +kernel, by decide +kernel, by decide +kernel, by decide +kernel,
    by decide +kernel, by decide +kernel, by decide +kernel⟩
  intro q hq
  have e : (collecting [entryOf 1 kA] 1).pch.entries = [(9, [entryOf 1 kA])] := rfl
  rw [e]
  simp [SMap.get, SMap.find?, Ne.symm hq]

theorem wit_CollectionTakesEntries_complete : (∀ x ∈ [completion 1, completion 2], x.kind = .complete) ∧
    SMap.find? (collecting [completion 1, completion 2] 1).pch.replay 9 = none ∧
    (collecting [completion 1, completion 2] 1).collectable (completion 1) = true ∧
    (∃ n sl, (collecting [entryOf 1 kA] 1).slotFor kA = some (n, sl) ∧ sl.ctx.state = .presented ∧ sl.ctx.lastCore = 9) :=
  ⟨mem_of_all (by decide +kernel), by decide +kernel, by decide +kernel, ⟨_, _, rfl, rfl, rfl⟩⟩

/-- R133: a claim and a completion of one porch go in one visit; the next pass starts behind the porch. -/
theorem test_visit : ((passOf (collecting [entryOf 1 kA, completion 2] 1)).visit 9).wing.psg.ord.length = 2 ∧
    ((passOf (collecting [entryOf 1 kA, completion 2] 1)).visit 9).wing.pch.rr = 10 ∧
    (((passOf (collecting [entryOf 1 kA, completion 2] 1)).visit 9).wing.ctx? kA).map (·.state) = some .completed := by decide +kernel

/-- The active wing holds a staged arrival on `kA` with `n` slots of budget, in a ring with or without room. -/
def admittingA (n : Nat) (room : Bool) : Wing :=
  let v := withSlices (withA active id)
  { v with
    sl := [(0, { runningSlice with pasid := 0 }), (1, { runningSlice with evtLog2 := if room then 10 else 1 })]
    ctl := { v.ctl with tkoPhase := none }
    vst := { v.vst with staged := [obsA 4], arrLeft := n } }

theorem wit_StagedArrivalsAreAdmitted : (admittingA 1 true).vst.staged = [obsA 4] ∧ (admittingA 1 true).vst.escDue = [] ∧
    (obsA 4).cls ≠ 3 ∧ (obsA 4).outcome = false ∧ (obsA 4).escCause = 0 ∧ (obsA 4).isOf (admittingA 1 true).vst.poison = false ∧
    (obsA 4).isOf (admittingA 1 true).vst.spillLost = false ∧ (obsA 4).isOf (admittingA 1 true).vst.doomed = false ∧
    (admittingA 1 true).admissionCheck (obsA 4) true = none ∧ (admittingA 1 true).admitting (obsA 4) = true ∧
    keySlice (obsA 4).key ∉ (admittingA 1 true).vst.underCmd ∧ (admittingA 1 true).isQuarantined (obsA 4).key = false ∧
    (admittingA 1 true).canCarry (obsA 4) 1 = true ∧ (admittingA 0 true).vst.arrLeft = 0 := by decide +kernel

theorem wit_StagedArrivalsAreAdmitted_room :
    (∃ n sl, (admittingA 1 true).slotFor (obsA 4).key = some (n, sl) ∧ sl.ctx.poisoned = false ∧
      (admittingA 1 true).ringRoom 1 (owesOf (obsA 4) sl.ctx) = true ∧ (admittingA 1 false).ringRoom 1 (owesOf (obsA 4) sl.ctx) = false) :=
  ⟨_, _, rfl, rfl, by decide +kernel, by decide +kernel⟩

/-- A view of the hall in which `kA` is PENDING and core 9 may take it. -/
def viewA : View :=
  { pg := 0
    img := { tick := 999, slots := [(3, { ctx := { ctxA with state := .pending, count := 1, arrTick := 990 }, steer := Steer.reset })]
             cores := (List.range 64).map fun c => (c, { cur := 1, sleep := 0, on := true, fault := false })
             eff := [], routes := [], muted := [] } }

theorem wit_RankingsOfferTheBest : (viewA.img.slots.map Prod.fst).Nodup ∧ (viewA.img.slots.map fun e => e.2.ctx.key).Nodup ∧
    (∃ n sl x, viewA.img.slots = [(n, sl)] ∧ viewA.scan (coreUses viewA.img.slots) n sl = some x ∧ x.elig ≠ []) := by
  refine ⟨by decide +kernel, by decide +kernel, 3, _, _, rfl, rfl, by decide +kernel⟩

theorem test_rank : ((viewA.rank viewA.img.slots [] (fun _ => true) [] 4).offers.map Offer.key) = [kA] ∧
    (viewA.rank viewA.img.slots [] (fun _ => true) [(kA, 9)] 4).offers = [] ∧
    (viewA.rank viewA.img.slots [] (fun _ => true) [] 0).offers = [] := by decide +kernel

/-- Porch 9 is up at the active wing; a release with one offer to it. -/
def releasing : Wing := { active with pch := { active.pch with status := [(9, 0x4000)] } }

def offerA : Ranking := { Ranking.empty with offers := [{ porch := 9, rank := offA, key := kA }] }

theorem wit_ReleasesReachThePorches : releasing.upPorches = [9] ∧ active.upPorches = [] := by decide +kernel

theorem test_release : ((releasing.release viewA.img offerA).out.length = 2) ∧ (releasing.release viewA.img offerA).psg.accOwed = 1 ∧
    SMap.find? (releasing.release viewA.img offerA).hall.offered 9 = some [offA] := by decide +kernel

theorem wit_FramesOfATick : (duplex 999 0).psg.acc.length + (duplex 999 0).psg.ord.length ≤ (duplex 999 0).frameSlots ∧
    (duplex 999 0).lastTick = false ∧ { handed with ctl := { handed.ctl with role := .active } }.lastTick = true ∧
    lanesIn (duplex 999 0).psg.map ≠ 0 ∧ lanesIn active.psg.map = 0 ∧ lanesIn (lanes standby .carry).usedLanes ≠ 0 ∧
    lanesIn standby.usedLanes = 0 ∧ standby.ctl.role = .standby ∧ standby.vst.spill = [] ∧ standby.dueAlarms = [] := by decide +kernel

/-- R229: a frame with one deferred record on three lanes takes it and leaves none. -/
theorem test_frame : (({ duplex 999 0 with psg := { (duplex 999 0).psg with defr := [.done 990] } }).frame 0).defr = [.done 990] ∧
    (({ duplex 999 0 with psg := { (duplex 999 0).psg with defr := [.done 990] } }).frame 0).tick = 1000 := by decide +kernel

theorem wit_TickBoundaryTakesItsSteps : active.life = .run ∧ active.isActive = true ∧ standby.life = .run ∧ standby.isActive = false := by
  decide +kernel

theorem wit_ClaimsStayApart : State.reset.claimsSound ∧
    (∀ w fs, (State.reset.pending.head? = some (.voteWalk w fs)) → False) ∧ voteMajority (vote0 0 4 0) = 0 := by
  refine ⟨⟨⟨rfl, rfl, by decide⟩, ⟨rfl, rfl, by decide⟩⟩, ?_, by decide +kernel⟩
  intro w fs h
  cases h

/-! ## Witnesses: the clauses of this and that state -/

/-- A port that answers NONE under LIMIT 10, BUSY with a full journal, and ERROR for a reserved operation or bit. -/
theorem wit_ClaimsTakeTheBestOffer_else : two.best = some offA ∧ rkAlarm offA = false ∧
    ((10#32).extractLsb' 0 9 : BitVec 9).toNat ≤ (rkPrio offA).toNat ∧ (rkPrio offA).toNat < ((11#32).extractLsb' 0 9 : BitVec 9).toNat ∧
    { two with journal := journalOf 8 }.best = some offA ∧ { two with journal := journalOf 8 }.live = true ∧
    (10#32).extractLsb' 9 23 = 0#23 ∧ (0x400#32).extractLsb' 9 23 ≠ 0#23 := by decide +kernel

/-- A porch in FAULT, and one that is off. -/
theorem wit_PorchesTakeNoBeat : { up with fault := true }.fault = true ∧ { up with fault := true }.on = true ∧ Porch.off.on = false ∧
    up.hears = true := by decide +kernel

/-- A wing that a wake from Deep keeps waiting for a raw edge, with a latch set in the raw period of the wake. -/
def waking : Wing :=
  { active with
    life := .deepWake
    ctl := { active.ctl with rawWait := some none, hasTick := false }
    hrt := { active.hrt with raw := 5, wake := hrtWakeWord 0xA 0 5 } }

theorem wit_AlarmLatch_wake : waking.hrt.powered = true ∧ waking.life = .deepWake ∧ waking.ctl.rawWait.isSome = true ∧
    waking.hrt.wake.extractLsb' 0 24 = (waking.hrt.raw.extractLsb' 0 24 : BitVec 24) := by decide +kernel

theorem wit_Sleep_latches : { wired active with life := .deepEntry }.life = .deepEntry ∧
    srcEnabled ({ wired active with life := .deepEntry }.srcCfg 3) = true ∧ standby.takesBeats = true := by decide +kernel

/-- The save area is being written. -/
def savingNow : Wing := { active with life := .deepEntry, pwr := { active.pwr with saveAt := some 900 } }

theorem wit_SaveWrites : savingNow.life = .deepEntry ∧ savingNow.pwr.saveAt ≠ none ∧ (7#32) ∉ savingNow.pwr.wbRetried ∧
    active.life ≠ .deepEntry := by decide +kernel

theorem wit_ResetAndBringUp_else : startable.portSleeps = false ∧ startable.regs.portHeld = none ∧ startable.regs.portQueue = [] ∧
    startable.hrt.ancValid = false ∧ startable.pan.fetches = [] ∧ startable.ring.blockReads = [] ∧ startable.sl = [] ∧
    startable.readsOut ≤ 126 ∧ { startable with hrt := { startable.hrt with ancValid := true } }.canStart = true ∧
    { startable with life := .nap }.portSleeps = true ∧ waking.ctl.rawWait = some none ∧ waking.hrt.powered = true := by decide +kernel

/-- An escalation of the arrival that a standby holds. -/
def arrEsc : ArriveRec := { arr4 with esc := true, cause := 1 }

theorem wit_ArriveRecords_esc : (∃ tk x, (withRec holding (.arrive arrEsc)).takeRec (.arrive arrEsc) = some (tk, x)) ∧
    (withRec holding (.arrive arrEsc)).heldAt (originIx arrEsc.cls arrEsc.num) arrEsc.seq = some (obsA 4) ∧ arrEsc.discard = false ∧
    (obsA 4).carries = true :=
  ⟨takes_of (by decide +kernel), by decide +kernel, rfl, rfl⟩

/-- A context as it was installed, while its frame is not acknowledged. -/
theorem wit_ResyncRecords_recent :
    ({ active.pan with recent := [((999 : Tick), 3, ctxA)] }.recent.filter fun (e : Tick × Nat × Ctx) => e.2.2.key == kA).getLast? =
      some (999, 3, ctxA) ∧ (∀ e ∈ (withA active id).pan.recent, e.2.2.key ≠ kA) :=
  ⟨by decide +kernel, nofun⟩

theorem wit_TakeoverRaisesTheClaim_spent : { walked true with int := { (walked true).int with spent := true } }.int.spent = true ∧
    (walked true).int.spent = false := by decide +kernel

/-- A standby that has not yet applied the frame of the handover's tick, before and after its claim is raised. -/
theorem wit_Handover_else : { handed with psg := { handed.psg with ack := 998 } }.psg.ack ≠ handed.handoverTick ∧
    handed.handoverTick.toNat < handed.now.toNat ∧ handed.ctl.claim ≠ handed.ctl.seen ∧
    { handed with ctl := { handed.ctl with seen := 4 } }.ctl.claim = { handed with ctl := { handed.ctl with seen := 4 } }.ctl.seen := by
  decide +kernel

/-- The home wing at the boundary at which its counter starts, with a save area and without one, and the other wing. -/
def starting (v : Wing) (save : Option SaveArea) : Wing :=
  { v with life := .deepWake, ctl := { v.ctl with tickDue := some 70000, saved := save } }

theorem wit_DeepTurnsOffAndRestores_starts : (starting (saving active) (some area)).isHome = true ∧
    (starting (saving active) (some area)).ctl.saved = some area ∧ (starting (saving active) none).ctl.saved = none ∧
    (starting deepWest none).isHome = false ∧ (starting deepWest none).ctl.tickDue = some 70000 ∧ deepWest.hrt.lowestLatch = none ∧
    (deepWest.hrt.setLatch 3 { Latch.reset with set := true }).lowestLatch = some 3 ∧
    { active with life := .deepWake, pwr := { active.pwr with waitFrom := 1000 } }.now.toNat < 1000 + 4096 ∧
    { at1024 active with life := .deepWake, ctl := { active.ctl with tick := 8192 } }.ctl.hasTick = true := by decide +kernel

/-- The three phases of an entry to Deep. -/
def deepStep (a b : Option Tick) : Wing :=
  { active with life := .deepEntry, pwr := { active.pwr with enterTick := 800, sleepAt := 850, saveAt := a, offAt := b } }

theorem wit_DeepEntry_phases : (deepStep none none).written = true ∧ 800 < (deepStep none none).now.toNat ∧
    (899#56).toNat + 101 ≤ (deepStep (some 899) none).now.toNat ∧
    (deepStep (some 899) none).pwr.sleepAt.toNat ≤ (deepStep (some 899) none).now.toNat ∧
    (1000#56).toNat ≤ (deepStep (some 899) (some 1000)).now.toNat := by decide +kernel

theorem test_arriveDeep : (deepStep (some 899) (some 1000)).arriveDeep.life = .deep ∧
    (deepStep (some 899) none).arriveDeep.pwr.offAt = some 1004 ∧ (deepStep (some 900) none).arriveDeep.pwr.offAt = none := by
  decide +kernel

theorem wit_HearthKeepsTime_port : (deep active).life = .deep ∧ State.reset.east.life = .held ∧ active.ctl.rawWait = none ∧
    joining.ctl.role ≠ .active ∧ joining.ctl.role ≠ .standby := by decide +kernel

theorem wit_EccErrorsAreCounted_landing : ({ array := 6, unit := 9, index := 0, corrected := true : EccFind }).array = 6 ∧
    9 ≤ ({ array := 6, unit := 9, index := 0, corrected := true : EccFind }).unit.toNat := by decide

theorem wit_Snapshots_outOfService : { active with life := .outOfService, regs := { active.regs with snapPend := true } }.regs.snapPend = true ∧
    { active with life := .outOfService }.life = .outOfService := by decide +kernel

theorem wit_DualPendExpiry : { Wing.reset .east with life := .keyWait }.running = false ∧ napping.running = false ∧ napping.life ≠ .keyWait ∧
    (firstWrite 1).running = true ∧ (firstWrite 1).dualPlaced oTkoForce = none := by decide +kernel

/-! ## Single steps -/

/-- The step answers a next state of which `p` holds. -/
def next (c : Instr) (s : State) (p : State → Bool) : Bool :=
  match exec c s with
  | .next t => p t
  | _ => false

/-- An empty queue idles, and the front command leaves the queue. -/
theorem test_step_queue : step { State.reset with pending := [] } = .next State.reset := rfl

theorem test_step_front : step { State.reset with pending := [.vbatCheck .east 1999, .studyVote .east] } =
    exec (.vbatCheck .east 1999) { State.reset with pending := [.studyVote .east] } := rfl

/-- R130: LIMIT 11 admits priority 10; the offer leaves its slot and the answer carries its priority and vector. -/
theorem test_claim_ok : next (.claim 9 1 11 .agree) (atPorch two) (fun t =>
    (t.porch 9).held == [offB] && (t.porch 9).jseq == 8 && ((t.porch 9).journal.map Entry.key) == [kA] &&
      t.out.contains (.cpRsp 9 0 (bit false ++ 10#8 ++ kA))) = true := by decide +kernel

/-- R130: LIMIT 10 does not. -/
theorem test_claim_limit : next (.claim 9 1 10 .agree) (atPorch two) (fun t => (t.porch 9).held == [offB, offA]) = true := by
  decide +kernel

theorem test_vrRd_vector : next (.vrRd 9 .agree) (atPorch two) (fun t => t.out.contains (.vrRsp 9 1 kA)) = true := by
  decide +kernel

theorem test_vrRd_busy : next (.vrRd 9 .agree) (atPorch { two with journal := journalOf 8 }) (fun t =>
    t.out == [.vrRsp 9 3 0, .p2wEvent 9 .east .claimBusy, .p2wEvent 9 .west .claimBusy]) = true := by decide +kernel

theorem test_complete : next (.complete 9 kA .agree) (atPorch up) (fun t =>
    (t.porch 9).journal == [{ kind := .complete, accTick := 0, prio := 0, jseq := 7, key := kA }] && (t.porch 9).jseq == 8) = true := by
  decide +kernel

theorem test_complete_waits : next (.complete 9 kA .agree) (atPorch { up with journal := journalOf 8 }) (fun t =>
    (t.porch 9).waiting.map (fun x => (x.1, x.2.1)) == [(.cp 2 kA, .agree)] && t.out == []) = true := by decide +kernel

theorem test_eoi : next (.eoi 9 0 kA .agree) (atPorch up) (fun t => (t.porch 9).journal.length == 1) = true := by decide +kernel

theorem test_raise : next (.raise 9 3 .agree) (atPorch up) (fun t => (t.porch 9).raiseq == [(3, 1)]) = true := by decide +kernel

theorem test_claimRaise : next (.claimRaise 9 .west 5 .agree) (atPorch up) (fun t => (t.porch 9).accepted == some .west) = true := by
  decide +kernel

theorem test_claimRaise_refused : next (.claimRaise 9 .west 3 .agree) (atPorch lowWest) (fun t =>
    t.out == [.p2wRefuse 9 .west 4] && (t.porch 9).accepted == some .east) = true := by decide +kernel

theorem test_init : next (.init 9 .east (initBeat 4 0x40 3 17 2 true) .agree) (atPorch { up with journalled := false }) (fun t =>
    (t.porch 9).jseq == 3 && (t.porch 9).rpHdr == 17 && (t.porch 9).shift == 2 && (t.porch 9).cfg == 0x40) = true := by decide +kernel

/-- R122: an alarm displaces the worst offer, which is returned under the next JSEQ. -/
theorem test_release_displaces : next (.releaseHeader 9 .east (releaseHdr 4 6 256 0 true 1 1000) [offX] ⟨.agree, none⟩) (atPorch crowd) (fun t =>
    (t.porch 9).held.contains offX && !(t.porch 9).held.contains (rankKey false 50 100 (mkKey 0 8)) &&
      (t.porch 9).rets.map Entry.key == [mkKey 0 8] && (t.porch 9).rets.map Entry.jseq == [7]) = true := by decide +kernel

theorem test_release_duplicate : next (.releaseHeader 9 .east (releaseHdr 4 6 256 0 true 1 1000) [offA] ⟨.agree, none⟩) (atPorch two) (fun t =>
    t.out.contains (.p2wAccept 9 .east 0 [kB, kA]) && t.out.contains (.p2wEvent 9 .east .dupOffer)) = true := by decide +kernel

/-- R126 with a RET_DELAY of 3: an offer of slice 1 hidden for the third boundary is returned. -/
theorem test_sliceCurReturn : next (.sliceCurReturn 9 .agree) (atPorch { two with
      cur := 2
      slots := [some { key := offA, rtick := 44, hidden := some 2 }, some { key := offB, rtick := 44, hidden := some 1 }, none, none] }) (fun t =>
    (t.porch 9).held == [offB] && (t.porch 9).rets.map Entry.key == [kA]) = true := by decide +kernel

theorem test_domain_down : next (.porchDomainPowerDown 1 ⟨0, []⟩) (domainOne up) (fun t =>
    (domainPorches 1).all fun p => t.porch p == { Porch.off with cur := 1 }) = true := by decide +kernel

/-- R32, R42: a message that passes its checks takes the next sequence of its page. -/
theorem test_native : next (.nativeMessage .east (wr 0 5 0xFFFFFFFF)) (east (withSlices active)) (fun t =>
    t.east.seqOf 1 == 1 && t.out.contains (.aptTaken .east)) = true := by decide +kernel

theorem test_native_size : next (.nativeMessage .east (wr 0x1F 5 1)) (east (withSlices active)) (fun t =>
    t.east.seqOf 1 == 0 && t.east.ctr (cReject rjSize) == 1) = true := by decide +kernel

/-- R152: the doorbell at the ring's size above CMD_HEAD, across the wrap of 24 bits, and one past it. -/
theorem test_doorbell : next (.commandDoorbell .east (wr 0x200 0xE 0xF)) (east ringed) (fun t => (t.east.slice 1).cmdTail == 0xE) = true := by
  decide +kernel

theorem test_doorbell_bad : next (.commandDoorbell .east (wr 0x200 0xF 0xF)) (east ringed) (fun t =>
    (t.east.slice 1).cmdTail == 0xFFFFFFFF && t.east.ctr cCmdDbBad == 1) = true := by decide +kernel

theorem test_letter_drop : next (.letterboxDoorbell .east (wr 0x300 9 0xF)) (east (lettered 4)) (fun t =>
    t.east.ctr cLbxDrop == 1 && (t.east.slice 1).lseq == 1 && (t.east.slice 1).outbox.length == 4) = true := by decide +kernel

theorem test_wired : next (.wiredSourceChange .east 3 true) (east (wired active)) (fun t => t.east.seqOf (4096 + 3) == 1) = true := by
  decide +kernel

theorem test_alarm_again : next (.alarmLatch .east 3) (east { active with hrt := (active.hrt.setLatch 3 { Latch.reset with set := true, again := 15 }) })
    (fun t => (t.east.hrt.latch 3).again == 15) = true := by decide +kernel

/-- R62, R63: the accepted offer's vector is PRESENTED at core 9 with COUNT 0. -/
theorem test_acceptRsp : next (.acceptRsp .east 9 1 [kA]) (east offering) (fun t =>
    t.east.ctx? kA == some { ctxA with
      state := .presented, count := 0, hasLast := true, lastCore := 9, dirty := true, touched := 1000, dirtyAt := 1000 } &&
      t.east.psg.acc == [.accept { porch := 9, key := kA }]) = true := by decide +kernel

theorem test_refuse : next (.refuse .east 9 8) (east active) (fun t =>
    t.east.ctl.role == .joining && t.east.ctl.seen == 8 && t.east.ctr cDemote == 1) = true := by decide +kernel

theorem test_replayEnd : next (.replayEnd .east 9) (east (claimedAt (replaying (entryOf 5 kA)))) (fun t =>
    t.east.pch.ended == [9] && SMap.get t.east.pch.replay [] 9 == [entryOf 5 kA]) = true := by decide +kernel

/-- R139: at the close an entry at LAST_JSEQ is a duplicate; the one above it takes effect. -/
def replayed (q : BitVec 16) : Wing :=
  let v := claimedAt (replaying (entryOf q kA))
  { v with pch := { v.pch with ended := [9] } }.applyReplay 9

theorem test_replays : ((replayed 4).ctr cReplayDup = 1 ∧ ((replayed 4).ctx? kA).map (·.state) = some .presented) ∧
    (replayed 5).ctr cReplay = 1 ∧ ((replayed 5).ctx? kA).map (·.state) = some .active ∧
    SMap.get (replayed 5).pch.jseqCommit 0xFFFF 9 = 5 := by decide +kernel

theorem test_windowEnd : next (.windowEnd .east kA) (east { completedA 2 with ctl := { active.ctl with tick := 1001 } }) (fun t => (t.east.ctx? kA).map (·.state) == some .pending) = true := by
  decide +kernel

theorem test_filterEntryExpiry : next (.filterEntryExpiry .east 1 7) (east oldImages) (fun t => t.east.vst.filter.map Prod.fst == [1]) = true := by
  decide +kernel

theorem test_imageExpiry : next (.standbyImageExpiry .east kA) (east oldImages) (fun t =>
    t.east.pan.images.map Image.tick == [69985]) = true := by decide +kernel

/-- R70: the first failure is read again; the second quarantines. -/
theorem test_cellar_retry : next (.cellarReadReturn .east kA none) (east (reading active false)) (fun t =>
    t.east.ctr cReadRetry == 1 && t.out == [.memRead .east (0x100000 + 32 * 5) 32 0]) = true := by decide +kernel

theorem test_cellar_quarantine : next (.cellarReadReturn .east kA none) (east (reading active true)) (fun t =>
    t.east.isQuarantined kA && t.east.ctr cReadFail == 1) = true := by decide +kernel

theorem test_writeBack : next (.writeBackAccepted .east kA true) (east writing) (fun t =>
    (t.east.ctx? kA).map (·.dirty) == some false && t.east.pan.wbuf == []) = true := by decide +kernel

theorem test_strandingLimit : next (.strandingLimit .east 1) (east stranded) (fun t =>
    t.east.psg.defr == [.residency { slice := 1, count := 3, prio := 40 }]) = true := by decide +kernel

/-- R182: the second half of the block completes it. R183: the writes of a creation: the vector table, the event ring, the header. -/
def halfRead : Wing :=
  { readingBlock (withJob opCreate .reading) 2 with sl := [(0, { runningSlice with pasid := 0, evtLog2 := 12 }),
      (2, { SliceSt.reset with
        state := .creating, vtLog2 := 6, evtLog2 := 10
        job := some { pos := 3, opcode := opCreate, phase := .reading, param := block0, left := 0, got := [false], retried := [] } })] }

theorem test_create_block : next (.parameterBlockRead .east 2 ⟨true, some (block0.extractLsb' 512 512)⟩) (east halfRead) (fun t =>
    (t.east.slice 2).job.map (·.left) == some (64 + 512 + 1)) = true := by decide +kernel

theorem test_drainLimit : next (.drainLimit .east 1) (east (quiescing 464)) (fun t => t.east.psg.defr.length == 1) = true := by decide +kernel

theorem test_drainLimit_early : next (.drainLimit .east 1) (east (quiescing 465)) (fun t => t.east.psg.defr == []) = true := by
  decide +kernel

theorem test_drnDone : next (.drnDone .east 3 5 1) (east draining) (fun t =>
    t.east.drnOf 3 == [] && t.east.psg.defr == [.drain { port := 3, pasid := 5, gen := 1 }]) = true := by decide +kernel

/-- R172: record 0 of a ring has PHASE 1. -/
theorem test_eventBlockWrite : next (.eventBlockWrite .east) (east eventDue) (fun t =>
    (t.east.slice 1).wpos == 1 && t.out.contains (.memWrite .east 0x400000 32 5 0x80)) = true := by decide +kernel

theorem test_recordWriteAccepted : next (.recordWriteAccepted .east 1 4) (east eventOut) (fun t =>
    t.east.psg.defr == [.done 1000]) = true := by decide +kernel

theorem test_vecReset : next (.vecReset .east 0 vecArgs) (east (commanded fun c => { c with state := .pending, count := 3 })) (fun t =>
    (t.east.ctx? kA).map (·.state) == some .idle && (t.east.slice 0).cmdHead == 1 && t.east.ctr cCmdAdmitted == 1) = true := by
  decide +kernel

theorem test_vecComplete : next (.vecComplete .east 0 vecArgs) (east (commanded fun c => { c with state := .active })) (fun t =>
    (t.east.ctx? kA).map (·.state) == some .completed) = true := by decide +kernel

theorem test_pin : next (.pin .east 0 vecArgs) (east (commanded id)) (fun t => (t.east.ctx? kA).map (·.pin) == some true) = true := by
  decide +kernel

theorem test_create : next (.sliceCreate .east 0 { sliceArgs 2 with operand := 0x600000 }) (east (commanded id)) (fun t =>
    t.out.contains (.memRead .east 0x600000 64 0) && (t.east.slice 0).ucmds.length == 1) = true := by decide +kernel

theorem test_letterPost : next (.letterPost .east 0 { sliceArgs 1 with operand := 77 }) (east (commanded id)) (fun t =>
    (t.east.slice 1).inbox == [77]) = true := by decide +kernel

theorem test_commandPoint : next (.commandPoint .east) (east (described false)) (fun t => (t.east.slice 0).cmdHead == 1) = true := by
  decide +kernel

theorem test_descriptor_retry : next (.descriptorReadReturn .east 0 1 none) (east (described false)) (fun t =>
    t.out == [.memRead .east 0x300000 64 0] && t.east.ctr cCmdReadRetry == 1) = true := by decide +kernel

/-- R62: an arrival on an IDLE vector, held by the standby too. -/
theorem test_arrive : next (.arrive .east arr4) (east (withRec holding (.arrive arr4))) (fun t =>
    (t.east.ctx? kA).map (fun c => (c.state, c.count)) == some (.pending, 1) && t.east.vst.staged == []) = true := by decide +kernel

theorem test_claimRecord : next (.claimRecord .east (jr0 .claim)) (east (withRec (standbyA .presented) (.claim (jr0 .claim)))) (fun t =>
    (t.east.ctx? kA).map (·.state) == some .active && SMap.get t.east.pch.jseqCommit 0xFFFF 9 == 1) = true := by decide +kernel

theorem test_completeRecord_bad : next (.completeRecord .east (jr0 .complete)) (east (withRec (standbyA .idle) (.complete (jr0 .complete)))) (fun t =>
    t.east.ctr cBadComplete == 1) = true := by decide +kernel

theorem test_install : next (.steerInstall .east { bank := 0, slot := 7, key := kB, tag := 0 }) (east (withRec imaged (.install { bank := 0, slot := 7, key := kB, tag := 0 }))) (fun t =>
    t.east.slotFor kB != none && t.east.pan.images == []) = true := by decide +kernel

theorem test_corestate : next (.steerCorestate .east { group := 2, rchkN := 0, words := 0x4001400240034004 }) (east (withRec standby (.coreState { group := 2, rchkN := 0, words := 0x4001400240034004 }))) (fun t =>
    (t.east.coreSt 8).cur == 4 && (t.east.coreSt 11).cur == 1 && (t.east.coreSt 8).on) = true := by decide +kernel

theorem test_regw : next (.cfgRegw .east { regw0 with addr := BitVec.ofNat 32 oTkoCtrl, val := 0x705 }) (east (withRec standby (.regw { regw0 with addr := BitVec.ofNat 32 oTkoCtrl, val := 0x705 }))) (fun t =>
    t.east.hbLimit == 5 && t.east.cfgW oTkoCtrl == 0x705) = true := by decide +kernel

theorem test_level : next (.cfgLevel .east { level := 2, tick := 1026 }) (east (withRec standby (.level { level := 2, tick := 1026 }))) (fun t =>
    t.east.pwr.next == some (.p2, 1026) && t.east.pwr.level == .p0) = true := by decide +kernel

theorem test_finish : next (.cfgFinish .east (fin0 0)) (east (withRec unfinished (.finish (fin0 0)))) (fun t =>
    (t.east.slice 0).ucmds == [] && t.east.ring.recsDef.length == 1 && (t.east.slice 0).cmdFinished == 1) = true := by decide +kernel

theorem test_fetch : next (.resyncFetch .east { what := 1, origin := 0, seqOrKey := kA }) (east (withRec (withA active id) (.fetch { what := 1, origin := 0, seqOrKey := kA }))) (fun t =>
    t.east.psg.rsy.length == 4 && t.east.ctr cPeerFill == 1) = true := by decide +kernel

theorem test_frameApplied : next (.frameApplied .east) (east { standby with psg := { standby.psg with rx := [wholeFrame] } }) (fun t =>
    t.east.psg.ackValid && t.east.psg.ack == 999) = true := by decide +kernel

theorem test_tickClose : next (.tickClose .east 999 false { role := 0, level := 0, recovery := false, fchk := 0, claim := 6, sig := 0, digest := 0 })
    (east active) (fun t => t.east.ctl.role == .joining && t.east.ctl.seen == 6 && t.east.psg.hb) = true := by decide +kernel

theorem test_rxlock : next (.psgRxlock .east 0 false) (east naked) (fun t =>
    (t.east.lane 0).role == .retired && t.east.ctr cLaneFail == 1) = true := by decide +kernel

theorem test_replay : next (.replay .east) (east naked) (fun t => t.east.psg.nakq == [] && t.east.ctr cReplayTx == 1) = true := by
  decide +kernel

theorem test_ackDeadline : next (.ackDeadline .east) (east (duplex 998 0)) (fun t => t.east.psg.missing == 1 && t.east.psg.ackClosed) = true := by
  decide +kernel

/-- R257: the east wing takes the least even claim above every value seen (5). -/
theorem test_takeover : next (.takeover .east) (east (silent standby)) (fun t =>
    t.east.ctl.claim == 6 && t.east.ctl.role == .active && t.out.contains (.w2p .east 9 3 (claimRaiseBeat 6))) = true := by decide +kernel

theorem test_orphan : next (.takeover .east) (east (walked false)) (fun t => t.east.ctl.role == .orphan && t.east.ctl.claim == 4) = true := by
  decide +kernel

theorem test_handoverSchedule : next (.handoverSchedule .east) (east settled) (fun t => t.east.psg.defr.length == 2) = true := by decide +kernel

theorem test_handover : next (.handover .east) (east handed) (fun t => t.east.ctl.role == .active && t.east.ctl.claim == 6) = true := by
  decide +kernel

theorem test_levelChoice : next (.levelChoice .east) (east (demanding .p3 40)) (fun t => t.east.pwr.want == some .p0) = true := by decide +kernel

theorem test_levelChange_fails : next (.levelChange .east false) (east (changing .p2 .p0)) (fun t =>
    t.east.pwr.vfail && t.east.pwr.level == .p2 && t.east.psg.defr == [.level { level := 2, tick := 1002 }]) = true := by decide +kernel

theorem test_napEntry : next (.napEntry .east) (east (sleepy 1 64 active)) (fun t => t.east.life == .napEntry) = true := by decide +kernel

theorem test_napEntry_refused : next (.napEntry .east) (east (sleepy 1 0 active)) (fun t =>
    t.east.life == .run && t.east.ctr cRefuseEast == 1) = true := by decide +kernel

theorem test_napWake : next (.napWake .east { source := 1, detail := 0 }) (east napping) (fun t =>
    t.east.pwr.sched == some (0, 1012)) = true := by decide +kernel

/-- R324: the anchor's tick and 16 raw edges of 32,768 a second, at 3,906,250 ticks a second: 1,907 ticks on. -/
theorem test_deepWake : next (.deepWake .west { source := 0xA, detail := 0 } none) { State.reset with west := deepWest } (fun t =>
    t.west.life == .deepWake && t.west.ctl.rawWait == some none && t.out.contains (.hrtDeep .west false)) = true := by decide +kernel

theorem test_rawEdge_rebuilds : next (.rawEdge .west)
    { State.reset with west := { deepWest with
        life := .deepWake
        ctl := { deepWest.ctl with rawWait := some none }
        hrt := { deepWest.hrt with raw := 0x1F } } } (fun t =>
    t.west.ctl.tickDue == some (65536 + 1907) && t.west.ctl.reconciled) = true := by decide +kernel

theorem test_rawEdge : next (.rawEdge .east) (east active) (fun t => t.east.hrt.raw == 1) = true := by decide +kernel

theorem test_vbat : next (.vbatCheck .east 1999) (east active) (fun t => t.east.hrt.vbatLow) = true ∧
    next (.vbatCheck .east 2000) (east active) (fun t => !t.east.hrt.vbatLow) = true := by decide +kernel

theorem test_vote_fix : next (.voteWalk .east [vote0 0 4 0]) (east active) (fun t =>
    t.east.ctr cVoteFix == 1 && !t.east.int.voteSplit) = true := by decide +kernel

/-- R352: a move begins with its spare being initialised. -/
theorem test_bankMove : next (.bankMove .east) (east (worn 3)) (fun t =>
    (t.east.physBank 64).state == 2 && t.east.int.move.any fun m => m.old == 3 && m.spare == 64 && !m.slice) = true := by decide +kernel

/-- R366: a mirrored write is stored, not in force, and carried. -/
theorem test_registerWrite : next (.registerWrite .east (acc 0x500 0x0F 0x706)) (east seasoned) (fun t =>
    t.east.cfgW oTkoCtrl == 0x706 && t.east.hbLimit == 4 && t.out == [] && t.east.psg.defr.length == 1) = true := by decide +kernel

theorem test_registerWrite_unaligned : next (.registerWrite .east (acc 0x500 0x05 0x706)) (east seasoned) (fun t =>
    t.out == [.regRsp .east false 0] && t.east.ctr cRegErr == 1) = true := by decide +kernel

theorem test_lock : next (.lockBitSet .east (acc 0x220 0x0F 1)) (east shut) (fun t =>
    t.out == [.regRsp .east false 0] && t.east.regs.cfg == shut.regs.cfg) = true := by decide +kernel

theorem test_dual_first : next (.dualControlWrite .east (acc (BitVec.ofNat 16 oTkoForce) (if oTkoForce % 8 = 0 then 0x0F else 0xF0)
      (if oTkoForce % 8 = 0 then 1 else 0x100000000))) (east seasoned) (fun t =>
    t.out == [] && t.east.psg.defr == [.regw { space := 0, dualPend := true, req := 3, addr := BitVec.ofNat 32 oTkoForce, val := 1 }]) = true := by
  decide +kernel

theorem test_wingReset : next (.wingReset .east) (east (commanded id)) (fun t =>
    t.east.life == .held && t.east.pan.slots == [] && t.east.hrt == active.hrt) = true := by decide +kernel

theorem test_start : next (.start .east 3 none) (east startable) (fun t =>
    t.east.ctl.booting && t.east.ctl.tickDue == some 0 && t.out == [.memRead .east 0x8000 64 0, .memRead .east 0x8040 64 1, .regRsp .east true 0]) = true := by
  decide +kernel

/-- R405: the key is taken once, and the wing goes live at the next tick boundary. -/
theorem test_key : next (.keyDelivery .east 7) (east { Wing.reset .east with life := .keyWait }) (fun t =>
    t.east.keyValid && t.east.key == 7 && t.east.life == .keyWait) = true := by decide +kernel

theorem test_key_twice : next (.keyDelivery .east 7) (east { Wing.reset .east with life := .keyWait, keyValid := true, key := 5 }) (fun t =>
    t.east.key == 5) = true := by decide +kernel

theorem test_tickBoundary : next (.tickBoundary .east []) (east { active with life := .keyWait, keyValid := false }) (fun t =>
    t.east.now == 1001) = true := by decide +kernel

end Sys2Proof.Tests
end

section
/-! Which offers a porch may present (R124, R125), and why a claim leaves an offer that is not presentable in its slot (R126, R130). -/

namespace Sys2Proof.Machine

/-! ## The porch running priority -/

/-- A fold of `min` is the least of its start and of the list's values. -/
theorem foldl_min_spec {α : Type} (f : α → Nat) (l : List α) (m : Nat) :
    l.foldl (fun n a => min n (f a)) m ≤ m ∧ (∀ a ∈ l, l.foldl (fun n a => min n (f a)) m ≤ f a) ∧
      (l.foldl (fun n a => min n (f a)) m = m ∨ ∃ a ∈ l, l.foldl (fun n a => min n (f a)) m = f a) := by
  induction l generalizing m with
  | nil => simp
  | cons b l ih =>
    obtain ⟨hle, hall, heq⟩ := ih (min m (f b))
    simp only [List.foldl_cons, List.forall_mem_cons, List.exists_mem_cons_iff]
    refine ⟨by omega, ⟨by omega, hall⟩, ?_⟩
    rcases heq with heq | hex
    · omega
    · exact .inr (.inr hex)

theorem Porch.mem_claims_iff (q : Porch) (e : Entry) :
    e ∈ q.journal.filter (·.kind == .claim) ↔ e ∈ q.journal ∧ e.kind = .claim := by
  simp

/-- R125: PRP is the least of RP_HDR and of the priorities of the CLAIM entries. -/
theorem Porch.prp_spec (q : Porch) :
    q.prp ≤ q.rpHdr.toNat ∧ (∀ e ∈ q.journal, e.kind = .claim → q.prp ≤ e.prio.toNat) ∧
      (q.prp = q.rpHdr.toNat ∨ ∃ e ∈ q.journal, e.kind = .claim ∧ q.prp = e.prio.toNat) := by
  obtain ⟨hle, hall, heq⟩ :=
    foldl_min_spec (fun e : Entry => e.prio.toNat) (q.journal.filter (·.kind == .claim)) q.rpHdr.toNat
  refine ⟨hle, fun e he hk => hall e ((q.mem_claims_iff e).2 ⟨he, hk⟩), heq.imp_right ?_⟩
  rintro ⟨e, he, hp⟩
  obtain ⟨hj, hk⟩ := (q.mem_claims_iff e).1 he
  exact ⟨e, hj, hk, hp⟩

/-! ## The offer that the porch presents -/

/-- R124, read off the fields of the porch and of the key. -/
theorem Porch.presentable_iff (q : Porch) (k : BitVec 97) :
    q.presentable k = true ↔
      (keySlice (rkKey k) = q.cur ∨ keySlice (rkKey k) = 0 ∨ rkAlarm k = true) ∧
        (rkAlarm k = true ∨ (rkPrio k).toNat >>> q.shift.toNat < q.prp >>> q.shift.toNat) := by
  simp [Porch.presentable, Porch.sliceOk, or_assoc]

/-- What a porch presents is held, presentable, and the least such by key. -/
theorem Porch.best_spec (q : Porch) (k : BitVec 97) (h : q.best = some k) :
    k ∈ q.held ∧ q.presentable k = true ∧ ∀ h ∈ q.held, q.presentable h = true → k.toNat ≤ h.toNat := by
  unfold Porch.best at h
  split at h
  · obtain ⟨hmem, hmin⟩ := minKey_spec _ _ h
    obtain ⟨hheld, hpres⟩ := List.mem_filter.1 hmem
    exact ⟨hheld, hpres, fun j hj hp => hmin j (List.mem_filter.2 ⟨hj, hp⟩)⟩
  · cases h

theorem Porch.best_eq_some_iff (q : Porch) (hl : q.live = true) (k : BitVec 97) :
    q.best = some k ↔
      k ∈ q.held ∧ q.presentable k = true ∧ ∀ h ∈ q.held, q.presentable h = true → k.toNat ≤ h.toNat :=
  ⟨q.best_spec k, fun ⟨hheld, hpres, hmin⟩ => q.best_of k hl hheld hpres hmin⟩

/-! ## A claim takes a presentable offer only -/

theorem Porch.mem_held_iff (q : Porch) (k : BitVec 97) : k ∈ q.held ↔ ∃ x, some x ∈ q.slots ∧ x.key = k := by
  simp [Porch.held, List.mem_filterMap]

/-- A slot whose offer has another key stands when an offer is dropped. -/
theorem mem_dropOffer_of_ne {k : BitVec 97} {x : PSlot} {sl : List (Option PSlot)} (h : some x ∈ sl) (hne : x.key ≠ k) :
    some x ∈ dropOffer k sl :=
  List.mem_map.2 ⟨some x, h, by simp [hne]⟩

/-- The offer that a claim is granted is the one that the porch presents. -/
theorem Porch.best_of_claimResult_ok (q : Porch) (lim : Nat) (k : BitVec 97) (h : q.claimResult lim = .ok k) :
    q.best = some k := by
  unfold Porch.claimResult at h
  cases hb : q.best with
  | none => simp [hb] at h
  | some j =>
    simp only [hb] at h
    split at h
    · split at h
      · cases h; rfl
      · cases h
    · cases h

/-- What a claim can do: nothing to the slots, or it drops the offer that the porch presents. -/
theorem Porch.claimEffect_slots (q : Porch) (p : Byte) (lim : Nat) :
    (q.claimEffect p lim).1.slots = q.slots ∨
      ∃ k, q.best = some k ∧ (q.claimEffect p lim).1.slots = dropOffer k q.slots := by
  unfold Porch.claimEffect
  cases hr : q.claimResult lim with
  | nothing => exact .inl rfl
  | busy => exact .inl rfl
  | ok k =>
    dsimp only
    split
    · exact .inl rfl
    · exact .inr ⟨k, q.best_of_claimResult_ok lim k hr, rfl⟩

/-- The offers that one porch holds and may not present are held by the other. -/
def Porch.KeepsHidden (q r : Porch) : Prop := ∀ k ∈ q.held, q.presentable k = false → k ∈ r.held

theorem Porch.keepsHidden_of_slots_eq {q r : Porch} (h : r.slots = q.slots) : q.KeepsHidden r := by
  intro k hk _
  rwa [Porch.held, h]

theorem Porch.claimEffect_keepsHidden (q : Porch) (p : Byte) (lim : Nat) : q.KeepsHidden (q.claimEffect p lim).1 := by
  rcases q.claimEffect_slots p lim with hs | ⟨j, hbest, hs⟩
  · exact Porch.keepsHidden_of_slots_eq hs
  · intro k hk hhid
    obtain ⟨x, hx, hxk⟩ := (q.mem_held_iff k).1 hk
    have hpres : q.presentable j = true := (q.best_spec j hbest).2.1
    have hne : x.key ≠ j := by
      rintro rfl
      rw [hxk, hhid] at hpres
      cases hpres
    refine (Porch.mem_held_iff _ k).2 ⟨x, ?_, hxk⟩
    rw [hs]
    exact mem_dropOffer_of_ne hx hne

/-- A vote that does not split lets the voted operation through, whatever it reports. -/
theorem Porch.voted_fst (q : Porch) (p : Byte) (v : Vote) (f : Porch → Porch × List Out) (h : v ≠ .split) :
    (q.voted p v f).1 = (f q).1 := by
  cases v with
  | agree => rfl
  | corrected => rfl
  | split => exact absurd rfl h

theorem Porch.takeVoted_fst (q : Porch) (p : Byte) (o : WaitOp) (v : Vote) (err : Bool) (h : v ≠ .split) :
    (q.takeVoted p o v err).1 = (q.takeOp p o).1 := by
  cases v with
  | agree => rfl
  | corrected => rfl
  | split => exact absurd rfl h

theorem Porch.takeOp_claim_keepsHidden (q : Porch) (p : Byte) (arg : Word) : q.KeepsHidden (q.takeOp p (.cp 1 arg)).1 := by
  by_cases harg : arg.extractLsb' 9 23 = 0#23
  · have hop : (q.takeOp p (.cp 1 arg)).1 = (q.claimEffect p (arg.extractLsb' 0 9).toNat).1 := by
      simp [Porch.takeOp, harg]
    rw [hop]
    exact q.claimEffect_keepsHidden p _
  · exact Porch.keepsHidden_of_slots_eq (by simp [Porch.takeOp, harg])

/-- A claim at the claim port: lost, taken, or left to wait. -/
theorem Porch.coreOp_claim_keepsHidden (q : Porch) (p : Byte) (arg : Word) (v : Vote) (err : Bool) (hv : v ≠ .split) :
    q.KeepsHidden (q.coreOp p (.cp 1 arg) v err).1 := by
  unfold Porch.coreOp
  split
  · exact Porch.keepsHidden_of_slots_eq rfl
  · split
    · rw [q.takeVoted_fst p _ v err hv]
      exact q.takeOp_claim_keepsHidden p arg
    · exact Porch.keepsHidden_of_slots_eq rfl

/-- Beside a step of one porch a count of free values leaves that porch as the step left it. -/
theorem State.onPorch_porch_withFree (s : State) (p : Byte) (f : Porch → Porch × List Out) (n : Nat) :
    ({ s.onPorch p f with free := n } : State).porch p = (f (s.porch p)).1 := s.onPorch_porch p f

/-- Beside a step of one porch a count of free values changes no other porch and no wing. -/
theorem State.onPorch_only_withFree (s : State) (p : Byte) (f : Porch → Porch × List Out) (n : Nat) :
    s.onlyPorch { s.onPorch p f with free := n } p := s.onPorch_only p f

theorem execClaim_keepsHidden (s : State) (p : Byte) (arg : Word) (v : Vote) (hv : v ≠ .split) :
    ∃ t, exec (.claim p 1 arg v) s = .next t ∧ s.onlyPorch t p ∧ (s.porch p).KeepsHidden (t.porch p) := by
  refine ⟨_, rfl, s.onPorch_only_withFree p _ _, ?_⟩
  rw [State.onPorch_porch_withFree]
  exact (s.porch p).coreOp_claim_keepsHidden p arg v _ hv

/-- VR_RD claims with a LIMIT of 256, or answers NONE and claims nothing. -/
theorem execVrRd_keepsHidden (s : State) (p : Byte) (v : Vote) (hv : v ≠ .split) :
    ∃ t, exec (.vrRd p v) s = .next t ∧ s.onlyPorch t p ∧ (s.porch p).KeepsHidden (t.porch p) := by
  refine ⟨_, rfl, s.onPorch_only p _, ?_⟩
  rw [State.onPorch_porch]
  split
  · exact Porch.keepsHidden_of_slots_eq rfl
  · split
    · exact Porch.keepsHidden_of_slots_eq rfl
    · rw [Porch.voted_fst _ p v _ hv]
      exact (s.porch p).claimEffect_keepsHidden p 256

end Sys2Proof.Machine

namespace Sys2Proof

open Machine

/-- Settles O12: PRP is a fold of `min`, the presented offer the least of a filtered list, and a claim drops no offer but the
presented one. -/
theorem presentableOffers : Obligations.PresentableOffers := by
  unfold Obligations.PresentableOffers
  intro q
  refine ⟨q.prp_spec, q.presentable_iff, q.best_eq_some_iff, ?_⟩
  rintro s p arg v i rfl - hv hi
  simp only [List.mem_cons, List.not_mem_nil, or_false] at hi
  rcases hi with rfl | rfl
  · exact execClaim_keepsHidden s p arg v hv
  · exact execVrRd_keepsHidden s p v hv

end Sys2Proof
end

section
/-! How a command doorbell moves a ring's position in the active wing (R152, R153), and why the descriptor reads that follow it
(R157) leave what it moved. -/

namespace Sys2Proof.Machine

/-! ## Descriptor reads -/

/-- What one descriptor read keeps, the reads of one ring keep. -/
theorem Wing.readRing_keeps_of {γ : Type} (g : Wing → γ)
    (hread : ∀ (w : Wing) (s : BitVec 12) (r : DescRead) (a : DWord),
      g ((w.modSlice s fun v => { v with descReads := v.descReads ++ [r] }).emitRead a 64) = g w)
    (w : Wing) (s : BitVec 12) (n : Nat) : g (w.readRing s n) = g w := by
  induction n generalizing w with
  | zero => rfl
  | succ n ih =>
    unfold Wing.readRing
    split
    · rfl
    · split
      · exact (ih _).trans (hread w s _ _)
      · rfl

/-- What one descriptor read keeps, the reads of all rings keep. -/
theorem Wing.readRings_keeps_of {γ : Type} (g : Wing → γ)
    (hread : ∀ (w : Wing) (s : BitVec 12) (r : DescRead) (a : DWord),
      g ((w.modSlice s fun v => { v with descReads := v.descReads ++ [r] }).emitRead a 64) = g w)
    (w : Wing) : g w.readRings = g w := by
  unfold Wing.readRings
  split
  · exact foldl_keeps g _ (fun w s => Wing.readRing_keeps_of g hread w s 16) _ w
  · rfl

@[simp] theorem Wing.readRings_regs (w : Wing) : w.readRings.regs = w.regs :=
  Wing.readRings_keeps_of (·.regs) (fun _ _ _ _ => rfl) w

@[simp] theorem Wing.readRings_psg (w : Wing) : w.readRings.psg = w.psg :=
  Wing.readRings_keeps_of (·.psg) (fun _ _ _ _ => rfl) w

/-- A read at the memory port changes no slice. -/
@[simp] theorem Wing.slice_emitRead (w : Wing) (a : DWord) (n : Nat) (x : BitVec 12) : (w.emitRead a n).slice x = w.slice x := rfl

/-- Descriptor reads change of a slice no more than the list of its reads. -/
theorem Wing.slice_readRings (w : Wing) (x : BitVec 12) :
    { w.readRings.slice x with descReads := [] } = { w.slice x with descReads := [] } := by
  refine Wing.readRings_keeps_of (fun w : Wing => { w.slice x with descReads := [] }) (fun w s r a => ?_) w
  by_cases h : x = s
  · subst h
    simp
  · simp [Wing.slice_modSlice_ne w _ h]

@[simp] theorem Wing.cmdTail_readRings (w : Wing) (x : BitVec 12) : (w.readRings.slice x).cmdTail = (w.slice x).cmdTail :=
  congrArg (·.cmdTail) (w.slice_readRings x)

@[simp] theorem Wing.evtHead_readRings (w : Wing) (x : BitVec 12) : (w.readRings.slice x).evtHead = (w.slice x).evtHead :=
  congrArg (·.evtHead) (w.slice_readRings x)

/-! ## Restored values -/

/-- A doorbell value restored and validated by its kind: 0 for CMD_TAIL, else EVT_HEAD (R152). -/
def SliceSt.restore (v : SliceSt) (kind : BitVec 2) (pos : BitVec 24) : Option Word :=
  if kind = 0 then v.restoreTail pos else v.restoreHead pos

/-- The slice with the position of a kind moved to `p`. -/
def SliceSt.movePos (v : SliceSt) (kind : BitVec 2) (p : Word) : SliceSt :=
  if kind = 0 then { v with cmdTail := p } else { v with evtHead := p }

theorem SliceSt.restore_tail_valid (v : SliceSt) (pos : BitVec 24)
    (h : restoreFrom v.cmdHead pos ≤ 2 ^ v.cmdLog2.toNat ∧ posDiff v.cmdTail v.cmdHead ≤ restoreFrom v.cmdHead pos) :
    v.restore 0 pos = some (v.cmdHead + BitVec.ofNat 32 (restoreFrom v.cmdHead pos)) :=
  if_pos h

theorem SliceSt.restore_tail_invalid (v : SliceSt) (pos : BitVec 24)
    (h : ¬ (restoreFrom v.cmdHead pos ≤ 2 ^ v.cmdLog2.toNat ∧ posDiff v.cmdTail v.cmdHead ≤ restoreFrom v.cmdHead pos)) :
    v.restore 0 pos = none :=
  if_neg h

theorem SliceSt.restore_head_valid (v : SliceSt) (pos : BitVec 24)
    (h : restoreFrom v.evtHead pos ≤ posDiff v.wpos v.evtHead) :
    v.restore 1 pos = some (v.evtHead + BitVec.ofNat 32 (restoreFrom v.evtHead pos)) :=
  if_pos h

theorem SliceSt.restore_head_invalid (v : SliceSt) (pos : BitVec 24)
    (h : posDiff v.wpos v.evtHead < restoreFrom v.evtHead pos) : v.restore 1 pos = none :=
  if_neg (Nat.not_le.2 h)

/-! ## The doorbell in the active wing -/

theorem Wing.applyDoorbell_of_none (w : Wing) (x : BitVec 12) (kind : BitVec 2) (pos : BitVec 24)
    (h : (w.slice x).restore kind pos = none) : w.applyDoorbell x kind pos = w.count cCmdDbBad := by
  unfold SliceSt.restore at h
  simp only [Wing.applyDoorbell, h]

theorem Wing.applyDoorbell_of_some (w : Wing) (x : BitVec 12) (kind : BitVec 2) (pos : BitVec 24) {p : Word}
    (h : (w.slice x).restore kind pos = some p) :
    w.applyDoorbell x kind pos =
      ((w.setSlice x ((w.slice x).movePos kind p)).place (.doorbell { slice := x, kind := kind, pos := p })).readRings := by
  unfold SliceSt.restore at h
  simp only [Wing.applyDoorbell, h, SliceSt.movePos]

/-- A placed record changes no slice. -/
@[simp] theorem Wing.slice_place (w : Wing) (r : Rec) (x : BitVec 12) : (w.place r).slice x = w.slice x := by
  simp [Wing.slice]

/-- A wing shows a doorbell value applied: the position moved to `p`, nothing counted, and the record in the frame (R153). -/
structure Wing.ShowsDoorbell (w v : Wing) (x : BitVec 12) (kind : BitVec 2) (p : Word) : Prop where
  tail : (v.slice x).cmdTail = ((w.slice x).movePos kind p).cmdTail
  head : (v.slice x).evtHead = ((w.slice x).movePos kind p).evtHead
  bad : v.ctr cCmdDbBad = w.ctr cCmdDbBad
  carried : Rec.doorbell { slice := x, kind := kind, pos := p } ∈ v.psg.defr

theorem Wing.applyDoorbell_shows (w : Wing) (x : BitVec 12) (kind : BitVec 2) (pos : BitVec 24) {p : Word}
    (h : (w.slice x).restore kind pos = some p) : w.ShowsDoorbell (w.applyDoorbell x kind pos) x kind p := by
  rw [w.applyDoorbell_of_some x kind pos h]
  exact
    { tail := by simp [Wing.slice_setSlice]
      head := by simp [Wing.slice_setSlice]
      bad := by simp [Wing.ctr]
      carried := by simp [Wing.place_psg, Rec.group] }

/-! ## COMMAND_DOORBELL -/

/-- A write that finds the buffer of a running wing empty, and is no arrival, goes at once. -/
theorem Wing.takeWrite_at_once (w : Wing) (a : AptWrite) (act : Wing → AptWrite → Wing) (hrun : w.running = true)
    (hin : w.vst.inbuf = []) (harr : isArrivalWrite a = false) :
    w.takeWrite a act = act ((w.emit (.aptTaken w.id)).emit (.aptCredit w.id)) a := by
  have hlife : w.life = .run := by simpa [Wing.running] using hrun
  simp [Wing.takeWrite, Wing.aptLive, Wing.blocks, hlife, hin, harr, hrun]

theorem Wing.doCmdDoorbell_of_admits (w : Wing) (a : AptWrite) (hchk : w.doorbellCheck a 0x200 = none)
    (hadm : w.admitsNew = true) :
    w.doCmdDoorbell a =
      w.applyDoorbell a.slice ((a.field 0 32).extractLsb' 30 2) ((a.field 0 32).extractLsb' 0 24) := by
  simp only [Wing.doCmdDoorbell, hchk, if_pos hadm]

/-- A doorbell that passes its checks in a running wing is applied beside what the write's entry drives. -/
theorem Wing.byRange_cmd_of_admits (w : Wing) (a : AptWrite) (hrun : w.running = true) (hin : w.vst.inbuf = [])
    (hcmd : AptRange.of a.pageOff = .cmd) (hchk : w.doorbellCheck a 0x200 = none) (hadm : w.admitsNew = true) :
    w.byRange a .cmd Wing.doCmdDoorbell =
      ((w.emit (.aptTaken w.id)).emit (.aptCredit w.id)).applyDoorbell a.slice ((a.field 0 32).extractLsb' 30 2)
        ((a.field 0 32).extractLsb' 0 24) := by
  have harr : isArrivalWrite a = false := by simp [isArrivalWrite, hcmd]
  rw [Wing.byRange, if_pos hcmd, w.takeWrite_at_once a _ hrun hin harr]
  exact Wing.doCmdDoorbell_of_admits _ a hchk hadm

section
variable (s : State) (w : WingId) (a : AptWrite) (hrun : (s.wing w).running = true) (hin : (s.wing w).vst.inbuf = [])
  (hcmd : AptRange.of a.pageOff = .cmd) (hchk : (s.wing w).doorbellCheck a 0x200 = none) (hadm : (s.wing w).admitsNew = true)
include hrun hin hcmd hchk hadm

/-- A doorbell that passes its checks is applied in the step that brings it; `o` is what the write's entry drives. -/
theorem execCommandDoorbell_applies :
    ∃ t, exec (.commandDoorbell w a) s = .next t ∧ s.onlyWing t w ∧ ∃ o, t.wing w =
      { Wing.applyDoorbell { s.wing w with out := o } a.slice ((a.field 0 32).extractLsb' 30 2)
          ((a.field 0 32).extractLsb' 0 24) with out := [] } := by
  refine ⟨_, rfl, s.onWing_only w _, [.aptTaken (s.wing w).id, .aptCredit (s.wing w).id], ?_⟩
  rw [State.onWing_wing, Wing.byRange_cmd_of_admits { s.wing w with out := [] } a hrun hin hcmd hchk hadm]
  rfl

theorem execCommandDoorbell_shows {kind : BitVec 2} {p : Word} (hkind : (a.field 0 32).extractLsb' 30 2 = kind)
    (h : ((s.wing w).slice a.slice).restore kind ((a.field 0 32).extractLsb' 0 24) = some p) :
    ∃ t, exec (.commandDoorbell w a) s = .next t ∧ s.onlyWing t w ∧ (s.wing w).ShowsDoorbell (t.wing w) a.slice kind p := by
  subst hkind
  obtain ⟨t, hnext, honly, o, ht⟩ := execCommandDoorbell_applies s w a hrun hin hcmd hchk hadm
  obtain ⟨htail, hhead, hbad, hrec⟩ := Wing.applyDoorbell_shows { s.wing w with out := o } a.slice _ _ h
  exact ⟨t, hnext, honly, ht ▸ ⟨htail, hhead, hbad, hrec⟩⟩

theorem execCommandDoorbell_counts {kind : BitVec 2} (hkind : (a.field 0 32).extractLsb' 30 2 = kind)
    (h : ((s.wing w).slice a.slice).restore kind ((a.field 0 32).extractLsb' 0 24) = none) :
    ∃ t, exec (.commandDoorbell w a) s = .next t ∧ s.onlyWing t w ∧
      t.wing w = { (s.wing w).count cCmdDbBad with out := [] } := by
  subst hkind
  obtain ⟨t, hnext, honly, o, ht⟩ := execCommandDoorbell_applies s w a hrun hin hcmd hchk hadm
  rw [Wing.applyDoorbell_of_none { s.wing w with out := o } a.slice _ _ h] at ht
  exact ⟨t, hnext, honly, ht⟩

end

end Sys2Proof.Machine

namespace Sys2Proof

open Machine

/-- Settles O20: the model restores by the distance above the head, and the reads that follow leave both positions. -/
theorem commandDoorbellsMovePositions : Obligations.CommandDoorbellsMovePositions := by
  unfold Obligations.CommandDoorbellsMovePositions
  rintro s w a _ v n hrun hin hcmd hchk hadm rfl rfl
  refine ⟨?_, ?_⟩
  · rintro hkind rfl
    refine ⟨fun hvalid => ?_, fun hbad => ?_⟩
    · obtain ⟨t, hnext, honly, htail, -, hctr, hrec⟩ :=
        execCommandDoorbell_shows s w a hrun hin hcmd hchk hadm hkind (SliceSt.restore_tail_valid _ _ hvalid)
      exact ⟨t, hnext, honly, htail, hctr, hrec⟩
    · exact execCommandDoorbell_counts s w a hrun hin hcmd hchk hadm hkind (SliceSt.restore_tail_invalid _ _ hbad)
  · rintro hkind rfl
    refine ⟨fun hvalid => ?_, fun hbad => ?_⟩
    · obtain ⟨t, hnext, honly, -, hhead, hctr, hrec⟩ :=
        execCommandDoorbell_shows s w a hrun hin hcmd hchk hadm hkind (SliceSt.restore_head_valid _ _ hvalid)
      exact ⟨t, hnext, honly, hhead, hctr, hrec⟩
    · exact execCommandDoorbell_counts s w a hrun hin hcmd hchk hadm hkind (SliceSt.restore_head_invalid _ _ hbad)

end Sys2Proof
end

section
/-! Frames of the hearth (R318, R319): each operation of a wing keeps the hearth whole (`_hrt`), or, where it sets a field of the
hearth, the raw counter (`_raw`). Here: branches and rounds, and the operations that the chapters share. -/

namespace Sys2Proof.Machine

/-! ## The hearth -/

@[simp] theorem Hearth.raw_ite (c : Prop) [Decidable c] (g h : Hearth) :
    (if c then g else h).raw = if c then g.raw else h.raw := apply_ite Hearth.raw c g h

@[simp] theorem Hearth.setLatch_raw (h : Hearth) (i : Nat) (l : Latch) : (h.setLatch i l).raw = h.raw := rfl

@[simp] theorem Hearth.alarmEdge_raw (h : Hearth) (i : Nat) : (h.alarmEdge i).raw = h.raw := by
  simp [Hearth.alarmEdge]

@[simp] theorem Hearth.noteWake_raw (h : Hearth) (c : WakeCause) : (h.noteWake c).raw = h.raw := by
  simp [Hearth.noteWake]

@[simp] theorem Hearth.checkRail_raw (h : Hearth) (millivolt : Nat) : (h.checkRail millivolt).raw = h.raw := rfl

/-- R319: the raw edge counts one. -/
@[simp] theorem Hearth.edge_raw (h : Hearth) (now : Tick) : (h.edge now).raw = h.raw + 1 := by
  simp [Hearth.edge, Hearth.show, Hearth.advance]

/-! ## Branches and rounds -/

@[simp] theorem Wing.hrt_ite (c : Prop) [Decidable c] (v w : Wing) :
    (if c then v else w).hrt = if c then v.hrt else w.hrt := apply_ite Wing.hrt c v w

@[simp] theorem Wing.fst_ite {α : Type} (c : Prop) [Decidable c] (a b : Wing × α) :
    (if c then a else b).1 = if c then a.1 else b.1 := apply_ite Prod.fst c a b

/-- A round keeps the hearth when each of its steps does. -/
@[simp] theorem Wing.hrt_foldl {α : Type} (f : Wing → α → Wing) (l : List α) (w : Wing)
    (h : ∀ v a, (f v a).hrt = v.hrt) : (l.foldl f w).hrt = w.hrt :=
  foldl_keeps (·.hrt) f h l w

@[simp] theorem Wing.raw_foldl {α : Type} (f : Wing → α → Wing) (l : List α) (w : Wing)
    (h : ∀ v a, (f v a).hrt.raw = v.hrt.raw) : (l.foldl f w).hrt.raw = w.hrt.raw :=
  foldl_keeps (·.hrt.raw) f h l w

/-- As `hrt_foldl`, for a round that gathers a result beside the wing. -/
@[simp] theorem Wing.hrt_fst_foldl {α β : Type} (f : Wing × β → α → Wing × β) (l : List α) (a : Wing × β)
    (h : ∀ b x, (f b x).1.hrt = b.1.hrt) : (l.foldl f a).1.hrt = a.1.hrt := by
  induction l generalizing a with
  | nil => rfl
  | cons x l ih => exact (ih (f a x)).trans (h a x)

section

variable (w : Wing)

@[simp] theorem Wing.resetWith_hrt (id : WingId) (apt : BitVec 40) (pg : BitVec 64) (h : Hearth) :
    (Wing.resetWith id apt pg h).hrt = h := rfl

@[simp] theorem Wing.when_hrt (c : Bool) (f : Wing → Wing) (h : ∀ v, (f v).hrt = v.hrt) : (w.when c f).hrt = w.hrt := by
  simp [Wing.when, h]

/-! ## Vectors and their slots -/

@[simp] theorem Wing.writeBack_hrt (c : Ctx) : (w.writeBack c).hrt = w.hrt := rfl

@[simp] theorem Wing.addFetch_hrt (key : Word) (c : FetchCause) : (w.addFetch key c).hrt = w.hrt := by simp [Wing.addFetch]

@[simp] theorem Wing.evict_hrt (n : Nat) (c : Ctx) (toBuffer : Bool) : (w.evict n c toBuffer).hrt = w.hrt := by
  simp [Wing.evict]

theorem Wing.hrt_of_install? {w v : Wing} {c : Ctx} {causes : List FetchCause} (h : w.install? c causes = some v) :
    v.hrt = w.hrt := by
  unfold Wing.install? at h
  dsimp only at h
  split at h
  · cases h
  · obtain ⟨ch, -, rfl⟩ := Option.map_eq_some_iff.1 h
    split <;> simp

/-! ## Rings and letters -/

@[simp] theorem Wing.readRings_hrt : w.readRings.hrt = w.hrt := Wing.readRings_keeps_of (·.hrt) (fun _ _ _ _ => rfl) w

@[simp] theorem Wing.applyDoorbell_hrt (s : BitVec 12) (kind : BitVec 2) (pos : BitVec 24) :
    (w.applyDoorbell s kind pos).hrt = w.hrt := by
  unfold Wing.applyDoorbell
  dsimp only
  (repeat' split) <;> simp

@[simp] theorem Wing.sendOut_hrt (s : BitVec 12) (n : Nat) : (w.sendOut s n).hrt = w.hrt := by
  induction n generalizing w with
  | zero => rfl
  | succ n ih =>
    unfold Wing.sendOut
    split
    · rfl
    · split <;> simp [ih]

@[simp] theorem Wing.sendIn_hrt (s : BitVec 12) (n : Nat) : (w.sendIn s n).hrt = w.hrt := by
  induction n generalizing w with
  | zero => rfl
  | succ n ih =>
    unfold Wing.sendIn
    dsimp only
    split
    · rfl
    · split <;> simp [ih]

@[simp] theorem Wing.sendLetters_hrt : w.sendLetters.hrt = w.hrt := by simp [Wing.sendLetters]

@[simp] theorem Wing.takeLetter_hrt (s : BitVec 12) (v : Word) : (w.takeLetter s v).hrt = w.hrt := by simp [Wing.takeLetter]

/-! ## Arrivals -/

@[simp] theorem Wing.filterInsert_hrt (s : BitVec 12) (tag : Word) (t : Tick) : (w.filterInsert s tag t).hrt = w.hrt := by
  simp [Wing.filterInsert]

@[simp] theorem Wing.deliver_hrt (o : Obs) (t : Tick) : (w.deliver o t).hrt = w.hrt := by
  unfold Wing.deliver
  split <;> simp

@[simp] theorem Wing.discard_hrt (o : Obs) (cause : BitVec 2) (recheck : Bool) : (w.discard o cause recheck).hrt = w.hrt := by
  simp [Wing.discard]

@[simp] theorem Wing.rejectObs_hrt (o : Obs) (r : Nat) : (w.rejectObs o r).hrt = w.hrt := by simp [Wing.rejectObs]

@[simp] theorem Wing.serveEsc_hrt : w.serveEsc.hrt = w.hrt := by simp [Wing.serveEsc]

theorem Wing.hrt_of_attemptDoomed_gone {w v : Wing} {o : Obs} (h : w.attemptDoomed o = .gone v) : v.hrt = w.hrt := by
  unfold Wing.attemptDoomed at h
  dsimp only at h
  generalize (if o.escCause = 0 then 0 else 1) = esc at h
  (repeat' split at h) <;> cases h
  simp

theorem Wing.hrt_of_attemptLost_gone {w v : Wing} {o : Obs} (h : w.attemptLost o = .gone v) : v.hrt = w.hrt := by
  unfold Wing.attemptLost at h
  dsimp only at h
  (repeat' split at h) <;> cases h <;> simp

/-- An admission that is over leaves the hearth: the three marks on an arrival first, then the checks. -/
theorem Wing.hrt_of_attempt_gone {w v : Wing} {o : Obs} {late : Bool} (h : w.attempt o late = .gone v) : v.hrt = w.hrt := by
  unfold Wing.attempt at h
  dsimp only at h
  generalize (if o.escCause = 0 then 0 else 1) = esc at h
  by_cases hpoison : o.isOf w.vst.poison = true
  · rw [if_pos hpoison] at h
    cases h
  rw [if_neg hpoison] at h
  by_cases hlost : o.isOf w.vst.spillLost = true
  · rw [if_pos hlost] at h
    exact Wing.hrt_of_attemptLost_gone h
  rw [if_neg hlost] at h
  by_cases hdoomed : o.isOf w.vst.doomed = true
  · rw [if_pos hdoomed] at h
    exact Wing.hrt_of_attemptDoomed_gone h
  rw [if_neg hdoomed] at h
  (repeat' split at h) <;> cases h <;> simp

@[simp] theorem Wing.stage_hrt (o : Obs) : (w.stage o).hrt = w.hrt := by simp [Wing.stage]

@[simp] theorem Wing.fetchFor_hrt (o : Obs) (cause : FetchCause) : (w.fetchFor o cause).hrt = w.hrt := by
  unfold Wing.fetchFor
  split
  · rfl
  · split
    · dsimp only
      split
      · simp
      · split
        next v hv => simpa using Wing.hrt_of_install? hv
        next => simp
    · simp

@[simp] theorem Wing.admitNew_hrt (o : Obs) : (w.admitNew o).hrt = w.hrt := by
  unfold Wing.admitNew
  split
  · simp
  · extract_lets cold w0 w1
    have h1 : w1.hrt = w.hrt := by simp [w1, w0]
    split
    · simp [h1]
    · split
      next v hv => exact (Wing.hrt_of_attempt_gone hv).trans h1
      next => simp [h1]
      next => simp [h1]

@[simp] theorem Wing.registerAt_hrt (t : Tick) (o : Obs) : (w.registerAt t o).hrt = w.hrt := by simp [Wing.registerAt]

@[simp] theorem Wing.register_hrt (o : Obs) : (w.register o).hrt = w.hrt := by simp [Wing.register]

/-! ## Slices, their jobs and drains -/

@[simp] theorem Wing.clearSlice_hrt (s : BitVec 12) (keepRoutes : Bool) : (w.clearSlice s keepRoutes).hrt = w.hrt := rfl

@[simp] theorem Wing.resetSlice_hrt (s : BitVec 12) : (w.resetSlice s).hrt = w.hrt := by simp [Wing.resetSlice]

@[simp] theorem Wing.removeSlice_hrt (s : BitVec 12) : (w.removeSlice s).hrt = w.hrt := by simp [Wing.removeSlice]

@[simp] theorem Wing.creationWrite_hrt (s : BitVec 12) (vtBase evtBase hdrBase : DWord) (vt evt : Nat) (reset : Bool)
    (i : Nat) : (w.creationWrite s vtBase evtBase hdrBase vt evt reset i).hrt = w.hrt := by
  simp [Wing.creationWrite]

@[simp] theorem Wing.issueJob_hrt (s : BitVec 12) (n : Nat) : (w.issueJob s n).1.hrt = w.hrt := by
  unfold Wing.issueJob
  dsimp only
  (repeat' split) <;> simp

@[simp] theorem Wing.issueCreation_hrt : w.issueCreation.hrt = w.hrt := by simp [Wing.issueCreation]

@[simp] theorem Wing.askHalf_hrt (s : BitVec 12) (j : Job) (half : Bool) : (w.askHalf s j half).hrt = w.hrt := rfl

@[simp] theorem Wing.issueHalf_hrt (s : BitVec 12) (j : Job) (half : Bool) : (Wing.issueHalf s j w half).hrt = w.hrt := by
  simp [Wing.issueHalf]

@[simp] theorem Wing.issueBlocks_hrt : w.issueBlocks.hrt = w.hrt := by
  refine Wing.hrt_foldl _ _ _ fun v e => ?_
  split <;> simp

@[simp] theorem Wing.useReads_hrt : w.useReads.hrt = w.hrt := by simp [Wing.useReads]

@[simp] theorem Wing.askBlock_hrt (s : BitVec 12) : (w.askBlock s).hrt = w.hrt := by simp [Wing.askBlock]

@[simp] theorem Wing.offerDrains_hrt : w.offerDrains.hrt = w.hrt := by
  unfold Wing.offerDrains
  split
  · rfl
  · refine Wing.hrt_foldl _ _ _ fun v p => ?_
    dsimp only
    split <;> rfl

/-! ## Ring commands -/

@[simp] theorem Wing.dropRepin_hrt (key : Word) : (w.dropRepin key).hrt = w.hrt := rfl

@[simp] theorem Wing.vecEffect_hrt (op : Byte) (key : Word) (operand : DWord) (t : Tick) :
    (w.vecEffect op key operand t).1.hrt = w.hrt := by
  unfold Wing.vecEffect
  split <;> simp

@[simp] theorem Wing.admitState_hrt (op : Byte) (s : BitVec 12) (t : Tick) : (w.admitState op s t).hrt = w.hrt := by
  simp [Wing.admitState]

@[simp] theorem Wing.finishState_hrt (op : Byte) (s : BitVec 12) (result : Byte) (param : BitVec 1024) (t : Tick) :
    (w.finishState op s result param t).hrt = w.hrt := by
  simp [Wing.finishState]

@[simp] theorem Wing.applyFinish_hrt (t : Tick) (f : FinishRec) (param : BitVec 1024) :
    (w.applyFinish t f param).hrt = w.hrt := by
  unfold Wing.applyFinish
  split <;> simp

theorem Wing.hrt_of_placeFinish {w v : Wing} {d : FinDue} (h : w.placeFinish d = some v) : v.hrt = w.hrt := by
  unfold Wing.placeFinish at h
  split at h
  · cases h; rfl
  · dsimp only at h
    split at h
    · cases h
    · cases h
      simp

@[simp] theorem placeFinishesIn_hrt (ds : List FinDue) : (placeFinishesIn ds w).hrt = w.hrt := by
  induction ds generalizing w with
  | nil => rfl
  | cons d ds ih =>
    unfold placeFinishesIn
    split
    next v hv => exact (ih v).trans (Wing.hrt_of_placeFinish hv)
    next => rfl

@[simp] theorem Wing.placeFinishes_hrt : w.placeFinishes.hrt = w.hrt := by simp [Wing.placeFinishes]

@[simp] theorem Wing.finish_hrt (ring : BitVec 12) (pos : Word) (result : Byte) (rep : Report) (param : BitVec 1024) :
    (w.finish ring pos result rep param).hrt = w.hrt := by
  simp [Wing.finish]

@[simp] theorem Wing.fetchKey_hrt (key : Word) (cause : FetchCause) : (w.fetchKey key cause).hrt = w.hrt := by
  unfold Wing.fetchKey
  (repeat' split) <;> simp

@[simp] theorem Wing.clean_hrt (n : Nat) : (Wing.clean n w).hrt = w.hrt := by
  induction n generalizing w with
  | zero => rfl
  | succ n ih =>
    unfold Wing.clean
    split
    · rfl
    · split <;> simp [ih]

@[simp] theorem Wing.finishFlushes_hrt : w.finishFlushes.hrt = w.hrt := by simp [Wing.finishFlushes]

@[simp] theorem Wing.writeInitial_hrt (key : Word) : (w.writeInitial key).hrt = w.hrt := by simp [Wing.writeInitial]

@[simp] theorem Wing.startLong_hrt (ring : BitVec 12) (u : UCmd) : (w.startLong ring u).hrt = w.hrt := by simp [Wing.startLong]

@[simp] theorem Wing.applyFinished_hrt (ring : BitVec 12) (u : UCmd) (key : Word) :
    (w.applyFinished ring u key).hrt = w.hrt := by
  simp [Wing.applyFinished]

@[simp] theorem Wing.applyPlaced_hrt (key : Word) : (w.applyPlaced key).hrt = w.hrt := by simp [Wing.applyPlaced]

@[simp] theorem Wing.takeCmd_hrt (ring : BitVec 12) (d : Desc) : (w.takeCmd ring d).hrt = w.hrt := by simp [Wing.takeCmd]

@[simp] theorem Wing.haltRing_hrt (ring : BitVec 12) : (w.haltRing ring).hrt = w.hrt := by simp [Wing.haltRing]

theorem Wing.hrt_of_turnFor_take {w v : Wing} {ring : BitVec 12} {d : Desc} (h : w.turnFor ring d = .take v) :
    v.hrt = w.hrt := by
  unfold Wing.turnFor at h
  (repeat' split at h) <;> cases h
  simp

theorem Wing.hrt_of_turn_take {w v : Wing} {ring : BitVec 12} (h : w.turn ring = .take v) : v.hrt = w.hrt := by
  unfold Wing.turn at h
  dsimp only at h
  split at h
  · cases h
  · split at h
    · (repeat' split at h) <;> cases h
      simp
    · split at h
      · exact Wing.hrt_of_turnFor_take h
      · cases h

@[simp] theorem Wing.noteWait_hrt (ring : BitVec 12) : (w.noteWait ring).hrt = w.hrt := rfl

@[simp] theorem Wing.serveFirst_hrt (n : Nat) : (Wing.serveFirst n w).1.hrt = w.hrt := by
  induction n generalizing w with
  | zero => rfl
  | succ n ih =>
    unfold Wing.serveFirst
    split
    next v hv => exact (ih v).trans (Wing.hrt_of_turn_take hv)
    next => simp
    next => rfl

@[simp] theorem serveRound_hrt (ss : List (BitVec 12)) (n : Nat) (told : List (BitVec 12)) :
    (serveRound ss w n told).1.hrt = w.hrt := by
  induction ss generalizing w n told with
  | nil => rfl
  | cons s ss ih =>
    unfold serveRound
    split
    · rfl
    · split
      next v hv => simpa [ih] using Wing.hrt_of_turn_take hv
      next => split <;> simp [ih]
      next => exact ih ..

@[simp] theorem serveRounds_hrt (f n : Nat) (told : List (BitVec 12)) : (serveRounds f w n told).hrt = w.hrt := by
  induction f generalizing w n told with
  | zero => rfl
  | succ f ih => simp [serveRounds, ih]

@[simp] theorem Wing.commandPoint_hrt : w.commandPoint.hrt = w.hrt := by simp [Wing.commandPoint]

@[simp] theorem Wing.command_hrt (ring : BitVec 12) (op : Byte) (a : CmdArgs) : (w.command ring op a).hrt = w.hrt := by
  unfold Wing.command
  split
  · dsimp only
    split
    next v hv => simpa using Wing.hrt_of_turnFor_take hv
    next => simp
    next => rfl
  · rfl

@[simp] theorem Wing.descReturn_hrt (s : BitVec 12) (pos : Word) (rsp : Option (BitVec 512)) :
    (w.descReturn s pos rsp).hrt = w.hrt := by
  unfold Wing.descReturn
  dsimp only
  (repeat' split) <;> simp

/-! ## Admission -/

@[simp] theorem tryStaged_hrt (os : List Obs) (stuck : List Word) (n : Nat) : (tryStaged os stuck n w).1.hrt = w.hrt := by
  induction os generalizing stuck n w with
  | nil => rfl
  | cons o os ih =>
    unfold tryStaged
    split
    · rfl
    · split
      · exact ih ..
      · split
        next v hv => simpa [ih] using Wing.hrt_of_attempt_gone hv
        next => simp [ih]
        next => simp

@[simp] theorem Wing.serveStaged_hrt (s : BitVec 12) : (w.serveStaged s).1.hrt = w.hrt := by simp [Wing.serveStaged]

@[simp] theorem Wing.serveSlice0_hrt (n : Nat) : (Wing.serveSlice0 n w).hrt = w.hrt := by
  induction n generalizing w with
  | zero => rfl
  | succ n ih => simp [Wing.serveSlice0, ih]

@[simp] theorem serveTurns_hrt (ss : List (BitVec 12)) (any : Bool) : (serveTurns ss w any).1.hrt = w.hrt := by
  induction ss generalizing w any with
  | nil => rfl
  | cons s ss ih => simp [serveTurns, ih]

@[simp] theorem serveStagedRounds_hrt (n : Nat) : (serveStagedRounds n w).hrt = w.hrt := by
  induction n generalizing w with
  | zero => rfl
  | succ n ih => simp [serveStagedRounds, ih]

@[simp] theorem Wing.serveAlarms_hrt : w.serveAlarms.hrt = w.hrt := by simp [Wing.serveAlarms]

@[simp] theorem Wing.fetchStaged_hrt : w.fetchStaged.hrt = w.hrt := by simp [Wing.fetchStaged]

@[simp] theorem Wing.admitStaged_hrt : w.admitStaged.hrt = w.hrt := by simp [Wing.admitStaged]

@[simp] theorem Wing.admitKey_hrt (key : Word) : (w.admitKey key).hrt = w.hrt := by simp [Wing.admitKey]

@[simp] theorem Wing.issueReturns_hrt (s : BitVec 12) (fuel room : Nat) : (Wing.issueReturns s fuel room w).hrt = w.hrt := by
  induction fuel generalizing room w with
  | zero => rfl
  | succ n ih => simp [Wing.issueReturns, ih]

@[simp] theorem Wing.returnReads_hrt : w.returnReads.hrt = w.hrt := by simp [Wing.returnReads]

@[simp] theorem Wing.spillReturn_hrt (s : BitVec 12) (rsp : Option (BitVec 512)) : (w.spillReturn s rsp).hrt = w.hrt := by
  simp [Wing.spillReturn]

@[simp] theorem Wing.finishCmds_hrt (causes : List FetchCause) (result : Byte) (rep : Report) :
    (w.finishCmds causes result rep).hrt = w.hrt := by
  refine Wing.hrt_foldl _ _ _ fun v c => ?_
  split
  · split <;> simp
  · rfl

@[simp] theorem Wing.tryInstall_hrt (i : Image) : (w.tryInstall i).1.hrt = w.hrt := by
  unfold Wing.tryInstall
  split
  · simp
  · split
    · simp
    · split
      next v hv => simpa using Wing.hrt_of_install? hv
      next => simp

@[simp] theorem Wing.takeImage_hrt (i : Image) : (w.takeImage i).hrt = w.hrt := by simp [Wing.takeImage]

@[simp] theorem retryImages_hrt (is : List Image) : (retryImages is w).hrt = w.hrt := by
  induction is generalizing w with
  | nil => rfl
  | cons i is ih => simp [retryImages, ih]

@[simp] theorem Wing.retryInstalls_hrt : w.retryInstalls.hrt = w.hrt := by simp [Wing.retryInstalls]

@[simp] theorem Wing.installAt_hrt (n : Nat) (c : Ctx) : (w.installAt n c).hrt = w.hrt := by
  unfold Wing.installAt
  split <;> simp

@[simp] theorem Wing.updateRoute_hrt (i : Nat) : (w.updateRoute i).hrt = w.hrt := by simp [Wing.updateRoute]

@[simp] theorem Wing.updateRoutes_hrt : w.updateRoutes.hrt = w.hrt := by simp [Wing.updateRoutes]

/-! ## Records of the acceptance and deferred groups -/

@[simp] theorem Wing.correctSeq_hrt (r : ArriveRec) : (w.correctSeq r).hrt = w.hrt := by
  unfold Wing.correctSeq
  dsimp only
  (repeat' split) <;> simp

@[simp] theorem Wing.settleSeq_hrt (r : ArriveRec) (strict : Bool) : (w.settleSeq r strict).hrt = w.hrt := by
  simp [Wing.settleSeq]

theorem Wing.hrt_of_applyArrive {w v : Wing} {t : Tick} {r : ArriveRec} (h : w.applyArrive t r = some v) : v.hrt = w.hrt := by
  unfold Wing.applyArrive at h
  dsimp only at h
  split at h
  · cases h
    simp
  · split at h
    · cases h
    · split at h
      · cases h
        split <;> simp
      · split at h
        · cases h
          simp
        · cases h
          simp

@[simp] theorem Wing.applyInstall_hrt (t : Tick) (r : InstallRec) : (w.applyInstall t r).1.hrt = w.hrt := by
  unfold Wing.applyInstall
  (repeat' split) <;> simp

@[simp] theorem Wing.setWord_hrt (k : Nat) (v : Word) : (w.setWord k v).hrt = w.hrt := by
  unfold Wing.setWord
  (repeat' split) <;> simp

@[simp] theorem Wing.applyRegw_hrt (t : Tick) (r : RegwRec) : (w.applyRegw t r).hrt = w.hrt := by simp [Wing.applyRegw]

@[simp] theorem Wing.applyCommand_hrt (t : Tick) (c : CmdRec) (x : CmdExtRec) (op2 : DWord) :
    (w.applyCommand t c x op2).hrt = w.hrt := by
  simp [Wing.applyCommand]

@[simp] theorem Wing.closeCommand_hrt (t : Tick) (c : CmdRec) (x : CmdExtRec) : (w.closeCommand t c x).hrt = w.hrt := by
  unfold Wing.closeCommand
  dsimp only
  (repeat' split) <;> simp

@[simp] theorem Wing.commandDone_hrt (t : Tick) (c : CmdRec) (x : CmdExtRec) (op2 : DWord) :
    (w.commandDone t c x op2).hrt = w.hrt := by
  simp [Wing.commandDone]

@[simp] theorem Wing.applyCmdExt_hrt (t : Tick) (x : CmdExtRec) : (w.applyCmdExt t x).hrt = w.hrt := by
  unfold Wing.applyCmdExt
  (repeat' split) <;> simp

@[simp] theorem Wing.applyFinishRec_hrt (t : Tick) (f : FinishRec) : (w.applyFinishRec t f).hrt = w.hrt := by
  simp [Wing.applyFinishRec]

@[simp] theorem Wing.applyParam_hrt (t : Tick) (p : ParamRec) : (w.applyParam t p).hrt = w.hrt := by
  unfold Wing.applyParam
  split <;> simp

@[simp] theorem Wing.applyLetter_hrt (t : Tick) (r : LetterRec) : (w.applyLetter t r).hrt = w.hrt := by simp [Wing.applyLetter]

@[simp] theorem Wing.applyCoreState_hrt (t : Tick) (r : CoreStateRec) : (w.applyCoreState t r).hrt = w.hrt := by
  simp [Wing.applyCoreState]

@[simp] theorem Wing.blocksDone_hrt (d : Tick) : (w.blocksDone d).hrt = w.hrt := by simp [Wing.blocksDone]

@[simp] theorem Wing.applyDone_hrt (d : Tick) : (w.applyDone d).hrt = w.hrt := by simp [Wing.applyDone]

@[simp] theorem Wing.applyDef_hrt (t : Tick) (r : Rec) : (w.applyDef t r).hrt = w.hrt := by
  unfold Wing.applyDef
  split <;> simp

@[simp] theorem Wing.applyRec_hrt (t : Tick) (r : Rec) : (w.applyRec t r).1.hrt = w.hrt := by
  unfold Wing.applyRec
  split
  case h_2 =>
    split
    next v hv => exact Wing.hrt_of_applyArrive hv
    next => simp
  all_goals simp

/-! ## Porch domains -/

@[simp] theorem Wing.domainOff_hrt (k : BitVec 5) : (w.domainOff k).hrt = w.hrt := rfl

@[simp] theorem Wing.noteOwnVotes_hrt : w.noteOwnVotes.hrt = w.hrt := by
  refine Wing.hrt_foldl _ _ _ fun v k => ?_
  split
  · rfl
  · split <;> rfl

@[simp] theorem Wing.domainOn_hrt (k : BitVec 5) (pdVote : Byte) : (w.domainOn k pdVote).hrt = w.hrt := by
  unfold Wing.domainOn
  split <;> simp

end

end Sys2Proof.Machine
end

section
/-! Frames of the hearth, continued: the vestibule, the passage, the porch side, the hearth's own operations, the cellar, the
integrity checks and the rings. -/

namespace Sys2Proof.Machine

section

variable (w : Wing)

/-! ## Writes, sources and alarms -/

@[simp] theorem Wing.doNative_hrt (a : AptWrite) : (w.doNative a).hrt = w.hrt := by
  unfold Wing.doNative
  split <;> simp

@[simp] theorem Wing.doMsi_hrt (a : AptWrite) : (w.doMsi a).hrt = w.hrt := by
  unfold Wing.doMsi
  split <;> simp

@[simp] theorem Wing.doCmdDoorbell_hrt (a : AptWrite) : (w.doCmdDoorbell a).hrt = w.hrt := by
  unfold Wing.doCmdDoorbell
  split <;> simp

@[simp] theorem Wing.doLetter_hrt (a : AptWrite) : (w.doLetter a).hrt = w.hrt := by
  unfold Wing.doLetter
  split <;> simp

@[simp] theorem Wing.handleWrite_hrt (a : AptWrite) : (w.handleWrite a).hrt = w.hrt := by
  unfold Wing.handleWrite
  split <;> simp

@[simp] theorem Wing.settleReports_hrt : w.settleReports.hrt = w.hrt := by simp [Wing.settleReports]

@[simp] theorem Wing.drain_hrt (n : Nat) : (Wing.drain n w).hrt = w.hrt := by
  induction n generalizing w with
  | zero => rfl
  | succ n ih =>
    unfold Wing.drain
    split
    · rfl
    · split <;> simp [ih]

@[simp] theorem Wing.drainAll_hrt : w.drainAll.hrt = w.hrt := by simp [Wing.drainAll]

@[simp] theorem Wing.takeWrite_hrt (a : AptWrite) (act : Wing → AptWrite → Wing) (h : ∀ v, (act v a).hrt = v.hrt) :
    (w.takeWrite a act).hrt = w.hrt := by
  simp [Wing.takeWrite, h]

@[simp] theorem Wing.byRange_hrt (a : AptWrite) (r : AptRange) (act : Wing → AptWrite → Wing) (h : ∀ v, (act v a).hrt = v.hrt) :
    (w.byRange a r act).hrt = w.hrt := by
  simp [Wing.byRange, h]

@[simp] theorem Wing.wiredChange_hrt (i : Nat) (level : Bool) : (w.wiredChange i level).hrt = w.hrt := by
  unfold Wing.wiredChange
  split <;> simp

@[simp] theorem Wing.raised_hrt (p : Byte) (i : Nat) (cur : BitVec 12) : (w.raised p i cur).hrt = w.hrt := by
  unfold Wing.raised
  split <;> simp

@[simp] theorem Wing.alarmAtWake_raw : w.alarmAtWake.hrt.raw = w.hrt.raw := by
  unfold Wing.alarmAtWake
  (repeat' split) <;> simp

/-! ## Resync -/

@[simp] theorem Wing.sampleCopies_hrt : w.sampleCopies.hrt = w.hrt := by
  unfold Wing.sampleCopies
  split <;> simp

@[simp] theorem Wing.copiesSent_hrt (k : Nat) (f : Tick) : (w.copiesSent k f).hrt = w.hrt := by
  unfold Wing.copiesSent
  split <;> simp

@[simp] theorem Wing.serveFetch_hrt (r : FetchRec) : (w.serveFetch r).hrt = w.hrt := by
  unfold Wing.serveFetch
  dsimp only
  (repeat' split) <;> simp

@[simp] theorem Wing.loadRegion_hrt (a : Nat) (d : DWord) : (w.loadRegion a d).hrt = w.hrt := by simp [Wing.loadRegion]

@[simp] theorem Wing.loadSpace2_hrt (p : Nat) (d : DWord) (f : Tick) : (w.loadSpace2 p d f).hrt = w.hrt := by
  simp [Wing.loadSpace2]

@[simp] theorem Wing.loadCopy_hrt (f : Tick) (r : CopyRec) : (w.loadCopy f r).hrt = w.hrt := by
  unfold Wing.loadCopy
  split <;> simp

@[simp] theorem Wing.takeCopy_hrt (f : Tick) (r : CopyRec) : (w.takeCopy f r).hrt = w.hrt := by simp [Wing.takeCopy]

/-- The registers that a joining wing keeps are no part of the hearth. -/
@[simp] theorem Wing.keepCopied_hrt (old new : Wing) : (Wing.keepCopied old new).hrt = new.hrt := by simp [Wing.keepCopied]

@[simp] theorem Wing.withPartial_hrt (keys : List Word) (f : Wing → Wing × Bool) (h : ∀ v, (f v).1.hrt = v.hrt) :
    (w.withPartial keys f).1.hrt = w.hrt := by
  unfold Wing.withPartial
  split
  · exact h w
  · split
    · exact h w
    · simp [h]

@[simp] theorem Wing.applyJoining_hrt (t : Tick) (r : Rec) : (w.applyJoining t r).1.hrt = w.hrt := by
  unfold Wing.applyJoining
  dsimp only
  split
  · simp
  · split <;> simp

/-! ## The passage as its frames are applied -/

@[simp] theorem Wing.failHeldWrites_hrt : w.failHeldWrites.hrt = w.hrt := by
  unfold Wing.failHeldWrites
  split <;> simp

@[simp] theorem Wing.enterJoining_hrt : w.enterJoining.hrt = w.hrt := by simp [Wing.enterJoining]

@[simp] theorem Wing.demote_hrt : w.demote.hrt = w.hrt := by simp [Wing.demote]

@[simp] theorem Wing.withdrawNow_hrt : w.withdrawNow.hrt = w.hrt := by simp [Wing.withdrawNow]

@[simp] theorem Wing.giveWay_hrt (cfgWord : Bool) : (w.giveWay cfgWord).hrt = w.hrt := by simp [Wing.giveWay]

@[simp] theorem Wing.registerSources_hrt (due : List Nat) (t : Tick) : (w.registerSources due t).hrt = w.hrt := by
  simp [Wing.registerSources]

@[simp] theorem Wing.resample_hrt (lv : SMap Bool) (t : Tick) : (w.resample lv t).hrt = w.hrt := by simp [Wing.resample]

@[simp] theorem Wing.settleRanking_hrt (r : Ranking) (t : Tick) : (w.settleRanking r t).hrt = w.hrt := by
  simp [Wing.settleRanking]

theorem Wing.hrt_of_takeRec {w v : Wing} {r : Rec} {t : Tick} (h : w.takeRec r = some (t, v)) : v.hrt = w.hrt := by
  unfold Wing.takeRec at h
  split at h
  · split at h
    · cases h; rfl
    · cases h
  · cases h

@[simp] theorem Wing.applyAs_hrt (t : Tick) (r : Rec) : (w.applyAs t r).1.hrt = w.hrt := by simp [Wing.applyAs]

@[simp] theorem Wing.turnOf_hrt (t : Tick) (r : Rec) : (w.turnOf t r).hrt = w.hrt := by simp [Wing.turnOf]

@[simp] theorem Wing.drainHold_hrt (n : Nat) : (Wing.drainHold n w).hrt = w.hrt := by
  induction n generalizing w with
  | zero => rfl
  | succ n ih =>
    unfold Wing.drainHold
    split
    · rfl
    · simp [ih]

@[simp] theorem Wing.resumeHold_hrt : w.resumeHold.hrt = w.hrt := by simp [Wing.resumeHold]

@[simp] theorem Wing.fromOldWing_hrt (r : Rec) : (w.fromOldWing r).hrt = w.hrt := by
  unfold Wing.fromOldWing
  split <;> simp

@[simp] theorem Wing.recordStep_hrt (r : Rec) : (w.recordStep r).hrt = w.hrt := by
  unfold Wing.recordStep
  split
  next t v hv => simp [Wing.hrt_of_takeRec hv]
  next => rfl

@[simp] theorem Wing.settleMark_hrt : w.settleMark.hrt = w.hrt := by simp [Wing.settleMark]

@[simp] theorem Wing.copyStep_hrt (r : CopyRec) : (w.copyStep r).hrt = w.hrt := by
  unfold Wing.copyStep
  split
  next t v hv => simp [Wing.hrt_of_takeRec hv]
  next => rfl

@[simp] theorem Wing.fetchStep_hrt (r : FetchRec) : (w.fetchStep r).hrt = w.hrt := by
  unfold Wing.fetchStep
  split
  next t v hv => simp [Wing.hrt_of_takeRec hv]
  next => rfl

@[simp] theorem Wing.takeBacklog_hrt (f : ArrFill) : (w.takeBacklog f).hrt = w.hrt := by
  unfold Wing.takeBacklog
  split <;> simp

@[simp] theorem Wing.arrivalPart_hrt (r : ArrivalRec) : (w.arrivalPart r).hrt = w.hrt := by
  unfold Wing.arrivalPart
  dsimp only
  (repeat' split) <;> simp

@[simp] theorem Wing.arrivalStep_hrt (r : ArrivalRec) : (w.arrivalStep r).hrt = w.hrt := by
  unfold Wing.arrivalStep
  split
  next t v hv => simp [Wing.hrt_of_takeRec hv]
  next => rfl

@[simp] theorem Wing.refillReload_hrt (key : Word) : (w.refillReload key).hrt = w.hrt := by
  unfold Wing.refillReload
  (repeat' split) <;> simp

@[simp] theorem Wing.fillStep_hrt (r : FillRec) : (w.fillStep r).hrt = w.hrt := by
  unfold Wing.fillStep
  split
  next t v hv => simp [Wing.hrt_of_takeRec hv]
  next => rfl

@[simp] theorem Wing.registerRaw_hrt (src pch : List Nat) (a : Wing × SMap Bool) (e : Tick × RawEvent) :
    (Wing.registerRaw src pch a e).1.hrt = a.1.hrt := by
  unfold Wing.registerRaw
  split <;> simp

@[simp] theorem Wing.countBack_hrt (o n : Nat) : (w.countBack o n).hrt = w.hrt := rfl

@[simp] theorem Wing.dropUnderOld_hrt (t : Tick) : (w.dropUnderOld t).hrt = w.hrt := by simp [Wing.dropUnderOld]

@[simp] theorem Wing.rerouteAlarms_hrt (t : Tick) : (w.rerouteAlarms t).hrt = w.hrt := rfl

@[simp] theorem Wing.rederive_hrt (t : Tick) : (w.rederive t).hrt = w.hrt := by simp [Wing.rederive]

@[simp] theorem Wing.compareDigest_hrt (f : Tick) (r : CloseRec) (made before : Word) :
    (w.compareDigest f r made before).hrt = w.hrt := by
  unfold Wing.compareDigest
  split <;> simp

@[simp] theorem Wing.checkDigest_hrt (f : Tick) (before : Word) : (w.checkDigest f before).hrt = w.hrt := by
  unfold Wing.checkDigest
  split <;> simp

@[simp] theorem Wing.rankShadow_hrt (t : Tick) : (w.rankShadow t).hrt = w.hrt := by simp [Wing.rankShadow]

@[simp] theorem Wing.compareRef_hrt : w.compareRef.hrt = w.hrt := by simp [Wing.compareRef]

@[simp] theorem Wing.frameApplied_hrt : w.frameApplied.hrt = w.hrt := by
  unfold Wing.frameApplied
  (repeat' split) <;> simp

@[simp] theorem Wing.compareSig_hrt (frame : Tick) (r : CloseRec) : (w.compareSig frame r).hrt = w.hrt := by
  simp [Wing.compareSig]

@[simp] theorem Wing.seeClaim_hrt (r : CloseRec) : (w.seeClaim r).hrt = w.hrt := by simp [Wing.seeClaim]

@[simp] theorem Wing.compareFirst_hrt (frame : Tick) (r : CloseRec) : (w.compareFirst frame r).hrt = w.hrt := by
  simp [Wing.compareFirst]

@[simp] theorem Wing.tickClose_hrt (frame : Tick) (replayed : Bool) (r : CloseRec) :
    (w.tickClose frame replayed r).hrt = w.hrt := by
  simp [Wing.tickClose]

/-! ## Beats of the porches -/

@[simp] theorem Wing.settleOffers_hrt (p : Byte) (ok : Nat → Bool) : (w.settleOffers p ok).hrt = w.hrt := by
  simp [Wing.settleOffers]

@[simp] theorem Wing.checkHeld_hrt (p : Byte) (held : List Word) : (w.checkHeld p held).hrt = w.hrt := by simp [Wing.checkHeld]

@[simp] theorem Wing.acceptRsp_hrt (p : Byte) (bits : BitVec 4) (held : List Word) : (w.acceptRsp p bits held).hrt = w.hrt := by
  simp [Wing.acceptRsp]

@[simp] theorem Wing.acceptLate_hrt (p : Byte) : (w.acceptLate p).hrt = w.hrt := by simp [Wing.acceptLate]

@[simp] theorem Wing.refused_hrt (claim : Word) : (w.refused claim).hrt = w.hrt := by simp [Wing.refused]

@[simp] theorem Wing.applyEntry_hrt (p : Byte) (e : Entry) (t : Tick) : (w.applyEntry p e t).hrt = w.hrt := by
  unfold Wing.applyEntry
  split <;> simp

theorem Wing.hrt_of_replayEntry {w v : Wing} {p : Byte} {e : Entry} (h : w.replayEntry p e = some v) : v.hrt = w.hrt := by
  unfold Wing.replayEntry at h
  split at h
  · cases h; simp
  · split at h
    · cases h; simp
    · split at h
      · cases h; simp
      · cases h

@[simp] theorem Wing.replayList_hrt (p : Byte) (es : List Entry) : (Wing.replayList p es w).1.hrt = w.hrt := by
  induction es generalizing w with
  | nil => rfl
  | cons e es ih =>
    unfold Wing.replayList
    split
    next v hv => exact (ih v).trans (Wing.hrt_of_replayEntry hv)
    next => rfl

@[simp] theorem Wing.applySlotReport_hrt (p : Byte) : (w.applySlotReport p).hrt = w.hrt := by simp [Wing.applySlotReport]

@[simp] theorem Wing.applyReplay_hrt (p : Byte) : (w.applyReplay p).hrt = w.hrt := by simp [Wing.applyReplay]

@[simp] theorem Wing.applyReplays_hrt : w.applyReplays.hrt = w.hrt := by simp [Wing.applyReplays]

@[simp] theorem Wing.applyDeferred_hrt (p : Byte) (e : Entry) : (w.applyDeferred p e).hrt = w.hrt := by
  unfold Wing.applyDeferred
  split <;> simp

@[simp] theorem Wing.applyAllDeferred_hrt : w.applyAllDeferred.hrt = w.hrt := by simp [Wing.applyAllDeferred]

@[simp] theorem Wing.applySlotReports_hrt : w.applySlotReports.hrt = w.hrt := by simp [Wing.applySlotReports]

/-! ## The hearth's own operations -/

/-- A change of the hearth that keeps the raw counter keeps it in the wing. -/
@[simp] theorem Wing.onHearth_raw (f : Hearth → Hearth) (h : ∀ g, (f g).raw = g.raw) : (w.onHearth f).hrt.raw = w.hrt.raw := by
  simp [Wing.onHearth, h]

@[simp] theorem Wing.writeAnchor_raw : w.writeAnchor.hrt.raw = w.hrt.raw := by simp [Wing.writeAnchor]

@[simp] theorem Wing.registerAlarms_raw : w.registerAlarms.hrt.raw = w.hrt.raw := by simp [Wing.registerAlarms]

@[simp] theorem Wing.setCalendar_raw (val : BitVec 63) : (w.setCalendar val).hrt.raw = w.hrt.raw := by simp [Wing.setCalendar]

@[simp] theorem Wing.askPair_raw : w.askPair.hrt.raw = w.hrt.raw := by simp [Wing.askPair]

@[simp] theorem Wing.portLive_raw (f : Wing → Wing) (h : ∀ v, (f v).hrt.raw = v.hrt.raw) :
    (w.portLive f).hrt.raw = w.hrt.raw := by
  unfold Wing.portLive
  split <;> simp [h]

/-! ## Levels, votes and acknowledgements -/

@[simp] theorem Wing.switchLevel_hrt (l : Level) (vok : Bool) : (w.switchLevel l vok).hrt = w.hrt := by simp [Wing.switchLevel]

@[simp] theorem Wing.levelChange_hrt (vok : Bool) : (w.levelChange vok).hrt = w.hrt := by
  unfold Wing.levelChange
  split <;> simp

@[simp] theorem Wing.clearPair_hrt : w.clearPair.hrt = w.hrt := rfl

@[simp] theorem Wing.ackDeadline_hrt : w.ackDeadline.hrt = w.hrt := by simp [Wing.ackDeadline]

/-! ## Reads and writes of the cellar -/

@[simp] theorem Wing.readFails_hrt (f : Fetch) : (w.readFails f).hrt = w.hrt := by simp [Wing.readFails]

@[simp] theorem Wing.standbyFails_hrt (f : Fetch) : (w.standbyFails f).hrt = w.hrt := by simp [Wing.standbyFails]

@[simp] theorem Wing.reportsFor_hrt (key : Word) : (w.reportsFor key).hrt = w.hrt := by
  refine Wing.hrt_foldl _ _ _ fun v e => ?_
  split <;> simp

@[simp] theorem Wing.finishReload_hrt (r : Reload) (c : Ctx) (causes : List FetchCause) :
    (w.finishReload r c causes).hrt = w.hrt := by
  simp [Wing.finishReload]

@[simp] theorem Wing.imageForActive_hrt (f : Fetch) (c : Ctx) : (w.imageForActive f c).hrt = w.hrt := by
  unfold Wing.imageForActive
  split <;> simp

@[simp] theorem Wing.settleReloads_hrt : w.settleReloads.hrt = w.hrt := by
  refine Wing.hrt_foldl _ _ _ fun v i => ?_
  dsimp only
  split
  · split <;> simp
  · rfl

@[simp] theorem Wing.imageForOther_hrt (f : Fetch) (c : Ctx) : (w.imageForOther f c).hrt = w.hrt := by
  unfold Wing.imageForOther
  split <;> simp

@[simp] theorem Wing.cellarReturn_hrt (key : Word) (rsp : Option (BitVec 256)) : (w.cellarReturn key rsp).hrt = w.hrt := by
  unfold Wing.cellarReturn
  dsimp only
  (repeat' split) <;> simp

@[simp] theorem Wing.finishQuarResets_hrt (key : Word) : (w.finishQuarResets key).hrt = w.hrt := by simp [Wing.finishQuarResets]

@[simp] theorem Wing.writeInitials_hrt : w.writeInitials.hrt = w.hrt := by simp [Wing.writeInitials]

@[simp] theorem Wing.writeAccepted_hrt (key : Word) (ok : Bool) : (w.writeAccepted key ok).hrt = w.hrt := by
  unfold Wing.writeAccepted
  split <;> simp

/-! ## Upsets, wear and moves -/

@[simp] theorem Wing.flipBits_hrt (k : Nat) (m : Word) : (w.flipBits k m).hrt = w.hrt := rfl

@[simp] theorem Wing.flipWord_hrt (k : Nat) (m : Word) : (w.flipWord k m).hrt = w.hrt := by simp [Wing.flipWord]

@[simp] theorem Wing.flipField_hrt (code : Byte) (i : Nat) (m : BitVec 96) : (w.flipField code i m).hrt = w.hrt := by
  unfold Wing.flipField
  split <;> simp

@[simp] theorem Wing.voteRead_hrt (f : VoteFind) : (w.voteRead f).hrt = w.hrt := by simp [Wing.voteRead]

@[simp] theorem Wing.wearBank_hrt (p : Nat) : (w.wearBank p).hrt = w.hrt := by simp [Wing.wearBank]

@[simp] theorem Wing.wearSlice_hrt (p : Nat) : (w.wearSlice p).hrt = w.hrt := by simp [Wing.wearSlice]

@[simp] theorem Wing.failedNoSpare_hrt (u : Nat) : (w.failedNoSpare u).hrt = w.hrt := by simp [Wing.failedNoSpare]

@[simp] theorem Wing.settleSpares_hrt : w.settleSpares.hrt = w.hrt := by simp [Wing.settleSpares]

@[simp] theorem Wing.fenceAndReload_hrt (n : Nat) (s : Slot) (recheck pinned : Bool) :
    (w.fenceAndReload n s recheck pinned).hrt = w.hrt := by
  simp [Wing.fenceAndReload]

@[simp] theorem Wing.contextLost_hrt (n : Nat) : (w.contextLost n).hrt = w.hrt := by
  unfold Wing.contextLost
  split <;> simp

@[simp] theorem Wing.directoryLost_hrt (n : Nat) : (w.directoryLost n).hrt = w.hrt := by
  unfold Wing.directoryLost
  (repeat' split) <;> simp

@[simp] theorem Wing.obsLost_hrt (o : Obs) : (w.obsLost o).hrt = w.hrt := by simp [Wing.obsLost]

@[simp] theorem Wing.writeLost_hrt (j : Nat) (a : AptWrite) : (w.writeLost j a).hrt = w.hrt := by simp [Wing.writeLost]

@[simp] theorem Wing.arrivalLost_hrt (i : Nat) : (w.arrivalLost i).hrt = w.hrt := by
  unfold Wing.arrivalLost
  dsimp only
  (repeat' split) <;> simp

@[simp] theorem Wing.filterLost_hrt (i : Nat) : (w.filterLost i).hrt = w.hrt := by
  unfold Wing.filterLost
  (repeat' split) <;> simp

@[simp] theorem Wing.configLost_hrt (a : Nat) : (w.configLost a).hrt = w.hrt := by simp [Wing.configLost]

@[simp] theorem Wing.writeAgain_hrt (i : Nat) : (w.writeAgain i).hrt = w.hrt := by
  unfold Wing.writeAgain
  split <;> simp

@[simp] theorem Wing.unreadable_hrt (f : EccFind) : (w.unreadable f).hrt = w.hrt := by
  unfold Wing.unreadable
  split <;> simp

@[simp] theorem Wing.eccRead_hrt (f : EccFind) : (w.eccRead f).hrt = w.hrt := by
  unfold Wing.eccRead
  (repeat' split) <;> simp

@[simp] theorem Wing.eccReads_hrt (l : List EccFind) : (w.eccReads l).hrt = w.hrt := by simp [Wing.eccReads]

@[simp] theorem Wing.passEnd_hrt : w.passEnd.hrt = w.hrt := by simp [Wing.passEnd]

@[simp] theorem Wing.wearRestart_hrt : w.wearRestart.hrt = w.hrt := by simp [Wing.wearRestart]

@[simp] theorem Wing.moveBank_hrt (a s : Nat) : (w.moveBank a s).hrt = w.hrt := by
  unfold Wing.moveBank
  split <;> simp

@[simp] theorem Wing.moveSlice_hrt (a s : Nat) : (w.moveSlice a s).hrt = w.hrt := by
  unfold Wing.moveSlice
  split <;> simp

@[simp] theorem Wing.startMove_hrt (slice : Bool) (a s : Nat) : (w.startMove slice a s).hrt = w.hrt := by simp [Wing.startMove]

@[simp] theorem Wing.bankMove_hrt : w.bankMove.hrt = w.hrt := by
  unfold Wing.bankMove
  (repeat' split) <;> simp

@[simp] theorem Wing.sliceMove_hrt : w.sliceMove.hrt = w.hrt := by
  unfold Wing.sliceMove
  (repeat' split) <;> simp

@[simp] theorem Wing.endMove_hrt (m : UnitMove) : (w.endMove m).hrt = w.hrt := by simp [Wing.endMove]

@[simp] theorem Wing.moveStep_hrt : w.moveStep.hrt = w.hrt := by
  unfold Wing.moveStep
  (repeat' split) <;> simp

@[simp] theorem Wing.finishMove_hrt : w.finishMove.hrt = w.hrt := by
  unfold Wing.finishMove
  split <;> simp

@[simp] theorem Wing.upsetWord_hrt (f : Nat × Word) : (w.upsetWord f).hrt = w.hrt := by simp [Wing.upsetWord]

/-! ## Frames, blocks and lanes -/

@[simp] theorem Wing.sendFrame_hrt (f : Frame) : (w.sendFrame f).hrt = w.hrt := rfl

@[simp] theorem Wing.loseFailed_hrt (t : Tick) : (w.loseFailed t).hrt = w.hrt := rfl

@[simp] theorem Wing.laneFails_hrt (l : Nat) (own : Bool) : (w.laneFails l own).hrt = w.hrt := by simp [Wing.laneFails]

@[simp] theorem Wing.loseBlock_hrt (l : Nat) (place : Option (Tick × Nat × Nat)) : (w.loseBlock l place).hrt = w.hrt := by
  unfold Wing.loseBlock
  split <;> simp

@[simp] theorem Wing.followMap_hrt (t : Tick) (m : BitVec 4) : (w.followMap t m).hrt = w.hrt := by simp [Wing.followMap]

@[simp] theorem Wing.takeRxbad_hrt (m : BitVec 4) : (w.takeRxbad m).hrt = w.hrt := by simp [Wing.takeRxbad]

@[simp] theorem Wing.takeAck_hrt (h : BlockHdr) : (w.takeAck h).hrt = w.hrt := by simp [Wing.takeAck]

@[simp] theorem Wing.takeNak_hrt (h : BlockHdr) : (w.takeNak h).hrt = w.hrt := by simp [Wing.takeNak]

@[simp] theorem Wing.dropLane_hrt (t : Tick) (l : Nat) : (w.dropLane t l).hrt = w.hrt := by simp [Wing.dropLane]

@[simp] theorem Wing.enterBlock_hrt (t : Tick) (hdr : Option BlockHdr) (l b : Nat) (d : BitVec 1792) (rs : List Rec) :
    (w.enterBlock t hdr l b d rs).hrt = w.hrt := by
  unfold Wing.enterBlock
  dsimp only
  (repeat' split) <;> simp

@[simp] theorem Wing.training_hrt (l : Nat) (ok clean : Bool) (h : BlockHdr) : (w.training l ok clean h).hrt = w.hrt := by
  simp [Wing.training]

@[simp] theorem Wing.takeHeader_hrt (h : BlockHdr) : (w.takeHeader h).hrt = w.hrt := by simp [Wing.takeHeader]

@[simp] theorem Wing.decoded_hrt (l : Nat) (ok : Bool) (h : BlockHdr) (place : Option (Tick × Nat × Nat)) (d : BitVec 1792)
    (n : Nat) : (w.decoded l ok h place d n).hrt = w.hrt := by
  unfold Wing.decoded
  dsimp only
  (repeat' split) <;> simp

@[simp] theorem Wing.synced_hrt (l : Nat) (x : BitVec 2048) : (w.synced l x).hrt = w.hrt := by
  unfold Wing.synced
  split <;> simp

@[simp] theorem Wing.takeBlock_hrt (l : Nat) (x : BitVec 2048) (late : Bool) : (w.takeBlock l x late).hrt = w.hrt := by
  simp [Wing.takeBlock]

@[simp] theorem Wing.replay_hrt : w.replay.hrt = w.hrt := by
  unfold Wing.replay
  (repeat' split) <;> simp

/-! ## Reads at the register port -/

@[simp] theorem Wing.portError_hrt (reason : BitVec 4) (req : Byte) (path : BitVec 2) (strb : Byte) (addr : BitVec 24) :
    (w.portError reason req path strb addr).hrt = w.hrt := rfl

@[simp] theorem Wing.clearWindow_hrt (o : Nat) (m : Word) : (w.clearWindow o m).hrt = w.hrt := by simp [Wing.clearWindow]

@[simp] theorem Wing.clearHearth_raw (m : Word) : (w.clearHearth m).hrt.raw = w.hrt.raw := Wing.onHearth_raw w _ fun _ => rfl

@[simp] theorem Wing.clearRead_raw (k : Nat) (m : Word) : (w.clearRead k m).hrt.raw = w.hrt.raw := by simp [Wing.clearRead]

@[simp] theorem Wing.doRead_raw (a : RegAccess) : (w.doRead a).hrt.raw = w.hrt.raw := by
  unfold Wing.doRead
  split <;> simp

/-! ## Creation, quiescing and draining -/

@[simp] theorem Wing.bootFails_hrt (code : Byte) : (w.bootFails code).hrt = w.hrt := rfl

@[simp] theorem Wing.judgeBlock_hrt (s : BitVec 12) (j : Job) (b : BitVec 1024) : (w.judgeBlock s j b).2.hrt = w.hrt := by
  unfold Wing.judgeBlock
  split <;> simp

@[simp] theorem Wing.bootBlock_hrt (j : Job) (rsp : Option (BitVec 1024)) : (w.bootBlock j rsp).hrt = w.hrt := by
  unfold Wing.bootBlock
  split <;> simp

@[simp] theorem Wing.commandBlock_hrt (s : BitVec 12) (j : Job) (rsp : Option (BitVec 1024)) :
    (w.commandBlock s j rsp).hrt = w.hrt := by
  unfold Wing.commandBlock
  split <;> simp

@[simp] theorem Wing.blockRead_hrt (s : BitVec 12) (j : Job) (rsp : Option (BitVec 1024)) :
    (w.blockRead s j rsp).hrt = w.hrt := by
  simp [Wing.blockRead]

@[simp] theorem Wing.endBlockRead_hrt (x : BitVec 12 × Bool × Bool) : (w.endBlockRead x).hrt = w.hrt := rfl

@[simp] theorem Wing.halfRead_hrt (x : BitVec 12 × Bool × Bool) (s : BitVec 12) (j : Job) (half : Bool)
    (rsp : Option (BitVec 512)) : (w.halfRead x s j half rsp).hrt = w.hrt := by
  unfold Wing.halfRead
  split <;> simp

@[simp] theorem Wing.paramRead_hrt (s : BitVec 12) (half : Bool) (rsp : Option (BitVec 512)) :
    (w.paramRead s half rsp).hrt = w.hrt := by
  unfold Wing.paramRead
  split <;> simp

@[simp] theorem Wing.endQuiesce_hrt (s : BitVec 12) (c : Bool) : (w.endQuiesce s c).hrt = w.hrt := by
  unfold Wing.endQuiesce
  split <;> simp

@[simp] theorem Wing.drainTaken_hrt (p : Nat) : (w.drainTaken p).hrt = w.hrt := by simp [Wing.drainTaken]

@[simp] theorem Wing.drainDone_hrt (p : Nat) (pasid : BitVec 20) (gen : Byte) : (w.drainDone p pasid gen).hrt = w.hrt := by
  simp [Wing.drainDone]

/-! ## Event rings -/

@[simp] theorem Wing.writeHeader_hrt (n : BitVec 12) : (w.writeHeader n).hrt = w.hrt := by
  unfold Wing.writeHeader
  dsimp only
  (repeat' split) <;> simp

@[simp] theorem Wing.writeHeaders_hrt : w.writeHeaders.hrt = w.hrt := by simp [Wing.writeHeaders]

@[simp] theorem Wing.formHeaders_hrt : w.formHeaders.hrt = w.hrt := by simp [Wing.formHeaders]

@[simp] theorem Wing.writeBlock_hrt (b : EvBlock) (rewrite : Bool) : (w.writeBlock b rewrite).hrt = w.hrt := by
  simp [Wing.writeBlock]

@[simp] theorem Wing.writeBlocks_hrt (old : Tick → Bool) (n : Nat) : (Wing.writeBlocks old n w).hrt = w.hrt := by
  induction n generalizing w with
  | zero => rfl
  | succ n ih =>
    unfold Wing.writeBlocks
    split
    · rfl
    · split <;> simp [ih]

@[simp] theorem Wing.ringTurn_hrt (old : Tick → Bool) : (w.ringTurn old).hrt = w.hrt := by simp [Wing.ringTurn]

@[simp] theorem Wing.recordAccepted_hrt (n : BitVec 12) (p : Word) : (w.recordAccepted n p).hrt = w.hrt := by
  simp [Wing.recordAccepted]

end

end Sys2Proof.Machine
end

section
/-! Frames of the hearth, continued: takeover, bring-up, the register port, the study, the levels and the tick boundary. -/

namespace Sys2Proof.Machine

section

variable (w : Wing)

/-! ## Takeover, recovery and handover -/

@[simp] theorem Wing.sendClaim_hrt : w.sendClaim.hrt = w.hrt := by simp [Wing.sendClaim]

@[simp] theorem Wing.raiseClaim_hrt (f : Wing → Wing) (h : ∀ v, (f v).hrt = v.hrt) : (w.raiseClaim f).hrt = w.hrt := by
  unfold Wing.raiseClaim
  split <;> simp [h]

@[simp] theorem Wing.raiseClaim_raw (f : Wing → Wing) (h : ∀ v, (f v).hrt.raw = v.hrt.raw) :
    (w.raiseClaim f).hrt.raw = w.hrt.raw := by
  unfold Wing.raiseClaim
  split <;> simp [h]

@[simp] theorem Wing.endTurned_hrt : w.endTurned.hrt = w.hrt := by simp [Wing.endTurned]

@[simp] theorem Wing.loadPchCfg_hrt : w.loadPchCfg.hrt = w.hrt := by simp [Wing.loadPchCfg]

@[simp] theorem Wing.startReloads_hrt : w.startReloads.hrt = w.hrt := by simp [Wing.startReloads]

@[simp] theorem Wing.stepT_hrt (recovery : Bool) : (w.stepT recovery).hrt = w.hrt := by simp [Wing.stepT]

@[simp] theorem Wing.orphan_hrt : w.orphan.hrt = w.hrt := by simp [Wing.orphan]

@[simp] theorem Wing.takeover_hrt : w.takeover.hrt = w.hrt := by simp [Wing.takeover]

@[simp] theorem Wing.applyKept_hrt : w.applyKept.hrt = w.hrt := by
  refine Wing.hrt_foldl _ _ _ fun v s => ?_
  dsimp only
  (repeat' split) <;> simp

@[simp] theorem Wing.restartCmd_hrt (ring : BitVec 12) (u : UCmd) : (w.restartCmd ring u).hrt = w.hrt := by
  simp [Wing.restartCmd]

@[simp] theorem Wing.restartCmds_hrt : w.restartCmds.hrt = w.hrt := by simp [Wing.restartCmds]

@[simp] theorem Wing.stepT1_hrt : w.stepT1.hrt = w.hrt := by simp [Wing.stepT1]

@[simp] theorem Wing.takeoverWrites_hrt : w.takeoverWrites.hrt = w.hrt := by simp [Wing.takeoverWrites]

@[simp] theorem Wing.standbyLost_hrt : w.standbyLost.hrt = w.hrt := by simp [Wing.standbyLost]

@[simp] theorem Wing.resyncStart_hrt (peerSuspect : Bool) : (w.resyncStart peerSuspect).hrt = w.hrt := by
  simp [Wing.resyncStart]

@[simp] theorem Wing.joined_hrt : w.joined.hrt = w.hrt := by simp [Wing.joined]

@[simp] theorem Wing.resynced_hrt : w.resynced.hrt = w.hrt := rfl

@[simp] theorem Wing.resyncDone_hrt : w.resyncDone.hrt = w.hrt := by simp [Wing.resyncDone]

@[simp] theorem Wing.claimHandover_hrt (f : Wing → Wing) (h : ∀ v, (f v).hrt = v.hrt) : (w.claimHandover f).hrt = w.hrt := by
  simp [Wing.claimHandover, h]

@[simp] theorem Wing.takeOverRole_hrt : w.takeOverRole.hrt = w.hrt := by simp [Wing.takeOverRole]

@[simp] theorem Wing.handover_hrt : w.handover.hrt = w.hrt := by simp [Wing.handover]

/-! ## Bring-up and reset -/

@[simp] theorem Wing.timeLost_raw : w.timeLost.hrt.raw = w.hrt.raw := by simp [Wing.timeLost]

@[simp] theorem Wing.rebuildTick_raw (e : Option Tick) : (w.rebuildTick e).2.hrt.raw = w.hrt.raw := by
  unfold Wing.rebuildTick
  split <;> simp

@[simp] theorem Wing.start_hrt (save : Option SaveArea) : (w.start save).hrt = w.hrt := by simp [Wing.start]

@[simp] theorem Wing.rawSeen_raw : w.rawSeen.hrt.raw = w.hrt.raw := by
  unfold Wing.rawSeen
  split <;> simp

@[simp] theorem Wing.startClaim_hrt : w.startClaim.hrt = w.hrt := by simp [Wing.startClaim]

@[simp] theorem Wing.placeBoot_hrt (b : BitVec 1024) : (w.placeBoot b).hrt = w.hrt := by simp [Wing.placeBoot]

@[simp] theorem Wing.startComplete_hrt : w.startComplete.hrt = w.hrt := by
  unfold Wing.startComplete
  split <;> simp

@[simp] theorem Wing.assertReset_hrt : w.assertReset.hrt = w.hrt := rfl

@[simp] theorem Wing.leaveReset_hrt (aptBase : BitVec 40) (portGen : BitVec 64) :
    (w.leaveReset aptBase portGen).hrt = w.hrt := by
  simp [Wing.leaveReset]

/-! ## What a tick opens with -/

@[simp] theorem Wing.sampleGroup_hrt (g : Nat) : (w.sampleGroup g).hrt = w.hrt := by simp [Wing.sampleGroup]

@[simp] theorem Wing.sampleCores_hrt : w.sampleCores.hrt = w.hrt := by simp [Wing.sampleCores]

@[simp] theorem Wing.resampleIdle_hrt (due : List Nat) : (w.resampleIdle due).hrt = w.hrt := by simp [Wing.resampleIdle]

@[simp] theorem Wing.sendInits_hrt : w.sendInits.hrt = w.hrt := by simp [Wing.sendInits]

/-! ## Writes at the register port -/

@[simp] theorem Wing.snapshot_hrt : w.snapshot.hrt = w.hrt := by simp [Wing.snapshot]

@[simp] theorem Wing.takeSnap_hrt : w.takeSnap.hrt = w.hrt := by simp [Wing.takeSnap]

@[simp] theorem Wing.snapCtrl_hrt (x : Word) : (w.snapCtrl x).hrt = w.hrt := by simp [Wing.snapCtrl]

@[simp] theorem Wing.writeLocal_raw (save : Option SaveArea) (h : Nat × Word × Word) :
    (w.writeLocal save h).hrt.raw = w.hrt.raw := by
  simp [Wing.writeLocal]

@[simp] theorem Wing.applyHalf_hrt (h : Nat × Word × Word) : (w.applyHalf h).hrt = w.hrt := by simp [Wing.applyHalf]

@[simp] theorem Wing.dualWrite_hrt (k : Nat) (v : Word) (req : Byte) : (w.dualWrite k v req).1.hrt = w.hrt := by
  unfold Wing.dualWrite
  split <;> simp

@[simp] theorem Wing.storeHalves_hrt (req : Byte) (hs : List (Nat × Word × Word)) : (w.storeHalves req hs).1.hrt = w.hrt := by
  simp [Wing.storeHalves]

@[simp] theorem Wing.writeMirrored_hrt (req : Byte) (hs : List (Nat × Word × Word)) :
    (w.writeMirrored req hs).1.hrt = w.hrt := by
  unfold Wing.writeMirrored
  split <;> simp

@[simp] theorem Wing.applyCopy_hrt (c : RegCopy) : (w.applyCopy c).hrt = w.hrt := by
  unfold Wing.applyCopy
  dsimp only
  split
  · rfl
  · split <;> simp

@[simp] theorem Wing.applyCopies_hrt : w.applyCopies.hrt = w.hrt := by simp [Wing.applyCopies]

@[simp] theorem Wing.doWrite_raw (a : RegAccess) : (w.doWrite a).hrt.raw = w.hrt.raw := by
  unfold Wing.doWrite
  dsimp only
  (repeat' split) <;> simp

@[simp] theorem Wing.portDo_raw (write : Bool) (a : RegAccess) : (w.portDo write a).hrt.raw = w.hrt.raw := by simp [Wing.portDo]

@[simp] theorem drainPortIn_raw (xs : List (Bool × RegAccess)) : (drainPortIn xs w).hrt.raw = w.hrt.raw := by
  induction xs generalizing w with
  | nil => rfl
  | cons x xs ih => simp [drainPortIn, ih]

@[simp] theorem Wing.drainPort_raw : w.drainPort.hrt.raw = w.hrt.raw := by simp [Wing.drainPort]

@[simp] theorem Wing.portTake_raw (write : Bool) (a : RegAccess) : (w.portTake write a).hrt.raw = w.hrt.raw := by
  unfold Wing.portTake
  split <;> simp

@[simp] theorem Wing.writeAnswer_raw : w.writeAnswer.hrt.raw = w.hrt.raw := by
  unfold Wing.writeAnswer
  split <;> simp

/-! ## The study -/

@[simp] theorem issueMods_hrt (n : Nat) (ds : List (Word × BitVec 7)) : (issueMods n ds w).1.hrt = w.hrt := by
  induction ds generalizing n w with
  | nil => cases n <;> rfl
  | cons d ds ih =>
    cases n with
    | zero => rfl
    | succ n => simp [issueMods, ih]

@[simp] theorem Wing.sendMods_hrt : w.sendMods.hrt = w.hrt := by simp [Wing.sendMods]

@[simp] theorem Wing.modTake_hrt : w.modTake.hrt = w.hrt := by simp [Wing.modTake]

@[simp] theorem Wing.modCount_hrt : w.modCount.hrt = w.hrt := by simp [Wing.modCount]

@[simp] theorem issueTargetsIn_hrt (rs : List TargetRec) : (issueTargetsIn rs w).1.hrt = w.hrt := by
  induction rs generalizing w with
  | nil => rfl
  | cons r rs ih => simp [issueTargetsIn, ih]

@[simp] theorem Wing.sendTargets_hrt : w.sendTargets.hrt = w.hrt := by simp [Wing.sendTargets]

@[simp] theorem Wing.takeRefusals_hrt (v : View) (r : Ranking) : (w.takeRefusals v r).hrt = w.hrt := by simp [Wing.takeRefusals]

@[simp] theorem Wing.reevalTake_hrt : w.reevalTake.hrt = w.hrt := by simp [Wing.reevalTake]

@[simp] theorem Wing.reevaluation_hrt : w.reevaluation.hrt = w.hrt := by simp [Wing.reevaluation]

/-! ## Nap, Deep and the restore -/

@[simp] theorem Wing.refuseEntry_hrt (deep : Bool) (r : BitVec 2 × BitVec 3) : (w.refuseEntry deep r).hrt = w.hrt := by
  simp [Wing.refuseEntry]

@[simp] theorem Wing.beginEntry_hrt (deep : Bool) : (w.beginEntry deep).hrt = w.hrt := by simp [Wing.beginEntry]

@[simp] theorem Wing.enterNap_hrt : w.enterNap.hrt = w.hrt := by
  unfold Wing.enterNap
  (repeat' split) <;> simp

@[simp] theorem Wing.rebuildBank_hrt (b : Nat) : (w.rebuildBank b).hrt = w.hrt := by simp [Wing.rebuildBank]

@[simp] theorem Wing.loseBank_hrt (p : Nat) : (w.loseBank p).hrt = w.hrt := by
  unfold Wing.loseBank
  dsimp only
  (repeat' split) <;> simp

@[simp] theorem Wing.scrubBanks_hrt (bad : List (BitVec 7)) (ecc : List EccFind) : (w.scrubBanks bad ecc).hrt = w.hrt := by
  simp [Wing.scrubBanks]

@[simp] theorem Wing.catchUp_raw : w.catchUp.hrt.raw = w.hrt.raw := by simp [Wing.catchUp]

@[simp] theorem Wing.registerLatched_hrt : w.registerLatched.hrt = w.hrt := by simp [Wing.registerLatched]

@[simp] theorem Wing.exitNap_raw (bad : List (BitVec 7)) (ecc : List EccFind) : (w.exitNap bad ecc).hrt.raw = w.hrt.raw := by
  simp [Wing.exitNap]

@[simp] theorem Wing.writeSave_hrt : w.writeSave.hrt = w.hrt := rfl

@[simp] theorem Wing.saveAnswered_hrt (n : Word) (ok : Bool) : (w.saveAnswered n ok).hrt = w.hrt := by simp [Wing.saveAnswered]

@[simp] theorem Wing.turnOff_hrt : w.turnOff.hrt = w.hrt := by simp [Wing.turnOff]

@[simp] theorem Wing.enterDeep_raw : w.enterDeep.hrt.raw = w.hrt.raw := by
  unfold Wing.enterDeep
  (repeat' split) <;> simp

@[simp] theorem Wing.beginOff_raw : w.beginOff.hrt.raw = w.hrt.raw := by simp [Wing.beginOff]

@[simp] theorem Wing.arriveDeep_raw : w.arriveDeep.hrt.raw = w.hrt.raw := by
  unfold Wing.arriveDeep
  (repeat' split) <;> simp

@[simp] theorem Wing.loadPlace_hrt (i : Nat) (d : DWord) : (w.loadPlace i d).hrt = w.hrt := by
  unfold Wing.loadPlace
  split <;> simp

@[simp] theorem Wing.loadImage_hrt (ws : SMap DWord) : (w.loadImage ws).hrt = w.hrt := by simp [Wing.loadImage]

@[simp] theorem Wing.reloadPinned_hrt : w.reloadPinned.hrt = w.hrt := by simp [Wing.reloadPinned]

@[simp] theorem Wing.claimPowered_hrt : w.claimPowered.hrt = w.hrt := by simp [Wing.claimPowered]

@[simp] theorem Wing.restore_raw (save : Option SaveArea) : (w.restore save).hrt.raw = w.hrt.raw := by
  unfold Wing.restore
  (repeat' split) <;> simp

@[simp] theorem Wing.powerUp_raw (c : WakeCause) (save : Option SaveArea) : (w.powerUp c save).hrt.raw = w.hrt.raw := by
  simp [Wing.powerUp]

@[simp] theorem Wing.wakeDeep_raw (c : WakeCause) (save : Option SaveArea) : (w.wakeDeep c save).hrt.raw = w.hrt.raw := by
  unfold Wing.wakeDeep
  (repeat' split) <;> simp

@[simp] theorem Wing.beginWait_hrt : w.beginWait.hrt = w.hrt := rfl

@[simp] theorem Wing.joinTimeout_raw (save : Option SaveArea) : (w.joinTimeout save).hrt.raw = w.hrt.raw := by
  simp [Wing.joinTimeout]

/-! ## The tick boundary -/

@[simp] theorem Wing.collect_hrt (p : Nat) (e : Entry) : (w.collect p e).hrt = w.hrt := by simp [Wing.collect]

theorem Pass.step_hrt (a : Pass) (p : Nat) (e : Option Entry) (left : Nat) (skip : Pass → Pass)
    (h : (skip a).wing.hrt = a.wing.hrt) : (a.step p e left skip).wing.hrt = a.wing.hrt := by
  unfold Pass.step
  split
  · rfl
  · (repeat' split) <;> simp [h]

theorem Pass.visit_hrt (a : Pass) (p : Nat) : (a.visit p).wing.hrt = a.wing.hrt :=
  (Pass.step_hrt _ p _ _ _ rfl).trans (Pass.step_hrt a p _ _ _ rfl)

theorem Pass.visits_hrt (ps : List Nat) (a : Pass) : (ps.foldl Pass.visit a).wing.hrt = a.wing.hrt := by
  induction ps generalizing a with
  | nil => rfl
  | cons p ps ih => exact (ih _).trans (a.visit_hrt p)

@[simp] theorem Wing.collection_hrt : w.collection.wing.hrt = w.hrt := by rw [Wing.collection, Pass.visits_hrt]

@[simp] theorem Wing.faultReturns_hrt : w.faultReturns.hrt = w.hrt := by simp [Wing.faultReturns]

@[simp] theorem Wing.collectTick_hrt : w.collectTick.hrt = w.hrt := by simp [Wing.collectTick]

@[simp] theorem Wing.closeFrame_hrt (f : Frame) : (w.closeFrame f).hrt = w.hrt := by simp [Wing.closeFrame]

@[simp] theorem Wing.applyDeferredGroup_hrt (f : Frame) : (w.applyDeferredGroup f).hrt = w.hrt := by
  simp [Wing.applyDeferredGroup]

@[simp] theorem Wing.trainLanes_hrt : w.trainLanes.hrt = w.hrt := by simp [Wing.trainLanes]

@[simp] theorem Wing.retireLanes_hrt : w.retireLanes.hrt = w.hrt := by
  unfold Wing.retireLanes
  split
  · rfl
  · refine Wing.hrt_foldl _ _ _ fun v l => ?_
    split
    · split <;> simp
    · rfl

@[simp] theorem Wing.wornLanes_hrt : w.wornLanes.hrt = w.hrt := by simp [Wing.wornLanes]

@[simp] theorem Wing.addSpares_hrt : w.addSpares.hrt = w.hrt := by simp [Wing.addSpares]

@[simp] theorem Wing.settleLanes_hrt : w.settleLanes.hrt = w.hrt := by simp [Wing.settleLanes]

@[simp] theorem Wing.settleLate_hrt : w.settleLate.hrt = w.hrt := by simp [Wing.settleLate]

@[simp] theorem Wing.takeoverStep_hrt : w.takeoverStep.hrt = w.hrt := by simp [Wing.takeoverStep]

@[simp] theorem Wing.settleTick_hrt (r : Ranking) : (w.settleTick r).hrt = w.hrt := by simp [Wing.settleTick]

@[simp] theorem Wing.closeActive_hrt : w.closeActive.2.hrt = w.hrt := by simp [Wing.closeActive]

@[simp] theorem Wing.releaseTo_hrt (img : RankImg) (os : List Offer) (p : Byte) : (w.releaseTo img os p).hrt = w.hrt := by
  simp [Wing.releaseTo]

@[simp] theorem Wing.release_hrt (img : RankImg) (r : Ranking) : (w.release img r).hrt = w.hrt := by simp [Wing.release]

@[simp] theorem Wing.nextTick_hrt : w.nextTick.hrt = w.hrt := by
  unfold Wing.nextTick
  dsimp only
  (repeat' split) <;> simp

@[simp] theorem Wing.becomeStandby_hrt : w.becomeStandby.hrt = w.hrt := by simp [Wing.becomeStandby]

@[simp] theorem Wing.levelDue_hrt : w.levelDue.hrt = w.hrt := by
  unfold Wing.levelDue
  split <;> simp

@[simp] theorem Wing.forcedStep_hrt : w.forcedStep.hrt = w.hrt := by simp [Wing.forcedStep]

@[simp] theorem Wing.changeOver_hrt (last : Bool) : (w.changeOver last).hrt = w.hrt := by simp [Wing.changeOver]

@[simp] theorem Wing.issueLevel_hrt : w.issueLevel.hrt = w.hrt := by
  unfold Wing.issueLevel
  dsimp only
  (repeat' split) <;> simp

@[simp] theorem Wing.dropPair_hrt : w.dropPair.hrt = w.hrt := by
  unfold Wing.dropPair
  dsimp only
  (repeat' split) <;> simp

@[simp] theorem Wing.schedulePair_hrt : w.schedulePair.hrt = w.hrt := by simp [Wing.schedulePair]

@[simp] theorem Wing.cleanTick_hrt : w.cleanTick.hrt = w.hrt := by simp [Wing.cleanTick]

@[simp] theorem Wing.finishJobs_hrt : w.finishJobs.hrt = w.hrt := by
  refine Wing.hrt_foldl _ _ _ fun v e => ?_
  split <;> simp

@[simp] theorem Wing.openAdmission_raw : w.openAdmission.hrt.raw = w.hrt.raw := by simp [Wing.openAdmission]

@[simp] theorem Wing.openMods_hrt : w.openMods.hrt = w.hrt := by simp [Wing.openMods]

@[simp] theorem Wing.openEngines_hrt (img : Option RankImg) (r : Ranking) : (w.openEngines img r).hrt = w.hrt := by
  unfold Wing.openEngines
  split <;> simp

@[simp] theorem Wing.openActive_raw (img : Option RankImg) (r : Ranking) (go : Bool) :
    (w.openActive img r go).hrt.raw = w.hrt.raw := by
  unfold Wing.openActive
  split <;> simp

@[simp] theorem Wing.openOther_raw : w.openOther.hrt.raw = w.hrt.raw := by simp [Wing.openOther]

@[simp] theorem Wing.openTick_raw (img : Option RankImg) (r : Ranking) (go : Bool) :
    (w.openTick img r go).hrt.raw = w.hrt.raw := by
  simp [Wing.openTick]

@[simp] theorem Wing.runBoundary_raw (ecc : List EccFind) : (w.runBoundary ecc).hrt.raw = w.hrt.raw := by
  unfold Wing.runBoundary
  dsimp only
  (repeat' split) <;> simp

@[simp] theorem Wing.boundaryWakes_hrt : w.boundaryWakes.hrt = w.hrt := by simp [Wing.boundaryWakes]

@[simp] theorem Wing.sleepBoundary_raw : w.sleepBoundary.hrt.raw = w.hrt.raw := by simp [Wing.sleepBoundary]

@[simp] theorem Wing.wakeBoundary_raw : w.wakeBoundary.hrt.raw = w.hrt.raw := by simp [Wing.wakeBoundary]

@[simp] theorem Wing.boundary_raw (ecc : List EccFind) : (w.boundary ecc).hrt.raw = w.hrt.raw := by
  unfold Wing.boundary
  split <;> simp

end

end Sys2Proof.Machine
end

section
/-! The raw counter has one writer (R319): what the commands leave of it, from the frames of the operations. -/

namespace Sys2Proof.Machine

/-! ## Next states that keep the raw counters -/

/-- From `s` to `t` neither wing's raw counter has changed. -/
def State.KeepsRaw (s t : State) : Prop := ∀ x, (t.wing x).hrt.raw = (s.wing x).hrt.raw

/-- Every next state of an outcome at `s` keeps both raw counters. -/
def State.NextKeepsRaw (s : State) (o : Host.Outcome State Fault Refusal) : Prop := ∀ t, o = .next t → s.KeepsRaw t

theorem State.keepsRaw_of_hearths {s t : State} (heast : t.east.hrt = s.east.hrt) (hwest : t.west.hrt = s.west.hrt) :
    s.KeepsRaw t := by
  intro x
  cases x
  · exact congrArg Hearth.raw heast
  · exact congrArg Hearth.raw hwest

theorem State.KeepsRaw.trans {s t u : State} (hst : s.KeepsRaw t) (htu : t.KeepsRaw u) : s.KeepsRaw u :=
  fun x => (htu x).trans (hst x)

theorem State.KeepsRaw.next {s t : State} (h : s.KeepsRaw t) : s.NextKeepsRaw (.next t) := by
  rintro u ⟨⟩
  exact h

theorem State.KeepsRaw.ite {s t u : State} {c : Prop} [Decidable c] (ht : s.KeepsRaw t) (hu : s.KeepsRaw u) :
    s.KeepsRaw (if c then t else u) := by
  split
  · exact ht
  · exact hu

/-! ## Steps of a wing and of a porch -/

theorem State.keepsRaw_setWing (s : State) (w : WingId) {v : Wing} (h : v.hrt.raw = (s.wing w).hrt.raw) :
    s.KeepsRaw (s.setWing w v) := by
  intro x
  rw [State.wing_setWing]
  split
  next hx => rw [hx, h]
  next => rfl

theorem State.keepsRaw_onWing (s : State) (w : WingId) {f : Wing → Wing} (h : ∀ v, (f v).hrt.raw = v.hrt.raw) :
    s.KeepsRaw (s.onWing w f) :=
  (s.keepsRaw_setWing w (v := { f { s.wing w with out := [] } with out := [] }) (h _)).trans
    (State.keepsRaw_of_hearths rfl rfl)

theorem nextWing_keepsRaw {s : State} {w : WingId} {f : Wing → Wing} (h : ∀ v, (f v).hrt.raw = v.hrt.raw) :
    s.NextKeepsRaw (nextWing s w f) :=
  (s.keepsRaw_onWing w h).next

theorem State.keepsRaw_onPorch (s : State) (p : Byte) (f : Porch → Porch × List Out) : s.KeepsRaw (s.onPorch p f) :=
  State.keepsRaw_of_hearths rfl rfl

theorem nextPorch_keepsRaw {s : State} {p : Byte} {f : Porch → Porch × List Out} : s.NextKeepsRaw (nextPorch s p f) :=
  (s.keepsRaw_onPorch p f).next

theorem State.keepsRaw_onPorches (f : Byte → Porch → Porch × List Out) (ps : List Byte) (s : State) :
    s.KeepsRaw (State.onPorches f ps s) := by
  induction ps generalizing s with
  | nil => exact State.keepsRaw_of_hearths rfl rfl
  | cons p ps ih => exact State.KeepsRaw.trans (State.keepsRaw_of_hearths rfl rfl) (ih _)

theorem State.keepsRaw_dropRails (s : State) : s.KeepsRaw s.dropRails :=
  State.KeepsRaw.ite (State.keepsRaw_of_hearths rfl rfl) (State.keepsRaw_of_hearths rfl rfl)

/-! ## Commands that are more than one step of a wing or of a porch -/

theorem execTickBoundary_keepsRaw (w : WingId) (ecc : List EccFind) (s : State) :
    s.NextKeepsRaw (execTickBoundary w ecc s) := by
  have hown := s.keepsRaw_onWing w (f := fun v => (v.boundary ecc).showEn v.psgEn) fun v => by simp
  refine State.KeepsRaw.next (State.KeepsRaw.ite ?_ hown)
  exact hown.trans (State.keepsRaw_setWing _ _ rfl)

theorem execNapEntry_keepsRaw (w : WingId) (s : State) : s.NextKeepsRaw (execNapEntry w s) := by
  have hown := s.keepsRaw_onWing w (f := Wing.enterNap) fun v => by simp
  refine State.KeepsRaw.next (State.KeepsRaw.ite ?_ hown)
  exact hown.trans (State.keepsRaw_setWing _ _ (by simp))

theorem execDeepEntry_keepsRaw (w : WingId) (s : State) : s.NextKeepsRaw (execDeepEntry w s) := by
  have hown := s.keepsRaw_onWing w (f := fun x => x.enterDeep.showEn x.psgEn) fun v => by simp
  refine State.KeepsRaw.next (State.KeepsRaw.ite ?_ hown)
  exact hown.trans (State.keepsRaw_setWing _ _ (by simp))

theorem execWingReset_keepsRaw (w : WingId) (s : State) : s.NextKeepsRaw (execWingReset w s) := by
  refine State.KeepsRaw.next (State.KeepsRaw.trans (s.keepsRaw_onWing w fun v => ?_) (State.keepsRaw_dropRails _))
  simp

theorem execRaiseBeat_keepsRaw (w : WingId) (p : Byte) (idx : BitVec 4) (b : RaiseRead) (s : State) :
    s.NextKeepsRaw (execRaiseBeat w p idx b s) := by
  unfold execRaiseBeat
  extract_lets q due r s1
  have h1 : s.KeepsRaw s1 := State.keepsRaw_of_hearths rfl rfl
  refine State.KeepsRaw.next ?_
  split
  next q1 _ =>
    extract_lets s2
    have hporch : s.KeepsRaw (s1.setPorch p q1) := h1.trans (State.keepsRaw_of_hearths rfl rfl)
    have h2 : s.KeepsRaw s2 := hporch.trans (State.keepsRaw_onWing _ w fun v => by simp)
    refine h2.trans ?_
    exact State.keepsRaw_of_hearths rfl rfl
  next => exact h1

theorem execPorchDomainPowerDown_keepsRaw (k : BitVec 5) (d : DownRead) (s : State) :
    s.NextKeepsRaw (execPorchDomainPowerDown k d s) := by
  unfold execPorchDomainPowerDown
  extract_lets s0 vote s1 s2
  have h0 : s.KeepsRaw s0 := State.keepsRaw_of_hearths rfl rfl
  have h1 : s.KeepsRaw s1 := h0.trans (State.keepsRaw_onPorches _ _ _)
  have h2 : s.KeepsRaw s2 := h1.trans (State.keepsRaw_onPorches _ _ _)
  split
  · exact h0.next
  · split
    · refine State.KeepsRaw.next (h2.trans ?_)
      exact State.keepsRaw_of_hearths rfl rfl
    · exact h1.next

theorem execPorchDomainPowerUp_keepsRaw (k : BitVec 5) (pdVote : Byte) (s : State) :
    s.NextKeepsRaw (execPorchDomainPowerUp k pdVote s) := by
  unfold execPorchDomainPowerUp
  extract_lets s0 s1
  have h0 : s.KeepsRaw s0 := State.keepsRaw_of_hearths rfl rfl
  have h1 : s.KeepsRaw s1 := h0.trans (State.keepsRaw_onPorches _ _ _)
  split
  · exact h0.next
  · exact (h1.trans (State.keepsRaw_of_hearths (by simp) (by simp))).next

theorem execWindowEnd_keepsRaw (w : WingId) (key : Word) (s : State) : s.NextKeepsRaw (execWindowEnd w key s) := by
  refine nextWing_keepsRaw fun v => ?_
  split <;> simp

/-! ## Every command -/

/-- R319: no command but the raw edge, the power-up and the loss of the backup rail writes a raw counter. -/
theorem exec_keepsRaw (c : Instr) (s : State) (hedge : ∀ w, c ≠ .rawEdge w) (hpower : ∀ w, c ≠ .hearthPowerUp w)
    (hloss : c ≠ .backupRailLoss) : s.NextKeepsRaw (exec c s) := by
  cases c with
  | rawEdge w => exact absurd rfl (hedge w)
  | hearthPowerUp w => exact absurd rfl (hpower w)
  | backupRailLoss => exact absurd rfl hloss
  | raiseBeat w p idx r => exact execRaiseBeat_keepsRaw w p idx r s
  | tickBoundary w ecc => exact execTickBoundary_keepsRaw w ecc s
  | windowEnd w key => exact execWindowEnd_keepsRaw w key s
  | porchDomainPowerDown k d => exact execPorchDomainPowerDown_keepsRaw k d s
  | porchDomainPowerUp k pdVote => exact execPorchDomainPowerUp_keepsRaw k pdVote s
  | napEntry w => exact execNapEntry_keepsRaw w s
  | deepEntry w => exact execDeepEntry_keepsRaw w s
  | wingReset w => exact execWingReset_keepsRaw w s
  | releaseHeader | claimRaise | init | vrRd | eoi | sliceCurReturn | sliceCurChange =>
    exact nextPorch_keepsRaw
  | raise | claim | complete =>
    refine State.KeepsRaw.next ?_
    exact State.keepsRaw_of_hearths rfl rfl
  | arrive | claimRecord | completeRecord | cfgRegw | cfgCmd | cfgCmdExt | cfgFinish | cfgParam | cfgDrain |
    cfgLetter | cfgLevel | cfgQuar | steerAccept | steerInstall | steerModwin | steerTarget | steerResidency |
    steerCorestate | ringposDoorbell | ringposDone =>
    exact nextWing_keepsRaw fun v => by simp
  | nativeMessage | msiWrite | commandDoorbell | letterboxDoorbell | apertureRead | wiredSourceChange | alarmLatch |
    cellarReadReturn | standbyImageExpiry | spillReturn | writeBackAccepted | moderationCount | steerReevaluation |
    strandingLimit | acceptRsp | acceptRspTimeout | refuse | entry | status | slotReport | replayEnd | porchEvent |
    commandPoint | descriptorReadReturn | nop | vecCfg | vecReset | vecQuery | vecComplete | pin | unpin | flush |
    sliceCreate | sliceShare | sliceQuiesce | sliceResume | sliceReset | sliceRemove | letterPost |
    parameterBlockRead | creationWritesDone | releaseWaitEnd | quiesceFinish | drainLimit | drainRequestTaken |
    drnDone | filterEntryExpiry | eventBlockWrite | block | replay | ackDeadline | psgRxlock | trainingBlock |
    frameApplied | resyncCopy | resyncFetch | resyncArrival | resyncFill | tickClose | nopRecord | standbyLost |
    provisionalCommit | takeover | takeoverWrites | recoveryModeEnd | resyncStart | resyncAbort | resyncDone |
    handoverSchedule | handover | levelChoice | levelChange | studyVote | napWake | napExit | deepWake |
    deepJoinTimeout | anchorWrite | vbatCheck | hrtCalSet | timePair | voteWalk | scrub | signaturePass |
    wearWindowEnd | bankMove | scanSliceMove | registerWrite | registerWriteAnswer | readClear | indirectAccess |
    snapNow | snapBoundary | lockBitSet | dualControlWrite | dualPendExpiry | start | startComplete |
    wingResetRelease | keyDelivery | tickSyncBreak | retentionMonitorTrip | recordWriteAccepted =>
    exact nextWing_keepsRaw fun v => by simp

/-! ## The raw edge and the power-up -/

theorem execRawEdge_raw (s : State) (w : WingId) (h : (s.wing w).hrt.powered = true) :
    ∃ t, exec (.rawEdge w) s = .next t ∧ s.onlyWing t w ∧ (t.wing w).hrt.raw = (s.wing w).hrt.raw + 1 := by
  refine ⟨_, rfl, s.onWing_only w _, ?_⟩
  simp [Wing.onHearth, h]

theorem execHearthPowerUp_unpowered (s : State) (w : WingId) (h : (s.wing w).hrt.powered = false) :
    ∃ t, exec (.hearthPowerUp w) s = .next t ∧ s.onlyWing t w ∧ (t.wing w).hrt.raw = 0 := by
  refine ⟨_, rfl, s.onWing_only w _, ?_⟩
  simp [h, Hearth.reset]

theorem execHearthPowerUp_powered (s : State) (w : WingId) (h : (s.wing w).hrt.powered = true) :
    ∃ t, exec (.hearthPowerUp w) s = .next t ∧ s.onlyWing t w ∧ (t.wing w).hrt = (s.wing w).hrt := by
  refine ⟨_, rfl, s.onWing_only w _, ?_⟩
  simp [h]

theorem State.reset_raw (w : WingId) : (State.reset.wing w).hrt.raw = 0 := by
  cases w <;> rfl

end Sys2Proof.Machine

namespace Sys2Proof

open Machine

/-- Settles O6: a frame lemma for each operation of a wing, and a case for each command. Only the raw edge, the power-up and the loss
of the backup rail are no steps that keep both raw counters. -/
theorem rawCounterHasOneWriter : Obligations.RawCounterHasOneWriter := by
  unfold Obligations.RawCounterHasOneWriter
  refine ⟨State.reset_raw, fun s w => ⟨?_, ?_, ?_⟩, ?_⟩
  · exact execRawEdge_raw s w
  · exact execHearthPowerUp_unpowered s w
  · exact execHearthPowerUp_powered s w
  · exact fun c s t hnext hedge hpower hloss => exec_keepsRaw c s hedge hpower hloss t hnext

end Sys2Proof
end

section
/-! Why an unaligned access is an error alone (R361): no run of the port's list has its strobes, so a wing that takes the access at
once refuses it, and a refusal counts, logs and answers. -/

namespace Sys2Proof.Machine

/-! ## Strobes -/

/-- R361: the strobes are no run of 1, 2, 4 or 8 bytes that starts at a multiple of its own length. -/
def Unaligned (strb : Byte) : Prop :=
  ∀ f n, n ∈ [1, 2, 4, 8] → n ∣ f → f + n ≤ 8 → ¬ ∀ j, j < 8 → strb.getLsbD j = decide (f ≤ j ∧ j < f + n)

/-- Each run of the port's list starts at a multiple of its length, and its strobes are its bytes. -/
theorem alignedRuns_sound : ∀ r ∈ alignedRuns, r.2 ∈ [1, 2, 4, 8] ∧ r.2 ∣ r.1 ∧ r.1 + r.2 ≤ 8 ∧
    ∀ j, j < 8 → (strobesOf r.1 r.2).getLsbD j = decide (r.1 ≤ j ∧ j < r.1 + r.2) := by
  decide

theorem runOf_of_unaligned {strb : Byte} (h : Unaligned strb) : runOf strb = none := by
  refine List.find?_eq_none.mpr fun r hr hstrb => ?_
  obtain ⟨hlen, hdvd, hfits, hbytes⟩ := alignedRuns_sound r hr
  exact h r.1 r.2 hlen hdvd hfits (eq_of_beq hstrb ▸ hbytes)

/-! ## The access at the port -/

/-- A wing in Run with no held write and no access that waits takes an access at once. -/
theorem Wing.portTake_at_once (w : Wing) (write : Bool) (a : RegAccess) (hrun : w.life = .run) (hheld : w.regs.portHeld = none)
    (hqueue : w.regs.portQueue = []) : w.portTake write a = w.portDo write a := by
  simp [Wing.portTake, Wing.portBlocked, Wing.portSleeps, hrun, hheld, hqueue]

/-- A write and a read with unaligned strobes end alike. -/
theorem Wing.portDo_of_unaligned (w : Wing) (write : Bool) (a : RegAccess) (h : Unaligned a.strb) :
    w.portDo write a = w.refuseAccess a reUnaligned (0#8 ++ a.addr) := by
  cases write
  · simp [Wing.portDo, Wing.doRead, runOf_of_unaligned h]
  · simp [Wing.portDo, Wing.doWrite, runOf_of_unaligned h]

theorem Wing.portTake_of_unaligned (w : Wing) (write : Bool) (a : RegAccess) (hrun : w.life = .run)
    (hheld : w.regs.portHeld = none) (hqueue : w.regs.portQueue = []) (h : Unaligned a.strb) :
    w.portTake write a = w.refuseAccess a reUnaligned (0#8 ++ a.addr) :=
  (w.portTake_at_once write a hrun hheld hqueue).trans (w.portDo_of_unaligned write a h)

/-! ## Refusals (R361, R384) -/

@[simp] theorem Wing.refuseAccess_out (w : Wing) (a : RegAccess) (reason : BitVec 4) (addr : BitVec 24) :
    (w.refuseAccess a reason addr).out = w.out ++ [.regRsp w.id false 0] := rfl

theorem Wing.refuseAccess_ctr (w : Wing) (a : RegAccess) (reason : BitVec 4) (addr : BitVec 24) :
    (w.refuseAccess a reason addr).ctr cRegErr = w.ctr cRegErr + 1 :=
  Wing.ctr_count_self _ cRegErr

/-- A refusal changes the counters, the error log and what is driven, and nothing else. -/
theorem Wing.refuseAccess_eq (w : Wing) (a : RegAccess) (reason : BitVec 4) (addr : BitVec 24) :
    w.refuseAccess a reason addr = { w with
      regs := { w.regs with
        ctr := (w.refuseAccess a reason addr).regs.ctr
        regErrLog := logFirst w.regs.regErrLog (regErrEntry reason a.req (pathOf a) a.strb addr) }
      out := w.out ++ [.regRsp w.id false 0] } := rfl

/-! ## The commands -/

/-- Each command that brings an access to the register port is the port's step on it. -/
theorem exec_portAccess (s : State) (w : WingId) (a : RegAccess) (i : Instr)
    (hi : i ∈ [Instr.registerWrite w a, .readClear w a, .indirectAccess w true a, .indirectAccess w false a, .lockBitSet w a,
      .dualControlWrite w a]) :
    ∃ write, exec i s = nextWing s w fun v => v.portTake write a := by
  simp only [List.mem_cons, List.not_mem_nil, or_false] at hi
  rcases hi with rfl | rfl | rfl | rfl | rfl | rfl
  · exact ⟨true, rfl⟩
  · exact ⟨false, rfl⟩
  · exact ⟨true, rfl⟩
  · exact ⟨false, rfl⟩
  · exact ⟨true, rfl⟩
  · exact ⟨true, rfl⟩

end Sys2Proof.Machine

namespace Sys2Proof

open Machine

/-- Settles O59: whatever command brings it, the access finds no run and is refused at once. -/
theorem unalignedAccessesAreErrors : Obligations.UnalignedAccessesAreErrors := by
  unfold Obligations.UnalignedAccessesAreErrors
  intro s w a i hrun hheld hqueue hi hstrb
  obtain ⟨write, hexec⟩ := exec_portAccess s w a i hi
  have hport := Wing.portTake_of_unaligned { s.wing w with out := [] } write a hrun hheld hqueue hstrb
  refine ⟨_, hexec, s.onWing_only w _, ?_, ?_, ?_⟩
  · rw [State.onWing_out, hport, Wing.refuseAccess_out]
    rfl
  · rw [State.onWing_wing, hport]
    exact Wing.refuseAccess_ctr { s.wing w with out := [] } a reUnaligned _
  · rw [State.onWing_wing, hport, Wing.refuseAccess_eq]

end Sys2Proof
end

section
/-! What a step runs (log 12), what reset leaves (R403, R405), and which part of the block a command reaches (R7, R116). -/

namespace Sys2Proof.Machine

/-! ## Commands of one wing, of one porch, and the others -/

/-- A command that reaches one wing is a step of that wing. -/
theorem exec_wingOnly (c : Instr) (s : State) (w : WingId) (h : c.wingOnly = some w) : ∃ f, exec c s = nextWing s w f := by
  cases c <;> cases h <;> exact ⟨_, rfl⟩

theorem nextPorch_free (s : State) (p : Byte) (f : Porch → Porch × List Out) :
    nextPorch s p f = .next { s.onPorch p f with free := s.free } := rfl

/-- A command that reaches one porch is a step of that porch, and may use up a free value. -/
theorem exec_porchOnly (c : Instr) (s : State) (p : Byte) (h : c.porchOnly = some p) :
    ∃ f n, exec c s = .next { s.onPorch p f with free := n } := by
  cases c with
  | raise | claim | complete => cases h; exact ⟨_, s.free + 1, rfl⟩
  | releaseHeader | claimRaise | init | vrRd | eoi | sliceCurReturn | sliceCurChange =>
    cases h; exact ⟨_, s.free, nextPorch_free s p _⟩
  | _ => cases h

/-! ## The queue -/

@[simp] theorem State.setWing_pending (s : State) (w : WingId) (v : Wing) : (s.setWing w v).pending = s.pending := by
  cases w <;> rfl

@[simp] theorem State.onWing_pending (s : State) (w : WingId) (f : Wing → Wing) : (s.onWing w f).pending = s.pending := by
  cases w <;> rfl

@[simp] theorem State.setPorch_pending (s : State) (p : Byte) (q : Porch) : (s.setPorch p q).pending = s.pending := rfl

@[simp] theorem State.onPorches_pending (f : Byte → Porch → Porch × List Out) (ps : List Byte) (s : State) :
    (State.onPorches f ps s).pending = s.pending := by
  induction ps generalizing s with
  | nil => rfl
  | cons p ps ih => exact (ih _).trans rfl

@[simp] theorem State.dropRails_pending (s : State) : s.dropRails.pending = s.pending := by
  unfold State.dropRails
  split <;> rfl

/-- An outcome that goes on and leaves the queue behind the command as it is. -/
def State.GoesOnWithQueue (s : State) (o : Host.Outcome State Fault Refusal) : Prop := ∃ t, o = .next t ∧ t.pending = s.pending

theorem execRaiseBeat_goesOn (w : WingId) (p : Byte) (idx : BitVec 4) (b : RaiseRead) (s : State) :
    s.GoesOnWithQueue (execRaiseBeat w p idx b s) := by
  refine ⟨_, rfl, ?_⟩
  split <;> simp

theorem execPorchDomainPowerDown_goesOn (k : BitVec 5) (d : DownRead) (s : State) :
    s.GoesOnWithQueue (execPorchDomainPowerDown k d s) := by
  unfold execPorchDomainPowerDown
  extract_lets s0 vote s1 s2
  split
  · exact ⟨_, rfl, rfl⟩
  · split
    · exact ⟨_, rfl, by simp [s2, s1, s0]⟩
    · exact ⟨_, rfl, by simp [s1, s0]⟩

theorem execPorchDomainPowerUp_goesOn (k : BitVec 5) (pdVote : Byte) (s : State) :
    s.GoesOnWithQueue (execPorchDomainPowerUp k pdVote s) := by
  unfold execPorchDomainPowerUp
  split
  · exact ⟨_, rfl, rfl⟩
  · exact ⟨_, rfl, by simp⟩

/-- A step of one wing that may write the other one too leaves the queue. -/
theorem State.ite_setWing_pending (s : State) (b : Bool) (w : WingId) (v : Wing) :
    (if b then s.setWing w v else s).pending = s.pending := by
  split <;> simp

/-- The commands that reach more than one wing or one porch. -/
theorem exec_goesOn_of_wide (c : Instr) (s : State) (hw : c.wingOnly = none) (hp : c.porchOnly = none) :
    s.GoesOnWithQueue (exec c s) := by
  cases c with
  | raiseBeat w p idx r => exact execRaiseBeat_goesOn w p idx r s
  | porchDomainPowerDown k d => exact execPorchDomainPowerDown_goesOn k d s
  | porchDomainPowerUp k pdVote => exact execPorchDomainPowerUp_goesOn k pdVote s
  | tickBoundary w ecc => exact ⟨_, rfl, by rw [State.ite_setWing_pending, State.onWing_pending]⟩
  | napEntry w => exact ⟨_, rfl, by rw [State.ite_setWing_pending, State.onWing_pending]⟩
  | deepEntry w => exact ⟨_, rfl, by rw [State.ite_setWing_pending, State.onWing_pending]⟩
  | wingReset w => exact ⟨_, rfl, by simp⟩
  | backupRailLoss => exact ⟨_, rfl, rfl⟩
  | raise | releaseHeader | claimRaise | init | claim | vrRd | complete | eoi | sliceCurReturn | sliceCurChange => cases hp
  | _ => cases hw

theorem exec_goesOn (c : Instr) (s : State) : s.GoesOnWithQueue (exec c s) := by
  cases hw : c.wingOnly with
  | some w =>
    obtain ⟨f, hf⟩ := exec_wingOnly c s w hw
    exact ⟨_, hf, s.onWing_pending w f⟩
  | none =>
    cases hp : c.porchOnly with
    | some p =>
      obtain ⟨f, n, hf⟩ := exec_porchOnly c s p hp
      exact ⟨_, hf, rfl⟩
    | none => exact exec_goesOn_of_wide c s hw hp

/-! ## Reset -/

theorem Porch.off_sound : Porch.off.sound := by simp [Porch.sound, Porch.off, Porch.held]

theorem State.reset_porchesSound : State.reset.porchesSound :=
  ⟨rfl, fun _ he => absurd he List.not_mem_nil⟩

theorem State.reset_claimsSound : State.reset.claimsSound := by
  constructor <;> exact ⟨rfl, rfl, Nat.le_refl _⟩

end Sys2Proof.Machine

namespace Sys2Proof

open Machine

/-- Settles O1: both sides are the two branches of `step`. -/
theorem stepRunsTheFrontCommand : Obligations.StepRunsTheFrontCommand := by
  unfold Obligations.StepRunsTheFrontCommand
  exact fun c rest s => ⟨rfl, rfl⟩

/-- Settles O2: each command is a step of one wing, a step of one porch, or one of eight that reach further. -/
theorem commandsKeepTheRest : Obligations.CommandsKeepTheRest := by
  unfold Obligations.CommandsKeepTheRest
  intro c s
  obtain ⟨t, ht, hq⟩ := exec_goesOn c s
  refine ⟨t, ht, hq, fun w hw => ?_, fun p hp => ?_⟩
  · obtain ⟨f, hf⟩ := exec_wingOnly c s w hw
    cases ht.symm.trans hf
    exact s.onWing_only w f
  · obtain ⟨f, n, hf⟩ := exec_porchOnly c s p hp
    cases ht.symm.trans hf
    exact s.onPorch_only_withFree p f n

/-- Settles O4: the reset state is written out, so its parts are read off. -/
theorem resetLeaves : Obligations.ResetLeaves := by
  unfold Obligations.ResetLeaves
  refine ⟨State.reset_porchesSound, State.reset_claimsSound, State.reset_porchesSound, rfl, fun _ => rfl, fun w => ⟨_, rfl, ?_⟩⟩
  cases w <;>
    exact ⟨rfl, rfl, rfl, rfl, rfl, rfl, rfl, fun _ => rfl, fun _ => ⟨rfl, rfl⟩, fun _ => rfl, fun _ => rfl, fun _ => rfl, rfl, rfl,
      rfl, rfl⟩

end Sys2Proof
end

section
/-! Why every step keeps every porch sound (R116, R122, R126): an offer enters a slot only when its vector is in none and has no
uncommitted return, and a return takes its offer's slot away. -/

namespace Sys2Proof.Machine

/-! ## Slots -/

/-- The keys of the offers in a list of slots. -/
def keysOf (sl : List (Option PSlot)) : List (BitVec 97) := sl.filterMap fun o => o.map PSlot.key

theorem Porch.held_eq (q : Porch) : q.held = keysOf q.slots := rfl

@[simp] theorem keysOf_nil : keysOf [] = [] := rfl

@[simp] theorem keysOf_none (sl : List (Option PSlot)) : keysOf (none :: sl) = keysOf sl := rfl

@[simp] theorem keysOf_some (x : PSlot) (sl : List (Option PSlot)) : keysOf (some x :: sl) = x.key :: keysOf sl := rfl

/-- Dropping an offer takes its key out. -/
theorem keysOf_dropOffer (k : BitVec 97) (sl : List (Option PSlot)) :
    keysOf (dropOffer k sl) = (keysOf sl).filter fun j => !decide (j = k) := by
  induction sl with
  | nil => rfl
  | cons o sl ih =>
    cases o with
    | none => exact ih
    | some x => by_cases h : x.key = k <;> simp_all [dropOffer]

@[simp] theorem dropOffer_length (k : BitVec 97) (sl : List (Option PSlot)) : (dropOffer k sl).length = sl.length :=
  List.length_map _

/-- Slots that hold an offer more at most: as many, and the keys of before with or without the new one among them. -/
def OneMore (x : PSlot) (sl sl' : List (Option PSlot)) : Prop :=
  sl'.length = sl.length ∧ (keysOf sl' = keysOf sl ∨ (keysOf sl').Perm (x.key :: keysOf sl))

theorem OneMore.cons {x : PSlot} {sl sl' : List (Option PSlot)} (o : Option PSlot) (h : OneMore x sl sl') :
    OneMore x (o :: sl) (o :: sl') := by
  obtain ⟨hlen, hkeys⟩ := h
  refine ⟨by simp [hlen], ?_⟩
  cases o with
  | none => exact hkeys
  | some y =>
    rcases hkeys with heq | hperm
    · exact .inl (by simp [heq])
    · exact .inr ((hperm.cons y.key).trans (List.Perm.swap _ _ _))

theorem OneMore.fill (x : PSlot) (sl : List (Option PSlot)) : OneMore x (none :: sl) (some x :: sl) :=
  ⟨rfl, .inr (List.Perm.refl _)⟩

theorem fillSlot_oneMore (x : PSlot) (sl : List (Option PSlot)) : OneMore x sl (fillSlot x sl) := by
  induction sl with
  | nil => exact ⟨rfl, .inl rfl⟩
  | cons o sl ih =>
    cases o with
    | none => exact OneMore.fill x sl
    | some y => exact ih.cons (some y)

theorem fillBeside_oneMore (x : PSlot) (n : Nat) (sl : List (Option PSlot)) : OneMore x sl (fillBeside x n sl) := by
  induction sl generalizing n with
  | nil => cases n <;> exact ⟨rfl, .inl rfl⟩
  | cons o sl ih =>
    cases n with
    | zero => exact (fillSlot_oneMore x sl).cons o
    | succ n =>
      cases o with
      | none => exact OneMore.fill x sl
      | some y => exact (ih n).cons (some y)

theorem fillFree_oneMore (taken : Option (BitVec 2)) (x : PSlot) (sl : List (Option PSlot)) :
    OneMore x sl (fillFree taken x sl) := by
  cases taken with
  | none => exact fillSlot_oneMore x sl
  | some i => exact fillBeside_oneMore x i.toNat sl

/-! ## Soundness and the parts of a porch -/

/-- Soundness is about the slots, the journal, the raise queue and the return list. -/
theorem Porch.sound_of_parts {q r : Porch} (h : q.sound) (hslots : r.slots = q.slots) (hjournal : r.journal.length ≤ 8)
    (hraise : r.raiseq.length ≤ 4) (hrets : ∀ e ∈ r.rets, e ∈ q.rets) : r.sound := by
  obtain ⟨hlen, _, _, hnodup, hfree⟩ := h
  have hheld : r.held = q.held := by simp [Porch.held, hslots]
  exact ⟨hslots ▸ hlen, hjournal, hraise, hheld ▸ hnodup, fun k hk e he => hfree k (hheld ▸ hk) e (hrets e he)⟩

/-- What keeps the four parts keeps soundness. -/
theorem Porch.sound_congr {q r : Porch} (h : q.sound) (hslots : r.slots = q.slots) (hjournal : r.journal = q.journal)
    (hraise : r.raiseq = q.raiseq) (hrets : r.rets = q.rets) : r.sound :=
  Porch.sound_of_parts h hslots (hjournal ▸ h.2.1) (hraise ▸ h.2.2.1) (by simp [hrets])

/-- A slot that is emptied leaves the porch sound. -/
theorem Porch.sound_dropOffer {q : Porch} (h : q.sound) (k : BitVec 97) : ({ q with slots := dropOffer k q.slots } : Porch).sound := by
  obtain ⟨hlen, hjournal, hraise, hnodup, hfree⟩ := h
  have hsub : (keysOf (dropOffer k q.slots)).Sublist (keysOf q.slots) := by
    rw [keysOf_dropOffer]
    exact List.filter_sublist
  exact ⟨by simpa using hlen, hjournal, hraise, hnodup.sublist (hsub.map _), fun j hj => hfree j (hsub.subset hj)⟩

theorem Porch.sound_journalise {q : Porch} (h : q.sound) (p : Byte) (e : Entry) (hroom : q.journal.length < 8) :
    (q.journalise p e).1.sound :=
  Porch.sound_of_parts h rfl (by simp [Porch.journalise]; omega) h.2.2.1 fun _ he => he

theorem Porch.sound_raiseEffect {q : Porch} (h : q.sound) (idx : BitVec 4) (hroom : q.raiseq.length < 4) :
    (q.raiseEffect idx).sound :=
  Porch.sound_of_parts h rfl h.2.1 (by simp [Porch.raiseEffect]; omega) fun _ he => he

/-- R126: a returned offer leaves its slot as its vector joins the return list. -/
theorem Porch.sound_giveBack {q : Porch} (h : q.sound) (p : Byte) {x : PSlot} (hx : x.key ∈ q.held) : (q.giveBack p x).1.sound := by
  obtain ⟨hlen, hjournal, hraise, hnodup, hfree⟩ := Porch.sound_dropOffer h x.key
  refine ⟨hlen, hjournal, hraise, hnodup, fun k hk e he => ?_⟩
  rcases List.mem_append.1 he with he | he
  · exact hfree k hk e he
  · rw [List.mem_singleton] at he
    have hmem : k ∈ keysOf q.slots ∧ ¬ k = x.key := by simpa [Porch.held_eq, Porch.giveBack, keysOf_dropOffer] using hk
    intro heq
    refine hmem.2 (List.inj_on_of_nodup_map h.2.2.2.1 hmem.1 hx ?_)
    rw [he] at heq
    exact heq.symm


theorem Porch.nodup_held {q : Porch} (h : q.sound) : q.held.Nodup := List.Nodup.of_map rkKey h.2.2.2.1

/-- Offers of different keys, all held, are returned one after the other. -/
theorem Porch.sound_giveBackAll (p : Byte) (l : List PSlot) {q : Porch} (h : q.sound) (hnodup : (l.map PSlot.key).Nodup)
    (hheld : ∀ x ∈ l, x.key ∈ q.held) : (Porch.giveBackAll p l q).1.sound := by
  induction l generalizing q with
  | nil => exact h
  | cons x l ih =>
    obtain ⟨hx, hrest⟩ := List.forall_mem_cons.1 hheld
    obtain ⟨hnew, hnodup'⟩ := List.nodup_cons.1 hnodup
    refine ih (Porch.sound_giveBack h p hx) hnodup' fun y hy => ?_
    have hne : y.key ≠ x.key := fun e => hnew (e ▸ List.mem_map_of_mem hy)
    rw [Porch.held_eq, show (q.giveBack p x).1.slots = dropOffer x.key q.slots from rfl, keysOf_dropOffer]
    exact List.mem_filter.2 ⟨hrest y hy, by simpa using hne⟩

/-- The keys of the offers in the slots, slot by slot. -/
theorem keysOf_eq_map (sl : List (Option PSlot)) : keysOf sl = (sl.filterMap id).map PSlot.key := by
  rw [List.map_filterMap]
  rfl

theorem Porch.sound_returnAll {q : Porch} (h : q.sound) (p : Byte) : (q.returnAll p).1.sound := by
  have hkeys : (q.slots.filterMap id).map PSlot.key = q.held := (keysOf_eq_map q.slots).symm
  exact Porch.sound_giveBackAll p _ h (hkeys ▸ Porch.nodup_held h) fun x hx => hkeys ▸ List.mem_map_of_mem hx

/-! ## Core operations -/

/-- A voted operation that keeps soundness, or a split that only sets FAULT. -/
theorem Porch.sound_voted {q : Porch} (h : q.sound) (p : Byte) (v : Vote) {f : Porch → Porch × List Out}
    (hf : (f q).1.sound) : (q.voted p v f).1.sound := by
  cases v with
  | agree => exact hf
  | corrected => exact hf
  | split => exact Porch.sound_congr h rfl rfl rfl rfl

theorem Porch.journal_room_of_claimResult_ok {q : Porch} {lim : Nat} {k : BitVec 97} (h : q.claimResult lim = .ok k) :
    q.journal.length < 8 := by
  unfold Porch.claimResult at h
  split at h
  · cases h
  · split at h
    · split at h
      next hroom => exact hroom
      next => cases h
    · cases h

theorem Porch.sound_claimEffect {q : Porch} (h : q.sound) (p : Byte) (lim : Nat) : (q.claimEffect p lim).1.sound := by
  unfold Porch.claimEffect
  split
  · exact h
  · exact h
  next k hr =>
    split
    · exact h
    · exact Porch.sound_journalise (Porch.sound_dropOffer h k) p _ (Porch.journal_room_of_claimResult_ok (q := q) hr)

theorem Porch.sound_completeEffect {q : Porch} (h : q.sound) (p : Byte) (key : Word) (hroom : q.journal.length < 8) :
    (q.completeEffect p key).1.sound :=
  Porch.sound_journalise h p _ hroom

/-- R130: READY is 1 only where the operation finds the room that it needs. -/
theorem Porch.sound_takeOp {q : Porch} (h : q.sound) (p : Byte) (o : WaitOp) (ht : q.takes o = true) : (q.takeOp p o).1.sound := by
  obtain ⟨-, hroom⟩ := Bool.and_eq_true_iff.1 ht
  cases o with
  | cp op arg =>
    unfold Porch.takeOp
    dsimp only at hroom ⊢
    split
    · exact Porch.sound_claimEffect h p _
    · split
      next hop =>
        rw [if_pos hop] at hroom
        exact Porch.sound_completeEffect h p arg (of_decide_eq_true hroom)
      next hop =>
        rw [if_neg hop] at hroom
        split
        next hraise =>
          rw [if_pos hraise] at hroom
          exact Porch.sound_raiseEffect h _ (of_decide_eq_true hroom)
        · exact h
  | vr a d =>
    unfold Porch.takeOp
    dsimp only at hroom ⊢
    split
    next ha =>
      rw [if_pos ha] at hroom
      exact Porch.sound_completeEffect h p d (of_decide_eq_true hroom)
    next ha =>
      rw [if_neg ha] at hroom
      split
      next hb =>
        rw [if_pos hb] at hroom
        exact Porch.sound_raiseEffect h _ (of_decide_eq_true hroom)
      · exact h

theorem Porch.sound_takeVoted {q : Porch} (h : q.sound) (p : Byte) (o : WaitOp) (v : Vote) (err : Bool)
    (ht : q.takes o = true) : (q.takeVoted p o v err).1.sound := by
  have htaken : (q.takeOp p o).1.sound := Porch.sound_takeOp h p o ht
  cases v with
  | agree => exact htaken
  | corrected => exact htaken
  | split => exact Porch.sound_congr h rfl rfl rfl rfl

theorem Porch.sound_drainOps (p : Byte) (n : Nat) {q : Porch} (h : q.sound) : (Porch.drainOps p n q).1.sound := by
  induction n generalizing q with
  | zero => exact h
  | succ n ih =>
    unfold Porch.drainOps
    split
    · exact h
    next o v err os hw =>
      split
      next ht =>
        have hq1 : ({ q with waiting := os } : Porch).sound := Porch.sound_congr h rfl rfl rfl rfl
        exact ih (Porch.sound_takeVoted hq1 p o v err ht)
      · exact h

theorem Porch.sound_drain {q : Porch} (h : q.sound) (p : Byte) : (q.drain p).1.sound := Porch.sound_drainOps p _ h

theorem Porch.sound_coreOp {q : Porch} (h : q.sound) (p : Byte) (o : WaitOp) (v : Vote) (err : Bool) :
    (q.coreOp p o v err).1.sound := by
  unfold Porch.coreOp
  split
  · exact h
  · split
    next ht => exact Porch.sound_takeVoted h p o v err ht.2
    next => exact Porch.sound_congr h rfl rfl rfl rfl

theorem Porch.sound_setRaises {q : Porch} (h : q.sound) (w : WingId) (l : List (BitVec 4 × BitVec 12)) : (q.setRaises w l).sound := by
  cases w <;> exact Porch.sound_congr h rfl rfl rfl rfl

theorem Porch.sound_takeRaise {q r : Porch} (h : q.sound) {w : WingId} {i : BitVec 4} {c : BitVec 12}
    (ht : q.takeRaise w i c = some r) : r.sound := by
  unfold Porch.takeRaise at ht
  split at ht
  · split at ht
    · cases ht
      exact Porch.sound_setRaises h w _
    · cases ht
  · cases ht

theorem Porch.sound_sendRaise {q : Porch} (h : q.sound) (p : Byte) (v : Vote) : (q.sendRaise p v).1.sound := by
  unfold Porch.sendRaise
  split
  · exact h
  next i c rest hq =>
    refine Porch.sound_voted h p v ?_
    extract_lets q1
    have hlen : rest.length ≤ 4 := by
      have hraise := h.2.2.1
      rw [hq, List.length_cons] at hraise
      omega
    have hq1 : q1.sound := Porch.sound_of_parts h rfl h.2.1 hlen fun _ he => he
    exact Porch.sound_drain hq1 p

/-! ## Beats from a wing -/

theorem Porch.sound_noteClaim {q : Porch} (h : q.sound) (w : WingId) (c : Word) : (q.noteClaim w c).sound :=
  Porch.sound_congr h (by simp) (by simp) (by simp) (by simp)

theorem Porch.sound_fromWing {q : Porch} (h : q.sound) (p : Byte) (w : WingId) (c : Word) {f : Porch → Porch × List Out}
    (hf : (f (q.noteClaim w c)).1.sound) : (q.fromWing p w c f).1.sound := by
  unfold Porch.fromWing
  dsimp only
  split
  · exact hf
  · exact Porch.sound_noteClaim h w c

/-- R122: an offer that is no duplicate takes a slot. -/
theorem Porch.sound_fillFree {q : Porch} (h : q.sound) (taken : Option (BitVec 2)) (x : PSlot)
    (hheld : ∀ k ∈ q.held, rkKey k ≠ rkKey x.key) (hrets : ∀ e ∈ q.rets, e.key ≠ rkKey x.key) :
    ({ q with slots := fillFree taken x q.slots } : Porch).sound := by
  obtain ⟨hlen, hjournal, hraise, hnodup, hfree⟩ := h
  obtain ⟨hlen', hkeys⟩ := fillFree_oneMore taken x q.slots
  refine ⟨hlen'.trans hlen, hjournal, hraise, ?_⟩
  rcases hkeys with heq | hperm
  · exact ⟨(congrArg (List.map rkKey) heq).symm ▸ hnodup, fun k hk => hfree k (by rwa [Porch.held_eq, ← heq])⟩
  · constructor
    · refine (hperm.map rkKey).nodup_iff.2 (List.nodup_cons.2 ⟨fun hmem => ?_, hnodup⟩)
      obtain ⟨k, hk, hkey⟩ := List.mem_map.1 hmem
      exact hheld k hk hkey
    · intro k hk e he
      rcases List.mem_cons.1 (hperm.subset hk) with rfl | hk
      · exact hrets e he
      · exact hfree k hk e he

theorem Porch.not_dup {q : Porch} {key : Word} (h : ¬ q.dup key = true) :
    (∀ k ∈ q.held, rkKey k ≠ key) ∧ ∀ e ∈ q.rets, e.key ≠ key := by
  simpa [Porch.dup] using h

theorem Porch.sound_offer {q : Porch} (h : q.sound) (p : Byte) (taken : Option (BitVec 2)) (rtick : Byte) (k : BitVec 97) :
    (q.offer p taken rtick k).1.sound := by
  unfold Porch.offer
  dsimp only
  split
  · exact h
  next hdup =>
    obtain ⟨hheld, hrets⟩ := Porch.not_dup hdup
    split
    · exact Porch.sound_fillFree h taken _ hheld hrets
    · split
      next low _ _ =>
        split
        · exact h
        next y hy =>
          have hy' : y.key ∈ q.held := by
            rw [Porch.held_eq, keysOf_eq_map]
            exact List.mem_map_of_mem (List.mem_of_find?_eq_some hy)
          refine Porch.sound_fillFree (Porch.sound_giveBack h p hy') taken _ (fun j hj => ?_) fun e he => ?_
          · refine hheld j ?_
            rw [Porch.held_eq, show (q.giveBack p y).1.slots = dropOffer y.key q.slots from rfl, keysOf_dropOffer] at hj
            exact (List.mem_filter.1 hj).1
          · rcases List.mem_append.1 he with he | he
            · exact hrets e he
            · rw [List.mem_singleton.1 he]
              exact hheld y.key hy'
      · exact h

theorem Porch.sound_offers (p : Byte) (taken : Option (BitVec 2)) (rtick : Byte) (ks : List (BitVec 97)) {q : Porch}
    (h : q.sound) : (Porch.offers p taken rtick ks q).1.sound := by
  induction ks generalizing q with
  | nil => exact h
  | cons k ks ih => exact ih (Porch.sound_offer h p taken rtick k)

theorem Porch.sound_dropCommitted {q : Porch} (h : q.sound) (c : BitVec 16) : (q.dropCommitted c).sound :=
  Porch.sound_of_parts h rfl ((List.length_filter_le _ _).trans h.2.1) h.2.2.1 fun _ he => (List.mem_filter.1 he).1

theorem Porch.sound_release {q : Porch} (h : q.sound) (p : Byte) (taken : Option (BitVec 2)) (w : WingId) (hdr : BitVec 128)
    (os : List (BitVec 97)) : (q.release p taken w hdr os).1.sound := by
  unfold Porch.release
  extract_lets commit en kept q1 r n a held
  have hq1 : q1.sound := Porch.sound_congr (Porch.sound_dropCommitted h commit) rfl rfl rfl rfl
  have hr : Porch.sound r.1 := by
    unfold r
    split
    · exact hq1
    · exact Porch.sound_returnAll hq1 p
  exact Porch.sound_drain (Porch.sound_offers p _ _ _ hr) p

theorem Porch.sound_takeInit {q : Porch} (h : q.sound) (p : Byte) (b : BitVec 128) : (q.takeInit p b).1.sound := by
  unfold Porch.takeInit
  extract_lets q1
  have hq1 : q1.sound := Porch.sound_congr h rfl rfl rfl rfl
  exact Porch.sound_drain hq1 p

/-! ## Tick boundaries and power -/

theorem Porch.ageSlot_key (q : Porch) (x : PSlot) : (q.ageSlot x).1.key = x.key := by
  unfold Porch.ageSlot
  split <;> rfl

theorem keysOf_aged (q : Porch) (sl : List (Option PSlot)) :
    keysOf ((sl.map fun o => o.map q.ageSlot).map fun o => o.map Prod.fst) = keysOf sl := by
  induction sl with
  | nil => rfl
  | cons o sl ih =>
    cases o with
    | none => exact ih
    | some x => exact congrArg₂ List.cons (q.ageSlot_key x) ih

/-- The offers that a boundary returns stand in slots of their own. -/
theorem due_sublist (sl : List (Option (PSlot × Bool))) :
    ((sl.filterMap fun o => match o with
      | some (x, true) => some x
      | _ => none).map PSlot.key).Sublist (keysOf (sl.map fun o => o.map Prod.fst)) := by
  induction sl with
  | nil => exact List.Sublist.refl _
  | cons o sl ih =>
    match o with
    | none => exact ih
    | some (x, true) => exact ih.cons_cons x.key
    | some (x, false) => exact ih.cons x.key

theorem Porch.sound_boundary {q : Porch} (h : q.sound) (p : Byte) : (q.boundary p).1.sound := by
  unfold Porch.boundary
  extract_lets aged q1 due r
  have hkeys : q1.held = q.held := keysOf_aged q q.slots
  have hq1 : q1.sound := by
    obtain ⟨hlen, hjournal, hraise, hnodup, hfree⟩ := h
    exact ⟨by simpa [q1, aged] using hlen, hjournal, hraise, hkeys ▸ hnodup, fun k hk => hfree k (hkeys ▸ hk)⟩
  have hdue : (due.map PSlot.key).Sublist q1.held := due_sublist aged
  exact Porch.sound_giveBackAll p due hq1 ((Porch.nodup_held hq1).sublist hdue)
    fun x hx => hdue.subset (List.mem_map_of_mem hx)

theorem Porch.sound_powerOff (q : Porch) : q.powerOff.sound := Porch.sound_congr Porch.off_sound rfl rfl rfl rfl

theorem Porch.sound_powerOn (q : Porch) : q.powerOn.sound := Porch.sound_congr Porch.off_sound rfl rfl rfl rfl

/-! ## The porches of the block -/

theorem SMap.mem_of_find? {α : Type} {m : SMap α} {k : Nat} {a : α} (h : SMap.find? m k = some a) : (k, a) ∈ m := by
  induction m with
  | nil => cases h
  | cons e m ih =>
    obtain ⟨i, b⟩ := e
    unfold SMap.find? at h
    split at h
    next hik => cases h; exact hik ▸ List.mem_cons_self
    next => exact List.mem_cons_of_mem _ (ih h)

theorem SMap.mem_set {α : Type} [DecidableEq α] {m : SMap α} {d : α} {k : Nat} {a : α} {e : Nat × α}
    (h : e ∈ SMap.set m d k a) : e = (k, a) ∨ e ∈ m := by
  unfold SMap.set at h
  split at h
  · exact .inr (SMap.mem_erase h)
  · exact SMap.mem_insert h

theorem State.porchesSound_porch {s : State} (h : s.porchesSound) (p : Byte) : (s.porch p).sound := by
  unfold State.porch SMap.get
  cases hf : SMap.find? s.porches p.toNat with
  | none => exact Porch.off_sound
  | some q => exact h.2 _ (SMap.mem_of_find? hf)

/-- Soundness of the porches is about the porches alone. -/
theorem State.porchesSound_of_eq {s t : State} (h : s.porchesSound) (heq : t.porches = s.porches) : t.porchesSound := by
  unfold State.porchesSound
  rwa [heq]

theorem State.porchesSound_setPorch {s : State} (h : s.porchesSound) (p : Byte) {q : Porch} (hq : q.sound) :
    (s.setPorch p q).porchesSound := by
  refine ⟨SMap.wfd_set p.toNat q h.1, fun e he => ?_⟩
  rcases SMap.mem_set he with rfl | he
  · exact hq
  · exact h.2 e he

/-- An operation of a porch that keeps it sound whenever it is. -/
def KeepsSound (f : Porch → Porch × List Out) : Prop := ∀ q : Porch, q.sound → (f q).1.sound

theorem State.porchesSound_onPorch {s : State} (h : s.porchesSound) (p : Byte) {f : Porch → Porch × List Out}
    (hf : KeepsSound f) : (s.onPorch p f).porchesSound :=
  State.porchesSound_of_eq (State.porchesSound_setPorch h p (hf _ (State.porchesSound_porch h p))) rfl

theorem State.porchesSound_onPorches {f : Byte → Porch → Porch × List Out} (hf : ∀ p, KeepsSound (f p)) (ps : List Byte)
    {s : State} (h : s.porchesSound) : (State.onPorches f ps s).porchesSound := by
  induction ps generalizing s with
  | nil => exact h
  | cons p ps ih =>
    have hset := State.porchesSound_setPorch h p (hf p _ (State.porchesSound_porch h p))
    exact ih (State.porchesSound_of_eq hset rfl)

/-! ## The commands of one porch -/

theorem keepsSound_hears {f : Porch → Porch × List Out} (hf : KeepsSound f) :
    KeepsSound fun q => if q.hears then f q else (q, []) := by
  intro q hq
  dsimp only
  split
  · exact hf q hq
  · exact hq

theorem keepsSound_voted (p : Byte) (v : Vote) {f : Porch → Porch × List Out} (hf : KeepsSound f) :
    KeepsSound fun q => q.voted p v f := fun _ hq => Porch.sound_voted hq p v (hf _ hq)

theorem keepsSound_fromWing (p : Byte) (w : WingId) (c : Word) {f : Porch → Porch × List Out} (hf : KeepsSound f) :
    KeepsSound fun q => q.fromWing p w c f := fun _ hq => Porch.sound_fromWing hq p w c (hf _ (Porch.sound_noteClaim hq w c))

theorem keepsSound_coreOp (p : Byte) (o : WaitOp) (v : Vote) (err : Bool) : KeepsSound fun q => q.coreOp p o v err :=
  fun _ hq => Porch.sound_coreOp hq p o v err

theorem keepsSound_releaseIfUp (p : Byte) (taken : Option (BitVec 2)) (w : WingId) (hdr : BitVec 128) (os : List (BitVec 97)) :
    KeepsSound fun q => if q.up then q.release p taken w hdr os else (q, []) := by
  intro q hq
  dsimp only
  split
  · exact Porch.sound_release hq p taken w hdr os
  · exact hq

theorem execVrRd_porchesSound {s : State} (h : s.porchesSound) (p : Byte) (v : Vote) :
    ∃ t, execVrRd p v s = .next t ∧ t.porchesSound := by
  refine ⟨_, rfl, State.porchesSound_onPorch h p fun q hq => ?_⟩
  dsimp only
  split
  · exact hq
  · split
    · exact Porch.sound_congr hq rfl rfl rfl rfl
    · exact Porch.sound_voted hq p v (Porch.sound_claimEffect hq p 256)

theorem execSliceCurReturn_porchesSound {s : State} (h : s.porchesSound) (p : Byte) (v : Vote) :
    ∃ t, execSliceCurReturn p v s = .next t ∧ t.porchesSound := by
  refine ⟨_, rfl, State.porchesSound_onPorch h p fun q hq => ?_⟩
  dsimp only
  have hb : (q.voted p v fun q => q.boundary p).1.sound := Porch.sound_voted hq p v (Porch.sound_boundary hq p)
  split
  · exact hq
  · split
    · exact hq
    · split
      · exact hb
      · exact hb

/-- A command of one porch leaves the porches sound. -/
theorem exec_porchOnly_porchesSound (c : Instr) {s : State} (h : s.porchesSound) (p : Byte) (hp : c.porchOnly = some p) :
    ∃ t, exec c s = .next t ∧ t.porchesSound := by
  cases c with
  | raise q arg v =>
    exact ⟨_, rfl, State.porchesSound_of_eq (State.porchesSound_onPorch h q (keepsSound_coreOp q _ v _)) rfl⟩
  | claim q op arg v =>
    exact ⟨_, rfl, State.porchesSound_of_eq (State.porchesSound_onPorch h q (keepsSound_coreOp q _ v _)) rfl⟩
  | complete q arg v =>
    exact ⟨_, rfl, State.porchesSound_of_eq (State.porchesSound_onPorch h q (keepsSound_coreOp q _ v _)) rfl⟩
  | eoi q waddr data v => exact ⟨_, rfl, State.porchesSound_onPorch h q (keepsSound_coreOp q _ v false)⟩
  | vrRd q v => exact execVrRd_porchesSound h q v
  | sliceCurReturn q v => exact execSliceCurReturn_porchesSound h q v
  | sliceCurChange q cur sleep =>
    exact ⟨_, rfl, State.porchesSound_onPorch h q fun _ hq => Porch.sound_congr hq rfl rfl rfl rfl⟩
  | releaseHeader q w hdr offers v =>
    exact ⟨_, rfl, State.porchesSound_onPorch h q
      (keepsSound_hears (keepsSound_voted q _ (keepsSound_fromWing q w _ (keepsSound_releaseIfUp q _ w hdr offers))))⟩
  | claimRaise q w claim v =>
    exact ⟨_, rfl, State.porchesSound_onPorch h q
      (keepsSound_hears (keepsSound_voted q v (keepsSound_fromWing q w claim fun _ hq => hq)))⟩
  | init q w beat v =>
    exact ⟨_, rfl, State.porchesSound_onPorch h q
      (keepsSound_hears (keepsSound_voted q v (keepsSound_fromWing q w _ fun _ hq => Porch.sound_takeInit hq q beat)))⟩
  | _ => cases hp

/-! ## The commands that reach further -/

theorem execRaiseBeat_porchesSound {s : State} (h : s.porchesSound) (w : WingId) (p : Byte) (idx : BitVec 4) (b : RaiseRead) :
    ∃ t, execRaiseBeat w p idx b s = .next t ∧ t.porchesSound := by
  unfold execRaiseBeat
  extract_lets q due r set s1
  have hq : q.sound := State.porchesSound_porch h p
  have hr : Porch.sound r.1 := by
    unfold r
    split
    · exact Porch.sound_sendRaise hq p b.vote
    · exact hq
  have h1 : s1.porchesSound := State.porchesSound_of_eq (State.porchesSound_setPorch h p hr) rfl
  refine ⟨_, rfl, ?_⟩
  split
  next q1 ht =>
    have hset := State.porchesSound_setPorch h1 p (Porch.sound_takeRaise hr ht)
    exact State.porchesSound_of_eq hset ((s1.setPorch p q1).onWing_only w fun v => v.raised p idx.toNat b.cur).2.1
  next => exact h1

theorem execPorchDomainPowerDown_porchesSound {s : State} (h : s.porchesSound) (k : BitVec 5) (d : DownRead) :
    ∃ t, execPorchDomainPowerDown k d s = .next t ∧ t.porchesSound := by
  unfold execPorchDomainPowerDown
  extract_lets s0 vote s1 s2
  have h0 : s0.porchesSound := State.porchesSound_of_eq h rfl
  have hreturn (p : Byte) : KeepsSound fun q => if q.hears then q.voted p (vote p) fun q => q.returnAll p else (q, []) :=
    keepsSound_hears (keepsSound_voted p (vote p) (f := fun q => q.returnAll p) fun _ hq => Porch.sound_returnAll hq p)
  have h1 : s1.porchesSound := State.porchesSound_onPorches hreturn _ h0
  have h2 : s2.porchesSound := State.porchesSound_onPorches (fun _ q _ => q.sound_powerOff) _ h1
  clear_value s2
  split
  · exact ⟨_, rfl, h0⟩
  · split
    · exact ⟨_, rfl, State.porchesSound_of_eq h2 rfl⟩
    · exact ⟨_, rfl, h1⟩

theorem execPorchDomainPowerUp_porchesSound {s : State} (h : s.porchesSound) (k : BitVec 5) (pdVote : Byte) :
    ∃ t, execPorchDomainPowerUp k pdVote s = .next t ∧ t.porchesSound := by
  unfold execPorchDomainPowerUp
  extract_lets s0 s1
  have h0 : s0.porchesSound := State.porchesSound_of_eq h rfl
  have h1 : s1.porchesSound := State.porchesSound_onPorches (fun _ q _ => q.sound_powerOn) _ h0
  split
  · exact ⟨_, rfl, h0⟩
  · exact ⟨_, rfl, State.porchesSound_of_eq h1 rfl⟩

/-- The canonical form when every value is changed and the defaults among them are dropped. -/
theorem SMap.sortedFrom_map_filter {α : Type} (f : α → α) (keep : Nat × α → Bool) (m : SMap α) (lo : Nat)
    (h : SMap.sortedFrom lo m = true) : SMap.sortedFrom lo ((m.map fun e => (e.1, f e.2)).filter keep) = true := by
  induction m generalizing lo with
  | nil => rfl
  | cons e m ih =>
    obtain ⟨i, a⟩ := e
    obtain ⟨hlo, hm⟩ := Bool.and_eq_true_iff.1 h
    rw [List.map_cons, List.filter_cons]
    split
    · exact Bool.and_eq_true_iff.2 ⟨hlo, ih (i + 1) hm⟩
    · exact SMap.sortedFrom_mono (Nat.le_succ_of_le (of_decide_eq_true hlo)) (ih (i + 1) hm)

theorem State.porchesSound_dropRails {s : State} (h : s.porchesSound) : s.dropRails.porchesSound := by
  unfold State.dropRails
  split
  · refine ⟨?_, fun e he => ?_⟩
    · refine Bool.and_eq_true_iff.2 ⟨SMap.sortedFrom_map_filter _ _ _ _ (Bool.and_eq_true_iff.1 h.1).1, ?_⟩
      exact List.all_eq_true.2 fun e he => (List.mem_filter.1 he).2
    · obtain ⟨a, -, rfl⟩ := List.mem_map.1 (List.mem_filter.1 he).1
      exact a.2.sound_powerOff
  · exact h

@[simp] theorem State.setWing_porches (s : State) (w : WingId) (v : Wing) : (s.setWing w v).porches = s.porches := by
  cases w <;> rfl

@[simp] theorem State.onWing_porches (s : State) (w : WingId) (f : Wing → Wing) : (s.onWing w f).porches = s.porches :=
  (s.onWing_only w f).2.1

/-- A step of one wing that may write the other one too leaves the porches. -/
theorem State.ite_setWing_porches (s : State) (b : Bool) (w : WingId) (v : Wing) :
    (if b then s.setWing w v else s).porches = s.porches := by
  split <;> simp

/-- Every command leaves the porches sound. -/
theorem exec_porchesSound (c : Instr) {s : State} (h : s.porchesSound) : ∃ t, exec c s = .next t ∧ t.porchesSound := by
  cases hw : c.wingOnly with
  | some w =>
    obtain ⟨f, hf⟩ := exec_wingOnly c s w hw
    exact ⟨_, hf, State.porchesSound_of_eq h (s.onWing_porches w f)⟩
  | none =>
    cases hp : c.porchOnly with
    | some p => exact exec_porchOnly_porchesSound c h p hp
    | none =>
      cases c with
      | raiseBeat w p idx r => exact execRaiseBeat_porchesSound h w p idx r
      | porchDomainPowerDown k d => exact execPorchDomainPowerDown_porchesSound h k d
      | porchDomainPowerUp k pdVote => exact execPorchDomainPowerUp_porchesSound h k pdVote
      | tickBoundary | napEntry | deepEntry =>
        exact ⟨_, rfl, State.porchesSound_of_eq h (by rw [State.ite_setWing_porches, State.onWing_porches])⟩
      | wingReset w => exact ⟨_, rfl, State.porchesSound_dropRails (State.porchesSound_of_eq h (s.onWing_porches w _))⟩
      | backupRailLoss => exact ⟨_, rfl, State.porchesSound_of_eq h rfl⟩
      | raise | releaseHeader | claimRaise | init | claim | vrRd | complete | eoi | sliceCurReturn | sliceCurChange => cases hp
      | _ => cases hw

end Sys2Proof.Machine

namespace Sys2Proof

open Machine

/-- Settles O3: soundness is kept by each operation of a porch, so by each command. -/
theorem porchesStaySound : Obligations.PorchesStaySound := by
  unfold Obligations.PorchesStaySound
  intro s t h hstep
  unfold step at hstep
  split at hstep
  · cases hstep
    exact h
  next c rest _ =>
    have hrest : ({ s with pending := rest } : State).porchesSound := State.porchesSound_of_eq h rfl
    obtain ⟨u, hu, hsound⟩ := exec_porchesSound c hrest
    cases hstep.symm.trans hu
    exact hsound

end Sys2Proof
end

section
/-! Frames of the claims (R257, R258): each operation of a wing keeps its side, its claim and the greatest claim that it has seen
(`_claims`), but for the few that take a claim or see one. Here: branches and rounds, and the operations that the chapters share. -/

namespace Sys2Proof.Machine

/-- Neither the side of a wing, nor its claim, nor the greatest claim that it has seen differs. -/
@[simp] abbrev Wing.SameClaims (v w : Wing) : Prop := v.id = w.id ∧ v.ctl.claim = w.ctl.claim ∧ v.ctl.seen = w.ctl.seen

theorem Wing.SameClaims.trans {u v w : Wing} (huv : u.SameClaims v) (hvw : v.SameClaims w) : u.SameClaims w :=
  ⟨huv.1.trans hvw.1, huv.2.1.trans hvw.2.1, huv.2.2.trans hvw.2.2⟩

/-! ## Branches and rounds -/

@[simp] theorem Wing.id_ite (c : Prop) [Decidable c] (v w : Wing) : (if c then v else w).id = if c then v.id else w.id :=
  apply_ite Wing.id c v w

@[simp] theorem Wing.claim_ite (c : Prop) [Decidable c] (v w : Wing) :
    (if c then v else w).ctl.claim = if c then v.ctl.claim else w.ctl.claim := apply_ite (·.ctl.claim) c v w

@[simp] theorem Wing.seen_ite (c : Prop) [Decidable c] (v w : Wing) :
    (if c then v else w).ctl.seen = if c then v.ctl.seen else w.ctl.seen := apply_ite (·.ctl.seen) c v w

/-- A round keeps the claims when each of its steps does. -/
@[simp] theorem Wing.sameClaims_foldl {α : Type} (f : Wing → α → Wing) (l : List α) (w : Wing)
    (h : ∀ v a, (f v a).SameClaims v) : (l.foldl f w).SameClaims w :=
  ⟨foldl_keeps (·.id) f (fun v a => (h v a).1) l w, foldl_keeps (·.ctl.claim) f (fun v a => (h v a).2.1) l w,
    foldl_keeps (·.ctl.seen) f (fun v a => (h v a).2.2) l w⟩

/-- As `sameClaims_foldl`, for a round that gathers a result beside the wing. -/
@[simp] theorem Wing.sameClaims_fst_foldl {α β : Type} (f : Wing × β → α → Wing × β) (l : List α) (a : Wing × β)
    (h : ∀ b x, (f b x).1.SameClaims b.1) : (l.foldl f a).1.SameClaims a.1 := by
  induction l generalizing a with
  | nil => exact ⟨rfl, rfl, rfl⟩
  | cons x l ih => exact (ih (f a x)).trans (h a x)

section

variable (w : Wing)

@[simp] theorem Wing.when_claims (c : Bool) (f : Wing → Wing) (h : ∀ v, (f v).SameClaims v) : (w.when c f).SameClaims w := by
  simp [Wing.when, h]

/-! ## Operations that set other fields of the control part -/

@[simp] theorem Wing.bootDone_claims : w.bootDone.SameClaims w := by simp [Wing.bootDone]

@[simp] theorem Wing.stopBoot_claims : w.stopBoot.SameClaims w := by simp [Wing.stopBoot]

@[simp] theorem Wing.restartWalk_claims : w.restartWalk.SameClaims w := ⟨rfl, rfl, rfl⟩

@[simp] theorem Wing.withdraw_claims : w.withdraw.SameClaims w := by simp [Wing.withdraw]

@[simp] theorem Wing.noteAnswer_claims : w.noteAnswer.SameClaims w := ⟨rfl, rfl, rfl⟩

@[simp] theorem Wing.becomeActive_claims : w.becomeActive.SameClaims w := ⟨rfl, rfl, rfl⟩

@[simp] theorem Wing.provisionalCommit_claims : w.provisionalCommit.SameClaims w := by
  unfold Wing.provisionalCommit
  split <;> simp

@[simp] theorem Wing.recoveryEnds_claims : w.recoveryEnds.SameClaims w := by simp [Wing.recoveryEnds]

@[simp] theorem Wing.resyncAbort_claims : w.resyncAbort.SameClaims w := by simp [Wing.resyncAbort]

@[simp] theorem Wing.scheduleHandover_claims : w.scheduleHandover.SameClaims w := by simp [Wing.scheduleHandover]

@[simp] theorem Wing.countBeats_claims : w.countBeats.SameClaims w := ⟨rfl, rfl, rfl⟩

@[simp] theorem Wing.countStable_claims (before : BitVec 4) : (w.countStable before).SameClaims w := by simp [Wing.countStable]

@[simp] theorem Wing.settleReady_claims : w.settleReady.SameClaims w := ⟨rfl, rfl, rfl⟩

@[simp] theorem Wing.peerWithdrew_claims : w.peerWithdrew.SameClaims w := by simp [Wing.peerWithdrew]

@[simp] theorem Wing.endWithdrawal_claims : w.endWithdrawal.SameClaims w := by
  unfold Wing.endWithdrawal
  split <;> simp

@[simp] theorem Wing.closeCounts_claims (before : BitVec 4) : (w.closeCounts before).SameClaims w := by simp [Wing.closeCounts]

/-! ## Vectors and their slots -/

@[simp] theorem Wing.writeBack_claims (c : Ctx) : (w.writeBack c).SameClaims w := ⟨rfl, rfl, rfl⟩

@[simp] theorem Wing.addFetch_claims (key : Word) (c : FetchCause) : (w.addFetch key c).SameClaims w := by simp [Wing.addFetch]

@[simp] theorem Wing.evict_claims (n : Nat) (c : Ctx) (toBuffer : Bool) : (w.evict n c toBuffer).SameClaims w := by
  simp [Wing.evict]

theorem Wing.claims_of_install? {w v : Wing} {c : Ctx} {causes : List FetchCause} (h : w.install? c causes = some v) :
    v.SameClaims w := by
  unfold Wing.install? at h
  dsimp only at h
  split at h
  · cases h
  · obtain ⟨ch, -, rfl⟩ := Option.map_eq_some_iff.1 h
    split <;> simp

/-! ## Rings and letters -/

@[simp] theorem Wing.readRings_claims : w.readRings.SameClaims w := 
  ⟨Wing.readRings_keeps_of (·.id) (fun _ _ _ _ => rfl) w, Wing.readRings_keeps_of (·.ctl.claim) (fun _ _ _ _ => rfl) w,
    Wing.readRings_keeps_of (·.ctl.seen) (fun _ _ _ _ => rfl) w⟩

@[simp] theorem Wing.applyDoorbell_claims (s : BitVec 12) (kind : BitVec 2) (pos : BitVec 24) :
    (w.applyDoorbell s kind pos).SameClaims w := by
  unfold Wing.applyDoorbell
  dsimp only
  (repeat' split) <;> simp

@[simp] theorem Wing.sendOut_claims (s : BitVec 12) (n : Nat) : (w.sendOut s n).SameClaims w := by
  induction n generalizing w with
  | zero => exact ⟨rfl, rfl, rfl⟩
  | succ n ih =>
    unfold Wing.sendOut
    split
    · exact ⟨rfl, rfl, rfl⟩
    · split <;> simp [ih]

@[simp] theorem Wing.sendIn_claims (s : BitVec 12) (n : Nat) : (w.sendIn s n).SameClaims w := by
  induction n generalizing w with
  | zero => exact ⟨rfl, rfl, rfl⟩
  | succ n ih =>
    unfold Wing.sendIn
    dsimp only
    split
    · exact ⟨rfl, rfl, rfl⟩
    · split <;> simp [ih]

@[simp] theorem Wing.sendLetters_claims : w.sendLetters.SameClaims w := by simp [Wing.sendLetters]

@[simp] theorem Wing.takeLetter_claims (s : BitVec 12) (v : Word) : (w.takeLetter s v).SameClaims w := by simp [Wing.takeLetter]

/-! ## Arrivals -/

@[simp] theorem Wing.filterInsert_claims (s : BitVec 12) (tag : Word) (t : Tick) : (w.filterInsert s tag t).SameClaims w := by
  simp [Wing.filterInsert]

@[simp] theorem Wing.deliver_claims (o : Obs) (t : Tick) : (w.deliver o t).SameClaims w := by
  unfold Wing.deliver
  split <;> simp

@[simp] theorem Wing.discard_claims (o : Obs) (cause : BitVec 2) (recheck : Bool) : (w.discard o cause recheck).SameClaims w := by
  simp [Wing.discard]

@[simp] theorem Wing.rejectObs_claims (o : Obs) (r : Nat) : (w.rejectObs o r).SameClaims w := by simp [Wing.rejectObs]

@[simp] theorem Wing.serveEsc_claims : w.serveEsc.SameClaims w := by simp [Wing.serveEsc]

theorem Wing.claims_of_attemptDoomed_gone {w v : Wing} {o : Obs} (h : w.attemptDoomed o = .gone v) : v.SameClaims w := by
  unfold Wing.attemptDoomed at h
  dsimp only at h
  generalize (if o.escCause = 0 then 0 else 1) = esc at h
  (repeat' split at h) <;> cases h
  simp

theorem Wing.claims_of_attemptLost_gone {w v : Wing} {o : Obs} (h : w.attemptLost o = .gone v) : v.SameClaims w := by
  unfold Wing.attemptLost at h
  dsimp only at h
  (repeat' split at h) <;> cases h <;> simp

/-- An admission that is over leaves the claims: the three marks on an arrival first, then the checks. -/
theorem Wing.claims_of_attempt_gone {w v : Wing} {o : Obs} {late : Bool} (h : w.attempt o late = .gone v) : v.SameClaims w := by
  unfold Wing.attempt at h
  dsimp only at h
  generalize (if o.escCause = 0 then 0 else 1) = esc at h
  by_cases hpoison : o.isOf w.vst.poison = true
  · rw [if_pos hpoison] at h
    cases h
  rw [if_neg hpoison] at h
  by_cases hlost : o.isOf w.vst.spillLost = true
  · rw [if_pos hlost] at h
    exact Wing.claims_of_attemptLost_gone h
  rw [if_neg hlost] at h
  by_cases hdoomed : o.isOf w.vst.doomed = true
  · rw [if_pos hdoomed] at h
    exact Wing.claims_of_attemptDoomed_gone h
  rw [if_neg hdoomed] at h
  (repeat' split at h) <;> cases h <;> simp

@[simp] theorem Wing.stage_claims (o : Obs) : (w.stage o).SameClaims w := by simp [Wing.stage]

@[simp] theorem Wing.fetchFor_claims (o : Obs) (cause : FetchCause) : (w.fetchFor o cause).SameClaims w := by
  unfold Wing.fetchFor
  split
  · exact ⟨rfl, rfl, rfl⟩
  · split
    · dsimp only
      split
      · simp
      · split
        next v hv => simpa using Wing.claims_of_install? hv
        next => simp
    · simp

@[simp] theorem Wing.admitNew_claims (o : Obs) : (w.admitNew o).SameClaims w := by
  unfold Wing.admitNew
  split
  · simp
  · extract_lets cold w0 w1
    have h1 : w1.SameClaims w := by simp [w1, w0]
    split
    · simp [h1]
    · split
      next v hv => exact (Wing.claims_of_attempt_gone hv).trans h1
      next => simp [h1]
      next => simp [h1]

@[simp] theorem Wing.registerAt_claims (t : Tick) (o : Obs) : (w.registerAt t o).SameClaims w := by simp [Wing.registerAt]

@[simp] theorem Wing.register_claims (o : Obs) : (w.register o).SameClaims w := by simp [Wing.register]

/-! ## Slices, their jobs and drains -/

@[simp] theorem Wing.clearSlice_claims (s : BitVec 12) (keepRoutes : Bool) : (w.clearSlice s keepRoutes).SameClaims w := ⟨rfl, rfl, rfl⟩

@[simp] theorem Wing.resetSlice_claims (s : BitVec 12) : (w.resetSlice s).SameClaims w := by simp [Wing.resetSlice]

@[simp] theorem Wing.removeSlice_claims (s : BitVec 12) : (w.removeSlice s).SameClaims w := by simp [Wing.removeSlice]

@[simp] theorem Wing.creationWrite_claims (s : BitVec 12) (vtBase evtBase hdrBase : DWord) (vt evt : Nat) (reset : Bool)
    (i : Nat) : (w.creationWrite s vtBase evtBase hdrBase vt evt reset i).SameClaims w := by
  simp [Wing.creationWrite]

@[simp] theorem Wing.issueJob_claims (s : BitVec 12) (n : Nat) : (w.issueJob s n).1.SameClaims w := by
  unfold Wing.issueJob
  dsimp only
  (repeat' split) <;> simp

@[simp] theorem Wing.issueCreation_claims : w.issueCreation.SameClaims w := by simp [Wing.issueCreation]

@[simp] theorem Wing.askHalf_claims (s : BitVec 12) (j : Job) (half : Bool) : (w.askHalf s j half).SameClaims w := ⟨rfl, rfl, rfl⟩

@[simp] theorem Wing.issueHalf_claims (s : BitVec 12) (j : Job) (half : Bool) : (Wing.issueHalf s j w half).SameClaims w := by
  simp [Wing.issueHalf]

@[simp] theorem Wing.issueBlocks_claims : w.issueBlocks.SameClaims w := by
  refine Wing.sameClaims_foldl _ _ _ fun v e => ?_
  split <;> simp

@[simp] theorem Wing.useReads_claims : w.useReads.SameClaims w := by simp [Wing.useReads]

@[simp] theorem Wing.askBlock_claims (s : BitVec 12) : (w.askBlock s).SameClaims w := by simp [Wing.askBlock]

@[simp] theorem Wing.offerDrains_claims : w.offerDrains.SameClaims w := by
  unfold Wing.offerDrains
  split
  · exact ⟨rfl, rfl, rfl⟩
  · refine Wing.sameClaims_foldl _ _ _ fun v p => ?_
    dsimp only
    split <;> exact ⟨rfl, rfl, rfl⟩

/-! ## Ring commands -/

@[simp] theorem Wing.dropRepin_claims (key : Word) : (w.dropRepin key).SameClaims w := ⟨rfl, rfl, rfl⟩

@[simp] theorem Wing.vecEffect_claims (op : Byte) (key : Word) (operand : DWord) (t : Tick) :
    (w.vecEffect op key operand t).1.SameClaims w := by
  unfold Wing.vecEffect
  split <;> simp

@[simp] theorem Wing.admitState_claims (op : Byte) (s : BitVec 12) (t : Tick) : (w.admitState op s t).SameClaims w := by
  simp [Wing.admitState]

@[simp] theorem Wing.finishState_claims (op : Byte) (s : BitVec 12) (result : Byte) (param : BitVec 1024) (t : Tick) :
    (w.finishState op s result param t).SameClaims w := by
  simp [Wing.finishState]

@[simp] theorem Wing.applyFinish_claims (t : Tick) (f : FinishRec) (param : BitVec 1024) :
    (w.applyFinish t f param).SameClaims w := by
  unfold Wing.applyFinish
  split <;> simp

theorem Wing.claims_of_placeFinish {w v : Wing} {d : FinDue} (h : w.placeFinish d = some v) : v.SameClaims w := by
  unfold Wing.placeFinish at h
  split at h
  · cases h; exact ⟨rfl, rfl, rfl⟩
  · dsimp only at h
    split at h
    · cases h
    · cases h
      simp

@[simp] theorem placeFinishesIn_claims (ds : List FinDue) : (placeFinishesIn ds w).SameClaims w := by
  induction ds generalizing w with
  | nil => exact ⟨rfl, rfl, rfl⟩
  | cons d ds ih =>
    unfold placeFinishesIn
    split
    next v hv => exact (ih v).trans (Wing.claims_of_placeFinish hv)
    next => exact ⟨rfl, rfl, rfl⟩

@[simp] theorem Wing.placeFinishes_claims : w.placeFinishes.SameClaims w := by simp [Wing.placeFinishes]

@[simp] theorem Wing.finish_claims (ring : BitVec 12) (pos : Word) (result : Byte) (rep : Report) (param : BitVec 1024) :
    (w.finish ring pos result rep param).SameClaims w := by
  simp [Wing.finish]

@[simp] theorem Wing.fetchKey_claims (key : Word) (cause : FetchCause) : (w.fetchKey key cause).SameClaims w := by
  unfold Wing.fetchKey
  (repeat' split) <;> simp

@[simp] theorem Wing.clean_claims (n : Nat) : (Wing.clean n w).SameClaims w := by
  induction n generalizing w with
  | zero => exact ⟨rfl, rfl, rfl⟩
  | succ n ih =>
    unfold Wing.clean
    split
    · exact ⟨rfl, rfl, rfl⟩
    · split <;> simp [ih]

@[simp] theorem Wing.finishFlushes_claims : w.finishFlushes.SameClaims w := by simp [Wing.finishFlushes]

@[simp] theorem Wing.writeInitial_claims (key : Word) : (w.writeInitial key).SameClaims w := by simp [Wing.writeInitial]

@[simp] theorem Wing.startLong_claims (ring : BitVec 12) (u : UCmd) : (w.startLong ring u).SameClaims w := by simp [Wing.startLong]

@[simp] theorem Wing.applyFinished_claims (ring : BitVec 12) (u : UCmd) (key : Word) :
    (w.applyFinished ring u key).SameClaims w := by
  simp [Wing.applyFinished]

@[simp] theorem Wing.applyPlaced_claims (key : Word) : (w.applyPlaced key).SameClaims w := by simp [Wing.applyPlaced]

@[simp] theorem Wing.takeCmd_claims (ring : BitVec 12) (d : Desc) : (w.takeCmd ring d).SameClaims w := by simp [Wing.takeCmd]

@[simp] theorem Wing.haltRing_claims (ring : BitVec 12) : (w.haltRing ring).SameClaims w := by simp [Wing.haltRing]

theorem Wing.claims_of_turnFor_take {w v : Wing} {ring : BitVec 12} {d : Desc} (h : w.turnFor ring d = .take v) :
    v.SameClaims w := by
  unfold Wing.turnFor at h
  (repeat' split at h) <;> cases h
  simp

theorem Wing.claims_of_turn_take {w v : Wing} {ring : BitVec 12} (h : w.turn ring = .take v) : v.SameClaims w := by
  unfold Wing.turn at h
  dsimp only at h
  split at h
  · cases h
  · split at h
    · (repeat' split at h) <;> cases h
      simp
    · split at h
      · exact Wing.claims_of_turnFor_take h
      · cases h

@[simp] theorem Wing.noteWait_claims (ring : BitVec 12) : (w.noteWait ring).SameClaims w := ⟨rfl, rfl, rfl⟩

@[simp] theorem Wing.serveFirst_claims (n : Nat) : (Wing.serveFirst n w).1.SameClaims w := by
  induction n generalizing w with
  | zero => exact ⟨rfl, rfl, rfl⟩
  | succ n ih =>
    unfold Wing.serveFirst
    split
    next v hv => exact (ih v).trans (Wing.claims_of_turn_take hv)
    next => simp
    next => exact ⟨rfl, rfl, rfl⟩

@[simp] theorem serveRound_claims (ss : List (BitVec 12)) (n : Nat) (told : List (BitVec 12)) :
    (serveRound ss w n told).1.SameClaims w := by
  induction ss generalizing w n told with
  | nil => exact ⟨rfl, rfl, rfl⟩
  | cons s ss ih =>
    unfold serveRound
    split
    · exact ⟨rfl, rfl, rfl⟩
    · split
      next v hv => simpa [ih] using Wing.claims_of_turn_take hv
      next => split <;> simp [ih]
      next => exact ih ..

@[simp] theorem serveRounds_claims (f n : Nat) (told : List (BitVec 12)) : (serveRounds f w n told).SameClaims w := by
  induction f generalizing w n told with
  | zero => exact ⟨rfl, rfl, rfl⟩
  | succ f ih => simp [serveRounds, ih]

@[simp] theorem Wing.commandPoint_claims : w.commandPoint.SameClaims w := by simp [Wing.commandPoint]

@[simp] theorem Wing.command_claims (ring : BitVec 12) (op : Byte) (a : CmdArgs) : (w.command ring op a).SameClaims w := by
  unfold Wing.command
  split
  · dsimp only
    split
    next v hv => simpa using Wing.claims_of_turnFor_take hv
    next => simp
    next => exact ⟨rfl, rfl, rfl⟩
  · exact ⟨rfl, rfl, rfl⟩

@[simp] theorem Wing.descReturn_claims (s : BitVec 12) (pos : Word) (rsp : Option (BitVec 512)) :
    (w.descReturn s pos rsp).SameClaims w := by
  unfold Wing.descReturn
  dsimp only
  (repeat' split) <;> simp

/-! ## Admission -/

@[simp] theorem tryStaged_claims (os : List Obs) (stuck : List Word) (n : Nat) : (tryStaged os stuck n w).1.SameClaims w := by
  induction os generalizing stuck n w with
  | nil => exact ⟨rfl, rfl, rfl⟩
  | cons o os ih =>
    unfold tryStaged
    split
    · exact ⟨rfl, rfl, rfl⟩
    · split
      · exact ih ..
      · split
        next v hv => simpa [ih] using Wing.claims_of_attempt_gone hv
        next => simp [ih]
        next => simp

@[simp] theorem Wing.serveStaged_claims (s : BitVec 12) : (w.serveStaged s).1.SameClaims w := by simp [Wing.serveStaged]

@[simp] theorem Wing.serveSlice0_claims (n : Nat) : (Wing.serveSlice0 n w).SameClaims w := by
  induction n generalizing w with
  | zero => exact ⟨rfl, rfl, rfl⟩
  | succ n ih => simp [Wing.serveSlice0, ih]

@[simp] theorem serveTurns_claims (ss : List (BitVec 12)) (any : Bool) : (serveTurns ss w any).1.SameClaims w := by
  induction ss generalizing w any with
  | nil => exact ⟨rfl, rfl, rfl⟩
  | cons s ss ih => simp [serveTurns, ih]

@[simp] theorem serveStagedRounds_claims (n : Nat) : (serveStagedRounds n w).SameClaims w := by
  induction n generalizing w with
  | zero => exact ⟨rfl, rfl, rfl⟩
  | succ n ih => simp [serveStagedRounds, ih]

@[simp] theorem Wing.serveAlarms_claims : w.serveAlarms.SameClaims w := by simp [Wing.serveAlarms]

@[simp] theorem Wing.fetchStaged_claims : w.fetchStaged.SameClaims w := by simp [Wing.fetchStaged]

@[simp] theorem Wing.admitStaged_claims : w.admitStaged.SameClaims w := by simp [Wing.admitStaged]

@[simp] theorem Wing.admitKey_claims (key : Word) : (w.admitKey key).SameClaims w := by simp [Wing.admitKey]

@[simp] theorem Wing.issueReturns_claims (s : BitVec 12) (fuel room : Nat) : (Wing.issueReturns s fuel room w).SameClaims w := by
  induction fuel generalizing room w with
  | zero => exact ⟨rfl, rfl, rfl⟩
  | succ n ih => simp [Wing.issueReturns, ih]

@[simp] theorem Wing.returnReads_claims : w.returnReads.SameClaims w := by simp [Wing.returnReads]

@[simp] theorem Wing.spillReturn_claims (s : BitVec 12) (rsp : Option (BitVec 512)) : (w.spillReturn s rsp).SameClaims w := by
  simp [Wing.spillReturn]

@[simp] theorem Wing.finishCmds_claims (causes : List FetchCause) (result : Byte) (rep : Report) :
    (w.finishCmds causes result rep).SameClaims w := by
  refine Wing.sameClaims_foldl _ _ _ fun v c => ?_
  split
  · split <;> simp
  · exact ⟨rfl, rfl, rfl⟩

@[simp] theorem Wing.tryInstall_claims (i : Image) : (w.tryInstall i).1.SameClaims w := by
  unfold Wing.tryInstall
  split
  · simp
  · split
    · simp
    · split
      next v hv => simpa using Wing.claims_of_install? hv
      next => simp

@[simp] theorem Wing.takeImage_claims (i : Image) : (w.takeImage i).SameClaims w := by simp [Wing.takeImage]

@[simp] theorem retryImages_claims (is : List Image) : (retryImages is w).SameClaims w := by
  induction is generalizing w with
  | nil => exact ⟨rfl, rfl, rfl⟩
  | cons i is ih => simp [retryImages, ih]

@[simp] theorem Wing.retryInstalls_claims : w.retryInstalls.SameClaims w := by simp [Wing.retryInstalls]

@[simp] theorem Wing.installAt_claims (n : Nat) (c : Ctx) : (w.installAt n c).SameClaims w := by
  unfold Wing.installAt
  split <;> simp

@[simp] theorem Wing.updateRoute_claims (i : Nat) : (w.updateRoute i).SameClaims w := by simp [Wing.updateRoute]

@[simp] theorem Wing.updateRoutes_claims : w.updateRoutes.SameClaims w := by simp [Wing.updateRoutes]

/-! ## Records of the acceptance and deferred groups -/

@[simp] theorem Wing.correctSeq_claims (r : ArriveRec) : (w.correctSeq r).SameClaims w := by
  unfold Wing.correctSeq
  dsimp only
  (repeat' split) <;> simp

@[simp] theorem Wing.settleSeq_claims (r : ArriveRec) (strict : Bool) : (w.settleSeq r strict).SameClaims w := by
  simp [Wing.settleSeq]

theorem Wing.claims_of_applyArrive {w v : Wing} {t : Tick} {r : ArriveRec} (h : w.applyArrive t r = some v) : v.SameClaims w := by
  unfold Wing.applyArrive at h
  dsimp only at h
  split at h
  · cases h
    simp
  · split at h
    · cases h
    · split at h
      · cases h
        split <;> simp
      · split at h
        · cases h
          simp
        · cases h
          simp

@[simp] theorem Wing.applyInstall_claims (t : Tick) (r : InstallRec) : (w.applyInstall t r).1.SameClaims w := by
  unfold Wing.applyInstall
  (repeat' split) <;> simp

@[simp] theorem Wing.setWord_claims (k : Nat) (v : Word) : (w.setWord k v).SameClaims w := by
  unfold Wing.setWord
  (repeat' split) <;> simp

@[simp] theorem Wing.applyRegw_claims (t : Tick) (r : RegwRec) : (w.applyRegw t r).SameClaims w := by simp [Wing.applyRegw]

@[simp] theorem Wing.applyCommand_claims (t : Tick) (c : CmdRec) (x : CmdExtRec) (op2 : DWord) :
    (w.applyCommand t c x op2).SameClaims w := by
  simp [Wing.applyCommand]

@[simp] theorem Wing.closeCommand_claims (t : Tick) (c : CmdRec) (x : CmdExtRec) : (w.closeCommand t c x).SameClaims w := by
  unfold Wing.closeCommand
  dsimp only
  (repeat' split) <;> simp

@[simp] theorem Wing.commandDone_claims (t : Tick) (c : CmdRec) (x : CmdExtRec) (op2 : DWord) :
    (w.commandDone t c x op2).SameClaims w := by
  simp [Wing.commandDone]

@[simp] theorem Wing.applyCmdExt_claims (t : Tick) (x : CmdExtRec) : (w.applyCmdExt t x).SameClaims w := by
  unfold Wing.applyCmdExt
  (repeat' split) <;> simp

@[simp] theorem Wing.applyFinishRec_claims (t : Tick) (f : FinishRec) : (w.applyFinishRec t f).SameClaims w := by
  simp [Wing.applyFinishRec]

@[simp] theorem Wing.applyParam_claims (t : Tick) (p : ParamRec) : (w.applyParam t p).SameClaims w := by
  unfold Wing.applyParam
  split <;> simp

@[simp] theorem Wing.applyLetter_claims (t : Tick) (r : LetterRec) : (w.applyLetter t r).SameClaims w := by simp [Wing.applyLetter]

@[simp] theorem Wing.applyCoreState_claims (t : Tick) (r : CoreStateRec) : (w.applyCoreState t r).SameClaims w := by
  simp [Wing.applyCoreState]

@[simp] theorem Wing.blocksDone_claims (d : Tick) : (w.blocksDone d).SameClaims w := by simp [Wing.blocksDone]

@[simp] theorem Wing.applyDone_claims (d : Tick) : (w.applyDone d).SameClaims w := by simp [Wing.applyDone]

@[simp] theorem Wing.applyDef_claims (t : Tick) (r : Rec) : (w.applyDef t r).SameClaims w := by
  unfold Wing.applyDef
  split <;> simp

@[simp] theorem Wing.applyRec_claims (t : Tick) (r : Rec) : (w.applyRec t r).1.SameClaims w := by
  unfold Wing.applyRec
  split
  case h_2 =>
    split
    next v hv => exact Wing.claims_of_applyArrive hv
    next => simp
  all_goals simp

/-! ## Porch domains -/

@[simp] theorem Wing.domainOff_claims (k : BitVec 5) : (w.domainOff k).SameClaims w := ⟨rfl, rfl, rfl⟩

@[simp] theorem Wing.noteOwnVotes_claims : w.noteOwnVotes.SameClaims w := by
  refine Wing.sameClaims_foldl _ _ _ fun v k => ?_
  split
  · exact ⟨rfl, rfl, rfl⟩
  · split <;> exact ⟨rfl, rfl, rfl⟩

@[simp] theorem Wing.domainOn_claims (k : BitVec 5) (pdVote : Byte) : (w.domainOn k pdVote).SameClaims w := by
  unfold Wing.domainOn
  split <;> simp

end

end Sys2Proof.Machine
end

section
/-! Frames of the claims, continued: the vestibule, the passage, the porch side, the hearth's own operations, the cellar, the
integrity checks and the rings. -/

namespace Sys2Proof.Machine

section

variable (w : Wing)

/-! ## Writes, sources and alarms -/

@[simp] theorem Wing.doNative_claims (a : AptWrite) : (w.doNative a).SameClaims w := by
  unfold Wing.doNative
  split <;> simp

@[simp] theorem Wing.doMsi_claims (a : AptWrite) : (w.doMsi a).SameClaims w := by
  unfold Wing.doMsi
  split <;> simp

@[simp] theorem Wing.doCmdDoorbell_claims (a : AptWrite) : (w.doCmdDoorbell a).SameClaims w := by
  unfold Wing.doCmdDoorbell
  split <;> simp

@[simp] theorem Wing.doLetter_claims (a : AptWrite) : (w.doLetter a).SameClaims w := by
  unfold Wing.doLetter
  split <;> simp

@[simp] theorem Wing.handleWrite_claims (a : AptWrite) : (w.handleWrite a).SameClaims w := by
  unfold Wing.handleWrite
  split <;> simp

@[simp] theorem Wing.settleReports_claims : w.settleReports.SameClaims w := by simp [Wing.settleReports]

@[simp] theorem Wing.drain_claims (n : Nat) : (Wing.drain n w).SameClaims w := by
  induction n generalizing w with
  | zero => exact ⟨rfl, rfl, rfl⟩
  | succ n ih =>
    unfold Wing.drain
    split
    · exact ⟨rfl, rfl, rfl⟩
    · split <;> simp [ih]

@[simp] theorem Wing.drainAll_claims : w.drainAll.SameClaims w := by simp [Wing.drainAll]

@[simp] theorem Wing.takeWrite_claims (a : AptWrite) (act : Wing → AptWrite → Wing) (h : ∀ v, (act v a).SameClaims v) :
    (w.takeWrite a act).SameClaims w := by
  simp [Wing.takeWrite, h]

@[simp] theorem Wing.byRange_claims (a : AptWrite) (r : AptRange) (act : Wing → AptWrite → Wing) (h : ∀ v, (act v a).SameClaims v) :
    (w.byRange a r act).SameClaims w := by
  simp [Wing.byRange, h]

@[simp] theorem Wing.wiredChange_claims (i : Nat) (level : Bool) : (w.wiredChange i level).SameClaims w := by
  unfold Wing.wiredChange
  split <;> simp

@[simp] theorem Wing.raised_claims (p : Byte) (i : Nat) (cur : BitVec 12) : (w.raised p i cur).SameClaims w := by
  unfold Wing.raised
  split <;> simp

@[simp] theorem Wing.alarmAtWake_claims : w.alarmAtWake.SameClaims w := by
  unfold Wing.alarmAtWake
  (repeat' split) <;> simp

/-! ## Resync -/

@[simp] theorem Wing.sampleCopies_claims : w.sampleCopies.SameClaims w := by
  unfold Wing.sampleCopies
  split <;> simp

@[simp] theorem Wing.copiesSent_claims (k : Nat) (f : Tick) : (w.copiesSent k f).SameClaims w := by
  unfold Wing.copiesSent
  split <;> simp

@[simp] theorem Wing.serveFetch_claims (r : FetchRec) : (w.serveFetch r).SameClaims w := by
  unfold Wing.serveFetch
  dsimp only
  (repeat' split) <;> simp

@[simp] theorem Wing.loadRegion_claims (a : Nat) (d : DWord) : (w.loadRegion a d).SameClaims w := by simp [Wing.loadRegion]

@[simp] theorem Wing.loadSpace2_claims (p : Nat) (d : DWord) (f : Tick) : (w.loadSpace2 p d f).SameClaims w := by
  simp [Wing.loadSpace2]

@[simp] theorem Wing.loadCopy_claims (f : Tick) (r : CopyRec) : (w.loadCopy f r).SameClaims w := by
  unfold Wing.loadCopy
  split <;> simp

@[simp] theorem Wing.takeCopy_claims (f : Tick) (r : CopyRec) : (w.takeCopy f r).SameClaims w := by simp [Wing.takeCopy]

@[simp] theorem Wing.keepCopied_claims (old new : Wing) : (Wing.keepCopied old new).SameClaims new := by simp [Wing.keepCopied]

@[simp] theorem Wing.withPartial_claims (keys : List Word) (f : Wing → Wing × Bool) (h : ∀ v, (f v).1.SameClaims v) :
    (w.withPartial keys f).1.SameClaims w := by
  unfold Wing.withPartial
  split
  · exact h w
  · split
    · exact h w
    · simp [h]

@[simp] theorem Wing.applyJoining_claims (t : Tick) (r : Rec) : (w.applyJoining t r).1.SameClaims w := by
  unfold Wing.applyJoining
  dsimp only
  split
  · simp
  · split <;> simp

/-! ## The passage as its frames are applied -/

@[simp] theorem Wing.failHeldWrites_claims : w.failHeldWrites.SameClaims w := by
  unfold Wing.failHeldWrites
  split <;> simp

@[simp] theorem Wing.enterJoining_claims : w.enterJoining.SameClaims w := by simp [Wing.enterJoining]

@[simp] theorem Wing.demote_claims : w.demote.SameClaims w := by simp [Wing.demote]

@[simp] theorem Wing.withdrawNow_claims : w.withdrawNow.SameClaims w := by simp [Wing.withdrawNow]

@[simp] theorem Wing.giveWay_claims (cfgWord : Bool) : (w.giveWay cfgWord).SameClaims w := by simp [Wing.giveWay]

@[simp] theorem Wing.registerSources_claims (due : List Nat) (t : Tick) : (w.registerSources due t).SameClaims w := by
  simp [Wing.registerSources]

@[simp] theorem Wing.resample_claims (lv : SMap Bool) (t : Tick) : (w.resample lv t).SameClaims w := by simp [Wing.resample]

@[simp] theorem Wing.settleRanking_claims (r : Ranking) (t : Tick) : (w.settleRanking r t).SameClaims w := by
  simp [Wing.settleRanking]

theorem Wing.claims_of_takeRec {w v : Wing} {r : Rec} {t : Tick} (h : w.takeRec r = some (t, v)) : v.SameClaims w := by
  unfold Wing.takeRec at h
  split at h
  · split at h
    · cases h; exact ⟨rfl, rfl, rfl⟩
    · cases h
  · cases h

@[simp] theorem Wing.applyAs_claims (t : Tick) (r : Rec) : (w.applyAs t r).1.SameClaims w := by simp [Wing.applyAs]

@[simp] theorem Wing.turnOf_claims (t : Tick) (r : Rec) : (w.turnOf t r).SameClaims w := by simp [Wing.turnOf]

@[simp] theorem Wing.drainHold_claims (n : Nat) : (Wing.drainHold n w).SameClaims w := by
  induction n generalizing w with
  | zero => exact ⟨rfl, rfl, rfl⟩
  | succ n ih =>
    unfold Wing.drainHold
    split
    · exact ⟨rfl, rfl, rfl⟩
    · simp [ih]

@[simp] theorem Wing.resumeHold_claims : w.resumeHold.SameClaims w := by simp [Wing.resumeHold]

@[simp] theorem Wing.fromOldWing_claims (r : Rec) : (w.fromOldWing r).SameClaims w := by
  unfold Wing.fromOldWing
  split <;> simp

@[simp] theorem Wing.recordStep_claims (r : Rec) : (w.recordStep r).SameClaims w := by
  unfold Wing.recordStep
  split
  next t v hv => simp [Wing.claims_of_takeRec hv]
  next => exact ⟨rfl, rfl, rfl⟩

@[simp] theorem Wing.settleMark_claims : w.settleMark.SameClaims w := by simp [Wing.settleMark]

@[simp] theorem Wing.copyStep_claims (r : CopyRec) : (w.copyStep r).SameClaims w := by
  unfold Wing.copyStep
  split
  next t v hv => simp [Wing.claims_of_takeRec hv]
  next => exact ⟨rfl, rfl, rfl⟩

@[simp] theorem Wing.fetchStep_claims (r : FetchRec) : (w.fetchStep r).SameClaims w := by
  unfold Wing.fetchStep
  split
  next t v hv => simp [Wing.claims_of_takeRec hv]
  next => exact ⟨rfl, rfl, rfl⟩

@[simp] theorem Wing.takeBacklog_claims (f : ArrFill) : (w.takeBacklog f).SameClaims w := by
  unfold Wing.takeBacklog
  split <;> simp

@[simp] theorem Wing.arrivalPart_claims (r : ArrivalRec) : (w.arrivalPart r).SameClaims w := by
  unfold Wing.arrivalPart
  dsimp only
  (repeat' split) <;> simp

@[simp] theorem Wing.arrivalStep_claims (r : ArrivalRec) : (w.arrivalStep r).SameClaims w := by
  unfold Wing.arrivalStep
  split
  next t v hv => simp [Wing.claims_of_takeRec hv]
  next => exact ⟨rfl, rfl, rfl⟩

@[simp] theorem Wing.refillReload_claims (key : Word) : (w.refillReload key).SameClaims w := by
  unfold Wing.refillReload
  (repeat' split) <;> simp

@[simp] theorem Wing.fillStep_claims (r : FillRec) : (w.fillStep r).SameClaims w := by
  unfold Wing.fillStep
  split
  next t v hv => simp [Wing.claims_of_takeRec hv]
  next => exact ⟨rfl, rfl, rfl⟩

@[simp] theorem Wing.registerRaw_claims (src pch : List Nat) (a : Wing × SMap Bool) (e : Tick × RawEvent) :
    (Wing.registerRaw src pch a e).1.SameClaims a.1 := by
  unfold Wing.registerRaw
  split <;> simp

@[simp] theorem Wing.countBack_claims (o n : Nat) : (w.countBack o n).SameClaims w := ⟨rfl, rfl, rfl⟩

@[simp] theorem Wing.dropUnderOld_claims (t : Tick) : (w.dropUnderOld t).SameClaims w := by simp [Wing.dropUnderOld]

@[simp] theorem Wing.rerouteAlarms_claims (t : Tick) : (w.rerouteAlarms t).SameClaims w := ⟨rfl, rfl, rfl⟩

@[simp] theorem Wing.rederive_claims (t : Tick) : (w.rederive t).SameClaims w := by simp [Wing.rederive]

@[simp] theorem Wing.compareDigest_claims (f : Tick) (r : CloseRec) (made before : Word) :
    (w.compareDigest f r made before).SameClaims w := by
  unfold Wing.compareDigest
  split <;> simp

@[simp] theorem Wing.checkDigest_claims (f : Tick) (before : Word) : (w.checkDigest f before).SameClaims w := by
  unfold Wing.checkDigest
  split <;> simp

@[simp] theorem Wing.rankShadow_claims (t : Tick) : (w.rankShadow t).SameClaims w := by simp [Wing.rankShadow]

@[simp] theorem Wing.compareRef_claims : w.compareRef.SameClaims w := by simp [Wing.compareRef]

@[simp] theorem Wing.frameApplied_claims : w.frameApplied.SameClaims w := by
  unfold Wing.frameApplied
  (repeat' split) <;> simp

@[simp] theorem Wing.compareSig_claims (frame : Tick) (r : CloseRec) : (w.compareSig frame r).SameClaims w := by
  simp [Wing.compareSig]

@[simp] theorem Wing.compareFirst_claims (frame : Tick) (r : CloseRec) : (w.compareFirst frame r).SameClaims w := by
  simp [Wing.compareFirst]

/-! ## Beats of the porches -/

@[simp] theorem Wing.settleOffers_claims (p : Byte) (ok : Nat → Bool) : (w.settleOffers p ok).SameClaims w := by
  simp [Wing.settleOffers]

@[simp] theorem Wing.checkHeld_claims (p : Byte) (held : List Word) : (w.checkHeld p held).SameClaims w := by simp [Wing.checkHeld]

@[simp] theorem Wing.acceptRsp_claims (p : Byte) (bits : BitVec 4) (held : List Word) : (w.acceptRsp p bits held).SameClaims w := by
  simp [Wing.acceptRsp]

@[simp] theorem Wing.acceptLate_claims (p : Byte) : (w.acceptLate p).SameClaims w := by simp [Wing.acceptLate]

@[simp] theorem Wing.applyEntry_claims (p : Byte) (e : Entry) (t : Tick) : (w.applyEntry p e t).SameClaims w := by
  unfold Wing.applyEntry
  split <;> simp

theorem Wing.claims_of_replayEntry {w v : Wing} {p : Byte} {e : Entry} (h : w.replayEntry p e = some v) : v.SameClaims w := by
  unfold Wing.replayEntry at h
  split at h
  · cases h; simp
  · split at h
    · cases h; simp
    · split at h
      · cases h; simp
      · cases h

@[simp] theorem Wing.replayList_claims (p : Byte) (es : List Entry) : (Wing.replayList p es w).1.SameClaims w := by
  induction es generalizing w with
  | nil => exact ⟨rfl, rfl, rfl⟩
  | cons e es ih =>
    unfold Wing.replayList
    split
    next v hv => exact (ih v).trans (Wing.claims_of_replayEntry hv)
    next => exact ⟨rfl, rfl, rfl⟩

@[simp] theorem Wing.applySlotReport_claims (p : Byte) : (w.applySlotReport p).SameClaims w := by simp [Wing.applySlotReport]

@[simp] theorem Wing.applyReplay_claims (p : Byte) : (w.applyReplay p).SameClaims w := by simp [Wing.applyReplay]

@[simp] theorem Wing.applyReplays_claims : w.applyReplays.SameClaims w := by simp [Wing.applyReplays]

@[simp] theorem Wing.applyDeferred_claims (p : Byte) (e : Entry) : (w.applyDeferred p e).SameClaims w := by
  unfold Wing.applyDeferred
  split <;> simp

@[simp] theorem Wing.applyAllDeferred_claims : w.applyAllDeferred.SameClaims w := by simp [Wing.applyAllDeferred]

@[simp] theorem Wing.applySlotReports_claims : w.applySlotReports.SameClaims w := by simp [Wing.applySlotReports]

/-! ## The hearth's own operations -/

@[simp] theorem Wing.writeAnchor_claims : w.writeAnchor.SameClaims w := by simp [Wing.writeAnchor]

@[simp] theorem Wing.registerAlarms_claims : w.registerAlarms.SameClaims w := by simp [Wing.registerAlarms]

@[simp] theorem Wing.setCalendar_claims (val : BitVec 63) : (w.setCalendar val).SameClaims w := by simp [Wing.setCalendar]

@[simp] theorem Wing.askPair_claims : w.askPair.SameClaims w := by simp [Wing.askPair]

@[simp] theorem Wing.portLive_claims (f : Wing → Wing) (h : ∀ v, (f v).SameClaims v) :
    (w.portLive f).SameClaims w := by
  unfold Wing.portLive
  split <;> simp [h]

/-! ## Levels, votes and acknowledgements -/

@[simp] theorem Wing.switchLevel_claims (l : Level) (vok : Bool) : (w.switchLevel l vok).SameClaims w := by simp [Wing.switchLevel]

@[simp] theorem Wing.levelChange_claims (vok : Bool) : (w.levelChange vok).SameClaims w := by
  unfold Wing.levelChange
  split <;> simp

@[simp] theorem Wing.clearPair_claims : w.clearPair.SameClaims w := ⟨rfl, rfl, rfl⟩

@[simp] theorem Wing.ackDeadline_claims : w.ackDeadline.SameClaims w := by simp [Wing.ackDeadline]

/-! ## Reads and writes of the cellar -/

@[simp] theorem Wing.readFails_claims (f : Fetch) : (w.readFails f).SameClaims w := by simp [Wing.readFails]

@[simp] theorem Wing.standbyFails_claims (f : Fetch) : (w.standbyFails f).SameClaims w := by simp [Wing.standbyFails]

@[simp] theorem Wing.reportsFor_claims (key : Word) : (w.reportsFor key).SameClaims w := by
  refine Wing.sameClaims_foldl _ _ _ fun v e => ?_
  split <;> simp

@[simp] theorem Wing.finishReload_claims (r : Reload) (c : Ctx) (causes : List FetchCause) :
    (w.finishReload r c causes).SameClaims w := by
  simp [Wing.finishReload]

@[simp] theorem Wing.imageForActive_claims (f : Fetch) (c : Ctx) : (w.imageForActive f c).SameClaims w := by
  unfold Wing.imageForActive
  split <;> simp

@[simp] theorem Wing.settleReloads_claims : w.settleReloads.SameClaims w := by
  refine Wing.sameClaims_foldl _ _ _ fun v i => ?_
  dsimp only
  split
  · split <;> simp
  · exact ⟨rfl, rfl, rfl⟩

@[simp] theorem Wing.imageForOther_claims (f : Fetch) (c : Ctx) : (w.imageForOther f c).SameClaims w := by
  unfold Wing.imageForOther
  split <;> simp

@[simp] theorem Wing.cellarReturn_claims (key : Word) (rsp : Option (BitVec 256)) : (w.cellarReturn key rsp).SameClaims w := by
  unfold Wing.cellarReturn
  dsimp only
  (repeat' split) <;> simp

@[simp] theorem Wing.finishQuarResets_claims (key : Word) : (w.finishQuarResets key).SameClaims w := by simp [Wing.finishQuarResets]

@[simp] theorem Wing.writeInitials_claims : w.writeInitials.SameClaims w := by simp [Wing.writeInitials]

@[simp] theorem Wing.writeAccepted_claims (key : Word) (ok : Bool) : (w.writeAccepted key ok).SameClaims w := by
  unfold Wing.writeAccepted
  split <;> simp

/-! ## Upsets, wear and moves -/

@[simp] theorem Wing.flipBits_claims (k : Nat) (m : Word) : (w.flipBits k m).SameClaims w := ⟨rfl, rfl, rfl⟩

@[simp] theorem Wing.flipWord_claims (k : Nat) (m : Word) : (w.flipWord k m).SameClaims w := by simp [Wing.flipWord]

@[simp] theorem Wing.wearBank_claims (p : Nat) : (w.wearBank p).SameClaims w := by simp [Wing.wearBank]

@[simp] theorem Wing.wearSlice_claims (p : Nat) : (w.wearSlice p).SameClaims w := by simp [Wing.wearSlice]

@[simp] theorem Wing.failedNoSpare_claims (u : Nat) : (w.failedNoSpare u).SameClaims w := by simp [Wing.failedNoSpare]

@[simp] theorem Wing.settleSpares_claims : w.settleSpares.SameClaims w := by simp [Wing.settleSpares]

@[simp] theorem Wing.fenceAndReload_claims (n : Nat) (s : Slot) (recheck pinned : Bool) :
    (w.fenceAndReload n s recheck pinned).SameClaims w := by
  simp [Wing.fenceAndReload]

@[simp] theorem Wing.contextLost_claims (n : Nat) : (w.contextLost n).SameClaims w := by
  unfold Wing.contextLost
  split <;> simp

@[simp] theorem Wing.directoryLost_claims (n : Nat) : (w.directoryLost n).SameClaims w := by
  unfold Wing.directoryLost
  (repeat' split) <;> simp

@[simp] theorem Wing.obsLost_claims (o : Obs) : (w.obsLost o).SameClaims w := by simp [Wing.obsLost]

@[simp] theorem Wing.writeLost_claims (j : Nat) (a : AptWrite) : (w.writeLost j a).SameClaims w := by simp [Wing.writeLost]

@[simp] theorem Wing.arrivalLost_claims (i : Nat) : (w.arrivalLost i).SameClaims w := by
  unfold Wing.arrivalLost
  dsimp only
  (repeat' split) <;> simp

@[simp] theorem Wing.filterLost_claims (i : Nat) : (w.filterLost i).SameClaims w := by
  unfold Wing.filterLost
  (repeat' split) <;> simp

@[simp] theorem Wing.configLost_claims (a : Nat) : (w.configLost a).SameClaims w := by simp [Wing.configLost]

@[simp] theorem Wing.writeAgain_claims (i : Nat) : (w.writeAgain i).SameClaims w := by
  unfold Wing.writeAgain
  split <;> simp

@[simp] theorem Wing.unreadable_claims (f : EccFind) : (w.unreadable f).SameClaims w := by
  unfold Wing.unreadable
  split <;> simp

@[simp] theorem Wing.eccRead_claims (f : EccFind) : (w.eccRead f).SameClaims w := by
  unfold Wing.eccRead
  (repeat' split) <;> simp

@[simp] theorem Wing.eccReads_claims (l : List EccFind) : (w.eccReads l).SameClaims w := by simp [Wing.eccReads]

@[simp] theorem Wing.passEnd_claims : w.passEnd.SameClaims w := by simp [Wing.passEnd]

@[simp] theorem Wing.wearRestart_claims : w.wearRestart.SameClaims w := by simp [Wing.wearRestart]

@[simp] theorem Wing.moveBank_claims (a s : Nat) : (w.moveBank a s).SameClaims w := by
  unfold Wing.moveBank
  split <;> simp

@[simp] theorem Wing.moveSlice_claims (a s : Nat) : (w.moveSlice a s).SameClaims w := by
  unfold Wing.moveSlice
  split <;> simp

@[simp] theorem Wing.startMove_claims (slice : Bool) (a s : Nat) : (w.startMove slice a s).SameClaims w := by simp [Wing.startMove]

@[simp] theorem Wing.bankMove_claims : w.bankMove.SameClaims w := by
  unfold Wing.bankMove
  (repeat' split) <;> simp

@[simp] theorem Wing.sliceMove_claims : w.sliceMove.SameClaims w := by
  unfold Wing.sliceMove
  (repeat' split) <;> simp

@[simp] theorem Wing.endMove_claims (m : UnitMove) : (w.endMove m).SameClaims w := by simp [Wing.endMove]

@[simp] theorem Wing.moveStep_claims : w.moveStep.SameClaims w := by
  unfold Wing.moveStep
  (repeat' split) <;> simp

@[simp] theorem Wing.finishMove_claims : w.finishMove.SameClaims w := by
  unfold Wing.finishMove
  split <;> simp

@[simp] theorem Wing.upsetWord_claims (f : Nat × Word) : (w.upsetWord f).SameClaims w := by simp [Wing.upsetWord]

/-! ## Frames, blocks and lanes -/

@[simp] theorem Wing.sendFrame_claims (f : Frame) : (w.sendFrame f).SameClaims w := ⟨rfl, rfl, rfl⟩

@[simp] theorem Wing.loseFailed_claims (t : Tick) : (w.loseFailed t).SameClaims w := ⟨rfl, rfl, rfl⟩

@[simp] theorem Wing.laneFails_claims (l : Nat) (own : Bool) : (w.laneFails l own).SameClaims w := by simp [Wing.laneFails]

@[simp] theorem Wing.loseBlock_claims (l : Nat) (place : Option (Tick × Nat × Nat)) : (w.loseBlock l place).SameClaims w := by
  unfold Wing.loseBlock
  split <;> simp

@[simp] theorem Wing.followMap_claims (t : Tick) (m : BitVec 4) : (w.followMap t m).SameClaims w := by simp [Wing.followMap]

@[simp] theorem Wing.takeRxbad_claims (m : BitVec 4) : (w.takeRxbad m).SameClaims w := by simp [Wing.takeRxbad]

@[simp] theorem Wing.takeAck_claims (h : BlockHdr) : (w.takeAck h).SameClaims w := by simp [Wing.takeAck]

@[simp] theorem Wing.takeNak_claims (h : BlockHdr) : (w.takeNak h).SameClaims w := by simp [Wing.takeNak]

@[simp] theorem Wing.dropLane_claims (t : Tick) (l : Nat) : (w.dropLane t l).SameClaims w := by simp [Wing.dropLane]

@[simp] theorem Wing.enterBlock_claims (t : Tick) (hdr : Option BlockHdr) (l b : Nat) (d : BitVec 1792) (rs : List Rec) :
    (w.enterBlock t hdr l b d rs).SameClaims w := by
  unfold Wing.enterBlock
  dsimp only
  (repeat' split) <;> simp

@[simp] theorem Wing.training_claims (l : Nat) (ok clean : Bool) (h : BlockHdr) : (w.training l ok clean h).SameClaims w := by
  simp [Wing.training]

@[simp] theorem Wing.takeHeader_claims (h : BlockHdr) : (w.takeHeader h).SameClaims w := by simp [Wing.takeHeader]

@[simp] theorem Wing.decoded_claims (l : Nat) (ok : Bool) (h : BlockHdr) (place : Option (Tick × Nat × Nat)) (d : BitVec 1792)
    (n : Nat) : (w.decoded l ok h place d n).SameClaims w := by
  unfold Wing.decoded
  dsimp only
  (repeat' split) <;> simp

@[simp] theorem Wing.synced_claims (l : Nat) (x : BitVec 2048) : (w.synced l x).SameClaims w := by
  unfold Wing.synced
  split <;> simp

@[simp] theorem Wing.takeBlock_claims (l : Nat) (x : BitVec 2048) (late : Bool) : (w.takeBlock l x late).SameClaims w := by
  simp [Wing.takeBlock]

@[simp] theorem Wing.replay_claims : w.replay.SameClaims w := by
  unfold Wing.replay
  (repeat' split) <;> simp

/-! ## Reads at the register port -/

@[simp] theorem Wing.portError_claims (reason : BitVec 4) (req : Byte) (path : BitVec 2) (strb : Byte) (addr : BitVec 24) :
    (w.portError reason req path strb addr).SameClaims w := ⟨rfl, rfl, rfl⟩

@[simp] theorem Wing.clearWindow_claims (o : Nat) (m : Word) : (w.clearWindow o m).SameClaims w := by simp [Wing.clearWindow]

@[simp] theorem Wing.clearHearth_claims (m : Word) : (w.clearHearth m).SameClaims w := by simp [Wing.clearHearth]

@[simp] theorem Wing.clearRead_claims (k : Nat) (m : Word) : (w.clearRead k m).SameClaims w := by simp [Wing.clearRead]

@[simp] theorem Wing.doRead_claims (a : RegAccess) : (w.doRead a).SameClaims w := by
  unfold Wing.doRead
  split <;> simp

/-! ## Creation, quiescing and draining -/

@[simp] theorem Wing.bootFails_claims (code : Byte) : (w.bootFails code).SameClaims w := ⟨rfl, rfl, rfl⟩

@[simp] theorem Wing.judgeBlock_claims (s : BitVec 12) (j : Job) (b : BitVec 1024) : (w.judgeBlock s j b).2.SameClaims w := by
  unfold Wing.judgeBlock
  split <;> simp

@[simp] theorem Wing.bootBlock_claims (j : Job) (rsp : Option (BitVec 1024)) : (w.bootBlock j rsp).SameClaims w := by
  unfold Wing.bootBlock
  split <;> simp

@[simp] theorem Wing.commandBlock_claims (s : BitVec 12) (j : Job) (rsp : Option (BitVec 1024)) :
    (w.commandBlock s j rsp).SameClaims w := by
  unfold Wing.commandBlock
  split <;> simp

@[simp] theorem Wing.blockRead_claims (s : BitVec 12) (j : Job) (rsp : Option (BitVec 1024)) :
    (w.blockRead s j rsp).SameClaims w := by
  simp [Wing.blockRead]

@[simp] theorem Wing.endBlockRead_claims (x : BitVec 12 × Bool × Bool) : (w.endBlockRead x).SameClaims w := ⟨rfl, rfl, rfl⟩

@[simp] theorem Wing.halfRead_claims (x : BitVec 12 × Bool × Bool) (s : BitVec 12) (j : Job) (half : Bool)
    (rsp : Option (BitVec 512)) : (w.halfRead x s j half rsp).SameClaims w := by
  unfold Wing.halfRead
  split <;> simp

@[simp] theorem Wing.paramRead_claims (s : BitVec 12) (half : Bool) (rsp : Option (BitVec 512)) :
    (w.paramRead s half rsp).SameClaims w := by
  unfold Wing.paramRead
  split <;> simp

@[simp] theorem Wing.endQuiesce_claims (s : BitVec 12) (c : Bool) : (w.endQuiesce s c).SameClaims w := by
  unfold Wing.endQuiesce
  split <;> simp

@[simp] theorem Wing.drainTaken_claims (p : Nat) : (w.drainTaken p).SameClaims w := by simp [Wing.drainTaken]

@[simp] theorem Wing.drainDone_claims (p : Nat) (pasid : BitVec 20) (gen : Byte) : (w.drainDone p pasid gen).SameClaims w := by
  simp [Wing.drainDone]

/-! ## Event rings -/

@[simp] theorem Wing.writeHeader_claims (n : BitVec 12) : (w.writeHeader n).SameClaims w := by
  unfold Wing.writeHeader
  dsimp only
  (repeat' split) <;> simp

@[simp] theorem Wing.writeHeaders_claims : w.writeHeaders.SameClaims w := by simp [Wing.writeHeaders]

@[simp] theorem Wing.formHeaders_claims : w.formHeaders.SameClaims w := by simp [Wing.formHeaders]

@[simp] theorem Wing.writeBlock_claims (b : EvBlock) (rewrite : Bool) : (w.writeBlock b rewrite).SameClaims w := by
  simp [Wing.writeBlock]

@[simp] theorem Wing.writeBlocks_claims (old : Tick → Bool) (n : Nat) : (Wing.writeBlocks old n w).SameClaims w := by
  induction n generalizing w with
  | zero => exact ⟨rfl, rfl, rfl⟩
  | succ n ih =>
    unfold Wing.writeBlocks
    split
    · exact ⟨rfl, rfl, rfl⟩
    · split <;> simp [ih]

@[simp] theorem Wing.ringTurn_claims (old : Tick → Bool) : (w.ringTurn old).SameClaims w := by simp [Wing.ringTurn]

@[simp] theorem Wing.recordAccepted_claims (n : BitVec 12) (p : Word) : (w.recordAccepted n p).SameClaims w := by
  simp [Wing.recordAccepted]

end

end Sys2Proof.Machine
end

section
/-! Frames of the claims, continued: takeover, bring-up, the register port, the study, the levels and the tick boundary. -/

namespace Sys2Proof.Machine

section

variable (w : Wing)

/-! ## Takeover, recovery and handover -/

@[simp] theorem Wing.sendClaim_claims : w.sendClaim.SameClaims w := by simp [Wing.sendClaim]

@[simp] theorem Wing.endTurned_claims : w.endTurned.SameClaims w := by simp [Wing.endTurned]

@[simp] theorem Wing.loadPchCfg_claims : w.loadPchCfg.SameClaims w := by simp [Wing.loadPchCfg]

@[simp] theorem Wing.startReloads_claims : w.startReloads.SameClaims w := by simp [Wing.startReloads]

@[simp] theorem Wing.orphan_claims : w.orphan.SameClaims w := by simp [Wing.orphan]

@[simp] theorem Wing.applyKept_claims : w.applyKept.SameClaims w := by
  refine Wing.sameClaims_foldl _ _ _ fun v s => ?_
  dsimp only
  (repeat' split) <;> simp

@[simp] theorem Wing.restartCmd_claims (ring : BitVec 12) (u : UCmd) : (w.restartCmd ring u).SameClaims w := by
  simp [Wing.restartCmd]

@[simp] theorem Wing.restartCmds_claims : w.restartCmds.SameClaims w := by simp [Wing.restartCmds]

@[simp] theorem Wing.stepT1_claims : w.stepT1.SameClaims w := by simp [Wing.stepT1]

@[simp] theorem Wing.takeoverWrites_claims : w.takeoverWrites.SameClaims w := by simp [Wing.takeoverWrites]

@[simp] theorem Wing.resyncStart_claims (peerSuspect : Bool) : (w.resyncStart peerSuspect).SameClaims w := by
  simp [Wing.resyncStart]

@[simp] theorem Wing.joined_claims : w.joined.SameClaims w := by simp [Wing.joined]

@[simp] theorem Wing.resynced_claims : w.resynced.SameClaims w := ⟨rfl, rfl, rfl⟩

@[simp] theorem Wing.resyncDone_claims : w.resyncDone.SameClaims w := by simp [Wing.resyncDone]

/-! ## Bring-up and reset -/

@[simp] theorem Wing.timeLost_claims : w.timeLost.SameClaims w := by simp [Wing.timeLost]

@[simp] theorem Wing.rebuildTick_claims (e : Option Tick) : (w.rebuildTick e).2.SameClaims w := by
  unfold Wing.rebuildTick
  split <;> simp

@[simp] theorem Wing.start_claims (save : Option SaveArea) : (w.start save).SameClaims w := by simp [Wing.start]

@[simp] theorem Wing.rawSeen_claims : w.rawSeen.SameClaims w := by
  unfold Wing.rawSeen
  split <;> simp

@[simp] theorem Wing.placeBoot_claims (b : BitVec 1024) : (w.placeBoot b).SameClaims w := by simp [Wing.placeBoot]

@[simp] theorem Wing.startComplete_claims : w.startComplete.SameClaims w := by
  unfold Wing.startComplete
  split <;> simp

/-! ## What a tick opens with -/

@[simp] theorem Wing.sampleGroup_claims (g : Nat) : (w.sampleGroup g).SameClaims w := by simp [Wing.sampleGroup]

@[simp] theorem Wing.sampleCores_claims : w.sampleCores.SameClaims w := by simp [Wing.sampleCores]

@[simp] theorem Wing.resampleIdle_claims (due : List Nat) : (w.resampleIdle due).SameClaims w := by simp [Wing.resampleIdle]

@[simp] theorem Wing.sendInits_claims : w.sendInits.SameClaims w := by simp [Wing.sendInits]

/-! ## Writes at the register port -/

@[simp] theorem Wing.snapshot_claims : w.snapshot.SameClaims w := by simp [Wing.snapshot]

@[simp] theorem Wing.takeSnap_claims : w.takeSnap.SameClaims w := by simp [Wing.takeSnap]

@[simp] theorem Wing.snapCtrl_claims (x : Word) : (w.snapCtrl x).SameClaims w := by simp [Wing.snapCtrl]

@[simp] theorem Wing.writeLocal_claims (save : Option SaveArea) (h : Nat × Word × Word) :
    (w.writeLocal save h).SameClaims w := by
  simp [Wing.writeLocal]

@[simp] theorem Wing.applyHalf_claims (h : Nat × Word × Word) : (w.applyHalf h).SameClaims w := by simp [Wing.applyHalf]

@[simp] theorem Wing.dualWrite_claims (k : Nat) (v : Word) (req : Byte) : (w.dualWrite k v req).1.SameClaims w := by
  unfold Wing.dualWrite
  split <;> simp

@[simp] theorem Wing.storeHalves_claims (req : Byte) (hs : List (Nat × Word × Word)) : (w.storeHalves req hs).1.SameClaims w := by
  simp [Wing.storeHalves]

@[simp] theorem Wing.writeMirrored_claims (req : Byte) (hs : List (Nat × Word × Word)) :
    (w.writeMirrored req hs).1.SameClaims w := by
  unfold Wing.writeMirrored
  split <;> simp

@[simp] theorem Wing.applyCopy_claims (c : RegCopy) : (w.applyCopy c).SameClaims w := by
  unfold Wing.applyCopy
  dsimp only
  split
  · exact ⟨rfl, rfl, rfl⟩
  · split <;> simp

@[simp] theorem Wing.applyCopies_claims : w.applyCopies.SameClaims w := by simp [Wing.applyCopies]

@[simp] theorem Wing.doWrite_claims (a : RegAccess) : (w.doWrite a).SameClaims w := by
  unfold Wing.doWrite
  dsimp only
  (repeat' split) <;> simp

@[simp] theorem Wing.portDo_claims (write : Bool) (a : RegAccess) : (w.portDo write a).SameClaims w := by simp [Wing.portDo]

@[simp] theorem drainPortIn_claims (xs : List (Bool × RegAccess)) : (drainPortIn xs w).SameClaims w := by
  induction xs generalizing w with
  | nil => exact ⟨rfl, rfl, rfl⟩
  | cons x xs ih => simp [drainPortIn, ih]

@[simp] theorem Wing.drainPort_claims : w.drainPort.SameClaims w := by simp [Wing.drainPort]

@[simp] theorem Wing.portTake_claims (write : Bool) (a : RegAccess) : (w.portTake write a).SameClaims w := by
  unfold Wing.portTake
  split <;> simp

@[simp] theorem Wing.writeAnswer_claims : w.writeAnswer.SameClaims w := by
  unfold Wing.writeAnswer
  split <;> simp

/-! ## The study -/

@[simp] theorem issueMods_claims (n : Nat) (ds : List (Word × BitVec 7)) : (issueMods n ds w).1.SameClaims w := by
  induction ds generalizing n w with
  | nil => cases n <;> exact ⟨rfl, rfl, rfl⟩
  | cons d ds ih =>
    cases n with
    | zero => exact ⟨rfl, rfl, rfl⟩
    | succ n => simp [issueMods, ih]

@[simp] theorem Wing.sendMods_claims : w.sendMods.SameClaims w := by simp [Wing.sendMods]

@[simp] theorem Wing.modTake_claims : w.modTake.SameClaims w := by simp [Wing.modTake]

@[simp] theorem Wing.modCount_claims : w.modCount.SameClaims w := by simp [Wing.modCount]

@[simp] theorem issueTargetsIn_claims (rs : List TargetRec) : (issueTargetsIn rs w).1.SameClaims w := by
  induction rs generalizing w with
  | nil => exact ⟨rfl, rfl, rfl⟩
  | cons r rs ih => simp [issueTargetsIn, ih]

@[simp] theorem Wing.sendTargets_claims : w.sendTargets.SameClaims w := by simp [Wing.sendTargets]

@[simp] theorem Wing.takeRefusals_claims (v : View) (r : Ranking) : (w.takeRefusals v r).SameClaims w := by simp [Wing.takeRefusals]

@[simp] theorem Wing.reevalTake_claims : w.reevalTake.SameClaims w := by simp [Wing.reevalTake]

@[simp] theorem Wing.reevaluation_claims : w.reevaluation.SameClaims w := by simp [Wing.reevaluation]

/-! ## Nap, Deep and the restore -/

@[simp] theorem Wing.refuseEntry_claims (deep : Bool) (r : BitVec 2 × BitVec 3) : (w.refuseEntry deep r).SameClaims w := by
  simp [Wing.refuseEntry]

@[simp] theorem Wing.beginEntry_claims (deep : Bool) : (w.beginEntry deep).SameClaims w := by simp [Wing.beginEntry]

@[simp] theorem Wing.enterNap_claims : w.enterNap.SameClaims w := by
  unfold Wing.enterNap
  (repeat' split) <;> simp

@[simp] theorem Wing.rebuildBank_claims (b : Nat) : (w.rebuildBank b).SameClaims w := by simp [Wing.rebuildBank]

@[simp] theorem Wing.loseBank_claims (p : Nat) : (w.loseBank p).SameClaims w := by
  unfold Wing.loseBank
  dsimp only
  (repeat' split) <;> simp

@[simp] theorem Wing.scrubBanks_claims (bad : List (BitVec 7)) (ecc : List EccFind) : (w.scrubBanks bad ecc).SameClaims w := by
  simp [Wing.scrubBanks]

@[simp] theorem Wing.catchUp_claims : w.catchUp.SameClaims w := by simp [Wing.catchUp]

@[simp] theorem Wing.registerLatched_claims : w.registerLatched.SameClaims w := by simp [Wing.registerLatched]

@[simp] theorem Wing.exitNap_claims (bad : List (BitVec 7)) (ecc : List EccFind) : (w.exitNap bad ecc).SameClaims w := by
  simp [Wing.exitNap]

@[simp] theorem Wing.writeSave_claims : w.writeSave.SameClaims w := ⟨rfl, rfl, rfl⟩

@[simp] theorem Wing.saveAnswered_claims (n : Word) (ok : Bool) : (w.saveAnswered n ok).SameClaims w := by simp [Wing.saveAnswered]

@[simp] theorem Wing.turnOff_claims : w.turnOff.SameClaims w := by simp [Wing.turnOff]

@[simp] theorem Wing.enterDeep_claims : w.enterDeep.SameClaims w := by
  unfold Wing.enterDeep
  (repeat' split) <;> simp

@[simp] theorem Wing.beginOff_claims : w.beginOff.SameClaims w := by simp [Wing.beginOff]

@[simp] theorem Wing.arriveDeep_claims : w.arriveDeep.SameClaims w := by
  unfold Wing.arriveDeep
  (repeat' split) <;> simp

@[simp] theorem Wing.loadPlace_claims (i : Nat) (d : DWord) : (w.loadPlace i d).SameClaims w := by
  unfold Wing.loadPlace
  split <;> simp

@[simp] theorem Wing.loadImage_claims (ws : SMap DWord) : (w.loadImage ws).SameClaims w := by simp [Wing.loadImage]

@[simp] theorem Wing.reloadPinned_claims : w.reloadPinned.SameClaims w := by simp [Wing.reloadPinned]

@[simp] theorem Wing.claimPowered_claims : w.claimPowered.SameClaims w := by simp [Wing.claimPowered]

@[simp] theorem Wing.powerUp_claims (c : WakeCause) (save : Option SaveArea) : (w.powerUp c save).SameClaims w := by
  simp [Wing.powerUp]

@[simp] theorem Wing.wakeDeep_claims (c : WakeCause) (save : Option SaveArea) : (w.wakeDeep c save).SameClaims w := by
  unfold Wing.wakeDeep
  (repeat' split) <;> simp

@[simp] theorem Wing.beginWait_claims : w.beginWait.SameClaims w := ⟨rfl, rfl, rfl⟩

/-! ## The tick boundary -/

@[simp] theorem Wing.collect_claims (p : Nat) (e : Entry) : (w.collect p e).SameClaims w := by simp [Wing.collect]

theorem Pass.step_claims (a : Pass) (p : Nat) (e : Option Entry) (left : Nat) (skip : Pass → Pass)
    (h : (skip a).wing.SameClaims a.wing) : (a.step p e left skip).wing.SameClaims a.wing := by
  unfold Pass.step
  split
  · exact ⟨rfl, rfl, rfl⟩
  · (repeat' split) <;> simp [h]

theorem Pass.visit_claims (a : Pass) (p : Nat) : (a.visit p).wing.SameClaims a.wing :=
  (Pass.step_claims _ p _ _ _ ⟨rfl, rfl, rfl⟩).trans (Pass.step_claims a p _ _ _ ⟨rfl, rfl, rfl⟩)

theorem Pass.visits_claims (ps : List Nat) (a : Pass) : (ps.foldl Pass.visit a).wing.SameClaims a.wing := by
  induction ps generalizing a with
  | nil => exact ⟨rfl, rfl, rfl⟩
  | cons p ps ih => exact (ih _).trans (a.visit_claims p)

@[simp] theorem Wing.collection_claims : w.collection.wing.SameClaims w := by
  unfold Wing.collection
  exact Pass.visits_claims _ _

@[simp] theorem Wing.faultReturns_claims : w.faultReturns.SameClaims w := by simp [Wing.faultReturns]

@[simp] theorem Wing.collectTick_claims : w.collectTick.SameClaims w := by simp [Wing.collectTick]

@[simp] theorem Wing.closeFrame_claims (f : Frame) : (w.closeFrame f).SameClaims w := by simp [Wing.closeFrame]

@[simp] theorem Wing.applyDeferredGroup_claims (f : Frame) : (w.applyDeferredGroup f).SameClaims w := by
  simp [Wing.applyDeferredGroup]

@[simp] theorem Wing.trainLanes_claims : w.trainLanes.SameClaims w := by simp [Wing.trainLanes]

@[simp] theorem Wing.retireLanes_claims : w.retireLanes.SameClaims w := by
  unfold Wing.retireLanes
  split
  · exact ⟨rfl, rfl, rfl⟩
  · refine Wing.sameClaims_foldl _ _ _ fun v l => ?_
    split
    · split <;> simp
    · exact ⟨rfl, rfl, rfl⟩

@[simp] theorem Wing.wornLanes_claims : w.wornLanes.SameClaims w := by simp [Wing.wornLanes]

@[simp] theorem Wing.addSpares_claims : w.addSpares.SameClaims w := by simp [Wing.addSpares]

@[simp] theorem Wing.settleLanes_claims : w.settleLanes.SameClaims w := by simp [Wing.settleLanes]

@[simp] theorem Wing.settleLate_claims : w.settleLate.SameClaims w := by simp [Wing.settleLate]

@[simp] theorem Wing.takeoverStep_claims : w.takeoverStep.SameClaims w := by simp [Wing.takeoverStep]

@[simp] theorem Wing.settleTick_claims (r : Ranking) : (w.settleTick r).SameClaims w := by simp [Wing.settleTick]

@[simp] theorem Wing.closeActive_claims : w.closeActive.2.SameClaims w := by simp [Wing.closeActive]

@[simp] theorem Wing.releaseTo_claims (img : RankImg) (os : List Offer) (p : Byte) : (w.releaseTo img os p).SameClaims w := by
  simp [Wing.releaseTo]

@[simp] theorem Wing.release_claims (img : RankImg) (r : Ranking) : (w.release img r).SameClaims w := by simp [Wing.release]

@[simp] theorem Wing.nextTick_claims : w.nextTick.SameClaims w := by
  unfold Wing.nextTick
  dsimp only
  (repeat' split) <;> simp

@[simp] theorem Wing.becomeStandby_claims : w.becomeStandby.SameClaims w := by simp [Wing.becomeStandby]

@[simp] theorem Wing.levelDue_claims : w.levelDue.SameClaims w := by
  unfold Wing.levelDue
  split <;> simp

@[simp] theorem Wing.forcedStep_claims : w.forcedStep.SameClaims w := by simp [Wing.forcedStep]

@[simp] theorem Wing.issueLevel_claims : w.issueLevel.SameClaims w := by
  unfold Wing.issueLevel
  dsimp only
  (repeat' split) <;> simp

@[simp] theorem Wing.dropPair_claims : w.dropPair.SameClaims w := by
  unfold Wing.dropPair
  dsimp only
  (repeat' split) <;> simp

@[simp] theorem Wing.schedulePair_claims : w.schedulePair.SameClaims w := by simp [Wing.schedulePair]

@[simp] theorem Wing.cleanTick_claims : w.cleanTick.SameClaims w := by simp [Wing.cleanTick]

@[simp] theorem Wing.finishJobs_claims : w.finishJobs.SameClaims w := by
  refine Wing.sameClaims_foldl _ _ _ fun v e => ?_
  split <;> simp

@[simp] theorem Wing.openAdmission_claims : w.openAdmission.SameClaims w := by simp [Wing.openAdmission]

@[simp] theorem Wing.openMods_claims : w.openMods.SameClaims w := by simp [Wing.openMods]

@[simp] theorem Wing.openEngines_claims (img : Option RankImg) (r : Ranking) : (w.openEngines img r).SameClaims w := by
  unfold Wing.openEngines
  split <;> simp

@[simp] theorem Wing.openActive_claims (img : Option RankImg) (r : Ranking) (go : Bool) :
    (w.openActive img r go).SameClaims w := by
  unfold Wing.openActive
  split <;> simp

@[simp] theorem Wing.openOther_claims : w.openOther.SameClaims w := by simp [Wing.openOther]

@[simp] theorem Wing.openTick_claims (img : Option RankImg) (r : Ranking) (go : Bool) :
    (w.openTick img r go).SameClaims w := by
  simp [Wing.openTick]

@[simp] theorem Wing.boundaryWakes_claims : w.boundaryWakes.SameClaims w := by simp [Wing.boundaryWakes]

@[simp] theorem Wing.sleepBoundary_claims : w.sleepBoundary.SameClaims w := by simp [Wing.sleepBoundary]

end

end Sys2Proof.Machine
end

section
/-! How a claim is taken and seen (R257, R258, R263): a wing takes the least value of its own parity above every value seen, so its
claim keeps its side's parity and stays at or below the greatest seen. -/

namespace Sys2Proof.Machine

/-! ## What keeps a sound claim sound -/

/-- The wing's claim is sound whenever it was in `w`. -/
def Wing.KeepsSoundClaim (v w : Wing) : Prop := ∀ x, w.claimSound x → v.claimSound x

theorem Wing.SameClaims.keepsSound {v w : Wing} (h : v.SameClaims w) : v.KeepsSoundClaim w := by
  rintro x ⟨hid, hparity, hle⟩
  obtain ⟨hid', hclaim, hseen⟩ := h
  exact ⟨hid'.trans hid, hclaim ▸ hparity, hclaim ▸ hseen ▸ hle⟩

theorem Wing.KeepsSoundClaim.trans {u v w : Wing} (huv : u.KeepsSoundClaim v) (hvw : v.KeepsSoundClaim w) :
    u.KeepsSoundClaim w := fun x h => huv x (hvw x h)

theorem Wing.KeepsSoundClaim.refl (w : Wing) : w.KeepsSoundClaim w := fun _ h => h

theorem Wing.KeepsSoundClaim.ite {u v w : Wing} {c : Prop} [Decidable c] (hu : u.KeepsSoundClaim w) (hv : v.KeepsSoundClaim w) :
    (if c then u else v).KeepsSoundClaim w := by
  split
  · exact hu
  · exact hv

/-! ## The next claim -/

/-- R258: the next claim has the parity of the wing's side. -/
theorem Wing.nextClaim_parity {w : Wing} {c : Word} (h : w.nextClaim = some c) : c.toNat % 2 = (if w.id = .west then 1 else 0) := by
  unfold Wing.nextClaim at h
  extract_lets n own m at h
  split at h
  next hlt =>
    cases h
    rw [BitVec.toNat_ofNat, Nat.mod_eq_of_lt hlt]
    by_cases hown : own
    · rw [show m = n from if_pos hown]
      exact hown
    · rw [show m = n + 1 from if_neg hown]
      have hn : ¬ n % 2 = if w.id = .west then 1 else 0 := hown
      split at hn <;> simp_all <;> omega
  next => cases h

/-- With no value left, a claim of the wing's parity is no greater than the greatest seen. -/
theorem Wing.claim_le_seen_of_nextClaim_none {w : Wing} (h : w.nextClaim = none) (hparity : w.ctl.claim.toNat % 2 = (if w.id = .west then 1 else 0)) :
    w.ctl.claim.toNat ≤ w.ctl.seen.toNat := by
  have hclaim := w.ctl.claim.isLt
  have hseen := w.ctl.seen.isLt
  unfold Wing.nextClaim at h
  extract_lets n own m at h
  split at h
  next => cases h
  next hge =>
    have hm : n ≤ m ∧ m ≤ n + 1 ∧ (m = n ∨ ¬ n % 2 = if w.id = .west then 1 else 0) := by
      by_cases hown : own
      · rw [show m = n from if_pos hown]
        exact ⟨Nat.le_refl _, Nat.le_succ _, .inl rfl⟩
      · rw [show m = n + 1 from if_neg hown]
        exact ⟨Nat.le_succ _, Nat.le_refl _, .inr hown⟩
    have hn : n = w.ctl.seen.toNat + 1 := rfl
    split at hparity <;> simp_all <;> omega

/-- A wing of side `x` whose claim has the parity of the side has a sound claim once it has tried to raise it. -/
theorem Wing.raiseClaim_sound {w : Wing} {x : WingId} {f : Wing → Wing} (hid : w.id = x) (hparity : w.ctl.claim.toNat % 2 = (if x = .west then 1 else 0))
    (hf : ∀ v, (f v).SameClaims v) : (w.raiseClaim f).claimSound x := by
  subst hid
  unfold Wing.raiseClaim
  split
  next c hc => exact (hf _).keepsSound _ ⟨rfl, Wing.nextClaim_parity hc, Nat.le_refl _⟩
  next hnone =>
    have hlog : (w.logTko tkClaimEnd).SameClaims w := by simp
    exact hlog.keepsSound _ ⟨rfl, hparity, Wing.claim_le_seen_of_nextClaim_none hnone hparity⟩

theorem Wing.raiseClaim_keepsSound (w : Wing) {f : Wing → Wing} (hf : ∀ v, (f v).SameClaims v) :
    (w.raiseClaim f).KeepsSoundClaim w := fun _ ⟨hid, hparity, _⟩ => Wing.raiseClaim_sound hid hparity hf

/-! ## Claims seen -/

/-- A wing that takes the greater of a claim and of the greatest seen as the greatest seen. -/
theorem Wing.keepsSound_of_seen {v w : Wing} (hid : v.id = w.id) (hclaim : v.ctl.claim = w.ctl.claim)
    (hseen : w.ctl.seen.toNat ≤ v.ctl.seen.toNat) : v.KeepsSoundClaim w := by
  rintro x ⟨hx, hparity, hle⟩
  exact ⟨hid.trans hx, hclaim ▸ hparity, hclaim ▸ hle.trans hseen⟩

theorem le_greater (a b : Word) : a.toNat ≤ (if a.toNat < b.toNat then b else a).toNat := by
  split <;> omega

theorem Wing.seeClaim_keepsSound (w : Wing) (r : CloseRec) : (w.seeClaim r).KeepsSoundClaim w := by
  unfold Wing.seeClaim
  extract_lets ctl w1
  have h1 : w1.KeepsSoundClaim w := Wing.keepsSound_of_seen rfl rfl (le_greater _ _)
  have hd : w1.demote.SameClaims w1 := by simp
  exact Wing.KeepsSoundClaim.ite (hd.keepsSound.trans h1) h1

theorem Wing.tickClose_keepsSound (w : Wing) (frame : Tick) (replayed : Bool) (r : CloseRec) :
    (w.tickClose frame replayed r).KeepsSoundClaim w := by
  unfold Wing.tickClose
  split
  · exact Wing.KeepsSoundClaim.refl w
  · extract_lets beat psg w1
    have h1 : w1.SameClaims w := ⟨rfl, rfl, rfl⟩
    have h2 := (w1.seeClaim_keepsSound r).trans h1.keepsSound
    exact Wing.KeepsSoundClaim.ite (((w1.seeClaim r).compareFirst_claims frame r).keepsSound.trans h2) h2

theorem Wing.refused_keepsSound (w : Wing) (claim : Word) : (w.refused claim).KeepsSoundClaim w := by
  unfold Wing.refused
  extract_lets w1 ctl w2
  have h2 : w2.KeepsSoundClaim w := Wing.keepsSound_of_seen rfl rfl (le_greater _ _)
  have hd : w2.demote.SameClaims w2 := by simp
  exact hd.keepsSound.trans h2

/-! ## Takeover and handover -/

theorem Wing.stepT_keepsSound (w : Wing) (recovery : Bool) : (w.stepT recovery).KeepsSoundClaim w :=
  w.raiseClaim_keepsSound fun v => by simp

theorem Wing.takeover_keepsSound (w : Wing) : w.takeover.KeepsSoundClaim w :=
  Wing.KeepsSoundClaim.ite (Wing.KeepsSoundClaim.refl w) <|
    Wing.KeepsSoundClaim.ite (w.stepT_keepsSound false) <|
      Wing.KeepsSoundClaim.ite (w.stepT_keepsSound true) w.orphan_claims.keepsSound

theorem Wing.standbyLost_keepsSound (w : Wing) : w.standbyLost.KeepsSoundClaim w := by
  unfold Wing.standbyLost
  split
  · extract_lets ctl w1 w2
    have h2 : w2.SameClaims w := by simp [w2, w1, ctl]
    have hraise := w2.raiseClaim_keepsSound (f := Wing.sendClaim) fun v => v.sendClaim_claims
    exact Wing.KeepsSoundClaim.ite (hraise.trans h2.keepsSound) h2.keepsSound
  · exact Wing.KeepsSoundClaim.refl w

theorem Wing.claimHandover_keepsSound (w : Wing) {f : Wing → Wing} (hf : ∀ v, (f v).SameClaims v) :
    (w.claimHandover f).KeepsSoundClaim w :=
  Wing.KeepsSoundClaim.ite (hf w).keepsSound (w.raiseClaim_keepsSound fun v => (hf v.sendClaim).trans v.sendClaim_claims)

theorem Wing.takeOverRole_keepsSound (w : Wing) : w.takeOverRole.KeepsSoundClaim w := by
  unfold Wing.takeOverRole
  exact w.claimHandover_keepsSound fun v => by simp

theorem Wing.handover_keepsSound (w : Wing) : w.handover.KeepsSoundClaim w :=
  Wing.KeepsSoundClaim.ite
    (Wing.KeepsSoundClaim.ite w.takeOverRole_keepsSound (w.claimHandover_keepsSound fun _ => ⟨rfl, rfl, rfl⟩))
    (Wing.KeepsSoundClaim.refl w)

/-! ## Reset, START and the restore -/

/-- R257: the claim after wing reset. -/
theorem resetClaim_sound {v : Wing} {x : WingId} (hid : v.id = x) (hclaim : v.ctl.claim = resetClaim x)
    (hseen : v.ctl.seen = resetClaim x) : v.claimSound x := by
  refine ⟨hid, ?_, by rw [hclaim, hseen]⟩
  rw [hclaim]
  cases x <;> rfl

theorem Wing.assertReset_keepsSound (w : Wing) : w.assertReset.KeepsSoundClaim w := by
  rintro x ⟨rfl, -, -⟩
  exact resetClaim_sound rfl rfl rfl

theorem Wing.leaveReset_keepsSound (w : Wing) (aptBase : BitVec 40) (portGen : BitVec 64) :
    (w.leaveReset aptBase portGen).KeepsSoundClaim w := by
  unfold Wing.leaveReset
  split
  · extract_lets v vst pwr v1
    rintro x ⟨rfl, -, -⟩
    have hround := Wing.sameClaims_foldl (fun (u : Wing) b => u.noteBankWake b bwReset) (List.range 64) v1 fun u b => by simp
    exact hround.keepsSound _ (resetClaim_sound rfl rfl rfl)
  · exact Wing.KeepsSoundClaim.refl w

@[simp] theorem Wing.dropUnpaired_claims (w : Wing) : w.dropUnpaired.SameClaims w := by simp [Wing.dropUnpaired]

theorem Wing.startClaim_keepsSound (w : Wing) : w.startClaim.KeepsSoundClaim w := by
  refine Wing.KeepsSoundClaim.ite (Wing.KeepsSoundClaim.trans (w.dropUnpaired.raiseClaim_keepsSound fun v => ?_) ?_)
    (Wing.KeepsSoundClaim.refl w)
  · simp
  · exact w.dropUnpaired_claims.keepsSound

/-- R306: the saved value that the wing takes as the greatest seen may lie below its claim; the claim that it raises lies above. -/
theorem Wing.restore_keepsSound (w : Wing) (save : Option SaveArea) : (w.restore save).KeepsSoundClaim w := by
  unfold Wing.restore
  split
  · exact Wing.SameClaims.keepsSound ⟨rfl, rfl, rfl⟩
  next a =>
    split
    · exact Wing.SameClaims.keepsSound ⟨rfl, rfl, rfl⟩
    · extract_lets w1 w2
      rintro x ⟨hid, hparity, -⟩
      have h1 : w1.SameClaims w := by simp [w1]
      exact Wing.raiseClaim_sound (h1.1.trans hid) (h1.2.1.symm ▸ hparity) fun v => by simp

theorem Wing.joinTimeout_keepsSound (w : Wing) (save : Option SaveArea) : (w.joinTimeout save).KeepsSoundClaim w :=
  Wing.KeepsSoundClaim.ite (w.restore_keepsSound _) (Wing.KeepsSoundClaim.refl w)

/-! ## The tick boundary -/

theorem Wing.changeOver_keepsSound (w : Wing) (last : Bool) : (w.changeOver last).KeepsSoundClaim w := by
  unfold Wing.changeOver
  extract_lets w1 w2 w3 w4
  have h3 : w3.SameClaims w := by simp [w3, w2, w1]
  have h4 : w4.KeepsSoundClaim w :=
    w3.startClaim.forcedStep_claims.keepsSound.trans (w3.startClaim_keepsSound.trans h3.keepsSound)
  exact Wing.KeepsSoundClaim.trans (Wing.SameClaims.keepsSound ⟨rfl, rfl, rfl⟩) h4

theorem Wing.runBoundary_keepsSound (w : Wing) (ecc : List EccFind) : (w.runBoundary ecc).KeepsSoundClaim w := by
  unfold Wing.runBoundary
  extract_lets full hall w0 img go last c before w1
  have h0 : w0.SameClaims w := by simp [w0, full]
  have hc : c.2.SameClaims w0 := by
    unfold c
    split <;> simp
  have h1 : w1.nextTick.SameClaims c.2 := by simp [w1]
  have hchange := (w1.nextTick.changeOver_keepsSound last).trans ((h1.trans hc).trans h0).keepsSound
  have hopen : ((w1.nextTick.changeOver last).openTick img c.1 go).settleReady.SameClaims (w1.nextTick.changeOver last) := by simp
  exact hopen.keepsSound.trans hchange

theorem Wing.wakeBoundary_keepsSound (w : Wing) : w.wakeBoundary.KeepsSoundClaim w := by
  unfold Wing.wakeBoundary
  extract_lets w1
  have h1 : w1.SameClaims w := by simp [w1]
  have hwait : w1.beginWait.SameClaims w1 := by simp
  refine Wing.KeepsSoundClaim.trans ?_ h1.keepsSound
  refine Wing.KeepsSoundClaim.ite (Wing.KeepsSoundClaim.refl w1) (Wing.KeepsSoundClaim.ite ?_ hwait.keepsSound)
  exact (Wing.restore_keepsSound _ _).trans (Wing.SameClaims.keepsSound ⟨rfl, rfl, rfl⟩)

theorem Wing.boundary_keepsSound (w : Wing) (ecc : List EccFind) : (w.boundary ecc).KeepsSoundClaim w := by
  have hvotes (v : Wing) : v.noteOwnVotes.KeepsSoundClaim v := v.noteOwnVotes_claims.keepsSound
  unfold Wing.boundary
  split
  · exact Wing.KeepsSoundClaim.refl w
  · exact Wing.KeepsSoundClaim.refl w
  · exact (hvotes _).trans w.takeSnap_claims.keepsSound
  · have hrun : ({ w with life := .run } : Wing).SameClaims w := ⟨rfl, rfl, rfl⟩
    have hwait : w.nextTick.takeSnap.SameClaims w := by simp
    exact Wing.KeepsSoundClaim.ite ((hvotes _).trans ((Wing.runBoundary_keepsSound _ ecc).trans hrun.keepsSound)) hwait.keepsSound
  · exact (hvotes _).trans (w.runBoundary_keepsSound ecc)
  · exact (hvotes _).trans w.sleepBoundary_claims.keepsSound
  · exact (hvotes _).trans w.sleepBoundary_claims.keepsSound
  · exact (hvotes _).trans w.sleepBoundary_claims.keepsSound
  · exact (hvotes _).trans w.wakeBoundary_keepsSound

/-! ## Voted reads (R336, log 16) -/

/-- A field other than the claim and the greatest claim seen. -/
theorem Wing.flipField_claims_of_other (w : Wing) (code : Byte) (i : Nat) (m : BitVec 96) (h1 : code ≠ 1) (h2 : code ≠ 2) :
    (w.flipField code i m).SameClaims w := by
  unfold Wing.flipField
  split
  next h => exact absurd (BitVec.eq_of_toNat_eq h) h1
  next h => exact absurd (BitVec.eq_of_toNat_eq h) h2
  all_goals simp

theorem Wing.voteRead_claims (w : Wing) (f : VoteFind) (h : f.code = 1 ∨ f.code = 2 → voteMajority f = 0) :
    (w.voteRead f).SameClaims w := by
  unfold Wing.voteRead
  extract_lets w1 int w2
  have h1 : w1.SameClaims w := by
    unfold w1
    split
    next => exact ⟨rfl, rfl, rfl⟩
    next hm => exact w.flipField_claims_of_other _ _ _ (fun h1 => hm (h (.inl h1))) fun h2 => hm (h (.inr h2))
  have h2 : w2.SameClaims w1 := ⟨rfl, rfl, rfl⟩
  refine Wing.SameClaims.trans ?_ h1
  split
  · exact ⟨rfl, rfl, rfl⟩
  · refine Wing.SameClaims.trans ?_ h2
    split <;> simp

theorem Wing.voteReads_claims (fs : List VoteFind) (w : Wing)
    (h : ∀ f ∈ fs, f.code = 1 ∨ f.code = 2 → voteMajority f = 0) : (fs.foldl Wing.voteRead w).SameClaims w := by
  induction fs generalizing w with
  | nil => exact ⟨rfl, rfl, rfl⟩
  | cons f fs ih =>
    obtain ⟨hf, hfs⟩ := List.forall_mem_cons.1 h
    exact (ih _ hfs).trans (w.voteRead_claims f hf)

/-! ## Both wings -/

/-- Each wing's claim is sound. -/
theorem State.claimsSound_iff (s : State) : s.claimsSound ↔ ∀ x, (s.wing x).claimSound x :=
  ⟨fun h x => by cases x; exacts [h.1, h.2], fun h => ⟨h .east, h .west⟩⟩

/-- From `s` to `t` each wing keeps a sound claim. -/
def State.KeepsSoundClaims (s t : State) : Prop := ∀ x, (t.wing x).KeepsSoundClaim (s.wing x)

theorem State.KeepsSoundClaims.trans {s t u : State} (hst : s.KeepsSoundClaims t) (htu : t.KeepsSoundClaims u) :
    s.KeepsSoundClaims u := fun x => (htu x).trans (hst x)

theorem State.keepsSoundClaims_of_wings {s t : State} (heast : t.east.SameClaims s.east) (hwest : t.west.SameClaims s.west) :
    s.KeepsSoundClaims t := by
  intro x
  cases x
  · exact heast.keepsSound
  · exact hwest.keepsSound

theorem State.keepsSoundClaims_setWing (s : State) (w : WingId) {v : Wing} (h : v.KeepsSoundClaim (s.wing w)) :
    s.KeepsSoundClaims (s.setWing w v) := by
  intro x
  rw [State.wing_setWing]
  split
  next hx => rw [hx]; exact h
  next => exact Wing.KeepsSoundClaim.refl _

theorem State.keepsSoundClaims_onWing (s : State) (w : WingId) {f : Wing → Wing} (h : ∀ v, (f v).KeepsSoundClaim v) :
    s.KeepsSoundClaims (s.onWing w f) := by
  have hin : ({ s.wing w with out := [] } : Wing).SameClaims (s.wing w) := ⟨rfl, rfl, rfl⟩
  have hout (v : Wing) : ({ v with out := [] } : Wing).SameClaims v := ⟨rfl, rfl, rfl⟩
  have hstep := (hout _).keepsSound.trans ((h _).trans hin.keepsSound)
  exact (s.keepsSoundClaims_setWing w hstep).trans (State.keepsSoundClaims_of_wings ⟨rfl, rfl, rfl⟩ ⟨rfl, rfl, rfl⟩)

theorem State.keepsSoundClaims_onPorches (f : Byte → Porch → Porch × List Out) (ps : List Byte) (s : State) :
    s.KeepsSoundClaims (State.onPorches f ps s) := by
  induction ps generalizing s with
  | nil => exact State.keepsSoundClaims_of_wings ⟨rfl, rfl, rfl⟩ ⟨rfl, rfl, rfl⟩
  | cons p ps ih => exact (State.keepsSoundClaims_of_wings ⟨rfl, rfl, rfl⟩ ⟨rfl, rfl, rfl⟩).trans (ih _)

theorem State.keepsSoundClaims_ite {s t u : State} {c : Prop} [Decidable c] (ht : s.KeepsSoundClaims t) (hu : s.KeepsSoundClaims u) :
    s.KeepsSoundClaims (if c then t else u) := by
  split
  · exact ht
  · exact hu

/-! ## Every command -/

/-- The outcome goes on to a state in which each wing keeps a sound claim. -/
def State.NextKeepsSoundClaims (s : State) (o : Host.Outcome State Fault Refusal) : Prop := ∃ t, o = .next t ∧ s.KeepsSoundClaims t

theorem nextWing_keepsSoundClaims {s : State} {w : WingId} {f : Wing → Wing} (h : ∀ v, (f v).KeepsSoundClaim v) :
    s.NextKeepsSoundClaims (nextWing s w f) := ⟨_, rfl, s.keepsSoundClaims_onWing w h⟩

theorem nextWing_keepsSoundClaims_of_same {s : State} {w : WingId} {f : Wing → Wing} (h : ∀ v, (f v).SameClaims v) :
    s.NextKeepsSoundClaims (nextWing s w f) := nextWing_keepsSoundClaims fun v => (h v).keepsSound

theorem execTickBoundary_keepsSoundClaims (w : WingId) (ecc : List EccFind) (s : State) :
    s.NextKeepsSoundClaims (execTickBoundary w ecc s) := by
  have hown := s.keepsSoundClaims_onWing w (f := fun v => (v.boundary ecc).showEn v.psgEn) fun v =>
    Wing.KeepsSoundClaim.trans (Wing.SameClaims.keepsSound (by simp)) (v.boundary_keepsSound ecc)
  refine ⟨_, rfl, State.keepsSoundClaims_ite (hown.trans (State.keepsSoundClaims_setWing _ _ ?_)) hown⟩
  exact Wing.SameClaims.keepsSound ⟨rfl, rfl, rfl⟩

@[simp] theorem Wing.peerRefused_claims (w : Wing) : w.peerRefused.SameClaims w := by simp [Wing.peerRefused]

theorem execNapEntry_keepsSoundClaims (w : WingId) (s : State) : s.NextKeepsSoundClaims (execNapEntry w s) := by
  have hown := s.keepsSoundClaims_onWing w (f := Wing.enterNap) fun v => v.enterNap_claims.keepsSound
  exact ⟨_, rfl, State.keepsSoundClaims_ite
    (hown.trans (State.keepsSoundClaims_setWing _ _ (Wing.peerRefused_claims _).keepsSound)) hown⟩

theorem execDeepEntry_keepsSoundClaims (w : WingId) (s : State) : s.NextKeepsSoundClaims (execDeepEntry w s) := by
  have hown := s.keepsSoundClaims_onWing w (f := fun x => x.enterDeep.showEn x.psgEn) fun v =>
    Wing.SameClaims.keepsSound (by simp)
  exact ⟨_, rfl, State.keepsSoundClaims_ite
    (hown.trans (State.keepsSoundClaims_setWing _ _ (Wing.peerRefused_claims _).keepsSound)) hown⟩

theorem State.keepsSoundClaims_dropRails (s : State) : s.KeepsSoundClaims s.dropRails :=
  State.keepsSoundClaims_ite (State.keepsSoundClaims_of_wings ⟨rfl, rfl, rfl⟩ ⟨rfl, rfl, rfl⟩)
    (State.keepsSoundClaims_of_wings ⟨rfl, rfl, rfl⟩ ⟨rfl, rfl, rfl⟩)

theorem execWingReset_keepsSoundClaims (w : WingId) (s : State) : s.NextKeepsSoundClaims (execWingReset w s) := by
  refine ⟨_, rfl, State.KeepsSoundClaims.trans (s.keepsSoundClaims_onWing w fun v => ?_) (State.keepsSoundClaims_dropRails _)⟩
  exact Wing.KeepsSoundClaim.trans (Wing.SameClaims.keepsSound (by simp)) v.assertReset_keepsSound

theorem execRaiseBeat_keepsSoundClaims (w : WingId) (p : Byte) (idx : BitVec 4) (b : RaiseRead) (s : State) :
    s.NextKeepsSoundClaims (execRaiseBeat w p idx b s) := by
  unfold execRaiseBeat
  extract_lets q due r set s1
  have h1 : s.KeepsSoundClaims s1 := State.keepsSoundClaims_of_wings ⟨rfl, rfl, rfl⟩ ⟨rfl, rfl, rfl⟩
  refine ⟨_, rfl, ?_⟩
  split
  next q1 _ =>
    extract_lets s2
    have hporch : s.KeepsSoundClaims (s1.setPorch p q1) :=
      h1.trans (State.keepsSoundClaims_of_wings ⟨rfl, rfl, rfl⟩ ⟨rfl, rfl, rfl⟩)
    have h2 : s.KeepsSoundClaims s2 :=
      hporch.trans (State.keepsSoundClaims_onWing _ w fun v => Wing.SameClaims.keepsSound (by simp))
    exact h2.trans (State.keepsSoundClaims_of_wings ⟨rfl, rfl, rfl⟩ ⟨rfl, rfl, rfl⟩)
  next => exact h1

theorem execPorchDomainPowerDown_keepsSoundClaims (k : BitVec 5) (d : DownRead) (s : State) :
    s.NextKeepsSoundClaims (execPorchDomainPowerDown k d s) := by
  unfold execPorchDomainPowerDown
  extract_lets s0 vote s1 s2
  have h0 : s.KeepsSoundClaims s0 := State.keepsSoundClaims_of_wings ⟨rfl, rfl, rfl⟩ ⟨rfl, rfl, rfl⟩
  have h1 : s.KeepsSoundClaims s1 := h0.trans (State.keepsSoundClaims_onPorches _ _ _)
  have h2 : s.KeepsSoundClaims s2 := h1.trans (State.keepsSoundClaims_onPorches _ _ _)
  clear_value s2
  split
  · exact ⟨_, rfl, h0⟩
  · split
    · exact ⟨_, rfl, h2.trans (State.keepsSoundClaims_of_wings ⟨rfl, rfl, rfl⟩ ⟨rfl, rfl, rfl⟩)⟩
    · exact ⟨_, rfl, h1⟩

theorem execPorchDomainPowerUp_keepsSoundClaims (k : BitVec 5) (pdVote : Byte) (s : State) :
    s.NextKeepsSoundClaims (execPorchDomainPowerUp k pdVote s) := by
  unfold execPorchDomainPowerUp
  extract_lets s0 s1
  have h0 : s.KeepsSoundClaims s0 := State.keepsSoundClaims_of_wings ⟨rfl, rfl, rfl⟩ ⟨rfl, rfl, rfl⟩
  have h1 : s.KeepsSoundClaims s1 := h0.trans (State.keepsSoundClaims_onPorches _ _ _)
  clear_value s1
  split
  · exact ⟨_, rfl, h0⟩
  · exact ⟨_, rfl, h1.trans (State.keepsSoundClaims_of_wings (by simp) (by simp))⟩

theorem execVoteWalk_keepsSoundClaims (w : WingId) (fs : List VoteFind) (s : State)
    (h : ∀ f ∈ fs, f.code = 1 ∨ f.code = 2 → voteMajority f = 0) : s.NextKeepsSoundClaims (execVoteWalk w fs s) :=
  nextWing_keepsSoundClaims fun v =>
    Wing.KeepsSoundClaim.ite (Wing.voteReads_claims fs v h).keepsSound (Wing.KeepsSoundClaim.refl v)

theorem execWindowEnd_keepsSoundClaims (w : WingId) (key : Word) (s : State) : s.NextKeepsSoundClaims (execWindowEnd w key s) := by
  refine nextWing_keepsSoundClaims_of_same fun v => ?_
  split <;> simp

/-- R257: every command but a walk that finds a wrong majority keeps both claims sound. -/
theorem exec_keepsSoundClaims (c : Instr) (s : State)
    (hwalk : ∀ w fs, c = .voteWalk w fs → ∀ f ∈ fs, f.code = 1 ∨ f.code = 2 → voteMajority f = 0) :
    s.NextKeepsSoundClaims (exec c s) := by
  cases c with
  | voteWalk w fs => exact execVoteWalk_keepsSoundClaims w fs s (hwalk w fs rfl)
  | raiseBeat w p idx r => exact execRaiseBeat_keepsSoundClaims w p idx r s
  | tickBoundary w ecc => exact execTickBoundary_keepsSoundClaims w ecc s
  | windowEnd w key => exact execWindowEnd_keepsSoundClaims w key s
  | porchDomainPowerDown k d => exact execPorchDomainPowerDown_keepsSoundClaims k d s
  | porchDomainPowerUp k pdVote => exact execPorchDomainPowerUp_keepsSoundClaims k pdVote s
  | napEntry w => exact execNapEntry_keepsSoundClaims w s
  | deepEntry w => exact execDeepEntry_keepsSoundClaims w s
  | wingReset w => exact execWingReset_keepsSoundClaims w s
  | backupRailLoss => exact ⟨_, rfl, State.keepsSoundClaims_of_wings ⟨rfl, rfl, rfl⟩ ⟨rfl, rfl, rfl⟩⟩
  | tickClose w frame replayed r => exact nextWing_keepsSoundClaims fun v => v.tickClose_keepsSound frame replayed r
  | refuse w p claim =>
    exact nextWing_keepsSoundClaims fun v => Wing.KeepsSoundClaim.ite (v.refused_keepsSound claim) (Wing.KeepsSoundClaim.refl v)
  | takeover w => exact nextWing_keepsSoundClaims Wing.takeover_keepsSound
  | standbyLost w => exact nextWing_keepsSoundClaims Wing.standbyLost_keepsSound
  | handover w => exact nextWing_keepsSoundClaims Wing.handover_keepsSound
  | wingResetRelease w aptBase portGen => exact nextWing_keepsSoundClaims fun v => v.leaveReset_keepsSound aptBase portGen
  | deepJoinTimeout w save =>
    exact nextWing_keepsSoundClaims fun v =>
      Wing.KeepsSoundClaim.trans (Wing.SameClaims.keepsSound (by simp)) (v.joinTimeout_keepsSound save)
  | releaseHeader | claimRaise | init | vrRd | eoi | sliceCurReturn | sliceCurChange | raise | claim | complete =>
    exact ⟨_, rfl, State.keepsSoundClaims_of_wings ⟨rfl, rfl, rfl⟩ ⟨rfl, rfl, rfl⟩⟩
  | arrive | claimRecord | completeRecord | cfgRegw | cfgCmd | cfgCmdExt | cfgFinish | cfgParam | cfgDrain |
    cfgLetter | cfgLevel | cfgQuar | steerAccept | steerInstall | steerModwin | steerTarget | steerResidency |
    steerCorestate | ringposDoorbell | ringposDone =>
    exact nextWing_keepsSoundClaims_of_same fun v => by simp
  | nativeMessage | msiWrite | commandDoorbell | letterboxDoorbell | apertureRead | wiredSourceChange | alarmLatch |
    cellarReadReturn | standbyImageExpiry | spillReturn | writeBackAccepted | moderationCount | steerReevaluation |
    strandingLimit | acceptRsp | acceptRspTimeout | entry | status | slotReport | replayEnd | porchEvent |
    commandPoint | descriptorReadReturn | nop | vecCfg | vecReset | vecQuery | vecComplete | pin | unpin | flush |
    sliceCreate | sliceShare | sliceQuiesce | sliceResume | sliceReset | sliceRemove | letterPost |
    parameterBlockRead | creationWritesDone | releaseWaitEnd | quiesceFinish | drainLimit | drainRequestTaken |
    drnDone | filterEntryExpiry | eventBlockWrite | block | replay | ackDeadline | psgRxlock | trainingBlock |
    frameApplied | resyncCopy | resyncFetch | resyncArrival | resyncFill | nopRecord |
    provisionalCommit | takeoverWrites | recoveryModeEnd | resyncStart | resyncAbort | resyncDone |
    handoverSchedule | levelChoice | levelChange | studyVote | napWake | napExit | deepWake |
    anchorWrite | vbatCheck | hearthPowerUp | hrtCalSet | timePair | scrub | signaturePass |
    wearWindowEnd | bankMove | scanSliceMove | registerWrite | registerWriteAnswer | readClear | indirectAccess |
    snapNow | snapBoundary | lockBitSet | dualControlWrite | dualPendExpiry | start | startComplete |
    keyDelivery | rawEdge | tickSyncBreak | retentionMonitorTrip | recordWriteAccepted =>
    exact nextWing_keepsSoundClaims_of_same fun v => by simp

/-- Sound claims differ: one is even, the other odd. -/
theorem State.claims_ne {s : State} (h : s.claimsSound) : s.east.ctl.claim ≠ s.west.ctl.claim := by
  obtain ⟨⟨-, heast, -⟩, -, hwest, -⟩ := h
  intro heq
  rw [heq] at heast
  exact absurd (heast.symm.trans hwest) (by decide)

end Sys2Proof.Machine

namespace Sys2Proof

open Machine

/-- Settles O46: a claim is taken only above every value seen and of the wing's own parity, and nothing else but a greater value seen
touches the two. -/
theorem claimsStayApart : Obligations.ClaimsStayApart := by
  unfold Obligations.ClaimsStayApart
  refine ⟨fun s t h hwalk hstep => ?_, fun s h => State.claims_ne h⟩
  unfold step at hstep
  split at hstep
  · cases hstep
    exact h
  next c rest hq =>
    obtain ⟨u, hu, hkeeps⟩ := exec_keepsSoundClaims c { s with pending := rest } fun w fs hc => hwalk w fs (by rw [hq, hc]; rfl)
    cases hstep.symm.trans hu
    rw [State.claimsSound_iff] at h ⊢
    exact fun x => hkeeps x x (h x)

end Sys2Proof
end

section
/-! What a core's operations do at a porch: the claim of the best offer, completions, raises, and the operations that wait (R130,
R131, R140, R143). -/

namespace Sys2Proof.Machine

/-! ## A step of one porch -/

/-- A command that steps one porch by `f` leaves what `f` gives, and drives what `f` drives. -/
def StepsPorch (i : Instr) (s : State) (p : Byte) (f : Porch → Porch × List Out) : Prop :=
  ∃ t, exec i s = .next t ∧ s.onlyPorch t p ∧ t.porch p = (f (s.porch p)).1 ∧ t.out = (f (s.porch p)).2

theorem stepsPorch_of_free {i : Instr} {s : State} {p : Byte} {f : Porch → Porch × List Out} {n : Nat}
    (h : exec i s = .next { s.onPorch p f with free := n }) : StepsPorch i s p f :=
  ⟨_, h, s.onPorch_only_withFree p f n, s.onPorch_porch_withFree p f n, rfl⟩

theorem stepsPorch_of_nextPorch {i : Instr} {s : State} {p : Byte} {f : Porch → Porch × List Out}
    (h : exec i s = nextPorch s p f) : StepsPorch i s p f :=
  stepsPorch_of_free (h.trans (nextPorch_free s p f))

/-- What holds of the result of the step holds of the state that the command leaves. -/
theorem StepsPorch.leaves {i : Instr} {s : State} {p : Byte} {f : Porch → Porch × List Out} (h : StepsPorch i s p f)
    {r : Porch × List Out} (hf : f (s.porch p) = r) :
    ∃ t, exec i s = .next t ∧ s.onlyPorch t p ∧ t.porch p = r.1 ∧ t.out = r.2 := hf ▸ h

theorem stepsPorch_claim (s : State) (p : Byte) (op : BitVec 2) (arg : Word) (v : Vote) :
    ∃ err, StepsPorch (.claim p op arg v) s p fun q => q.coreOp p (.cp op arg) v err :=
  ⟨_, stepsPorch_of_free rfl⟩

theorem stepsPorch_complete (s : State) (p : Byte) (key : Word) (v : Vote) :
    ∃ err, StepsPorch (.complete p key v) s p fun q => q.coreOp p (.cp 0b10 key) v err :=
  ⟨_, stepsPorch_of_free rfl⟩

theorem stepsPorch_eoi (s : State) (p : Byte) (wa : BitVec 2) (arg : Word) (v : Vote) :
    StepsPorch (.eoi p wa arg v) s p fun q => q.coreOp p (.vr wa arg) v false :=
  stepsPorch_of_nextPorch rfl

/-- The operation that RAISE is, by the port that the straps give the porch (R399). -/
theorem stepsPorch_raise (s : State) (p : Byte) (arg : Word) (v : Vote) :
    ∃ err, StepsPorch (.raise p arg v) s p fun q =>
      q.coreOp p (if portGenOf s.portGen p.toNat = 0b01 then .vr 0b01 arg else .cp 0b11 arg) v err := by
  refine ⟨Config.faultAnswerIsError s.free, stepsPorch_of_free (n := s.free + 1) ?_⟩
  by_cases h : portGenOf s.portGen p.toNat = 0b01 <;> simp [exec, execRaise, h]

/-! ## Operations that are taken, lost, or held -/

theorem Porch.live_iff (q : Porch) : q.live = true ↔ q.on = true ∧ q.up = true ∧ q.fault = false := by
  simp [Porch.live, and_assoc]

theorem Porch.on_of_takes {q : Porch} {o : WaitOp} (h : q.takes o = true) : q.on = true := by
  unfold Porch.takes Porch.ready at h
  rw [Bool.and_eq_true] at h
  exact ((Porch.live_iff q).1 h.1).1

theorem Porch.coreOp_of_off {q : Porch} (h : q.on = false) (p : Byte) (o : WaitOp) (v : Vote) (err : Bool) :
    q.coreOp p o v err = (q, []) := by
  simp [Porch.coreOp, h]

theorem Porch.coreOp_of_waits {q : Porch} (hon : q.on = true) {o : WaitOp} (h : q.waiting ≠ [] ∨ q.takes o = false) (p : Byte)
    (v : Vote) (err : Bool) : q.coreOp p o v err = ({ q with waiting := q.waiting ++ [(o, v, err)] }, []) := by
  have hne : ¬ (q.waiting = [] ∧ q.takes o = true) := fun ⟨hw, ht⟩ => h.elim (· hw) fun hf => by simp [ht] at hf
  simp only [Porch.coreOp, hon, Bool.not_true, Bool.false_eq_true, if_false, if_neg hne]

theorem Porch.coreOp_of_takes {q : Porch} {o : WaitOp} (hw : q.waiting = []) (ht : q.takes o = true) (p : Byte) (v : Vote)
    (err : Bool) : q.coreOp p o v err = q.takeVoted p o v err := by
  simp only [Porch.coreOp, Porch.on_of_takes ht, Bool.not_true, Bool.false_eq_true, if_false, if_pos (And.intro hw ht)]

theorem Porch.coreOp_split {q : Porch} {o : WaitOp} (hw : q.waiting = []) (ht : q.takes o = true) (p : Byte) (err : Bool) :
    (q.coreOp p o .split err).1 = { q with fault := true } := by
  rw [Porch.coreOp_of_takes hw ht]
  rfl

/-- An operation that is taken has its effect, behind the report of a corrected vote. -/
theorem Porch.coreOp_taken {q : Porch} {o : WaitOp} (hw : q.waiting = []) (ht : q.takes o = true) (p : Byte) {v : Vote}
    (hv : v ≠ .split) (err : Bool) : ∃ fix, q.coreOp p o v err = ((q.takeOp p o).1, fix ++ (q.takeOp p o).2) := by
  rw [Porch.coreOp_of_takes hw ht]
  cases v with
  | agree => exact ⟨[], rfl⟩
  | corrected => exact ⟨eventBeats p .voteFix, rfl⟩
  | split => exact absurd rfl hv

/-! ## Which operations a live porch takes -/

theorem Porch.takes_claim {q : Porch} (h : q.live = true) {op : BitVec 2} (hop : op = 0 ∨ op = 1) (arg : Word) :
    q.takes (.cp op arg) = true := by
  rcases hop with rfl | rfl <;> simp [Porch.takes, Porch.ready, h]

theorem Porch.takes_complete {q : Porch} (h : q.live = true) (arg : Word) :
    q.takes (.cp 0b10 arg) = decide (q.journal.length < 8) ∧ q.takes (.vr 0b00 arg) = decide (q.journal.length < 8) := by
  simp [Porch.takes, Porch.ready, h]

theorem Porch.takes_raise {q : Porch} (h : q.live = true) (arg : Word) :
    (arg.extractLsb' 4 28 = 0#28 → q.takes (.cp 0b11 arg) = decide (q.raiseq.length < 4)) ∧
      (arg.extractLsb' 4 28 ≠ 0#28 → q.takes (.cp 0b11 arg) = true) ∧
      q.takes (.vr 0b01 arg) = decide (q.raiseq.length < 4) := by
  simp +contextual [Porch.takes, Porch.ready, h]

/-- The reserved addresses of the vector-read port. -/
theorem two_le_toNat {a : BitVec 2} (h : 2 ≤ a.toNat) : a = 2#2 ∨ a = 3#2 := by
  bv_omega

theorem Porch.takes_reserved {q : Porch} (h : q.live = true) {wa : BitVec 2} (hwa : 2 ≤ wa.toNat) (arg : Word) :
    q.takes (.vr wa arg) = true := by
  obtain rfl | rfl := two_le_toNat hwa <;> simp [Porch.takes, Porch.ready, h]

/-! ## What an operation does -/

theorem Porch.takeOp_claim (q : Porch) (p : Byte) {arg : Word} (h : arg.extractLsb' 9 23 = 0#23) :
    q.takeOp p (.cp 1 arg) =
      ((q.claimEffect p (arg.extractLsb' 0 9).toNat).1,
        cpOut p (q.claimResult (arg.extractLsb' 0 9).toNat).cp ++ (q.claimEffect p (arg.extractLsb' 0 9).toNat).2) := by
  simp [Porch.takeOp, h]

/-- A reserved operation of the claim port, or one with a reserved bit set. -/
theorem Porch.takeOp_error (q : Porch) (p : Byte) {op : BitVec 2} {arg : Word}
    (h : op = 0 ∨ op = 1 ∧ arg.extractLsb' 9 23 ≠ 0#23 ∨ op = 3 ∧ arg.extractLsb' 4 28 ≠ 0#28) :
    q.takeOp p (.cp op arg) = (q, cpOut p (0b11, 0) ++ portErr p) := by
  rcases h with rfl | ⟨rfl, h⟩ | ⟨rfl, h⟩ <;> simp [Porch.takeOp, *]

theorem Porch.takeOp_complete (q : Porch) (p : Byte) (arg : Word) :
    q.takeOp p (.cp 0b10 arg) = ((q.completeEffect p arg).1, cpOut p (0b00, 0) ++ (q.completeEffect p arg).2) := by
  simp [Porch.takeOp]

theorem Porch.takeOp_eoi (q : Porch) (p : Byte) (arg : Word) : q.takeOp p (.vr 0b00 arg) = q.completeEffect p arg := by
  simp [Porch.takeOp]

theorem Porch.takeOp_raise (q : Porch) (p : Byte) {arg : Word} (h : arg.extractLsb' 4 28 = 0#28) :
    q.takeOp p (.cp 0b11 arg) = (q.raiseEffect (arg.extractLsb' 0 4), cpOut p (0b00, 0)) := by
  simp [Porch.takeOp, h]

theorem Porch.takeOp_eoiRaise (q : Porch) (p : Byte) (arg : Word) :
    q.takeOp p (.vr 0b01 arg) = (q.raiseEffect (arg.extractLsb' 0 4), []) := by
  simp [Porch.takeOp]

theorem Porch.takeOp_reserved (q : Porch) (p : Byte) {wa : BitVec 2} (hwa : 2 ≤ wa.toNat) (arg : Word) :
    q.takeOp p (.vr wa arg) = (q, portErr p) := by
  obtain rfl | rfl := two_le_toNat hwa <;> simp [Porch.takeOp]

/-! ## The result of a claim -/

theorem Porch.claimResult_ok {q : Porch} {k : BitVec 97} {lim : Nat} (hb : q.best = some k)
    (hlim : rkAlarm k = true ∨ (rkPrio k).toNat < lim) (hroom : q.journal.length < 8) : q.claimResult lim = .ok k := by
  simp only [Porch.claimResult, hb, if_pos hlim, if_pos hroom]

theorem Porch.claimResult_busy {q : Porch} {k : BitVec 97} {lim : Nat} (hb : q.best = some k)
    (hlim : rkAlarm k = true ∨ (rkPrio k).toNat < lim) (hfull : q.journal.length = 8) : q.claimResult lim = .busy := by
  have hroom : ¬ q.journal.length < 8 := by omega
  simp only [Porch.claimResult, hb, if_pos hlim, if_neg hroom]

theorem Porch.claimResult_nothing {q : Porch} {lim : Nat}
    (h : ∀ k, q.best = some k → rkAlarm k = false ∧ lim ≤ (rkPrio k).toNat) : q.claimResult lim = .nothing := by
  unfold Porch.claimResult
  cases hb : q.best with
  | none => rfl
  | some k =>
    obtain ⟨ha, hp⟩ := h k hb
    have hno : ¬ (rkAlarm k = true ∨ (rkPrio k).toNat < lim) := by simp [ha]; omega
    simp only [if_neg hno]

/-- Every priority is under a LIMIT of 256. -/
theorem rkPrio_lt (k : BitVec 97) : (rkPrio k).toNat < 256 := (rkPrio k).isLt

/-- The porch after a claim of the offer in slot content `x` under key `k`. -/
def Porch.claimed (q : Porch) (k : BitVec 97) (x : PSlot) : Porch :=
  { q with
    slots := dropOffer k q.slots
    journal := q.journal ++
      [{ kind := .claim, accTick := x.rtick.extractLsb' 0 6, prio := rkPrio k, jseq := q.jseq, key := rkKey k }]
    jseq := q.jseq + 1
    journalled := true }

theorem Porch.claimEffect_ok {q : Porch} {k : BitVec 97} {lim : Nat} {x : PSlot} (h : q.claimResult lim = .ok k)
    (hx : (q.slots.filterMap id).find? (fun x => x.key == k) = some x) (p : Byte) :
    (q.claimEffect p lim).1 = q.claimed k x := by
  simp only [Porch.claimEffect, h, hx]
  rfl

theorem Porch.claimEffect_nothing {q : Porch} {lim : Nat} (h : q.claimResult lim = .nothing) (p : Byte) :
    q.claimEffect p lim = (q, []) := by
  simp only [Porch.claimEffect, h]

theorem Porch.claimEffect_busy {q : Porch} {lim : Nat} (h : q.claimResult lim = .busy) (p : Byte) :
    q.claimEffect p lim = (q, eventBeats p .claimBusy) := by
  simp only [Porch.claimEffect, h]

theorem mem_eventBeats (p : Byte) (e : PorchEvent) (w : WingId) : Out.p2wEvent p w e ∈ eventBeats p e := by
  cases w <;> simp [eventBeats]

/-! ## CLAIM at the claim port -/

/-- A claim with no reserved bit that finds the porch free leaves what its effect leaves, and its answer is driven. -/
theorem exec_claim_taken (s : State) (p : Byte) {arg : Word} {v : Vote} (hl : (s.porch p).live = true)
    (hw : (s.porch p).waiting = []) (hv : v ≠ .split) (harg : arg.extractLsb' 9 23 = 0#23) :
    ∃ t fix, exec (.claim p 1 arg v) s = .next t ∧ s.onlyPorch t p ∧
      t.porch p = ((s.porch p).claimEffect p (arg.extractLsb' 0 9).toNat).1 ∧
      t.out = fix ++ (cpOut p ((s.porch p).claimResult (arg.extractLsb' 0 9).toNat).cp ++
        ((s.porch p).claimEffect p (arg.extractLsb' 0 9).toNat).2) := by
  obtain ⟨err, hstep⟩ := stepsPorch_claim s p 1 arg v
  obtain ⟨fix, hop⟩ := Porch.coreOp_taken hw (Porch.takes_claim hl (.inr rfl) arg) p hv err
  obtain ⟨t, ht, honly, hporch, hout⟩ := hstep.leaves hop
  rw [Porch.takeOp_claim _ p harg] at hporch hout
  exact ⟨t, fix, ht, honly, hporch, hout⟩

theorem exec_claim_best (s : State) (p : Byte) {arg : Word} {v : Vote} {k : BitVec 97} (hl : (s.porch p).live = true)
    (hw : (s.porch p).waiting = []) (hv : v ≠ .split) (harg : arg.extractLsb' 9 23 = 0#23) (hb : (s.porch p).best = some k)
    (hlim : rkAlarm k = true ∨ (rkPrio k).toNat < (arg.extractLsb' 0 9).toNat) (hroom : (s.porch p).journal.length < 8) :
    ∃ t x, exec (.claim p 1 arg v) s = .next t ∧ s.onlyPorch t p ∧ some x ∈ (s.porch p).slots ∧ x.key = k ∧
      t.porch p = (s.porch p).claimed k x ∧ Out.cpRsp p 0b00 (claimData k) ∈ t.out := by
  obtain ⟨t, fix, ht, honly, hporch, hout⟩ := exec_claim_taken s p hl hw hv harg
  have hok := Porch.claimResult_ok hb hlim hroom
  obtain ⟨x, hx, hmem, hkey⟩ := (s.porch p).slot_of_held k ((s.porch p).best_spec k hb).1
  rw [Porch.claimEffect_ok hok hx] at hporch
  rw [hok] at hout
  exact ⟨t, x, ht, honly, hmem, hkey, hporch, by simp [hout, cpOut, ClaimResult.cp]⟩

theorem exec_claim_none (s : State) (p : Byte) {arg : Word} {v : Vote} (hl : (s.porch p).live = true)
    (hw : (s.porch p).waiting = []) (hv : v ≠ .split) (harg : arg.extractLsb' 9 23 = 0#23)
    (hnone : ∀ k, (s.porch p).best = some k → rkAlarm k = false ∧ (arg.extractLsb' 0 9).toNat ≤ (rkPrio k).toNat) :
    ∃ t, exec (.claim p 1 arg v) s = .next t ∧ s.onlyPorch t p ∧ t.porch p = s.porch p ∧ Out.cpRsp p 0b01 0 ∈ t.out := by
  obtain ⟨t, fix, ht, honly, hporch, hout⟩ := exec_claim_taken s p hl hw hv harg
  have hno := Porch.claimResult_nothing hnone
  rw [Porch.claimEffect_nothing hno] at hporch
  rw [hno] at hout
  exact ⟨t, ht, honly, hporch, by simp [hout, cpOut, ClaimResult.cp]⟩

theorem exec_claim_busy (s : State) (p : Byte) {arg : Word} {v : Vote} {k : BitVec 97} (hl : (s.porch p).live = true)
    (hw : (s.porch p).waiting = []) (hv : v ≠ .split) (harg : arg.extractLsb' 9 23 = 0#23) (hb : (s.porch p).best = some k)
    (hlim : rkAlarm k = true ∨ (rkPrio k).toNat < (arg.extractLsb' 0 9).toNat) (hfull : (s.porch p).journal.length = 8) :
    ∃ t, exec (.claim p 1 arg v) s = .next t ∧ s.onlyPorch t p ∧ t.porch p = s.porch p ∧ Out.cpRsp p 0b10 0 ∈ t.out ∧
      ∀ w, Out.p2wEvent p w .claimBusy ∈ t.out := by
  obtain ⟨t, fix, ht, honly, hporch, hout⟩ := exec_claim_taken s p hl hw hv harg
  have hbusy := Porch.claimResult_busy hb hlim hfull
  rw [Porch.claimEffect_busy hbusy] at hporch hout
  rw [hbusy] at hout
  exact ⟨t, ht, honly, hporch, by simp [hout, cpOut, ClaimResult.cp], fun w => by simp [hout, mem_eventBeats]⟩

/-- An operation that the claim port refuses is answered ERROR, and changes nothing. -/
theorem StepsPorch.error {i : Instr} {s : State} {p : Byte} {op : BitVec 2} {arg : Word} {v : Vote} {err : Bool}
    (hstep : StepsPorch i s p fun q => q.coreOp p (.cp op arg) v err) (hw : (s.porch p).waiting = []) (hv : v ≠ .split)
    (htakes : (s.porch p).takes (.cp op arg) = true)
    (herr : op = 0 ∨ op = 1 ∧ arg.extractLsb' 9 23 ≠ 0#23 ∨ op = 3 ∧ arg.extractLsb' 4 28 ≠ 0#28) :
    ∃ t, exec i s = .next t ∧ s.onlyPorch t p ∧ t.porch p = s.porch p ∧ Out.cpRsp p 0b11 0 ∈ t.out ∧
      ∀ w, Out.p2wEvent p w .portErr ∈ t.out := by
  obtain ⟨fix, hop⟩ := Porch.coreOp_taken hw htakes p hv err
  obtain ⟨t, ht, honly, hporch, hout⟩ := hstep.leaves hop
  rw [Porch.takeOp_error _ p herr] at hporch hout
  exact ⟨t, ht, honly, hporch, by simp [hout, cpOut], fun w => by simp [hout, portErr, mem_eventBeats]⟩

/-! ## VR_RD -/

theorem stepsPorch_vrRd {s : State} {p : Byte} (hl : (s.porch p).live = true) :
    ∃ t, exec (.vrRd p .agree) s = .next t ∧ s.onlyPorch t p ∧ t.porch p = ((s.porch p).claimEffect p 256).1 ∧
      t.out = .vrRsp p ((s.porch p).claimResult 256).vr.1 ((s.porch p).claimResult 256).vr.2 ::
        ((s.porch p).claimEffect p 256).2 := by
  have hstep := stepsPorch_of_nextPorch (i := .vrRd p .agree) (s := s) (p := p) rfl
  have hon := ((Porch.live_iff _).1 hl).1
  simpa [StepsPorch, hl, hon, Porch.voted] using hstep

/-- The search of the slots for a key finds the same offer whether empty slots are passed over or left out before. -/
theorem find?_slots (k : BitVec 97) (sl : List (Option PSlot)) :
    sl.find? (fun o => o.any fun x => x.key == k) = ((sl.filterMap id).find? fun x => x.key == k).map some := by
  induction sl with
  | nil => rfl
  | cons o sl ih =>
    cases o with
    | none => simpa using ih
    | some x =>
      simp only [List.find?_cons, List.filterMap_cons, id_eq, Option.any_some]
      split
      · rfl
      · exact ih

theorem exec_vrRd_best {s : State} {p : Byte} (hl : (s.porch p).live = true) {k : BitVec 97} {x : PSlot}
    (hb : (s.porch p).best = some k) (hroom : (s.porch p).journal.length < 8)
    (hx : (s.porch p).slots.find? (fun o => o.any fun x => x.key == k) = some (some x)) :
    ∃ t, exec (.vrRd p .agree) s = .next t ∧ s.onlyPorch t p ∧ t.porch p = (s.porch p).claimed k x ∧
      Out.vrRsp p (if rkAlarm k then 0b010 else 0b001) (rkKey k) ∈ t.out := by
  obtain ⟨t, ht, honly, hporch, hout⟩ := stepsPorch_vrRd hl
  have hok := Porch.claimResult_ok hb (.inr (rkPrio_lt k)) hroom
  have hfound : ((s.porch p).slots.filterMap id).find? (fun x => x.key == k) = some x := by
    rw [find?_slots] at hx
    obtain ⟨y, hy, hyx⟩ := Option.map_eq_some_iff.1 hx
    cases hyx
    exact hy
  rw [Porch.claimEffect_ok hok hfound] at hporch
  exact ⟨t, ht, honly, hporch, by simp [hout, hok, ClaimResult.vr]⟩

theorem exec_vrRd_none {s : State} {p : Byte} (hl : (s.porch p).live = true) (hb : (s.porch p).best = none) :
    ∃ t, exec (.vrRd p .agree) s = .next t ∧ s.onlyPorch t p ∧ t.porch p = s.porch p ∧ t.out = [.vrRsp p 0 0] := by
  obtain ⟨t, ht, honly, hporch, hout⟩ := stepsPorch_vrRd hl
  have hno : (s.porch p).claimResult 256 = .nothing := Porch.claimResult_nothing fun k hk => by simp [hb] at hk
  rw [Porch.claimEffect_nothing hno] at hporch hout
  exact ⟨t, ht, honly, hporch, by simp [hout, hno, ClaimResult.vr]⟩

theorem exec_vrRd_busy {s : State} {p : Byte} (hl : (s.porch p).live = true) {k : BitVec 97} (hb : (s.porch p).best = some k)
    (hfull : (s.porch p).journal.length = 8) :
    ∃ t, exec (.vrRd p .agree) s = .next t ∧ s.onlyPorch t p ∧ t.porch p = s.porch p ∧
      t.out = [.vrRsp p 0b011 0, .p2wEvent p .east .claimBusy, .p2wEvent p .west .claimBusy] := by
  obtain ⟨t, ht, honly, hporch, hout⟩ := stepsPorch_vrRd hl
  have hbusy := Porch.claimResult_busy hb (.inr (rkPrio_lt k)) hfull
  rw [Porch.claimEffect_busy hbusy] at hporch hout
  exact ⟨t, ht, honly, hporch, by simp [hout, hbusy, ClaimResult.vr, eventBeats]⟩

end Sys2Proof.Machine

namespace Sys2Proof

open Machine

/-- Settles O13: the offer that a claim takes is the best one of R124, by `Porch.best_of`; else the claim only answers. -/
theorem claimsTakeTheBestOffer : Obligations.ClaimsTakeTheBestOffer := by
  unfold Obligations.ClaimsTakeTheBestOffer
  refine ⟨⟨fun s p arg v k hl hw hv harg hheld hpres hmin hlim hroom => ?_, fun s p op arg v hl hw hv => ⟨fun harg => ⟨fun hnone => ?_,
    fun k hb hlim hfull => ?_⟩, fun herr => ?_⟩⟩, fun s p hl => ⟨fun k x hb hroom hx => ?_, fun hb => ?_, fun k hb hfull => ?_⟩⟩
  · exact exec_claim_best s p hl hw hv harg ((s.porch p).best_of k hl hheld hpres hmin) hlim hroom
  · exact exec_claim_none s p hl hw hv harg hnone
  · exact exec_claim_busy s p hl hw hv harg hb hlim hfull
  · obtain ⟨err, hstep⟩ := stepsPorch_claim s p op arg v
    have hop : op = 0 ∨ op = 1 := herr.imp_right And.left
    exact hstep.error hw hv (Porch.takes_claim hl hop arg) (herr.imp_right .inl)
  · exact exec_vrRd_best hl hb hroom hx
  · exact exec_vrRd_none hl hb
  · exact exec_vrRd_busy hl hb hfull

end Sys2Proof
end

section
/-! Completions, raises, and what becomes of any operation of a core (R130, R131, R140, R143). -/

namespace Sys2Proof.Machine

/-- An operation that is taken leaves what `takeOp` leaves, and its answers are driven. -/
theorem StepsPorch.taken {i : Instr} {s : State} {p : Byte} {o : WaitOp} {v : Vote} {err : Bool}
    (hstep : StepsPorch i s p fun q => q.coreOp p o v err) (hw : (s.porch p).waiting = []) (hv : v ≠ .split)
    (htakes : (s.porch p).takes o = true) {r : Porch × List Out} (hop : (s.porch p).takeOp p o = r) :
    ∃ t, exec i s = .next t ∧ s.onlyPorch t p ∧ t.porch p = r.1 ∧ ∀ x ∈ r.2, x ∈ t.out := by
  obtain ⟨fix, hcore⟩ := Porch.coreOp_taken hw htakes p hv err
  obtain ⟨t, ht, honly, hporch, hout⟩ := hstep.leaves hcore
  rw [hop] at hporch hout
  exact ⟨t, ht, honly, hporch, fun x hx => by simp [hout, hx]⟩

/-- An operation that is not taken waits behind those that wait. -/
theorem StepsPorch.waits {i : Instr} {s : State} {p : Byte} {o : WaitOp} {v : Vote} {err : Bool}
    (hstep : StepsPorch i s p fun q => q.coreOp p o v err) (hon : (s.porch p).on = true)
    (hwaits : (s.porch p).waiting ≠ [] ∨ (s.porch p).takes o = false) :
    ∃ t, exec i s = .next t ∧ s.onlyPorch t p ∧ t.out = [] ∧
      t.porch p = { s.porch p with waiting := (s.porch p).waiting ++ [(o, v, err)] } := by
  obtain ⟨t, ht, honly, hporch, hout⟩ := hstep.leaves (Porch.coreOp_of_waits hon hwaits p v err)
  exact ⟨t, ht, honly, hout, hporch⟩

theorem StepsPorch.waits_alone {i : Instr} {s : State} {p : Byte} {o : WaitOp} {v : Vote} {err : Bool}
    (hstep : StepsPorch i s p fun q => q.coreOp p o v err) (hon : (s.porch p).on = true) (hw : (s.porch p).waiting = [])
    (htakes : (s.porch p).takes o = false) :
    ∃ t, exec i s = .next t ∧ s.onlyPorch t p ∧ t.out = [] ∧ t.porch p = { s.porch p with waiting := [(o, v, err)] } := by
  simpa [hw] using hstep.waits hon (.inr htakes)

/-! ## COMPLETE and EOI -/

/-- The porch after a completion of the vector. -/
def Porch.completed (q : Porch) (key : Word) : Porch :=
  { q with
    journal := q.journal ++ [{ kind := .complete, accTick := 0, prio := 0, jseq := q.jseq, key := key }]
    jseq := q.jseq + 1
    journalled := true }

theorem Porch.completeEffect_fst (q : Porch) (p : Byte) (key : Word) : (q.completeEffect p key).1 = q.completed key := rfl

theorem exec_complete_taken (s : State) (p : Byte) (key : Word) {v : Vote} (hl : (s.porch p).live = true)
    (hw : (s.porch p).waiting = []) (hv : v ≠ .split) (hroom : (s.porch p).journal.length < 8) :
    (∃ t, exec (.complete p key v) s = .next t ∧ s.onlyPorch t p ∧ Out.cpRsp p 0b00 0 ∈ t.out ∧
      t.porch p = (s.porch p).completed key) ∧
    ∃ t, exec (.eoi p 0b00 key v) s = .next t ∧ s.onlyPorch t p ∧ t.porch p = (s.porch p).completed key := by
  obtain ⟨hcp, hvr⟩ := Porch.takes_complete hl key
  obtain ⟨err, hstep⟩ := stepsPorch_complete s p key v
  obtain ⟨t, ht, honly, hporch, hout⟩ := hstep.taken hw hv (hcp.trans (decide_eq_true hroom)) (Porch.takeOp_complete _ p key)
  obtain ⟨u, hu, hulonly, huporch, -⟩ :=
    (stepsPorch_eoi s p 0b00 key v).taken hw hv (hvr.trans (decide_eq_true hroom)) (Porch.takeOp_eoi _ p key)
  exact ⟨⟨t, ht, honly, hout _ (by simp [cpOut]), hporch⟩, u, hu, hulonly, huporch⟩

theorem exec_complete_waits (s : State) (p : Byte) (key : Word) (v : Vote) (hl : (s.porch p).live = true)
    (hw : (s.porch p).waiting = []) (hfull : (s.porch p).journal.length = 8) :
    (∃ t err, exec (.complete p key v) s = .next t ∧ s.onlyPorch t p ∧ t.out = [] ∧
      t.porch p = { s.porch p with waiting := [(.cp 0b10 key, v, err)] }) ∧
    ∃ t err, exec (.eoi p 0b00 key v) s = .next t ∧ s.onlyPorch t p ∧ t.out = [] ∧
      t.porch p = { s.porch p with waiting := [(.vr 0b00 key, v, err)] } := by
  obtain ⟨hcp, hvr⟩ := Porch.takes_complete hl key
  have hon := ((Porch.live_iff _).1 hl).1
  obtain ⟨err, hstep⟩ := stepsPorch_complete s p key v
  obtain ⟨t, ht⟩ := hstep.waits_alone hon hw (hcp.trans (decide_eq_false (by omega)))
  obtain ⟨u, hu⟩ := (stepsPorch_eoi s p 0b00 key v).waits_alone hon hw (hvr.trans (decide_eq_false (by omega)))
  exact ⟨⟨t, err, ht⟩, u, false, hu⟩

theorem exec_eoi_reserved (s : State) (p : Byte) {wa : BitVec 2} (hwa : 2 ≤ wa.toNat) (key : Word) {v : Vote}
    (hl : (s.porch p).live = true) (hw : (s.porch p).waiting = []) (hv : v ≠ .split) :
    ∃ t, exec (.eoi p wa key v) s = .next t ∧ s.onlyPorch t p ∧ t.porch p = s.porch p ∧
      ∀ w, Out.p2wEvent p w .portErr ∈ t.out := by
  obtain ⟨t, ht, honly, hporch, hout⟩ :=
    (stepsPorch_eoi s p wa key v).taken hw hv (Porch.takes_reserved hl hwa key) (Porch.takeOp_reserved _ p hwa key)
  exact ⟨t, ht, honly, hporch, fun w => hout _ (mem_eventBeats p _ w)⟩

/-! ## RAISE, and EOI at its address -/

/-- The operation that RAISE is at the porch's port. -/
def raiseOp (vectorRead : Prop) [Decidable vectorRead] (arg : Word) : WaitOp :=
  if vectorRead then .vr 0b01 arg else .cp 0b11 arg

theorem Porch.takes_raiseOp {q : Porch} (hl : q.live = true) {c : Prop} [Decidable c] {arg : Word}
    (h : c ∨ arg.extractLsb' 4 28 = 0#28) : q.takes (raiseOp c arg) = decide (q.raiseq.length < 4) := by
  obtain ⟨hcp, -, hvr⟩ := Porch.takes_raise hl arg
  unfold raiseOp
  split
  · exact hvr
  · exact hcp (h.resolve_left ‹_›)

theorem Porch.takeOp_raiseOp (q : Porch) (p : Byte) {c : Prop} [Decidable c] {arg : Word}
    (h : c ∨ arg.extractLsb' 4 28 = 0#28) : (q.takeOp p (raiseOp c arg)).1 = q.raiseEffect (arg.extractLsb' 0 4) := by
  unfold raiseOp
  split
  · rw [Porch.takeOp_eoiRaise]
  · rw [Porch.takeOp_raise q p (h.resolve_left ‹_›)]

theorem exec_raise_taken (s : State) (p : Byte) {arg : Word} {v : Vote} (hl : (s.porch p).live = true)
    (hw : (s.porch p).waiting = []) (hv : v ≠ .split)
    (harg : portGenOf s.portGen p.toNat = 0b01 ∨ arg.extractLsb' 4 28 = 0#28) (hroom : (s.porch p).raiseq.length < 4) :
    ∃ t, exec (.raise p arg v) s = .next t ∧ s.onlyPorch t p ∧ t.porch p = (s.porch p).raiseEffect (arg.extractLsb' 0 4) := by
  obtain ⟨err, hstep⟩ := stepsPorch_raise s p arg v
  obtain ⟨t, ht, honly, hporch, -⟩ := hstep.taken hw hv ((Porch.takes_raiseOp hl harg).trans (decide_eq_true hroom)) rfl
  exact ⟨t, ht, honly, hporch.trans (Porch.takeOp_raiseOp _ p harg)⟩

theorem exec_raise_waits (s : State) (p : Byte) {arg : Word} (v : Vote) (hl : (s.porch p).live = true)
    (hw : (s.porch p).waiting = []) (harg : portGenOf s.portGen p.toNat = 0b01 ∨ arg.extractLsb' 4 28 = 0#28)
    (hfull : (s.porch p).raiseq.length = 4) :
    ∃ t o err, exec (.raise p arg v) s = .next t ∧ s.onlyPorch t p ∧ t.out = [] ∧
      t.porch p = { s.porch p with waiting := [(o, v, err)] } := by
  obtain ⟨err, hstep⟩ := stepsPorch_raise s p arg v
  obtain ⟨t, ht⟩ := hstep.waits_alone ((Porch.live_iff _).1 hl).1 hw ((Porch.takes_raiseOp hl harg).trans (decide_eq_false (by omega)))
  exact ⟨t, _, err, ht⟩

theorem exec_raise_error (s : State) (p : Byte) {arg : Word} {v : Vote} (hl : (s.porch p).live = true)
    (hw : (s.porch p).waiting = []) (hv : v ≠ .split) (hport : portGenOf s.portGen p.toNat ≠ 0b01)
    (harg : arg.extractLsb' 4 28 ≠ 0#28) :
    ∃ t, exec (.raise p arg v) s = .next t ∧ s.onlyPorch t p ∧ t.porch p = s.porch p ∧ Out.cpRsp p 0b11 0 ∈ t.out ∧
      ∀ w, Out.p2wEvent p w .portErr ∈ t.out := by
  obtain ⟨err, hstep⟩ := stepsPorch_raise s p arg v
  rw [if_neg hport] at hstep
  exact hstep.error hw hv ((Porch.takes_raise hl arg).2.1 harg) (.inr (.inr ⟨rfl, harg⟩))

theorem exec_eoi_raise (s : State) (p : Byte) {arg : Word} {v : Vote} (hl : (s.porch p).live = true)
    (hw : (s.porch p).waiting = []) (hv : v ≠ .split) (hroom : (s.porch p).raiseq.length < 4) :
    ∃ t, exec (.eoi p 0b01 arg v) s = .next t ∧ s.onlyPorch t p ∧ t.porch p = (s.porch p).raiseEffect (arg.extractLsb' 0 4) := by
  have htakes := (Porch.takes_raise hl arg).2.2
  obtain ⟨t, ht, honly, hporch, -⟩ :=
    (stepsPorch_eoi s p 0b01 arg v).taken hw hv (htakes.trans (decide_eq_true hroom)) (Porch.takeOp_eoiRaise _ p arg)
  exact ⟨t, ht, honly, hporch⟩

/-! ## Any operation of a port -/

/-- An operation of a port and what it is at the port, R130. -/
theorem stepsPorch_portOp {s : State} {p : Byte} {op wa : BitVec 2} {arg : Word} {v : Vote} {i : Instr} {o : WaitOp}
    (h : (i, o) ∈ [(Instr.claim p op arg v, WaitOp.cp op arg), (.complete p arg v, .cp 0b10 arg), (.eoi p wa arg v, .vr wa arg),
      (.raise p arg v, if portGenOf s.portGen p.toNat = 0b01 then .vr 0b01 arg else .cp 0b11 arg)]) :
    ∃ err, StepsPorch i s p fun q => q.coreOp p o v err := by
  simp only [List.mem_cons, List.not_mem_nil, or_false, Prod.mk.injEq] at h
  rcases h with ⟨rfl, rfl⟩ | ⟨rfl, rfl⟩ | ⟨rfl, rfl⟩ | ⟨rfl, rfl⟩
  · exact stepsPorch_claim s p op arg v
  · exact stepsPorch_complete s p arg v
  · exact ⟨false, stepsPorch_eoi s p wa arg v⟩
  · exact stepsPorch_raise s p arg v

end Sys2Proof.Machine

namespace Sys2Proof

open Machine

/-- Settles O14: each operation is `Porch.coreOp` at its porch, which takes it, holds it, or drops it while the domain is off. -/
theorem completionsAndRaisesAreQueued : Obligations.CompletionsAndRaisesAreQueued := by
  unfold Obligations.CompletionsAndRaisesAreQueued
  refine ⟨fun s p key v hl hw hv => ⟨fun hroom => exec_complete_taken s p key hl hw hv hroom,
      fun hfull => exec_complete_waits s p key v hl hw hfull, fun wa hwa => exec_eoi_reserved s p hwa key hl hw hv⟩,
    fun s p arg v hl hw hv => ⟨fun harg => ⟨fun hroom => exec_raise_taken s p hl hw hv harg hroom,
      fun hfull => exec_raise_waits s p v hl hw harg hfull⟩, fun hroom => exec_eoi_raise s p hl hw hv hroom,
      fun hport harg => exec_raise_error s p hl hw hv hport harg⟩, fun s p op wa arg v i o hio => ?_⟩
  obtain ⟨err, hstep⟩ := stepsPorch_portOp hio
  refine ⟨fun hoff => hstep.leaves (Porch.coreOp_of_off hoff p o v err), fun hon hwaits => ?_, fun hw htakes hsplit => ?_⟩
  · obtain ⟨t, ht⟩ := hstep.waits hon hwaits
    exact ⟨t, err, ht⟩
  · subst hsplit
    obtain ⟨t, ht, honly, hporch, -⟩ := hstep
    exact ⟨t, ht, honly, hporch.trans (Porch.coreOp_split hw htakes p err)⟩

end Sys2Proof
end

section
/-! What a beat from a wing does to a porch: the claim records, the accepted wing, REFUSE, and the replay (R136 to R138). -/

namespace Sys2Proof.Machine

/-! ## Beats that a porch takes, and that it does not -/

/-- What a beat of a wing with vote `v` and effect `f` does at a porch (R140, R143). -/
def Porch.hear (q : Porch) (p : Byte) (v : Vote) (f : Porch → Porch × List Out) : Porch × List Out :=
  if q.hears then q.voted p v f else (q, [])

theorem Porch.hear_of_deaf {q : Porch} (h : q.on = false ∨ q.fault = true) (p : Byte) (v : Vote) (f : Porch → Porch × List Out) :
    q.hear p v f = (q, []) := by
  have hno : ¬ q.hears = true := by rcases h with h | h <;> simp [Porch.hears, h]
  rw [Porch.hear, if_neg hno]

theorem Porch.hear_split {q : Porch} (h : q.hears = true) (p : Byte) (f : Porch → Porch × List Out) :
    q.hear p .split f = ({ q with fault := true }, []) := by
  rw [Porch.hear, if_pos h]
  rfl

theorem Porch.hear_agree {q : Porch} (h : q.hears = true) (p : Byte) (f : Porch → Porch × List Out) :
    q.hear p .agree f = f q := by
  rw [Porch.hear, if_pos h]
  rfl

theorem stepsPorch_claimRaise (s : State) (p : Byte) (w : WingId) (c : Word) (v : Vote) :
    StepsPorch (.claimRaise p w c v) s p fun q => q.hear p v fun q => q.fromWing p w c fun q => (q, []) :=
  stepsPorch_of_nextPorch rfl

/-- A porch that takes no beats stands, and drives nothing. -/
theorem StepsPorch.deaf {i : Instr} {s : State} {p : Byte} {v : Vote} {f : Porch → Porch × List Out}
    (hstep : StepsPorch i s p fun q => q.hear p v f) (h : (s.porch p).on = false ∨ (s.porch p).fault = true) :
    ∃ t, exec i s = .next t ∧ s.onlyPorch t p ∧ t.porch p = s.porch p ∧ t.out = [] :=
  hstep.leaves (Porch.hear_of_deaf h p v f)

/-- A beat whose reads split puts the porch in FAULT. -/
theorem StepsPorch.split {i : Instr} {s : State} {p : Byte} {f : Porch → Porch × List Out}
    (hstep : StepsPorch i s p fun q => q.hear p .split f) (h : (s.porch p).hears = true) :
    ∃ t, exec i s = .next t ∧ s.onlyPorch t p ∧ t.porch p = { s.porch p with fault := true } ∧ t.out = [] :=
  hstep.leaves (Porch.hear_split h p f)

/-! ## Claim records (R136) -/

/-- A porch without its claim records. -/
def Porch.noClaims (q : Porch) : Porch := { q with claimE := none, claimW := none }

@[simp] theorem Porch.noteClaim_noClaims (q : Porch) (w : WingId) (c : Word) : (q.noteClaim w c).noClaims = q.noClaims := by
  unfold Porch.noteClaim
  extract_lets keep
  split
  · rfl
  · cases w <;> rfl

/-- The record takes a number that is not below it. -/
theorem Porch.claimOf_noteClaim {q : Porch} {w : WingId} {c : Word} (h : ∀ d, q.claimOf w = some d → d.toNat ≤ c.toNat) :
    (q.noteClaim w c).claimOf w = some c ∧ (q.noteClaim w c).claimOf (otherWing w) = q.claimOf (otherWing w) := by
  unfold Porch.noteClaim
  cases hc : q.claimOf w with
  | none => cases w <;> exact ⟨rfl, rfl⟩
  | some d =>
    by_cases hle : c.toNat ≤ d.toNat
    · have heq : d = c := BitVec.eq_of_toNat_eq (Nat.le_antisymm (h d hc) hle)
      simp [hc, heq]
    · simp only [hle, decide_false, Bool.false_eq_true, if_false]
      cases w <;> exact ⟨rfl, rfl⟩

/-! ## The accepted wing (R136) -/

theorem Porch.accepted_of_higher {q : Porch} {w : WingId} {c : Word} (hw : q.claimOf w = some c)
    (ho : ∀ d, q.claimOf (otherWing w) = some d → d.toNat < c.toNat) : q.accepted = some w := by
  unfold Porch.accepted
  cases w with
  | east =>
    cases hd : q.claimW with
    | none => simp [show q.claimE = some c from hw]
    | some d => simp [show q.claimE = some c from hw, Nat.not_lt.2 (ho d hd).le]
  | west =>
    cases hd : q.claimE with
    | none => simp [show q.claimW = some c from hw]
    | some d => simp [show q.claimW = some c from hw, ho d hd]

theorem Porch.topClaim_of_higher {q : Porch} {w : WingId} {c : Word} (hw : q.claimOf w = some c)
    (ho : ∀ d, q.claimOf (otherWing w) = some d → d.toNat < c.toNat) : q.topClaim = c := by
  unfold Porch.topClaim
  cases w with
  | east =>
    cases hd : q.claimW with
    | none => simp [show q.claimE = some c from hw]
    | some d => simp [show q.claimE = some c from hw, Nat.not_lt.2 (ho d hd).le]
  | west =>
    cases hd : q.claimE with
    | none => simp [show q.claimW = some c from hw]
    | some d => simp [show q.claimW = some c from hw, ho d hd]

/-- A beat whose claim is the porch's highest has its effect, behind the replay to a wing that is newly accepted. -/
theorem Porch.fromWing_accepted {q : Porch} {w : WingId} {c : Word} (hown : ∀ d, q.claimOf w = some d → d.toNat ≤ c.toNat)
    (ho : ∀ d, q.claimOf (otherWing w) = some d → d.toNat < c.toNat) (p : Byte) (f : Porch → Porch × List Out) :
    q.fromWing p w c f =
      andThen (q.noteClaim w c, if q.accepted = some w then [] else (q.noteClaim w c).replay p w) f := by
  obtain ⟨hnew, hother⟩ := Porch.claimOf_noteClaim hown
  unfold Porch.fromWing
  rw [if_pos (Porch.accepted_of_higher hnew (hother ▸ ho))]

/-- A beat whose claim is below the other wing's is answered REFUSE with the higher one. -/
theorem Porch.fromWing_refused {q : Porch} {w : WingId} {c d : Word} (hown : ∀ d, q.claimOf w = some d → d.toNat ≤ c.toNat)
    (hd : q.claimOf (otherWing w) = some d) (hlt : c.toNat < d.toNat) (p : Byte) (f : Porch → Porch × List Out) :
    q.fromWing p w c f = (q.noteClaim w c, [.p2wRefuse p w d]) ∧ (q.noteClaim w c).accepted = some (otherWing w) := by
  obtain ⟨hnew, hother⟩ := Porch.claimOf_noteClaim hown
  have hthem : (q.noteClaim w c).claimOf (otherWing w) = some d := hother.trans hd
  have hus : ∀ e, (q.noteClaim w c).claimOf (otherWing (otherWing w)) = some e → e.toNat < d.toNat := by
    rw [otherWing_otherWing, hnew]
    rintro e he
    cases he
    exact hlt
  have hacc := Porch.accepted_of_higher hthem hus
  have hne : ¬ (q.noteClaim w c).accepted = some w := by
    rw [hacc]
    exact fun h => otherWing_ne w (Option.some.inj h)
  refine ⟨?_, hacc⟩
  unfold Porch.fromWing
  rw [if_neg hne, Porch.topClaim_of_higher hthem hus]

/-! ## The replay (R138) -/

/-- Entries from the oldest JSEQ to the newest, as seen from the porch's own `base`. -/
def InJseqOrder (base : BitVec 16) (es : List Entry) : Prop :=
  es.Pairwise fun a b => (base - b.jseq).toNat ≤ (base - a.jseq).toNat

theorem insertEntry_perm (base : BitVec 16) (e : Entry) (l : List Entry) : (insertEntry base e l).Perm (e :: l) := by
  induction l with
  | nil => exact List.Perm.refl _
  | cons x xs ih =>
    unfold insertEntry
    split
    · exact List.Perm.refl _
    · exact (ih.cons x).trans (List.Perm.swap e x xs)

theorem insertEntry_inOrder (base : BitVec 16) (e : Entry) {l : List Entry} (h : InJseqOrder base l) :
    InJseqOrder base (insertEntry base e l) := by
  induction l with
  | nil => exact List.pairwise_singleton _ e
  | cons x xs ih =>
    obtain ⟨hx, hxs⟩ := List.pairwise_cons.1 h
    unfold insertEntry
    split
    next hlt =>
      refine List.pairwise_cons.2 ⟨fun y hy => ?_, h⟩
      rcases List.mem_cons.1 hy with rfl | hy
      · exact hlt.le
      · exact (hx y hy).trans hlt.le
    next hge =>
      refine List.pairwise_cons.2 ⟨fun y hy => ?_, ih hxs⟩
      rcases List.mem_cons.1 ((insertEntry_perm base e xs).mem_iff.1 hy) with rfl | hy
      · exact Nat.le_of_not_lt hge
      · exact hx y hy

theorem foldl_insertEntry (base : BitVec 16) (es l : List Entry) (h : InJseqOrder base l) :
    (es.foldl (fun l e => insertEntry base e l) l).Perm (es ++ l) ∧
      InJseqOrder base (es.foldl (fun l e => insertEntry base e l) l) := by
  induction es generalizing l with
  | nil => exact ⟨List.Perm.refl _, h⟩
  | cons e es ih =>
    obtain ⟨hperm, hord⟩ := ih _ (insertEntry_inOrder base e h)
    exact ⟨hperm.trans (((insertEntry_perm base e l).append_left es).trans List.perm_middle), hord⟩

/-- The replay names every entry that the porch holds, once, in the order of JSEQ. -/
theorem Porch.entriesInOrder_spec (q : Porch) :
    q.entriesInOrder.Perm (q.journal ++ q.rets) ∧ InJseqOrder q.jseq q.entriesInOrder := by
  have h := foldl_insertEntry q.jseq (q.journal ++ q.rets) [] List.Pairwise.nil
  rwa [List.append_nil] at h

/-- The replay does not depend on the claim records. -/
theorem Porch.replay_noteClaim (q : Porch) (p : Byte) (w x : WingId) (c : Word) :
    (q.noteClaim w c).replay p x = q.replay p x := by
  show (q.noteClaim w c).noClaims.replay p x = q.noClaims.replay p x
  rw [Porch.noteClaim_noClaims]

/-! ## CLAIM_RAISE -/

theorem exec_claimRaise_accepted (s : State) (p : Byte) {w : WingId} {c : Word} (hears : (s.porch p).hears = true)
    (hown : ∀ d, (s.porch p).claimOf w = some d → d.toNat < c.toNat)
    (ho : ∀ d, (s.porch p).claimOf (otherWing w) = some d → d.toNat < c.toNat) :
    ∃ t, exec (.claimRaise p w c .agree) s = .next t ∧ s.onlyPorch t p ∧ t.porch p = (s.porch p).noteClaim w c ∧
      t.out = if (s.porch p).accepted = some w then [] else (s.porch p).replay p w := by
  have hle : ∀ d, (s.porch p).claimOf w = some d → d.toNat ≤ c.toNat := fun d hd => (hown d hd).le
  obtain ⟨t, ht, honly, hporch, hout⟩ := (stepsPorch_claimRaise s p w c .agree).leaves
    ((Porch.hear_agree hears p _).trans (Porch.fromWing_accepted hle ho p _))
  refine ⟨t, ht, honly, hporch, hout.trans ?_⟩
  rw [Porch.replay_noteClaim]
  exact List.append_nil _

theorem exec_claimRaise_refused (s : State) (p : Byte) {w : WingId} {c d : Word} (hears : (s.porch p).hears = true)
    (hown : ∀ d, (s.porch p).claimOf w = some d → d.toNat < c.toNat)
    (hd : (s.porch p).claimOf (otherWing w) = some d) (hlt : c.toNat < d.toNat) :
    ∃ t, exec (.claimRaise p w c .agree) s = .next t ∧ s.onlyPorch t p ∧ t.porch p = (s.porch p).noteClaim w c ∧
      (t.porch p).accepted = some (otherWing w) ∧ t.out = [.p2wRefuse p w d] := by
  have hle : ∀ d, (s.porch p).claimOf w = some d → d.toNat ≤ c.toNat := fun d hd => (hown d hd).le
  obtain ⟨heff, hacc⟩ := Porch.fromWing_refused hle hd hlt p fun q => (q, [])
  obtain ⟨t, ht, honly, hporch, hout⟩ := (stepsPorch_claimRaise s p w c .agree).leaves ((Porch.hear_agree hears p _).trans heff)
  exact ⟨t, ht, honly, hporch, hporch ▸ hacc, hout⟩

end Sys2Proof.Machine

namespace Sys2Proof

open Machine

/-- Settles O15: the sender's record takes the claim, the higher of the two records is the accepted wing's, and the replay is the
entries by JSEQ. -/
theorem claimRaiseSetsTheRecord : Obligations.ClaimRaiseSetsTheRecord := by
  unfold Obligations.ClaimRaiseSetsTheRecord
  refine ⟨fun s p w c => ⟨fun hdeaf v => (stepsPorch_claimRaise s p w c v).deaf hdeaf,
    fun hears => (stepsPorch_claimRaise s p w c .split).split hears, fun hears hall => ?_⟩, fun s p w c hears hne hown ho => ?_⟩
  · have hown : ∀ d, (s.porch p).claimOf w = some d → d.toNat < c.toNat := by
      rintro d hd
      simpa [hd] using hall
    have hle : ∀ d, (s.porch p).claimOf w = some d → d.toNat ≤ c.toNat := fun d hd => (hown d hd).le
    obtain ⟨hnew, hother⟩ := Porch.claimOf_noteClaim hle
    refine ⟨fun ho => ?_, fun d hd hlt => ?_⟩
    · obtain ⟨t, ht, honly, hporch, hout⟩ := exec_claimRaise_accepted s p hears hown ho
      rw [← hporch] at hnew hother
      refine ⟨t, ht, honly, hnew, Porch.accepted_of_higher hnew (hother ▸ ho), ?_, fun hacc => ?_⟩
      · rw [hporch]
        exact Porch.noteClaim_noClaims _ w c
      · simp [hout, hacc, Porch.replay]
    · obtain ⟨t, ht, honly, hporch, hacc, hout⟩ := exec_claimRaise_refused s p hears hown hd hlt
      refine ⟨t, ht, honly, hporch ▸ hnew, hacc, ?_, hout⟩
      rw [hporch]
      exact Porch.noteClaim_noClaims _ w c
  · obtain ⟨t, ht, -, -, hout⟩ := exec_claimRaise_accepted s p hears hown ho
    obtain ⟨hperm, hord⟩ := (s.porch p).entriesInOrder_spec
    exact ⟨t, _, ht, hperm, hord, hout.trans (if_neg hne)⟩

end Sys2Proof
end

section
/-! Words that are joined from fields give each field back (R116, R240 to R247). -/

namespace Sys2Proof.Machine

/-! ## Fields of a joined word

Stated for `BitVec.append`, to which `++` unfolds: the widths of a joined word then need not be written as sums. -/

theorem extractLsb'_append_high {v w s len : Nat} (x : BitVec v) (y : BitVec w) (h : w ≤ s) :
    (BitVec.append x y).extractLsb' s len = x.extractLsb' (s - w) len := BitVec.extractLsb'_append_eq_of_le h

theorem extractLsb'_append_low {v w s len : Nat} (x : BitVec v) (y : BitVec w) (h : s + len ≤ w) :
    (BitVec.append x y).extractLsb' s len = y.extractLsb' s len := BitVec.extractLsb'_append_eq_of_add_le h

theorem getLsbD_append_high {v w i : Nat} (x : BitVec v) (y : BitVec w) (h : w ≤ i) :
    (BitVec.append x y).getLsbD i = x.getLsbD (i - w) :=
  BitVec.getLsbD_append.trans (if_neg (Nat.not_lt.2 h))

theorem getLsbD_append_low {v w i : Nat} (x : BitVec v) (y : BitVec w) (h : i < w) :
    (BitVec.append x y).getLsbD i = y.getLsbD i :=
  BitVec.getLsbD_append.trans (if_pos h)

theorem getLsbD_bit (b : Bool) : (bit b).getLsbD 0 = b := by cases b <;> rfl

/-- A whole field, whose width is written in any way. -/
theorem extractLsb'_whole {w : Nat} (x : BitVec w) : x.extractLsb' 0 w = x := BitVec.extractLsb'_eq_self

end Sys2Proof.Machine

namespace Sys2Proof

open Machine

/-! ## Entries -/

theorem EntryKind.ofCode_code (k : EntryKind) : EntryKind.ofCode k.code = some k := by cases k <;> rfl

theorem Entry.decode_encode (e : Entry) : Entry.decode e.encode = some e := by
  simp (disch := decide) only [Entry.decode, Entry.encode, HAppend.hAppend, extractLsb'_append_high, extractLsb'_append_low,
    Nat.reduceSub, extractLsb'_whole, EntryKind.ofCode_code, Option.map_some]

/-! ## Records -/

theorem Rec.decode_encode (r : Rec) : Rec.decode r.encode = some r := by
  cases r with
  | nop => rfl
  | claim r | complete r =>
    have hentry : Entry.decode r.entry.encode = some r.entry := r.entry.decode_encode
    simp (disch := decide) only [Rec.decode, Rec.encode, decodeJournal, HAppend.hAppend, extractLsb'_append_high,
      extractLsb'_append_low, getLsbD_append_high, getLsbD_append_low, getLsbD_bit, Nat.reduceAdd, Nat.reduceSub, extractLsb'_whole,
      BitVec.reduceToNat, hentry, Option.map_some]
  | _ =>
    simp (disch := decide) only [Rec.decode, Rec.encode, decodeCfg, decodeSteer, decodeRingpos, decodeResync, HAppend.hAppend,
      extractLsb'_append_high, extractLsb'_append_low, getLsbD_append_high, getLsbD_append_low, getLsbD_bit, Nat.reduceAdd,
      Nat.reduceSub, extractLsb'_whole, BitVec.reduceToNat, BitVec.reduceExtractLsb']

/-- Settles O5: every field is read where it was joined. -/
theorem recordsRoundTrip : Obligations.RecordsRoundTrip :=
  ⟨Rec.decode_encode, Entry.decode_encode⟩

end Sys2Proof
end

section
/-! INIT and RELEASE at a porch, and the offers that are returned (R122, R126, R142). -/

namespace Sys2Proof.Machine

/-! ## Returned offers -/

/-- The RETURN entries of offers that are returned one after the other, from JSEQ `j` on. -/
def returnEntries : BitVec 16 → List PSlot → List Entry
  | _, [] => []
  | j, x :: xs =>
      { kind := .ret, accTick := x.rtick.extractLsb' 0 6, prio := rkPrio x.key, jseq := j, key := rkKey x.key } ::
        returnEntries (j + 1) xs

theorem returnEntries_keys (j : BitVec 16) (l : List PSlot) : (returnEntries j l).map Entry.key = l.map fun x => rkKey x.key := by
  induction l generalizing j with
  | nil => rfl
  | cons x l ih => exact congrArg (rkKey x.key :: ·) (ih (j + 1))

/-- The slots without the offers of these keys. -/
def dropKeys (ks : List (BitVec 97)) (sl : List (Option PSlot)) : List (Option PSlot) :=
  sl.map fun o => o.filter fun x => !decide (x.key ∈ ks)

theorem dropKeys_nil (sl : List (Option PSlot)) : dropKeys [] sl = sl := by
  have hid (o : Option PSlot) : o.filter (fun _ => true) = o := by cases o <;> rfl
  simp [dropKeys, hid]

theorem dropKeys_dropOffer (k : BitVec 97) (ks : List (BitVec 97)) (sl : List (Option PSlot)) :
    dropKeys ks (dropOffer k sl) = dropKeys (k :: ks) sl := by
  simp only [dropKeys, dropOffer, List.map_map]
  refine List.map_congr_left fun o _ => ?_
  cases o with
  | none => rfl
  | some x => by_cases h : x.key = k <;> simp [h, Option.filter_some]

/-- Offers that are returned leave their slots, and their entries join the return list in order (R126). -/
theorem Porch.giveBackAll_fst (p : Byte) (l : List PSlot) (q : Porch) :
    (Porch.giveBackAll p l q).1 =
      { q with
        slots := dropKeys (l.map PSlot.key) q.slots
        rets := q.rets ++ returnEntries q.jseq l
        jseq := q.jseq + BitVec.ofNat 16 l.length
        journalled := q.journalled || !l.isEmpty } := by
  induction l generalizing q with
  | nil => simp [Porch.giveBackAll, returnEntries, dropKeys_nil]
  | cons x l ih =>
    simp only [Porch.giveBackAll, ih]
    simp [Porch.giveBack, Porch.newEntry, returnEntries, dropKeys_dropOffer, BitVec.add_assoc, BitVec.ofNat_add,
      BitVec.add_comm 1#16]

theorem keysOf_dropKeys_all (sl : List (Option PSlot)) : keysOf (dropKeys (keysOf sl) sl) = [] := by
  refine List.filterMap_eq_nil_iff.2 fun o ho => ?_
  obtain ⟨o', ho', rfl⟩ := List.mem_map.1 ho
  cases o' with
  | none => rfl
  | some x =>
    have hmem : x.key ∈ keysOf sl := List.mem_filterMap.2 ⟨some x, ho', rfl⟩
    simp [Option.filter_some, hmem]

theorem Porch.returnAll_fst (q : Porch) (p : Byte) :
    (q.returnAll p).1.held = [] ∧ (q.returnAll p).1.rets.map Entry.key = q.rets.map Entry.key ++ q.held.map rkKey ∧
      (q.returnAll p).1.jseq = q.jseq + BitVec.ofNat 16 q.held.length ∧ (q.returnAll p).1.journal = q.journal := by
  have hkeys : q.held = (q.slots.filterMap id).map PSlot.key := keysOf_eq_map q.slots
  rw [Porch.returnAll, Porch.giveBackAll_fst]
  refine ⟨?_, ?_, ?_, rfl⟩
  · rw [Porch.held_eq]
    simp only [← hkeys]
    exact keysOf_dropKeys_all q.slots
  · rw [List.map_append, returnEntries_keys, hkeys, List.map_map]
    rfl
  · rw [hkeys, List.length_map]

/-- Returning offers leaves what a header has set. -/
theorem Porch.giveBackAll_header (p : Byte) (l : List PSlot) (q : Porch) :
    (Porch.giveBackAll p l q).1.rpHdr = q.rpHdr ∧ (Porch.giveBackAll p l q).1.shift = q.shift ∧
      (Porch.giveBackAll p l q).1.coreEn = q.coreEn ∧ q.rets <+: (Porch.giveBackAll p l q).1.rets := by
  rw [Porch.giveBackAll_fst]
  exact ⟨rfl, rfl, rfl, List.prefix_append _ _⟩

/-! ## Offers of a release -/

/-- An offer takes nothing from the return list. -/
theorem Porch.offer_rets (q : Porch) (p : Byte) (taken : Option (BitVec 2)) (rtick : Byte) (k : BitVec 97) :
    q.rets <+: (q.offer p taken rtick k).1.rets := by
  unfold Porch.offer
  extract_lets x
  split
  · exact List.prefix_refl _
  · split
    · exact List.prefix_refl _
    · split
      · split
        · exact List.prefix_refl _
        · exact List.prefix_append _ _
      · exact List.prefix_refl _

/-- Offers leave the header, the journal and the operations that wait, and take nothing from the return list. -/
theorem Porch.offers_keeps (p : Byte) (taken : Option (BitVec 2)) (rtick : Byte) (ks : List (BitVec 97)) (q : Porch) :
    (Porch.offers p taken rtick ks q).1.rpHdr = q.rpHdr ∧ (Porch.offers p taken rtick ks q).1.shift = q.shift ∧
      (Porch.offers p taken rtick ks q).1.coreEn = q.coreEn ∧ (Porch.offers p taken rtick ks q).1.journal = q.journal ∧
      (Porch.offers p taken rtick ks q).1.waiting = q.waiting ∧ q.rets <+: (Porch.offers p taken rtick ks q).1.rets := by
  induction ks generalizing q with
  | nil => exact ⟨rfl, rfl, rfl, rfl, rfl, List.prefix_refl _⟩
  | cons k ks ih =>
    obtain ⟨hrp, hshift, hen, hjournal, hwaiting, hrets⟩ := ih (q.offer p taken rtick k).1
    exact ⟨hrp.trans (by simp), hshift.trans (by simp), hen.trans (by simp), hjournal.trans (by simp), hwaiting.trans (by simp),
      (q.offer_rets p taken rtick k).trans hrets⟩

theorem Porch.drain_of_idle {q : Porch} (h : q.waiting = []) (p : Byte) : q.drain p = (q, []) := by
  rw [Porch.drain, h]
  rfl

/-! ## The release header (R122) -/

theorem releaseHdr_fields (claim : Word) (commit : BitVec 16) (rp : BitVec 9) (sh : BitVec 3) (en : Bool) (n : BitVec 3) (tick : Tick) :
    (releaseHdr claim commit rp sh en n tick).extractLsb' 96 32 = claim ∧
    (releaseHdr claim commit rp sh en n tick).extractLsb' 80 16 = commit ∧
    (releaseHdr claim commit rp sh en n tick).extractLsb' 71 9 = rp ∧
    (releaseHdr claim commit rp sh en n tick).extractLsb' 68 3 = sh ∧
    (releaseHdr claim commit rp sh en n tick).getLsbD 67 = en ∧
    (releaseHdr claim commit rp sh en n tick).extractLsb' 64 3 = n ∧
    (releaseHdr claim commit rp sh en n tick).extractLsb' 0 8 = tick.extractLsb' 0 8 := by
  simp (disch := decide) only [releaseHdr, HAppend.hAppend, extractLsb'_append_high, extractLsb'_append_low, getLsbD_append_high,
    getLsbD_append_low, getLsbD_bit, Nat.reduceSub, extractLsb'_whole, and_self]

/-- Steps 2 to 4 of R122: committed entries leave, the header is taken, and with CORE_EN of 0 every held offer is returned. -/
def Porch.takeHeader (q : Porch) (p : Byte) (commit : BitVec 16) (rp : BitVec 9) (sh : BitVec 3) (en : Bool) : Porch × List Out :=
  let q1 : Porch := { q.dropCommitted commit with rpHdr := rp, shift := sh, coreEn := en }
  if en then (q1, []) else q1.returnAll p

theorem Porch.takeHeader_enabled (q : Porch) (p : Byte) (commit : BitVec 16) (rp : BitVec 9) (sh : BitVec 3) :
    q.takeHeader p commit rp sh true = ({ q.dropCommitted commit with rpHdr := rp, shift := sh, coreEn := true }, []) := rfl

theorem Porch.takeHeader_keeps (q : Porch) (p : Byte) (commit : BitVec 16) (rp : BitVec 9) (sh : BitVec 3) (en : Bool) :
    (q.takeHeader p commit rp sh en).1.rpHdr = rp ∧ (q.takeHeader p commit rp sh en).1.shift = sh ∧
      (q.takeHeader p commit rp sh en).1.coreEn = en ∧
      (q.takeHeader p commit rp sh en).1.journal = (q.dropCommitted commit).journal ∧
      (q.takeHeader p commit rp sh en).1.waiting = q.waiting ∧
      (q.dropCommitted commit).rets <+: (q.takeHeader p commit rp sh en).1.rets := by
  cases en with
  | true => exact ⟨rfl, rfl, rfl, rfl, rfl, List.prefix_refl _⟩
  | false =>
    obtain ⟨hrp, hshift, hen, hrets⟩ := Porch.giveBackAll_header p (q.slots.filterMap id)
      { q.dropCommitted commit with rpHdr := rp, shift := sh, coreEn := false }
    exact ⟨hrp, hshift, hen, by simp [Porch.takeHeader, Porch.returnAll], by simp [Porch.takeHeader, Porch.returnAll], hrets⟩

/-- A release from the accepted wing at a porch where no operation waits: the header, the offers, and ACCEPT_RSP. -/
theorem exec_releaseHeader {s : State} {p : Byte} {w : WingId} {claim : Word} (hears : (s.porch p).hears = true)
    (hup : (s.porch p).up = true) (hwaiting : (s.porch p).waiting = []) (hclaim : (s.porch p).claimOf w = some claim)
    (hacc : (s.porch p).accepted = some w) (commit : BitVec 16) (rp : BitVec 9) (sh : BitVec 3) (en : Bool) (n : BitVec 3)
    (tick : Tick) (os : List (BitVec 97)) (taken : Option (BitVec 2)) :
    ∃ t r a, exec (.releaseHeader p w (releaseHdr claim commit rp sh en n tick) os ⟨.agree, taken⟩) s = .next t ∧
      s.onlyPorch t p ∧ r = (s.porch p).takeHeader p commit rp sh en ∧
      a = Porch.offers p ((s.porch p).emptied taken) (tick.extractLsb' 0 8) (os.take n.toNat) r.1 ∧ t.porch p = a.1 ∧
      t.out = r.2 ++ a.2.1 ++ [.p2wAccept p w (bitsOf a.2.2) (a.1.held.map rkKey)] := by
  obtain ⟨hfclaim, hfcommit, hfrp, hfsh, hfen, hfn, hftick⟩ := releaseHdr_fields claim commit rp sh en n tick
  have hnote : (s.porch p).noteClaim w claim = s.porch p := by simp [Porch.noteClaim, hclaim]
  have hidle : (Porch.offers p ((s.porch p).emptied taken) (tick.extractLsb' 0 8) (os.take n.toNat)
      ((s.porch p).takeHeader p commit rp sh en).1).1.waiting = [] :=
    (Porch.offers_keeps p _ _ _ _).2.2.2.2.1.trans (((s.porch p).takeHeader_keeps p commit rp sh en).2.2.2.2.1.trans hwaiting)
  have hstep := stepsPorch_of_nextPorch (s := s) (p := p)
    (i := .releaseHeader p w (releaseHdr claim commit rp sh en n tick) os ⟨.agree, taken⟩) rfl
  obtain ⟨t, ht, honly, hporch, hout⟩ := hstep
  simp only [hears, if_true, Porch.voted, Porch.fromWing, hfclaim, hnote, hacc, andThen, hup, List.nil_append, Porch.release, hfcommit,
    hfrp, hfsh, hfen, hfn, hftick] at hporch hout
  rw [← Porch.takeHeader, Porch.drain_of_idle hidle] at hporch hout
  exact ⟨t, _, _, ht, honly, rfl, rfl, hporch, by simpa using hout⟩

/-! ## INIT (R142) -/

theorem initBeat_fields (claim cfg : Word) (jseq : BitVec 16) (rp : BitVec 9) (sh : BitVec 3) (en : Bool) :
    (initBeat claim cfg jseq rp sh en).extractLsb' 96 32 = claim ∧ (initBeat claim cfg jseq rp sh en).extractLsb' 64 32 = cfg ∧
    (initBeat claim cfg jseq rp sh en).extractLsb' 48 16 = jseq ∧ (initBeat claim cfg jseq rp sh en).extractLsb' 39 9 = rp ∧
    (initBeat claim cfg jseq rp sh en).extractLsb' 36 3 = sh ∧ (initBeat claim cfg jseq rp sh en).getLsbD 35 = en := by
  simp (disch := decide) only [initBeat, HAppend.hAppend, extractLsb'_append_high, extractLsb'_append_low, getLsbD_append_high,
    getLsbD_append_low, getLsbD_bit, Nat.reduceSub, extractLsb'_whole, and_self]

theorem stepsPorch_init (s : State) (p : Byte) (w : WingId) (b : BitVec 128) (v : Vote) :
    StepsPorch (.init p w b v) s p fun q => q.hear p v fun q => q.fromWing p w (b.extractLsb' 96 32) fun q => q.takeInit p b :=
  stepsPorch_of_nextPorch rfl

theorem stepsPorch_releaseHeader (s : State) (p : Byte) (w : WingId) (h : BitVec 128) (os : List (BitVec 97)) (v : HeaderRead) :
    StepsPorch (.releaseHeader p w h os v) s p fun q => q.hear p v.vote fun q => q.fromWing p w (h.extractLsb' 96 32) fun q =>
      if q.up then q.release p v.taken w h os else (q, []) :=
  stepsPorch_of_nextPorch rfl

/-- What an INIT sets at a porch where no operation waits. -/
theorem Porch.takeInit_fst {q : Porch} (hwaiting : q.waiting = []) (p : Byte) (claim cfg : Word) (jseq : BitVec 16) (rp : BitVec 9)
    (sh : BitVec 3) (en : Bool) :
    (q.takeInit p (initBeat claim cfg jseq rp sh en)).1 =
      { q with cfg := cfg, rpHdr := rp, shift := sh, coreEn := en, up := true, jseq := if q.journalled then q.jseq else jseq } := by
  obtain ⟨-, hcfg, hjseq, hrp, hsh, hen⟩ := initBeat_fields claim cfg jseq rp sh en
  simp only [Porch.takeInit, hcfg, hjseq, hrp, hsh, hen]
  rw [Porch.drain_of_idle]
  exact hwaiting

theorem exec_init_accepted {s : State} {p : Byte} {w : WingId} {claim : Word} (cfg : Word) (jseq : BitVec 16) (rp : BitVec 9)
    (sh : BitVec 3) (en : Bool) (hears : (s.porch p).hears = true) (hwaiting : (s.porch p).waiting = [])
    (hown : ∀ d, (s.porch p).claimOf w = some d → d.toNat ≤ claim.toNat)
    (ho : ∀ d, (s.porch p).claimOf (otherWing w) = some d → d.toNat < claim.toNat) :
    ∃ t, exec (.init p w (initBeat claim cfg jseq rp sh en) .agree) s = .next t ∧ s.onlyPorch t p ∧
      t.porch p = { (s.porch p).noteClaim w claim with
        cfg := cfg, rpHdr := rp, shift := sh, coreEn := en, up := true
        jseq := if (s.porch p).journalled then (s.porch p).jseq else jseq } := by
  obtain ⟨hfclaim, -⟩ := initBeat_fields claim cfg jseq rp sh en
  obtain ⟨t, ht, honly, hporch, -⟩ :=
    (stepsPorch_init s p w (initBeat claim cfg jseq rp sh en) .agree).leaves (Porch.hear_agree hears p _)
  refine ⟨t, ht, honly, hporch.trans ?_⟩
  rw [hfclaim, Porch.fromWing_accepted hown ho]
  simp only [andThen]
  rw [Porch.takeInit_fst (by simpa using hwaiting)]
  simp

end Sys2Proof.Machine

namespace Sys2Proof

open Machine

/-- Settles O16: a release is its header, then its offers, then ACCEPT_RSP, and neither of the first two touches what the others
report. -/
theorem porchesTakeInitAndRelease : Obligations.PorchesTakeInitAndRelease := by
  unfold Obligations.PorchesTakeInitAndRelease
  refine ⟨fun s p w claim cfg jseq rp sh en => ⟨fun hdeaf b v => (stepsPorch_init s p w b v).deaf hdeaf,
      fun hears b => (stepsPorch_init s p w b .split).split hears, fun hears hwaiting hown ho => ?_⟩,
    fun s p w claim commit rp sh en n tick os taken => ⟨fun hdeaf h v => (stepsPorch_releaseHeader s p w h os v).deaf hdeaf,
      fun hears h => (stepsPorch_releaseHeader s p w h os ⟨.split, taken⟩).split hears,
      fun hears hup hwaiting hclaim hacc => ?_⟩,
    fun s p w claim commit rp sh tick _ hears hup hwaiting hclaim hacc => ?_⟩
  · obtain ⟨t, ht, honly, hporch⟩ := exec_init_accepted cfg jseq rp sh en hears hwaiting hown ho
    obtain ⟨hnew, -⟩ := Porch.claimOf_noteClaim hown
    refine ⟨t, ht, honly, ?_, by rw [hporch], ?_⟩
    · rw [hporch]
      exact (by cases w <;> rfl : _ = ((s.porch p).noteClaim w claim).claimOf w).trans hnew
    · rw [hporch]
      exact congrArg (fun q : Porch => { q with
        cfg := cfg, rpHdr := rp, shift := sh, coreEn := en, up := true
        jseq := if (s.porch p).journalled then (s.porch p).jseq else jseq }) (Porch.noteClaim_noClaims _ w claim)
  · obtain ⟨t, r, a, ht, honly, rfl, ha, hporch, hout⟩ :=
      exec_releaseHeader hears hup hwaiting hclaim hacc commit rp sh en n tick os taken
    obtain ⟨hrp, hsh, hen, hjournal, -, hrets⟩ := (s.porch p).takeHeader_keeps p commit rp sh en
    obtain ⟨hrp', hsh', hen', hjournal', -, hrets'⟩ := Porch.offers_keeps p ((s.porch p).emptied taken) (tick.extractLsb' 0 8)
      (os.take n.toNat) ((s.porch p).takeHeader p commit rp sh en).1
    rw [← ha] at hrp' hsh' hen' hjournal' hrets'
    refine ⟨t, bitsOf a.2.2, ht, honly, ?_, ?_, ?_, ?_, fun e he hlate => ?_, ?_⟩
    · rw [hporch, hjournal', hjournal]
      rfl
    · rw [hporch, hrp', hrp]
    · rw [hporch, hsh', hsh]
    · rw [hporch, hen', hen]
    · rw [hporch]
      exact (hrets.trans hrets').subset (List.mem_filter.2 ⟨he, by simp [hlate]⟩)
    · rw [hout, hporch]
      simp
  · obtain ⟨t, r, a, ht, honly, rfl, rfl, hporch, hout⟩ :=
      exec_releaseHeader hears hup hwaiting hclaim hacc commit rp sh false 0 tick [] none
    obtain ⟨hheld, hrets, hjseq, -⟩ :=
      Porch.returnAll_fst { (s.porch p).dropCommitted commit with rpHdr := rp, shift := sh, coreEn := false } p
    have hporch' : t.porch p = ((s.porch p).takeHeader p commit rp sh false).1 := by simpa [Porch.offers] using hporch
    have hheld' : ((s.porch p).takeHeader p commit rp sh false).1.held = [] := hheld
    refine ⟨t, ht, honly, hporch'.symm ▸ hheld, hporch'.symm ▸ hrets, hporch'.symm ▸ hjseq, ?_⟩
    simp [hout, Porch.offers, hheld', bitsOf, bit]

end Sys2Proof
end

section
/-! Where an offer goes (R122 step 5, R135), and what a tick boundary returns at a porch (R126). -/

namespace Sys2Proof.Machine

/-! ## The greatest key of a list -/

theorem maxKey_eq_none_iff (l : List (BitVec 97)) : maxKey l = none ↔ l = [] := by
  cases l with
  | nil => simp [maxKey]
  | cons k ks =>
    unfold maxKey
    cases maxKey ks with
    | none => simp
    | some m => by_cases h : k.toNat < m.toNat <;> simp [h]

theorem maxKey_spec (l : List (BitVec 97)) (m : BitVec 97) (h : maxKey l = some m) : m ∈ l ∧ ∀ k ∈ l, k.toNat ≤ m.toNat := by
  induction l generalizing m with
  | nil => cases h
  | cons k ks ih =>
    unfold maxKey at h
    cases hks : maxKey ks with
    | none =>
      rw [hks] at h
      cases h
      rw [(maxKey_eq_none_iff ks).1 hks]
      simp
    | some n =>
      obtain ⟨hmem, hmax⟩ := ih n hks
      rw [hks] at h
      dsimp only at h
      split at h
      next hlt =>
        cases h
        exact ⟨List.mem_cons_of_mem k hmem, List.forall_mem_cons.2 ⟨hlt.le, hmax⟩⟩
      next hge =>
        cases h
        exact ⟨List.mem_cons_self, List.forall_mem_cons.2 ⟨le_rfl, fun j hj => (hmax j hj).trans (Nat.le_of_not_lt hge)⟩⟩

/-! ## Free slots -/

/-- The slot that an offer may take: empty, and not the one that a claim of the same cycle has emptied (R135). -/
def FreeAt (taken : Option (BitVec 2)) (sl : List (Option PSlot)) (i : Nat) : Prop :=
  sl[i]? = some none ∧ ∀ t, taken = some t → i ≠ t.toNat

theorem any_isNone_iff (sl : List (Option PSlot)) : sl.any (·.isNone) = true ↔ ∃ i : Nat, sl[i]? = some none := by
  rw [List.any_eq_true]
  constructor
  · rintro ⟨o, ho, hnone⟩
    obtain ⟨i, hi⟩ := List.mem_iff_getElem?.1 ho
    exact ⟨i, by simpa [Option.isNone_iff_eq_none.1 hnone] using hi⟩
  · rintro ⟨i, hi⟩
    exact ⟨none, List.mem_iff_getElem?.2 ⟨i, hi⟩, rfl⟩

theorem hasFree_iff (taken : Option (BitVec 2)) (sl : List (Option PSlot)) : hasFree taken sl = true ↔ ∃ i, FreeAt taken sl i := by
  cases taken with
  | none => exact (any_isNone_iff sl).trans (by simp [FreeAt])
  | some t =>
    rw [hasFree, any_isNone_iff]
    constructor
    · rintro ⟨i, hi⟩
      rw [List.getElem?_eraseIdx] at hi
      split at hi
      · exact ⟨i, hi, by rintro _ ⟨⟩; omega⟩
      · exact ⟨i + 1, hi, by rintro _ ⟨⟩; omega⟩
    · rintro ⟨i, hi, hne⟩
      have hne' := hne t rfl
      rcases Nat.lt_or_gt_of_ne hne' with hlt | hgt
      · exact ⟨i, by rw [List.getElem?_eraseIdx, if_pos hlt, hi]⟩
      · refine ⟨i - 1, ?_⟩
        rw [List.getElem?_eraseIdx, if_neg (by omega), Nat.sub_add_cancel (by omega), hi]

/-- The first index with a property, in slots that have one. -/
theorem fillSlot_eq_set (x : PSlot) {sl : List (Option PSlot)} (h : ∃ i : Nat, sl[i]? = some none) :
    ∃ i : Nat, sl[i]? = some none ∧ (∀ j < i, sl[j]? ≠ some none) ∧ fillSlot x sl = sl.set i (some x) := by
  induction sl with
  | nil => simp at h
  | cons o sl ih =>
    cases o with
    | none => exact ⟨0, rfl, by simp, rfl⟩
    | some y =>
      obtain ⟨i, hi⟩ := h
      cases i with
      | zero => simp at hi
      | succ i =>
        obtain ⟨n, hn, hfirst, hfill⟩ := ih ⟨i, hi⟩
        refine ⟨n + 1, hn, fun j hj => ?_, congrArg (some y :: ·) hfill⟩
        cases j with
        | zero => simp
        | succ j => simpa using hfirst j (by omega)

theorem fillBeside_eq_set (x : PSlot) (t : Nat) {sl : List (Option PSlot)} (h : ∃ i : Nat, sl[i]? = some none ∧ i ≠ t) :
    ∃ i : Nat, sl[i]? = some none ∧ i ≠ t ∧ (∀ j < i, j = t ∨ sl[j]? ≠ some none) ∧ fillBeside x t sl = sl.set i (some x) := by
  induction sl generalizing t with
  | nil => simp at h
  | cons o sl ih =>
    cases t with
    | zero =>
      obtain ⟨i, hi, hne⟩ := h
      obtain ⟨k, rfl⟩ := Nat.exists_eq_succ_of_ne_zero hne
      obtain ⟨n, hn, hfirst, hfill⟩ := fillSlot_eq_set x (sl := sl) ⟨k, hi⟩
      refine ⟨n + 1, hn, by omega, fun j hj => ?_, congrArg (o :: ·) hfill⟩
      cases j with
      | zero => exact .inl rfl
      | succ j => exact .inr (hfirst j (by omega))
    | succ t =>
      cases o with
      | none => exact ⟨0, rfl, by omega, by simp, rfl⟩
      | some y =>
        obtain ⟨i, hi, hne⟩ := h
        cases i with
        | zero => simp at hi
        | succ i =>
          obtain ⟨n, hn, hnt, hfirst, hfill⟩ := ih t ⟨i, hi, by omega⟩
          refine ⟨n + 1, hn, by omega, fun j hj => ?_, congrArg (some y :: ·) hfill⟩
          cases j with
          | zero => exact .inr (by simp)
          | succ j => exact (hfirst j (by omega)).imp (congrArg (· + 1)) id

/-- An offer that finds a free slot takes the first one. -/
theorem fillFree_eq_set (taken : Option (BitVec 2)) (x : PSlot) {sl : List (Option PSlot)} (h : ∃ i, FreeAt taken sl i) :
    ∃ i, FreeAt taken sl i ∧ (∀ j < i, ¬ FreeAt taken sl j) ∧ fillFree taken x sl = sl.set i (some x) := by
  cases taken with
  | none =>
    obtain ⟨i, hi, -⟩ := h
    obtain ⟨n, hn, hfirst, hfill⟩ := fillSlot_eq_set x ⟨i, hi⟩
    exact ⟨n, ⟨hn, by simp⟩, fun j hj hfree => hfirst j hj hfree.1, hfill⟩
  | some t =>
    obtain ⟨i, hi, hne⟩ := h
    obtain ⟨n, hn, hnt, hfirst, hfill⟩ := fillBeside_eq_set x t.toNat ⟨i, hi, hne t rfl⟩
    refine ⟨n, ⟨hn, by rintro _ ⟨⟩; exact hnt⟩, fun j hj hfree => ?_, hfill⟩
    exact (hfirst j hj).elim (hfree.2 t rfl) fun h => h hfree.1

/-- Whether the slot that a claim emptied is still empty does not matter to which slots are free. -/
theorem freeAt_emptied (q : Porch) (taken : Option (BitVec 2)) (i : Nat) :
    FreeAt (q.emptied taken) q.slots i ↔ FreeAt taken q.slots i := by
  refine and_congr_right fun hi => ⟨fun h t ht hit => ?_, fun h t ht => h t (Option.filter_eq_some_iff.1 ht).1⟩
  refine h t (Option.filter_eq_some_iff.2 ⟨ht, ?_⟩) hit
  rw [← hit, hi]
  rfl

/-! ## Offers of different keys -/

/-- Two slots with offers of one key are one slot. -/
theorem slot_unique {sl : List (Option PSlot)} (h : (keysOf sl).Nodup) {i j : Nat} {a b : PSlot} (hi : sl[i]? = some (some a))
    (hj : sl[j]? = some (some b)) (hab : a.key = b.key) : i = j := by
  induction sl generalizing i j with
  | nil => simp at hi
  | cons o sl ih =>
    have hsl : (keysOf sl).Nodup := by
      cases o with
      | none => exact h
      | some y => exact (List.nodup_cons.1 h).2
    have hnew {n : Nat} {c d : PSlot} (ho : o = some c) (hn : sl[n]? = some (some d)) : c.key ≠ d.key := by
      subst ho
      exact fun heq => (List.nodup_cons.1 h).1 (List.mem_filterMap.2 ⟨some d, List.mem_of_getElem? hn, heq ▸ rfl⟩)
    cases i with
    | zero =>
      cases j with
      | zero => rfl
      | succ j => exact absurd hab (hnew (by simpa using hi) (by simpa using hj))
    | succ i =>
      cases j with
      | zero => exact absurd hab.symm (hnew (by simpa using hj) (by simpa using hi))
      | succ j => exact congrArg (· + 1) (ih hsl (by simpa using hi) (by simpa using hj))

theorem getElem?_dropOffer (k : BitVec 97) (sl : List (Option PSlot)) (i : Nat) :
    (dropOffer k sl)[i]? = sl[i]?.map fun o => o.filter fun x => !decide (x.key = k) := by
  rw [dropOffer, List.getElem?_map]
  congr 1
  funext o
  cases o with
  | none => rfl
  | some x => by_cases h : x.key = k <;> simp [h, Option.filter_some]

/-- With no other slot free, an offer takes the slot of the one that is returned for it (R122). -/
theorem fillFree_dropOffer {sl : List (Option PSlot)} (hnodup : (keysOf sl).Nodup) {taken : Option (BitVec 2)}
    (hfull : ∀ i, ¬ FreeAt taken sl i) (htaken : ∀ t, taken = some t → sl[t.toNat]? = some none) {y : PSlot}
    (hy : some y ∈ sl) (x : PSlot) :
    fillFree taken x (dropOffer y.key sl) = sl.map fun o => if o = some y then some x else o := by
  obtain ⟨n, hn⟩ := List.mem_iff_getElem?.1 hy
  have hfree : FreeAt taken (dropOffer y.key sl) n := by
    refine ⟨by simp [getElem?_dropOffer, hn, Option.filter_some], fun t ht hnt => ?_⟩
    have := htaken t ht
    rw [← hnt, hn] at this
    simp at this
  obtain ⟨i, ⟨hi, hit⟩, -, hfill⟩ := fillFree_eq_set taken x ⟨n, hfree⟩
  have hin : i = n := by
    rw [getElem?_dropOffer] at hi
    obtain ⟨o, ho, hdropped⟩ := Option.map_eq_some_iff.1 hi
    cases o with
    | none => exact absurd ⟨ho, hit⟩ (hfull i)
    | some z =>
      have hz : z.key = y.key := by simpa [Option.filter_some] using hdropped
      exact slot_unique hnodup ho hn hz
  subst hin
  rw [hfill]
  refine List.ext_getElem? fun j => ?_
  rw [List.getElem?_set, List.getElem?_map, getElem?_dropOffer]
  by_cases hij : i = j
  · subst hij
    obtain ⟨hlt, hget⟩ := List.getElem?_eq_some_iff.1 hn
    simp [hlt, hget]
  · rw [if_neg hij]
    refine Option.map_congr fun o ho => ?_
    cases o with
    | none => simp
    | some z =>
      have hne : z.key ≠ y.key := fun heq => hij (slot_unique hnodup hn (ho) heq.symm)
      have hzy : z ≠ y := fun heq => hne (heq ▸ rfl)
      simp [Option.filter_some, hne, hzy]

/-! ## The four outcomes of an offer -/

theorem Porch.dup_iff (q : Porch) (key : Word) :
    q.dup key = true ↔ (∃ h ∈ q.held, rkKey h = key) ∨ ∃ e ∈ q.rets, e.key = key := by
  simp [Porch.dup]

/-- What an offer is in a slot. -/
def offerSlot (rtick : Byte) (k : BitVec 97) : PSlot := { key := k, rtick := rtick, hidden := none }

theorem Porch.offer_dup {q : Porch} {k : BitVec 97} (h : q.dup (rkKey k) = true) (p : Byte) (taken : Option (BitVec 2)) (rtick : Byte) :
    q.offer p taken rtick k = (q, eventBeats p .dupOffer, false) := by
  simp [Porch.offer, h]

theorem Porch.offer_free {q : Porch} {k : BitVec 97} {taken : Option (BitVec 2)} (hdup : ¬ q.dup (rkKey k) = true)
    (hfree : hasFree taken q.slots = true) (p : Byte) (rtick : Byte) :
    q.offer p taken rtick k = ({ q with slots := fillFree taken (offerSlot rtick k) q.slots }, [], true) := by
  simp [Porch.offer, hdup, hfree, offerSlot]

theorem Porch.offer_displaces {q : Porch} {k : BitVec 97} {taken : Option (BitVec 2)} (hdup : ¬ q.dup (rkKey k) = true)
    (hfull : ¬ hasFree taken q.slots = true) (halarm : rkAlarm k = true) (hlow : ∃ h ∈ q.held, rkAlarm h = false) (p : Byte)
    (rtick : Byte) :
    ∃ y, some y ∈ q.slots ∧ rkAlarm y.key = false ∧ (∀ h ∈ q.held, rkAlarm h = false → h.toNat ≤ y.key.toNat) ∧
      q.offer p taken rtick k =
        ({ (q.giveBack p y).1 with slots := fillFree taken (offerSlot rtick k) (q.giveBack p y).1.slots }, (q.giveBack p y).2, true) := by
  have hne : q.held.filter (fun h => !rkAlarm h) ≠ [] := by
    obtain ⟨h, hh, ha⟩ := hlow
    exact List.ne_nil_of_mem (List.mem_filter.2 ⟨hh, by simp [ha]⟩)
  obtain ⟨low, hmax⟩ := Option.ne_none_iff_exists'.1 (mt (maxKey_eq_none_iff _).1 hne)
  obtain ⟨hmem, hle⟩ := maxKey_spec _ low hmax
  obtain ⟨hheld, hlowAlarm⟩ := List.mem_filter.1 hmem
  obtain ⟨y, hfound, hy, rfl⟩ := q.slot_of_held low hheld
  refine ⟨y, hy, by simpa using hlowAlarm, fun h hh ha => hle h (List.mem_filter.2 ⟨hh, by simp [ha]⟩), ?_⟩
  simp only [Porch.offer, hdup, hfull, halarm, hmax, hfound, Bool.false_eq_true, if_false]
  rfl

theorem Porch.offer_refused {q : Porch} {k : BitVec 97} {taken : Option (BitVec 2)} (hdup : ¬ q.dup (rkKey k) = true)
    (hfull : ¬ hasFree taken q.slots = true) (hno : ¬ (rkAlarm k = true ∧ ∃ h ∈ q.held, rkAlarm h = false)) (p : Byte)
    (rtick : Byte) : q.offer p taken rtick k = (q, [], false) := by
  simp only [Porch.offer, hdup, hfull, Bool.false_eq_true, if_false]
  split
  next halarm hmax =>
    obtain ⟨hheld, hlow⟩ := List.mem_filter.1 (maxKey_spec _ _ hmax).1
    exact absurd ⟨halarm, _, hheld, by simpa using hlow⟩ hno
  · rfl

/-- `FreeAt` at one of the four slots. -/
theorem freeAt_fin (taken : Option (BitVec 2)) (sl : List (Option PSlot)) (i : Fin 4) :
    FreeAt taken sl i ↔ taken ≠ some (BitVec.ofNat 2 i.val) ∧ sl[i.val]? = some none := by
  have htaken : (∀ t, taken = some t → i.val ≠ t.toNat) ↔ taken ≠ some (BitVec.ofNat 2 i.val) := by
    constructor
    · intro h ht
      exact h _ ht (by simp)
    · intro h t ht hit
      exact h (by rw [ht, hit, BitVec.ofNat_toNat, BitVec.setWidth_eq])
  rw [FreeAt, htaken, and_comm]

theorem exists_freeAt_iff {sl : List (Option PSlot)} (hlen : sl.length = 4) (taken : Option (BitVec 2)) :
    (∃ i, FreeAt taken sl i) ↔ ∃ i : Fin 4, taken ≠ some (BitVec.ofNat 2 i.val) ∧ sl[i.val]? = some none := by
  constructor
  · rintro ⟨i, hi⟩
    have hlt : i < 4 := hlen ▸ (List.getElem?_eq_some_iff.1 hi.1).1
    exact ⟨⟨i, hlt⟩, (freeAt_fin taken sl ⟨i, hlt⟩).1 hi⟩
  · rintro ⟨i, hi⟩
    exact ⟨i, (freeAt_fin taken sl i).2 hi⟩

theorem bitsOf_single (b : Bool) : bitsOf [b] = if b then 1 else 0 := by cases b <;> rfl

/-! ## A release of one offer -/

/-- The vector of the offer is held, or waits for its return to commit. -/
def Porch.Dup (q : Porch) (k : BitVec 97) : Prop := (∃ h ∈ q.held, rkKey h = rkKey k) ∨ ∃ e ∈ q.rets, e.key = rkKey k

/-- One of the four slots is free for an offer. -/
def Porch.HasFree (q : Porch) (taken : Option (BitVec 2)) : Prop :=
  ∃ i : Fin 4, taken ≠ some (BitVec.ofNat 2 i.val) ∧ q.slots[i.val]? = some none

/-- The offer is an alarm, and an offer that is none may make room for it. -/
def Porch.Displaces (q : Porch) (k : BitVec 97) : Prop := rkAlarm k = true ∧ ∃ h ∈ q.held, rkAlarm h = false

/-- What an offer does to a porch `q` that it leaves as `r`, and its bit of ACCEPT_RSP (R122 step 5, R135). -/
inductive OfferOutcome (taken : Option (BitVec 2)) (rtick : Byte) (k : BitVec 97) (q r : Porch) (p : Byte) (out : List Out) : Bool → Prop
  | duplicate (hdup : q.Dup k) (hslots : r.slots = q.slots) (hrets : r.rets = q.rets)
      (hout : ∀ w, Out.p2wEvent p w .dupOffer ∈ out) : OfferOutcome taken rtick k q r p out false
  | placed (hdup : ¬ q.Dup k) (hfree : q.HasFree taken) (hrets : r.rets = q.rets)
      (hslots : ∃ i : Fin 4, taken ≠ some (BitVec.ofNat 2 i.val) ∧
        (∀ j : Fin 4, j < i → taken = some (BitVec.ofNat 2 j.val) ∨ q.slots[j.val]? ≠ some none) ∧
        q.slots[i.val]? = some none ∧ r.slots = q.slots.set i.val (some (offerSlot rtick k))) :
      OfferOutcome taken rtick k q r p out true
  | displaces (hdup : ¬ q.Dup k) (hfree : ¬ q.HasFree taken) (halarm : q.Displaces k)
      (hslots : ∃ y : PSlot, some y ∈ q.slots ∧ rkAlarm y.key = false ∧
        (∀ h ∈ q.held, rkAlarm h = false → h.toNat ≤ y.key.toNat) ∧
        r.slots = q.slots.map (fun o => if o = some y then some (offerSlot rtick k) else o) ∧
        r.rets = q.rets ++ [{ kind := .ret, accTick := y.rtick.extractLsb' 0 6, prio := rkPrio y.key, jseq := q.jseq, key := rkKey y.key }]) :
      OfferOutcome taken rtick k q r p out true
  | refused (hdup : ¬ q.Dup k) (hfree : ¬ q.HasFree taken) (halarm : ¬ q.Displaces k) (hslots : r.slots = q.slots)
      (hrets : r.rets = q.rets) : OfferOutcome taken rtick k q r p out false

theorem Porch.hasFree_iff_exists {q : Porch} (hsound : q.sound) (taken : Option (BitVec 2)) :
    hasFree (q.emptied taken) q.slots = true ↔ q.HasFree taken := by
  rw [hasFree_iff, Porch.HasFree, ← exists_freeAt_iff hsound.1]
  exact exists_congr (freeAt_emptied q taken)

theorem Porch.offer_outcome {q : Porch} (hsound : q.sound) (p : Byte) (taken : Option (BitVec 2)) (rtick : Byte) (k : BitVec 97) :
    OfferOutcome taken rtick k q (q.offer p (q.emptied taken) rtick k).1 p (q.offer p (q.emptied taken) rtick k).2.1
      (q.offer p (q.emptied taken) rtick k).2.2 := by
  have hfreeIff := Porch.hasFree_iff_exists hsound taken
  by_cases hdup : q.dup (rkKey k) = true
  · rw [Porch.offer_dup hdup]
    exact .duplicate ((q.dup_iff _).1 hdup) rfl rfl (mem_eventBeats p _)
  have hdup' : ¬ q.Dup k := mt (q.dup_iff _).2 hdup
  by_cases hfree : hasFree (q.emptied taken) q.slots = true
  · obtain ⟨i, hi, hfirst, hfill⟩ := fillFree_eq_set (q.emptied taken) (offerSlot rtick k) ((hasFree_iff _ _).1 hfree)
    have hlt : i < 4 := hsound.1 ▸ (List.getElem?_eq_some_iff.1 hi.1).1
    obtain ⟨htaken, hempty⟩ := (freeAt_fin taken q.slots ⟨i, hlt⟩).1 ((freeAt_emptied q taken i).1 hi)
    rw [Porch.offer_free hdup hfree]
    refine .placed hdup' (hfreeIff.1 hfree) rfl ⟨⟨i, hlt⟩, htaken, fun j hj => ?_, hempty, hfill⟩
    have hnot := mt (freeAt_emptied q taken j).2 (hfirst j hj)
    rw [freeAt_fin] at hnot
    by_cases ht : taken = some (BitVec.ofNat 2 j.val)
    · exact .inl ht
    · exact .inr fun hj => hnot ⟨ht, hj⟩
  have hfull : ¬ q.HasFree taken := mt hfreeIff.2 hfree
  by_cases hlow : q.Displaces k
  · obtain ⟨y, hy, halarm, hmax, hoffer⟩ := Porch.offer_displaces hdup hfree hlow.1 hlow.2 p rtick
    rw [hoffer]
    refine .displaces hdup' hfull hlow ⟨y, hy, halarm, hmax, ?_, rfl⟩
    refine fillFree_dropOffer (Porch.nodup_held hsound) (fun i hi => hfree ((hasFree_iff _ _).2 ⟨i, hi⟩)) (fun t ht => ?_) hy _
    exact eq_of_beq (Option.filter_eq_some_iff.1 ht).2
  · rw [Porch.offer_refused hdup hfree hlow]
    exact .refused hdup' hfull hlow rfl rfl

/-- The porch behind the header of a release with CORE_EN of 1: what is committed is gone. -/
def Porch.headed (q : Porch) (commit : BitVec 16) (rp : BitVec 9) (sh : BitVec 3) : Porch :=
  { q.dropCommitted commit with rpHdr := rp, shift := sh, coreEn := true }

theorem Porch.takeHeader_headed (q : Porch) (p : Byte) (commit : BitVec 16) (rp : BitVec 9) (sh : BitVec 3) :
    q.takeHeader p commit rp sh true = (q.headed commit rp sh, []) := rfl

theorem Porch.emptied_headed (q : Porch) (commit : BitVec 16) (rp : BitVec 9) (sh : BitVec 3) (taken : Option (BitVec 2)) :
    (q.headed commit rp sh).emptied taken = q.emptied taken := rfl

theorem Porch.sound_headed {q : Porch} (h : q.sound) (commit : BitVec 16) (rp : BitVec 9) (sh : BitVec 3) :
    (q.headed commit rp sh).sound :=
  Porch.sound_congr (Porch.sound_dropCommitted h commit) rfl rfl rfl rfl

/-- A release with one offer from the accepted wing (R122): the offer meets the porch behind the header. -/
theorem exec_release_one {s : State} {p : Byte} {w : WingId} {claim : Word} (hears : (s.porch p).hears = true)
    (hup : (s.porch p).up = true) (hwaiting : (s.porch p).waiting = []) (hclaim : (s.porch p).claimOf w = some claim)
    (hacc : (s.porch p).accepted = some w) (commit : BitVec 16) (rp : BitVec 9) (sh : BitVec 3) (tick : Tick) (k : BitVec 97)
    (taken : Option (BitVec 2)) :
    ∃ t o, exec (.releaseHeader p w (releaseHdr claim commit rp sh true 1 tick) [k] ⟨.agree, taken⟩) s = .next t ∧
      s.onlyPorch t p ∧
      o = ((s.porch p).headed commit rp sh).offer p (((s.porch p).headed commit rp sh).emptied taken) (tick.extractLsb' 0 8) k ∧
      t.porch p = o.1 ∧ t.out = o.2.1 ++ [.p2wAccept p w (if o.2.2 then 1 else 0) (o.1.held.map rkKey)] := by
  obtain ⟨t, r, a, ht, honly, rfl, ha, hporch, hout⟩ :=
    exec_releaseHeader hears hup hwaiting hclaim hacc commit rp sh true 1 tick [k] taken
  rw [Porch.takeHeader_headed] at ha hout
  subst ha
  refine ⟨t, _, ht, honly, rfl, hporch, ?_⟩
  rw [hout, ← bitsOf_single, Porch.emptied_headed, List.nil_append]
  exact congrArg (· ++ _) (List.append_nil _)

/-! ## Tick boundaries at a porch (R126) -/

/-- How many boundaries an offer that SLICE_CUR hides has been hidden for, this one counted. -/
def PSlot.age (x : PSlot) : Nat :=
  match x.hidden with
  | none => 0
  | some n => n + 1

/-- The offer is returned at this boundary. -/
def Porch.dueAt (q : Porch) (x : PSlot) : Bool := !q.sliceOk x.key && decide (q.retDelay ≤ x.age)

/-- The offer as it stands after the boundary. -/
def Porch.agedSlot (q : Porch) (x : PSlot) : PSlot := { x with hidden := if q.sliceOk x.key then none else some x.age }

theorem Porch.ageSlot_eq (q : Porch) (x : PSlot) : q.ageSlot x = (q.agedSlot x, q.dueAt x) := by
  unfold Porch.ageSlot Porch.agedSlot Porch.dueAt
  cases hk : q.sliceOk x.key with
  | true => simp
  | false => cases hx : x.hidden <;> simp [PSlot.age, hx]

/-- The offers that the boundary returns, aged. -/
theorem Porch.due_eq (q : Porch) (sl : List (Option PSlot)) :
    ((sl.map fun o => o.map q.ageSlot).filterMap fun o => match o with
      | some (x, true) => some x
      | _ => none) = ((sl.filterMap id).filter q.dueAt).map q.agedSlot := by
  induction sl with
  | nil => rfl
  | cons o sl ih =>
    cases o with
    | none => exact ih
    | some x =>
      cases hdue : q.dueAt x with
      | true => simpa [Porch.ageSlot_eq, hdue] using ih
      | false => simpa [Porch.ageSlot_eq, hdue] using ih

theorem Porch.agedSlots_eq (q : Porch) (sl : List (Option PSlot)) :
    ((sl.map fun o => o.map q.ageSlot).map fun o => o.map Prod.fst) = sl.map fun o => o.map q.agedSlot := by
  rw [List.map_map]
  refine List.map_congr_left fun o _ => ?_
  cases o with
  | none => rfl
  | some x => simp [Porch.ageSlot_eq]

/-- The key of an offer that the boundary returns is the key of no other offer. -/
theorem mem_due_keys_iff {q : Porch} (hnodup : q.held.Nodup) {x : PSlot} (hx : some x ∈ q.slots) :
    x.key ∈ (((q.slots.filterMap id).filter q.dueAt).map q.agedSlot).map PSlot.key ↔ q.dueAt x = true := by
  rw [List.map_map]
  constructor
  · intro h
    obtain ⟨y, hy, hkey⟩ := List.mem_map.1 h
    obtain ⟨hmem, hdue⟩ := List.mem_filter.1 hy
    have hmem' : some y ∈ q.slots := by simpa using hmem
    obtain ⟨i, hi⟩ := List.mem_iff_getElem?.1 hmem'
    obtain ⟨j, hj⟩ := List.mem_iff_getElem?.1 hx
    have hij : i = j := slot_unique hnodup hi hj hkey
    rw [hij, hj] at hi
    cases hi
    exact hdue
  · intro h
    exact List.mem_map.2 ⟨x, List.mem_filter.2 ⟨by simpa using hx, h⟩, rfl⟩

/-- What a tick boundary leaves at a porch. -/
theorem Porch.boundary_eq {q : Porch} (hnodup : q.held.Nodup) (p : Byte) :
    ∃ d es, d = (q.slots.filterMap id).filter q.dueAt ∧ es.map Entry.key = d.map (fun x => rkKey x.key) ∧
      (q.boundary p).1 =
        { q with
          slots := q.slots.map fun o => o.bind fun x => if q.dueAt x then none else some (q.agedSlot x)
          rets := q.rets ++ es
          jseq := q.jseq + BitVec.ofNat 16 d.length
          journalled := q.journalled || !d.isEmpty } ∧
      ∃ beats, (q.boundary p).2 = beats ++ q.statusBeat p := by
  refine ⟨_, returnEntries q.jseq (((q.slots.filterMap id).filter q.dueAt).map q.agedSlot), rfl, ?_, ?_⟩
  · rw [returnEntries_keys, List.map_map]
    rfl
  · have hslots : dropKeys ((((q.slots.filterMap id).filter q.dueAt).map q.agedSlot).map PSlot.key)
        (q.slots.map fun o => o.map q.agedSlot) =
          q.slots.map fun o => o.bind fun x => if q.dueAt x then none else some (q.agedSlot x) := by
      rw [dropKeys, List.map_map]
      refine List.map_congr_left fun o ho => ?_
      cases o with
      | none => rfl
      | some x =>
        have hmem := Bool.eq_iff_iff.2 (decide_eq_true_iff.trans (mem_due_keys_iff hnodup ho))
        have hkey : (q.agedSlot x).key = x.key := rfl
        simp only [Function.comp_apply, Option.map_some, Option.filter_some, Option.bind_some, hkey, hmem]
        cases q.dueAt x <;> rfl
    have hfst : (q.boundary p).1 = (Porch.giveBackAll p (((q.slots.filterMap id).filter q.dueAt).map q.agedSlot)
        { q with slots := q.slots.map fun o => o.map q.agedSlot }).1 := by
      rw [← q.due_eq, ← q.agedSlots_eq]
      rfl
    simp only [Porch.giveBackAll_fst, hslots, List.length_map, List.isEmpty_map] at hfst
    refine ⟨hfst, ?_⟩
    have hstatus : (q.boundary p).1.statusBeat p = q.statusBeat p := by rw [hfst]; rfl
    rw [← hstatus]
    exact ⟨_, rfl⟩

theorem mem_statusBeat {q : Porch} (hfault : q.fault = false) (p : Byte) (w : WingId) :
    Out.p2w p w 0x5 ((statusBits q.cur q.sleep q.up false).setWidth 64) ∈ q.statusBeat p := by
  cases w <;> simp [Porch.statusBeat, hfault]

/-- What SLICE_CUR_RETURN does at a porch. -/
def Porch.tickBoundary (q : Porch) (p : Byte) (v : Vote) : Porch × List Out :=
  if !q.on then (q, [])
  else if q.fault then (q, q.statusBeat p)
  else
    let r := q.voted p v fun q => q.boundary p
    if r.1.fault then (r.1, r.1.statusBeat p) else r

theorem stepsPorch_sliceCurReturn (s : State) (p : Byte) (v : Vote) :
    StepsPorch (.sliceCurReturn p v) s p fun q => q.tickBoundary p v :=
  stepsPorch_of_nextPorch rfl

theorem Porch.tickBoundary_off {q : Porch} (h : q.on = false) (p : Byte) (v : Vote) : q.tickBoundary p v = (q, []) := by
  simp [Porch.tickBoundary, h]

theorem Porch.tickBoundary_fault {q : Porch} (hon : q.on = true) (h : q.fault = true) (p : Byte) (v : Vote) :
    q.tickBoundary p v = (q, q.statusBeat p) := by
  simp [Porch.tickBoundary, hon, h]

theorem Porch.tickBoundary_agree {q : Porch} (h : q.hears = true) (hnodup : q.held.Nodup) (p : Byte) :
    q.tickBoundary p .agree = q.boundary p := by
  obtain ⟨hon, hfault⟩ : q.on = true ∧ q.fault = false := by simpa [Porch.hears] using h
  obtain ⟨d, es, -, -, hb, -⟩ := Porch.boundary_eq hnodup p
  have hf : (q.boundary p).1.fault = false := by rw [hb]; exact hfault
  simp [Porch.tickBoundary, hon, hfault, Porch.voted, hf]

end Sys2Proof.Machine

namespace Sys2Proof

open Machine

/-- Settles O17: an offer has one of the four outcomes of `OfferOutcome`; a boundary ages every slot and returns what is due. -/
theorem offersArePlacedAndReturned : Obligations.OffersArePlacedAndReturned := by
  unfold Obligations.OffersArePlacedAndReturned
  refine ⟨?_, fun s p => ⟨fun cur sleep => ?_, fun hoff v => ?_, fun hon hfault v => ?_, fun hsound hears => ?_⟩⟩
  · rintro s p w claim commit rp sh tick k _ _ taken hsound hears hup hwaiting hclaim hacc rfl rfl
    obtain ⟨t, o, ht, honly, ho, hporch, hout⟩ := exec_release_one hears hup hwaiting hclaim hacc commit rp sh tick k taken
    have houtcome := Porch.offer_outcome (Porch.sound_headed (State.porchesSound_porch hsound p) commit rp sh) p taken
      (tick.extractLsb' 0 8) k
    rw [← ho, ← hporch] at houtcome
    have haccept : Out.p2wAccept p w (if o.2.2 then 1 else 0) ((t.porch p).held.map rkKey) ∈ t.out := by simp [hout, hporch]
    generalize hb : o.2.2 = b at houtcome haccept
    refine ⟨t, b, ht, honly, haccept, ?_⟩
    have hDup : ((s.porch p).headed commit rp sh).Dup k ↔ (∃ h ∈ (s.porch p).held, rkKey h = rkKey k) ∨
        ∃ e ∈ (s.porch p).rets.filter (fun e => !jseqLe e.jseq commit), e.key = rkKey k := Iff.rfl
    have hFree : ((s.porch p).headed commit rp sh).HasFree taken ↔
        ∃ i : Fin 4, taken ≠ some (BitVec.ofNat 2 i.val) ∧ (s.porch p).slots[i.val]? = some none := Iff.rfl
    have hDisplaces : ((s.porch p).headed commit rp sh).Displaces k ↔
        rkAlarm k = true ∧ ∃ h ∈ (s.porch p).held, rkAlarm h = false := Iff.rfl
    cases houtcome with
    | duplicate hdup hslots hrets hbeats =>
      rw [if_pos (hDup.1 hdup)]
      exact ⟨rfl, hslots, hrets, by rw [hout]; exact List.mem_append_left _ (hbeats w)⟩
    | placed hdup hfree hrets hslots =>
      rw [if_neg (mt hDup.2 hdup), if_pos (hFree.1 hfree)]
      exact ⟨rfl, hrets, hslots⟩
    | displaces hdup hfree halarm hslots =>
      rw [if_neg (mt hDup.2 hdup), if_neg (mt hFree.2 hfree), if_pos (hDisplaces.1 halarm)]
      exact ⟨rfl, hslots⟩
    | refused hdup hfree halarm hslots hrets =>
      rw [if_neg (mt hDup.2 hdup), if_neg (mt hFree.2 hfree), if_neg (mt hDisplaces.2 halarm)]
      exact ⟨rfl, hslots, hrets⟩
  · exact stepsPorch_of_nextPorch (i := .sliceCurChange p cur sleep) rfl
  · exact (stepsPorch_sliceCurReturn s p v).leaves (Porch.tickBoundary_off hoff p v)
  · obtain ⟨t, ht, honly, hporch, hout⟩ := (stepsPorch_sliceCurReturn s p v).leaves (Porch.tickBoundary_fault hon hfault p v)
    refine ⟨t, ht, honly, hporch, hout.trans ?_⟩
    simp [Porch.statusBeat, hfault]
  · have hnodup := Porch.nodup_held (State.porchesSound_porch hsound p)
    have hfault : (s.porch p).fault = false := ((by simpa [Porch.hears] using hears : _ ∧ _)).2
    obtain ⟨t, ht, honly, hporch, hout⟩ := (stepsPorch_sliceCurReturn s p .agree).leaves (Porch.tickBoundary_agree hears hnodup p)
    obtain ⟨d, es, rfl, hkeys, hb, beats, hbeats⟩ := Porch.boundary_eq hnodup p
    rw [hb] at hporch
    refine ⟨t, PSlot.age, (s.porch p).dueAt, ht, honly, fun x => rfl, fun x => rfl, ?_, ?_, ?_, ?_, fun w => ?_⟩
    · rw [hporch]
      rfl
    · rw [hporch, List.map_append, hkeys]
    · rw [hporch]
    · rw [hporch]
    · rw [hout, hbeats]
      exact List.mem_append_right _ (mem_statusBeat hfault p w)

end Sys2Proof
end

section
/-! A porch domain powers up with a vote, and down without one when it is empty (R141, R142). -/

namespace Sys2Proof.Machine

/-! ## The porches of a domain -/

theorem domainPorches_nodup (k : BitVec 5) : (domainPorches k).Nodup := by
  refine List.Nodup.map_on (fun i hi j hj h => ?_) List.nodup_range
  have hk : k.toNat < 32 := k.isLt
  rw [List.mem_range] at hi hj
  have := congrArg BitVec.toNat h
  simp only [BitVec.toNat_ofNat] at this
  omega

theorem State.porch_onPorches_of_notMem (f : Byte → Porch → Porch × List Out) {ps : List Byte} (s : State) {p : Byte} (h : p ∉ ps) :
    (State.onPorches f ps s).porch p = s.porch p := by
  induction ps generalizing s with
  | nil => rfl
  | cons q ps ih =>
    obtain ⟨hne, hps⟩ := not_or.1 (mt List.mem_cons.2 h)
    refine (ih _ hps).trans ?_
    show (s.setPorch q _).porch p = s.porch p
    rw [State.porch_setPorch, if_neg hne]

/-- Each porch of the list is stepped once, from where it stood. -/
theorem State.porch_onPorches_of_mem (f : Byte → Porch → Porch × List Out) {ps : List Byte} (s : State) (hps : ps.Nodup) {p : Byte}
    (h : p ∈ ps) : (State.onPorches f ps s).porch p = (f p (s.porch p)).1 := by
  induction ps generalizing s with
  | nil => cases h
  | cons q ps ih =>
    obtain ⟨hq, hps⟩ := List.nodup_cons.1 hps
    have hset (x : Byte) : ({ s.setPorch q (f q (s.porch q)).1 with out := s.out ++ (f q (s.porch q)).2 } : State).porch x =
        if x = q then (f q (s.porch q)).1 else s.porch x := s.porch_setPorch q x _
    rcases List.mem_cons.1 h with rfl | h
    · exact (State.porch_onPorches_of_notMem f _ hq).trans ((hset p).trans (if_pos rfl))
    · have hne : p ≠ q := fun e => hq (e ▸ h)
      refine (ih _ hps h).trans ?_
      rw [hset, if_neg hne]

@[simp] theorem State.onPorches_wings (f : Byte → Porch → Porch × List Out) (ps : List Byte) (s : State) :
    (State.onPorches f ps s).east = s.east ∧ (State.onPorches f ps s).west = s.west := by
  induction ps generalizing s with
  | nil => exact ⟨rfl, rfl⟩
  | cons p ps ih => exact ih _

/-- Porches that drive nothing leave what is driven. -/
theorem State.onPorches_out (f : Byte → Porch → Porch × List Out) (ps : List Byte) (s : State)
    (h : ∀ p ∈ ps, ∀ q, s.porch p = q → (f p q).2 = []) (hps : ps.Nodup) : (State.onPorches f ps s).out = s.out := by
  induction ps generalizing s with
  | nil => rfl
  | cons p ps ih =>
    obtain ⟨hp, hps⟩ := List.nodup_cons.1 hps
    obtain ⟨hhead, htail⟩ := List.forall_mem_cons.1 h
    refine (ih _ (fun x hx q hq => htail x hx q ?_) hps).trans ?_
    · have hne : x ≠ p := fun e => hp (e ▸ hx)
      rw [← hq]
      exact ((s.porch_setPorch p x _).trans (if_neg hne)).symm
    · show s.out ++ (f p (s.porch p)).2 = s.out
      rw [hhead _ rfl, List.append_nil]

/-! ## Powering up -/

/-- The domain's bit is set for a wing that sees it rise. -/
theorem Wing.domainOn_domOn (w : Wing) (k : BitVec 5) (pdVote : Byte) : (w.domainOn k pdVote).pwr.domOn.getLsbD k.toNat = true := by
  have hbit (m : BitVec 32) : (m ||| (1#32 <<< k.toNat)).getLsbD k.toNat = true := by
    have hk : k.toNat < 32 := k.isLt
    simp [hk]
  unfold Wing.domainOn
  split <;> exact hbit _

/-- A domain whose porches are each stepped once by `f`, nothing driven before. -/
def State.onDomain (s : State) (k : BitVec 5) (f : Byte → Porch → Porch × List Out) : State :=
  State.onPorches f (domainPorches k) { s with out := [] }

/-- What a step of the porches of a domain leaves. -/
theorem State.onDomain_spec (s : State) (k : BitVec 5) (f : Byte → Porch → Porch × List Out) :
    (s.onDomain k f).pending = s.pending ∧ (s.onDomain k f).east = s.east ∧ (s.onDomain k f).west = s.west ∧
      (∀ p ∈ domainPorches k, (s.onDomain k f).porch p = (f p (s.porch p)).1) ∧
      (∀ p, p ∉ domainPorches k → (s.onDomain k f).porch p = s.porch p) ∧
      ((∀ p ∈ domainPorches k, (f p (s.porch p)).2 = []) → (s.onDomain k f).out = []) := by
  obtain ⟨heast, hwest⟩ := State.onPorches_wings f (domainPorches k) { s with out := [] }
  exact ⟨State.onPorches_pending _ _ _, heast, hwest,
    fun _ hp => State.porch_onPorches_of_mem f { s with out := [] } (domainPorches_nodup k) hp,
    fun _ hp => State.porch_onPorches_of_notMem f { s with out := [] } hp,
    fun h => State.onPorches_out f _ _ (fun p hp q hq => hq ▸ h p hp) (domainPorches_nodup k)⟩

theorem exec_domainUp {s : State} {k : BitVec 5} {vote : Byte} (hheld : s.domainHeld k vote = true) (hoff : s.domainIsOn k = false) :
    ∃ t, exec (.porchDomainPowerUp k vote) s = .next t ∧ t.pending = s.pending ∧ t.out = [] ∧
      (∀ p ∈ domainPorches k, t.porch p = (s.porch p).powerOn) ∧ (∀ p, p ∉ domainPorches k → t.porch p = s.porch p) ∧
      t.east.pwr.domOn.getLsbD k.toNat = true ∧ t.west.pwr.domOn.getLsbD k.toNat = true := by
  have hexec : exec (.porchDomainPowerUp k vote) s = .next { s.onDomain k (fun _ q => (q.powerOn, [])) with
      east := (s.onDomain k fun _ q => (q.powerOn, [])).east.domainOn k vote
      west := (s.onDomain k fun _ q => (q.powerOn, [])).west.domainOn k vote } := by
    show execPorchDomainPowerUp k vote s = _
    unfold execPorchDomainPowerUp
    exact if_neg (by simp [hheld, hoff])
  obtain ⟨hpending, -, -, hmem, hnotMem, hout⟩ := s.onDomain_spec k fun _ q => (q.powerOn, [])
  generalize s.onDomain k (fun _ q => (q.powerOn, [])) = s1 at hexec hpending hmem hnotMem hout
  exact ⟨_, hexec, hpending, hout fun _ _ => rfl, hmem, hnotMem, s1.east.domainOn_domOn k vote, s1.west.domainOn_domOn k vote⟩

/-! ## Powering down -/

/-- What a porch of a domain with no vote does first: it returns its offers. -/
def returnOffers (vote : Byte → Vote) (p : Byte) (q : Porch) : Porch × List Out :=
  q.hear p (vote p) fun q => q.returnAll p

/-- A porch that holds nothing returns nothing. -/
theorem Porch.returnAll_of_empty {q : Porch} (h : q.held = []) (p : Byte) : q.returnAll p = (q, []) := by
  have hslots : (q.slots.filterMap id).map PSlot.key = [] := (keysOf_eq_map q.slots).symm.trans h
  rw [Porch.returnAll, List.map_eq_nil_iff.1 hslots]
  rfl

theorem Porch.empty_iff (q : Porch) : q.empty = true ↔ q.fault = true ∨ q.held = [] ∧ q.journal = [] ∧ q.rets = [] := by
  simp [Porch.empty, and_assoc]

theorem Porch.powerOff_congr {q r : Porch} (hcur : q.cur = r.cur) (hsleep : q.sleep = r.sleep) : q.powerOff = r.powerOff := by
  rw [Porch.powerOff, Porch.powerOff, hcur, hsleep]

/-- What `returnOffers` leaves at a porch. -/
theorem returnOffers_keeps (vote : Byte → Vote) (p : Byte) (q : Porch) :
    (returnOffers vote p q).1.on = q.on ∧ (returnOffers vote p q).1.cur = q.cur ∧ (returnOffers vote p q).1.sleep = q.sleep := by
  unfold returnOffers Porch.hear
  split
  · cases vote p <;> simp [Porch.voted, Porch.returnAll]
  · exact ⟨rfl, rfl, rfl⟩

theorem returnOffers_fault {vote : Byte → Vote} {p : Byte} (hvote : vote p ≠ .split) (q : Porch) :
    (returnOffers vote p q).1.fault = q.fault := by
  unfold returnOffers Porch.hear
  split
  · rw [Porch.voted_fst q p _ _ hvote]
    simp [Porch.returnAll]
  · rfl

/-- A porch that holds nothing stays so, whatever the vote. -/
theorem returnOffers_empty {vote : Byte → Vote} {p : Byte} {q : Porch} (hheld : q.held = []) (hjournal : q.journal = [])
    (hrets : q.rets = []) : (returnOffers vote p q).1.empty = true := by
  rw [Porch.empty_iff]
  unfold returnOffers Porch.hear
  split
  · have hall : (q.returnAll p).1 = q := congrArg Prod.fst (Porch.returnAll_of_empty hheld p)
    cases vote p with
    | agree => exact .inr (hall.symm ▸ ⟨hheld, hjournal, hrets⟩)
    | corrected => exact .inr (hall.symm ▸ ⟨hheld, hjournal, hrets⟩)
    | split => exact .inl rfl
  · exact .inr ⟨hheld, hjournal, hrets⟩

/-- A porch that is in no FAULT returns what it holds. -/
theorem returnOffers_returns {vote : Byte → Vote} {p : Byte} (hvote : vote p ≠ .split) {q : Porch} (hears : q.hears = true) :
    (returnOffers vote p q).1 = (q.returnAll p).1 := by
  rw [returnOffers, Porch.hear, if_pos hears, Porch.voted_fst q p _ _ hvote]

/-- The bit of a domain is clear for a wing that sees it fall. -/
theorem Wing.domainOff_domOn (w : Wing) (k : BitVec 5) : (w.domainOff k).pwr.domOn.getLsbD k.toNat = false := by
  have hk : k.toNat < 32 := k.isLt
  simp [Wing.domainOff, hk]

/-- The vote on the read of one porch. -/
def downVote (d : DownRead) (p : Byte) : Vote := d.reads.getD (p.toNat % 8) .agree

theorem downVote_of_forall {d : DownRead} {P : Vote → Prop} (hagree : P .agree) (h : ∀ v ∈ d.reads, P v) (p : Byte) : P (downVote d p) := by
  unfold downVote
  rw [List.getD_eq_getElem?_getD]
  cases hv : d.reads[p.toNat % 8]? with
  | none => exact hagree
  | some v => exact h v (List.mem_of_getElem? hv)

/-- The state after the porches of the domain have returned their offers. -/
def State.offersReturned (s : State) (k : BitVec 5) (d : DownRead) : State := s.onDomain k (returnOffers (downVote d))

theorem exec_domainDown_eq {s : State} {k : BitVec 5} {d : DownRead} (hheld : s.domainHeld k d.vote = false)
    (hon : s.domainIsOn k = true) :
    exec (.porchDomainPowerDown k d) s =
      if (domainPorches k).all fun p => ((s.offersReturned k d).porch p).empty then
        .next { State.onPorches (fun _ q => (q.powerOff, [])) (domainPorches k) (s.offersReturned k d) with
          east := (State.onPorches (fun _ q => (q.powerOff, [])) (domainPorches k) (s.offersReturned k d)).east.domainOff k
          west := (State.onPorches (fun _ q => (q.powerOff, [])) (domainPorches k) (s.offersReturned k d)).west.domainOff k }
      else .next (s.offersReturned k d) := by
  show execPorchDomainPowerDown k d s = _
  unfold execPorchDomainPowerDown
  exact if_neg (by simp [hheld, hon])

/-- A domain with no vote whose porches hold nothing powers down. -/
theorem exec_domainDown_empty {s : State} {k : BitVec 5} {d : DownRead} (hheld : s.domainHeld k d.vote = false)
    (hon : s.domainIsOn k = true)
    (hempty : ∀ p ∈ domainPorches k, (s.porch p).fault = false ∧ (s.porch p).held = [] ∧ (s.porch p).journal = [] ∧ (s.porch p).rets = []) :
    ∃ t, exec (.porchDomainPowerDown k d) s = .next t ∧ t.pending = s.pending ∧ ((∀ v ∈ d.reads, v = .agree) → t.out = []) ∧
      (∀ p ∈ domainPorches k, t.porch p = (s.porch p).powerOff) ∧ (∀ p, p ∉ domainPorches k → t.porch p = s.porch p) ∧
      t.east.pwr.domOn.getLsbD k.toNat = false ∧ t.west.pwr.domOn.getLsbD k.toNat = false := by
  have hexec := exec_domainDown_eq hheld hon
  obtain ⟨hpending, -, -, hmem, hnotMem, hout⟩ := s.onDomain_spec k (returnOffers (downVote d))
  rw [State.offersReturned] at hexec
  generalize s.onDomain k (returnOffers (downVote d)) = s1 at hexec hpending hmem hnotMem hout
  have hall : (domainPorches k).all (fun p => (s1.porch p).empty) = true := by
    refine List.all_eq_true.2 fun p hp => ?_
    obtain ⟨-, hh, hj, hr⟩ := hempty p hp
    rw [hmem p hp]
    exact returnOffers_empty hh hj hr
  rw [if_pos hall] at hexec
  have hpending2 := State.onPorches_pending (fun _ q => (q.powerOff, [])) (domainPorches k) s1
  have hmem2 (p : Byte) (hp : p ∈ domainPorches k) :=
    State.porch_onPorches_of_mem (fun _ q => (q.powerOff, [])) s1 (domainPorches_nodup k) hp
  have hnotMem2 (p : Byte) (hp : p ∉ domainPorches k) := State.porch_onPorches_of_notMem (fun _ q => (q.powerOff, [])) s1 hp
  have hout2 := State.onPorches_out (fun _ q => (q.powerOff, [])) (domainPorches k) s1 (fun _ _ _ _ => rfl) (domainPorches_nodup k)
  generalize State.onPorches (fun _ q => (q.powerOff, [])) (domainPorches k) s1 = s2 at hexec hpending2 hmem2 hnotMem2 hout2
  refine ⟨_, hexec, hpending2.trans hpending, fun hagree => hout2.trans (hout fun p hp => ?_), fun p hp => ?_, fun p hp => ?_,
    s2.east.domainOff_domOn k, s2.west.domainOff_domOn k⟩
  · obtain ⟨-, hh, -⟩ := hempty p hp
    have hv : downVote d p = .agree := downVote_of_forall (P := (· = .agree)) rfl hagree p
    unfold returnOffers Porch.hear
    rw [hv]
    split
    · exact congrArg Prod.snd (Porch.returnAll_of_empty hh p)
    · rfl
  · refine (hmem2 p hp).trans ?_
    obtain ⟨-, hcur, hsleep⟩ := returnOffers_keeps (downVote d) p (s.porch p)
    rw [hmem p hp]
    exact Porch.powerOff_congr hcur hsleep
  · exact (hnotMem2 p hp).trans (hnotMem p hp)

/-- A porch that holds something holds something after it has returned its offers. -/
theorem returnOffers_not_empty {vote : Byte → Vote} {p : Byte} (hvote : vote p ≠ .split) {q : Porch} (h : q.empty = false) :
    (returnOffers vote p q).1.empty = false := by
  rw [Bool.eq_false_iff, ne_eq, Porch.empty_iff, not_or] at h ⊢
  obtain ⟨hfault, hholds⟩ := h
  rw [returnOffers_fault hvote]
  refine ⟨hfault, fun ⟨hheld, hjournal, hrets⟩ => hholds ?_⟩
  by_cases hears : q.hears = true
  · rw [returnOffers_returns hvote hears] at hheld hjournal hrets
    obtain ⟨-, hkeys, -, hj⟩ := q.returnAll_fst p
    rw [hrets] at hkeys
    obtain ⟨hr, hh⟩ := List.append_eq_nil_iff.1 hkeys.symm
    exact ⟨List.map_eq_nil_iff.1 hh, hj ▸ hjournal, List.map_eq_nil_iff.1 hr⟩
  · rw [returnOffers, Porch.hear, if_neg hears] at hheld hjournal hrets
    exact ⟨hheld, hjournal, hrets⟩

/-- A domain with no vote that holds something returns its offers and stays on. -/
theorem exec_domainDown_waits {s : State} {k : BitVec 5} {d : DownRead} (hheld : s.domainHeld k d.vote = false)
    (hon : s.domainIsOn k = true) (hvotes : ∀ v ∈ d.reads, v ≠ .split) (hsome : ∃ p ∈ domainPorches k, (s.porch p).empty = false) :
    ∃ t, exec (.porchDomainPowerDown k d) s = .next t ∧ t.pending = s.pending ∧ t.east = s.east ∧ t.west = s.west ∧
      (∀ p, p ∉ domainPorches k → t.porch p = s.porch p) ∧
      ∀ p ∈ domainPorches k, (t.porch p).on = true ∧ ((s.porch p).fault = false → (t.porch p).held = [] ∧
        (t.porch p).journal = (s.porch p).journal ∧
        (t.porch p).rets.map Entry.key = (s.porch p).rets.map Entry.key ++ (s.porch p).held.map rkKey) := by
  have hvote (p : Byte) : downVote d p ≠ .split := downVote_of_forall (P := (· ≠ .split)) (by decide) hvotes p
  have hexec := exec_domainDown_eq hheld hon
  obtain ⟨hpending, heast, hwest, hmem, hnotMem, -⟩ := s.onDomain_spec k (returnOffers (downVote d))
  rw [State.offersReturned] at hexec
  generalize s.onDomain k (returnOffers (downVote d)) = s1 at hexec hpending heast hwest hmem hnotMem
  have hnot : ¬ (domainPorches k).all (fun p => (s1.porch p).empty) = true := by
    obtain ⟨p, hp, hne⟩ := hsome
    intro hall
    have hp' := List.all_eq_true.1 hall p hp
    rw [hmem p hp, returnOffers_not_empty (hvote p) hne] at hp'
    cases hp'
  rw [if_neg hnot] at hexec
  refine ⟨_, hexec, hpending, heast, hwest, hnotMem, fun p hp => ?_⟩
  have hpon : (s.porch p).on = true := List.all_eq_true.1 hon p hp
  rw [hmem p hp]
  refine ⟨(returnOffers_keeps (downVote d) p _).1.trans hpon, fun hfault => ?_⟩
  have hears : (s.porch p).hears = true := by simp [Porch.hears, hpon, hfault]
  rw [returnOffers_returns (hvote p) hears]
  obtain ⟨hh, hr, -, hj⟩ := (s.porch p).returnAll_fst p
  exact ⟨hh, hj, hr⟩

end Sys2Proof.Machine

namespace Sys2Proof

open Machine

/-- Settles O18: each porch of the domain is stepped once, and the others are not. -/
theorem porchDomainsPowerUpAndDown : Obligations.PorchDomainsPowerUpAndDown := by
  unfold Obligations.PorchDomainsPowerUpAndDown
  refine fun s k vote votes => ⟨exec_domainUp, fun h => ?_, exec_domainDown_empty (d := ⟨vote, votes⟩),
    exec_domainDown_waits (d := ⟨vote, votes⟩), fun h => ?_⟩
  · show execPorchDomainPowerUp k vote s = _
    have hcond : (!s.domainHeld k vote || s.domainIsOn k) = true := by rcases h with h | h <;> simp [h]
    unfold execPorchDomainPowerUp
    exact if_pos hcond
  · show execPorchDomainPowerDown k ⟨vote, votes⟩ s = _
    have hcond : (s.domainHeld k vote || !s.domainIsOn k) = true := by rcases h with h | h <;> simp [h]
    unfold execPorchDomainPowerDown
    exact if_pos hcond

end Sys2Proof
end

section
/-! What STATUS, SLOT_REPORT, ENTRY and EVENT beats leave in a wing (R121, R132, R138, R145). -/

namespace Sys2Proof.Machine

/-! ## A step of one wing -/

/-- The wing with nothing driven: how a command finds it, and how it leaves it. -/
def Wing.silent (w : Wing) : Wing := { w with out := [] }

@[simp] theorem Wing.silent_keeps (w : Wing) :
    w.silent.id = w.id ∧ w.silent.life = w.life ∧ w.silent.aptBase = w.aptBase ∧ w.silent.portGen = w.portGen ∧
    w.silent.key = w.key ∧ w.silent.keyValid = w.keyValid ∧ w.silent.regs = w.regs ∧ w.silent.ctl = w.ctl ∧
    w.silent.vst = w.vst ∧ w.silent.pan = w.pan ∧ w.silent.hall = w.hall ∧ w.silent.pch = w.pch ∧ w.silent.sl = w.sl ∧
    w.silent.ring = w.ring ∧ w.silent.drn = w.drn ∧ w.silent.psg = w.psg ∧ w.silent.pwr = w.pwr ∧ w.silent.int = w.int ∧
    w.silent.hrt = w.hrt ∧ w.silent.mem = w.mem ∧ w.silent.out = [] :=
  ⟨rfl, rfl, rfl, rfl, rfl, rfl, rfl, rfl, rfl, rfl, rfl, rfl, rfl, rfl, rfl, rfl, rfl, rfl, rfl, rfl, rfl⟩

@[simp] theorem Wing.silent_silent (w : Wing) : w.silent.silent = w.silent := rfl

@[simp] theorem Wing.ctr_silent (w : Wing) (o : Nat) : w.silent.ctr o = w.ctr o := rfl

@[simp] theorem Wing.running_silent (w : Wing) : w.silent.running = w.running := rfl

@[simp] theorem Wing.isActive_silent (w : Wing) : w.silent.isActive = w.isActive := rfl

@[simp] theorem Wing.takesBeats_silent (w : Wing) : w.silent.takesBeats = w.takesBeats := rfl

/-- A command that steps one wing by `f` leaves what `f` gives, and drives what `f` drives. -/
def StepsWing (i : Instr) (s : State) (w : WingId) (f : Wing → Wing) : Prop :=
  ∃ t, exec i s = .next t ∧ s.onlyWing t w ∧ t.wing w = (f (s.wing w).silent).silent ∧ t.out = (f (s.wing w).silent).out

theorem stepsWing {i : Instr} {s : State} {w : WingId} {f : Wing → Wing} (h : exec i s = nextWing s w f) : StepsWing i s w f :=
  ⟨_, h, s.onWing_only w f, s.onWing_wing w f, s.onWing_out w f⟩

/-- What holds of the result of the step holds of the state that the command leaves. -/
theorem StepsWing.leaves {i : Instr} {s : State} {w : WingId} {f : Wing → Wing} (h : StepsWing i s w f) {v : Wing}
    (hf : f (s.wing w).silent = v) : ∃ t, exec i s = .next t ∧ s.onlyWing t w ∧ t.wing w = v.silent ∧ t.out = v.out := hf ▸ h

/-- A command without effect. -/
theorem StepsWing.stands {i : Instr} {s : State} {w : WingId} {f : Wing → Wing} (h : StepsWing i s w f)
    (hf : f (s.wing w).silent = (s.wing w).silent) :
    ∃ t, exec i s = .next t ∧ s.onlyWing t w ∧ t.out = [] ∧ t.wing w = { s.wing w with out := [] } := by
  obtain ⟨t, ht, honly, hwing, hout⟩ := h.leaves hf
  exact ⟨t, ht, honly, hout, hwing⟩

/-! ## Beats -/

theorem stepsWing_status (s : State) (w : WingId) (p : Byte) (st : BitVec 16) :
    StepsWing (.status w p st) s w fun v =>
      if v.takesBeats then { v with pch := { v.pch with status := SMap.insert v.pch.status p.toNat st } } else v :=
  stepsWing rfl

theorem stepsWing_slotReport (s : State) (w : WingId) (p : Byte) (rep : DWord) (keys : List Word) :
    StepsWing (.slotReport w p rep keys) s w fun v =>
      if v.takesBeats then { v with pch := { v.pch with slotRep := SMap.insert v.pch.slotRep p.toNat (slotsReported rep keys) } } else v :=
  stepsWing rfl

theorem stepsWing_entry (s : State) (w : WingId) (p : Byte) (d : DWord) :
    StepsWing (.entry w p d) s w fun v =>
      if v.takesBeats then (v.takeEntry p d).wake { source := 0x4, detail := p.setWidth 12 } else v :=
  stepsWing rfl

theorem stepsWing_porchEvent (s : State) (w : WingId) (p : Byte) (e : PorchEvent) :
    StepsWing (.porchEvent w p e) s w fun v => if v.takesBeats then v.count (eventCounter e) else v :=
  stepsWing rfl

theorem stepsWing_refuse (s : State) (w : WingId) (p : Byte) (claim : Word) :
    StepsWing (.refuse w p claim) s w fun v => if v.takesBeats then v.refused claim else v :=
  stepsWing rfl

theorem exec_beat_of_deaf {s : State} {w : WingId} (h : (s.wing w).takesBeats = false) (p : Byte) (i : Instr) (st : BitVec 16)
    (rep : DWord) (keys : List Word) (d : DWord) (e : PorchEvent) (claim : Word)
    (hi : i ∈ [Instr.status w p st, .slotReport w p rep keys, .entry w p d, .porchEvent w p e, .refuse w p claim]) :
    ∃ t, exec i s = .next t ∧ s.onlyWing t w ∧ t.out = [] ∧ t.wing w = { s.wing w with out := [] } := by
  have hdeaf : ¬ (s.wing w).silent.takesBeats = true := by
    show ¬ (s.wing w).takesBeats = true
    simp [h]
  simp only [List.mem_cons, List.not_mem_nil, or_false] at hi
  rcases hi with rfl | rfl | rfl | rfl | rfl
  · exact (stepsWing_status s w p st).stands (if_neg hdeaf)
  · exact (stepsWing_slotReport s w p rep keys).stands (if_neg hdeaf)
  · exact (stepsWing_entry s w p d).stands (if_neg hdeaf)
  · exact (stepsWing_porchEvent s w p e).stands (if_neg hdeaf)
  · exact (stepsWing_refuse s w p claim).stands (if_neg hdeaf)

/-- A slot that the report marks valid stands in the list with its RTICK and its key (R138). -/
theorem mem_slotsReported (rep : DWord) (keys : List Word) (key : Word) (rtick : Byte) :
    (key, rtick) ∈ slotsReported rep keys ↔
      ∃ i < 4, (rep.extractLsb' (16 * i) 16 : BitVec 16).getLsbD 15 = true ∧ rtick = rep.extractLsb' (16 * i + 2) 8 ∧
        key = keys.getD (rep.extractLsb' (16 * i) 2 : BitVec 2).toNat 0 := by
  have hsub (i off len : Nat) (h : off + len ≤ 16) :
      (rep.extractLsb' (16 * i) 16 : BitVec 16).extractLsb' off len = rep.extractLsb' (16 * i + off) len := by
    refine BitVec.eq_of_getLsbD_eq fun j hj => ?_
    have hlt : off + j < 16 := by omega
    simp [hj, hlt, Nat.add_assoc]
  simp only [slotsReported, List.mem_filterMap, List.mem_range]
  refine exists_congr fun i => and_congr_right fun _ => ?_
  rw [hsub i 0 2 (by omega), hsub i 2 8 (by omega)]
  cases (rep.extractLsb' (16 * i) 16 : BitVec 16).getLsbD 15 with
  | false => simp
  | true =>
    rw [if_pos rfl, Option.some.injEq, Prod.mk.injEq, and_comm]
    exact ⟨fun ⟨hr, hk⟩ => ⟨rfl, hr.symm, hk.symm⟩, fun ⟨_, hr, hk⟩ => ⟨hr.symm, hk.symm⟩⟩

/-- A wake in a running wing does nothing. -/
theorem Wing.wake_of_running {w : Wing} (h : w.running = true) (c : WakeCause) : w.wake c = w := by
  have hlife : w.life = .run := by simpa [Wing.running] using h
  unfold Wing.wake
  simp [hlife]

/-- ENTRY with no replay of the porch under way: behind the porch's entries, while there is room for it (R132). -/
theorem Wing.takeEntry_new {w : Wing} {p : Byte} (h : SMap.find? w.pch.replay p.toNat = none ∨ p.toNat ∈ w.pch.ended) (e : Entry) :
    w.takeEntry p e.encode =
      if (SMap.get w.pch.entries [] p.toNat).length < 12 then
        { w with pch := { w.pch with entries := SMap.insert w.pch.entries p.toNat (SMap.get w.pch.entries [] p.toNat ++ [e]) } }
      else w := by
  have hnone : (SMap.find? w.pch.replay p.toNat).filter (fun _ => !w.pch.ended.contains p.toNat) = none := by
    rcases h with h | h
    · rw [h]
      rfl
    · cases SMap.find? w.pch.replay p.toNat <;> simp [Option.filter_some, h]
  simp only [Wing.takeEntry, Entry.decode_encode, hnone]

theorem Wing.takeEntry_new_entries {w : Wing} {p : Byte} (h : SMap.find? w.pch.replay p.toNat = none ∨ p.toNat ∈ w.pch.ended) (e : Entry) :
    SMap.get (w.takeEntry p e.encode).pch.entries [] p.toNat = SMap.get w.pch.entries [] p.toNat ++
        (if (SMap.get w.pch.entries [] p.toNat).length < 12 then [e] else []) ∧
      w.takeEntry p e.encode = { w with pch := { w.pch with entries := (w.takeEntry p e.encode).pch.entries } } := by
  rw [Wing.takeEntry_new h]
  by_cases hroom : (SMap.get w.pch.entries [] p.toNat).length < 12 <;> simp [hroom]

/-- ENTRY in a replay that has not ended joins the replay (R138). -/
theorem Wing.takeEntry_replay {w : Wing} {p : Byte} {l : List Entry} (hended : p.toNat ∉ w.pch.ended)
    (hreplay : SMap.find? w.pch.replay p.toNat = some l) (e : Entry) :
    w.takeEntry p e.encode = { w with pch := { w.pch with replay := SMap.insert w.pch.replay p.toNat (l ++ [e]) } } := by
  have hsome : (SMap.find? w.pch.replay p.toNat).filter (fun _ => !w.pch.ended.contains p.toNat) = some l := by
    simp [hreplay, Option.filter_some, hended]
  simp only [Wing.takeEntry, Entry.decode_encode, hsome]

theorem exec_entry_new {s : State} {w : WingId} {p : Byte} (hears : (s.wing w).takesBeats = true)
    (h : SMap.find? (s.wing w).pch.replay p.toNat = none ∨ p.toNat ∈ (s.wing w).pch.ended) (e : Entry) :
    ∃ t, exec (.entry w p e.encode) s = .next t ∧ s.onlyWing t w ∧ t.out = [] ∧
      SMap.get (t.wing w).pch.entries [] p.toNat = SMap.get (s.wing w).pch.entries [] p.toNat ++
        (if (SMap.get (s.wing w).pch.entries [] p.toNat).length < 12 then [e] else []) ∧
      (t.wing w).pch = { (s.wing w).pch with entries := (t.wing w).pch.entries } ∧
      ((s.wing w).running = true →
        t.wing w = { s.wing w with pch := { (s.wing w).pch with entries := (t.wing w).pch.entries }, out := [] }) := by
  obtain ⟨t, ht, honly, hwing, hout⟩ := (stepsWing_entry s w p e.encode).leaves (if_pos hears)
  obtain ⟨hentries, heq⟩ := Wing.takeEntry_new_entries (w := (s.wing w).silent) (p := p) h e
  have hpch : (t.wing w).pch = ((s.wing w).silent.takeEntry p e.encode).pch := by
    rw [hwing]
    exact (Wing.wake_keeps _ _).2.2.2.2.2.2.2.2.2.2.1
  refine ⟨t, ht, honly, hout.trans (by simp), hpch ▸ hentries, ?_, fun hrun => ?_⟩
  · rw [hpch]
    exact congrArg Wing.pch heq
  · have hrun' : ((s.wing w).silent.takeEntry p e.encode).running = true := by
      rw [heq]
      exact hrun
    rw [hwing, Wing.wake_of_running hrun']
    exact congrArg Wing.silent heq

theorem exec_entry_replay {s : State} {w : WingId} {p : Byte} {l : List Entry} (hears : (s.wing w).takesBeats = true)
    (hended : p.toNat ∉ (s.wing w).pch.ended) (hreplay : SMap.find? (s.wing w).pch.replay p.toNat = some l) (e : Entry) :
    ∃ t, exec (.entry w p e.encode) s = .next t ∧ s.onlyWing t w ∧ t.out = [] ∧
      SMap.find? (t.wing w).pch.replay p.toNat = some (l ++ [e]) ∧ (t.wing w).pch.entries = (s.wing w).pch.entries := by
  obtain ⟨t, ht, honly, hwing, hout⟩ := (stepsWing_entry s w p e.encode).leaves (if_pos hears)
  rw [Wing.takeEntry_replay (w := (s.wing w).silent) hended hreplay] at hwing hout
  exact ⟨t, ht, honly, by simpa using hout, by simp [hwing], by simp [hwing]⟩

/-! ## Events -/

theorem exec_porchEvent {s : State} {w : WingId} (hears : (s.wing w).takesBeats = true) (p : Byte) (e : PorchEvent) :
    ∃ t, exec (.porchEvent w p e) s = .next t ∧ s.onlyWing t w ∧ t.out = [] ∧
      (t.wing w).ctr (eventCounter e) = (s.wing w).ctr (eventCounter e) + 1 ∧
      (∀ d, d ≠ eventCounter e → (t.wing w).ctr d = (s.wing w).ctr d) ∧
      t.wing w = { s.wing w with regs := { (s.wing w).regs with ctr := (t.wing w).regs.ctr }, out := [] } := by
  obtain ⟨t, ht, honly, hwing, hout⟩ := (stepsWing_porchEvent s w p e).leaves (if_pos hears)
  refine ⟨t, ht, honly, hout, ?_, fun d hd => ?_, ?_⟩
  · rw [hwing, Wing.ctr_silent, Wing.ctr_count_self, Wing.ctr_silent]
  · rw [hwing, Wing.ctr_silent, Wing.ctr_count_ne _ hd, Wing.ctr_silent]
  · rw [hwing]
    rfl

end Sys2Proof.Machine

namespace Sys2Proof

open Machine

/-- Settles O23: each beat is a step of the wing that changes one part of what it knows of the porches, or one counter. -/
theorem beatsReachTheWing : Obligations.BeatsReachTheWing := by
  unfold Obligations.BeatsReachTheWing
  refine fun s w p => ⟨fun hdeaf i st rep keys d e claim hi => exec_beat_of_deaf hdeaf p i st rep keys d e claim hi,
    fun hears => ⟨fun st => ?_, fun rep keys => ?_, fun e h => exec_entry_new hears h e,
      fun e l hended hreplay => exec_entry_replay hears hended hreplay e, fun e => ?_⟩⟩
  · obtain ⟨t, ht, honly, hwing, hout⟩ := (stepsWing_status s w p st).leaves (if_pos hears)
    refine ⟨t, ht, honly, hout, ?_, fun q hq => ?_, ?_⟩
    · rw [hwing]
      exact SMap.find?_insert_self _ _ _
    · rw [hwing]
      exact SMap.find?_insert_ne _ _ hq
    · rw [hwing]
      rfl
  · obtain ⟨t, ht, honly, hwing, hout⟩ := (stepsWing_slotReport s w p rep keys).leaves (if_pos hears)
    refine ⟨t, ht, honly, hout, fun key rtick => ?_, ?_⟩
    · rw [hwing, ← mem_slotsReported]
      exact Iff.of_eq (congrArg _ (SMap.get_insert_self _ _ _ _))
    · rw [hwing]
      rfl
  · obtain ⟨t, ht⟩ := exec_porchEvent hears p e
    refine ⟨t, eventCounter e, ?_⟩
    obtain ⟨hexec, honly, hout, hctr, hother, hwing⟩ := ht
    exact ⟨hexec, honly, hout, by cases e <;> rfl, hctr, hother, hwing⟩

end Sys2Proof
end

section
/-! What a REFUSE does to a wing: the count, the higher claim, and the demotion of an active wing (R137, R257, R267, R271). -/

namespace Sys2Proof.Machine

/-! ## Register words and the counters -/

/-- A change of signed words leaves what it leaves of the registers. -/
theorem Wing.withSigned_regs (w : Wing) (f : Wing → Wing) : (w.withSigned f).regs = (f w).regs := by
  unfold Wing.withSigned
  extract_lets v a b d
  split <;> rfl

/-- The counters of a wing and its takeover log, which no register word holds. -/
def Wing.tally (w : Wing) : SMap DWord × DWord := (w.regs.ctr, w.regs.tkoLog)

@[simp] theorem Wing.tally_withSigned (w : Wing) (f : Wing → Wing) : (w.withSigned f).tally = (f w).tally :=
  congrArg (fun r : Regs => (r.ctr, r.tkoLog)) (w.withSigned_regs f)

@[simp] theorem Wing.tally_setCfg (w : Wing) (k : Nat) (v : Word) : (w.setCfg k v).tally = w.tally := rfl

@[simp] theorem Wing.tally_setEff (w : Wing) (k : Nat) (v : Word) : (w.setEff k v).tally = w.tally := rfl

/-- A mirrored word that takes a value leaves the counters. -/
@[simp] theorem Wing.tally_setWord (w : Wing) (k : Nat) (v : Word) : (w.setWord k v).tally = w.tally := by
  unfold Wing.setWord
  extract_lets pan1 w1 regs1 w2 regs2 w2' pch2 w3
  have h1 : w1.tally = w.tally := by unfold w1; (repeat' split) <;> rfl
  have h2 : w2.tally = w1.tally := by unfold w2; (repeat' split) <;> rfl
  have h2' : w2'.tally = w2.tally := by unfold w2'; (repeat' split) <;> rfl
  have h3 : w3.tally = w2'.tally := by unfold w3; (repeat' split) <;> rfl
  rw [Wing.tally_withSigned, Wing.tally_setEff, Wing.tally_setCfg, h3, h2', h2, h1]

theorem Wing.ctr_of_tally {v w : Wing} (h : v.tally = w.tally) (c : Nat) : v.ctr c = w.ctr c :=
  congrArg (fun t : SMap DWord × DWord => SMap.get t.1 0 c) h

/-! ## Demotion -/

/-- A held write that fails counts in the register errors only. -/
theorem Wing.failHeldWrites_counters (w : Wing) :
    (∀ c, c ≠ cRegErr → w.failHeldWrites.ctr c = w.ctr c) ∧ w.failHeldWrites.regs.tkoLog = w.regs.tkoLog := by
  unfold Wing.failHeldWrites
  split
  · exact ⟨fun _ _ => rfl, rfl⟩
  next h _ =>
    extract_lets w0 mine regs0 w1 k regs1 w2
    have h0 : w0.tally = w.tally := foldl_keeps Wing.tally _ (fun v e => by split <;> simp) h.old w
    exact ⟨fun c hc => (Wing.ctr_count_ne w2 hc).trans (Wing.ctr_of_tally h0 c), congrArg Prod.snd h0⟩

theorem Wing.enterJoining_counters (w : Wing) :
    (∀ c, c ≠ cRegErr → w.enterJoining.ctr c = w.ctr c) ∧ w.enterJoining.regs.tkoLog = w.regs.tkoLog :=
  w.failHeldWrites_counters

@[simp] theorem Wing.setWord_ctl (w : Wing) (k : Nat) (v : Word) : (w.setWord k v).ctl = w.ctl := by
  unfold Wing.setWord
  extract_lets pan1 w1 regs1 w2 regs2 w2' pch2 w3
  have h1 : w1.ctl = w.ctl := by unfold w1; (repeat' split) <;> rfl
  have h2 : w2.ctl = w1.ctl := by unfold w2; (repeat' split) <;> rfl
  have h2' : w2'.ctl = w2.ctl := by unfold w2'; (repeat' split) <;> rfl
  have h3 : w3.ctl = w2'.ctl := by unfold w3; (repeat' split) <;> rfl
  simp [h3, h2', h2, h1]

theorem Wing.failHeldWrites_ctl (w : Wing) : w.failHeldWrites.ctl = w.ctl := by
  unfold Wing.failHeldWrites
  split
  · rfl
  next h _ =>
    exact foldl_keeps Wing.ctl _ (fun v e => by split <;> simp) h.old w

/-- What a wing that enters JOINING is to its peer. -/
theorem Wing.enterJoining_role (w : Wing) :
    w.enterJoining.ctl.role = .joining ∧ w.enterJoining.ctl.sendPos = none ∧ w.enterJoining.ctl.duplex = false ∧
      w.enterJoining.ctl.claim = w.ctl.claim ∧ w.enterJoining.ctl.seen = w.ctl.seen ∧ w.enterJoining.ctl.tick = w.ctl.tick := by
  have h := w.failHeldWrites_ctl
  refine ⟨rfl, rfl, rfl, ?_, ?_, ?_⟩ <;> rw [← h] <;> rfl

/-- A START that stops changes nothing of what a role is. -/
theorem Wing.stopBoot_role (w : Wing) :
    w.stopBoot.ctl.role = w.ctl.role ∧ w.stopBoot.ctl.sendPos = w.ctl.sendPos ∧ w.stopBoot.ctl.duplex = w.ctl.duplex ∧
      w.stopBoot.ctl.claim = w.ctl.claim ∧ w.stopBoot.ctl.seen = w.ctl.seen := by
  unfold Wing.stopBoot
  split <;> exact ⟨rfl, rfl, rfl, rfl, rfl⟩

theorem Wing.ctr_stopBoot (w : Wing) (c : Nat) : w.stopBoot.ctr c = w.ctr c := by
  have h : w.stopBoot.regs = w.regs := by simp
  exact congrArg (fun r : Regs => SMap.get r.ctr 0 c) h

theorem Wing.ctr_countIf (w : Wing) (b : Bool) (o k : Nat) :
    (w.countIf b o).ctr k = if b = true ∧ k = o then w.ctr o + 1 else w.ctr k := by
  cases b with
  | false => simp [Wing.countIf]
  | true =>
    by_cases h : k = o
    · subst h
      simp [Wing.countIf]
    · simp [Wing.countIf, h, Wing.ctr_count_ne w h]

theorem Wing.demote_of_inactive {w : Wing} (h : w.ctl.role ≠ .active) : w.demote = w.stopBoot := by
  unfold Wing.demote Wing.when
  simp [h]

/-- R267: an active wing is demoted to JOINING, which is counted and logged; the resync that it ran is counted as dropped. -/
theorem Wing.demote_of_active {w : Wing} (h : w.ctl.role = .active) :
    w.demote.ctl.role = .joining ∧ w.demote.ctl.sendPos = none ∧ w.demote.ctl.duplex = false ∧ w.demote.ctl.claim = w.ctl.claim ∧
      w.demote.ctl.seen = w.ctl.seen ∧ w.demote.ctr cDemote = w.ctr cDemote + 1 ∧
      w.demote.ctr cResyncAbort = w.ctr cResyncAbort + (if w.ctl.sendPos.isSome then 1 else 0) ∧
      w.demote.ctr cOfferRefused = w.ctr cOfferRefused ∧
      w.demote.regs.tkoLog = logFirst w.regs.tkoLog (tkoEntry tkDemoted w.ctl.tick) := by
  let v : Wing := { w with pch := { w.pch with entries := [], replay := [], ended := [], turned := [], deferred := [] } }
  have hdemote : w.demote = (((v.enterJoining.count cDemote).countIf v.ctl.sendPos.isSome cResyncAbort).logTko tkDemoted).stopBoot := by
    unfold Wing.demote Wing.when
    simp only [h, beq_self_eq_true, if_true]
    rfl
  obtain ⟨hrole, hsend, hduplex, hclaim, hseen, htick⟩ := v.enterJoining_role
  obtain ⟨hctr, hlog⟩ := v.enterJoining_counters
  have hctl : (((v.enterJoining.count cDemote).countIf v.ctl.sendPos.isSome cResyncAbort).logTko tkDemoted).ctl = v.enterJoining.ctl := by simp
  obtain ⟨brole, bsend, bduplex, bclaim, bseen⟩ :=
    (((v.enterJoining.count cDemote).countIf v.ctl.sendPos.isSome cResyncAbort).logTko tkDemoted).stopBoot_role
  rw [hctl] at brole bsend bduplex bclaim bseen
  have hcounts (c : Nat) : w.demote.ctr c = ((v.enterJoining.count cDemote).countIf v.ctl.sendPos.isSome cResyncAbort).ctr c := by
    rw [hdemote, Wing.ctr_stopBoot]
    rfl
  refine ⟨hdemote ▸ brole.trans hrole, hdemote ▸ bsend.trans hsend, hdemote ▸ bduplex.trans hduplex, hdemote ▸ bclaim.trans hclaim,
    hdemote ▸ bseen.trans hseen, ?_, ?_, ?_, ?_⟩
  · rw [hcounts, Wing.ctr_countIf, if_neg (fun h => absurd h.2 (by decide)), Wing.ctr_count_self, hctr _ (by decide)]
    rfl
  · rw [hcounts, Wing.ctr_countIf, Wing.ctr_count_ne _ (by decide), hctr _ (by decide)]
    show (if w.ctl.sendPos.isSome = true ∧ _ then w.ctr cResyncAbort + 1 else w.ctr cResyncAbort) = _
    cases w.ctl.sendPos <;> simp
  · rw [hcounts, Wing.ctr_countIf, if_neg (fun h => absurd h.2 (by decide)), Wing.ctr_count_ne _ (by decide), hctr _ (by decide)]
    rfl
  · have hregs : w.demote.regs = (((v.enterJoining.count cDemote).countIf v.ctl.sendPos.isSome cResyncAbort).logTko tkDemoted).regs := by
      rw [hdemote]
      simp
    have hkept : ((v.enterJoining.count cDemote).countIf v.ctl.sendPos.isSome cResyncAbort).regs.tkoLog = w.regs.tkoLog := by
      simpa using hlog
    have hnow : ((v.enterJoining.count cDemote).countIf v.ctl.sendPos.isSome cResyncAbort).now = w.ctl.tick := by
      unfold Wing.now
      simpa using htick
    rw [hregs]
    show logFirst _ (tkoEntry tkDemoted (Wing.now _)) = _
    rw [hkept, hnow]

/-! ## REFUSE -/

/-- What a REFUSE notes before the demotion: the count, and the higher claim (R137, R257). -/
def Wing.noteRefuse (w : Wing) (claim : Word) : Wing :=
  { w.count cOfferRefused with ctl := { w.ctl with
    seen := if w.ctl.seen.toNat < claim.toNat then claim else w.ctl.seen, refused := true } }

theorem Wing.refused_eq (w : Wing) (claim : Word) : w.refused claim = (w.noteRefuse claim).demote := rfl

theorem Wing.seen_noteRefuse (w : Wing) (claim : Word) :
    (w.noteRefuse claim).ctl.seen.toNat = max w.ctl.seen.toNat claim.toNat := by
  show (if w.ctl.seen.toNat < claim.toNat then claim else w.ctl.seen).toNat = _
  split <;> omega

theorem Wing.refused_spec (w : Wing) (claim : Word) :
    (w.refused claim).ctr cOfferRefused = w.ctr cOfferRefused + 1 ∧
      (w.refused claim).ctl.seen.toNat = max w.ctl.seen.toNat claim.toNat ∧ (w.refused claim).ctl.claim = w.ctl.claim ∧
      (w.refused claim).ctl.role = (if w.ctl.role = .active then .joining else w.ctl.role) ∧
      (w.ctl.role = .active → (w.refused claim).ctr cDemote = w.ctr cDemote + 1 ∧
        (w.refused claim).ctr cResyncAbort = w.ctr cResyncAbort + (if w.ctl.sendPos.isSome then 1 else 0) ∧
        (w.refused claim).ctl.sendPos = none ∧ (w.refused claim).ctl.duplex = false ∧
        (w.refused claim).regs.tkoLog = logFirst w.regs.tkoLog (tkoEntry tkDemoted w.ctl.tick)) := by
  have hseen := w.seen_noteRefuse claim
  have hctr (c : Nat) : (w.noteRefuse claim).ctr c = (w.count cOfferRefused).ctr c := rfl
  rw [Wing.refused_eq]
  by_cases h : w.ctl.role = .active
  · obtain ⟨drole, dsend, dduplex, dclaim, dseen, dcount, dabort, drefused, dlog⟩ := Wing.demote_of_active (w := w.noteRefuse claim) h
    rw [hctr, Wing.ctr_count_ne w (by decide)] at dcount dabort
    rw [hctr, Wing.ctr_count_self] at drefused
    exact ⟨drefused, dseen ▸ hseen, dclaim, drole.trans (if_pos h).symm, fun _ => ⟨dcount, dabort, dsend, dduplex, dlog⟩⟩
  · rw [Wing.demote_of_inactive (w := w.noteRefuse claim) h]
    obtain ⟨brole, -, -, bclaim, bseen⟩ := (w.noteRefuse claim).stopBoot_role
    refine ⟨?_, bseen ▸ hseen, bclaim, brole.trans (if_neg h).symm, fun ha => absurd ha h⟩
    rw [Wing.ctr_stopBoot, hctr, Wing.ctr_count_self]

end Sys2Proof.Machine

namespace Sys2Proof

open Machine

/-- Settles O25: a REFUSE is the count and the claim, and then `Wing.demote`. -/
theorem refuseDemotes : Obligations.RefuseDemotes := by
  unfold Obligations.RefuseDemotes
  intro s w p claim hears
  obtain ⟨t, ht, honly, hwing, -⟩ := (stepsWing_refuse s w p claim).leaves (if_pos hears)
  refine ⟨t, ht, honly, ?_⟩
  rw [hwing]
  exact (s.wing w).silent.refused_spec claim

end Sys2Proof
end

section
/-! REPLAY_END, and how the close of a tick applies a replayed entry (R138, R139, R263). -/

namespace Sys2Proof.Machine

/-! ## REPLAY_END -/

theorem Wing.isActive_iff (w : Wing) : w.isActive = true ↔ w.life = .run ∧ w.ctl.role = .active := by
  simp [Wing.isActive, Wing.running]

theorem Wing.takesBeats_of_isActive {w : Wing} (h : w.isActive = true) : w.takesBeats = true := by
  simp [Wing.takesBeats, ((Wing.isActive_iff w).1 h).1]

/-- The replay of an active wing is marked whole. -/
theorem Wing.replayEnded_active {w : Wing} {p : Byte} (h : w.isActive = true) (hreplay : (SMap.find? w.pch.replay p.toNat).isSome = true)
    (hended : p.toNat ∉ w.pch.ended) : w.replayEnded p = { w with pch := { w.pch with ended := w.pch.ended ++ [p.toNat] } } := by
  simp [Wing.replayEnded, h, hreplay, hended, ((Wing.isActive_iff w).1 h).2]

/-- To a wing that is not active the porch has turned. -/
theorem Wing.replayEnded_turned {w : Wing} (hears : w.takesBeats = true) (hrole : w.ctl.role ≠ .active) (p : Byte) :
    w.replayEnded p = { w with pch := { w.pch with turned := w.pch.turned.filter (· != p.toNat) ++ [p.toNat] } } := by
  simp [Wing.replayEnded, hears, hrole]

theorem Wing.replayEnded_stands {w : Wing} {p : Byte}
    (h : w.takesBeats = false ∨ w.ctl.role = .active ∧ (w.isActive = false ∨ SMap.find? w.pch.replay p.toNat = none ∨ p.toNat ∈ w.pch.ended)) :
    w.replayEnded p = w := by
  rcases h with hdeaf | ⟨hrole, hno | hno | hno⟩
  · have hinactive : w.isActive = false := by
      by_contra hact
      simp [Wing.takesBeats_of_isActive (Bool.not_eq_false _ ▸ hact : w.isActive = true)] at hdeaf
    simp [Wing.replayEnded, hdeaf, hinactive]
  · simp [Wing.replayEnded, hrole, hno]
  · simp [Wing.replayEnded, hrole, hno]
  · simp [Wing.replayEnded, hrole, hno]

theorem stepsWing_replayEnd (s : State) (w : WingId) (p : Byte) : StepsWing (.replayEnd w p) s w fun v => v.replayEnded p :=
  stepsWing rfl

/-! ## One replayed entry (R139) -/

/-- A replay of one entry that is settled, and no slot report: the replay is over, and the wing is as the entry leaves it. -/
theorem Wing.applyReplay_one {w v : Wing} {p : Byte} {e : Entry} (hended : p.toNat ∈ w.pch.ended)
    (hreplay : SMap.find? w.pch.replay p.toNat = some [e]) (hentry : w.replayEntry p e = some v)
    (hrep : SMap.get v.pch.slotRep [] p.toNat = []) :
    w.applyReplay p = { v with pch := { v.pch with
      replay := SMap.erase v.pch.replay p.toNat
      ended := v.pch.ended.filter (· != p.toNat)
      slotRep := SMap.set v.pch.slotRep [] p.toNat [] } } := by
  have hlist : Wing.replayList p (SMap.get w.pch.replay [] p.toNat) w = (v, []) := by
    simp [SMap.get, hreplay, Wing.replayList, hentry]
  unfold Wing.applyReplay
  rw [hlist]
  simp [hended, Wing.applySlotReport, hrep]

/-- The slot report of the porch, and its other beats, stand while an entry is settled. -/
theorem Wing.slotRep_of_replayEntry {w v : Wing} {p : Byte} {e : Entry} (h : w.replayEntry p e = some v) :
    v.pch.slotRep = w.pch.slotRep := by
  unfold Wing.replayEntry at h
  split at h
  · cases h
    simp
  · split at h
    · cases h
      simp
    · split at h
      · cases h
        unfold Wing.applyEntry
        cases e.kind <;> simp [Wing.setJseq]
      · cases h

theorem Wing.replayEntry_isSome {w : Wing} {p : Byte} {e : Entry} (h : w.mayCarry e.key = true) : ∃ v, w.replayEntry p e = some v := by
  unfold Wing.replayEntry
  split
  · exact ⟨_, rfl⟩
  · split
    · exact ⟨_, rfl⟩
    · exact ⟨_, rfl⟩

theorem Wing.replayEntry_old {w : Wing} {p : Byte} {e : Entry}
    (h : jseqLe e.jseq (SMap.get w.pch.jseqCommit 0xFFFF p.toNat) = true) : w.replayEntry p e = some (w.count cReplayDup) :=
  if_pos h

/-- A later CLAIM of a vector PRESENTED at the porch takes effect. -/
theorem Wing.replayEntry_claim {w : Wing} {p : Byte} {e : Entry} {n : Nat} {sl : Slot}
    (hnew : jseqLe e.jseq (SMap.get w.pch.jseqCommit 0xFFFF p.toNat) = false) (hkind : e.kind = .claim) (hcarry : w.mayCarry e.key = true)
    (hslot : w.slotFor e.key = some (n, sl)) (hstate : sl.ctx.state = .presented) (hcore : sl.ctx.lastCore = p) :
    w.replayEntry p e = some ((((w.setJseq p e.jseq).updCtx e.key w.now Ctx.claim).place (replayRec p e)).count cReplay) := by
  have hctx := w.ctx?_of_slotFor hslot
  have hctx' : (w.setJseq p e.jseq).ctx? e.key = some sl.ctx := hctx
  have hfails : w.entryFails p e = false := by simp [Wing.entryFails, hctx, hkind, hstate, hcore]
  simp only [Wing.replayEntry, hnew, hfails, hcarry, Wing.applyEntry, hkind, Wing.applyClaim, hctx', hstate, hcore,
    Bool.false_eq_true, if_false, if_true, and_self]

theorem Wing.claimed_slots {w : Wing} {p : Byte} {e : Entry} {n : Nat} {sl : Slot} (hslot : w.slotFor e.key = some (n, sl)) :
    ((((w.setJseq p e.jseq).updCtx e.key w.now Ctx.claim).place (replayRec p e)).count cReplay).pan.slots =
      SMap.insert w.pan.slots n { sl with ctx := sl.ctx.changed sl.ctx.claim w.now } := by
  have hslots := Wing.updCtx_slots (w.setJseq p e.jseq) e.key w.now Ctx.claim hslot
  simpa using hslots

theorem Wing.claimed_counts (w : Wing) (p : Byte) (e : Entry) :
    ((((w.setJseq p e.jseq).updCtx e.key w.now Ctx.claim).place (replayRec p e)).count cReplay).ctr cReplay = w.ctr cReplay + 1 := by
  rw [Wing.ctr_count_self]
  have hregs : (((w.setJseq p e.jseq).updCtx e.key w.now Ctx.claim).place (replayRec p e)).regs = w.regs := by simp [Wing.setJseq]
  exact congrArg (fun r : Regs => SMap.get r.ctr 0 cReplay + 1) hregs

theorem Wing.claimed_jseq (w : Wing) (p : Byte) (e : Entry) :
    SMap.get ((((w.setJseq p e.jseq).updCtx e.key w.now Ctx.claim).place (replayRec p e)).count cReplay).pch.jseqCommit 0xFFFF p.toNat =
      e.jseq := by
  simp [Wing.setJseq]

end Sys2Proof.Machine

namespace Sys2Proof

open Machine

/-- Settles O26: a replay of one entry is `Wing.replayEntry`, which counts a duplicate or applies the claim. -/
theorem replaysApplyNewEntries : Obligations.ReplaysApplyNewEntries := by
  unfold Obligations.ReplaysApplyNewEntries
  refine ⟨fun s w p => ⟨fun hact hreplay hended => ?_, fun hears hrole => ?_, fun h => ?_⟩, ?_⟩
  · obtain ⟨t, ht, honly, hwing, hout⟩ := (stepsWing_replayEnd s w p).leaves
      (Wing.replayEnded_active (w := (s.wing w).silent) hact hreplay hended)
    exact ⟨t, ht, honly, hout, hwing⟩
  · obtain ⟨t, ht, honly, hwing, hout⟩ := (stepsWing_replayEnd s w p).leaves
      (Wing.replayEnded_turned (w := (s.wing w).silent) hears hrole p)
    refine ⟨t, ht, honly, hout, ?_, fun q hq => ?_, ?_⟩
    · simp [hwing]
    · simp [hwing, hq]
    · rw [hwing]
      rfl
  · exact (stepsWing_replayEnd s w p).stands (Wing.replayEnded_stands (w := (s.wing w).silent) h)
  · intro w p e n sl hended hcarry hreplay hrep hslot
    obtain ⟨v, hv⟩ := Wing.replayEntry_isSome (w := w) (p := p) hcarry
    have hrep' : SMap.get v.pch.slotRep [] p.toNat = [] := by rw [Wing.slotRep_of_replayEntry hv, hrep]
    rw [Wing.applyReplay_one hended hreplay hv hrep']
    refine ⟨SMap.find?_erase_self _ _, by simp, fun hold => ?_, fun hnew hkind hstate hcore => ?_⟩
    · cases hv.symm.trans (Wing.replayEntry_old hold)
      exact ⟨w.ctr_count_self cReplayDup, rfl⟩
    · cases hv.symm.trans (Wing.replayEntry_claim hnew hkind hcarry hslot hstate hcore)
      exact ⟨w.claimed_counts p e, w.claimed_jseq p e, _, Wing.claimed_slots hslot, by simp [Ctx.claim], by simp [Ctx.claim]⟩

end Sys2Proof
end

section
/-! Acceptances: an answer, or the lack of one, settles the offers of a release in their order (R62, R63, R123). -/

namespace Sys2Proof.Machine

/-! ## One accepted offer -/

/-- The ACCEPT record of an offer. -/
def acceptRec (p : Byte) (key : Word) : Rec := .accept { porch := p, key := key }

theorem Wing.acceptAhead_offered (w : Wing) (p : Byte) (key : Word) : (w.acceptAhead p key).hall.offered = w.hall.offered := by
  unfold Wing.acceptAhead
  extract_lets hall0 w1
  split
  · rfl
  next s _ =>
    split
    · rfl
    · extract_lets c1
      unfold Wing.updCtx
      rw [(Wing.modCtx_keeps _ _ _).2.2.2.2.2.2.2.2.2.1]
      unfold Wing.noteAcceptance
      extract_lets n acc hall1 w2
      split <;> rfl

/-- An accepted offer has its record at the end of the acceptances, and leaves the other offers. -/
theorem Wing.acceptOffer_record (w : Wing) (p : Byte) (key : Word) :
    (w.acceptOffer p key).psg.acc = w.psg.acc ++ [acceptRec p key] ∧ (w.acceptOffer p key).hall.offered = w.hall.offered := by
  unfold Wing.acceptOffer
  refine ⟨?_, ?_⟩
  · rw [(Wing.acceptAhead_keeps _ p key).2.2.2.2.2.2.2.2.2.2.2.2.1, Wing.place_psg]
    rfl
  · rw [Wing.acceptAhead_offered]
    simp

/-- Offers that are settled one after the other: those accepted have their records, in order. -/
theorem foldl_acceptOffer (p : Byte) (ok : Nat → Bool) (l : List (Nat × BitVec 97)) (w : Wing) :
    (l.foldl (fun w e => if ok e.1 then w.acceptOffer p (rkKey e.2) else w) w).psg.acc =
        w.psg.acc ++ (l.filter fun e => ok e.1).map (fun e => acceptRec p (rkKey e.2)) ∧
      (l.foldl (fun w e => if ok e.1 then w.acceptOffer p (rkKey e.2) else w) w).hall.offered = w.hall.offered ∧
      (l.foldl (fun w e => if ok e.1 then w.acceptOffer p (rkKey e.2) else w) w).regs = w.regs ∧
      (l.foldl (fun w e => if ok e.1 then w.acceptOffer p (rkKey e.2) else w) w).pch = w.pch := by
  induction l generalizing w with
  | nil => simp
  | cons e l ih =>
    obtain ⟨hacc, hoff, hregs, hpch⟩ := ih (if ok e.1 then w.acceptOffer p (rkKey e.2) else w)
    rw [List.foldl_cons, hacc, hoff, hregs, hpch]
    cases hok : ok e.1 with
    | false => simp [hok]
    | true =>
      obtain ⟨hacc1, hoff1⟩ := w.acceptOffer_record p (rkKey e.2)
      simp [hok, hacc1, hoff1]

/-! ## The offers of a release -/

theorem SMap.get_of_find? {α : Type} {m : SMap α} {d a : α} {k : Nat} (h : SMap.find? m k = some a) : SMap.get m d k = a := by
  simp [SMap.get, h]

/-- The offers of a release to a porch are settled: none waits any more, and those accepted have their records. -/
theorem Wing.settleOffers_spec (w : Wing) (p : Byte) (ok : Nat → Bool) {offers : List (BitVec 97)}
    (h : SMap.find? w.hall.offered p.toNat = some offers) :
    SMap.find? (w.settleOffers p ok).hall.offered p.toNat = none ∧
      (w.settleOffers p ok).psg.acc = w.psg.acc ++
        (((List.range offers.length).zip offers).filter fun e => ok e.1).map (fun e => acceptRec p (rkKey e.2)) ∧
      (w.settleOffers p ok).regs = w.regs ∧ (w.settleOffers p ok).pch = w.pch := by
  have hget : SMap.get w.hall.offered [] p.toNat = offers := SMap.get_of_find? h
  unfold Wing.settleOffers
  rw [hget]
  extract_lets l hall1 psg1 w1
  obtain ⟨hacc, hoff, hregs, hpch⟩ := foldl_acceptOffer p ok ((List.range l.length).zip l) w1
  rw [hacc, hoff, hregs, hpch]
  exact ⟨SMap.find?_erase_self _ _, rfl, rfl, rfl⟩

/-- What a fold over a wing and a mark leaves of the wing. -/
theorem foldl_fst_keeps {α β γ : Type} (g : Wing → γ) (f : Wing × β → α → Wing × β) (h : ∀ a x, g (f a x).1 = g a.1) (l : List α)
    (a : Wing × β) : g (l.foldl f a).1 = g a.1 := by
  induction l generalizing a with
  | nil => rfl
  | cons x l ih => exact (ih (f a x)).trans (h a x)

/-- What a porch no longer holds goes back in returns of the ordered group: the acceptances stand. -/
theorem Wing.checkHeld_keeps (w : Wing) (p : Byte) (held : List Word) :
    (w.checkHeld p held).psg.acc = w.psg.acc ∧ (w.checkHeld p held).hall.offered = w.hall.offered := by
  have hfold {γ : Type} (g : Wing → γ) (hg : ∀ (v : Wing) (k : Word),
      g (((v.applyReturn p k v.now).place (.claim (synthReturn p k))).count cRspLate) = g v) (hp : ∀ (v : Wing) (q : PorchSide), g { v with pch := q } = g v) :
      g (w.checkHeld p held) = g w := by
    unfold Wing.checkHeld
    extract_lets sent named gone go r
    have hr : g r.1 = g w := by
      refine foldl_fst_keeps g go (fun a k => ?_) gone (w, false)
      unfold go
      split
      · exact hg a.1 k
      · rfl
    split
    · exact hr
    · exact (hp r.1 _).trans hr
  refine ⟨hfold (·.psg.acc) (fun v k => ?_) fun _ _ => rfl, hfold (·.hall.offered) (fun v k => ?_) fun _ _ => rfl⟩
  · simp [Wing.place_psg, Rec.group]
  · simp

/-- Offers of which every one is accepted. -/
theorem zip_range_filter_true (offers : List (BitVec 97)) (f : BitVec 97 → Rec) :
    (((List.range offers.length).zip offers).filter fun _ => true).map (fun e => f e.2) = offers.map f := by
  rw [List.filter_true, show (fun e : Nat × BitVec 97 => f e.2) = f ∘ Prod.snd from rfl, ← List.map_map, List.map_snd_zip (by simp)]

/-! ## The commands -/

theorem stepsWing_acceptRsp (s : State) (w : WingId) (p : Byte) (bits : BitVec 4) (held : List Word) :
    StepsWing (.acceptRsp w p bits held) s w fun v => v.acceptRsp p bits held :=
  stepsWing rfl

theorem stepsWing_acceptRspTimeout (s : State) (w : WingId) (p : Byte) :
    StepsWing (.acceptRspTimeout w p) s w fun v => v.acceptLate p :=
  stepsWing rfl

theorem Wing.acceptRsp_spec {w : Wing} {p : Byte} {offers : List (BitVec 97)} (hact : w.isActive = true)
    (h : SMap.find? w.hall.offered p.toNat = some offers) (bits : BitVec 4) (held : List Word) :
    SMap.find? (w.acceptRsp p bits held).hall.offered p.toNat = none ∧
      (w.acceptRsp p bits held).psg.acc = w.psg.acc ++
        (((List.range offers.length).zip offers).filter fun e => bits.getLsbD e.1).map (fun e => acceptRec p (rkKey e.2)) := by
  obtain ⟨hoff, hacc, -, -⟩ := w.noteAnswer.settleOffers_spec p (fun i => bits.getLsbD i) (offers := offers) h
  unfold Wing.acceptRsp
  rw [if_neg (by simp [hact]), if_neg (by simp [h])]
  extract_lets w1
  split
  · obtain ⟨kacc, koff⟩ := w1.checkHeld_keeps p held
    exact ⟨koff ▸ hoff, kacc.trans hacc⟩
  · exact ⟨hoff, hacc⟩

theorem Wing.acceptLate_spec {w : Wing} {p : Byte} {offers : List (BitVec 97)} (hact : w.isActive = true)
    (h : SMap.find? w.hall.offered p.toNat = some offers) :
    SMap.find? (w.acceptLate p).hall.offered p.toNat = none ∧ p.toNat ∈ (w.acceptLate p).pch.late ∧
      (w.acceptLate p).ctr cRspLate = w.ctr cRspLate + 1 ∧
      (w.acceptLate p).psg.acc = w.psg.acc ++ offers.map fun k => acceptRec p (rkKey k) := by
  obtain ⟨hoff, hacc, hregs, hpch⟩ := w.settleOffers_spec p (fun _ => true) h
  unfold Wing.acceptLate
  rw [if_neg (by simp [hact, h])]
  extract_lets w1
  refine ⟨hoff, ?_, ?_, hacc.trans (congrArg _ (zip_range_filter_true offers fun k => acceptRec p (rkKey k)))⟩
  · show p.toNat ∈ if w1.pch.late.contains p.toNat then w1.pch.late else w1.pch.late ++ [p.toNat]
    split
    next hin => simpa using hin
    next => simp
  · show ((w.settleOffers p fun _ => true).count cRspLate).ctr cRspLate = _
    rw [Wing.ctr_count_self, Wing.ctr, hregs, Wing.ctr]

/-! ## The vector of an accepted offer (R62, R63) -/

/-- The wing behind a single accepted offer of a vector that was PENDING, on which no arrival of the tick came. -/
theorem Wing.acceptAhead_slots {w : Wing} {p : Byte} {key : Word} {img : RankImg} {n m : Nat} {sl sl0 : Slot}
    (himg : w.hall.img0 = some img) (hfound : findKey key img.slots = some (m, sl0)) (hstate : sl0.ctx.state = .pending)
    (hslot : w.slotFor key = some (n, sl)) (hnone : w.arrivalsInFrame key = []) :
    ∃ c : Ctx, (w.acceptAhead p key).pan.slots = SMap.insert w.pan.slots n { sl with ctx := c } ∧
      c.key = sl.ctx.key ∧ c.state = .presented ∧ c.hasLast = true ∧ c.lastCore = p ∧ c.count = 0 := by
  unfold Wing.acceptAhead
  extract_lets hall0 w1
  rw [himg, Option.bind_some, hfound]
  simp only [hstate, ne_eq, not_true_eq_false, if_false, Ctx.acceptThen, hnone, List.foldl_nil]
  have hpan : (w1.noteAcceptance p sl0.ctx w.now).pan = w.pan := by simp [w1]
  have hslot' : (w1.noteAcceptance p sl0.ctx w.now).slotFor key = some (n, sl) := by rw [Wing.slotFor, hpan]; exact hslot
  rw [Wing.updCtx_slots _ _ _ _ hslot', hpan]
  exact ⟨_, rfl, by simp [Ctx.accept]⟩

/-- A release of one offer that is accepted in time by a porch that answered the one before in time. -/
theorem Wing.acceptRsp_one {w : Wing} {p : Byte} {k : BitVec 97} {held : List Word} {img : RankImg} {n m : Nat} {sl sl0 : Slot}
    (hact : w.isActive = true) (hlate : w.pch.late.contains p.toNat = false) (hoff : SMap.get w.hall.offered [] p.toNat = [k])
    (himg : w.hall.img0 = some img) (hfound : findKey (rkKey k) img.slots = some (m, sl0)) (hstate : sl0.ctx.state = .pending)
    (hslot : w.slotFor (rkKey k) = some (n, sl)) (hnone : w.arrivalsInFrame (rkKey k) = []) :
    ∃ c : Ctx, (w.acceptRsp p 1 held).pan.slots = SMap.insert w.pan.slots n { sl with ctx := c } ∧
      c.key = sl.ctx.key ∧ c.state = .presented ∧ c.hasLast = true ∧ c.lastCore = p ∧ c.count = 0 := by
  have hfind : SMap.find? w.hall.offered p.toNat = some [k] := by
    unfold SMap.get at hoff
    cases hf : SMap.find? w.hall.offered p.toNat with
    | none => simp [hf] at hoff
    | some l => simpa [hf] using hoff
  let v : Wing := { w.noteAnswer with
    hall := { w.noteAnswer.hall with offered := SMap.erase w.noteAnswer.hall.offered p.toNat }
    psg := { w.noteAnswer.psg with accOwed := w.noteAnswer.psg.accOwed - 1 } }
  have hrsp : w.acceptRsp p 1 held = (v.place (acceptRec p (rkKey k))).acceptAhead p (rkKey k) := by
    have hget : SMap.get w.noteAnswer.hall.offered [] p.toNat = [k] := hoff
    have hlate' : (w.noteAnswer.settleOffers p fun i => (1 : BitVec 4).getLsbD i) = (v.place (acceptRec p (rkKey k))).acceptAhead p (rkKey k) := by
      simp only [Wing.settleOffers, hget]
      simp [List.range_succ]
      rfl
    unfold Wing.acceptRsp
    rw [if_neg (by simp [hact]), if_neg (by simp [hfind]), if_neg (fun h => by rw [hlate] at h; cases h)]
    exact hlate'
  rw [hrsp]
  exact Wing.acceptAhead_slots (w := v.place (acceptRec p (rkKey k))) himg hfound hstate hslot hnone

end Sys2Proof.Machine

namespace Sys2Proof

open Machine

/-- Settles O24: an answer settles the offers one after the other, each with its record; a single accepted offer leaves its vector as
`Ctx.accept` does. -/
theorem acceptancesAreRecorded : Obligations.AcceptancesAreRecorded := by
  unfold Obligations.AcceptancesAreRecorded
  refine ⟨fun s w p => ⟨fun hact offers hoff => ⟨fun bits held => ?_, ?_⟩, fun hact hoff => ⟨fun bits held => ?_, ?_⟩,
    fun hact i bits held hi => ?_⟩, ?_⟩
  · obtain ⟨t, ht, honly, hwing, -⟩ := stepsWing_acceptRsp s w p bits held
    refine ⟨t, ht, honly, ?_⟩
    rw [hwing]
    exact Wing.acceptRsp_spec (w := (s.wing w).silent) hact hoff bits held
  · obtain ⟨t, ht, honly, hwing, -⟩ := stepsWing_acceptRspTimeout s w p
    refine ⟨t, ht, honly, ?_⟩
    rw [hwing]
    exact Wing.acceptLate_spec (w := (s.wing w).silent) hact hoff
  · have hnote : (s.wing w).silent.acceptRsp p bits held = (s.wing w).silent.noteAnswer := by
      simp [Wing.acceptRsp, hact, hoff]
    obtain ⟨t, ht, honly, hwing, hout⟩ := (stepsWing_acceptRsp s w p bits held).leaves hnote
    exact ⟨t, ht, honly, hout, by rw [hwing]; rfl, by rw [hwing]; rfl, by rw [hwing]; rfl⟩
  · have hstands : (s.wing w).silent.acceptLate p = (s.wing w).silent := by simp [Wing.acceptLate, hoff]
    obtain ⟨t, ht, honly, -, hwing⟩ := (stepsWing_acceptRspTimeout s w p).stands hstands
    exact ⟨t, ht, honly, hwing⟩
  · have hrsp : (s.wing w).silent.acceptRsp p bits held = (s.wing w).silent := by simp [Wing.acceptRsp, hact]
    have hlate : (s.wing w).silent.acceptLate p = (s.wing w).silent := by simp [Wing.acceptLate, hact]
    simp only [List.mem_cons, List.not_mem_nil, or_false] at hi
    rcases hi with rfl | rfl
    · obtain ⟨t, ht, honly, -, hwing⟩ := (stepsWing_acceptRsp s w p bits held).stands hrsp
      exact ⟨t, ht, honly, hwing⟩
    · obtain ⟨t, ht, honly, -, hwing⟩ := (stepsWing_acceptRspTimeout s w p).stands hlate
      exact ⟨t, ht, honly, hwing⟩
  · intro s w p k held img n m sl sl0 hact hlate hoff himg hfound hstate hslot hnone
    obtain ⟨t, ht, -, hwing, -⟩ := stepsWing_acceptRsp s w p 1 held
    obtain ⟨c, hc⟩ := Wing.acceptRsp_one (w := (s.wing w).silent) (held := held) hact hlate hoff himg hfound hstate hslot hnone
    refine ⟨t, c, ht, ?_⟩
    rw [hwing]
    exact hc

end Sys2Proof
end

section
/-! What WINDOW_END, STANDBY_IMAGE_EXPIRY and FILTER_ENTRY_EXPIRY leave (R62, R63, R75, R211). -/

namespace Sys2Proof.Machine

/-! ## The window of a context -/

theorem VState.code_injective : Function.Injective VState.code := by
  intro a b h
  cases a <;> cases b <;> simp_all [VState.code]

/-- The state of a context stands in bits 32 to 34 of its entry (R60). -/
theorem Ctx.image_state (c : Ctx) : c.image.extractLsb' 32 3 = c.state.code := by
  simp (disch := decide) only [Ctx.image, Ctx.stateWord, HAppend.hAppend, extractLsb'_append_high, extractLsb'_append_low,
    Nat.reduceAdd, Nat.reduceSub, extractLsb'_whole]

/-- Contexts in different states do not agree in their entries. -/
theorem Ctx.sameImage_of_state_ne {a b : Ctx} (h : a.state ≠ b.state) : a.sameImage b = false := by
  have himage : a.image ≠ b.image := fun e => h (VState.code_injective (by rw [← a.image_state, ← b.image_state, e]))
  simp [Ctx.sameImage, himage]

theorem Ctx.sameImage_self (c : Ctx) : c.sameImage c = true := by simp [Ctx.sameImage]

/-- An end of the window that is due. -/
theorem Ctx.windowChanged_endWindow_of_due {c : Ctx} {t : Tick} (hstate : c.state = .completed) (hdue : c.modEnd.toNat ≤ t.toNat) :
    c.windowChanged (c.endWindow t) t =
      { c with state := if c.count = 0 then .idle else .pending, touched := t, wbFresh := false } := by
  have hend : c.endWindow t = { c with state := if c.count = 0 then .idle else .pending } := if_pos ⟨hstate, hdue⟩
  have hne : c.state ≠ (if c.count = 0 then VState.idle else .pending) := by rw [hstate]; split <;> decide
  rw [hend, Ctx.windowChanged, Ctx.sameImage_of_state_ne hne]
  rfl

/-- No end of the window is due. -/
theorem Ctx.windowChanged_endWindow_of_not_due {c : Ctx} {t : Tick} (h : c.state ≠ .completed ∨ t.toNat < c.modEnd.toNat) :
    c.windowChanged (c.endWindow t) t = c := by
  have hend : c.endWindow t = c := if_neg fun hdue => h.elim (· hdue.1) (Nat.not_lt.2 hdue.2)
  rw [hend, Ctx.windowChanged, Ctx.sameImage_self]
  rfl

/-! ## The commands -/

/-- What is left of a list when the elements that meet a condition are dropped. -/
theorem mem_filter_not {α : Type} {l : List α} {x : α} {p : α → Bool} {P : Prop} (h : p x = true ↔ P) :
    x ∈ l.filter (fun e => !p e) ↔ x ∈ l ∧ ¬ P := by
  rw [List.mem_filter, Bool.not_eq_true', Bool.eq_false_iff, Ne, h]

/-- What WINDOW_END does to a wing. -/
def Wing.endsWindow (key : Word) (v : Wing) : Wing :=
  match v.closedTick with
  | some t => if v.running then v.modCtx key fun c => c.windowChanged (c.endWindow t) t else v
  | none => v

theorem stepsWing_windowEnd (s : State) (w : WingId) (key : Word) :
    StepsWing (.windowEnd w key) s w (Wing.endsWindow key) := stepsWing rfl

theorem Wing.endsWindow_resident {v : Wing} {key : Word} {t : Tick} {n : Nat} {sl : Slot} (hrun : v.running = true)
    (hclosed : v.closedTick = some t) (hslot : v.slotFor key = some (n, sl)) :
    v.endsWindow key = v.setSlots (SMap.insert v.pan.slots n { sl with ctx := sl.ctx.windowChanged (sl.ctx.endWindow t) t }) := by
  simp [Wing.endsWindow, hclosed, hrun, Wing.modCtx, Wing.modSlot, hslot]

theorem Wing.endsWindow_stands {v : Wing} {key : Word} (h : v.running = false ∨ v.closedTick = none ∨ v.slotFor key = none) :
    v.endsWindow key = v := by
  unfold Wing.endsWindow
  cases hclosed : v.closedTick with
  | none => rfl
  | some t =>
    cases hrun : v.running with
    | false => rfl
    | true =>
      have hslot : v.slotFor key = none := by simpa [hrun, hclosed] using h
      simp [Wing.modCtx, Wing.modSlot, hslot]

theorem stepsWing_standbyImageExpiry (s : State) (w : WingId) (key : Word) :
    StepsWing (.standbyImageExpiry w key) s w fun v =>
      if v.receives then
        { v with pan := { v.pan with images := v.pan.images.filter fun i =>
            !(i.ctx.key == key && decide (i.tick.toNat + 16 ≤ v.now.toNat)) } }
      else v := stepsWing rfl

theorem stepsWing_filterEntryExpiry (s : State) (w : WingId) (slice : BitVec 12) (tag : Word) :
    StepsWing (.filterEntryExpiry w slice tag) s w fun v =>
      if v.running then
        { v with vst := { v.vst with filter := v.vst.filter.filter fun e =>
            !(e.2.slice == slice && e.2.jobTag == tag && decide (e.2.tick.toNat + 65536 ≤ v.now.toNat)) } }
      else v := stepsWing rfl

end Sys2Proof.Machine

namespace Sys2Proof

open Machine

/-- Settles O27: a window, an image and a filter entry end when their tick has come, and nothing else changes. -/
theorem windowsImagesAndFilterEntriesEnd : Obligations.WindowsImagesAndFilterEntriesEnd := by
  unfold Obligations.WindowsImagesAndFilterEntriesEnd
  refine fun s w key => ⟨fun n sl t0 hrun hclosed hslot => ⟨fun hstate hdue => ?_, fun hnot => ?_⟩, fun hstands => ?_,
    fun hrec => ?_, fun hrec => ?_, fun slice tag => ⟨fun hrun => ?_, fun hrun => ?_⟩⟩
  · obtain ⟨t, ht, honly, hwing, hout⟩ := (stepsWing_windowEnd s w key).leaves
      (Wing.endsWindow_resident (v := (s.wing w).silent) hrun hclosed hslot)
    rw [Ctx.windowChanged_endWindow_of_due hstate hdue] at hwing
    refine ⟨t, { sl.ctx with state := if sl.ctx.count = 0 then .idle else .pending, touched := t0, wbFresh := false },
      ht, honly, hout, rfl, rfl, rfl, hwing⟩
  · obtain ⟨t, ht, honly, hwing, hout⟩ := (stepsWing_windowEnd s w key).leaves
      (Wing.endsWindow_resident (v := (s.wing w).silent) hrun hclosed hslot)
    rw [Ctx.windowChanged_endWindow_of_not_due hnot] at hwing
    exact ⟨t, ht, honly, hout, hwing⟩
  · exact (stepsWing_windowEnd s w key).stands (Wing.endsWindow_stands (v := (s.wing w).silent) hstands)
  · obtain ⟨t, ht, honly, hwing, hout⟩ := (stepsWing_standbyImageExpiry s w key).leaves (if_pos hrec)
    refine ⟨t, ht, honly, hout, fun i => ?_, by rw [hwing]; rfl⟩
    rw [hwing]
    exact mem_filter_not (by simp only [Bool.and_eq_true, beq_iff_eq, decide_eq_true_eq]; rfl)
  · exact (stepsWing_standbyImageExpiry s w key).stands (if_neg (Bool.eq_false_iff.1 hrec))
  · obtain ⟨t, ht, honly, hwing, hout⟩ := (stepsWing_filterEntryExpiry s w slice tag).leaves (if_pos hrun)
    refine ⟨t, ht, honly, hout, fun e => ?_, by rw [hwing]; rfl⟩
    rw [hwing]
    exact mem_filter_not (by simp only [Bool.and_eq_true, beq_iff_eq, decide_eq_true_eq, and_assoc]; rfl)
  · exact (stepsWing_filterEntryExpiry s w slice tag).stands (if_neg (Bool.eq_false_iff.1 hrun))

end Sys2Proof
end

section
/-! How a wing raises its claim (R257, R258), and what ACK_DEADLINE, STANDBY_LOST and PROVISIONAL_COMMIT leave (R13, R25, R260, R261). -/

namespace Sys2Proof.Machine

/-! ## Raising the claim -/

/-- A claim that a wing with its side and its greatest claim seen may raise: the least of its parity above it (R258). -/
def Wing.MayRaise (w : Wing) (c : Word) : Prop :=
  w.ctl.seen.toNat < c.toNat ∧ c.toNat ≤ w.ctl.seen.toNat + 2 ∧ c.toNat % 2 = (if w.id = .west then 1 else 0)

/-- Below the top of the range there is a next claim. -/
theorem Wing.nextClaim_of_room {w : Wing} (h : w.ctl.seen.toNat + 2 < 2 ^ 32) : ∃ c, w.nextClaim = some c ∧ w.MayRaise c := by
  have hnext : ∃ c, w.nextClaim = some c ∧ w.ctl.seen.toNat < c.toNat ∧ c.toNat ≤ w.ctl.seen.toNat + 2 := by
    unfold Wing.nextClaim
    extract_lets n own m
    have hm : m = n ∨ m = n + 1 := by
      by_cases hown : own
      · exact .inl (if_pos hown)
      · exact .inr (if_neg hown)
    have hn : n = w.ctl.seen.toNat + 1 := rfl
    have hlt : m < 2 ^ 32 := by omega
    refine ⟨_, if_pos hlt, ?_⟩
    rw [BitVec.toNat_ofNat, Nat.mod_eq_of_lt hlt]
    omega
  obtain ⟨c, hc, hlow, hhigh⟩ := hnext
  exact ⟨c, hc, hlow, hhigh, Wing.nextClaim_parity hc⟩

/-- The wing with a claim of its own, which it has then seen. -/
def Wing.withClaim (w : Wing) (c : Word) : Wing := { w with ctl := { w.ctl with claim := c, seen := c } }

theorem Wing.raiseClaim_of_room {w : Wing} (h : w.ctl.seen.toNat + 2 < 2 ^ 32) (f : Wing → Wing) :
    ∃ c, w.MayRaise c ∧ w.raiseClaim f = f (w.withClaim c) := by
  obtain ⟨c, hc, hmay⟩ := Wing.nextClaim_of_room h
  exact ⟨c, hmay, by simp only [Wing.raiseClaim, hc]; rfl⟩

/-- CLAIM_RAISE goes to every porch that is up, and changes nothing but what is driven. -/
theorem Wing.sendClaim_eq (w : Wing) :
    w.sendClaim = { w with out := w.out ++ w.upPorches.map fun p => .w2p w.id p 3 (claimRaiseBeat w.ctl.claim) } := by
  have hfold (l : List Byte) (v : Wing) :
      l.foldl (fun u p => u.emit (.w2p u.id p 3 (claimRaiseBeat u.ctl.claim))) v =
        { v with out := v.out ++ l.map fun p => .w2p v.id p 3 (claimRaiseBeat v.ctl.claim) } := by
    induction l generalizing v with
    | nil => simp
    | cons p l ih => rw [List.foldl_cons, ih]; simp [Wing.emit]
  exact hfold w.upPorches w

/-! ## Loss of the standby -/

theorem Wing.not_entering_of_running {w : Wing} (h : w.running = true) : w.entering = false := by
  have hlife : w.life = .run := by simpa [Wing.running] using h
  simp [Wing.entering, hlife]

theorem Wing.passageRuns_of_running {w : Wing} (h : w.running = true) : w.passageRuns = true := by
  have hlife : w.life = .run := by simpa [Wing.running] using h
  simp [Wing.passageRuns, hlife]

/-- The frame before is acknowledged. -/
def Wing.frameAcked (w : Wing) : Prop := w.psg.ackedValid = true ∧ w.now.toNat ≤ w.psg.acked.toNat + 1

theorem Wing.ackDeadline_of_duplex {w : Wing} (hact : w.isActive = true) (hduplex : w.ctl.duplex = true) (htick : w.ctl.hasTick = true) :
    (w.frameAcked → w.ackDeadline = { w with psg := { w.psg with missing := 0, ackClosed := true } }) ∧
    (¬ w.frameAcked → w.ackDeadline = { w with psg := { w.psg with missing := w.psg.missing + 1, ackClosed := true } }) := by
  have hrole := (w.isActive_iff.1 hact).2
  have hrun : w.running = true := by simpa [Wing.running] using (w.isActive_iff.1 hact).1
  have hcond : (w.passageRuns && w.ctl.role == .active && w.ctl.duplex && w.ctl.hasTick) = true := by
    simp [Wing.passageRuns_of_running hrun, hrole, hduplex, htick]
  have hacked : (w.psg.ackedValid && decide (w.now.toNat ≤ w.psg.acked.toNat + 1)) = true ↔ w.frameAcked := by
    simp [Wing.frameAcked]
  unfold Wing.ackDeadline
  rw [if_pos hcond]
  refine ⟨fun h => if_pos (hacked.2 h), fun h => (if_neg (mt hacked.1 h)).trans (if_neg ?_)⟩
  have hnot : ({ w with psg := { w.psg with missing := w.psg.missing + 1, ackClosed := true } } : Wing).entering = false :=
    Wing.not_entering_of_running (w := w) hrun
  rw [hnot]
  exact Bool.false_ne_true

theorem Wing.ackDeadline_stands {w : Wing} (h : w.ctl.role ≠ .active ∨ w.ctl.duplex = false) : w.ackDeadline = w := by
  refine if_neg fun hcond => ?_
  simp only [Bool.and_eq_true, beq_iff_eq] at hcond
  simp [hcond] at h

/-- The wing in simplex, with its frames provisional, counted and logged. -/
def Wing.inSimplex (w : Wing) : Wing :=
  (({ w with ctl := { w.ctl with
    duplex := false, refused := false, stable := 0, giveWay := false, spentNext := false, holdRelease := false
    prov := some { releases := 0, answered := false } } }).count cStandbyLost).logTko tkStandbyLost

theorem Wing.inSimplex_keeps (w : Wing) :
    w.inSimplex.id = w.id ∧ w.inSimplex.ctl.claim = w.ctl.claim ∧ w.inSimplex.ctl.seen = w.ctl.seen ∧
      w.inSimplex.ctl.duplex = false ∧ w.inSimplex.ctl.prov = some { releases := 0, answered := false } ∧
      w.inSimplex.hbLimit = w.hbLimit ∧ w.inSimplex.out = w.out ∧
      w.inSimplex.ctr cStandbyLost = w.ctr cStandbyLost + 1 ∧
      w.inSimplex.regs.tkoLog = logFirst w.regs.tkoLog (tkoEntry tkStandbyLost w.now) :=
  ⟨rfl, rfl, rfl, rfl, rfl, rfl, rfl, Wing.ctr_count_self (w := { w with ctl := _ }) _, rfl⟩

theorem Wing.standbyLost_eq {w : Wing} (hact : w.isActive = true) (hduplex : w.ctl.duplex = true) (hmiss : 4 ≤ w.psg.missing)
    (hopen : w.psg.ackClosed = false) :
    w.standbyLost = if 4 < w.hbLimit then w.inSimplex.raiseClaim Wing.sendClaim else w.inSimplex := by
  have hcond : (w.isActive && w.ctl.duplex && decide (4 ≤ w.psg.missing) && !w.psg.ackClosed) = true := by
    simp [hact, hduplex, hmiss, hopen]
  exact if_pos hcond

theorem Wing.standbyLost_stands {w : Wing} (h : w.isActive = false ∨ w.ctl.duplex = false ∨ w.psg.missing < 4 ∨ w.psg.ackClosed = true) :
    w.standbyLost = w := by
  refine if_neg fun hcond => ?_
  simp only [Bool.and_eq_true, decide_eq_true_eq, Bool.not_eq_true'] at hcond
  obtain ⟨⟨⟨hact, hduplex⟩, hmiss⟩, hopen⟩ := hcond
  simp [hact, hduplex, hopen] at h
  omega

theorem Wing.provisionalCommit_of_due {w : Wing} {p : Prov} (hact : w.isActive = true) (hprov : w.ctl.prov = some p)
    (hrel : 2 ≤ p.releases) (hans : p.answered = true) (href : w.ctl.refused = false) :
    w.provisionalCommit = { w with ctl := { w.ctl with prov := none } } := by
  simp [Wing.provisionalCommit, hprov, hact, hrel, hans, href]

theorem Wing.provisionalCommit_stands {w : Wing} (h : w.isActive = false ∨ w.ctl.refused = true ∨ w.ctl.prov = none) :
    w.provisionalCommit = w := by
  unfold Wing.provisionalCommit
  rcases h with h | h | h <;> simp only [h]
  all_goals split <;> simp

theorem stepsWing_ackDeadline (s : State) (w : WingId) : StepsWing (.ackDeadline w) s w Wing.ackDeadline := stepsWing rfl

theorem stepsWing_standbyLost (s : State) (w : WingId) : StepsWing (.standbyLost w) s w Wing.standbyLost := stepsWing rfl

theorem stepsWing_provisionalCommit (s : State) (w : WingId) : StepsWing (.provisionalCommit w) s w Wing.provisionalCommit :=
  stepsWing rfl

end Sys2Proof.Machine

namespace Sys2Proof

open Machine

/-- Settles O47: what each of the three commands does by its condition; the claim is raised as `Wing.raiseClaim_of_room` says. -/
theorem lossOfTheStandby : Obligations.LossOfTheStandby := by
  unfold Obligations.LossOfTheStandby
  refine fun s w => ⟨fun hact => ⟨fun hduplex htick => ⟨fun hacked => ?_, fun hmissing => ?_⟩, fun hduplex hmiss hopen hroom => ?_,
    fun p hprov hrel hans href => ?_⟩, fun h => ?_, fun h => ?_, fun h => ?_⟩
  · obtain ⟨t, ht, honly, hwing, hout⟩ := (stepsWing_ackDeadline s w).leaves
      ((Wing.ackDeadline_of_duplex (w := (s.wing w).silent) hact hduplex htick).1 hacked)
    exact ⟨t, ht, honly, hout, hwing⟩
  · obtain ⟨t, ht, honly, hwing, hout⟩ := (stepsWing_ackDeadline s w).leaves
      ((Wing.ackDeadline_of_duplex (w := (s.wing w).silent) hact hduplex htick).2 hmissing)
    exact ⟨t, ht, honly, hout, hwing⟩
  · have hlost := Wing.standbyLost_eq (w := (s.wing w).silent) hact hduplex hmiss hopen
    obtain ⟨hid, hclaim, hseen, hdup, hprov, -, hsilent, hctr, hlog⟩ := (s.wing w).silent.inSimplex_keeps
    by_cases hlim : 4 < (s.wing w).silent.hbLimit
    · obtain ⟨c, ⟨hlow, hhigh, hparity⟩, hraise⟩ :=
        Wing.raiseClaim_of_room (w := (s.wing w).silent.inSimplex) (by rw [hseen]; exact hroom) Wing.sendClaim
      rw [if_pos hlim, hraise, Wing.sendClaim_eq] at hlost
      obtain ⟨t, ht, honly, hwing, -⟩ := (stepsWing_standbyLost s w).leaves hlost
      refine ⟨t, ht, honly, ?_⟩
      rw [hwing]
      rw [hseen] at hlow hhigh
      exact ⟨hdup, hprov, hctr, hlog, fun hle => absurd hlim (Nat.not_lt.2 hle), fun _ => ⟨hlow, hhigh, hparity, rfl⟩⟩
    · rw [if_neg hlim] at hlost
      obtain ⟨t, ht, honly, hwing, hout⟩ := (stepsWing_standbyLost s w).leaves hlost
      refine ⟨t, ht, honly, ?_⟩
      rw [hwing]
      exact ⟨hdup, hprov, hctr, hlog, fun _ => ⟨hclaim, hout.trans hsilent⟩, fun hlt => absurd hlt hlim⟩
  · obtain ⟨t, ht, honly, hwing, hout⟩ := (stepsWing_provisionalCommit s w).leaves
      (Wing.provisionalCommit_of_due (w := (s.wing w).silent) hact hprov hrel hans href)
    exact ⟨t, ht, honly, hout, hwing⟩
  · exact (stepsWing_ackDeadline s w).stands (Wing.ackDeadline_stands (w := (s.wing w).silent) h)
  · exact (stepsWing_standbyLost s w).stands (Wing.standbyLost_stands (w := (s.wing w).silent) h)
  · exact (stepsWing_provisionalCommit s w).stands (Wing.provisionalCommit_stands (w := (s.wing w).silent) h)

end Sys2Proof
end

section
/-! The end of a takeover's hold on writes, of recovery mode and of a resync, and a resync's start (R265, R271, R280). -/

namespace Sys2Proof.Machine

/-! ## What the ring engine leaves alone -/

/-- What the ring engine does not write. -/
def Wing.ctlPan (w : Wing) : Ctl × Pantry := (w.ctl, w.pan)

theorem Wing.ctlPan_writeHeader (w : Wing) (n : BitVec 12) : (w.writeHeader n).ctlPan = w.ctlPan := by
  unfold Wing.writeHeader
  extract_lets v
  (repeat' split) <;> rfl

theorem Wing.ctlPan_writeHeaders (w : Wing) : w.writeHeaders.ctlPan = w.ctlPan := by
  unfold Wing.writeHeaders
  split
  · exact foldl_keeps Wing.ctlPan _ Wing.ctlPan_writeHeader _ w
  · rfl

theorem Wing.ctlPan_formHeaders (w : Wing) : w.formHeaders.ctlPan = w.ctlPan := by
  unfold Wing.formHeaders
  split
  · rw [Wing.ctlPan_writeHeaders]
    exact foldl_keeps Wing.ctlPan (fun w n => w.modSlice n fun v => v.formHeader n w.now) (fun _ _ => rfl) _ w
  · rfl

theorem Wing.ctlPan_countIf (w : Wing) (b : Bool) (o : Nat) : (w.countIf b o).ctlPan = w.ctlPan := by cases b <;> rfl

theorem Wing.ctlPan_writeRecord (w : Wing) (n : BitVec 12) (t : Tick) (rewrite : Bool) (r : BitVec 256) :
    (w.writeRecord n t rewrite r).ctlPan = w.ctlPan := by
  unfold Wing.writeRecord
  extract_lets
  rw [Wing.ctlPan_countIf, Wing.ctlPan_countIf, Wing.ctlPan_countIf]
  rfl

theorem Wing.ctlPan_writeBlock (w : Wing) (b : EvBlock) (rewrite : Bool) : (w.writeBlock b rewrite).ctlPan = w.ctlPan :=
  foldl_keeps Wing.ctlPan _ (fun v n => foldl_keeps Wing.ctlPan _ (fun u r => u.ctlPan_writeRecord n b.tick rewrite r) _ v) _ w

theorem Wing.ctlPan_writeBlocks (old : Tick → Bool) (n : Nat) (w : Wing) : (Wing.writeBlocks old n w).ctlPan = w.ctlPan := by
  induction n generalizing w with
  | zero => rfl
  | succ n ih =>
    unfold Wing.writeBlocks
    split
    · rfl
    · split
      · rw [ih, Wing.ctlPan_writeBlock]
      · rfl

theorem Wing.ctlPan_settleDone (w : Wing) : w.settleDone.ctlPan = w.ctlPan := by
  unfold Wing.settleDone
  extract_lets
  split
  · rfl
  · simp [Wing.ctlPan]

theorem Wing.ctlPan_ringTurn (w : Wing) (old : Tick → Bool) : (w.ringTurn old).ctlPan = w.ctlPan := by
  unfold Wing.ringTurn
  split
  · rw [Wing.ctlPan_formHeaders, Wing.ctlPan_settleDone, Wing.ctlPan_writeBlocks]
  · rfl

/-! ## The held writes and recovery mode -/

theorem Wing.takeoverWrites_of_allowed {w : Wing} (h : w.writesAllowed = true) :
    w.takeoverWrites.ctl = { w.ctl with writesHeld := false } ∧ w.takeoverWrites.pan = w.pan := by
  have hstep : w.takeoverWrites.ctlPan = ({ w.ctl with writesHeld := false }, w.pan) := by
    unfold Wing.takeoverWrites
    rw [if_pos h, Wing.ctlPan_ringTurn]
    rfl
  exact ⟨congrArg Prod.fst hstep, congrArg Prod.snd hstep⟩

theorem Wing.writesAllowed_of_due {w : Wing} (hact : w.isActive = true) (hheld : w.ctl.writesHeld = true)
    (href : w.ctl.refused = false) (h : w.ctl.tkoPhase = none ∧ w.ctl.answered = true ∨ w.ctl.tkoPhase = some 9) :
    w.writesAllowed = true := by
  unfold Wing.writesAllowed
  rcases h with ⟨hphase, hans⟩ | hphase
  · simp [hact, hheld, href, hphase, hans]
  · simp [hact, hheld, href, hphase]

theorem Wing.takeoverWrites_stands {w : Wing} (h : w.isActive = false ∨ w.ctl.writesHeld = false ∨ w.ctl.refused = true) :
    w.takeoverWrites = w := by
  have hnot : w.writesAllowed = false := by
    unfold Wing.writesAllowed
    rcases h with h | h | h <;> simp [h]
  simp [Wing.takeoverWrites, hnot]

theorem Wing.recoveryEnds_of_done {w : Wing} (hrec : w.ctl.recovery = true) (hrel : w.pan.reloads = []) (hwait : w.recheckWaits = false) :
    w.recoveryEnds = { w with ctl := { w.ctl with recovery := false } } := by
  simp [Wing.recoveryEnds, hrec, hrel, hwait]

theorem Wing.recoveryEnds_stands {w : Wing} (h : w.ctl.recovery = false ∨ w.pan.reloads ≠ [] ∨ w.recheckWaits = true) :
    w.recoveryEnds = w := by
  unfold Wing.recoveryEnds
  rcases h with h | h | h <;> simp [h]

/-! ## The start and the end of a resync -/

theorem lanesIn_le (m : BitVec 4) : lanesIn m ≤ 4 := (List.length_filter_le _ _).trans (by simp)

/-- A frame has fewer slots than the walk has words before its backlog. -/
theorem Wing.frameSlots_lt (w : Wing) : w.frameSlots < backlogAt := by
  have hlanes : frameLanes w.psg.map ≤ 4 := by
    unfold frameLanes
    have := lanesIn_le w.psg.map
    split <;> omega
  have hback : backlogAt = 207722 := rfl
  unfold Wing.frameSlots
  extract_lets l
  omega

/-- What is sampled of a walk before its backlog: as many of its words as the frame has slots. -/
theorem Wing.sampleCopies_of_start {w : Wing} (hpos : w.ctl.sendPos = some 0) (hmark : w.ctl.mark = false) :
    ∃ copies : List Rec, copies.length = min w.frameSlots backlogAt ∧
      w.sampleCopies = { w with ctl := { w.ctl with backlog := [] }, psg := { w.psg with copies := copies } } := by
  have hlt := w.frameSlots_lt
  have hback : ¬ backlogAt < 0 + w.frameSlots := by omega
  unfold Wing.sampleCopies
  split
  next h => rw [hpos] at h; cases h
  next i h =>
    obtain rfl : i = 0 := by rw [hpos] at h; exact (Option.some.inj h).symm
    extract_lets n back words head mid left j tail
    have hb : back = [] := by
      show (if w.ctl.mark = true then _ else if backlogAt < 0 + w.frameSlots then _ else _) = _
      rw [hmark, if_neg Bool.false_ne_true, if_neg hback]
    have hhead : head.length = min w.frameSlots backlogAt := by simp [head, words, n]
    have hmid : mid = [] := if_pos (show 0 + w.frameSlots < backlogAt by omega)
    have htail : tail = [] := if_neg fun h => absurd h.2 (show ¬ backlogAt ≤ 0 + w.frameSlots by omega)
    refine ⟨head ++ mid ++ tail, by rw [hmid, htail, List.append_nil, List.append_nil, hhead], ?_⟩
    rw [hb]

/-- RESYNC_START may go on. -/
def Wing.MayResync (w : Wing) (peerSuspect : Bool) : Prop :=
  w.isActive = true ∧ w.ctl.sendPos = none ∧ w.ctl.duplex = false ∧ w.psg.peerJoining = true ∧ w.autoResync = true ∧
    w.forced = false ∧ 0 < lanesIn w.psg.map ∧ peerSuspect = false

/-- The wing with its walk at the start, counted. -/
def Wing.atWalkStart (w : Wing) : Wing :=
  { w with ctl := { w.ctl with sendPos := some 0, backlog := [], aligned := [], mark := false, rsySilent := 0 } }.count cResyncStart

theorem Wing.resyncStart_eq (w : Wing) (peerSuspect : Bool) [Decidable (w.MayResync peerSuspect)] :
    w.resyncStart peerSuspect = if w.MayResync peerSuspect then w.atWalkStart.sampleCopies else w := by
  have hcond : (w.isActive && w.ctl.sendPos.isNone && !w.ctl.duplex && w.psg.peerJoining && w.autoResync && !w.forced &&
      decide (0 < lanesIn w.psg.map) && !peerSuspect) = true ↔ w.MayResync peerSuspect := by
    simp [Wing.MayResync, and_assoc]
  by_cases h : w.MayResync peerSuspect
  · exact (if_pos (hcond.2 h)).trans (if_pos h).symm
  · exact (if_neg (mt hcond.1 h)).trans (if_neg h).symm

/-- The wing without the walk that it ran. -/
def Wing.offWalk (w : Wing) : Wing :=
  { w with
    ctl := { w.ctl with sendPos := none, backlog := [], aligned := [], mark := false, rsySilent := 0 }
    psg := { w.psg with copies := [], peerJoining := false } }

theorem Wing.resyncAbort_of_silent {w : Wing} {i : Nat} (hact : w.isActive = true) (hpos : w.ctl.sendPos = some i)
    (hsilent : w.hbLimit ≤ w.ctl.rsySilent) :
    w.resyncAbort = w.offWalk.count cResyncAbort := by
  simp [Wing.resyncAbort, hact, hpos, hsilent, Wing.offWalk]

theorem Wing.resyncAbort_stands {w : Wing} (h : w.isActive = false ∨ w.ctl.sendPos = none ∨ w.ctl.rsySilent < w.hbLimit) :
    w.resyncAbort = w := by
  unfold Wing.resyncAbort
  rcases h with h | h | h
  · simp [h]
  · simp [h]
  · rw [if_neg]
    simp [Nat.not_le.2 h]

theorem stepsWing_takeoverWrites (s : State) (w : WingId) : StepsWing (.takeoverWrites w) s w Wing.takeoverWrites := stepsWing rfl

theorem stepsWing_recoveryModeEnd (s : State) (w : WingId) : StepsWing (.recoveryModeEnd w) s w Wing.recoveryEnds := stepsWing rfl

/-- Whether the wing is SUSPECT or SPENT, as its peer asks. -/
def Wing.suspicious (o : Wing) : Bool := o.ctl.suspect || o.int.spent

theorem stepsWing_resyncStart (s : State) (w : WingId) :
    StepsWing (.resyncStart w) s w fun v => v.resyncStart (s.wing (otherWing w)).suspicious := stepsWing rfl

theorem stepsWing_resyncAbort (s : State) (w : WingId) : StepsWing (.resyncAbort w) s w Wing.resyncAbort := stepsWing rfl

end Sys2Proof.Machine

namespace Sys2Proof

open Machine

/-- Settles O49: what each command does by its condition. -/
theorem writesRecoveryAndResync : Obligations.WritesRecoveryAndResync := by
  unfold Obligations.WritesRecoveryAndResync
  refine fun s w => ⟨fun hact hheld href hdue => ?_, fun h => ?_, fun h => ?_, fun h => ?_, fun h => ?_, fun hrec hrel hwait => ?_,
    fun hact hpos hduplex hpeer hauto hforced hlanes hsuspect hspent => ?_, fun i hact hpos hsilent => ?_⟩
  · obtain ⟨t, ht, honly, hwing, -⟩ := stepsWing_takeoverWrites s w
    refine ⟨t, ht, honly, ?_⟩
    rw [hwing]
    exact Wing.takeoverWrites_of_allowed (Wing.writesAllowed_of_due (w := (s.wing w).silent) hact hheld href hdue)
  · obtain ⟨t, ht, honly, -, hwing⟩ := (stepsWing_takeoverWrites s w).stands (Wing.takeoverWrites_stands (w := (s.wing w).silent) h)
    exact ⟨t, ht, honly, hwing⟩
  · obtain ⟨t, ht, honly, -, hwing⟩ := (stepsWing_recoveryModeEnd s w).stands (Wing.recoveryEnds_stands (w := (s.wing w).silent) h)
    exact ⟨t, ht, honly, hwing⟩
  · have hnot : ¬ (s.wing w).silent.MayResync (s.wing (otherWing w)).suspicious := by
      rintro ⟨hact, hpos, hduplex, hpeer, hauto, hforced, hlanes, hsus⟩
      obtain ⟨hsuspect, hspent⟩ := Bool.or_eq_false_iff.1 hsus
      have hno : lanesIn (s.wing w).psg.map ≠ 0 := Nat.pos_iff_ne_zero.1 hlanes
      have hauto' : (s.wing w).autoResync = true := hauto
      have hforced' : (s.wing w).forced = false := hforced
      simp_all
    classical
    obtain ⟨t, ht, honly, -, hwing⟩ := (stepsWing_resyncStart s w).stands ((Wing.resyncStart_eq _ _).trans (if_neg hnot))
    exact ⟨t, ht, honly, hwing⟩
  · obtain ⟨t, ht, honly, -, hwing⟩ := (stepsWing_resyncAbort s w).stands (Wing.resyncAbort_stands (w := (s.wing w).silent) h)
    exact ⟨t, ht, honly, hwing⟩
  · obtain ⟨t, ht, honly, hwing, hout⟩ := (stepsWing_recoveryModeEnd s w).leaves
      (Wing.recoveryEnds_of_done (w := (s.wing w).silent) hrec hrel hwait)
    exact ⟨t, ht, honly, hout, hwing⟩
  · have hmay : (s.wing w).silent.MayResync (s.wing (otherWing w)).suspicious :=
      ⟨hact, hpos, hduplex, hpeer, hauto, hforced, hlanes, Bool.or_eq_false_iff.2 ⟨hsuspect, hspent⟩⟩
    obtain ⟨copies, hlen, hsample⟩ := Wing.sampleCopies_of_start (w := (s.wing w).silent.atWalkStart) rfl rfl
    rw [show (s.wing w).silent.atWalkStart.frameSlots = (s.wing w).frameSlots from rfl] at hlen
    classical
    obtain ⟨t, ht, honly, hwing, hout⟩ := (stepsWing_resyncStart s w).leaves
      (((Wing.resyncStart_eq _ _).trans (if_pos hmay)).trans hsample)
    refine ⟨t, ht, honly, hout, ?_⟩
    rw [hwing]
    refine ⟨rfl, ?_, hlen⟩
    exact Wing.ctr_count_self ({ (s.wing w).silent with ctl := _ }) cResyncStart
  · obtain ⟨t, ht, honly, hwing, hout⟩ := (stepsWing_resyncAbort s w).leaves
      (Wing.resyncAbort_of_silent (w := (s.wing w).silent) hact hpos hsilent)
    refine ⟨t, ht, honly, hout, ?_⟩
    rw [hwing]
    exact ⟨rfl, rfl, rfl, (s.wing w).silent.offWalk.ctr_count_self cResyncAbort, rfl⟩

end Sys2Proof
end

section
/-! What TAKEOVER leaves in a wing that has lost its active peer (R26, R263, R277 to R279). -/

namespace Sys2Proof.Machine

/-! ## The reloads of a recovery

They change the pantry, the mirrored words of PCH_CFG and the count of reloads. -/

/-- What the reloads of a recovery leave as it is. -/
def Wing.posture (w : Wing) : WingId × Ctl × SMap (BitVec 16) × DWord := (w.id, w.ctl, w.pch.status, w.ctr cTakeover)

theorem Wing.regs_addFetch (w : Wing) (key : Word) (c : FetchCause) : (w.addFetch key c).regs = w.regs := by
  unfold Wing.addFetch
  split <;> simp

theorem Wing.posture_addFetch (w : Wing) (key : Word) (c : FetchCause) : (w.addFetch key c).posture = w.posture := by
  have hctr : (w.addFetch key c).ctr cTakeover = w.ctr cTakeover :=
    congrArg (fun r : Regs => SMap.get r.ctr 0 cTakeover) (w.regs_addFetch key c)
  unfold Wing.posture
  rw [hctr]
  unfold Wing.addFetch
  split <;> simp

theorem Wing.posture_count {w : Wing} {o : Nat} (h : cTakeover ≠ o) : (w.count o).posture = w.posture := by
  simp [Wing.posture, Wing.ctr_count_ne w h]

theorem Wing.posture_startReloads (w : Wing) : w.startReloads.posture = w.posture := by
  unfold Wing.startReloads
  extract_lets pan1 w1
  refine (foldl_keeps Wing.posture _ (fun v r => ?_) w1.reloadOrder w1).trans rfl
  rw [Wing.posture_count (by decide), Wing.posture_addFetch]

/-- PCH_CFG of one porch takes its image. -/
def Wing.followImage (x : Wing) (p : Nat) : Wing :=
  let v := x.effW (ikey (aPchImg p))
  let x1 := (x.setCfg (ikey (aPchCfg p)) v).setEff (ikey (aPchCfg p)) v
  { x1 with regs := { x1.regs with eff := SMap.erase x1.regs.eff (ikey (aPchImg p)) } }

theorem Wing.loadPchCfg_eq (w : Wing) : w.loadPchCfg = w.withSigned fun x => (List.range 256).foldl Wing.followImage x := rfl

theorem Wing.posture_withSigned (w : Wing) (f : Wing → Wing) : (w.withSigned f).posture = (f w).posture := by
  unfold Wing.posture Wing.ctr
  simp

theorem Wing.posture_loadPchCfg (w : Wing) : w.loadPchCfg.posture = w.posture := by
  rw [Wing.loadPchCfg_eq, Wing.posture_withSigned]
  exact foldl_keeps Wing.posture Wing.followImage (fun _ _ => rfl) _ w

/-! ## Step T of a takeover -/

/-- What a wing with its new claim does in step T, before the reloads of a recovery: it takes the role, and counts and logs it. -/
def Wing.takesRole (w1 : Wing) (recovery : Bool) : Wing :=
  let w2 := w1.becomeActive.awaitReplays
  let w3 := { w2 with
    ctl := { w2.ctl with duplex := false, tkoPhase := some 0, tkoTick := w2.now, writesHeld := true, recovery := recovery }
    hall := { w2.hall with img0 := none, img1 := none } }
  ((w3.count cTakeover).countIf recovery cRecovery).logTko (if recovery then tkRecovery else tkTakeover)

/-- What a wing that has taken the role in a takeover is. -/
def Wing.TookRole (w : Wing) (c : Word) (recovery : Bool) (v : Wing) : Prop :=
  v.id = w.id ∧ v.ctl.role = .active ∧ v.ctl.duplex = false ∧ v.ctl.claim = c ∧ v.ctl.seen = c ∧ v.ctl.writesHeld = true ∧
    v.ctl.recovery = recovery ∧ v.pch.status = w.pch.status ∧ v.ctr cTakeover = w.ctr cTakeover + 1

theorem Wing.TookRole.of_posture {w v u : Wing} {c : Word} {recovery : Bool} (h : w.TookRole c recovery v)
    (hu : u.posture = v.posture) : w.TookRole c recovery u := by
  obtain ⟨hid, hctl, hstatus, hctr⟩ := (by simpa [Wing.posture] using hu :
    u.id = v.id ∧ u.ctl = v.ctl ∧ u.pch.status = v.pch.status ∧ u.ctr cTakeover = v.ctr cTakeover)
  unfold Wing.TookRole at h ⊢
  rwa [hid, hctl, hstatus, hctr]

theorem Wing.takesRole_spec (w : Wing) (c : Word) (recovery : Bool) :
    w.TookRole c recovery ((w.withClaim c).takesRole recovery) := by
  unfold Wing.takesRole
  extract_lets w2 ctl3 hall3 w3
  have hctr : ((w3.count cTakeover).countIf recovery cRecovery).ctr cTakeover = w.ctr cTakeover + 1 := by
    rw [Wing.ctr_countIf, if_neg (fun h => absurd h.2 (by decide)), Wing.ctr_count_self]
    rfl
  have hctl : ((w3.count cTakeover).countIf recovery cRecovery).ctl = w3.ctl := by simp
  have hpch : ((w3.count cTakeover).countIf recovery cRecovery).pch = w3.pch := by simp
  have hid : ((w3.count cTakeover).countIf recovery cRecovery).id = w3.id := by simp
  unfold Wing.TookRole Wing.logTko
  dsimp only
  rw [hctl, hpch, hid]
  exact ⟨rfl, rfl, rfl, rfl, rfl, rfl, rfl, rfl, hctr⟩

/-- The slots of a wing that has taken the role: every context counts as dirty (R82). -/
theorem Wing.takesRole_slots (w : Wing) (c : Word) (recovery : Bool) :
    ((w.withClaim c).takesRole recovery).pan.slots = w.pan.slots.map fun e =>
      (e.1, { e.2 with ctx := { e.2.ctx with dirty := true, dirtyAt := w.now, wbFresh := false } }) := by
  cases recovery <;> rfl

/-- The step of R263 in a wing whose claim has room to rise. -/
theorem Wing.stepT_spec {w : Wing} (hroom : w.ctl.seen.toNat + 2 < 2 ^ 32) (recovery : Bool) :
    ∃ (c : Word) (v : Wing), w.MayRaise c ∧ w.stepT recovery = v.sendClaim ∧ w.TookRole c recovery v ∧
      (recovery = false → v.pan.slots = w.pan.slots.map fun e =>
        (e.1, { e.2 with ctx := { e.2.ctx with dirty := true, dirtyAt := w.now, wbFresh := false } })) := by
  obtain ⟨c, hmay, hraise⟩ := Wing.raiseClaim_of_room hroom fun w1 =>
    (if recovery then (w1.takesRole recovery).loadPchCfg.startReloads else w1.takesRole recovery).sendClaim
  have hstep : w.stepT recovery =
      (if recovery then ((w.withClaim c).takesRole recovery).loadPchCfg.startReloads else (w.withClaim c).takesRole recovery).sendClaim :=
    hraise
  cases recovery with
  | false => exact ⟨c, _, hmay, hstep, w.takesRole_spec c false, fun _ => w.takesRole_slots c false⟩
  | true =>
    refine ⟨c, _, hmay, hstep, (w.takesRole_spec c true).of_posture ?_, fun h => by cases h⟩
    exact (Wing.posture_startReloads _).trans (Wing.posture_loadPchCfg _)

/-! ## TAKEOVER -/

theorem Wing.lostActive_iff (w : Wing) : w.lostActive = true ↔ w.running = true ∧ w.hbLimit ≤ w.psg.hbMiss ∧
    (w.ctl.role = .standby ∨ w.ctl.role = .joining ∧ w.inBringUp = false ∧ w.int.spent = false) := by
  simp [Wing.lostActive, and_assoc]

/-- The wing takes the role over: a standby, or a joining wing with the walk's mark. -/
theorem Wing.takeover_of_lost {w : Wing} (hlost : w.lostActive = true) (h : w.ctl.role = .standby ∨ w.ctl.role = .joining ∧ w.ctl.mark = true) :
    w.takeover = w.stepT (w.ctl.role == .joining) := by
  unfold Wing.takeover
  rcases h with hrole | ⟨hrole, hmark⟩
  · simp only [hlost, hrole, Bool.not_true, Bool.false_eq_true, if_false, if_true]
    rfl
  · simp [hlost, hrole, hmark]

theorem Wing.takeover_orphan {w : Wing} (hlost : w.lostActive = true) (hrole : w.ctl.role = .joining) (hmark : w.ctl.mark = false) :
    w.takeover = w.orphan := by
  simp [Wing.takeover, hlost, hrole, hmark]

theorem Wing.takeover_stands {w : Wing} (h : w.lostActive = false) : w.takeover = w := by simp [Wing.takeover, h]

theorem stepsWing_takeover (s : State) (w : WingId) : StepsWing (.takeover w) s w Wing.takeover := stepsWing rfl

end Sys2Proof.Machine

namespace Sys2Proof

open Machine

/-- Settles O48: the role is taken by `Wing.stepT`, an ORPHAN is left by `Wing.orphan`, and else nothing is lost. -/
theorem takeoverRaisesTheClaim : Obligations.TakeoverRaisesTheClaim := by
  unfold Obligations.TakeoverRaisesTheClaim
  refine fun s w => ⟨fun hrun hmiss hroom hrole => ?_, fun hrun hmiss hrole hbring hspent hmark => ?_, fun h => ?_⟩
  · have hlost : (s.wing w).silent.lostActive = true := (Wing.lostActive_iff _).2
      ⟨hrun, hmiss, hrole.imp id fun ⟨hjoin, hbring, hspent, _⟩ => ⟨hjoin, hbring, hspent⟩⟩
    have htake := Wing.takeover_of_lost hlost (hrole.imp id fun ⟨hjoin, _, _, hmark⟩ => ⟨hjoin, hmark⟩)
    obtain ⟨c, v, ⟨hlow, hhigh, hparity⟩, hstep, ⟨hid, hact, hdup, hclaim, hseen, hheld, hrec, hstatus, hctr⟩, hslots⟩ :=
      Wing.stepT_spec (w := (s.wing w).silent) hroom ((s.wing w).silent.ctl.role == .joining)
    obtain ⟨t, ht, honly, hwing, hout⟩ := (stepsWing_takeover s w).leaves ((htake.trans hstep).trans v.sendClaim_eq)
    refine ⟨t, ht, honly, ?_⟩
    rw [hwing]
    show v.ctl.role = _ ∧ v.ctl.duplex = _ ∧ _ < v.ctl.claim.toNat ∧ v.ctl.claim.toNat ≤ _ ∧ v.ctl.claim.toNat % 2 = _ ∧
      v.ctl.seen = v.ctl.claim ∧ v.ctr cTakeover = _ ∧ v.ctl.writesHeld = _ ∧ v.ctl.recovery = _ ∧
      (∀ p ∈ _, Out.w2p _ p 3 (claimRaiseBeat v.ctl.claim) ∈ t.out) ∧ (_ → v.pan.slots = _)
    refine ⟨hact, hdup, hclaim ▸ hlow, hclaim ▸ hhigh, hclaim ▸ hparity, hseen.trans hclaim.symm, hctr, hheld, hrec, fun p hp => ?_,
      fun hstandby => hslots (by simp [hstandby])⟩
    have hup : p ∈ v.upPorches := by
      unfold Wing.upPorches at hp ⊢
      rwa [hstatus]
    rw [hout]
    exact List.mem_append_right _ (List.mem_map.2 ⟨p, hup, by rw [hid]; rfl⟩)
  · have hlost : (s.wing w).silent.lostActive = true := (Wing.lostActive_iff _).2 ⟨hrun, hmiss, .inr ⟨hrole, hbring, hspent⟩⟩
    obtain ⟨t, ht, honly, hwing, -⟩ := (stepsWing_takeover s w).leaves (Wing.takeover_orphan hlost hrole hmark)
    refine ⟨t, ht, honly, ?_⟩
    rw [hwing]
    exact ⟨rfl, (s.wing w).silent.enterJoining_role.2.2.2.1⟩
  · have hnot : (s.wing w).silent.lostActive = false := by
      refine Bool.eq_false_iff.2 fun hlost => ?_
      obtain ⟨hrun, hmiss, hrole⟩ := (Wing.lostActive_iff _).1 hlost
      have hrun' : (s.wing w).running = true := hrun
      have hmiss' : (s.wing w).hbLimit ≤ (s.wing w).psg.hbMiss := hmiss
      rcases hrole with hrole | ⟨hrole, hbring, hspent⟩
      · simp_all
        omega
      · have hbring' : (s.wing w).inBringUp = false := hbring
        simp_all
        omega
    exact (stepsWing_takeover s w).stands (Wing.takeover_stands hnot)

end Sys2Proof
end

section
/-! Frames of admission (R46 to R50, R71 to R77): what the work on an arrival leaves of the rest of its wing (`_around`), and of what
the wing drives. -/

namespace Sys2Proof.Machine

/-- Nothing differs of a wing but what the work on arrivals may change: its vectors, its slices, its staging, its frame, counters and
logs, and more that is driven. -/
@[simp] abbrev Wing.SameAround (v w : Wing) : Prop :=
  v.life = w.life ∧ v.ctl = w.ctl ∧ v.pch = w.pch ∧ v.pwr = w.pwr ∧ v.vst.seqs = w.vst.seqs ∧ v.vst.levels = w.vst.levels ∧
    v.vst.raws = w.vst.raws ∧ v.vst.inbuf = w.vst.inbuf ∧ SMap.get v.regs.ctr 0 cReturn = SMap.get w.regs.ctr 0 cReturn ∧
    w.out <+: v.out

theorem Wing.SameAround.refl (w : Wing) : w.SameAround w := ⟨rfl, rfl, rfl, rfl, rfl, rfl, rfl, rfl, rfl, List.prefix_rfl⟩

theorem Wing.SameAround.trans {u v w : Wing} (huv : u.SameAround v) (hvw : v.SameAround w) : u.SameAround w := by
  obtain ⟨a1, a2, a3, a4, a5, a6, a7, a8, a9, aout⟩ := huv
  obtain ⟨b1, b2, b3, b4, b5, b6, b7, b8, b9, bout⟩ := hvw
  exact ⟨a1.trans b1, a2.trans b2, a3.trans b3, a4.trans b4, a5.trans b5, a6.trans b6, a7.trans b7, a8.trans b8, a9.trans b9,
    bout.trans aout⟩

/-! ## Branches, rounds and counters -/

theorem Wing.SameAround.ite {c : Prop} [Decidable c] {u v w : Wing} (hu : u.SameAround w) (hv : v.SameAround w) :
    (if c then u else v).SameAround w := by
  split
  · exact hu
  · exact hv

theorem Wing.sameAround_foldl {α : Type} (f : Wing → α → Wing) (l : List α) (w : Wing) (h : ∀ v a, (f v a).SameAround v) :
    (l.foldl f w).SameAround w := by
  induction l generalizing w with
  | nil => exact .refl w
  | cons a l ih => exact (ih (f w a)).trans (h w a)

/-- The counters that the work on arrivals counts in. -/
@[simp] theorem arrivalCounters_ne : cReturn ≠ cBufHit ∧ cReturn ≠ cFetchWait ∧ cReturn ≠ cEvict ∧ cReturn ≠ cEvictDirty ∧
    cReturn ≠ cInstall ∧ cReturn ≠ cWriteback ∧ cReturn ≠ cAdmitted ∧ cReturn ≠ cEscalate ∧ cReturn ≠ cOutcomes ∧
    cReturn ≠ cFilterEvict ∧ cReturn ≠ cQuarantined ∧ cReturn ≠ cDupDrop ∧ cReturn ≠ cEvrHeld ∧ cReturn ≠ cStaged ∧
    cReturn ≠ cSpilled ∧ cReturn ≠ cRegistered ∧ cReturn ≠ cRecheckLost := by decide

theorem cReturn_ne_cReject (r : Nat) (h : r < 16) : cReturn ≠ cReject r := by
  intro e
  interval_cases r <;> exact absurd e (by decide)

theorem Wing.count_around (w : Wing) {o : Nat} (h : cReturn ≠ o) : (w.count o).SameAround w :=
  ⟨rfl, rfl, rfl, rfl, rfl, rfl, rfl, rfl, Wing.ctr_count_ne w h, List.prefix_rfl⟩

theorem Wing.countIf_around (w : Wing) (c : Bool) {o : Nat} (h : cReturn ≠ o) : (w.countIf c o).SameAround w := by
  cases c
  · exact .refl w
  · exact w.count_around h

/-! ## Vectors and their slots -/

theorem Wing.emitRead_around (w : Wing) (a : DWord) (n : Nat) : (w.emitRead a n).SameAround w :=
  ⟨rfl, rfl, rfl, rfl, rfl, rfl, rfl, rfl, rfl, List.prefix_append _ _⟩

theorem Wing.emitWrite_around (w : Wing) (a : DWord) (n : Nat) (d : BitVec 512) : (w.emitWrite a n d).SameAround w :=
  ⟨rfl, rfl, rfl, rfl, rfl, rfl, rfl, rfl, rfl, List.prefix_append _ _⟩

theorem Wing.issueReads_around (w : Wing) : w.issueReads.SameAround w := by
  unfold Wing.issueReads
  extract_lets r
  exact (Wing.sameAround_foldl _ _ _ fun v k => v.emitRead_around _ _).trans (.refl w)

theorem Wing.addFetch_around (w : Wing) (key : Word) (c : FetchCause) : (w.addFetch key c).SameAround w := by
  unfold Wing.addFetch
  exact .ite (.refl w) ((Wing.issueReads_around _).trans (.refl w))

theorem Wing.writeBack_around (w : Wing) (c : Ctx) : (w.writeBack c).SameAround w :=
  (Wing.emitWrite_around _ _ _ _).trans <| Wing.SameAround.trans (v := { w with pan := { w.pan with
    wbuf := w.pan.wbuf ++ [(c.key, withTag w.key c.image c.key domainVector, c.dirtyAt)] } }.count cWriteback)
    (.refl _) (Wing.count_around _ (by decide))

theorem Wing.evict_around (w : Wing) (n : Nat) (c : Ctx) (toBuffer : Bool) : (w.evict n c toBuffer).SameAround w := by
  unfold Wing.evict
  extract_lets pan1 w1
  have h1 : w1.SameAround w := Wing.count_around _ (by decide)
  exact .ite (((Wing.count_around _ (by decide)).trans (w1.writeBack_around c)).trans h1) h1

theorem Wing.place_around (w : Wing) (r : Rec) : (w.place r).SameAround w := by simp

theorem Wing.putSlot_around (w : Wing) (n : Nat) (c : Ctx) : (w.putSlot n c).SameAround w := Wing.count_around _ (by decide)

theorem Wing.around_of_install? {w v : Wing} {c : Ctx} {causes : List FetchCause} (h : w.install? c causes = some v) :
    v.SameAround w := by
  unfold Wing.install? at h
  extract_lets s route at h
  split at h
  · cases h
  · obtain ⟨⟨n, victim⟩, -, rfl⟩ := Option.map_eq_some_iff.1 h
    cases victim with
    | none => exact (Wing.place_around _ _).trans (Wing.putSlot_around { w with pan := _ } _ _)
    | some x =>
      exact ((Wing.place_around _ _).trans (Wing.putSlot_around { w.evict n x true with pan := _ } _ _)).trans
        (w.evict_around n x true)

theorem Wing.noteNoVictim_around (w : Wing) (c : Ctx) (causes : List FetchCause) : (w.noteNoVictim c causes).SameAround w := by
  unfold Wing.noteNoVictim
  split <;> exact ⟨rfl, rfl, rfl, rfl, rfl, rfl, rfl, rfl, rfl, List.prefix_rfl⟩

theorem Wing.fetchFor_around (w : Wing) (o : Obs) (cause : FetchCause) : (w.fetchFor o cause).SameAround w := by
  unfold Wing.fetchFor
  split
  · exact .refl w
  · split
    · next c _ =>
      have hcount : (w.count cBufHit).SameAround w := w.count_around (by decide)
      refine .ite hcount ?_
      split
      next v hv => exact (Wing.around_of_install? hv).trans hcount
      next => exact ((w.count cBufHit).noteNoVictim_around c [cause]).trans hcount
    · exact w.addFetch_around _ _

/-! ## Arrivals -/

theorem Wing.updCtx_around (w : Wing) (key : Word) (t : Tick) (f : Ctx → Ctx) : (w.updCtx key t f).SameAround w := by simp

theorem Wing.filterInsert_around (w : Wing) (s : BitVec 12) (tag : Word) (t : Tick) : (w.filterInsert s tag t).SameAround w :=
  (Wing.countIf_around _ _ (by decide)).trans ⟨rfl, rfl, rfl, rfl, rfl, rfl, rfl, rfl, rfl, List.prefix_rfl⟩

theorem Wing.deliver_around (w : Wing) (o : Obs) (t : Tick) : (w.deliver o t).SameAround w := by
  unfold Wing.deliver
  split
  · exact .refl w
  · next c _ =>
    extract_lets w1 w2 w3
    have h1 : w1.SameAround w := w.updCtx_around _ _ _
    have h2 : w2.SameAround w := .ite h1 h1
    have h3 : w3.SameAround w := .ite (((Wing.count_around _ (by decide)).trans (w2.filterInsert_around _ _ _)).trans h2) h2
    exact (w3.count_around (by decide)).trans h3

theorem Wing.deliverEsc_around (w : Wing) (o : Obs) (key : Word) (fate : BitVec 2) (t : Tick) :
    (w.deliverEsc o key fate t).SameAround w := by
  unfold Wing.deliverEsc
  extract_lets pay w1 per w2
  have h1 : w1.SameAround w :=
    ((Wing.count_around _ (by decide)).trans (Wing.count_around _ (by decide))).trans (w.updCtx_around _ _ _)
  exact (Wing.SameAround.ite (c := per = true) (u := w1.recordOrd (keySlice key) (w.escRecord o key pay)) h1 h1)

theorem Wing.useBudget_around (w : Wing) (n : Nat) : (w.useBudget n).SameAround w := ⟨rfl, rfl, rfl, rfl, rfl, rfl, rfl, rfl, rfl, List.prefix_rfl⟩

theorem Wing.useCredit_around (w : Wing) (s : BitVec 12) : (w.useCredit s).SameAround w := ⟨rfl, rfl, rfl, rfl, rfl, rfl, rfl, rfl, rfl, List.prefix_rfl⟩

theorem Wing.keepSent_around (w : Wing) (o : Obs) : (w.keepSent o).SameAround w := ⟨rfl, rfl, rfl, rfl, rfl, rfl, rfl, rfl, rfl, List.prefix_rfl⟩

theorem Wing.unstage_around (w : Wing) (o : Obs) : (w.unstage o).SameAround w := ⟨rfl, rfl, rfl, rfl, rfl, rfl, rfl, rfl, rfl, List.prefix_rfl⟩

theorem Wing.escalate_around (w : Wing) (o : Obs) (fate : BitVec 2) : (w.escalate o fate).SameAround w := by
  unfold Wing.escalate
  split
  · exact .refl w
  · exact ((Wing.place_around _ _).trans (Wing.useBudget_around _ _)).trans (w.deliverEsc_around _ _ _ _)

theorem Wing.discard_around (w : Wing) (o : Obs) (cause : BitVec 2) (recheck : Bool) : (w.discard o cause recheck).SameAround w := by
  unfold Wing.discard
  extract_lets w1
  have h1 : w1.SameAround w := .ite (.refl w) (w.useCredit_around _)
  exact ((Wing.place_around _ _).trans (w1.useBudget_around 1)).trans h1

theorem Wing.reject_around (w : Wing) {r : Nat} (h : r < 16) (entry : BitVec 4 → DWord) : (w.reject r entry).SameAround w :=
  w.count_around (cReturn_ne_cReject r h)

theorem Wing.rejectObs_around (w : Wing) (o : Obs) {r : Nat} (h : r < 16) : (w.rejectObs o r).SameAround w := by
  unfold Wing.rejectObs
  extract_lets w1
  have h1 : w1.SameAround w := w.reject_around h _
  exact .ite h1 (.ite (((Wing.keepSent_around _ _).trans (w1.escalate_around _ _)).trans h1) h1)

theorem Wing.admissionCheck_lt {w : Wing} {o : Obs} {late : Bool} {r : Nat} (h : w.admissionCheck o late = some r) : r < 16 := by
  unfold Wing.admissionCheck at h
  extract_lets s at h
  (repeat' split at h) <;> cases h <;> decide

theorem Wing.recheckLost_around (w : Wing) (n : Nat) : (w.recheckLost n).SameAround w := by
  unfold Wing.recheckLost
  refine .ite (.refl w) ⟨rfl, rfl, rfl, rfl, rfl, rfl, rfl, rfl, ?_, List.prefix_rfl⟩
  exact (w.ctr_countN _ _ _).trans (if_neg (by decide))

theorem Wing.around_of_attemptLost_gone {w v : Wing} {o : Obs} (h : w.attemptLost o = .gone v) : v.SameAround w := by
  unfold Wing.attemptLost at h
  extract_lets ok w1 o0 w2 at h
  have h1 : w1.SameAround w := .ite (.refl w) (w.recheckLost_around 1)
  have h2 : w2.SameAround w := (w1.discard_around _ _ _).trans h1
  split at h
  · cases h
  · split at h
    · injection h with h
      exact h ▸ .ite h2 h2
    · cases h

theorem Wing.around_of_attemptDoomed_gone {w v : Wing} {o : Obs} (h : w.attemptDoomed o = .gone v) : v.SameAround w := by
  unfold Wing.attemptDoomed at h
  extract_lets esc at h
  (repeat' split at h) <;> cases h
  exact ((Wing.keepSent_around _ _).trans (Wing.discard_around _ _ _ _)).trans (w.escalate_around _ _)

/-- An arrival that is discarded, counted and kept. -/
theorem Wing.discarded_around (w : Wing) (o : Obs) (fate cause : BitVec 2) {c : Nat} (h : cReturn ≠ c) :
    ((((w.escalate o fate).discard o cause false).count c).keepSent o).SameAround w :=
  (((Wing.keepSent_around _ _).trans (Wing.count_around _ h)).trans (Wing.discard_around _ _ _ _)).trans (w.escalate_around _ _)

/-- The delivery of an arrival that is admitted. -/
theorem Wing.delivered_around (w : Wing) (o : Obs) (s : BitVec 12) (r : Rec) :
    (((if o.cls = 3 then ((w.escalate o 0b00).deliver o w.now).useBudget 1
      else (((w.escalate o 0b00).deliver o w.now).useBudget 1).useCredit s).place r).keepSent o).SameAround w := by
  have h2 : (((w.escalate o 0b00).deliver o w.now).useBudget 1).SameAround w :=
    ((Wing.useBudget_around _ _).trans (Wing.deliver_around _ _ _)).trans (w.escalate_around _ _)
  exact ((Wing.keepSent_around _ _).trans (Wing.place_around _ _)).trans (.ite h2 ((Wing.useCredit_around _ _).trans h2))

/-- An admission that is over: the three marks on an arrival first, then the checks. -/
theorem Wing.around_of_attempt_gone {w v : Wing} {o : Obs} {late : Bool} (h : w.attempt o late = .gone v) : v.SameAround w := by
  unfold Wing.attempt at h
  extract_lets s esc w1 w2 w3 at h
  by_cases hpoison : o.isOf w.vst.poison = true
  · rw [if_pos hpoison] at h
    cases h
  rw [if_neg hpoison] at h
  by_cases hlost : o.isOf w.vst.spillLost = true
  · rw [if_pos hlost] at h
    exact Wing.around_of_attemptLost_gone h
  rw [if_neg hlost] at h
  by_cases hdoomed : o.isOf w.vst.doomed = true
  · rw [if_pos hdoomed] at h
    exact Wing.around_of_attemptDoomed_gone h
  rw [if_neg hdoomed] at h
  split at h
  next r hr =>
    cases h
    exact w.rejectObs_around o (Wing.admissionCheck_lt hr)
  next =>
    (repeat' split at h) <;> cases h
    · exact w.discarded_around o _ _ (by decide)
    · exact w.discarded_around o _ _ (by decide)
    · exact w.delivered_around o _ _

theorem Wing.holdSlice_around (w : Wing) (s : BitVec 12) : (w.holdSlice s).SameAround w := by
  unfold Wing.holdSlice
  extract_lets v vst1 w1
  exact .ite (.refl w) (Wing.count_around _ (by decide))

theorem Wing.noteFilterWait_around (w : Wing) (o : Obs) : (w.noteFilterWait o).SameAround w := by
  unfold Wing.noteFilterWait
  exact .ite ⟨rfl, rfl, rfl, rfl, rfl, rfl, rfl, rfl, rfl, List.prefix_rfl⟩ (.refl w)

theorem Wing.stage_around (w : Wing) (o : Obs) : (w.stage o).SameAround w := by
  unfold Wing.stage
  extract_lets s v sp full vst1 w1 w2
  have h2 : w2.SameAround w := .ite (u := w1.setSlice s { v with qfull := true }) (v := w1) (.refl w) (.refl w)
  refine .ite (.refl w) (.ite ?_ ?_)
  · exact (Wing.count_around _ (by decide)).trans (.refl w)
  · exact ((Wing.emitWrite_around _ _ _ _).trans (w2.count_around (by decide))).trans h2

theorem Wing.admitNew_around (w : Wing) (o : Obs) : (w.admitNew o).SameAround w := by
  unfold Wing.admitNew
  split
  next r hr => exact w.rejectObs_around o (Wing.admissionCheck_lt hr)
  next =>
    extract_lets cold w0 w1
    have h0 : w0.SameAround w := .ite (w.fetchFor_around _ _) (.refl w)
    have h1 : w1.SameAround w := (Wing.countIf_around _ _ (by decide)).trans h0
    refine .ite ((w1.stage_around o).trans h1) ?_
    split
    next v hv => exact (Wing.around_of_attempt_gone hv).trans h1
    next => exact ((Wing.stage_around _ _).trans (w1.noteFilterWait_around o)).trans h1
    next => exact ((Wing.stage_around _ _).trans (w1.holdSlice_around _)).trans h1

/-! ## Admission from staging -/

theorem tryStaged_around (os : List Obs) (stuck : List Word) (n : Nat) (w : Wing) : (tryStaged os stuck n w).1.SameAround w := by
  induction os generalizing stuck n w with
  | nil => exact .refl w
  | cons o os ih =>
    unfold tryStaged
    split
    · exact .refl w
    · split
      · exact ih ..
      · split
        next v hv => exact ((ih _ _ _).trans (v.unstage_around o)).trans (Wing.around_of_attempt_gone hv)
        next => exact (ih _ _ _).trans (w.noteFilterWait_around o)
        next => exact w.holdSlice_around _

theorem Wing.serveStaged_around (w : Wing) (s : BitVec 12) : (w.serveStaged s).1.SameAround w := tryStaged_around _ _ _ w

theorem Wing.serveSlice0_around (n : Nat) (w : Wing) : (Wing.serveSlice0 n w).SameAround w := by
  induction n generalizing w with
  | zero => exact .refl w
  | succ n ih =>
    unfold Wing.serveSlice0
    exact .ite ((ih _).trans (w.serveStaged_around 0)) (w.serveStaged_around 0)

theorem serveTurns_around (ss : List (BitVec 12)) (w : Wing) (any : Bool) : (serveTurns ss w any).1.SameAround w := by
  induction ss generalizing w any with
  | nil => exact .refl w
  | cons s ss ih =>
    unfold serveTurns
    have h := w.serveStaged_around s
    exact (ih _ _).trans (.ite (u := { (w.serveStaged s).1 with vst := { (w.serveStaged s).1.vst with rr := s } }) h h)

theorem serveStagedRounds_around (n : Nat) (w : Wing) : (serveStagedRounds n w).SameAround w := by
  induction n generalizing w with
  | zero => exact .refl w
  | succ n ih =>
    unfold serveStagedRounds
    exact .ite ((ih _).trans (serveTurns_around _ _ _)) (serveTurns_around _ _ _)

theorem Wing.serveAlarms_around (w : Wing) : w.serveAlarms.SameAround w := tryStaged_around _ _ _ w

theorem Wing.serveEsc_around (w : Wing) : w.serveEsc.SameAround w :=
  Wing.sameAround_foldl _ _ w fun v o => .ite
    ((Wing.keepSent_around _ _).trans (Wing.escalate_around { v with vst := { v.vst with escDue := v.vst.escDue.erase o } } o 0b10))
    (.refl v)

theorem Wing.fetchStaged_around (w : Wing) : w.fetchStaged.SameAround w :=
  Wing.sameAround_foldl _ _ w fun v o => .ite (v.fetchFor_around o .arrival) (.refl v)

theorem Wing.admitStaged_around (w : Wing) : w.admitStaged.SameAround w :=
  (((serveStagedRounds_around _ _).trans (Wing.serveSlice0_around _ _)).trans (Wing.serveEsc_around _)).trans
    ((Wing.serveAlarms_around _).trans w.fetchStaged_around)

end Sys2Proof.Machine
end

section
/-! What RESYNC_DONE, HANDOVER_SCHEDULE and HANDOVER leave (R276, R282, R283). -/

namespace Sys2Proof.Machine

/-! ## The end of a resync -/

/-- What PCH_CFG's images leave as it is when they come into force. -/
def Wing.besideCfg (w : Wing) : Ctl × Pantry × Passage × List Out × SMap DWord := (w.ctl, w.pan, w.psg, w.out, w.regs.ctr)

theorem Wing.besideCfg_withSigned (w : Wing) (f : Wing → Wing) : (w.withSigned f).besideCfg = (f w).besideCfg := by
  simp [Wing.besideCfg]

theorem Wing.besideCfg_loadPchCfg (w : Wing) : w.loadPchCfg.besideCfg = w.besideCfg := by
  rw [Wing.loadPchCfg_eq, Wing.besideCfg_withSigned]
  exact foldl_keeps Wing.besideCfg Wing.followImage (fun _ _ => rfl) _ w

theorem Wing.loadPchCfg_keeps (w : Wing) :
    w.loadPchCfg.ctl = w.ctl ∧ w.loadPchCfg.pan = w.pan ∧ w.loadPchCfg.psg = w.psg ∧ w.loadPchCfg.out = w.out ∧
      ∀ o, w.loadPchCfg.ctr o = w.ctr o := by
  obtain ⟨hctl, hpan, hpsg, hout, hctr⟩ := (by simpa [Wing.besideCfg] using w.besideCfg_loadPchCfg :
    w.loadPchCfg.ctl = w.ctl ∧ w.loadPchCfg.pan = w.pan ∧ w.loadPchCfg.psg = w.psg ∧ w.loadPchCfg.out = w.out ∧
      w.loadPchCfg.regs.ctr = w.regs.ctr)
  exact ⟨hctl, hpan, hpsg, hout, fun o => congrArg (fun m => SMap.get m 0 o) hctr⟩

/-- The joining wing behind the walk's last frame is a standby, and acknowledges it. -/
theorem Wing.joined_spec (w : Wing) :
    w.joined.ctl.role = .standby ∧ w.joined.psg.ackValid = true ∧
      w.joined.psg.ack = (if w.psg.ackValid then w.psg.ack else w.ctl.joinTick) ∧
      w.joined.ctr cResyncDone = w.ctr cResyncDone + 1 ∧ w.joined.pan = w.pan ∧ w.joined.out = w.out := by
  unfold Wing.joined
  extract_lets c ctl1 psg1 w1
  obtain ⟨hctl, hpan, hpsg, hout, hctr⟩ := w1.loadPchCfg_keeps
  refine ⟨?_, ?_, ?_, ?_, ?_, ?_⟩
  · show w1.loadPchCfg.ctl.role = _
    rw [hctl]
  · show w1.loadPchCfg.psg.ackValid = _
    rw [hpsg]
  · show w1.loadPchCfg.psg.ack = _
    rw [hpsg]
  · show (w1.loadPchCfg.count cResyncDone).ctr cResyncDone = _
    rw [Wing.ctr_count_self, hctr]
    rfl
  · exact hpan
  · exact hout

theorem Wing.resynced_spec (w : Wing) :
    w.resynced.ctl.role = w.ctl.role ∧ w.resynced.ctl.duplex = true ∧ w.resynced.ctl.sendPos = none ∧
      w.resynced.ctr cResyncDone = w.ctr cResyncDone + 1 ∧ w.resynced.pan = w.pan ∧ w.resynced.out = w.out := by
  unfold Wing.resynced
  extract_lets c ctl1 psg1 w1
  exact ⟨rfl, rfl, rfl, w1.ctr_count_self cResyncDone, rfl, rfl⟩

/-- The joining wing has applied the walk's last frame. -/
def Wing.HasJoined (w : Wing) : Prop :=
  w.running = true ∧ w.ctl.role = .joining ∧ w.ctl.joinPos = some walkEnd ∧ w.psg.hold = [] ∧ w.pan.reloads = [] ∧
    ∀ f ∈ w.psg.rx, w.ctl.joinTick.toNat < f.tick.toNat

/-- The active wing has sent the walk, and two ticks have gone by since its last frame. -/
def Wing.HasResynced (w : Wing) : Prop :=
  w.isActive = true ∧ w.ctl.sendPos = some walkEnd ∧ w.ctl.backlog = [] ∧ w.ctl.joinTick.toNat + 2 ≤ w.now.toNat

theorem Wing.resyncDone_of_joined {w : Wing} (h : w.HasJoined) : w.resyncDone = w.joined := by
  obtain ⟨hrun, hrole, hpos, hhold, hrel, hrx⟩ := h
  refine if_pos ?_
  simpa [hrun, hrole, hpos, hhold, hrel] using hrx

theorem Wing.resyncDone_of_resynced {w : Wing} (h : w.HasResynced) : w.resyncDone = w.resynced := by
  obtain ⟨hact, hpos, hback, htick⟩ := h
  have hrole : w.ctl.role = .active := (w.isActive_iff.1 hact).2
  refine (if_neg ?_).trans (if_pos ?_)
  · simp [hrole]
  · simp [hact, hpos, hback, htick]

theorem Wing.resyncDone_stands {w : Wing}
    (h : w.running = false ∨ w.ctl.joinPos ≠ some walkEnd ∧ w.ctl.sendPos ≠ some walkEnd) : w.resyncDone = w := by
  unfold Wing.resyncDone
  rcases h with h | ⟨hjoin, hsend⟩
  · simp [Wing.isActive, h]
  · simp [hjoin, hsend]

/-! ## A handover -/

theorem hiWord_append_loWord (v : DWord) : (hiWord v ++ loWord v : DWord) = v := by
  refine BitVec.eq_of_getLsbD_eq fun i hi => ?_
  simp only [hiWord, loWord, BitVec.getLsbD_append, BitVec.getLsbD_extractLsb']
  split
  · next h => simp [h]
  · next h =>
    have : i - 32 < 32 := by omega
    simp [this, show 32 + (i - 32) = i by omega]

/-- The REGW record of one half of TKO_HANDOVER. -/
def handoverRec (addr : Nat) (val : Word) : RegwRec := { space := 0, dualPend := false, req := 0, addr := BitVec.ofNat 32 addr, val := val }

theorem Wing.placeHandover_eq (w : Wing) (pending : Bool) (h : Tick) :
    w.placeHandover pending h = { w with psg := { w.psg with defr := w.psg.defr ++
      [.regw (handoverRec oTkoHandover (loWord (bit pending ++ 0#7 ++ h))),
        .regw (handoverRec (oTkoHandover + 4) (hiWord (bit pending ++ 0#7 ++ h)))] } } := by
  rw [show ∀ a b : Rec, w.psg.defr ++ [a, b] = w.psg.defr ++ [a] ++ [b] from fun a b => (List.append_assoc _ [a] [b]).symm]
  rfl

/-- The schedule of a handover: the mark, and the two REGW records of TKO_HANDOVER. -/
theorem Wing.scheduleHandover_of_due {w : Wing} (hact : w.isActive = true) (hstable : w.ctl.stable.toNat = 2 ^ 22)
    (hauto : w.autoReturn = true) (hpend : w.handoverPending = false) (hret : w.ctl.returning = false) :
    w.scheduleHandover = { w with ctl := { w.ctl with returning := true } }.placeHandover true (w.now + 8) := by
  unfold Wing.scheduleHandover
  rw [hact, hauto, hpend, hret, beq_iff_eq.2 hstable]
  rfl

theorem Wing.scheduleHandover_stands {w : Wing} (h : w.isActive = false ∨ w.ctl.stable.toNat ≠ 2 ^ 22 ∨ w.autoReturn = false ∨
    w.handoverPending = true ∨ w.ctl.returning = true) : w.scheduleHandover = w := by
  refine if_neg fun hcond => ?_
  simp only [Bool.and_eq_true, beq_iff_eq, Bool.not_eq_true'] at hcond
  obtain ⟨⟨⟨⟨hact, hstable⟩, hauto⟩, hpend⟩, hret⟩ := hcond
  rw [hact, hauto, hpend, hret] at h
  rcases h with h | h | h | h | h
  · cases h
  · exact h hstable
  · cases h
  · cases h
  · cases h

/-- The wing that may take the role in a handover, with its claim: the one that it has, if it is the greatest seen, or the next. -/
inductive Wing.ClaimsHandover (w : Wing) : Wing → Prop
  | already (h : w.ctl.claim = w.ctl.seen) : w.ClaimsHandover w
  | raised (c : Word) (h : w.ctl.claim ≠ w.ctl.seen) (hmay : w.MayRaise c) : w.ClaimsHandover (w.withClaim c).sendClaim

theorem Wing.claimHandover_spec {w : Wing} (hroom : w.ctl.seen.toNat + 2 < 2 ^ 32) (f : Wing → Wing) :
    ∃ v, w.ClaimsHandover v ∧ w.claimHandover f = f v := by
  unfold Wing.claimHandover
  by_cases h : w.ctl.claim = w.ctl.seen
  · exact ⟨w, .already h, if_pos (beq_iff_eq.2 h)⟩
  · obtain ⟨c, hmay, hraise⟩ := Wing.raiseClaim_of_room hroom fun x => f x.sendClaim
    exact ⟨_, .raised c h hmay, (if_neg (mt beq_iff_eq.1 h)).trans hraise⟩

/-- What a wing with its claim does in tick H+1. -/
def Wing.takesHandover (h : Tick) (w1 : Wing) : Wing :=
  let w2 := w1.becomeActive.awaitReplays
  let b := w2.baseBudget
  let w3 := { w2 with
    ctl := { w2.ctl with duplex := true, tkoPhase := some 8, tkoTick := w2.now, writesHeld := true }
    psg := { w2.psg with
      ackedValid := true, acked := h, rx := w1.psg.rx.filter fun f => decide (h.toNat < f.tick.toNat)
      lost := w1.psg.lost.filter fun x => decide (h.toNat < x.tick.toNat) }
    vst := { w2.vst with arrLeft := b, clmLeft := b, cmpLeft := b, cred := [] }
    pwr := { w2.pwr with given := b } }
  (((w3.count cReturn).logTko tkReturn).placeHandover false h).admitStaged

theorem Wing.takesHandover_spec (h : Tick) (w : Wing) :
    (w.takesHandover h).ctl.role = .active ∧ (w.takesHandover h).ctl.duplex = true ∧
      (w.takesHandover h).ctl.claim = w.ctl.claim ∧ (w.takesHandover h).ctl.seen = w.ctl.seen ∧
      (w.takesHandover h).ctr cReturn = w.ctr cReturn + 1 ∧ w.out <+: (w.takesHandover h).out := by
  unfold Wing.takesHandover
  extract_lets w2 b ctl3 psg3 vst3 pwr3 w3
  have hplaced : (((w3.count cReturn).logTko tkReturn).placeHandover false h).ctl = w3.ctl ∧
      (((w3.count cReturn).logTko tkReturn).placeHandover false h).regs = ((w3.count cReturn).logTko tkReturn).regs ∧
      (((w3.count cReturn).logTko tkReturn).placeHandover false h).out = w3.out := by simp
  obtain ⟨hctl, hregs, hout⟩ := hplaced
  obtain ⟨-, actl, -, -, -, -, -, -, actr, aout⟩ := (((w3.count cReturn).logTko tkReturn).placeHandover false h).admitStaged_around
  rw [actl, hctl]
  refine ⟨rfl, rfl, rfl, rfl, ?_, ?_⟩
  · refine Eq.trans actr ?_
    rw [hregs]
    exact w3.ctr_count_self cReturn
  · rw [hout] at aout
    exact aout

theorem Wing.handover_of_due {w : Wing} (hstandby : w.isStandby = true) (hpend : w.handoverPending = true)
    (hlate : w.handoverTick.toNat < w.now.toNat) :
    (w.psg.ackValid = true → w.psg.ack = w.handoverTick → w.handover = w.claimHandover (Wing.takesHandover w.handoverTick)) ∧
    (w.psg.ackValid = false ∨ w.psg.ack ≠ w.handoverTick → w.handover = w.claimHandover fun x => x) := by
  have hcond : (w.isStandby && w.handoverPending && decide (w.handoverTick.toNat < w.now.toNat)) = true := by
    simp only [hstandby, hpend, hlate, decide_true, Bool.and_self]
  unfold Wing.handover
  rw [if_pos hcond]
  refine ⟨fun hvalid hack => if_pos ?_, fun h => if_neg ?_⟩
  · simp only [hvalid, hack, beq_self_eq_true, Bool.and_self]
  · rcases h with h | h
    · simp [h]
    · simp [h]

theorem Wing.handover_stands {w : Wing}
    (h : w.isStandby = false ∨ w.handoverPending = false ∨ w.now.toNat ≤ w.handoverTick.toNat) : w.handover = w := by
  refine if_neg fun hcond => ?_
  simp only [Bool.and_eq_true, decide_eq_true_eq] at hcond
  obtain ⟨⟨hstandby, hpend⟩, hlate⟩ := hcond
  rw [hstandby, hpend] at h
  rcases h with h | h | h
  · cases h
  · cases h
  · omega

/-- What is known of the claim of a wing that may take the role in a handover, and of what it has sent. -/
theorem Wing.ClaimsHandover.spec {w v : Wing} (h : w.ClaimsHandover v) :
    v.ctl.role = w.ctl.role ∧ v.pan = w.pan ∧ v.vst = w.vst ∧ v.ctl.seen = v.ctl.claim ∧ v.ctr cReturn = w.ctr cReturn ∧
      (w.ctl.claim = w.ctl.seen → v.ctl.claim = w.ctl.claim) ∧
      (w.ctl.claim ≠ w.ctl.seen → w.MayRaise v.ctl.claim ∧
        ∀ p ∈ w.upPorches, Out.w2p w.id p 3 (claimRaiseBeat v.ctl.claim) ∈ v.out) := by
  cases h with
  | already h => exact ⟨rfl, rfl, rfl, h.symm, rfl, fun _ => rfl, fun hne => absurd h hne⟩
  | raised c h hmay =>
    rw [Wing.sendClaim_eq]
    refine ⟨rfl, rfl, rfl, rfl, rfl, fun he => absurd he h, fun _ => ⟨hmay, fun p hp => ?_⟩⟩
    exact List.mem_append_right _ (List.mem_map.2 ⟨p, hp, rfl⟩)

theorem stepsWing_resyncDone (s : State) (w : WingId) : StepsWing (.resyncDone w) s w Wing.resyncDone := stepsWing rfl

theorem stepsWing_handoverSchedule (s : State) (w : WingId) : StepsWing (.handoverSchedule w) s w Wing.scheduleHandover :=
  stepsWing rfl

theorem stepsWing_handover (s : State) (w : WingId) : StepsWing (.handover w) s w Wing.handover := stepsWing rfl

end Sys2Proof.Machine

namespace Sys2Proof

open Machine

/-- Settles O50: what each command does by its condition; in a handover the claim is `Wing.ClaimsHandover`. -/
theorem resyncAndHandoverChangeRoles : Obligations.ResyncAndHandoverChangeRoles := by
  unfold Obligations.ResyncAndHandoverChangeRoles
  refine fun s w => ⟨fun hrun hrole hpos hhold hrel hrx hvalid => ?_, fun hact hpos hback htick => ?_,
    fun hact hstable hauto hpend hret => ?_, fun hstandby hpend hlate hroom => ?_, fun h => ?_, fun h => ?_, fun h => ?_⟩
  · obtain ⟨jrole, jvalid, jack, jctr, jpan, jout⟩ := (s.wing w).silent.joined_spec
    obtain ⟨t, ht, honly, hwing, hout⟩ := (stepsWing_resyncDone s w).leaves
      (Wing.resyncDone_of_joined (w := (s.wing w).silent) ⟨hrun, hrole, hpos, hhold, hrel, hrx⟩)
    refine ⟨t, ht, honly, hout.trans jout, ?_⟩
    rw [hwing]
    exact ⟨jrole, jvalid, jack.trans (if_neg (Bool.eq_false_iff.1 hvalid)), jctr, congrArg Pantry.slots jpan⟩
  · obtain ⟨rrole, rdup, rpos, rctr, rpan, rout⟩ := (s.wing w).silent.resynced_spec
    obtain ⟨t, ht, honly, hwing, hout⟩ := (stepsWing_resyncDone s w).leaves
      (Wing.resyncDone_of_resynced (w := (s.wing w).silent) ⟨hact, hpos, hback, htick⟩)
    refine ⟨t, ht, honly, hout.trans rout, ?_⟩
    rw [hwing]
    exact ⟨rrole.trans ((s.wing w).isActive_iff.1 hact).2, rdup, rpos, rctr, rpan⟩
  · obtain ⟨t, ht, honly, hwing, hout⟩ := (stepsWing_handoverSchedule s w).leaves
      ((Wing.scheduleHandover_of_due (w := (s.wing w).silent) hact hstable hauto hpend hret).trans (Wing.placeHandover_eq _ _ _))
    exact ⟨t, _, _, ht, honly, hout, hwing, rfl, rfl, rfl, rfl, rfl, rfl, hiWord_append_loWord _⟩
  · obtain ⟨hgo, hwait⟩ := Wing.handover_of_due (w := (s.wing w).silent) hstandby hpend hlate
    by_cases hack : (s.wing w).psg.ackValid = true ∧ (s.wing w).psg.ack = (s.wing w).handoverTick
    · obtain ⟨v, hclaims, hv⟩ := Wing.claimHandover_spec (w := (s.wing w).silent) hroom (Wing.takesHandover (s.wing w).handoverTick)
      obtain ⟨-, -, -, vseen, vctr, vkeep, vraise⟩ := hclaims.spec
      obtain ⟨trole, tdup, tclaim, tseen, tctr, tout⟩ := v.takesHandover_spec (s.wing w).handoverTick
      obtain ⟨t, ht, honly, hwing, hout⟩ := (stepsWing_handover s w).leaves ((hgo hack.1 hack.2).trans hv)
      generalize v.takesHandover (s.wing w).handoverTick = u at trole tdup tclaim tseen tctr tout hwing hout
      refine ⟨t, ht, honly, ?_⟩
      rw [hwing, hout]
      refine ⟨fun _ _ => ⟨trole, tdup, by rw [Wing.ctr_silent, tctr, vctr]; rfl⟩, fun hno => ?_, tseen.trans (vseen.trans tclaim.symm),
        fun he => tclaim.trans (vkeep he), fun hne => ?_⟩
      · rcases hno with hno | hno
        · rw [hack.1] at hno
          cases hno
        · exact absurd hack.2 hno
      · obtain ⟨⟨hlow, hhigh, hparity⟩, hsent⟩ := vraise hne
        rw [← tclaim] at hlow hhigh hparity hsent
        exact ⟨hlow, hhigh, hparity, fun p hp => tout.subset (hsent p hp)⟩
    · have hno : (s.wing w).psg.ackValid = false ∨ (s.wing w).psg.ack ≠ (s.wing w).handoverTick := by
        rw [← Bool.not_eq_true]
        exact not_and_or.1 hack
      obtain ⟨v, hclaims, hv⟩ := Wing.claimHandover_spec (w := (s.wing w).silent) hroom fun x => x
      obtain ⟨vrole, vpan, vvst, vseen, -, vkeep, vraise⟩ := hclaims.spec
      obtain ⟨t, ht, honly, hwing, hout⟩ := (stepsWing_handover s w).leaves ((hwait hno).trans hv)
      refine ⟨t, ht, honly, ?_⟩
      rw [hwing, hout]
      have hrole : (s.wing w).ctl.role = .standby := by
        have := hstandby
        simp only [Wing.isStandby, Bool.and_eq_true, beq_iff_eq] at this
        exact this.2
      exact ⟨fun hv ha => absurd ⟨hv, ha⟩ hack, fun _ => ⟨vrole.trans hrole, vpan, vvst⟩, vseen, vkeep, fun hne =>
        ⟨(vraise hne).1.1, (vraise hne).1.2.1, (vraise hne).1.2.2, (vraise hne).2⟩⟩
  · obtain ⟨t, ht, honly, -, hwing⟩ := (stepsWing_resyncDone s w).stands (Wing.resyncDone_stands (w := (s.wing w).silent) h)
    exact ⟨t, ht, honly, hwing⟩
  · obtain ⟨t, ht, honly, -, hwing⟩ := (stepsWing_handoverSchedule s w).stands
      (Wing.scheduleHandover_stands (w := (s.wing w).silent) h)
    exact ⟨t, ht, honly, hwing⟩
  · obtain ⟨t, ht, honly, -, hwing⟩ := (stepsWing_handover s w).stands (Wing.handover_stands (w := (s.wing w).silent) h)
    exact ⟨t, ht, honly, hwing⟩

end Sys2Proof
end

section
/-! What the hearth's commands leave: the anchor, the rail, the calendar, time pairs, power, and the raw edge (R318 to R333). -/

namespace Sys2Proof.Machine

/-! ## The anchor -/

/-- A wing that writes an anchor in this tick: it runs, holds a role and a tick counter, and the tick is a multiple of 65,536. -/
def Wing.AnchorsNow (w : Wing) : Prop :=
  w.running = true ∧ w.now.toNat % 65536 = 0 ∧ w.ctl.hasTick = true ∧ (w.ctl.role = .active ∨ w.ctl.role = .standby)

/-- What ANCHOR_WRITE does to a wing. -/
def Wing.anchorWrite (v : Wing) : Wing := if v.running && decide (v.now.toNat % 65536 = 0) then v.writeAnchor else v

/-- The hearth with the anchor of tick `now`, which keeps its raw counter when it stands already. -/
def Hearth.withAnchor (h : Hearth) (now : Tick) : Hearth :=
  { h with ancValid := true, ancTick := now, ancRaw := if h.ancValid && h.ancTick == now then h.ancRaw else h.raw }

theorem Hearth.withAnchor_eq (h : Hearth) (now : Tick) :
    (if h.ancValid && h.ancTick == now then h else { h with ancValid := true, ancTick := now, ancRaw := h.raw }) = h.withAnchor now := by
  unfold Hearth.withAnchor
  by_cases hsame : (h.ancValid && h.ancTick == now) = true
  · rw [if_pos hsame, if_pos hsame]
    obtain ⟨hvalid, htick⟩ := (by simpa using hsame : h.ancValid = true ∧ h.ancTick = now)
    rw [← hvalid, ← htick]
  · rw [if_neg hsame, if_neg hsame]

theorem Wing.anchorWrite_of_due {w : Wing} (hpow : w.hrt.powered = true) (h : w.AnchorsNow) :
    w.anchorWrite = { w with hrt := w.hrt.withAnchor w.now } := by
  obtain ⟨hrun, hmul, htick, hrole⟩ := h
  have hrole' : (w.ctl.role == .active || w.ctl.role == .standby) = true := by simpa using hrole
  unfold Wing.anchorWrite Wing.writeAnchor Wing.onHearth
  rw [if_pos (by rw [hrun, hmul]; rfl), if_pos (by rw [htick, hrole']; rfl), if_pos hpow]
  exact congrArg (fun h => { w with hrt := h }) (w.hrt.withAnchor_eq w.now)

theorem Wing.anchorWrite_stands {w : Wing} (h : ¬ w.AnchorsNow) : w.anchorWrite = w := by
  unfold Wing.anchorWrite
  split
  next hrun =>
    refine if_neg fun hrole => h ?_
    simp only [Bool.and_eq_true, decide_eq_true_eq, Bool.or_eq_true, beq_iff_eq] at hrun hrole
    exact ⟨hrun.1, hrun.2, hrole.1, hrole.2⟩
  next => rfl

theorem stepsWing_anchorWrite (s : State) (w : WingId) : StepsWing (.anchorWrite w) s w Wing.anchorWrite := stepsWing rfl

/-! ## The rail, the port's accesses and the power-up -/

theorem stepsWing_vbatCheck (s : State) (w : WingId) (mv : BitVec 16) :
    StepsWing (.vbatCheck w mv) s w fun v => { v with hrt := v.hrt.checkRail mv.toNat } := stepsWing rfl

theorem stepsWing_hearthPowerUp (s : State) (w : WingId) : StepsWing (.hearthPowerUp w) s w fun v =>
    if v.hrt.powered then v else { v with hrt := { Hearth.reset with railLow := v.hrt.railLow } } := stepsWing rfl

/-- What an access of HRT_CAL_SET with the value asks of a live wing. -/
def Wing.calAccess (val : DWord) (x : Wing) : Wing := if x.calLocked then x else x.setCalendar (val.extractLsb' 0 63)

theorem stepsWing_hrtCalSet (s : State) (w : WingId) (val : DWord) :
    StepsWing (.hrtCalSet w val) s w fun v => v.portLive (Wing.calAccess val) := stepsWing rfl

theorem stepsWing_timePair (s : State) (w : WingId) : StepsWing (.timePair w) s w fun v => v.portLive Wing.askPair := stepsWing rfl

theorem Wing.portLive_of_live {w : Wing} (hheld : w.life ≠ .held) (hdeep : w.life ≠ .deep) (f : Wing → Wing) : w.portLive f = f w := by
  unfold Wing.portLive
  split
  next h => exact absurd h hheld
  next h => exact absurd h hdeep
  next => rfl

theorem Wing.portLive_held {w : Wing} (h : w.life = .held) (f : Wing → Wing) : w.portLive f = w.emit (.regRsp w.id false 0) := by
  simp [Wing.portLive, h]

theorem Wing.portLive_deep {w : Wing} (h : w.life = .deep) (f : Wing → Wing) : w.portLive f = w := by
  simp [Wing.portLive, h]

theorem Wing.onHearth_of_powered {w : Wing} (h : w.hrt.powered = true) (f : Hearth → Hearth) :
    w.onHearth f = { w with hrt := f w.hrt } := if_pos h

/-- An access of the hearth by the port of a wing in reset or in Deep. -/
theorem StepsWing.dead {i : Instr} {s : State} {w : WingId} {f : Wing → Wing} (h : StepsWing i s w fun v => v.portLive f) :
    ((s.wing w).life = .held → ∃ t, exec i s = .next t ∧ s.onlyWing t w ∧ t.out = [.regRsp (s.wing w).id false 0] ∧
      t.wing w = { s.wing w with out := [] }) ∧
    ((s.wing w).life = .deep → ∃ t, exec i s = .next t ∧ s.onlyWing t w ∧ t.out = [] ∧ t.wing w = { s.wing w with out := [] }) := by
  refine ⟨fun hheld => ?_, fun hdeep => h.stands (Wing.portLive_deep (w := (s.wing w).silent) hdeep f)⟩
  obtain ⟨t, ht, honly, hwing, hout⟩ := h.leaves (Wing.portLive_held (w := (s.wing w).silent) hheld f)
  exact ⟨t, ht, honly, hout, hwing⟩

/-! ## The raw edge -/

theorem Latch.stamp_reset (raw : DWord) (cal : BitVec 63) : Latch.reset.stamp raw cal = Latch.reset := rfl

/-- A latch of a hearth whose latches have been stamped. -/
theorem latch_stamp (m : SMap Latch) (raw : DWord) (cal : BitVec 63) (i : Nat) :
    SMap.get (m.map fun (e : Nat × Latch) => (e.1, e.2.stamp raw cal)) Latch.reset i = (SMap.get m Latch.reset i).stamp raw cal := by
  induction m with
  | nil => rfl
  | cons e m ih =>
    unfold SMap.get at ih ⊢
    simp only [List.map_cons, SMap.find?]
    split
    · rfl
    · exact ih

/-- What an edge leaves in a powered hearth (R319, R320, R328, R333). -/
theorem Hearth.edge_spec (h : Hearth) (now : Tick) :
    (h.edge now).raw = h.raw + 1 ∧ (h.edge now).cal = h.nextCal ∧ (h.edge now).calPend = false ∧
      (∀ i, (h.edge now).latch i = (h.latch i).stamp (h.raw + 1) h.nextCal) ∧ (h.edge now).pairPend = false ∧
      (h.pairPend = true → (h.edge now).pairValid = true ∧ (h.edge now).pairCal = h.nextCal ∧ (h.edge now).pairRaw = h.raw + 1 ∧
        (h.edge now).pairTick = now) ∧
      (h.pairPend = false → (h.edge now).pairValid = h.pairValid ∧ (h.edge now).pairRaw = h.pairRaw) := by
  unfold Hearth.edge Hearth.advance
  extract_lets raw cal h1
  by_cases hpair : h.pairPend = true
  · rw [if_pos hpair]
    exact ⟨rfl, rfl, rfl, fun i => latch_stamp h.latches raw cal i, rfl, fun _ => ⟨rfl, rfl, rfl, rfl⟩,
      fun hno => absurd hpair (Bool.eq_false_iff.1 hno)⟩
  · rw [if_neg hpair]
    exact ⟨rfl, rfl, rfl, fun i => latch_stamp h.latches raw cal i, Bool.eq_false_iff.2 hpair, fun hyes => absurd hyes hpair,
      fun _ => ⟨rfl, rfl⟩⟩

theorem Wing.rawSeen_of_no_wait {w : Wing} (h : w.ctl.rawWait = none) : w.rawSeen = w := by
  unfold Wing.rawSeen
  split
  next => rfl
  next h' => rw [h] at h'; cases h'

theorem stepsWing_rawEdge (s : State) (w : WingId) :
    StepsWing (.rawEdge w) s w fun v => (v.onHearth fun h => h.edge v.now).rawSeen := stepsWing rfl

end Sys2Proof.Machine

namespace Sys2Proof

open Machine

/-- Settles O54: each command by whether the hearth is powered and the wing's port is live; an edge as `Hearth.edge_spec` says. -/
theorem hearthKeepsTime : Obligations.HearthKeepsTime := by
  unfold Obligations.HearthKeepsTime
  refine ⟨?_, ?_⟩
  · rintro s w h rfl
    refine ⟨fun hpow => ⟨fun hno => ?_, fun htick hrole hrun hmul => ?_, fun mv => ?_, fun hheld hdeep => ⟨fun val =>
      ⟨fun hlock => ?_, fun hlock => ?_⟩, ?_⟩, ?_⟩, fun hpow => ⟨?_, fun mv => ?_⟩, ?_, ?_⟩
    · refine (stepsWing_anchorWrite s w).stands (Wing.anchorWrite_stands (w := (s.wing w).silent) ?_)
      rintro ⟨hrun, hmul, htick, hrole⟩
      rcases hno with h | ⟨hact, hstb⟩ | h | h
      · exact absurd htick (Bool.eq_false_iff.1 h)
      · exact hrole.elim hact hstb
      · exact absurd hrun (Bool.eq_false_iff.1 h)
      · exact h hmul
    · obtain ⟨t, ht, honly, hwing, hout⟩ := (stepsWing_anchorWrite s w).leaves
        (Wing.anchorWrite_of_due (w := (s.wing w).silent) hpow ⟨hrun, hmul, htick, hrole⟩)
      exact ⟨t, ht, honly, hout, hwing⟩
    · obtain ⟨t, ht, honly, hwing, hout⟩ := stepsWing_vbatCheck s w mv
      refine ⟨t, ht, honly, hout, hwing.trans ?_⟩
      simp [Hearth.checkRail, hpow, Wing.silent]
    · obtain ⟨t, ht, honly, hwing, hout⟩ := (stepsWing_hrtCalSet s w val).leaves
        ((Wing.portLive_of_live (w := (s.wing w).silent) hheld hdeep _).trans
          ((if_neg (Bool.eq_false_iff.1 hlock)).trans (Wing.onHearth_of_powered (w := (s.wing w).silent) hpow _)))
      exact ⟨t, ht, honly, hout, hwing⟩
    · exact (stepsWing_hrtCalSet s w val).stands
        ((Wing.portLive_of_live (w := (s.wing w).silent) hheld hdeep _).trans (if_pos hlock))
    · obtain ⟨t, ht, honly, hwing, hout⟩ := (stepsWing_timePair s w).leaves
        ((Wing.portLive_of_live (w := (s.wing w).silent) hheld hdeep _).trans
          (Wing.onHearth_of_powered (w := (s.wing w).silent) hpow _))
      exact ⟨t, ht, honly, hout, hwing⟩
    · exact (stepsWing_hearthPowerUp s w).stands (if_pos hpow)
    · obtain ⟨t, ht, honly, hwing, hout⟩ := (stepsWing_hearthPowerUp s w).leaves (if_neg (Bool.eq_false_iff.1 hpow))
      refine ⟨t, ht, honly, hout, ?_⟩
      rw [hwing]
      exact ⟨rfl, rfl, rfl, rfl, rfl, rfl, rfl, rfl, rfl⟩
    · obtain ⟨t, ht, honly, hwing, hout⟩ := stepsWing_vbatCheck s w mv
      refine ⟨t, ht, honly, hout, hwing.trans ?_⟩
      simp [Hearth.checkRail, hpow, Wing.silent]
    · rintro i val (rfl | rfl)
      · exact (stepsWing_hrtCalSet s w val).dead
      · exact (stepsWing_timePair s w).dead
    · refine ⟨_, rfl, rfl, rfl, rfl, fun v => ?_⟩
      cases v <;> exact ⟨rfl, rfl, rfl, rfl, rfl, rfl⟩
  · rintro s w h rfl hwait
    refine ⟨fun hpow => ?_, fun hpow => ?_⟩
    · obtain ⟨hraw, hcal, hpend, hlatch, hpair, hcap, hkeep⟩ := (s.wing w).hrt.edge_spec (s.wing w).now
      obtain ⟨t, ht, honly, hwing, hout⟩ := (stepsWing_rawEdge s w).leaves
        ((congrArg Wing.rawSeen (Wing.onHearth_of_powered (w := (s.wing w).silent) hpow _)).trans (Wing.rawSeen_of_no_wait hwait))
      refine ⟨t, (s.wing w).hrt.nextCal, ht, honly, hout, ?_⟩
      rw [hwing]
      exact ⟨rfl, rfl, hraw, hcal, hpend, hlatch, hpair, hcap, hkeep⟩
    · refine (stepsWing_rawEdge s w).stands ((congrArg Wing.rawSeen (if_neg ?_)).trans (Wing.rawSeen_of_no_wait hwait))
      exact Bool.eq_false_iff.1 hpow

end Sys2Proof
end

section
/-! What LEVEL_CHOICE, STUDY_VOTE and LEVEL_CHANGE leave (R288 to R294). -/

namespace Sys2Proof.Machine

/-! ## The choice of a level -/

theorem Level.ofCode_code (l : Level) : Level.ofCode l.code = l := by cases l <;> rfl

/-- The slowest level that meets a condition. -/
theorem slowest_level {p : Level → Bool} {l : Level} (hl : p l = true)
    (hslower : ∀ k : Level, l.code.toNat < k.code.toNat → p k = false) : (levels.filter p).getLast? = some l := by
  have h1 := hslower .p1
  have h2 := hslower .p2
  have h3 := hslower .p3
  cases l with
  | p0 => simp [levels, hl, h1 (by decide), h2 (by decide), h3 (by decide)]
  | p1 => cases h0 : p .p0 <;> simp [levels, hl, h0, h2 (by decide), h3 (by decide)]
  | p2 => cases h0 : p .p0 <;> cases h1 : p .p1 <;> simp [levels, hl, h0, h1, h3 (by decide)]
  | p3 => cases h0 : p .p0 <;> cases h1 : p .p1 <;> cases h2 : p .p2 <;> simp [levels, hl, h0, h1, h2]

/-- A level that the study must choose: FIXED_LEVEL without LEVEL_AUTO; above three quarters of the budget the slowest level whose budget
has a quarter to spare (R292). -/
def Wing.MustChoose (w : Wing) (l : Level) : Prop :=
  w.levelAuto = false ∧ l.code = w.fixedLevel ∨
    w.levelAuto = true ∧ 3 * w.levelBudget w.pwr.level < 4 * w.pwr.dmax ∧
      w.pwr.dmax + (w.pwr.dmax + 3) / 4 ≤ w.levelBudget l ∧
      ∀ k : Level, l.code.toNat < k.code.toNat → w.levelBudget k < w.pwr.dmax + (w.pwr.dmax + 3) / 4

theorem Wing.chosenLevel_of_must {w : Wing} {l : Level} (h : w.MustChoose l) : w.chosenLevel = (l, 0) := by
  unfold Wing.chosenLevel
  extract_lets d cur need
  rcases h with ⟨hauto, hcode⟩ | ⟨hauto, hhigh, hneed, hslower⟩
  · rw [if_pos (by rw [hauto]; rfl), ← hcode, Level.ofCode_code]
  · have hlast := slowest_level (p := fun l => decide (need ≤ w.levelBudget l)) (l := l) (decide_eq_true hneed)
      fun k hk => decide_eq_false (Nat.not_le.2 (hslower k hk))
    rw [if_neg (by rw [hauto]; exact Bool.false_ne_true), if_pos hhigh, hlast]
    rfl

/-- LEVEL_CHOICE in the active wing at a multiple of 64 ticks. -/
theorem Wing.levelChoice_of_due {w : Wing} (hact : w.isActive = true) (hmul : w.now.toNat % 64 = 0) :
    (w.levelOut = true ∨ w.levelFresh = true → w.levelChoice = { w with pwr := { w.pwr with slowRun := 0 } }) ∧
    (∀ l, w.levelOut = false → w.levelFresh = false → w.MustChoose l → w.levelChoice = { w with pwr := { w.pwr with
      slowRun := 0, want := if w.permitted l = w.pwr.level then none else some (w.permitted l) } }) := by
  unfold Wing.levelChoice
  rw [if_pos (by rw [hact, hmul]; rfl)]
  refine ⟨fun h => if_pos ?_, fun l hout hfresh hmust => (if_neg ?_).trans ?_⟩
  · rcases h with h | h <;> simp [h]
  · simp [hout, hfresh]
  · rw [Wing.chosenLevel_of_must hmust]

theorem Wing.levelChoice_stands {w : Wing} (h : w.isActive = false ∨ w.now.toNat % 64 ≠ 0) : w.levelChoice = w := by
  refine if_neg fun hcond => ?_
  simp only [Bool.and_eq_true, decide_eq_true_eq] at hcond
  exact h.elim (fun h => absurd hcond.1 (Bool.eq_false_iff.1 h)) fun h => h hcond.2

/-! ## The study's vote -/

/-- The quiet ticks are too few for a vote on sleep. -/
def Wing.TooSoon (w : Wing) : Prop := w.napDelay = 0 ∨ w.pwr.quiet.toNat < 16 * w.napDelay ∨ w.pwr.quiet = 0

theorem Wing.studyVote_of_tooSoon {w : Wing} (h : w.TooSoon) : w.studyVote = 0 :=
  if_pos (h.imp_right fun h => h.imp_right fun hq => by rw [hq]; rfl)

theorem Wing.studyVote_of_not_tooSoon {w : Wing} (h : ¬ w.TooSoon) :
    w.studyVote = if w.deepEn ∧ w.deepDelay * 4096 ≤ w.pwr.quiet.toNat then 2 else 1 :=
  if_neg fun hsoon => h (hsoon.imp_right fun h => h.imp_right fun hq => BitVec.eq_of_toNat_eq hq)

theorem Wing.studyVote_eq_zero_iff (w : Wing) : w.studyVote = 0 ↔ w.TooSoon := by
  by_cases hsoon : w.TooSoon
  · exact iff_of_true (Wing.studyVote_of_tooSoon hsoon) hsoon
  · rw [Wing.studyVote_of_not_tooSoon hsoon]
    refine iff_of_false ?_ hsoon
    split <;> decide

theorem Wing.studyVote_eq_two_iff (w : Wing) :
    w.studyVote = 2 ↔ ¬ w.TooSoon ∧ w.deepEn = true ∧ w.deepDelay * 4096 ≤ w.pwr.quiet.toNat := by
  by_cases hsoon : w.TooSoon
  · rw [Wing.studyVote_of_tooSoon hsoon]
    exact iff_of_false (by decide) fun h => h.1 hsoon
  · rw [Wing.studyVote_of_not_tooSoon hsoon]
    by_cases hboth : w.deepEn = true ∧ w.deepDelay * 4096 ≤ w.pwr.quiet.toNat
    · rw [if_pos hboth]
      exact iff_of_true rfl ⟨hsoon, hboth⟩
    · rw [if_neg hboth]
      exact iff_of_false (by decide) fun h => hboth h.2

/-! ## The change of level -/

@[simp] theorem Wing.setWord_pwr (w : Wing) (k : Nat) (v : Word) : (w.setWord k v).pwr = w.pwr := by
  unfold Wing.setWord
  extract_lets pan1 w1 regs1 w2 regs2 w2' pch2 w3
  have h1 : w1.pwr = w.pwr := by unfold w1; (repeat' split) <;> rfl
  have h2 : w2.pwr = w1.pwr := by unfold w2; (repeat' split) <;> rfl
  have h2' : w2'.pwr = w2.pwr := by unfold w2'; (repeat' split) <;> rfl
  have h3 : w3.pwr = w2'.pwr := by unfold w3; (repeat' split) <;> rfl
  simp [h3, h2', h2, h1]

theorem Wing.failHeldWrites_pwr (w : Wing) : w.failHeldWrites.pwr = w.pwr := by
  unfold Wing.failHeldWrites
  split
  · rfl
  next h _ =>
    exact foldl_keeps Wing.pwr _ (fun v e => by split <;> simp) h.old w

theorem Wing.withdrawNow_spec (w : Wing) :
    w.withdrawNow.ctl.role = .joining ∧ w.withdrawNow.pwr = w.pwr ∧ ∀ c, c ≠ cRegErr → c ≠ cWithdraw → w.withdrawNow.ctr c = w.ctr c := by
  refine ⟨rfl, w.failHeldWrites_pwr, fun c hreg hwd => ?_⟩
  exact (Wing.ctr_count_ne w.enterJoining hwd).trans (w.enterJoining_counters.1 c hreg)

/-- A level that is taken: no raise, or one with PWR_VOK. -/
theorem Wing.switchLevel_taken {w : Wing} {l : Level} {vok : Bool} (h : w.pwr.level.code.toNat ≤ l.code.toNat ∨ vok = true) :
    w.switchLevel l vok =
      let w1 := { w with pwr := { w.pwr with next := none, vok := none } }.countIf (l != w.pwr.level) cLevelChanges
      { w1 with
        pwr := { w1.pwr.atLevel l with level := l, vsel := l.code.setWidth 3, lastL := w.now, slowRun := 0 }
        hall := { w1.hall with p3since := if l = .p3 ∧ w.pwr.level ≠ .p3 then w.now else w1.hall.p3since } } := by
  refine if_neg fun hup => ?_
  simp only [Bool.and_eq_true, decide_eq_true_eq, Bool.not_eq_true'] at hup
  obtain ⟨hup, hvok⟩ := hup
  rcases h with h | h
  · omega
  · rw [h] at hvok
    cases hvok

/-- A raise that fails leaves its level, sets VFAIL and counts. -/
def Wing.raiseFailed (w : Wing) : Wing :=
  ({ w with pwr := { w.pwr with
      next := none, vok := none, vfail := true, vsel := w.pwr.level.code.setWidth 3, bias := w.pwr.level.bias } }).count cVfail

theorem Wing.switchLevel_failed {w : Wing} {l : Level} (h : l.code.toNat < w.pwr.level.code.toNat) :
    w.switchLevel l false =
      if w.ctl.role = .active then w.raiseFailed.place (.level { level := w.pwr.level.code, tick := w.now + 2 })
      else if w.ctl.role = .standby then w.raiseFailed.withdrawNow else w.raiseFailed :=
  if_pos (by simp [h])

theorem Wing.levelChange_switch {w : Wing} {l : Level} {vok : Bool} (hrun : w.running = true) (hnext : w.pwr.next = some (l, w.now)) :
    w.levelChange vok = (w.switchLevel l vok).rebudget := by
  simp [Wing.levelChange, hnext, hrun]

theorem Wing.levelChange_check {w : Wing} {l : Level} {vok : Bool} (hrun : w.running = true)
    (hnext : w.pwr.next = some (l, w.now + 1)) : w.levelChange vok = { w with pwr := { w.pwr with vok := some vok } } := by
  simp [Wing.levelChange, hnext, hrun]

theorem Wing.levelChange_stands {w : Wing} {vok : Bool} (h : w.running = false ∨ w.pwr.next = none) : w.levelChange vok = w := by
  unfold Wing.levelChange
  rcases h with h | h
  · split <;> simp [h]
  · simp [h]

/-- What a change of level leaves. -/
theorem Wing.levelChange_taken {w : Wing} {l : Level} {vok : Bool} (hrun : w.running = true) (hnext : w.pwr.next = some (l, w.now))
    (h : w.pwr.level.code.toNat ≤ l.code.toNat ∨ vok = true) :
    (w.levelChange vok).out = w.out ∧ (w.levelChange vok).pwr.level = l ∧
      (w.levelChange vok).pwr.vsel = l.code.setWidth 3 ∧ (w.levelChange vok).pwr.next = none ∧
      (w.levelChange vok).pwr.lastL = w.now ∧ (w.levelChange vok).pwr.given = (w.levelChange vok).budget ∧
      (w.levelChange vok).vst.arrLeft = (w.levelChange vok).budget - (w.pwr.given - w.vst.arrLeft) ∧
      (w.levelChange vok).pwr.bias = l.bias ∧ (w.levelChange vok).pwr.assist = l.assist ∧
      (w.levelChange vok).pwr.divider = l.divider ∧
      (w.levelChange vok).ctr cLevelChanges = w.ctr cLevelChanges + (if l = w.pwr.level then 0 else 1) := by
  rw [Wing.levelChange_switch hrun hnext, Wing.switchLevel_taken h]
  by_cases hsame : l = w.pwr.level
  · rw [show (l != w.pwr.level) = false by simp [hsame], if_pos hsame]
    exact ⟨rfl, rfl, rfl, rfl, rfl, rfl, rfl, rfl, rfl, rfl, (BitVec.add_zero _).symm⟩
  · rw [show (l != w.pwr.level) = true by simp [hsame], if_neg hsame]
    exact ⟨rfl, rfl, rfl, rfl, rfl, rfl, rfl, rfl, rfl, rfl,
      Wing.ctr_count_self { w with pwr := { w.pwr with next := none, vok := none } } cLevelChanges⟩

/-- What a failed raise leaves in the wing's power part. -/
def Wing.KeptLevel (w v : Wing) : Prop :=
  v.pwr.level = w.pwr.level ∧ v.pwr.vfail = true ∧ v.pwr.vsel = w.pwr.level.code.setWidth 3 ∧ v.pwr.next = none ∧
    v.pwr.bias = w.pwr.level.bias ∧ v.ctr cVfail = w.ctr cVfail + 1

theorem Wing.raiseFailed_kept (w : Wing) : w.KeptLevel w.raiseFailed :=
  ⟨rfl, rfl, rfl, rfl, rfl, Wing.ctr_count_self { w with pwr := _ } cVfail⟩

theorem Wing.KeptLevel.of_eq {w v u : Wing} (h : w.KeptLevel v) (hpwr : u.pwr = v.pwr) (hctr : u.ctr cVfail = v.ctr cVfail) :
    w.KeptLevel u := by
  unfold Wing.KeptLevel at h ⊢
  rwa [hpwr, hctr]

theorem Wing.KeptLevel.rebudget {w v : Wing} (h : w.KeptLevel v) : w.KeptLevel v.rebudget := h

theorem Wing.levelChange_failed {w : Wing} {l : Level} (hrun : w.running = true) (hnext : w.pwr.next = some (l, w.now))
    (h : l.code.toNat < w.pwr.level.code.toNat) :
    w.KeptLevel (w.levelChange false) ∧
      (w.ctl.role = .active → (w.levelChange false).out = w.out ∧ (w.levelChange false).psg.defr = w.psg.defr ++
        [.level { level := w.pwr.level.code, tick := w.now + 2 }]) ∧
      (w.ctl.role = .standby → (w.levelChange false).ctl.role = .joining) := by
  rw [Wing.levelChange_switch hrun hnext, Wing.switchLevel_failed h]
  by_cases hact : w.ctl.role = .active
  · rw [if_pos hact]
    exact ⟨w.raiseFailed_kept, fun _ => ⟨rfl, rfl⟩, fun hstb => by rw [hact] at hstb; cases hstb⟩
  · rw [if_neg hact]
    by_cases hstb : w.ctl.role = .standby
    · rw [if_pos hstb]
      obtain ⟨hrole, hpwr, hctr⟩ := w.raiseFailed.withdrawNow_spec
      exact ⟨(w.raiseFailed_kept.of_eq hpwr (hctr cVfail (by decide) (by decide))).rebudget, fun h => absurd h hact, fun _ => hrole⟩
    · rw [if_neg hstb]
      exact ⟨w.raiseFailed_kept, fun h => absurd h hact, fun h => absurd h hstb⟩

theorem stepsWing_levelChoice (s : State) (w : WingId) : StepsWing (.levelChoice w) s w Wing.levelChoice := stepsWing rfl

theorem stepsWing_studyVote (s : State) (w : WingId) : StepsWing (.studyVote w) s w fun v =>
    if v.isActive then { v with pwr := { v.pwr with studyNap := v.studyVote } } else v := stepsWing rfl

theorem stepsWing_levelChange (s : State) (w : WingId) (vok : Bool) :
    StepsWing (.levelChange w vok) s w fun v => v.levelChange vok := stepsWing rfl

end Sys2Proof.Machine

namespace Sys2Proof

open Machine

/-- Settles O51: the choice is `Wing.chosenLevel`, the vote `Wing.studyVote`, and the change is taken or fails by PWR_VOK. -/
theorem levelsAreChosenAndChange : Obligations.LevelsAreChosenAndChange := by
  unfold Obligations.LevelsAreChosenAndChange
  refine ⟨fun s w => ⟨fun h => ?_, fun h => ?_, fun hact hmul => ⟨fun h => ?_, fun l hout hfresh hmust => ?_⟩, fun hact => ?_⟩,
    fun s w vok => ⟨fun l hrun hnext => ⟨fun h => ?_, fun hup hvok => ?_⟩, fun l hrun hnext => ?_, fun h => ?_⟩⟩
  · exact (stepsWing_levelChoice s w).stands (Wing.levelChoice_stands (w := (s.wing w).silent) h)
  · exact (stepsWing_studyVote s w).stands (if_neg (Bool.eq_false_iff.1 h))
  · obtain ⟨t, ht, honly, hwing, hout⟩ := (stepsWing_levelChoice s w).leaves
      ((Wing.levelChoice_of_due (w := (s.wing w).silent) hact hmul).1 h)
    exact ⟨t, ht, honly, hout, hwing⟩
  · obtain ⟨t, ht, honly, hwing, hdrives⟩ := (stepsWing_levelChoice s w).leaves
      ((Wing.levelChoice_of_due (w := (s.wing w).silent) hact hmul).2 l hout hfresh hmust)
    refine ⟨t, ht, honly, hdrives, ?_⟩
    rw [hwing]
    exact ⟨rfl, rfl, rfl⟩
  · obtain ⟨t, ht, honly, hwing, hout⟩ := (stepsWing_studyVote s w).leaves (if_pos hact)
    refine ⟨t, ht, honly, hout, ?_⟩
    rw [hwing]
    refine ⟨rfl, (s.wing w).studyVote_eq_zero_iff, (s.wing w).studyVote_eq_two_iff.trans ?_⟩
    unfold Wing.TooSoon
    rw [not_or, not_or, Nat.not_lt, and_assoc, and_assoc]
  · obtain ⟨t, ht, honly, hwing, hout⟩ := stepsWing_levelChange s w vok
    have htaken := Wing.levelChange_taken (w := (s.wing w).silent) hrun hnext h
    refine ⟨t, ht, honly, ?_⟩
    rw [hwing, hout]
    exact htaken
  · obtain ⟨t, ht, honly, hwing, hout⟩ := stepsWing_levelChange s w vok
    subst hvok
    obtain ⟨⟨hlevel, hfail, hvsel, hnone, hbias, hctr⟩, hact, hstb⟩ :=
      Wing.levelChange_failed (w := (s.wing w).silent) hrun hnext hup
    refine ⟨t, ht, honly, ?_⟩
    rw [hwing, hout]
    exact ⟨hlevel, hfail, hvsel, hnone, hbias, hctr, hact, hstb⟩
  · obtain ⟨t, ht, honly, hwing, hout⟩ := (stepsWing_levelChange s w vok).leaves
      (Wing.levelChange_check (w := (s.wing w).silent) hrun hnext)
    exact ⟨t, ht, honly, hout, hwing⟩
  · exact (stepsWing_levelChange s w vok).stands (Wing.levelChange_stands (w := (s.wing w).silent) h)

end Sys2Proof
end

section
/-! Frames of the stage that a wing is at: its life, its role, duplex, its tick, the value that is due for its counter, and the trips of
the retention monitors. What a wing does in its port, its drains, its scrub and its arrivals keeps it (`_stage`); what its port does keeps
all but that value (`_sameRun`). -/

namespace Sys2Proof.Machine

/-- Neither the life of a wing, nor its role, duplex, its tick counter, a value that is due for it, nor what the retention monitors
showed differs. -/
@[simp] abbrev Wing.SameStage (v w : Wing) : Prop :=
  v.life = w.life ∧ v.ctl.role = w.ctl.role ∧ v.ctl.duplex = w.ctl.duplex ∧ v.ctl.tick = w.ctl.tick ∧
    v.ctl.hasTick = w.ctl.hasTick ∧ v.pwr.tripped = w.pwr.tripped ∧ v.ctl.tickDue = w.ctl.tickDue

theorem Wing.SameStage.trans {u v w : Wing} (huv : u.SameStage v) (hvw : v.SameStage w) : u.SameStage w := by
  obtain ⟨a1, a2, a3, a4, a5, a6, a7⟩ := huv
  obtain ⟨b1, b2, b3, b4, b5, b6, b7⟩ := hvw
  exact ⟨a1.trans b1, a2.trans b2, a3.trans b3, a4.trans b4, a5.trans b5, a6.trans b6, a7.trans b7⟩

/-- The work on arrivals keeps the stage. -/
theorem Wing.SameAround.stage {v w : Wing} (h : v.SameAround w) : v.SameStage w := by
  obtain ⟨hlife, hctl, -, hpwr, -⟩ := h
  exact ⟨hlife, by rw [hctl], by rw [hctl], by rw [hctl], by rw [hctl], by rw [hpwr], by rw [hctl]⟩

@[simp] theorem Wing.noteBankWake_stage (w : Wing) (p : Nat) (source : Word) : (w.noteBankWake p source).SameStage w :=
  ⟨rfl, rfl, rfl, rfl, rfl, rfl, rfl⟩

/-! ## Branches and rounds -/

@[simp] theorem Wing.life_ite (c : Prop) [Decidable c] (v w : Wing) :
    (if c then v else w).life = if c then v.life else w.life := apply_ite (·.life) c v w

@[simp] theorem Wing.role_ite (c : Prop) [Decidable c] (v w : Wing) :
    (if c then v else w).ctl.role = if c then v.ctl.role else w.ctl.role := apply_ite (·.ctl.role) c v w

@[simp] theorem Wing.duplex_ite (c : Prop) [Decidable c] (v w : Wing) :
    (if c then v else w).ctl.duplex = if c then v.ctl.duplex else w.ctl.duplex := apply_ite (·.ctl.duplex) c v w

@[simp] theorem Wing.tick_ite (c : Prop) [Decidable c] (v w : Wing) :
    (if c then v else w).ctl.tick = if c then v.ctl.tick else w.ctl.tick := apply_ite (·.ctl.tick) c v w

@[simp] theorem Wing.hasTick_ite (c : Prop) [Decidable c] (v w : Wing) :
    (if c then v else w).ctl.hasTick = if c then v.ctl.hasTick else w.ctl.hasTick := apply_ite (·.ctl.hasTick) c v w

@[simp] theorem Wing.tickDue_ite (c : Prop) [Decidable c] (v w : Wing) :
    (if c then v else w).ctl.tickDue = if c then v.ctl.tickDue else w.ctl.tickDue := apply_ite (·.ctl.tickDue) c v w

@[simp] theorem Wing.tripped_ite (c : Prop) [Decidable c] (v w : Wing) :
    (if c then v else w).pwr.tripped = if c then v.pwr.tripped else w.pwr.tripped := apply_ite (·.pwr.tripped) c v w

/-- A round keeps the stage when each of its steps does. -/
@[simp] theorem Wing.sameStage_foldl {α : Type} (f : Wing → α → Wing) (l : List α) (w : Wing)
    (h : ∀ v a, (f v a).SameStage v) : (l.foldl f w).SameStage w := by
  induction l generalizing w with
  | nil => exact ⟨rfl, rfl, rfl, rfl, rfl, rfl, rfl⟩
  | cons a l ih => exact (ih (f w a)).trans (h w a)

/-- As `sameStage_foldl`, for a round that gathers a result beside the wing. -/
@[simp] theorem Wing.sameStage_fst_foldl {α β : Type} (f : Wing × β → α → Wing × β) (l : List α) (a : Wing × β)
    (h : ∀ b x, (f b x).1.SameStage b.1) : (l.foldl f a).1.SameStage a.1 := by
  induction l generalizing a with
  | nil => exact ⟨rfl, rfl, rfl, rfl, rfl, rfl, rfl⟩
  | cons x l ih => exact (ih (f a x)).trans (h a x)

section

variable (w : Wing)

@[simp] theorem Wing.addFetch_stage (key : Word) (c : FetchCause) : (w.addFetch key c).SameStage w := (w.addFetch_around key c).stage

@[simp] theorem Wing.when_stage (c : Bool) (f : Wing → Wing) (h : ∀ v, (f v).SameStage v) : (w.when c f).SameStage w := by
  simp [Wing.when, h]

@[simp] theorem Wing.withdraw_stage : w.withdraw.SameStage w := by simp [Wing.withdraw]

@[simp] theorem Wing.readRings_stage : w.readRings.SameStage w :=
  ⟨Wing.readRings_keeps_of (·.life) (fun _ _ _ _ => rfl) w, Wing.readRings_keeps_of (·.ctl.role) (fun _ _ _ _ => rfl) w,
    Wing.readRings_keeps_of (·.ctl.duplex) (fun _ _ _ _ => rfl) w, Wing.readRings_keeps_of (·.ctl.tick) (fun _ _ _ _ => rfl) w,
    Wing.readRings_keeps_of (·.ctl.hasTick) (fun _ _ _ _ => rfl) w, Wing.readRings_keeps_of (·.pwr.tripped) (fun _ _ _ _ => rfl) w,
    Wing.readRings_keeps_of (·.ctl.tickDue) (fun _ _ _ _ => rfl) w⟩

@[simp] theorem Wing.applyDoorbell_stage (s : BitVec 12) (kind : BitVec 2) (pos : BitVec 24) :
    (w.applyDoorbell s kind pos).SameStage w := by
  unfold Wing.applyDoorbell
  dsimp only
  (repeat' split) <;> simp

@[simp] theorem Wing.sendOut_stage (s : BitVec 12) (n : Nat) : (w.sendOut s n).SameStage w := by
  induction n generalizing w with
  | zero => exact ⟨rfl, rfl, rfl, rfl, rfl, rfl, rfl⟩
  | succ n ih =>
    unfold Wing.sendOut
    split
    · exact ⟨rfl, rfl, rfl, rfl, rfl, rfl, rfl⟩
    · split <;> simp [ih]

@[simp] theorem Wing.sendIn_stage (s : BitVec 12) (n : Nat) : (w.sendIn s n).SameStage w := by
  induction n generalizing w with
  | zero => exact ⟨rfl, rfl, rfl, rfl, rfl, rfl, rfl⟩
  | succ n ih =>
    unfold Wing.sendIn
    dsimp only
    split
    · exact ⟨rfl, rfl, rfl, rfl, rfl, rfl, rfl⟩
    · split <;> simp [ih]

@[simp] theorem Wing.sendLetters_stage : w.sendLetters.SameStage w := by simp [Wing.sendLetters]

@[simp] theorem Wing.takeLetter_stage (s : BitVec 12) (v : Word) : (w.takeLetter s v).SameStage w := by simp [Wing.takeLetter]

@[simp] theorem Wing.admitNew_stage (o : Obs) : (w.admitNew o).SameStage w := (w.admitNew_around o).stage

@[simp] theorem Wing.stage_stage (o : Obs) : (w.stage o).SameStage w := (w.stage_around o).stage

@[simp] theorem Wing.fetchFor_stage (o : Obs) (cause : FetchCause) : (w.fetchFor o cause).SameStage w :=
  (w.fetchFor_around o cause).stage

@[simp] theorem Wing.registerAt_stage (t : Tick) (o : Obs) : (w.registerAt t o).SameStage w := by simp [Wing.registerAt]

@[simp] theorem Wing.register_stage (o : Obs) : (w.register o).SameStage w := by simp [Wing.register]

@[simp] theorem Wing.askHalf_stage (s : BitVec 12) (j : Job) (half : Bool) : (w.askHalf s j half).SameStage w := ⟨rfl, rfl, rfl, rfl, rfl, rfl, rfl⟩

@[simp] theorem Wing.issueHalf_stage (s : BitVec 12) (j : Job) (half : Bool) : (Wing.issueHalf s j w half).SameStage w := by
  simp [Wing.issueHalf]

@[simp] theorem Wing.issueBlocks_stage : w.issueBlocks.SameStage w := by
  refine Wing.sameStage_foldl _ _ _ fun v e => ?_
  split <;> simp

@[simp] theorem Wing.useReads_stage : w.useReads.SameStage w := by simp [Wing.useReads]

@[simp] theorem Wing.askBlock_stage (s : BitVec 12) : (w.askBlock s).SameStage w := by simp [Wing.askBlock]

@[simp] theorem Wing.admitStaged_stage : w.admitStaged.SameStage w := w.admitStaged_around.stage

@[simp] theorem Wing.setWord_stage (k : Nat) (v : Word) : (w.setWord k v).SameStage w := by
  unfold Wing.setWord
  (repeat' split) <;> simp

@[simp] theorem Wing.doNative_stage (a : AptWrite) : (w.doNative a).SameStage w := by
  unfold Wing.doNative
  split <;> simp

@[simp] theorem Wing.doMsi_stage (a : AptWrite) : (w.doMsi a).SameStage w := by
  unfold Wing.doMsi
  split <;> simp

@[simp] theorem Wing.doCmdDoorbell_stage (a : AptWrite) : (w.doCmdDoorbell a).SameStage w := by
  unfold Wing.doCmdDoorbell
  split <;> simp

@[simp] theorem Wing.doLetter_stage (a : AptWrite) : (w.doLetter a).SameStage w := by
  unfold Wing.doLetter
  split <;> simp

@[simp] theorem Wing.handleWrite_stage (a : AptWrite) : (w.handleWrite a).SameStage w := by
  unfold Wing.handleWrite
  split <;> simp

@[simp] theorem Wing.settleReports_stage : w.settleReports.SameStage w := by simp [Wing.settleReports]

@[simp] theorem Wing.drain_stage (n : Nat) : (Wing.drain n w).SameStage w := by
  induction n generalizing w with
  | zero => exact ⟨rfl, rfl, rfl, rfl, rfl, rfl, rfl⟩
  | succ n ih =>
    unfold Wing.drain
    split
    · exact ⟨rfl, rfl, rfl, rfl, rfl, rfl, rfl⟩
    · split <;> simp [ih]

@[simp] theorem Wing.drainAll_stage : w.drainAll.SameStage w := by simp [Wing.drainAll]

@[simp] theorem Wing.loadRegion_stage (a : Nat) (d : DWord) : (w.loadRegion a d).SameStage w := by simp [Wing.loadRegion]

@[simp] theorem Wing.loadSpace2_stage (p : Nat) (d : DWord) (f : Tick) : (w.loadSpace2 p d f).SameStage w := by
  simp [Wing.loadSpace2]

@[simp] theorem Wing.giveWay_stage (cfgWord : Bool) : (w.giveWay cfgWord).SameStage w := by simp [Wing.giveWay]

@[simp] theorem Wing.writeAnchor_stage : w.writeAnchor.SameStage w := by simp [Wing.writeAnchor]

@[simp] theorem Wing.registerAlarms_stage : w.registerAlarms.SameStage w := by simp [Wing.registerAlarms]

@[simp] theorem Wing.setCalendar_stage (val : BitVec 63) : (w.setCalendar val).SameStage w := by simp [Wing.setCalendar]

@[simp] theorem Wing.askPair_stage : w.askPair.SameStage w := by simp [Wing.askPair]

@[simp] theorem Wing.clearPair_stage : w.clearPair.SameStage w := ⟨rfl, rfl, rfl, rfl, rfl, rfl, rfl⟩

@[simp] theorem Wing.wearBank_stage (p : Nat) : (w.wearBank p).SameStage w := by simp [Wing.wearBank]

@[simp] theorem Wing.wearSlice_stage (p : Nat) : (w.wearSlice p).SameStage w := by simp [Wing.wearSlice]

@[simp] theorem Wing.failedNoSpare_stage (u : Nat) : (w.failedNoSpare u).SameStage w := by simp [Wing.failedNoSpare]

@[simp] theorem Wing.settleSpares_stage : w.settleSpares.SameStage w := by simp [Wing.settleSpares]

@[simp] theorem Wing.fenceAndReload_stage (n : Nat) (s : Slot) (recheck pinned : Bool) :
    (w.fenceAndReload n s recheck pinned).SameStage w := by
  simp [Wing.fenceAndReload]

@[simp] theorem Wing.contextLost_stage (n : Nat) : (w.contextLost n).SameStage w := by
  unfold Wing.contextLost
  split <;> simp

@[simp] theorem Wing.directoryLost_stage (n : Nat) : (w.directoryLost n).SameStage w := by
  unfold Wing.directoryLost
  (repeat' split) <;> simp

@[simp] theorem Wing.obsLost_stage (o : Obs) : (w.obsLost o).SameStage w := by simp [Wing.obsLost]

@[simp] theorem Wing.writeLost_stage (j : Nat) (a : AptWrite) : (w.writeLost j a).SameStage w := by simp [Wing.writeLost]

@[simp] theorem Wing.arrivalLost_stage (i : Nat) : (w.arrivalLost i).SameStage w := by
  unfold Wing.arrivalLost
  dsimp only
  (repeat' split) <;> simp

@[simp] theorem Wing.filterLost_stage (i : Nat) : (w.filterLost i).SameStage w := by
  unfold Wing.filterLost
  (repeat' split) <;> simp

@[simp] theorem Wing.configLost_stage (a : Nat) : (w.configLost a).SameStage w := by simp [Wing.configLost]

@[simp] theorem Wing.writeAgain_stage (i : Nat) : (w.writeAgain i).SameStage w := by
  unfold Wing.writeAgain
  split <;> simp

@[simp] theorem Wing.unreadable_stage (f : EccFind) : (w.unreadable f).SameStage w := by
  unfold Wing.unreadable
  split <;> simp

@[simp] theorem Wing.eccRead_stage (f : EccFind) : (w.eccRead f).SameStage w := by
  unfold Wing.eccRead
  (repeat' split) <;> simp

@[simp] theorem Wing.moveBank_stage (a s : Nat) : (w.moveBank a s).SameStage w := by
  unfold Wing.moveBank
  split <;> simp

@[simp] theorem Wing.moveSlice_stage (a s : Nat) : (w.moveSlice a s).SameStage w := by
  unfold Wing.moveSlice
  split <;> simp

@[simp] theorem Wing.endMove_stage (m : UnitMove) : (w.endMove m).SameStage w := by simp [Wing.endMove]

@[simp] theorem Wing.finishMove_stage : w.finishMove.SameStage w := by
  unfold Wing.finishMove
  split <;> simp

@[simp] theorem Wing.portError_stage (reason : BitVec 4) (req : Byte) (path : BitVec 2) (strb : Byte) (addr : BitVec 24) :
    (w.portError reason req path strb addr).SameStage w := ⟨rfl, rfl, rfl, rfl, rfl, rfl, rfl⟩

@[simp] theorem Wing.clearWindow_stage (o : Nat) (m : Word) : (w.clearWindow o m).SameStage w := by simp [Wing.clearWindow]

@[simp] theorem Wing.clearHearth_stage (m : Word) : (w.clearHearth m).SameStage w := by simp [Wing.clearHearth]

@[simp] theorem Wing.clearRead_stage (k : Nat) (m : Word) : (w.clearRead k m).SameStage w := by simp [Wing.clearRead]

@[simp] theorem Wing.doRead_stage (a : RegAccess) : (w.doRead a).SameStage w := by
  unfold Wing.doRead
  split <;> simp

@[simp] theorem Wing.loadPchCfg_stage : w.loadPchCfg.SameStage w := by simp [Wing.loadPchCfg]

/-! ## The port

A START makes a value due for the counter; it keeps the rest of the stage of a wing in Run. -/

/-- Nothing of the stage differs but the value that is due for the tick counter. -/
@[simp] abbrev Wing.SameRun (v w : Wing) : Prop :=
  v.life = w.life ∧ v.ctl.role = w.ctl.role ∧ v.ctl.duplex = w.ctl.duplex ∧ v.ctl.tick = w.ctl.tick ∧
    v.ctl.hasTick = w.ctl.hasTick ∧ v.pwr.tripped = w.pwr.tripped

theorem Wing.SameStage.sameRun {v w : Wing} (h : v.SameStage w) : v.SameRun w := by
  obtain ⟨a1, a2, a3, a4, a5, a6, -⟩ := h
  exact ⟨a1, a2, a3, a4, a5, a6⟩

theorem Wing.SameRun.trans {u v w : Wing} (huv : u.SameRun v) (hvw : v.SameRun w) : u.SameRun w := by
  obtain ⟨a1, a2, a3, a4, a5, a6⟩ := huv
  obtain ⟨b1, b2, b3, b4, b5, b6⟩ := hvw
  exact ⟨a1.trans b1, a2.trans b2, a3.trans b3, a4.trans b4, a5.trans b5, a6.trans b6⟩

theorem Wing.start_sameRun {w : Wing} (h : w.life = .run) (save : Option SaveArea) : (w.start save).SameRun w := by simp [Wing.start, h]

@[simp] theorem Wing.sampleGroup_stage (g : Nat) : (w.sampleGroup g).SameStage w := by simp [Wing.sampleGroup]

@[simp] theorem Wing.sampleCores_stage : w.sampleCores.SameStage w := by simp [Wing.sampleCores]

@[simp] theorem Wing.snapshot_stage : w.snapshot.SameStage w := by simp [Wing.snapshot]

@[simp] theorem Wing.snapCtrl_stage (x : Word) : (w.snapCtrl x).SameStage w := by simp [Wing.snapCtrl]

theorem Wing.writeLocal_sameRun {w : Wing} (h : w.life = .run) (save : Option SaveArea) (x : Nat × Word × Word) :
    (w.writeLocal save x).SameRun w := by
  unfold Wing.writeLocal
  dsimp only
  (repeat' split) <;> simp [Wing.start_sameRun h]

@[simp] theorem Wing.applyHalf_stage (h : Nat × Word × Word) : (w.applyHalf h).SameStage w := by simp [Wing.applyHalf]

@[simp] theorem Wing.dualWrite_stage (k : Nat) (v : Word) (req : Byte) : (w.dualWrite k v req).1.SameStage w := by
  unfold Wing.dualWrite
  split <;> simp

@[simp] theorem Wing.storeHalves_stage (req : Byte) (hs : List (Nat × Word × Word)) : (w.storeHalves req hs).1.SameStage w := by
  simp [Wing.storeHalves]

@[simp] theorem Wing.writeMirrored_stage (req : Byte) (hs : List (Nat × Word × Word)) :
    (w.writeMirrored req hs).1.SameStage w := by
  unfold Wing.writeMirrored
  split <;> simp

/-- As `sameStage_foldl`, for a round of a wing in Run whose steps keep what a START keeps. -/
theorem Wing.sameRun_foldl {α : Type} (f : Wing → α → Wing) (l : List α) {w : Wing} (hw : w.life = .run)
    (h : ∀ v a, v.life = .run → (f v a).SameRun v) : (l.foldl f w).SameRun w := by
  induction l generalizing w with
  | nil => exact ⟨rfl, rfl, rfl, rfl, rfl, rfl⟩
  | cons a l ih =>
    have ha := h w a hw
    exact (ih (ha.1.trans hw)).trans ha

theorem Wing.doWrite_sameRun {w : Wing} (h : w.life = .run) (a : RegAccess) : (w.doWrite a).SameRun w := by
  unfold Wing.doWrite
  split
  · simp
  · extract_lets hs regs0 w0 mir w1 b
    have h0 : w0.SameRun w := by simp [w0]
    have h1 : w1.SameRun w := (Wing.sameRun_foldl _ _ (h0.1.trans h) fun v x hv => v.writeLocal_sameRun hv a.save x).trans h0
    have hb : b.1.SameRun w := (w1.writeMirrored_stage a.req mir).sameRun.trans h1
    clear_value w0 w1 b
    split
    · simp [h0]
    · split
      · simp [h1]
      · split
        · simp [h1]
        · split
          · simp [hb]
          · simp [hb]
          · exact hb

theorem Wing.portDo_sameRun {w : Wing} (h : w.life = .run) (write : Bool) (a : RegAccess) : (w.portDo write a).SameRun w := by
  cases write
  · exact (w.doRead_stage a).sameRun
  · exact Wing.doWrite_sameRun h a

theorem drainPortIn_sameRun (xs : List (Bool × RegAccess)) {w : Wing} (h : w.life = .run) : (drainPortIn xs w).SameRun w := by
  induction xs generalizing w with
  | nil => exact ⟨rfl, rfl, rfl, rfl, rfl, rfl⟩
  | cons x xs ih =>
    have hx := Wing.portDo_sameRun h x.1 x.2
    unfold drainPortIn
    split
    · exact ⟨rfl, rfl, rfl, rfl, rfl, rfl⟩
    · exact (ih (hx.1.trans h)).trans hx

theorem Wing.drainPort_sameRun {w : Wing} (h : w.life = .run) : w.drainPort.SameRun w :=
  drainPortIn_sameRun w.regs.portQueue (w := { w with regs := { w.regs with portQueue := [] } }) h

@[simp] theorem issueMods_stage (n : Nat) (ds : List (Word × BitVec 7)) : (issueMods n ds w).1.SameStage w := by
  induction ds generalizing n w with
  | nil => cases n <;> exact ⟨rfl, rfl, rfl, rfl, rfl, rfl, rfl⟩
  | cons d ds ih =>
    cases n with
    | zero => exact ⟨rfl, rfl, rfl, rfl, rfl, rfl, rfl⟩
    | succ n => simp [issueMods, ih]

@[simp] theorem Wing.sendMods_stage : w.sendMods.SameStage w := by simp [Wing.sendMods]

@[simp] theorem Wing.modTake_stage : w.modTake.SameStage w := by simp [Wing.modTake]

@[simp] theorem issueTargetsIn_stage (rs : List TargetRec) : (issueTargetsIn rs w).1.SameStage w := by
  induction rs generalizing w with
  | nil => exact ⟨rfl, rfl, rfl, rfl, rfl, rfl, rfl⟩
  | cons r rs ih => simp [issueTargetsIn, ih]

@[simp] theorem Wing.sendTargets_stage : w.sendTargets.SameStage w := by simp [Wing.sendTargets]

@[simp] theorem Wing.reevalTake_stage : w.reevalTake.SameStage w := by simp [Wing.reevalTake]

@[simp] theorem Wing.rebuildBank_stage (b : Nat) : (w.rebuildBank b).SameStage w := by simp [Wing.rebuildBank]

@[simp] theorem Wing.loseBank_stage (p : Nat) : (w.loseBank p).SameStage w := by
  unfold Wing.loseBank
  dsimp only
  (repeat' split) <;> simp

@[simp] theorem Wing.scrubBanks_stage (bad : List (BitVec 7)) (ecc : List EccFind) : (w.scrubBanks bad ecc).SameStage w := by
  simp [Wing.scrubBanks]

@[simp] theorem Wing.catchUp_stage : w.catchUp.SameStage w := by simp [Wing.catchUp]

@[simp] theorem Wing.registerLatched_stage : w.registerLatched.SameStage w := by simp [Wing.registerLatched]

@[simp] theorem Wing.loadPlace_stage (i : Nat) (d : DWord) : (w.loadPlace i d).SameStage w := by
  unfold Wing.loadPlace
  split <;> simp

@[simp] theorem Wing.loadImage_stage (ws : SMap DWord) : (w.loadImage ws).SameStage w := by simp [Wing.loadImage]

@[simp] theorem Wing.reloadPinned_stage : w.reloadPinned.SameStage w := by simp [Wing.reloadPinned]

@[simp] theorem Wing.claimPowered_stage : w.claimPowered.SameStage w := by simp [Wing.claimPowered]

end

end Sys2Proof.Machine
end

section
/-! What the entry to Nap, its refusal, a wake and the exit leave (R299, R302 to R304, R310). -/

namespace Sys2Proof.Machine

/-! ## The entry -/

theorem Wing.not_standby_of_active {w : Wing} (h : w.ctl.role = .active) : w.isStandby = false := by
  simp [Wing.isStandby, h]

theorem Wing.clearPair_keeps (w : Wing) :
    w.clearPair.life = w.life ∧ w.clearPair.ctl = w.ctl ∧ w.clearPair.vst = w.vst ∧ w.clearPair.pan = w.pan ∧
      w.clearPair.psg = w.psg ∧ w.clearPair.out = w.out ∧ w.clearPair.id = w.id ∧ w.clearPair.regs.ctr = w.regs.ctr ∧
      w.clearPair.pwr = { w.pwr with sched := none } := ⟨rfl, rfl, rfl, rfl, rfl, rfl, rfl, rfl, rfl⟩

/-- PENDING of PWR_PAIR is clear. -/
theorem Wing.pairPending_clearPair (w : Wing) : w.clearPair.pairPending = false := by
  have heff : w.clearPair.effW (oPwrPair + 4) = w.effW (oPwrPair + 4) &&& 0x7FFFFFFF := by
    refine (Wing.effW_setEff (w.setCfg (oPwrPair + 4) (w.cfgW (oPwrPair + 4) &&& 0x7FFFFFFF)) _ _ _).trans ?_
    exact if_pos rfl
  unfold Wing.pairPending
  rw [heff, BitVec.getLsbD_and]
  exact Bool.and_false _

/-- What the write-backs of an entry leave as it is. -/
def Wing.asEntered (w : Wing) : Life × Power × Vest × SMap Word := (w.life, w.pwr, w.vst, w.regs.eff)

theorem Wing.asEntered_clean (n : Nat) (w : Wing) : (Wing.clean n w).asEntered = w.asEntered := by
  induction n generalizing w with
  | zero => rfl
  | succ n ih =>
    unfold Wing.clean
    split
    · rfl
    · split
      · rfl
      · next c _ =>
        rw [ih]
        have hmod : (w.modCtx c.key fun c => { c with wbFresh := true }).asEntered = w.asEntered := by
          simp [Wing.asEntered]
        exact hmod

/-- An entry to Nap that the active wing begins. -/
theorem Wing.beginEntry_nap_spec {w : Wing} (hact : w.ctl.role = .active) :
    (w.beginEntry false).life = .napEntry ∧ (w.beginEntry false).pwr.enterTick = w.now ∧
      (w.beginEntry false).vst.arrLeft = 0 ∧ (w.beginEntry false).vst.clmLeft = 0 ∧ (w.beginEntry false).vst.cmpLeft = 0 ∧
      (w.beginEntry false).pairPending = false ∧ (w.beginEntry false).pwr.sched = none := by
  unfold Wing.beginEntry
  extract_lets k ticks w1 pwr1 vst1 hall1 int1 w2
  have hrole : w2.ctl.role = .active := hact
  rw [if_pos hrole]
  obtain ⟨hlife, hpwr, hvst, heff⟩ := (by simpa [Wing.asEntered] using Wing.asEntered_clean 64 w2 :
    (Wing.clean 64 w2).life = w2.life ∧ (Wing.clean 64 w2).pwr = w2.pwr ∧ (Wing.clean 64 w2).vst = w2.vst ∧
      (Wing.clean 64 w2).regs.eff = w2.regs.eff)
  have hgen : ∀ v : Wing, v.pairPending = (SMap.get v.regs.eff 0 (oPwrPair + 4)).getLsbD 31 := fun _ => rfl
  refine ⟨hlife, ?_, ?_, ?_, ?_, ?_, ?_⟩
  · rw [hpwr]
  · rw [hvst]
  · rw [hvst]
  · rw [hvst]
  · rw [hgen, heff, ← hgen]
    exact w.pairPending_clearPair
  · rw [hpwr]
    rfl

theorem Wing.enterNap_of_due {w : Wing} (hrun : w.running = true) (hdue : w.changeDue 1 = true) :
    w.enterNap = match w.entryRefusal false with
      | some r => w.refuseEntry false r
      | none => w.beginEntry false := if_pos (by rw [hrun, hdue]; rfl)

/-- The first of R303's conditions: no quiet tick lies behind the active wing. -/
theorem Wing.entryRefusal_quiet {w : Wing} (hact : w.ctl.role = .active) (hquiet : w.pwr.quiet = 0) (deep : Bool) :
    w.entryRefusal deep = some (rfWing w.id, rsQuiet) := if_pos (by simp [hact, hquiet])

/-- A refusal by a wing in simplex. -/
def Wing.refusesNap (w : Wing) (r : BitVec 2 × BitVec 3) : Wing :=
  { w.clearPair.noteRefusal r.1 1 r.2 w.now with
    pwr := { (w.clearPair.noteRefusal r.1 1 r.2 w.now).pwr with pendWake := none } }

theorem Wing.refuseEntry_simplex {w : Wing} (hdup : w.ctl.duplex = false) (r : BitVec 2 × BitVec 3) :
    w.refuseEntry false r = w.refusesNap r := by
  refine if_neg fun h => ?_
  have h' : (w.ctl.role == .active && w.ctl.duplex) = true := h
  rw [hdup, Bool.and_false] at h'
  cases h'

/-- A refusal leaves its entry in the log, and is counted. -/
theorem Wing.refusesNap_spec (w : Wing) (r : BitVec 2 × BitVec 3) :
    (w.refusesNap r).life = w.life ∧ (w.refusesNap r).vst = w.vst ∧ (w.refusesNap r).pan = w.pan ∧ (w.refusesNap r).psg = w.psg ∧
      (w.refusesNap r).out = w.out ∧
      (w.refusesNap r).pwr.refuseLog = logFirst w.pwr.refuseLog (Machine.refuseEntry r.1 1 r.2 w.now) := by
  obtain ⟨hlife, -, hvst, hpan, hpsg, hout, -, -, hpwr⟩ := w.clearPair_keeps
  unfold Wing.refusesNap
  generalize w.clearPair = v at hlife hvst hpan hpsg hout hpwr ⊢
  simp [Wing.noteRefusal, hlife, hvst, hpan, hpsg, hout, hpwr]

/-- Each wing counts its refusals in a counter of its own. -/
theorem Wing.refusesNap_own (w : Wing) (reason : BitVec 3) :
    (w.refusesNap (rfWing .east, reason)).ctr cRefuseEast = w.ctr cRefuseEast + 1 ∧
      (w.refusesNap (rfWing .west, reason)).ctr cRefuseWest = w.ctr cRefuseWest + 1 :=
  ⟨Wing.ctr_count_self { w.clearPair with pwr := _ } cRefuseEast, Wing.ctr_count_self { w.clearPair with pwr := _ } cRefuseWest⟩

/-- An entry to Nap of a wing that is no standby concerns no other wing. -/
theorem stepsWing_napEntry {s : State} {w : WingId} (h : (s.wing w).isStandby = false ∨ (s.wing w).changeDue 1 = false) :
    StepsWing (.napEntry w) s w Wing.enterNap := by
  refine stepsWing (congrArg Host.Outcome.next (if_neg fun hback => ?_))
  simp only [Bool.and_eq_true] at hback
  exact h.elim (fun h => absurd hback.1.1 (Bool.eq_false_iff.1 h)) fun h => absurd hback.1.2 (Bool.eq_false_iff.1 h)

theorem Wing.enterNap_stands {w : Wing} (h : w.running = false ∨ w.changeDue 1 = false) : w.enterNap = w := by
  refine if_neg fun hcond => ?_
  simp only [Bool.and_eq_true] at hcond
  exact h.elim (fun h => absurd hcond.1 (Bool.eq_false_iff.1 h)) fun h => absurd hcond.2 (Bool.eq_false_iff.1 h)

/-! ## Wakes -/

theorem stepsWing_napWake (s : State) (w : WingId) (c : WakeCause) : StepsWing (.napWake w c) s w fun v => v.wake c := stepsWing rfl

theorem Wing.wake_stands {w : Wing} (c : WakeCause) (h : w.pwr.sched ≠ none ∨ w.running = true) : w.wake c = w := by
  rcases h with h | h
  · exact if_pos (Option.isSome_iff_ne_none.2 h)
  · exact Wing.wake_of_running h c

theorem Wing.scheduleExit_spec (w : Wing) (c : WakeCause) :
    (w.scheduleExit c false).life = w.life ∧ (w.scheduleExit c false).out = w.out ∧
      (w.scheduleExit c false).pwr = { w.pwr with
        sched := some (0, w.now + 12), wake := wakeWord false false c, wakeTick := w.now.setWidth 64, pendWake := none } := by
  unfold Wing.scheduleExit
  extract_lets x pwr1 w1
  split <;> exact ⟨rfl, rfl, rfl⟩

theorem Wing.wake_in_nap {w : Wing} {c : WakeCause} (hsched : w.pwr.sched = none) (hlife : w.life = .nap) :
    (w.ctl.role ≠ .standby → w.wake c = w.scheduleExit c false) ∧
    (w.ctl.role = .standby → c.source ≠ 0x9 → w.wake c = w.keepWake false c) := by
  unfold Wing.wake
  rw [if_neg (by rw [hsched]; exact Bool.false_ne_true)]
  simp only [hlife]
  exact ⟨fun h => if_neg fun hc => h hc.1, fun hrole hsource => if_pos ⟨hrole, hsource⟩⟩

theorem Wing.wake_in_entry {w : Wing} {c : WakeCause} (hsched : w.pwr.sched = none) (hlife : w.life = .napEntry ∨ w.life = .deepEntry) :
    w.wake c = w.keepWake true c := by
  unfold Wing.wake
  rw [if_neg (by rw [hsched]; exact Bool.false_ne_true)]
  rcases hlife with h | h <;> simp only [h]

theorem Wing.keepWake_first {w : Wing} (h : w.pwr.pendWake = none) (during : Bool) (c : WakeCause) :
    w.keepWake during c = { w with pwr := { w.pwr with pendWake := some (during, c) } }.countIf during cWakeDuringEntry :=
  if_pos (by rw [h]; rfl)

/-! ## Retention trips -/

theorem stepsWing_retentionMonitorTrip (s : State) (w : WingId) (b : BitVec 7) :
    StepsWing (.retentionMonitorTrip w b) s w fun v =>
      if v.life == .nap || v.life == .napEntry then
        { v with pwr := { v.pwr with tripped := if v.pwr.tripped.contains b then v.pwr.tripped else v.pwr.tripped ++ [b] } }
      else v := stepsWing rfl

theorem mem_insert_once {α : Type} [BEq α] [LawfulBEq α] (l : List α) (b x : α) :
    x ∈ (if l.contains b then l else l ++ [b]) ↔ x ∈ l ∨ x = b := by
  split
  next h => exact ⟨.inl, fun hx => hx.elim id fun e => e ▸ List.contains_iff_mem.1 h⟩
  next => simp

/-! ## The exit -/

theorem Wing.showEn_stage (w : Wing) (b : BitVec 4) : (w.showEn b).SameStage w := by
  unfold Wing.showEn
  split <;> exact ⟨rfl, rfl, rfl, rfl, rfl, rfl, rfl⟩

theorem Wing.notePairWake_stage (w : Wing) : w.notePairWake.SameStage w := by
  unfold Wing.notePairWake
  split <;> exact ⟨rfl, rfl, rfl, rfl, rfl, rfl, rfl⟩

theorem Wing.openBudgets_stage (w : Wing) : w.openBudgets.SameStage w := ⟨rfl, rfl, rfl, rfl, rfl, rfl, rfl⟩

/-- No trip of a monitor is left. -/
def Wing.untripped (w : Wing) : Wing := { w with pwr := { w.pwr with tripped := [] } }

theorem Wing.untripped_keeps (w : Wing) :
    w.untripped.life = w.life ∧ w.untripped.ctl.tick = w.ctl.tick ∧ w.untripped.pwr.tripped = [] := ⟨rfl, rfl, rfl⟩

/-- A wing that opens its budgets again at X has no trip of a monitor left. -/
theorem Wing.reopened_keeps (w : Wing) :
    w.untripped.openBudgets.catchUp.life = w.life ∧ w.untripped.openBudgets.catchUp.ctl.tick = w.ctl.tick ∧
      w.untripped.openBudgets.catchUp.pwr.tripped = [] := by
  obtain ⟨hlife0, htick0, htrip0⟩ := w.untripped_keeps
  generalize w.untripped = v at *
  obtain ⟨hlife, -, -, htick, -, htrip, -⟩ := (Wing.catchUp_stage _).trans v.openBudgets_stage
  exact ⟨hlife.trans hlife0, htick.trans htick0, htrip.trans htrip0⟩

/-- The wing at X, in Run again. -/
def Wing.runsAgain (w : Wing) : Wing :=
  { w with
    life := .run
    pwr := { w.pwr.atLevel w.pwr.level with pendWake := none, quiet := 0, studyNap := 0, saveAt := none, offAt := none }
    ctl := { w.ctl with digestFrom := w.now }
    vst := { w.vst with samples := [], raws := [] }
    hall := { w.hall with p3since := if w.pwr.level = Level.p3 then w.now else w.hall.p3since } }

theorem Wing.runsAgain_keeps (w : Wing) : w.runsAgain.life = .run ∧ w.runsAgain.ctl.tick = w.ctl.tick := ⟨rfl, rfl⟩

/-- What fell due while the wing slept is registered and admitted, and the accesses that waited are done. -/
def Wing.registersDue (w : Wing) : Wing :=
  ((if w.registerAlarms.admitsNew then w.registerAlarms.admitStaged
    else w.registerAlarms).registerLatched.drainAll.sampleCores).drainPort

theorem Wing.registersDue_sameRun {w : Wing} (h : w.life = .run) : w.registersDue.SameRun w := by
  unfold Wing.registersDue
  have h5 : w.registerAlarms.SameStage w := w.registerAlarms_stage
  generalize w.registerAlarms = w5 at h5 ⊢
  have h6 : (if w5.admitsNew then w5.admitStaged else w5).SameStage w5 := by
    split
    · exact w5.admitStaged_stage
    · exact ⟨rfl, rfl, rfl, rfl, rfl, rfl, rfl⟩
  generalize (if w5.admitsNew then w5.admitStaged else w5) = w6 at h6 ⊢
  have h7 : w6.registerLatched.drainAll.sampleCores.SameStage w :=
    ((((Wing.sampleCores_stage _).trans (Wing.drainAll_stage _)).trans (Wing.registerLatched_stage _)).trans h6).trans h5
  generalize w6.registerLatched.drainAll.sampleCores = w7 at h7 ⊢
  exact (Wing.drainPort_sameRun (h7.1.trans h)).trans h7.sameRun

/-- The wing at X with its banks checked, no trip left, and what the timers brought. -/
def Wing.backInRun (w : Wing) (bad : List (BitVec 7)) (ecc : List EccFind) : Wing :=
  (w.notePairWake.clearPair.runsAgain.scrubBanks bad ecc).untripped.openBudgets.catchUp

theorem Wing.backInRun_spec (w : Wing) (bad : List (BitVec 7)) (ecc : List EccFind) :
    (w.backInRun bad ecc).life = .run ∧ (w.backInRun bad ecc).ctl.tick = w.ctl.tick ∧ (w.backInRun bad ecc).pwr.tripped = [] := by
  unfold Wing.backInRun
  obtain ⟨-, -, -, ptick, -⟩ := w.notePairWake_stage
  obtain ⟨-, -, -, ctick, -⟩ := w.notePairWake.clearPair_stage
  obtain ⟨rlife, rtick⟩ := w.notePairWake.clearPair.runsAgain_keeps
  generalize w.notePairWake.clearPair.runsAgain = w2 at rlife rtick ⊢
  obtain ⟨slife, -, -, stick, -⟩ := w2.scrubBanks_stage bad ecc
  generalize w2.scrubBanks bad ecc = w3 at slife stick ⊢
  obtain ⟨klife, ktick, ktrip⟩ := w3.reopened_keeps
  exact ⟨klife.trans (slife.trans rlife), ktick.trans (stick.trans (rtick.trans (ctick.trans ptick))), ktrip⟩

theorem Wing.exitNap_eq {w : Wing} (hlife : w.life = .nap ∨ w.life = .napEntry) (hdue : w.changeDue 0 = true)
    (bad : List (BitVec 7)) (ecc : List EccFind) : w.exitNap bad ecc = (w.backInRun bad ecc).registersDue := by
  unfold Wing.exitNap
  rw [if_pos (by rcases hlife with h | h <;> rw [h, hdue] <;> rfl)]
  extract_lets w1 power1 ctl1 vst1 hall1 w2 w3 power3 w4 w5
  have h1 : w1 = w.notePairWake.clearPair := rfl
  have h2 : w2 = w1.runsAgain := rfl
  have h3 : w3 = w2.scrubBanks bad ecc := rfl
  have h4 : w4 = w3.untripped.openBudgets.catchUp := rfl
  change w4.registersDue = _
  clear_value w1 power1 ctl1 vst1 hall1 w2 w3 power3 w4
  rw [h4, h3, h2, h1]
  rfl

/-- At X the wing is in Run, with no trip of a monitor left, in the same tick. -/
theorem Wing.exitNap_of_due {w : Wing} (hlife : w.life = .nap ∨ w.life = .napEntry) (hdue : w.changeDue 0 = true)
    (bad : List (BitVec 7)) (ecc : List EccFind) :
    (w.exitNap bad ecc).life = .run ∧ (w.exitNap bad ecc).pwr.tripped = [] ∧ (w.exitNap bad ecc).now = w.now := by
  rw [Wing.exitNap_eq hlife hdue]
  obtain ⟨blife, btick, btrip⟩ := w.backInRun_spec bad ecc
  generalize w.backInRun bad ecc = v at blife btick btrip ⊢
  obtain ⟨dlife, -, -, dtick, -, dtrip⟩ := Wing.registersDue_sameRun blife
  exact ⟨dlife.trans blife, dtrip.trans btrip, dtick.trans btick⟩

theorem Wing.exitNap_stands {w : Wing} (h : (w.life ≠ .nap ∧ w.life ≠ .napEntry) ∨ w.changeDue 0 = false) (bad : List (BitVec 7))
    (ecc : List EccFind) : w.exitNap bad ecc = w := by
  refine if_neg fun hcond => ?_
  simp only [Bool.and_eq_true, Bool.or_eq_true, beq_iff_eq] at hcond
  rcases h with ⟨hnap, hentry⟩ | h
  · exact hcond.1.elim hnap hentry
  · exact absurd hcond.2 (Bool.eq_false_iff.1 h)

theorem Wing.showEn_self (w : Wing) : w.showEn w.psgEn = w := if_pos rfl

theorem stepsWing_napExit (s : State) (w : WingId) (bad : List (BitVec 7)) (ecc : List EccFind) :
    StepsWing (.napExit w bad ecc) s w fun v => (v.exitNap bad ecc).showEn v.psgEn := stepsWing rfl

end Sys2Proof.Machine

namespace Sys2Proof

open Machine

/-- Settles O52: entries, wakes, trips and exits, each by its condition. -/
theorem napEntriesWakesAndExits : Obligations.NapEntriesWakesAndExits := by
  unfold Obligations.NapEntriesWakesAndExits
  refine ⟨fun s w => ⟨fun hrun hdue hact => ⟨fun hno => ?_, fun hquiet hdup => ?_⟩, fun h => ?_, fun c h => ?_,
    fun b hnap hentry => ?_, fun c hsched => ⟨fun hlife hrole => ?_, fun hlife hrole hsource hpend => ?_, fun hlife hpend => ?_⟩,
    fun b hlife => ?_⟩, fun s w bad ecc => ⟨fun hlife hdue => ?_, fun h => ?_⟩⟩
  · have hmatch : (s.wing w).silent.enterNap = (s.wing w).silent.beginEntry false := by
      rw [Wing.enterNap_of_due (w := (s.wing w).silent) hrun hdue,
        show (s.wing w).silent.entryRefusal false = none from hno]
    obtain ⟨t, ht, honly, hwing, -⟩ := (stepsWing_napEntry (.inl (Wing.not_standby_of_active hact))).leaves hmatch
    refine ⟨t, ht, honly, ?_⟩
    rw [hwing]
    exact Wing.beginEntry_nap_spec (w := (s.wing w).silent) hact
  · have hmatch : (s.wing w).silent.enterNap = (s.wing w).silent.refuseEntry false (rfWing (s.wing w).id, rsQuiet) := by
      rw [Wing.enterNap_of_due (w := (s.wing w).silent) hrun hdue,
        Wing.entryRefusal_quiet (w := (s.wing w).silent) hact hquiet]
      rfl
    have hlife : (s.wing w).life = .run := by simpa [Wing.running] using hrun
    obtain ⟨rlife, rvst, rpan, rpsg, rout, rlog⟩ := (s.wing w).silent.refusesNap_spec (rfWing (s.wing w).id, rsQuiet)
    obtain ⟨heast, hwest⟩ := (s.wing w).silent.refusesNap_own rsQuiet
    obtain ⟨t, ht, honly, hwing, hout⟩ := (stepsWing_napEntry (.inl (Wing.not_standby_of_active hact))).leaves
      (hmatch.trans (Wing.refuseEntry_simplex (w := (s.wing w).silent) hdup _))
    refine ⟨t, ht, honly, hout.trans rout, ?_⟩
    rw [hwing]
    refine ⟨rlife.trans hlife, rlog, ?_, rvst, rpan, rpsg⟩
    cases hid : (s.wing w).id
    · exact heast
    · exact hwest
  · refine (stepsWing_napEntry ?_).stands (Wing.enterNap_stands (w := (s.wing w).silent) h)
    exact h.imp_left fun h => by simp [Wing.isStandby, h]
  · exact (stepsWing_napWake s w c).stands (Wing.wake_stands (w := (s.wing w).silent) c h)
  · refine (stepsWing_retentionMonitorTrip s w b).stands (if_neg ?_)
    simp [hnap, hentry]
  · obtain ⟨klife, kout, kpwr⟩ := (s.wing w).silent.scheduleExit_spec c
    obtain ⟨t, ht, honly, hwing, hout⟩ := (stepsWing_napWake s w c).leaves
      ((Wing.wake_in_nap (w := (s.wing w).silent) hsched hlife).1 hrole)
    refine ⟨t, ht, honly, hout.trans kout, ?_⟩
    rw [hwing]
    show ((s.wing w).silent.scheduleExit c false).life = _ ∧ ((s.wing w).silent.scheduleExit c false).pwr.sched = _ ∧
      ((s.wing w).silent.scheduleExit c false).pwr.wake = _ ∧ ((s.wing w).silent.scheduleExit c false).pwr.wakeTick = _
    rw [kpwr]
    exact ⟨klife.trans hlife, rfl, rfl, rfl⟩
  · obtain ⟨t, ht, honly, hwing, hout⟩ := (stepsWing_napWake s w c).leaves
      (((Wing.wake_in_nap (w := (s.wing w).silent) hsched hlife).2 hrole hsource).trans
        (Wing.keepWake_first (w := (s.wing w).silent) hpend false c))
    exact ⟨t, ht, honly, hout, hwing⟩
  · obtain ⟨t, ht, honly, hwing, hout⟩ := (stepsWing_napWake s w c).leaves
      ((Wing.wake_in_entry (w := (s.wing w).silent) hsched hlife).trans
        (Wing.keepWake_first (w := (s.wing w).silent) hpend true c))
    refine ⟨t, ht, honly, hout, ?_⟩
    rw [hwing]
    exact ⟨rfl, rfl, Wing.ctr_count_self { (s.wing w).silent with pwr := _ } cWakeDuringEntry⟩
  · obtain ⟨t, ht, honly, hwing, hout⟩ := (stepsWing_retentionMonitorTrip s w b).leaves
      (if_pos (by rcases hlife with h | h <;> simp [h]))
    refine ⟨t, ht, honly, hout, fun x => ?_, ?_⟩
    · rw [hwing]
      exact mem_insert_once _ b x
    · rw [hwing]
      rfl
  · obtain ⟨hrun, htrip, hnow⟩ := Wing.exitNap_of_due (w := (s.wing w).silent) hlife hdue bad ecc
    obtain ⟨t, ht, honly, hwing, -⟩ := stepsWing_napExit s w bad ecc
    obtain ⟨slife, -, -, stick, -, strip, -⟩ := ((s.wing w).silent.exitNap bad ecc).showEn_stage (s.wing w).silent.psgEn
    refine ⟨t, ht, honly, ?_⟩
    rw [hwing]
    exact ⟨slife.trans hrun, strip.trans htrip, stick.trans hnow⟩
  · refine (stepsWing_napExit s w bad ecc).stands ?_
    show ((s.wing w).silent.exitNap bad ecc).showEn (s.wing w).silent.psgEn = _
    rw [Wing.exitNap_stands (w := (s.wing w).silent) h, Wing.showEn_self]

end Sys2Proof
end

section
/-! How a record command steps its wing: the record in turn leaves its frame and is applied (R234, R235); and what CLAIM and COMPLETE
records do in their turn (R243). -/

namespace Sys2Proof.Machine

/-! ## A record in its turn -/

/-- The wing with the frames `rx` left to it, driving nothing: how a record in its turn is applied. -/
def Wing.taking (w : Wing) (rx : List RxFrame) : Wing := { w with psg := { w.psg with rx := rx }, out := [] }

@[simp] theorem Wing.taking_keeps (w : Wing) (rx : List RxFrame) :
    (w.taking rx).id = w.id ∧ (w.taking rx).life = w.life ∧ (w.taking rx).regs = w.regs ∧ (w.taking rx).ctl = w.ctl ∧
    (w.taking rx).vst = w.vst ∧ (w.taking rx).pan = w.pan ∧ (w.taking rx).hall = w.hall ∧ (w.taking rx).pch = w.pch ∧
    (w.taking rx).sl = w.sl ∧ (w.taking rx).ring = w.ring ∧ (w.taking rx).pwr = w.pwr ∧ (w.taking rx).int = w.int ∧
    (w.taking rx).out = [] :=
  ⟨rfl, rfl, rfl, rfl, rfl, rfl, rfl, rfl, rfl, rfl, rfl, rfl, rfl⟩

/-- A record taken changes no more than the received frames. -/
theorem Wing.takeRec_rx {w v : Wing} {r : Rec} {tk : Tick} (h : w.takeRec r = some (tk, v)) :
    v = { w with psg := { w.psg with rx := v.psg.rx } } := by
  unfold Wing.takeRec at h
  split at h
  · split at h
    · cases h
      rfl
    · cases h
  · cases h

theorem Wing.takeRec_silent {w v : Wing} {r : Rec} {tk : Tick} (h : w.takeRec r = some (tk, v)) :
    w.silent.takeRec r = some (tk, w.taking v.psg.rx) := by
  have hnext : w.silent.nextFor r = w.nextFor r := rfl
  unfold Wing.takeRec at h ⊢
  rw [hnext]
  split at h
  · split at h
    · cases h
      exact if_pos ‹_›
    · cases h
  · cases h

theorem Wing.takeRec_silent_none {w : Wing} {r : Rec} (h : w.takeRec r = none) : w.silent.takeRec r = none := by
  have hnext : w.silent.nextFor r = w.nextFor r := rfl
  unfold Wing.takeRec at h ⊢
  rw [hnext]
  split at h
  · split at h
    · cases h
    · exact if_neg ‹_›
  · rfl

theorem stepsWing_record {i : Instr} {w : WingId} {r : Rec} (h : i.recordOf = some (w, r)) (s : State) :
    StepsWing i s w fun v => v.recordStep r := by
  cases i <;> cases h <;> exact stepsWing rfl

/-- A record at a wing that takes its peer's frames is applied in its turn. -/
theorem Wing.recordStep_turn {w v : Wing} {r : Rec} {tk : Tick} (htake : w.takeRec r = some (tk, v)) (hrcv : w.receives = true) :
    w.silent.recordStep r = (w.taking v.psg.rx).turnOf tk r := by
  have hrcv' : w.silent.receives = true := hrcv
  unfold Wing.recordStep
  rw [Wing.takeRec_silent htake]
  exact if_pos hrcv'

theorem Wing.turnOf_now {w : Wing} (happ : w.appliesNow) (rx : List RxFrame) (tk : Tick) (r : Rec) :
    (w.taking rx).turnOf tk r =
      if (((w.taking rx).noteOpen r).applyRec tk r).2 then (((w.taking rx).noteOpen r).applyRec tk r).1
      else { (((w.taking rx).noteOpen r).applyRec tk r).1 with
        psg := { (((w.taking rx).noteOpen r).applyRec tk r).1.psg with hold := [(tk, r)] } } := by
  obtain ⟨-, hrole, hhold, hreloads⟩ := happ
  have hgo : ¬ ((w.taking rx).psg.hold != [] || (w.taking rx).rebuilding) = true := by
    simp [Wing.taking, Wing.rebuilding, hhold, hreloads]
  have hjoin : ((w.taking rx).noteOpen r).ctl.role ≠ .joining := by
    have : ((w.taking rx).noteOpen r).ctl = w.ctl := by cases r <;> rfl
    rw [this, hrole]
    decide
  unfold Wing.turnOf Wing.applyAs
  rw [if_neg hgo, if_neg hjoin]

/-- What a record that is applied at once leaves. -/
theorem record_applies {s : State} {w : WingId} {i : Instr} {r : Rec} {tk : Tick} {v : Wing} (hi : i.recordOf = some (w, r))
    (happ : (s.wing w).appliesNow) (htake : (s.wing w).takeRec r = some (tk, v)) :
    ∃ rx, ∀ x, ((((s.wing w).taking rx).noteOpen r).applyRec tk r) = (x, true) →
      ∃ t, exec i s = .next t ∧ s.onlyWing t w ∧ t.wing w = x.silent ∧ t.out = x.out := by
  refine ⟨v.psg.rx, fun x hx => ?_⟩
  refine (stepsWing_record hi s).leaves ?_
  show (s.wing w).silent.recordStep r = _
  rw [Wing.recordStep_turn htake happ.1, Wing.turnOf_now happ, hx]
  rfl

/-- What a record that waits leaves. -/
theorem record_waits {s : State} {w : WingId} {i : Instr} {r : Rec} {tk : Tick} {v : Wing} (hi : i.recordOf = some (w, r))
    (happ : (s.wing w).appliesNow) (htake : (s.wing w).takeRec r = some (tk, v)) :
    ∃ rx, ∀ x, ((((s.wing w).taking rx).noteOpen r).applyRec tk r) = (x, false) →
      ∃ t, exec i s = .next t ∧ s.onlyWing t w ∧ t.wing w = { x with psg := { x.psg with hold := [(tk, r)] }, out := [] } := by
  refine ⟨v.psg.rx, fun x hx => ?_⟩
  obtain ⟨t, ht, honly, hwing, -⟩ := (stepsWing_record hi s).leaves
    (v := { x with psg := { x.psg with hold := [(tk, r)] } }) (by
      show (s.wing w).silent.recordStep r = _
      rw [Wing.recordStep_turn htake happ.1, Wing.turnOf_now happ, hx]
      rfl)
  exact ⟨t, ht, honly, hwing⟩

/-! ## Journal records -/

/-- A vector that is not in the pantry has no context. -/
theorem Wing.ctx?_of_no_slot (w : Wing) {key : Word} (h : w.slotFor key = none) : w.ctx? key = none := by
  simp [Wing.ctx?, h]

/-- A claim or a return of a vector that is not PRESENTED at the porch is counted. -/
theorem Wing.applyClaim_bad {w : Wing} {p : Byte} {key : Word} {t : Tick}
    (h : ∀ n sl, w.slotFor key = some (n, sl) → ¬ (sl.ctx.state = .presented ∧ sl.ctx.lastCore = p)) :
    w.applyClaim p key t = w.count cBadClaim ∧ w.applyReturn p key t = w.count cBadClaim := by
  unfold Wing.applyClaim Wing.applyReturn
  cases hs : w.slotFor key with
  | none => simp [w.ctx?_of_no_slot hs]
  | some e => simp [w.ctx?_of_slotFor hs, h e.1 e.2 hs]

theorem Wing.applyClaim_good {w : Wing} {p : Byte} {key : Word} {t : Tick} {n : Nat} {sl : Slot}
    (hs : w.slotFor key = some (n, sl)) (h : sl.ctx.state = .presented ∧ sl.ctx.lastCore = p) :
    w.applyClaim p key t = w.updCtx key t Ctx.claim ∧ w.applyReturn p key t = w.updCtx key t Ctx.giveBack := by
  unfold Wing.applyClaim Wing.applyReturn
  rw [w.ctx?_of_slotFor hs]
  exact ⟨if_pos h, if_pos h⟩

theorem Wing.applyComplete_bad {w : Wing} {p : Byte} {key : Word} {t : Tick}
    (h : ∀ n sl, w.slotFor key = some (n, sl) →
      ¬ ((sl.ctx.state = .active ∨ sl.ctx.state = .activePending) ∧ sl.ctx.lastCore = p)) :
    w.applyComplete p key t = w.count cBadComplete := by
  unfold Wing.applyComplete
  cases hs : w.slotFor key with
  | none => simp [w.ctx?_of_no_slot hs]
  | some e =>
    have hno : ¬ (e.2.ctx.state.completable = true ∧ e.2.ctx.lastCore = p) := by
      rintro ⟨hc, hp⟩
      refine h e.1 e.2 hs ⟨?_, hp⟩
      cases hst : e.2.ctx.state <;> simp_all [VState.completable]
    rw [w.ctx?_of_slotFor hs]
    exact if_neg hno

theorem Wing.applyComplete_good {w : Wing} {p : Byte} {key : Word} {t : Tick} {n : Nat} {sl : Slot}
    (hs : w.slotFor key = some (n, sl)) (h : sl.ctx.state = .active ∨ sl.ctx.state = .activePending) (hp : sl.ctx.lastCore = p) :
    (w.applyComplete p key t).pan.slots =
      SMap.insert w.pan.slots n { sl with ctx := sl.ctx.changed (sl.ctx.complete t (w.windowOf sl.ctx)) t } := by
  have hc : sl.ctx.state.completable = true := by rcases h with h | h <;> rw [h] <;> rfl
  unfold Wing.applyComplete
  rw [w.ctx?_of_slotFor hs]
  simp only [hc, hp, and_self, if_true]
  exact Wing.updCtx_slots w key t _ hs

@[simp] theorem Wing.applyComplete_pch (w : Wing) (p : Byte) (key : Word) (t : Tick) : (w.applyComplete p key t).pch = w.pch := by
  unfold Wing.applyComplete
  cases w.ctx? key with
  | none => simp
  | some c => by_cases h : c.state.completable = true ∧ c.lastCore = p <;> simp [h]

/-- The wing once it has taken LAST_JSEQ from a CLAIM record; a return that the active wing made itself brings none. -/
def Wing.heardJseq (w : Wing) (r : JournalRec) : Wing := if r.synth then w else w.setJseq r.porch r.entry.jseq

theorem Wing.heardJseq_keeps (w : Wing) (r : JournalRec) :
    (w.heardJseq r).pan = w.pan ∧ (w.heardJseq r).regs = w.regs ∧ (w.heardJseq r).ctl = w.ctl := by
  unfold Wing.heardJseq
  split <;> exact ⟨rfl, rfl, rfl⟩

theorem Wing.applyClaimRec_eq (w : Wing) (t : Tick) (r : JournalRec) :
    w.applyClaimRec t r =
      if r.ret ∨ r.synth then
        ((w.heardJseq r).applyReturn r.porch r.entry.key t).countIf (!r.synth && w.ctl.role == .active) cReturns
      else (w.heardJseq r).applyClaim r.porch r.entry.key t := rfl

@[simp] theorem Wing.applyClaim_pch (w : Wing) (p : Byte) (key : Word) (t : Tick) :
    (w.applyClaim p key t).pch = w.pch ∧ (w.applyReturn p key t).pch = w.pch := by
  unfold Wing.applyClaim Wing.applyReturn
  cases w.ctx? key with
  | none => simp
  | some c => by_cases h : c.state = .presented ∧ c.lastCore = p <;> simp [h]

theorem Wing.applyClaimRec_pch (w : Wing) (t : Tick) (r : JournalRec) : (w.applyClaimRec t r).pch = (w.heardJseq r).pch := by
  rw [Wing.applyClaimRec_eq]
  split <;> simp

theorem Wing.slotFor_heardJseq (w : Wing) (r : JournalRec) (key : Word) : (w.heardJseq r).slotFor key = w.slotFor key :=
  congrArg (fun p : Pantry => findKey key p.slots) (w.heardJseq_keeps r).1

theorem Wing.applyClaimRec_good {w : Wing} {t : Tick} {r : JournalRec} {n : Nat} {sl : Slot}
    (hs : w.slotFor r.entry.key = some (n, sl)) (h : sl.ctx.state = .presented ∧ sl.ctx.lastCore = r.porch) :
    (w.applyClaimRec t r).pan.slots = SMap.insert w.pan.slots n
      { sl with ctx := sl.ctx.changed (if r.ret ∨ r.synth then sl.ctx.giveBack else sl.ctx.claim) t } := by
  have hs' := (w.slotFor_heardJseq r r.entry.key).trans hs
  obtain ⟨hclaim, hreturn⟩ := Wing.applyClaim_good (t := t) hs' h
  rw [Wing.applyClaimRec_eq]
  by_cases hret : (r.ret = true ∨ r.synth = true)
  · simp only [if_pos hret, hreturn, Wing.countIf_keeps]
    rw [Wing.updCtx_slots _ _ _ _ hs', (w.heardJseq_keeps r).1]
  · simp only [if_neg hret, hclaim]
    rw [Wing.updCtx_slots _ _ _ _ hs', (w.heardJseq_keeps r).1]

theorem Wing.applyClaimRec_bad {w : Wing} {t : Tick} {r : JournalRec} (hrole : w.ctl.role ≠ .active)
    (h : ∀ n sl, w.slotFor r.entry.key = some (n, sl) → ¬ (sl.ctx.state = .presented ∧ sl.ctx.lastCore = r.porch)) :
    (w.applyClaimRec t r).pan.slots = w.pan.slots ∧ (w.applyClaimRec t r).ctr cBadClaim = w.ctr cBadClaim + 1 := by
  obtain ⟨hpan, hregs, -⟩ := w.heardJseq_keeps r
  obtain ⟨hclaim, hreturn⟩ := Wing.applyClaim_bad (w := w.heardJseq r) (t := t)
    fun n sl hs => h n sl ((w.slotFor_heardJseq r r.entry.key).symm.trans hs)
  have heq : w.applyClaimRec t r = (w.heardJseq r).count cBadClaim := by
    rw [Wing.applyClaimRec_eq, hclaim, hreturn]
    simp [hrole, Wing.countIf]
  rw [heq, Wing.ctr_count_self]
  exact ⟨by simp [hpan], congrArg (fun x : Regs => SMap.get x.ctr 0 cBadClaim + 1) hregs⟩

end Sys2Proof.Machine

namespace Sys2Proof

open Machine

/-- Settles O38: the record in its turn is `Wing.applyClaimRec` or `Wing.applyCompleteRec`, by the vector's state. -/
theorem journalRecordsMoveVectors : Obligations.JournalRecordsMoveVectors := by
  unfold Obligations.JournalRecordsMoveVectors
  intro s w r tk v happ
  refine ⟨fun htake => ?_, fun htake => ?_⟩
  · obtain ⟨rx, hleaves⟩ := record_applies (i := .claimRecord w r) rfl happ htake
    obtain ⟨t, ht, honly, hwing, -⟩ := hleaves _ rfl
    have hpch : (t.wing w).pch = (((s.wing w).taking rx).heardJseq r).pch := by
      rw [hwing]
      exact Wing.applyClaimRec_pch _ tk r
    refine ⟨t, ht, honly, fun hsynth => ?_, fun hsynth => ?_, fun n sl hs hst hp => ?_, fun hbad => ?_⟩
    · rw [hpch]
      simp [Wing.heardJseq, hsynth, Wing.setJseq]
    · rw [hpch]
      simp [Wing.heardJseq, hsynth]
    · refine ⟨_, by rw [hwing]; exact Wing.applyClaimRec_good hs ⟨hst, hp⟩, ?_, ?_, ?_⟩
      · split <;> simp [Ctx.giveBack, Ctx.claim]
      · split <;> simp [Ctx.giveBack, Ctx.claim]
      · simp only [Ctx.changed_keeps]
        split <;> rfl
    · rw [hwing]
      exact Wing.applyClaimRec_bad (w := (s.wing w).taking rx) (by simp [happ.2.1]) hbad
  · obtain ⟨rx, hleaves⟩ := record_applies (i := .completeRecord w r) rfl happ htake
    obtain ⟨t, ht, honly, hwing, -⟩ := hleaves _ rfl
    have hjseq : SMap.get (((s.wing w).taking rx).setJseq r.porch r.entry.jseq).pch.jseqCommit 0xFFFF r.porch.toNat = r.entry.jseq := by
      simp [Wing.setJseq]
    refine ⟨t, ht, honly, ?_, fun n sl hs hst hp => ?_, fun hbad => ?_⟩
    · have hpch : (t.wing w).pch = (((s.wing w).taking rx).setJseq r.porch r.entry.jseq).pch := by
        rw [hwing]
        exact Wing.applyComplete_pch _ _ _ _
      rw [hpch, hjseq]
    · refine ⟨_, by rw [hwing]; exact Wing.applyComplete_good (w := ((s.wing w).taking rx).setJseq r.porch r.entry.jseq) hs hst hp, ?_, ?_, ?_⟩
      · simp [Ctx.complete]
      · simp [Ctx.complete]
      · simp [Ctx.complete]
    · have heq := Wing.applyComplete_bad (w := ((s.wing w).taking rx).setJseq r.porch r.entry.jseq) (t := tk) hbad
      have hstep : t.wing w = ((((s.wing w).taking rx).setJseq r.porch r.entry.jseq).count cBadComplete).silent :=
        hwing.trans (congrArg Wing.silent heq)
      rw [hstep]
      exact ⟨rfl, Wing.ctr_count_self (((s.wing w).taking rx).setJseq r.porch r.entry.jseq) cBadComplete⟩

end Sys2Proof
end

section
/-! What a mirrored word leaves when it is set, stored and in force, and what REGW does in its turn (R244, R344, R366). -/

namespace Sys2Proof.Machine

/-- The words of the registers, stored and in force, with what the signature is taken over, stand from `w` to `v`. -/
def Wing.SameWords (v w : Wing) : Prop :=
  v.portGen = w.portGen ∧ v.regs.cfg = w.regs.cfg ∧ v.regs.eff = w.regs.eff ∧ v.sl = w.sl ∧ v.int = w.int ∧ v.out = w.out

theorem Wing.SameWords.refl (w : Wing) : w.SameWords w := ⟨rfl, rfl, rfl, rfl, rfl, rfl⟩

theorem Wing.SameWords.trans {u v w : Wing} (h : u.SameWords v) (h' : v.SameWords w) : u.SameWords w := by
  obtain ⟨a, b, c, d, e, f⟩ := h
  obtain ⟨a', b', c', d', e', f'⟩ := h'
  exact ⟨a.trans a', b.trans b', c.trans c', d.trans d', e.trans e', f.trans f'⟩

theorem Wing.SameWords.cfgW {v w : Wing} (h : v.SameWords w) (k : Nat) : v.cfgW k = w.cfgW k := by
  obtain ⟨hgen, hcfg, -⟩ := h
  simp [Wing.cfgW, hgen, hcfg]

theorem Wing.SameWords.effW {v w : Wing} (h : v.SameWords w) (k : Nat) : v.effW k = w.effW k := by
  obtain ⟨hgen, -, heff, -⟩ := h
  simp [Wing.effW, hgen, heff]

theorem Wing.SameWords.signedWords {v w : Wing} (h : v.SameWords w) : v.signedWords = w.signedWords := by
  obtain ⟨hgen, -, heff, hsl, -⟩ := h
  simp [Wing.signedWords, hgen, heff, hsl]

/-- What a word notes for the boundary as it is set: a route that moves, a source's entry before, a porch's entries and its INIT. -/
def Wing.noteWord (w : Wing) (k : Nat) (v : Word) : Wing :=
  let w1 := match routeLine k with
    | some i =>
        if w.effW k = v ∨ (SMap.find? w.pan.routes i).isSome then w
        else { w with pan := { w.pan with routes := SMap.insert w.pan.routes i (w.effW k) } }
    | none => w
  let w2 := match srcOfKey k with
    | some i =>
        if (SMap.find? w1.regs.srcOld i).isSome then w1
        else { w1 with regs := { w1.regs with srcOld := SMap.insert w1.regs.srcOld i (w1.srcCfg i) } }
    | none => w1
  let w3 := match sweOfKey k with
    | some c =>
        if w2.regs.sweNew.contains c then w2 else { w2 with regs := { w2.regs with sweNew := w2.regs.sweNew ++ [c] } }
    | none => w2
  match pchOfKey k with
  | some p =>
      if w3.pch.initDue.contains p then w3 else { w3 with pch := { w3.pch with initDue := w3.pch.initDue ++ [p] } }
  | none => w3

theorem Wing.setWord_eq (w : Wing) (k : Nat) (v : Word) :
    w.setWord k v = ((w.noteWord k v).setCfg k v).withSigned fun x => x.setEff k v := rfl

theorem Wing.noteWord_words (w : Wing) (k : Nat) (v : Word) : (w.noteWord k v).SameWords w := by
  unfold Wing.noteWord
  extract_lets pan1 w1 regs1 w2 regs2 w3 pch3
  have hroute : w1.SameWords w := by unfold w1; (repeat' split) <;> exact ⟨rfl, rfl, rfl, rfl, rfl, rfl⟩
  have hsrc : w2.SameWords w1 := by unfold w2; (repeat' split) <;> exact ⟨rfl, rfl, rfl, rfl, rfl, rfl⟩
  have hswe : w3.SameWords w2 := by unfold w3; (repeat' split) <;> exact ⟨rfl, rfl, rfl, rfl, rfl, rfl⟩
  refine Wing.SameWords.trans ?_ (hswe.trans (hsrc.trans hroute))
  (repeat' split) <;> exact ⟨rfl, rfl, rfl, rfl, rfl, rfl⟩

/-- A word that is set takes its value, stored and in force, every other word stands, and the running signature follows. -/
theorem Wing.setWord_spec (w : Wing) (k : Nat) (v : Word) :
    (∀ j, (w.setWord k v).cfgW j = if j = k then v else w.cfgW j) ∧
    (∀ j, (w.setWord k v).effW j = if j = k then v else w.effW j) ∧
    (w.setWord k v).portGen = w.portGen ∧ (w.setWord k v).sl = w.sl ∧
    (w.setWord k v).out = w.out ∧
    (w.setWord k v).int.sigRun = w.int.sigRun ^^^ (signatureOf w.signedWords ^^^ signatureOf (w.setWord k v).signedWords) := by
  have hnote := w.noteWord_words k v
  generalize hu : w.noteWord k v = u at hnote
  rw [Wing.setWord_eq, hu]
  have hsigned : ((u.setCfg k v).withSigned fun x => x.setEff k v).signedWords = ((u.setCfg k v).setEff k v).signedWords := by
    simp [Wing.signedWords]
  have hcfg : ∀ j, ((u.setCfg k v).withSigned fun x => x.setEff k v).cfgW j = (u.setCfg k v).cfgW j := by
    intro j
    simp only [Wing.cfgW, Wing.withSigned_keeps]
    rfl
  have heff : ∀ j, ((u.setCfg k v).withSigned fun x => x.setEff k v).effW j = ((u.setCfg k v).setEff k v).effW j := by
    intro j
    simp only [Wing.effW, Wing.withSigned_keeps]
  obtain ⟨hgen, -, -, hsl, hint, hout⟩ := (show u.SameWords w from hnote)
  refine ⟨fun j => ?_, fun j => ?_, ?_, ?_, ?_, ?_⟩
  · rw [hcfg, Wing.cfgW_setCfg, hnote.cfgW]
  · rw [heff, Wing.effW_setEff, Wing.effW_setCfg, hnote.effW]
  · simp only [Wing.withSigned_keeps]
    exact hgen
  · simp only [Wing.withSigned_keeps]
    exact hsl
  · simp only [Wing.withSigned_keeps]
    exact hout
  · rw [hsigned, Wing.withSigned_sigRun _ _ rfl, ← hnote.signedWords]
    exact congrArg (fun x : Integ => x.sigRun ^^^ _) hint

/-- Pending first writes that a lock ends change no word. -/
theorem Wing.dropDual_words (w : Wing) (k : Nat) : (w.dropDual k).SameWords w := ⟨rfl, rfl, rfl, rfl, rfl, rfl⟩

theorem Wing.dropLocked_words (w : Wing) : w.dropLocked.SameWords w := by
  unfold Wing.dropLocked
  split <;> exact ⟨rfl, rfl, rfl, rfl, rfl, rfl⟩

/-- The access that a wing keeps of the second window is the one whose record this is. -/
def RegCopy.isOf (c : RegCopy) (t : Tick) (r : RegwRec) : Bool :=
  (c.halves.map (·.1)).head? == some (regwKey r) && c.req == r.req && decide (c.tick.toNat ≤ t.toNat + 1) &&
    decide (t.toNat ≤ c.tick.toNat + 1)

/-- The wing as REGW begins: the access of the second window that the record answers is no longer kept. -/
def Wing.regwStart (w : Wing) (t : Tick) (r : RegwRec) : Wing :=
  { w with regs := { w.regs with aliasKept := w.regs.aliasKept.eraseP fun c => c.isOf t r } }

theorem Wing.regwStart_words (w : Wing) (t : Tick) (r : RegwRec) : (w.regwStart t r).SameWords w := ⟨rfl, rfl, rfl, rfl, rfl, rfl⟩

theorem Wing.applyRegw_word {w : Wing} {t : Tick} {r : RegwRec} (h : r.dualPend = false) :
    w.applyRegw t r = (((w.regwStart t r).dropDual (regwKey r)).setWord (regwKey r) r.val).dropLocked := by
  unfold Wing.applyRegw
  rw [h]
  rfl

theorem Wing.applyRegw_first {w : Wing} {t : Tick} {r : RegwRec} (h : r.dualPend = true) :
    w.applyRegw t r = { (w.regwStart t r).dropDual (regwKey r) with regs := { ((w.regwStart t r).dropDual (regwKey r)).regs with
      dual := ((w.regwStart t r).dropDual (regwKey r)).regs.dual ++
        [{ addr := regwKey r, val := r.val, req := r.req, at_ := t.setWidth 64 }] } } := by
  unfold Wing.applyRegw
  rw [h]
  rfl

theorem Wing.applyRegw_word_spec {w : Wing} {t : Tick} {r : RegwRec} (h : r.dualPend = false) :
    (w.applyRegw t r).cfgW (regwKey r) = r.val ∧ (w.applyRegw t r).effW (regwKey r) = r.val ∧
    (∀ j, j ≠ regwKey r → (w.applyRegw t r).cfgW j = w.cfgW j ∧ (w.applyRegw t r).effW j = w.effW j) ∧
    (w.applyRegw t r).int.sigRun =
      w.int.sigRun ^^^ (signatureOf w.signedWords ^^^ signatureOf (w.applyRegw t r).signedWords) := by
  rw [Wing.applyRegw_word h]
  have hstart := (Wing.dropDual_words (w.regwStart t r) (regwKey r)).trans (w.regwStart_words t r)
  generalize (w.regwStart t r).dropDual (regwKey r) = u at hstart
  obtain ⟨hcfg, heff, -, -, -, hsig⟩ := u.setWord_spec (regwKey r) r.val
  have hlock := (u.setWord (regwKey r) r.val).dropLocked_words
  obtain ⟨-, -, -, -, hint, -⟩ := (show u.SameWords w from hstart)
  refine ⟨?_, ?_, fun j hj => ⟨?_, ?_⟩, ?_⟩
  · rw [hlock.cfgW, hcfg, if_pos rfl]
  · rw [hlock.effW, heff, if_pos rfl]
  · rw [hlock.cfgW, hcfg, if_neg hj, hstart.cfgW]
  · rw [hlock.effW, heff, if_neg hj, hstart.effW]
  · rw [hlock.signedWords, ← hstart.signedWords, hlock.2.2.2.2.1, hsig, hint]

theorem Wing.applyRegw_out (w : Wing) (t : Tick) (r : RegwRec) : (w.applyRegw t r).out = w.out := by
  cases h : r.dualPend with
  | true => rw [Wing.applyRegw_first h]; rfl
  | false =>
    rw [Wing.applyRegw_word h]
    obtain ⟨-, -, -, -, hout, -⟩ := ((w.regwStart t r).dropDual (regwKey r)).setWord_spec (regwKey r) r.val
    obtain ⟨-, -, -, -, -, hlock⟩ := (((w.regwStart t r).dropDual (regwKey r)).setWord (regwKey r) r.val).dropLocked_words
    exact hlock.trans hout

end Sys2Proof.Machine

namespace Sys2Proof

open Machine

/-- Settles O40: the record in its turn is `Wing.setWord` of its word, or the pending first write. -/
theorem regwRecordsSetRegisters : Obligations.RegwRecordsSetRegisters := by
  unfold Obligations.RegwRecordsSetRegisters
  rintro s w r k tk v happ htake rfl
  obtain ⟨rx, hleaves⟩ := record_applies (i := .cfgRegw w r) rfl happ htake
  obtain ⟨t, ht, honly, hwing, hout⟩ := hleaves (((s.wing w).taking rx).applyRegw tk r) rfl
  refine ⟨t, ht, honly, hout.trans (Wing.applyRegw_out _ tk r), fun hword => ?_, fun hfirst => ?_⟩
  · rw [hwing]
    exact Wing.applyRegw_word_spec hword
  · rw [hwing, Wing.applyRegw_first hfirst]
    exact ⟨rfl, rfl, _, List.mem_append_right _ (List.mem_singleton_self _), rfl, rfl, rfl⟩

end Sys2Proof
end

section
/-! What LEVEL, DRAIN, QUAR, LETTER, DOORBELL and DONE records do in their turn (R153, R173, R197 to R199, R219, R244, R246, R289). -/

namespace Sys2Proof.Machine

@[simp] theorem Wing.slice_count (w : Wing) (o : Nat) (x : BitVec 12) : (w.count o).slice x = w.slice x := rfl

@[simp] theorem Wing.slice_silent (w : Wing) (x : BitVec 12) : w.silent.slice x = w.slice x := rfl

@[simp] theorem Wing.slice_taking (w : Wing) (rx : List RxFrame) (x : BitVec 12) : (w.taking rx).slice x = w.slice x := rfl

@[simp] theorem Wing.slice_recordDef (w : Wing) (s x : BitVec 12) (r : BitVec 256) : (w.recordDef s r).slice x = w.slice x := rfl

/-! ## DRAIN -/

/-- A port's report on a slice that quiesces with the record's PASID and GEN. -/
def SliceSt.drainedBy (v : SliceSt) (r : DrainRec) : SliceSt :=
  if v.state = .quiescing ∧ v.pasid = r.pasid ∧ v.gen = r.gen then { v with drained := v.drained ||| (1#16 <<< r.port.toNat) } else v

theorem SMap.find?_map (m : SMap α) (f : α → α) (k : Nat) :
    SMap.find? (m.map fun e => (e.1, f e.2)) k = (SMap.find? m k).map f := by
  induction m with
  | nil => rfl
  | cons e m ih =>
    obtain ⟨i, x⟩ := e
    simp only [List.map_cons, SMap.find?]
    split
    · rfl
    · exact ih

theorem Wing.applyDrain_eq (w : Wing) (r : DrainRec) :
    w.applyDrain r = ({ w with sl := w.sl.map fun e => (e.1, e.2.drainedBy r) } : Wing).count cDrainDone := by
  have hmark : (fun e : Nat × SliceSt => if (e.2.state == .quiescing && e.2.pasid == r.pasid && e.2.gen == r.gen) = true then
      (e.1, { e.2 with drained := e.2.drained ||| (1#16 <<< r.port.toNat) }) else e) = fun e => (e.1, e.2.drainedBy r) := by
    funext e
    by_cases h : e.2.state = .quiescing ∧ e.2.pasid = r.pasid ∧ e.2.gen = r.gen
    · simp [SliceSt.drainedBy, h]
    · have hne : ¬ (e.2.state == .quiescing && e.2.pasid == r.pasid && e.2.gen == r.gen) = true := by
        simpa [and_assoc] using h
      simp only [SliceSt.drainedBy, if_neg h, if_neg hne]
  show ({ w with sl := w.sl.map _ } : Wing).count cDrainDone = _
  rw [hmark]

theorem Wing.applyDrain_slice (w : Wing) (r : DrainRec) (n : BitVec 12) :
    (w.applyDrain r).slice n = (w.slice n).drainedBy r := by
  have hreset : SliceSt.reset.drainedBy r = SliceSt.reset := if_neg fun h => by cases h.1
  rw [Wing.applyDrain_eq]
  show SMap.get (w.sl.map fun e => (e.1, e.2.drainedBy r)) SliceSt.reset n.toNat = _
  unfold SMap.get Wing.slice SMap.get
  rw [SMap.find?_map w.sl (SliceSt.drainedBy · r)]
  cases SMap.find? w.sl n.toNat with
  | none => exact hreset.symm
  | some v => rfl

/-! ## LETTER, and the outcome of an event record -/

theorem recOutcome_eventRecord (slice : BitVec 12) (code : Byte) (cleared reconciled acc : Bool) (outcome : BitVec 4) (whr : Word)
    (count engStatus : BitVec 16) (jobTag : Word) (data : DWord) (tick : Tick) :
    recOutcome (eventRecord slice code cleared reconciled acc outcome whr count engStatus jobTag data tick) = outcome := by
  simp (disch := decide) only [recOutcome, eventRecord, HAppend.hAppend, extractLsb'_append_high, extractLsb'_append_low,
    Nat.reduceAdd, Nat.reduceSub, extractLsb'_whole]

theorem Wing.applyLetter_out (w : Wing) (t : Tick) (r : LetterRec) : (w.applyLetter t r).out = w.out := by
  unfold Wing.applyLetter Wing.recordDef
  cases r.fromMgr <;> simp

/-- The event record of a letter. -/
def Wing.letterEvent (w : Wing) (t : Tick) (r : LetterRec) : BitVec 256 :=
  eventRecord (if r.fromMgr then 0 else r.slice) 0 false w.ctl.reconciled false oLetter 0 0 0 0
    (if r.fromMgr then r.letter else r.lseq ++ loWord r.letter) t

theorem Wing.applyLetter_recsDef (w : Wing) (t : Tick) (r : LetterRec) :
    (w.applyLetter t r).ring.recsDef = w.ring.recsDef ++ [(if r.fromMgr then r.slice else 0, w.letterEvent t r)] := by
  unfold Wing.applyLetter Wing.recordDef
  cases h : r.fromMgr <;> simp [Wing.letterEvent, h]

/-- The letter leaves its box. -/
theorem Wing.applyLetter_slice (w : Wing) (t : Tick) (r : LetterRec) :
    (w.applyLetter t r).slice r.slice =
      if r.fromMgr then { w.slice r.slice with inbox := (w.slice r.slice).inbox.drop 1 }
      else { w.slice r.slice with outbox := (w.slice r.slice).outbox.filter fun e => !serialLe e.1 r.lseq } := by
  unfold Wing.applyLetter
  cases r.fromMgr <;> simp

/-! ## QUAR -/

theorem Wing.isQuarantined_quarantine (w : Wing) (key : Word) : (w.quarantine key).isQuarantined key = true := by
  unfold Wing.quarantine
  by_cases h : w.isQuarantined key = true
  · rw [if_pos h]
    exact h
  · rw [if_neg h]
    simp only [Wing.isQuarantined]
    split
    · rename_i hlong
      cases hq : w.pan.quar with
      | nil => simp [hq] at hlong
      | cons x xs => simp
    · simp

@[simp] theorem Wing.quarantine_slots (w : Wing) (key : Word) : (w.quarantine key).pan.slots = w.pan.slots := by
  unfold Wing.quarantine
  split <;> rfl

/-- The quarantine, as a QUAR record leaves it. -/
theorem Wing.applyQuar_pan (w : Wing) (t : Tick) (r : QuarRec) :
    (w.applyQuar t r).pan = (w.quarantine r.key).pan ∧ (w.applyQuar t r).out = w.out := by
  unfold Wing.applyQuar Wing.mirrorRecheckLost Wing.recordDef
  (repeat' split) <;> simp

/-! ## DONE -/

/-- One slice's write position moves past `f` of its records. -/
def Wing.passRecords (f : BitVec 12 → Nat) (w : Wing) (s : BitVec 12) : Wing :=
  if f s = 0 then w
  else w.modSlice s fun v => { v with wpos := v.wpos + BitVec.ofNat 32 (f s), evtTail := v.wpos + BitVec.ofNat 32 (f s) }

theorem Wing.wpos_passRecords (f : BitVec 12 → Nat) (w : Wing) (s n : BitVec 12) :
    ((w.passRecords f s).slice n).wpos = if n = s then (w.slice n).wpos + BitVec.ofNat 32 (f n) else (w.slice n).wpos := by
  unfold Wing.passRecords
  by_cases hn : n = s
  · subst hn
    by_cases hz : f n = 0 <;> simp [hz]
  · rw [if_neg hn]
    split
    · rfl
    · rw [Wing.slice_modSlice_ne _ _ hn]

theorem Wing.wpos_foldl_passRecords (f : BitVec 12 → Nat) (l : List (BitVec 12)) (hl : l.Nodup) (w : Wing) (n : BitVec 12) :
    ((l.foldl (Wing.passRecords f) w).slice n).wpos =
      if n ∈ l then (w.slice n).wpos + BitVec.ofNat 32 (f n) else (w.slice n).wpos := by
  induction l generalizing w with
  | nil => rfl
  | cons s l ih =>
    obtain ⟨hs, hl⟩ := List.nodup_cons.1 hl
    rw [List.foldl_cons, ih hl, Wing.wpos_passRecords]
    by_cases hn : n = s
    · subst hn
      simp [hs]
    · simp [hn]

theorem Wing.ring_foldl_passRecords (f : BitVec 12 → Nat) (l : List (BitVec 12)) (w : Wing) :
    (l.foldl (Wing.passRecords f) w).ring = w.ring :=
  foldl_keeps Wing.ring (Wing.passRecords f) (fun v s => by unfold Wing.passRecords; split <;> simp) l w

/-- The records of one slice in the blocks of ticks up to `d`. -/
def Wing.recordsTo (w : Wing) (d : Tick) (n : BitVec 12) : Nat :=
  ((w.ring.blocks.filter fun b => decide (b.tick.toNat ≤ d.toNat)).map fun b => b.countFor n).sum

theorem Wing.blocksDone_eq (w : Wing) (d : Tick) :
    w.blocksDone d = { w.sliceNums.foldl (Wing.passRecords (w.recordsTo d)) w with
      ring := { (w.sliceNums.foldl (Wing.passRecords (w.recordsTo d)) w).ring with
        blocks := (w.sliceNums.foldl (Wing.passRecords (w.recordsTo d)) w).ring.blocks.filter fun b =>
          decide (d.toNat < b.tick.toNat) } } := rfl

theorem Wing.mem_blocks_blocksDone (w : Wing) (d : Tick) (b : EvBlock) :
    b ∈ (w.blocksDone d).ring.blocks ↔ b ∈ w.ring.blocks ∧ d.toNat < b.tick.toNat := by
  rw [Wing.blocksDone_eq, Wing.ring_foldl_passRecords]
  simp

theorem Wing.wpos_blocksDone (w : Wing) (d : Tick) (hnd : w.sliceNums.Nodup) {n : BitVec 12} (hn : n ∈ w.sliceNums) :
    ((w.blocksDone d).slice n).wpos = (w.slice n).wpos + BitVec.ofNat 32 (w.recordsTo d n) := by
  have h := Wing.wpos_foldl_passRecords (w.recordsTo d) w.sliceNums hnd w n
  rw [if_pos hn] at h
  exact h

end Sys2Proof.Machine

namespace Sys2Proof

open Machine

/-- Settles O41: each record in its turn is its function of the wing. -/
theorem cfgAndRingposRecordsApply : Obligations.CfgAndRingposRecordsApply := by
  unfold Obligations.CfgAndRingposRecordsApply
  refine ⟨fun s w tk v happ => ⟨fun r htake => ?_, fun r htake => ?_, fun r htake => ?_, fun r htake => ?_⟩,
    fun s w tk v happ => ⟨fun r htake => ?_, fun d htake hnd => ?_⟩⟩
  · obtain ⟨rx, hleaves⟩ := record_applies (i := .cfgLevel w r) rfl happ htake
    obtain ⟨t, ht, honly, hwing, hout⟩ := hleaves (((s.wing w).taking rx).applyLevel r) rfl
    refine ⟨t, ht, honly, hout, ?_⟩
    rw [hwing]
    refine ⟨rfl, rfl, ?_, ?_⟩
    · by_cases h : r.level.toNat < (s.wing w).pwr.level.code.toNat <;> simp [Wing.applyLevel, h]
    · by_cases h : r.level.toNat < (s.wing w).pwr.level.code.toNat <;> simp [Wing.applyLevel, h]
  · obtain ⟨rx, hleaves⟩ := record_applies (i := .cfgDrain w r) rfl happ htake
    obtain ⟨t, ht, honly, hwing, hout⟩ := hleaves (((s.wing w).taking rx).applyDrain r) rfl
    refine ⟨t, ht, honly, hout, ?_, fun n => ?_⟩
    · rw [hwing, Wing.applyDrain_eq]
      exact Wing.ctr_count_self { (s.wing w).taking rx with sl := _ } cDrainDone
    · rw [hwing]
      exact Wing.applyDrain_slice _ r n
  · obtain ⟨rx, hleaves⟩ := record_applies (i := .cfgQuar w r) rfl happ htake
    obtain ⟨t, ht, honly, hwing, hout⟩ := hleaves (((s.wing w).taking rx).applyQuar tk r) rfl
    obtain ⟨hpan, hdriven⟩ := ((s.wing w).taking rx).applyQuar_pan tk r
    have hpan' : (t.wing w).pan = (((s.wing w).taking rx).quarantine r.key).pan := by
      rw [hwing]
      exact hpan
    refine ⟨t, ht, honly, hout.trans hdriven, ?_, ?_⟩
    · unfold Wing.isQuarantined
      rw [hpan']
      exact Wing.isQuarantined_quarantine ((s.wing w).taking rx) r.key
    · rw [hpan', Wing.quarantine_slots]
      rfl
  · obtain ⟨rx, hleaves⟩ := record_applies (i := .cfgLetter w r) rfl happ htake
    obtain ⟨t, ht, honly, hwing, hout⟩ := hleaves (((s.wing w).taking rx).applyLetter tk r) rfl
    have hslice := ((s.wing w).taking rx).applyLetter_slice tk r
    refine ⟨t, ((s.wing w).taking rx).letterEvent tk r, ht, honly, hout.trans (Wing.applyLetter_out _ tk r), ?_,
      recOutcome_eventRecord _ _ _ _ _ _ _ _ _ _ _ _, fun hmgr => ?_, fun hmgr => ?_⟩
    · rw [hwing]
      exact Wing.applyLetter_recsDef _ tk r
    · rw [hmgr] at hslice
      rw [hwing]
      exact congrArg SliceSt.inbox hslice
    · rw [hmgr] at hslice
      rw [hwing]
      exact congrArg SliceSt.outbox hslice
  · obtain ⟨rx, hleaves⟩ := record_applies (i := .ringposDoorbell w r) rfl happ htake
    obtain ⟨t, ht, honly, hwing, -⟩ := hleaves (((s.wing w).taking rx).applyDoorbellRec r) rfl
    have hrole : ((s.wing w).taking rx).ctl.role ≠ .active := by simp [happ.2.1]
    refine ⟨t, ht, honly, fun hk => ?_, fun hk => ?_, fun x hx => ?_⟩
    · rw [hwing, Wing.applyDoorbellRec, if_neg hrole, if_pos hk, Wing.slice_silent, Wing.slice_modSlice_self, Wing.slice_taking]
    · rw [hwing, Wing.applyDoorbellRec, if_neg hrole, if_neg hk, Wing.slice_silent, Wing.slice_modSlice_self, Wing.slice_taking]
    · rw [hwing, Wing.applyDoorbellRec, if_neg hrole, Wing.slice_silent]
      split <;> rw [Wing.slice_modSlice_ne _ _ hx, Wing.slice_taking]
  · obtain ⟨rx, hleaves⟩ := record_applies (i := .ringposDone w d) rfl happ htake
    obtain ⟨t, ht, honly, hwing, -⟩ := hleaves (((s.wing w).taking rx).applyDone d) rfl
    have hdone : ((s.wing w).taking rx).applyDone d = ((s.wing w).taking rx).blocksDone d := if_neg (by simp [happ.2.1])
    refine ⟨t, ht, honly, fun b => ?_, fun n hn => ?_⟩
    · rw [hwing, hdone]
      exact Wing.mem_blocks_blocksDone _ d b
    · rw [hwing, hdone]
      exact Wing.wpos_blocksDone ((s.wing w).taking rx) d hnd hn

end Sys2Proof
end

section
/-! What the STEER records do in their turn (R75, R84, R90, R107, R108, R245). -/

namespace Sys2Proof.Machine

/-! ## Reads -/

/-- Issuing reads keeps each of them with its vector and its causes. -/
theorem mem_issueFetches (n : Nat) (l : List Fetch) {f : Fetch} (hf : f ∈ l) :
    ∃ g ∈ (issueFetches n l).1, g.key = f.key ∧ g.causes = f.causes := by
  induction l generalizing n with
  | nil => cases hf
  | cons x l ih =>
    unfold issueFetches
    rcases List.mem_cons.1 hf with rfl | hl
    · split
      · exact ⟨f, List.mem_cons_self, rfl, rfl⟩
      · split
        · exact ⟨f, List.mem_cons_self, rfl, rfl⟩
        · exact ⟨_, List.mem_cons_self, rfl, rfl⟩
    · split
      · obtain ⟨g, hg, hgf⟩ := ih n hl
        exact ⟨g, List.mem_cons_of_mem _ hg, hgf⟩
      · split
        · exact ⟨f, List.mem_cons_of_mem _ hl, rfl, rfl⟩
        · obtain ⟨g, hg, hgf⟩ := ih (n - 1) hl
          exact ⟨g, List.mem_cons_of_mem _ hg, hgf⟩

@[simp] theorem Wing.emitRead_pan (w : Wing) (a : DWord) (n : Nat) : (w.emitRead a n).pan = w.pan := rfl

theorem Wing.issueReads_pan (w : Wing) :
    w.issueReads.pan = { w.pan with fetches := (issueFetches (128 - min 128 w.readsOut) w.pan.fetches).1 } :=
  foldl_keeps Wing.pan (fun (w : Wing) k => w.emitRead (w.entryAddr k) 32) (fun _ _ => rfl) _ _

@[simp] theorem Wing.addFetch_slots (w : Wing) (key : Word) (c : FetchCause) : (w.addFetch key c).pan.slots = w.pan.slots := by
  unfold Wing.addFetch
  split
  · rfl
  · rw [Wing.issueReads_pan]

/-- A read of the vector is out for the cause, or waits with it. -/
theorem Wing.mem_addFetch (w : Wing) (key : Word) (c : FetchCause) :
    ∃ f ∈ (w.addFetch key c).pan.fetches, f.key = key ∧ c ∈ f.causes := by
  unfold Wing.addFetch
  by_cases h : w.pan.fetches.any (fun f => f.key == key) = true
  · rw [if_pos h]
    obtain ⟨f, hf, hkey⟩ := List.any_eq_true.1 h
    have hkey : f.key = key := by simpa using hkey
    refine ⟨_, List.mem_map_of_mem hf, ?_, ?_⟩
    · rw [if_pos hkey]
      exact hkey
    · rw [if_pos hkey]
      by_cases hc : f.causes.contains c = true
      · simpa only [if_pos hc] using List.contains_iff_mem.1 hc
      · simp only [if_neg hc]
        exact List.mem_append_right _ (List.mem_singleton_self c)
  · rw [if_neg h, Wing.issueReads_pan]
    obtain ⟨g, hg, hgkey, hgcauses⟩ := mem_issueFetches
      (128 - min 128 ({ w with pan := { w.pan with fetches := w.pan.fetches ++ [{ key := key, causes := [c], issued := false, retried := false }] } } : Wing).readsOut)
      (w.pan.fetches ++ [{ key := key, causes := [c], issued := false, retried := false }])
      (List.mem_append_right _ (List.mem_singleton_self _))
    exact ⟨g, hg, hgkey, hgcauses ▸ List.mem_singleton_self c⟩

/-! ## ACCEPT -/

@[simp] theorem Wing.noteAcceptance_pan (w : Wing) (p : Byte) (c : Ctx) (m : Tick) : (w.noteAcceptance p c m).pan = w.pan := by
  unfold Wing.noteAcceptance
  simp only
  split <;> rfl

theorem Wing.applyAccept_pending {w : Wing} {t : Tick} {r : AcceptRec} {n : Nat} {sl : Slot}
    (hs : w.slotFor r.key = some (n, sl)) (hst : sl.ctx.state = .pending) :
    (w.applyAccept t r).pan.slots =
      SMap.insert w.pan.slots n { sl with ctx := sl.ctx.changed (sl.ctx.accept r.porch) t } := by
  have hs' : (w.noteAcceptance r.porch sl.ctx t).slotFor r.key = some (n, sl) := by
    rw [Wing.slotFor, Wing.noteAcceptance_pan]
    exact hs
  unfold Wing.applyAccept
  rw [w.ctx?_of_slotFor hs]
  simp only [if_pos hst]
  rw [Wing.updCtx_slots _ _ _ _ hs', Wing.noteAcceptance_pan]

/-! ## INSTALL -/

/-- The image of the vector is used up. -/
def Wing.dropImages (w : Wing) (key : Word) : Wing :=
  { w with pan := { w.pan with images := w.pan.images.filter (·.ctx.key != key) } }

theorem Wing.applyInstall_image {w : Wing} {t : Tick} {r : InstallRec} {i : Image}
    (hfill : w.psg.ctxFills.find? (fun f => f.1 == r.key) = none)
    (himage : w.pan.images.find? (fun i => i.ctx.key == r.key) = some i) (htag : i.ctx.tag = r.tag)
    (hfree : SMap.find? w.pan.slots (slotNo r.bank r.slot) = none) :
    w.applyInstall t r = ((w.dropImages r.key).putSlot (slotNo r.bank r.slot) i.ctx, true) := by
  have hfree' : SMap.find? (w.dropImages r.key).pan.slots (slotNo r.bank r.slot) = none := hfree
  have hat : (w.dropImages r.key).installAt (slotNo r.bank r.slot) i.ctx =
      (w.dropImages r.key).putSlot (slotNo r.bank r.slot) i.ctx := by
    unfold Wing.installAt
    rw [hfree']
  unfold Wing.applyInstall
  simp only [hfill, himage, if_pos htag]
  exact congrArg (·, true) hat

theorem Wing.applyInstall_wait {w : Wing} {t : Tick} {r : InstallRec}
    (hfill : w.psg.ctxFills.find? (fun f => f.1 == r.key) = none)
    (himage : w.pan.images.find? (fun i => i.ctx.key == r.key) = none) :
    w.applyInstall t r = (if w.ownReadOut r.key then w else w.addFetch r.key (.install (slotNo r.bank r.slot) r.tag), false) := by
  unfold Wing.applyInstall
  simp only [hfill, himage]

/-! ## CORESTATE -/

/-- Four cores take the states `f`. -/
theorem get_foldl_set (f : Nat → CoreSt) (g : Nat) (m : SMap CoreSt) :
    (∀ i < 4, SMap.get ((List.range 4).foldl (fun m i => SMap.set m CoreSt.reset (4 * g + i) (f i)) m) CoreSt.reset (4 * g + i) = f i) ∧
    ∀ c, c / 4 ≠ g →
      SMap.get ((List.range 4).foldl (fun m i => SMap.set m CoreSt.reset (4 * g + i) (f i)) m) CoreSt.reset c =
        SMap.get m CoreSt.reset c := by
  have hrange : List.range 4 = [0, 1, 2, 3] := rfl
  simp only [hrange, List.foldl_cons, List.foldl_nil]
  constructor
  · intro i hi
    have : i = 0 ∨ i = 1 ∨ i = 2 ∨ i = 3 := by omega
    rcases this with rfl | rfl | rfl | rfl <;> simp [SMap.get_set]
  · intro c hc
    have h0 : c ≠ 4 * g + 0 := by omega
    have h1 : c ≠ 4 * g + 1 := by omega
    have h2 : c ≠ 4 * g + 2 := by omega
    have h3 : c ≠ 4 * g + 3 := by omega
    rw [SMap.get_set_ne _ _ _ h3, SMap.get_set_ne _ _ _ h2, SMap.get_set_ne _ _ _ h1, SMap.get_set_ne _ _ _ h0]

/-- The fields of a core's word in the record, where the core's porch is not in FAULT. -/
theorem coreOfWord_extract {d : DWord} {i : Nat} (h : (d.extractLsb' (16 * i) 16 : BitVec 16).getLsbD 15 = false) :
    coreOfWord (d.extractLsb' (16 * i) 16) =
      { cur := d.extractLsb' (16 * i) 12, sleep := d.extractLsb' (16 * i + 12) 2, on := d.getLsbD (16 * i + 14), fault := false } := by
  have hcur : (d.extractLsb' (16 * i) 16).extractLsb' 0 12 = d.extractLsb' (16 * i) 12 := by
    ext j hj
    simp [BitVec.getElem_extractLsb', Nat.lt_trans hj (by decide : 12 < 16)]
  have hsleep : (d.extractLsb' (16 * i) 16).extractLsb' 12 2 = d.extractLsb' (16 * i + 12) 2 := by
    ext j hj
    have : 12 + j < 16 := by omega
    simp [BitVec.getElem_extractLsb', this, Nat.add_assoc]
  have hon : (d.extractLsb' (16 * i) 16).getLsbD 14 = d.getLsbD (16 * i + 14) := by simp
  rw [coreOfWord, hcur, hsleep, hon, h]

/-- A record that brings no porch into FAULT. -/
theorem Wing.newFaults_nil {w : Wing} {r : CoreStateRec}
    (h : ∀ i < 4, (r.words.extractLsb' (16 * i) 16 : BitVec 16).getLsbD 15 = false) : w.newFaults r = [] := by
  unfold Wing.newFaults
  rw [List.filterMap_eq_nil_iff]
  intro i hi
  have hok : (coreOfWord (r.words.extractLsb' (16 * i) 16)).fault = false := h i (List.mem_range.1 hi)
  simp only [hok, Bool.false_and, Bool.false_eq_true, if_false]

/-- With no porch that enters FAULT the record sets the four cores, and no more but what slice 0 shows. -/
theorem Wing.applyCoreState_ok {w : Wing} {t : Tick} {r : CoreStateRec} (hrole : w.ctl.role ≠ .active)
    (h : ∀ i < 4, (r.words.extractLsb' (16 * i) 16 : BitVec 16).getLsbD 15 = false) :
    (w.applyCoreState t r).hall.cores = (List.range 4).foldl (fun m i =>
      SMap.set m CoreSt.reset (4 * r.group.toNat + i) (coreOfWord (r.words.extractLsb' (16 * i) 16))) w.hall.cores ∧
    (w.applyCoreState t r).pan = w.pan := by
  unfold Wing.applyCoreState
  rw [Wing.newFaults_nil h]
  simp [hrole, Wing.mirrorRecheckLost]

end Sys2Proof.Machine

namespace Sys2Proof

open Machine

/-- Settles O39: each record in its turn is its function of the wing. -/
theorem steerRecordsApply : Obligations.SteerRecordsApply := by
  unfold Obligations.SteerRecordsApply
  intro s w tk v happ
  refine ⟨fun r n sl htake hs hst => ?_, fun r htake hfill => ⟨fun i himage htag hfree => ?_, fun himage => ?_⟩,
    fun r n sl htake hs => ?_, fun r htake => ?_, fun r htake => ?_, fun r htake hok => ?_⟩
  · obtain ⟨rx, hleaves⟩ := record_applies (i := .steerAccept w r) rfl happ htake
    obtain ⟨t, ht, honly, hwing, -⟩ := hleaves ((((s.wing w).taking rx).noteOpen (.accept r)).applyAccept tk r) rfl
    refine ⟨t, _, ht, honly, by rw [hwing]; exact Wing.applyAccept_pending hs hst, ?_⟩
    simp [Ctx.accept]
  · obtain ⟨rx, hleaves⟩ := record_applies (i := .steerInstall w r) rfl happ htake
    obtain ⟨t, ht, honly, hwing, -⟩ := hleaves _ (Wing.applyInstall_image (w := (s.wing w).taking rx) hfill himage htag hfree)
    refine ⟨t, ht, honly, ?_, fun x hx => ?_⟩
    · rw [hwing, Nat.mul_comm 256]
      rfl
    · rw [hwing] at hx
      have hx' : x ∈ (s.wing w).pan.images.filter (·.ctx.key != r.key) := hx
      simpa using (List.mem_filter.1 hx').2
  · obtain ⟨rx, hleaves⟩ := record_waits (i := .steerInstall w r) rfl happ htake
    obtain ⟨t, ht, honly, hwing⟩ := hleaves _ (Wing.applyInstall_wait (w := (s.wing w).taking rx) hfill himage)
    refine ⟨t, ht, honly, ?_, ?_, fun hown => ?_, fun hown => ?_⟩
    · rw [hwing]
      show (if (s.wing w).ownReadOut r.key = true then _ else _ : Wing).pan.slots = _
      split <;> simp
    · rw [hwing]
    · have hyes : ((s.wing w).taking rx).ownReadOut r.key = true := hown
      rw [hwing, if_pos hyes]
      rfl
    · obtain ⟨f, hf, hkey, hcause⟩ := ((s.wing w).taking rx).mem_addFetch r.key (.install (slotNo r.bank r.slot) r.tag)
      refine ⟨f, ?_, hkey, hcause⟩
      have hno : ¬ ((s.wing w).taking rx).ownReadOut r.key = true := by
        show ¬ (s.wing w).ownReadOut r.key = true
        simp [hown]
      rw [hwing, if_neg hno]
      exact hf
  · obtain ⟨rx, hleaves⟩ := record_applies (i := .steerModwin w r) rfl happ htake
    obtain ⟨t, ht, honly, hwing, -⟩ := hleaves
      (((s.wing w).taking rx).updCtx r.key tk fun c => { c with modWin := c.capWin r.win }) rfl
    have hslots := Wing.updCtx_slots ((s.wing w).taking rx) r.key tk (fun c => { c with modWin := c.capWin r.win }) hs
    refine ⟨t, _, ht, honly, by rw [hwing]; exact hslots, ?_⟩
    simp [Ctx.capWin]
  · obtain ⟨rx, hleaves⟩ := record_applies (i := .steerTarget w r) rfl happ htake
    obtain ⟨t, ht, honly, hwing, -⟩ := hleaves (((s.wing w).taking rx).applyTarget r) rfl
    refine ⟨t, ht, honly, ?_⟩
    rw [hwing, Wing.applyTarget]
    simp only [Wing.taking_keeps]
    cases SMap.find? (s.wing w).pan.slots (slotNo r.bank r.slot) with
    | none => rfl
    | some sl =>
      dsimp only
      split <;> rfl
  · obtain ⟨rx, hleaves⟩ := record_applies (i := .steerResidency w r) rfl happ htake
    obtain ⟨t, ht, honly, hwing, -⟩ := hleaves (((s.wing w).taking rx).applyResidency tk r) rfl
    have hrole : (((s.wing w).taking rx).ctl.role == Role.active) = false := by simp [happ.2.1]
    rw [Wing.applyResidency, hrole] at hwing
    refine ⟨t, eventRecord r.slice 0 false (s.wing w).ctl.reconciled false oResidency 0 r.count 0 0 (r.prio.setWidth 64) tk,
      ht, honly, ?_, ?_, ?_, recOutcome_eventRecord _ _ _ _ _ _ _ _ _ _ _ _⟩
    · rw [hwing]
      simp [Wing.countIf]
    · rw [hwing]
      simp [Wing.countIf, Wing.recordDef]
    · rw [hwing]
      simp only [Wing.silent_keeps, Wing.countIf_keeps, Wing.modSlice_keeps]
      rfl
  · obtain ⟨rx, hleaves⟩ := record_applies (i := .steerCorestate w r) rfl happ htake
    obtain ⟨t, ht, honly, hwing, -⟩ := hleaves (((s.wing w).taking rx).applyCoreState tk r) rfl
    obtain ⟨hcores, hpan⟩ := Wing.applyCoreState_ok (w := (s.wing w).taking rx) (t := tk) (by simp [happ.2.1]) hok
    replace hcores := (congrArg (fun x : Wing => x.hall.cores) hwing).trans hcores
    obtain ⟨hgroup, hrest⟩ := get_foldl_set (fun i => coreOfWord (r.words.extractLsb' (16 * i) 16)) r.group.toNat (s.wing w).hall.cores
    refine ⟨t, ht, honly, fun i hi => ?_, fun c hc => ?_, by rw [hwing]; exact hpan⟩
    · rw [Wing.coreSt, show (t.wing w).hall.cores = _ from hcores]
      exact (hgroup i hi).trans (coreOfWord_extract (hok i hi))
    · rw [Wing.coreSt, show (t.wing w).hall.cores = _ from hcores]
      exact hrest c hc

end Sys2Proof
end

section
/-! TICK_CLOSE and FRAME_APPLIED (R26, R235, R247, R257, R267, R270, R306). -/

namespace Sys2Proof.Machine

/-! ## What TICK_CLOSE keeps -/

/-- What a wing has seen of its peer, and its life, stand. -/
@[simp] abbrev Wing.SameSight (v w : Wing) : Prop :=
  v.psg.hb = w.psg.hb ∧ v.psg.peerJoining = w.psg.peerJoining ∧ v.psg.peerActive = w.psg.peerActive ∧ v.life = w.life

theorem Wing.SameSight.trans {u v w : Wing} (h : u.SameSight v) (h' : v.SameSight w) : u.SameSight w := by
  obtain ⟨a, b, c, d⟩ := h
  obtain ⟨a', b', c', d'⟩ := h'
  exact ⟨a.trans a', b.trans b', c.trans c', d.trans d'⟩

theorem Wing.sight_of_eq {v w : Wing} (h : v.psg = w.psg) (hl : v.life = w.life) : v.SameSight w := by simp [h, hl]

@[simp] theorem Wing.setWord_sight (w : Wing) (k : Nat) (x : Word) : (w.setWord k x).psg = w.psg ∧ (w.setWord k x).life = w.life := by
  rw [Wing.setWord_eq]
  simp only [Wing.withSigned_keeps]
  show (w.noteWord k x).psg = w.psg ∧ (w.noteWord k x).life = w.life
  unfold Wing.noteWord
  extract_lets pan1 w1 regs1 w2 regs2 w3 pch3
  have hroute : w1.psg = w.psg ∧ w1.life = w.life := by unfold w1; (repeat' split) <;> exact ⟨rfl, rfl⟩
  have hsrc : w2.psg = w1.psg ∧ w2.life = w1.life := by unfold w2; (repeat' split) <;> exact ⟨rfl, rfl⟩
  have hswe : w3.psg = w2.psg ∧ w3.life = w2.life := by unfold w3; (repeat' split) <;> exact ⟨rfl, rfl⟩
  rw [← hroute.1, ← hroute.2, ← hsrc.1, ← hsrc.2, ← hswe.1, ← hswe.2]
  (repeat' split) <;> exact ⟨rfl, rfl⟩

theorem Wing.failHeldWrites_sight (w : Wing) : w.failHeldWrites.psg = w.psg ∧ w.failHeldWrites.life = w.life := by
  unfold Wing.failHeldWrites
  split
  · exact ⟨rfl, rfl⟩
  next h _ =>
    exact ⟨foldl_keeps Wing.psg _ (fun v e => by split <;> simp) h.old w,
      foldl_keeps Wing.life _ (fun v e => by split <;> simp) h.old w⟩

theorem Wing.enterJoining_sight (w : Wing) : w.enterJoining.SameSight w := by
  obtain ⟨hpsg, hlife⟩ := w.failHeldWrites_sight
  exact ⟨congrArg (·.hb) hpsg, congrArg (·.peerJoining) hpsg, congrArg (·.peerActive) hpsg, hlife⟩

theorem Wing.stopBoot_sight (w : Wing) : w.stopBoot.SameSight w := by
  unfold Wing.stopBoot
  split <;> simp

theorem Wing.demote_sight (w : Wing) : w.demote.SameSight w := by
  by_cases h : w.ctl.role = .active
  · have hjoin := Wing.enterJoining_sight
      { w with pch := { w.pch with entries := [], replay := [], ended := [], turned := [], deferred := [] } }
    have hdemote : w.demote = (((Wing.enterJoining
        { w with pch := { w.pch with entries := [], replay := [], ended := [], turned := [], deferred := [] } }).count cDemote).countIf
          w.ctl.sendPos.isSome cResyncAbort |>.logTko tkDemoted).stopBoot := by
      unfold Wing.demote Wing.when
      simp only [h, beq_self_eq_true, if_true]
    rw [hdemote]
    exact (Wing.stopBoot_sight _).trans (.trans (by simp) hjoin)
  · rw [Wing.demote_of_inactive h]
    exact w.stopBoot_sight

@[simp] theorem Wing.placeHandover_sight (w : Wing) (pending : Bool) (h : Tick) : (w.placeHandover pending h).SameSight w := by
  simp [Wing.placeHandover, Wing.place_psg, Rec.group]

@[simp] theorem Wing.withdraw_sight (w : Wing) : w.withdraw.SameSight w := by
  unfold Wing.withdraw
  split <;> exact ⟨rfl, rfl, rfl, rfl⟩

theorem Wing.giveWay_sight (w : Wing) (cfgWord : Bool) : (w.giveWay cfgWord).SameSight w := by
  unfold Wing.giveWay
  split
  · dsimp only
    split <;> simp
  · split <;> simp

/-- The comparison of signatures keeps what the wing has seen, its role and the greatest claim seen. -/
theorem Wing.compareFirst_sight (w : Wing) (frame : Tick) (r : CloseRec) :
    (w.compareFirst frame r).SameSight w ∧ (w.compareFirst frame r).SameStage w := by
  have hsig : ∀ v : Wing, (v.compareSig frame r).SameSight v ∧ (v.compareSig frame r).SameStage v := fun v => by
    unfold Wing.compareSig
    dsimp only
    split
    · simp
    · split
      · exact ⟨(Wing.giveWay_sight _ _).trans (by simp), (Wing.giveWay_stage _ _).trans (by simp)⟩
      · simp
  unfold Wing.compareFirst
  split
  · simp
  · exact hsig _

/-! ## TICK_CLOSE -/

/-- The wing that has heard a TICK_CLOSE. -/
def Wing.heardClose (w : Wing) (frame : Tick) (replayed : Bool) (r : CloseRec) : Wing :=
  { w with
    life := if w.life = Life.deepWake then Life.run else w.life
    psg := { w.psg with
      hb := w.psg.hb || (!replayed && frame == w.now - 1)
      peerJoining := if replayed then w.psg.peerJoining else r.role == 0b10
      peerActive := if replayed then w.psg.peerActive else r.role == 0b00
      closes := w.keptCloses frame r } }

theorem Wing.tickClose_eq {w : Wing} (h : w.passageRuns = true) (frame : Tick) (replayed : Bool) (r : CloseRec) :
    w.tickClose frame replayed r =
      ((w.heardClose frame replayed r).seeClaim r).when w.running fun v => v.compareFirst frame r := by
  unfold Wing.tickClose
  rw [h]
  rfl

/-- The wing that has noted its peer's claim. -/
def Wing.notedClaim (w : Wing) (r : CloseRec) : Wing :=
  { w with ctl := { w.ctl with
      seen := if w.ctl.seen.toNat < r.claim.toNat then r.claim else w.ctl.seen
      seenActive := w.ctl.seenActive || r.role == 0b00 } }

theorem Wing.seeClaim_spec (w : Wing) (r : CloseRec) :
    (w.seeClaim r).SameSight w ∧ (w.seeClaim r).ctl.seen.toNat = max w.ctl.seen.toNat r.claim.toNat ∧
      (w.seeClaim r).ctl.role =
        if w.ctl.role = .active ∧ r.role = 0 ∧ w.ctl.claim.toNat < r.claim.toNat then .joining else w.ctl.role := by
  have hseen : (w.notedClaim r).ctl.seen.toNat = max w.ctl.seen.toNat r.claim.toNat := by
    show (if w.ctl.seen.toNat < r.claim.toNat then r.claim else w.ctl.seen).toNat = _
    split <;> omega
  by_cases hhigh : r.role = 0 ∧ w.ctl.claim.toNat < r.claim.toNat
  · have hsee : w.seeClaim r = (w.notedClaim r).demote := if_pos hhigh
    obtain ⟨-, -, hdseen⟩ := (w.notedClaim r).demote_claims
    rw [hsee]
    refine ⟨(Wing.demote_sight _).trans ⟨rfl, rfl, rfl, rfl⟩, (congrArg BitVec.toNat hdseen).trans hseen, ?_⟩
    by_cases hrole : w.ctl.role = .active
    · rw [if_pos ⟨hrole, hhigh⟩]
      exact (Wing.demote_of_active (w := w.notedClaim r) hrole).1
    · rw [if_neg fun h => hrole h.1, Wing.demote_of_inactive (w := w.notedClaim r) hrole]
      exact (w.notedClaim r).stopBoot_role.1
  · have hsee : w.seeClaim r = w.notedClaim r := if_neg hhigh
    rw [hsee, if_neg fun h => hhigh h.2]
    exact ⟨⟨rfl, rfl, rfl, rfl⟩, hseen, rfl⟩

theorem Wing.tickClose_spec {w : Wing} (h : w.passageRuns = true) (frame : Tick) (replayed : Bool) (r : CloseRec) :
    (w.tickClose frame replayed r).ctl.seen.toNat = max w.ctl.seen.toNat r.claim.toNat ∧
    (w.tickClose frame replayed r).psg.peerJoining = (if replayed then w.psg.peerJoining else r.role == 0b10) ∧
    (w.tickClose frame replayed r).psg.peerActive = (if replayed then w.psg.peerActive else r.role == 0b00) ∧
    (w.tickClose frame replayed r).psg.hb = (w.psg.hb || (!replayed && frame == w.now - 1)) ∧
    (w.tickClose frame replayed r).life = (if w.life = .deepWake then Life.run else w.life) ∧
    (w.tickClose frame replayed r).ctl.role =
      if w.ctl.role = .active ∧ r.role = 0 ∧ w.ctl.claim.toNat < r.claim.toNat then .joining else w.ctl.role := by
  rw [Wing.tickClose_eq h]
  obtain ⟨⟨hhb, hjoining, hactive, hlife⟩, hseen, hrole⟩ := (w.heardClose frame replayed r).seeClaim_spec r
  generalize (w.heardClose frame replayed r).seeClaim r = u at hhb hjoining hactive hlife hseen hrole
  have hcmp : (u.when w.running fun v => v.compareFirst frame r).SameSight u ∧
      (u.when w.running fun v => v.compareFirst frame r).ctl.seen = u.ctl.seen ∧
      (u.when w.running fun v => v.compareFirst frame r).ctl.role = u.ctl.role := by
    obtain ⟨hsight, -, hcrole, -⟩ := u.compareFirst_sight frame r
    obtain ⟨-, -, hcseen⟩ := u.compareFirst_claims frame r
    cases w.running with
    | false => exact ⟨⟨rfl, rfl, rfl, rfl⟩, rfl, rfl⟩
    | true => exact ⟨hsight, hcseen, hcrole⟩
  obtain ⟨⟨chb, cjoining, cactive, clife⟩, cseen, crole⟩ := hcmp
  rw [cseen, cjoining, cactive, chb, clife, crole]
  exact ⟨hseen, hjoining, hactive, hhb, hlife, hrole⟩

/-! ## Registering in a wing that is not active -/

/-- The passage and the control state stand. -/
@[simp] abbrev Wing.SameDesk (v w : Wing) : Prop := v.psg = w.psg ∧ v.ctl = w.ctl

theorem Wing.SameDesk.trans {u v w : Wing} (h : u.SameDesk v) (h' : v.SameDesk w) : u.SameDesk w :=
  ⟨h.1.trans h'.1, h.2.trans h'.2⟩

theorem Wing.sameDesk_foldl {α : Type} (f : Wing → α → Wing) (l : List α) (w : Wing) (h : ∀ v a, (f v a).SameDesk v) :
    (l.foldl f w).SameDesk w :=
  ⟨foldl_keeps Wing.psg f (fun v a => (h v a).1) l w, foldl_keeps Wing.ctl f (fun v a => (h v a).2) l w⟩

@[simp] theorem Wing.addFetch_desk (w : Wing) (key : Word) (c : FetchCause) : (w.addFetch key c).SameDesk w := by
  unfold Wing.addFetch
  split <;> simp

@[simp] theorem Wing.stage_desk (w : Wing) (o : Obs) : (w.stage o).SameDesk w := by
  unfold Wing.stage
  dsimp only
  split
  · simp
  · split
    · simp
    · split <;> simp [Wing.emitWrite]

/-- Fetching for an observation that is not admitted. -/
@[simp] theorem Wing.fetchFor_observed_desk (w : Wing) (o : Obs) : (w.fetchFor o .observed).SameDesk w := by
  unfold Wing.fetchFor
  split
  · simp
  · split
    · simp
    · exact w.addFetch_desk _ _

theorem Wing.registerAt_desk {w : Wing} (h : w.ctl.role ≠ .active) (t : Tick) (o : Obs) : (w.registerAt t o).SameDesk w := by
  have hno : ∀ v : Wing, v.ctl = w.ctl → v.admitsNew = false := fun v hv => by
    simp [Wing.admitsNew, Wing.ownsFrame, Wing.isActive, hv, h]
  unfold Wing.registerAt
  extract_lets i q o1 w1 w2
  have h1 : w1.SameDesk w := by simp [w1]
  rw [if_neg (by simp [hno w1 h1.2])]
  have h2 : w2.SameDesk w1 := by
    unfold w2
    split <;> simp
  exact (w2.stage_desk o1).trans (h2.trans h1)

theorem Wing.registerAll_desk {α : Type} (t : α → Tick) (o : Wing → α → Obs) (l : List α) {w : Wing} (h : w.ctl.role ≠ .active) :
    (l.foldl (fun w a => w.registerAt (t a) (o w a)) w).SameDesk w := by
  induction l generalizing w with
  | nil => exact ⟨rfl, rfl⟩
  | cons a l ih =>
    have h1 := Wing.registerAt_desk h (t a) (o w a)
    exact (ih (by rw [h1.2]; exact h)).trans h1

theorem Wing.resample_desk {w : Wing} (h : w.ctl.role ≠ .active) (lv : SMap Bool) (t : Tick) : (w.resample lv t).SameDesk w := by
  unfold Wing.resample Wing.registerSources
  exact (Wing.registerAll_desk (fun _ => t) (fun w i => w.wiredObs i) _ (w := { w with
    vst := { w.vst with resamp := [], resumed := [] }, regs := { w.regs with srcOld := [], sweNew := [] } }) h).trans ⟨rfl, rfl⟩

theorem Wing.registerRaw_desk (src pch : List Nat) {a : Wing × SMap Bool} (h : a.1.ctl.role ≠ .active) (e : Tick × RawEvent) :
    (Wing.registerRaw src pch a e).1.SameDesk a.1 := by
  unfold Wing.registerRaw
  split
  · dsimp only
    split
    · exact Wing.registerAt_desk h _ _
    · exact ⟨rfl, rfl⟩
  · dsimp only
    split
    · exact Wing.registerAt_desk h _ _
    · exact ⟨rfl, rfl⟩

theorem Wing.registerRaws_desk (src pch : List Nat) (l : List (Tick × RawEvent)) {a : Wing × SMap Bool} (h : a.1.ctl.role ≠ .active) :
    (l.foldl (Wing.registerRaw src pch) a).1.SameDesk a.1 := by
  induction l generalizing a with
  | nil => exact ⟨rfl, rfl⟩
  | cons e l ih =>
    have h1 := Wing.registerRaw_desk src pch h e
    exact (ih (by rw [h1.2]; exact h)).trans h1

theorem Wing.dropUnderOld_desk (w : Wing) (t : Tick) : (w.dropUnderOld t).SameDesk w := by
  unfold Wing.dropUnderOld Wing.countBack
  extract_lets gone staged back spilled w1
  have h1 : w1.SameDesk w := (Wing.sameDesk_foldl _ _ _ fun v o => by simp).trans (by simp)
  simpa using h1

theorem Wing.rederive_desk {w : Wing} (h : w.ctl.role ≠ .active) (t : Tick) : (w.rederive t).SameDesk w := by
  have hdrop := w.dropUnderOld_desk t
  have hdropped : (w.dropUnderOld t).ctl.role ≠ .active := by rw [hdrop.2]; exact h
  have hsample := Wing.resample_desk hdropped (w.sampleAt (t + 1)) (t + 1)
  unfold Wing.rederive
  extract_lets lv src pch w1 regs1 w2 later w3
  have h1 : w1.SameDesk w := hsample.trans hdrop
  clear_value w1
  have h2 : w2.SameDesk w := Wing.SameDesk.trans (v := w1) ⟨rfl, rfl⟩ h1
  have h3 : w3.SameDesk w2 := Wing.registerRaws_desk src pch later (a := (w2, lv)) (by rw [h2.2]; exact h)
  exact Wing.SameDesk.trans (v := w3) ⟨rfl, rfl⟩ (h3.trans h2)

theorem Wing.updateRoute_desk {w : Wing} (h : w.ctl.role ≠ .active) (i : Nat) : (w.updateRoute i).SameDesk w := by
  unfold Wing.updateRoute
  extract_lets cur pan1 w1
  have h1 : w1.SameDesk w := by unfold w1; split <;> exact ⟨rfl, rfl⟩
  rw [if_neg (by simp [Wing.isActive, h1.2, h])]
  exact h1

theorem Wing.updateRoutes_desk {w : Wing} (h : w.ctl.role ≠ .active) : w.updateRoutes.SameDesk w := by
  unfold Wing.updateRoutes
  generalize List.range 16 = l
  induction l generalizing w with
  | nil => exact ⟨rfl, rfl⟩
  | cons i l ih =>
    have h1 := Wing.updateRoute_desk h i
    exact (ih (by rw [h1.2]; exact h)).trans h1

theorem Wing.compareRef_desk (w : Wing) : w.compareRef.SameDesk w := by
  unfold Wing.compareRef
  split
  · dsimp only
    split <;> simp [Wing.logSig]
  · exact ⟨rfl, rfl⟩

theorem Wing.formBlock_desk (w : Wing) (t : Tick) : (w.formBlock t).SameDesk w := by
  unfold Wing.formBlock
  dsimp only
  split <;> exact ⟨rfl, rfl⟩

/-! ## The shadow ranking -/

/-- The received frames and the acknowledgement stand, and the role. -/
@[simp] abbrev Wing.SameAcks (v w : Wing) : Prop :=
  v.psg.rx = w.psg.rx ∧ v.psg.ackValid = w.psg.ackValid ∧ v.psg.ack = w.psg.ack ∧ v.ctl.role = w.ctl.role

theorem Wing.SameDesk.acks {v w : Wing} (h : v.SameDesk w) : v.SameAcks w := by simp [h.1, h.2]

theorem Wing.SameAcks.trans {u v w : Wing} (h : u.SameAcks v) (h' : v.SameAcks w) : u.SameAcks w := by
  obtain ⟨a, b, c, d⟩ := h
  obtain ⟨a', b', c', d'⟩ := h'
  exact ⟨a.trans a', b.trans b', c.trans c', d.trans d'⟩

theorem Wing.settleRanking_acks (w : Wing) (r : Ranking) (t : Tick) : (w.settleRanking r t).SameAcks w := by
  unfold Wing.settleRanking
  extract_lets p3 whole w1 w2 w3 idle img
  have h1 : w1.SameDesk w := by unfold w1; split <;> simp [Wing.countRanking]
  have h2 : w2.SameDesk w1 := by simp [w2, Wing.noteUnplaced]
  have h3 : w3.SameDesk w2 := by unfold w3; split <;> exact ⟨rfl, rfl⟩
  exact Wing.SameAcks.trans (v := w3) ⟨rfl, rfl, rfl, rfl⟩ (h3.trans (h2.trans h1)).acks

@[simp] theorem Wing.withdraw_acks (w : Wing) : w.withdraw.SameAcks w := by
  unfold Wing.withdraw
  split <;> exact ⟨rfl, rfl, rfl, rfl⟩

theorem Wing.compareDigest_acks (w : Wing) (f : Tick) (r : CloseRec) (made before : Word) : (w.compareDigest f r made before).SameAcks w := by
  unfold Wing.compareDigest
  split
  · exact ⟨rfl, rfl, rfl, rfl⟩
  · split
    · exact ⟨rfl, rfl, rfl, rfl⟩
    · extract_lets w1 log ctl2 regs2 w2
      have h2 : w2.SameAcks w := ⟨rfl, rfl, rfl, rfl⟩
      split
      · exact w2.withdraw_acks.trans h2
      · exact h2

theorem Wing.checkDigest_acks (w : Wing) (f : Tick) (before : Word) : (w.checkDigest f before).SameAcks w := by
  unfold Wing.checkDigest
  extract_lets w1
  have h1 : w1.SameAcks w := by
    unfold w1
    split
    · exact w.compareDigest_acks _ _ _ _
    · exact ⟨rfl, rfl, rfl, rfl⟩
  exact Wing.SameAcks.trans (v := w1) ⟨rfl, rfl, rfl, rfl⟩ h1

theorem Wing.rankShadow_acks (w : Wing) (t : Tick) : (w.rankShadow t).SameAcks w := by
  unfold Wing.rankShadow
  split
  · dsimp only
    exact (Wing.checkDigest_acks _ _ _).trans
      (.trans (by simp) (w.settleRanking_acks (w.rankingFor (t + 1) (w.mapOf (t + 1))) t))
  · exact ⟨rfl, rfl, rfl, rfl⟩

/-- Only a standby ranks in shadow. -/
theorem Wing.rankShadow_joining {w : Wing} (h : w.ctl.role = .joining) (t : Tick) : w.rankShadow t = w :=
  if_neg (by simp [Wing.isStandby, h])

/-! ## FRAME_APPLIED -/

/-- The wing without the frame of tick `t`. -/
def Wing.leftFrame (w : Wing) (t : Tick) : Wing :=
  { w with psg := { w.psg with
      rx := w.psg.rx.filter fun f => f.tick != t, lost := w.psg.lost.filter fun x => x.tick != t } }

/-- The end of a frame's application, up to what it leaves in force. -/
def Wing.frameWork (w : Wing) (t : Tick) : Wing :=
  ((((w.when w.running fun v => v.windowEnds t).rankShadow t).formBlock t).when
    ((w.when w.running fun v => v.windowEnds t).rankShadow t).running fun v => v.rederive t)

/-- What the frame leaves is in force: its configuration for the ranking, and the signature of the next tick. -/
def Wing.frameForce (w : Wing) (t : Tick) : Wing :=
  { w with
    hall := { w.hall with conf := w.regs.eff }
    regs := { w.regs with aliasKept := w.regs.aliasKept.filter fun c => decide (t.toNat < c.tick.toNat + 1) }
    int := { w.int with sigs :=
      if w.running || decide (t.toNat < w.pwr.enterTick.toNat) then w.int.keepSig (t + 1) else w.int.sigs } }

/-- A wing that is standby, or that withdraws in this tick, acknowledges the frame. -/
def Wing.acknowledge (w : Wing) (t : Tick) : Wing :=
  if w.ctl.role == .standby || w.ctl.withdrawAt == some w.now then
    { w with psg := { w.psg with ackValid := true, ack := t } } else w

/-- The alarms' routes follow the frame, and the reference is compared. -/
def Wing.frameEnd (w : Wing) (t : Tick) : Wing :=
  (w.updateRoutes.rerouteAlarms t).when (w.running && w.followsFrames) Wing.compareRef

theorem Wing.frameApplied_eq {w : Wing} {t : Tick} (hrcv : w.receives = true) (hend : w.endable = some t) :
    w.frameApplied = ((((w.leftFrame t).frameWork t).frameForce t).acknowledge t).frameEnd t := by
  unfold Wing.frameApplied
  rw [hrcv, hend]
  rfl

@[simp] theorem Wing.windowEnds_desk (w : Wing) (t : Tick) : (w.when w.running fun v => v.windowEnds t).SameDesk w := by
  unfold Wing.when
  split <;> simp

theorem Wing.when_rederive_desk {w : Wing} (h : w.ctl.role ≠ .active) (c : Bool) (t : Tick) :
    (w.when c fun v => v.rederive t).SameDesk w := by
  cases c with
  | false => exact ⟨rfl, rfl⟩
  | true => exact Wing.rederive_desk h t

theorem Wing.frameWork_acks {w : Wing} (h : w.ctl.role ≠ .active) (t : Tick) : (w.frameWork t).SameAcks w := by
  have hrank := (Wing.rankShadow_acks (w.when w.running fun v => v.windowEnds t) t).trans (w.windowEnds_desk t).acks
  unfold Wing.frameWork
  generalize (w.when w.running fun v => v.windowEnds t).rankShadow t = u at hrank
  have hform := (u.formBlock_desk t).acks.trans hrank
  exact (Wing.when_rederive_desk (by rw [hform.2.2.2]; exact h) _ t).acks.trans hform

/-- In a joining wing the end of a frame leaves the control state. -/
theorem Wing.frameWork_desk {w : Wing} (h : w.ctl.role = .joining) (t : Tick) : (w.frameWork t).SameDesk w := by
  have hends := w.windowEnds_desk t
  have hrole : (w.when w.running fun v => v.windowEnds t).ctl.role = .joining := by rw [hends.2]; exact h
  unfold Wing.frameWork
  rw [Wing.rankShadow_joining hrole]
  generalize (w.when w.running fun v => v.windowEnds t) = u at hends
  have hform := (u.formBlock_desk t).trans hends
  exact (Wing.when_rederive_desk (by rw [hform.2, h]; decide) _ t).trans hform

theorem Wing.rerouteAlarms_desk (w : Wing) (t : Tick) : (w.rerouteAlarms t).SameDesk w := ⟨rfl, rfl⟩

theorem Wing.frameEnd_desk {w : Wing} (h : w.ctl.role ≠ .active) (t : Tick) : (w.frameEnd t).SameDesk w := by
  have hroutes := (w.updateRoutes.rerouteAlarms_desk t).trans (Wing.updateRoutes_desk h)
  unfold Wing.frameEnd
  generalize w.updateRoutes.rerouteAlarms t = u at hroutes
  refine .trans ?_ hroutes
  cases w.running && w.followsFrames with
  | false => exact ⟨rfl, rfl⟩
  | true => exact u.compareRef_desk

/-- A single frame that ends leaves no frame. -/
theorem Wing.leftFrame_rx {w : Wing} {f : RxFrame} (h : w.psg.rx = [f]) : (w.leftFrame f.tick).psg.rx = [] := by
  simp [Wing.leftFrame, h]

theorem Wing.frameApplied_standby {w : Wing} {f : RxFrame} (hrcv : w.receives = true) (hend : w.endable = some f.tick)
    (hrole : w.ctl.role = .standby) (hrx : w.psg.rx = [f]) :
    w.frameApplied.psg.ackValid = true ∧ w.frameApplied.psg.ack = f.tick ∧ w.frameApplied.psg.rx = [] := by
  have hwork := Wing.frameWork_acks (w := w.leftFrame f.tick) (by rw [show (w.leftFrame f.tick).ctl = w.ctl from rfl, hrole]; decide) f.tick
  rw [Wing.frameApplied_eq hrcv hend]
  generalize (w.leftFrame f.tick).frameWork f.tick = u at hwork
  obtain ⟨urx, -, -, urole⟩ := hwork
  have hack : (u.frameForce f.tick).acknowledge f.tick =
      { u.frameForce f.tick with psg := { u.psg with ackValid := true, ack := f.tick } } := by
    refine if_pos ?_
    rw [show (u.frameForce f.tick).ctl.role = .standby from urole.trans hrole]
    rfl
  have hend' := Wing.frameEnd_desk (w := (u.frameForce f.tick).acknowledge f.tick) (by
    rw [hack]
    show u.ctl.role ≠ .active
    rw [urole.trans hrole]
    decide) f.tick
  rw [hend'.1, hack]
  exact ⟨rfl, rfl, urx.trans (Wing.leftFrame_rx hrx)⟩

theorem Wing.frameApplied_joining {w : Wing} {f : RxFrame} (hrcv : w.receives = true) (hend : w.endable = some f.tick)
    (hrole : w.ctl.role = .joining) (hstay : w.ctl.withdrawAt ≠ some w.now) (hrx : w.psg.rx = [f]) :
    w.frameApplied.psg.ackValid = w.psg.ackValid ∧ w.frameApplied.psg.ack = w.psg.ack ∧ w.frameApplied.psg.rx = [] := by
  have hwork := Wing.frameWork_desk (w := w.leftFrame f.tick) hrole f.tick
  rw [Wing.frameApplied_eq hrcv hend]
  generalize (w.leftFrame f.tick).frameWork f.tick = u at hwork
  obtain ⟨upsg, uctl⟩ := hwork
  have uctl' : u.ctl = w.ctl := uctl
  have hack : (u.frameForce f.tick).acknowledge f.tick = u.frameForce f.tick := by
    refine if_neg ?_
    have hctl : (u.frameForce f.tick).ctl = w.ctl := uctl'
    simp only [Wing.now] at hstay ⊢
    simp [hctl, hrole, hstay]
  have hend' := Wing.frameEnd_desk (w := u.frameForce f.tick) (by
    show u.ctl.role ≠ .active
    rw [uctl', hrole]
    decide) f.tick
  have hpsg : (u.frameForce f.tick).psg = (w.leftFrame f.tick).psg := upsg
  rw [hack, hend'.1, hpsg]
  exact ⟨rfl, rfl, Wing.leftFrame_rx hrx⟩

/-- The only frame, whole and applied, ends in its turn. -/
theorem Wing.endable_of_done {w : Wing} {f : RxFrame} (hhold : w.psg.hold = []) (hrx : w.psg.rx = [f]) (hwhole : f.whole = true)
    (hrecs : f.recs = [])
    (hturn : w.ctl.role = .standby → w.pan.reloads = [] ∧ (w.psg.ackValid = true → f.tick = w.psg.ack + 1)) :
    w.endable = some f.tick := by
  have hstill : (w.psg.hold != [] || w.rebuilding) = false := by
    by_cases h : w.ctl.role = .standby
    · simp [hhold, Wing.rebuilding, (hturn h).1]
    · simp [hhold, Wing.rebuilding, h]
  have hnext : w.turnFrame = some f := by
    unfold Wing.turnFrame
    rw [hrx]
    refine Option.filter_eq_some_iff.2 ⟨rfl, ?_⟩
    by_cases h : w.ctl.role = .standby ∧ w.psg.ackValid = true
    · simp [(hturn h.1).2 h.2]
    · simp only [Bool.or_eq_true, Bool.not_eq_true', Bool.and_eq_false_imp, beq_iff_eq]
      exact Or.inl fun hr => by simpa using fun ha => h ⟨hr, ha⟩
  unfold Wing.endable
  rw [hstill, hnext]
  simp [hwhole, hrecs]

theorem Wing.frameApplied_stands {w : Wing} (h : w.receives = false ∨ w.endable = none) : w.frameApplied = w := by
  unfold Wing.frameApplied
  rcases h with h | h
  · simp [h]
  · rw [h]
    split <;> rfl

theorem stepsWing_frameApplied (s : State) (w : WingId) : StepsWing (.frameApplied w) s w Wing.frameApplied := stepsWing rfl

theorem stepsWing_tickClose (s : State) (w : WingId) (frame : Tick) (replayed : Bool) (r : CloseRec) :
    StepsWing (.tickClose w frame replayed r) s w fun v => v.tickClose frame replayed r := stepsWing rfl

end Sys2Proof.Machine

namespace Sys2Proof

open Machine

/-- Settles O44: TICK_CLOSE is `Wing.seeClaim` behind what it shows of the peer; FRAME_APPLIED acknowledges in a standby. -/
theorem framesTellOfThePeerAndAreAcknowledged : Obligations.FramesTellOfThePeerAndAreAcknowledged := by
  unfold Obligations.FramesTellOfThePeerAndAreAcknowledged
  refine ⟨fun s w frame replayed r => ⟨fun hruns => ?_, fun hruns => ?_⟩, fun s w => ⟨fun f hrcv hhold hrx hwhole hrecs =>
    ⟨fun hrole hreloads hturn => ?_, fun hrole hstay => ?_⟩, fun h => ?_, ?_⟩⟩
  · obtain ⟨t, ht, honly, hwing, -⟩ := stepsWing_tickClose s w frame replayed r
    refine ⟨t, ht, honly, ?_⟩
    rw [hwing]
    exact Wing.tickClose_spec (w := (s.wing w).silent) hruns frame replayed r
  · have hdeaf : (s.wing w).silent.passageRuns = false := hruns
    obtain ⟨t, ht, honly, -, hwing⟩ := (stepsWing_tickClose s w frame replayed r).stands (by simp [Wing.tickClose, hdeaf])
    exact ⟨t, ht, honly, hwing⟩
  · obtain ⟨t, ht, honly, hwing, -⟩ := stepsWing_frameApplied s w
    refine ⟨t, ht, honly, ?_⟩
    rw [hwing]
    exact Wing.frameApplied_standby (w := (s.wing w).silent) hrcv
      (Wing.endable_of_done (w := (s.wing w).silent) hhold hrx hwhole hrecs fun _ => ⟨hreloads, hturn⟩) hrole hrx
  · obtain ⟨t, ht, honly, hwing, -⟩ := stepsWing_frameApplied s w
    refine ⟨t, ht, honly, ?_⟩
    rw [hwing]
    exact Wing.frameApplied_joining (w := (s.wing w).silent) hrcv
      (Wing.endable_of_done (w := (s.wing w).silent) hhold hrx hwhole hrecs fun h => by cases hrole.symm.trans h) hrole hstay hrx
  · obtain ⟨t, ht, honly, -, hwing⟩ := (stepsWing_frameApplied s w).stands (Wing.frameApplied_stands (w := (s.wing w).silent) h)
    exact ⟨t, ht, honly, hwing⟩
  · exact (stepsWing (i := .nopRecord w) (s := s) (f := fun v => v) rfl).stands rfl

end Sys2Proof
end

section
/-! What the RESYNC records do in their turn (R70, R242, R246, R272). -/

namespace Sys2Proof.Machine

/-! ## The steps -/

theorem stepsWing_resyncCopy (s : State) (w : WingId) (r : CopyRec) : StepsWing (.resyncCopy w r) s w fun v => v.copyStep r :=
  stepsWing rfl

theorem stepsWing_resyncFetch (s : State) (w : WingId) (r : FetchRec) : StepsWing (.resyncFetch w r) s w fun v => v.fetchStep r :=
  stepsWing rfl

theorem stepsWing_resyncArrival (s : State) (w : WingId) (r : ArrivalRec) :
    StepsWing (.resyncArrival w r) s w fun v => v.arrivalStep r := stepsWing rfl

theorem stepsWing_resyncFill (s : State) (w : WingId) (r : FillRec) : StepsWing (.resyncFill w r) s w fun v => v.fillStep r :=
  stepsWing rfl

/-- A record whose turn it is not has no effect. -/
theorem Wing.resync_stands {w : Wing} :
    (∀ r, w.takeRec (.copy r) = none → w.silent.copyStep r = w.silent) ∧
    (∀ r, w.takeRec (.fetch r) = none → w.silent.fetchStep r = w.silent) ∧
    (∀ r, w.takeRec (.arrival r) = none → w.silent.arrivalStep r = w.silent) ∧
    (∀ r, w.takeRec (.fill r) = none → w.silent.fillStep r = w.silent) := by
  refine ⟨fun r h => ?_, fun r h => ?_, fun r h => ?_, fun r h => ?_⟩
  · simp only [Wing.copyStep, Wing.takeRec_silent_none h]
  · simp only [Wing.fetchStep, Wing.takeRec_silent_none h]
  · simp only [Wing.arrivalStep, Wing.takeRec_silent_none h]
  · simp only [Wing.fillStep, Wing.takeRec_silent_none h]

/-! ## COPY -/

/-- The recovery mark is all that `settleMark` may change. -/
theorem Wing.settleMark_keeps (w : Wing) :
    w.settleMark.ctl = { w.ctl with mark := w.settleMark.ctl.mark } ∧ w.settleMark.out = w.out ∧ w.settleMark.psg = w.psg := by
  unfold Wing.settleMark
  extract_lets begun left
  generalize (w.ctl.role == Role.joining && begun && !left) = c
  cases c <;> exact ⟨rfl, rfl, rfl⟩

theorem Wing.settleMark_of_standby {w : Wing} (h : w.ctl.role = .standby) : w.settleMark = w := by
  unfold Wing.settleMark
  simp [h]

/-- The first word of a walk. -/
theorem Wing.takeCopy_first {w : Wing} {f : Tick} {r : CopyRec} (hspace : r.space = 0) (hpos : r.pos = 0) :
    (w.takeCopy f r).ctl = { w.restartWalk.ctl with
        joinPos := some 1, tick := r.data.extractLsb' 0 56 + 2, hasTick := true, reconciled := r.data.getLsbD 63 } ∧
      (w.takeCopy f r).out = w.out := by
  have hindex : walkIndex r = 0 := by simp [walkIndex, hspace, hpos]
  have hnotEnd : ¬ 0 + 1 = walkEnd := by decide
  unfold Wing.takeCopy
  simp only [hindex, if_true]
  rw [if_pos (show w.restartWalk.ctl.joinPos = some 0 from rfl), if_neg hnotEnd]
  unfold Wing.loadCopy
  simp only [hspace, hpos]
  exact ⟨rfl, rfl⟩

/-! ## FETCH -/

/-- A list of RESYNC records goes behind those that wait. -/
theorem Wing.placeAll_resync (l : List Nat) (f : Nat → Rec) (hf : ∀ i, (f i).group = .independent) (w : Wing) :
    (l.foldl (fun w i => w.place (f i)) w).psg.rsy = w.psg.rsy ++ l.map f ∧
      (l.foldl (fun w i => w.place (f i)) w).out = w.out ∧ (l.foldl (fun w i => w.place (f i)) w).regs = w.regs := by
  induction l generalizing w with
  | nil => simp
  | cons i l ih =>
    obtain ⟨hrsy, hout, hregs⟩ := ih (w.place (f i))
    rw [List.foldl_cons]
    refine ⟨?_, hout.trans (by simp), hregs.trans (by simp)⟩
    rw [hrsy, Wing.place_psg, hf]
    simp

/-- The context that answers a FETCH: as it was installed last while that is not acknowledged, else as it stands. -/
theorem Wing.serveFetch_context {w : Wing} {key : Word} {n : Nat} {c : Ctx}
    (h : (∃ m, (w.pan.recent.filter fun e => e.2.2.key == key).getLast? = some (m, n, c)) ∨
      ((∀ e ∈ w.pan.recent, e.2.2.key ≠ key) ∧ ∃ sl, w.slotFor key = some (n, sl) ∧ sl.ctx = c)) :
    w.serveFetch { what := 1, origin := 0, seqOrKey := key } =
      (List.range 4).foldl (fun w i => w.place (.fill
        { part := BitVec.ofNat 8 i, bank := bankOf n, slot := slotOf n, key := key, data := c.copyWord w.now false i }))
        (w.count cPeerFill) := by
  unfold Wing.serveFetch
  rw [if_pos rfl]
  rcases h with ⟨m, hlast⟩ | ⟨hnone, sl, hslot, rfl⟩
  · rw [hlast]
  · have hempty : (w.pan.recent.filter fun e => e.2.2.key == key) = [] := by
      rw [List.filter_eq_nil_iff]
      exact fun e he => by simpa using hnone e he
    rw [hempty, hslot]
    rfl

/-- The tick stands while the parts go out, so each of them is the word of one context at one time. -/
theorem Wing.serveFetch_context_now {w : Wing} {key : Word} {n : Nat} {c : Ctx} (l : List Nat) :
    l.foldl (fun (w : Wing) i => w.place (.fill
        { part := BitVec.ofNat 8 i, bank := bankOf n, slot := slotOf n, key := key, data := c.copyWord w.now false i })) w =
      l.foldl (fun v i => v.place (.fill
        { part := BitVec.ofNat 8 i, bank := bankOf n, slot := slotOf n, key := key, data := c.copyWord w.now false i })) w := by
  suffices h : ∀ v : Wing, v.now = w.now → l.foldl (fun (w : Wing) i => w.place (.fill
        { part := BitVec.ofNat 8 i, bank := bankOf n, slot := slotOf n, key := key, data := c.copyWord w.now false i })) v =
      l.foldl (fun v i => v.place (.fill
        { part := BitVec.ofNat 8 i, bank := bankOf n, slot := slotOf n, key := key, data := c.copyWord w.now false i })) v from h w rfl
  induction l with
  | nil => exact fun _ _ => rfl
  | cons i l ih =>
    intro v hv
    rw [List.foldl_cons, List.foldl_cons, hv]
    exact ih _ (by simpa [Wing.now] using hv)

/-- The three parts of an arrival's content. -/
def Obs.part (o : Obs) (i : Nat) : DWord :=
  match i with
  | 0 => o.payload
  | 1 => o.jobTag ++ 0#7 ++ o.ctrl
  | _ => (o.reg.extractLsb' 0 32 : Word) ++ 0#8 ++ o.req ++ o.engStatus

theorem Wing.serveFetch_arrival {w : Wing} {r : FetchRec} {m : Tick} {o : Obs} (hwhat : r.what = 2)
    (hsent : w.vst.sentArr.find? (fun e => originWord e.2.cls e.2.num == r.origin && e.2.seq == r.seqOrKey) = some (m, o)) :
    w.serveFetch r = (List.range 3).foldl (fun w i => w.place (.arrival
      { part := BitVec.ofNat 8 i, origin := r.origin, seq := r.seqOrKey, data := o.part i })) w := by
  unfold Wing.serveFetch
  rw [if_neg (by rw [hwhat]; decide), if_pos hwhat, hsent]
  rfl

/-! ## Parts of content -/

theorem Wing.resumeHold_of_empty {w : Wing} (h : w.psg.hold = []) : w.resumeHold = w := by
  unfold Wing.resumeHold
  rw [h]
  split <;> rfl

/-- The contents of arrivals that the wing collects. -/
def Wing.setArrFills (w : Wing) (l : List ArrFill) : Wing := { w with psg := { w.psg with arrFills := l } }

theorem Wing.arrivalPart_asked {w : Wing} {r : ArrivalRec} {f : ArrFill} (hhold : w.psg.hold = []) (hfills : w.psg.arrFills = [f])
    (hasked : f.asked = true) (horigin : f.origin = r.origin) (hseq : f.seq = r.seq) :
    w.arrivalPart r = w.setArrFills [{ f with parts := SMap.insert f.parts r.part.toNat r.data }] := by
  unfold Wing.arrivalPart
  simp only [hfills, List.any_cons, List.any_nil, List.map_cons, List.map_nil, horigin, hseq, beq_self_eq_true, Bool.and_self,
    Bool.or_false, if_true, List.find?_cons, hasked]
  exact Wing.resumeHold_of_empty hhold

/-- A part of a context enters the fill that it belongs to. -/
def Wing.putFill (w : Wing) (r : FillRec) : Wing :=
  { w with psg := { w.psg with ctxFills := w.psg.ctxFills.map fun e =>
      if e.1 = r.key then (e.1, SMap.insert e.2 r.part.toNat r.data) else e } }

theorem Wing.putFill_one {w : Wing} {r : FillRec} {parts : SMap DWord} (h : w.psg.ctxFills = [(r.key, parts)]) :
    (w.putFill r).psg.ctxFills = [(r.key, SMap.insert parts r.part.toNat r.data)] := by
  simp [Wing.putFill, h]

/-- A context with no reload waiting has none to be put back. -/
theorem Wing.refillReload_of_none {w : Wing} (h : w.pan.reloads = []) (key : Word) : w.refillReload key = w := by
  unfold Wing.refillReload
  rw [h]
  rfl

theorem Wing.fillStep_standby {w v : Wing} {tk : Tick} {r : FillRec} (happ : w.appliesNow)
    (htake : w.takeRec (.fill r) = some (tk, v)) : w.silent.fillStep r = (w.taking v.psg.rx).putFill r := by
  obtain ⟨hrcv, hrole, hhold, hreloads⟩ := happ
  have hrcv' : (!w.silent.receives) = false := by rw [show w.silent.receives = true from hrcv]; rfl
  have hrole' : ((w.taking v.psg.rx).putFill r).ctl.role = .standby := hrole
  have hstep : w.silent.fillStep r = (if ((w.taking v.psg.rx).putFill r).ctl.role = .standby then
      ((w.taking v.psg.rx).putFill r).refillReload r.key else (w.taking v.psg.rx).putFill r).resumeHold := by
    unfold Wing.fillStep
    rw [Wing.takeRec_silent htake, hrcv']
    rfl
  rw [hstep, if_pos hrole', Wing.refillReload_of_none (w := (w.taking v.psg.rx).putFill r) hreloads,
    Wing.resumeHold_of_empty (w := (w.taking v.psg.rx).putFill r) hhold]

end Sys2Proof.Machine

namespace Sys2Proof

open Machine

/-- Settles O43: each record in its turn is `Wing.takeCopy`, `Wing.serveFetch`, or the part laid into the fill that it belongs to. -/
theorem resyncRecordsApply : Obligations.ResyncRecordsApply := by
  unfold Obligations.ResyncRecordsApply
  intro s w tk v
  refine ⟨fun r htake hrun hrole hspace hpos => ?_, fun key n c htake howns hctx => ?_, fun r m o htake howns hwhat hsent => ?_,
    fun r f htake happ hfills hasked horigin hseq => ?_, fun r parts htake happ hfills => ?_, fun i r hi hnone => ?_⟩
  · have hstep : (s.wing w).silent.copyStep r = (((s.wing w).taking v.psg.rx).takeCopy tk r).settleMark := by
      unfold Wing.copyStep
      rw [Wing.takeRec_silent htake]
      exact if_pos (by simp [hrun, hrole])
    obtain ⟨t, ht, honly, hwing, hout⟩ := (stepsWing_resyncCopy s w r).leaves hstep
    obtain ⟨hctl, hcout⟩ := Wing.takeCopy_first (w := (s.wing w).taking v.psg.rx) (f := tk) hspace hpos
    obtain ⟨hmark, hmout, -⟩ := (((s.wing w).taking v.psg.rx).takeCopy tk r).settleMark_keeps
    refine ⟨t, ht, honly, hout.trans (hmout.trans hcout), ?_⟩
    have hctl' : (t.wing w).ctl = _ := (congrArg Wing.ctl hwing).trans hmark
    rw [hctl', hctl]
    exact ⟨rfl, rfl, rfl, rfl⟩
  · have hstep : (s.wing w).silent.fetchStep { what := 1, origin := 0, seqOrKey := key } =
        ((s.wing w).taking v.psg.rx).serveFetch { what := 1, origin := 0, seqOrKey := key } := by
      unfold Wing.fetchStep
      rw [Wing.takeRec_silent htake]
      exact if_pos howns
    have hserve := Wing.serveFetch_context (w := (s.wing w).taking v.psg.rx) hctx
    have hparts := Wing.serveFetch_context_now (w := ((s.wing w).taking v.psg.rx).count cPeerFill) (key := key) (n := n) (c := c) (List.range 4)
    obtain ⟨t, ht, honly, hwing, hout⟩ := (stepsWing_resyncFetch s w _).leaves (hstep.trans (hserve.trans hparts))
    obtain ⟨hrsy, hpout, hregs⟩ := Wing.placeAll_resync (List.range 4) (fun i => .fill
      { part := BitVec.ofNat 8 i, bank := bankOf n, slot := slotOf n, key := key, data := c.copyWord (s.wing w).now false i })
      (fun _ => rfl) (((s.wing w).taking v.psg.rx).count cPeerFill)
    refine ⟨t, fun i => c.copyWord (s.wing w).now false i, fun i => rfl, ht, honly, hout.trans hpout, ?_, ?_⟩
    · rw [hwing]
      exact (congrArg (fun x : Regs => SMap.get x.ctr 0 cPeerFill) hregs).trans (Wing.ctr_count_self _ cPeerFill)
    · rw [hwing]
      exact hrsy
  · have hstep : (s.wing w).silent.fetchStep r = ((s.wing w).taking v.psg.rx).serveFetch r := by
      unfold Wing.fetchStep
      rw [Wing.takeRec_silent htake]
      exact if_pos howns
    obtain ⟨t, ht, honly, hwing, hout⟩ := (stepsWing_resyncFetch s w _).leaves (hstep.trans (Wing.serveFetch_arrival hwhat hsent))
    obtain ⟨hrsy, hpout, -⟩ := Wing.placeAll_resync (List.range 3) (fun i => .arrival
      { part := BitVec.ofNat 8 i, origin := r.origin, seq := r.seqOrKey, data := o.part i }) (fun _ => rfl)
      ((s.wing w).taking v.psg.rx)
    refine ⟨t, o.part, ht, honly, hout.trans hpout, rfl, ?_⟩
    rw [hwing]
    exact hrsy
  · have hstep : (s.wing w).silent.arrivalStep r = (((s.wing w).taking v.psg.rx).arrivalPart r).settleMark := by
      unfold Wing.arrivalStep
      rw [Wing.takeRec_silent htake]
      exact if_pos happ.1
    have hpart := Wing.arrivalPart_asked (w := (s.wing w).taking v.psg.rx) happ.2.2.1 hfills hasked horigin hseq
    rw [hpart, Wing.settleMark_of_standby (w := ((s.wing w).taking v.psg.rx).setArrFills _) happ.2.1] at hstep
    obtain ⟨t, ht, honly, hwing, hout⟩ := (stepsWing_resyncArrival s w r).leaves hstep
    refine ⟨t, ht, honly, hout, ?_⟩
    rw [hwing]
    rfl
  · obtain ⟨t, ht, honly, hwing, hout⟩ := (stepsWing_resyncFill s w r).leaves (Wing.fillStep_standby happ htake)
    refine ⟨t, ht, honly, hout, ?_⟩
    rw [hwing]
    exact Wing.putFill_one hfills
  · obtain ⟨hcopy, hfetch, harrival, hfill⟩ := (s.wing w).resync_stands
    rcases hi with ⟨c, rfl, rfl⟩ | ⟨c, rfl, rfl⟩ | ⟨c, rfl, rfl⟩ | ⟨c, rfl, rfl⟩
    · obtain ⟨t, ht, honly, -, hwing⟩ := (stepsWing_resyncCopy s w c).stands (hcopy c hnone)
      exact ⟨t, ht, honly, hwing⟩
    · obtain ⟨t, ht, honly, -, hwing⟩ := (stepsWing_resyncFetch s w c).stands (hfetch c hnone)
      exact ⟨t, ht, honly, hwing⟩
    · obtain ⟨t, ht, honly, -, hwing⟩ := (stepsWing_resyncArrival s w c).stands (harrival c hnone)
      exact ⟨t, ht, honly, hwing⟩
    · obtain ⟨t, ht, honly, -, hwing⟩ := (stepsWing_resyncFill s w c).stands (hfill c hnone)
      exact ⟨t, ht, honly, hwing⟩

end Sys2Proof
end

section
/-! What a record whose turn it is not leaves, and what ARRIVE does in its turn (R44, R57, R62, R215, R216, R234, R241, R242). -/

namespace Sys2Proof.Machine

/-! ## Records that wait for their turn -/

theorem record_idle {s : State} {w : WingId} {i : Instr} {r : Rec} (hi : i.recordOf = some (w, r))
    (hnone : (s.wing w).takeRec r = none) :
    ∃ t, exec i s = .next t ∧ s.onlyWing t w ∧ t.wing w = { s.wing w with out := [] } := by
  obtain ⟨t, ht, honly, -, hwing⟩ := (stepsWing_record hi s).stands (by
    simp only [Wing.recordStep, Wing.takeRec_silent_none hnone])
  exact ⟨t, ht, honly, hwing⟩

/-- A record behind others that wait, or while a standby rebuilds a context, waits with them. -/
theorem record_queues {s : State} {w : WingId} {i : Instr} {r : Rec} {tk : Tick} {v : Wing} (hi : i.recordOf = some (w, r))
    (htake : (s.wing w).takeRec r = some (tk, v)) (hrcv : (s.wing w).receives = true)
    (hwait : (s.wing w).psg.hold ≠ [] ∨ ((s.wing w).ctl.role = .standby ∧ (s.wing w).pan.reloads ≠ [])) :
    ∃ t, exec i s = .next t ∧ s.onlyWing t w ∧
      t.wing w = { v with psg := { v.psg with hold := v.psg.hold ++ [(tk, r)] }, out := [] } := by
  have hheld : (((s.wing w).taking v.psg.rx).psg.hold != [] || ((s.wing w).taking v.psg.rx).rebuilding) = true := by
    rcases hwait with h | ⟨hrole, hrel⟩
    · simp [Wing.taking, h]
    · simp [Wing.taking, Wing.rebuilding, hrole, hrel]
  have hv := Wing.takeRec_rx htake
  obtain ⟨t, ht, honly, hwing, -⟩ := (stepsWing_record hi s).leaves ((Wing.recordStep_turn htake hrcv).trans (if_pos hheld))
  refine ⟨t, ht, honly, hwing.trans ?_⟩
  rw [hv]
  rfl

/-! ## The content of an arrival -/

/-- Where the wing holds the record's own observation, or none of its sequence, no sequence is corrected. -/
theorem Wing.correctSeq_of_held {w : Wing} {r : ArriveRec}
    (h : ∀ o, w.heldAt (originIx r.cls r.num) r.seq = some o → o.chk = r.chk) : w.correctSeq r = w := by
  unfold Wing.correctSeq
  dsimp only
  split
  · next a b ha hb => exact if_neg fun hbad => hbad.2.1 (h a ha)
  · rfl

/-- The wing's own observation as it is delivered: with the tick of registration that the record gives. -/
def Obs.restored (o : Obs) (r : ArriveRec) : Obs := { o with reg := restoreReg r.regLo o.reg }

theorem Wing.contentFor_of_held {w : Wing} {t : Tick} {r : ArriveRec} {o : Obs}
    (h : w.heldAt (originIx r.cls r.num) r.seq = some o) (hchk : o.chk = r.chk) : w.contentFor t r = some (o.restored r) := by
  unfold Wing.contentFor Wing.ownObs
  rw [h]
  exact if_pos hchk

/-- The escalation kept for its arrival's record. -/
def Wing.keepEsc (w : Wing) (x : Option Obs) : Wing := { w with vst := { w.vst with escObs := x } }

/-- An escalation at a wing that holds the observation. -/
def Wing.arriveEsc (w : Wing) (t : Tick) (r : ArriveRec) (o : Obs) : Wing :=
  let w1 := (w.deliverEsc o r.key r.cause t).settleSeq r (r.cause != 0b10)
  if r.cause = 0b10 then (w1.dropFill r).keepEsc (some o) else w1.keepEsc none

/-- A discarded arrival. -/
def Wing.arriveDiscard (w : Wing) (r : ArriveRec) : Wing :=
  let w1 := ((w.keepEsc none).settleSeq r false).dropFill r
  if r.cause = dcFilter then w1.count cDupDrop else if r.cause = dcQuarantine then w1.count cQuarantined else w1

/-- An arrival that is delivered. -/
def Wing.arriveHere (w : Wing) (t : Tick) (r : ArriveRec) (o : Obs) : Wing :=
  (((w.deliver { o with key := r.key } t).keepEsc none).settleSeq r false).dropFill r

theorem Wing.applyArrive_of_held {w : Wing} {t : Tick} {r : ArriveRec} {o : Obs}
    (h : w.heldAt (originIx r.cls r.num) r.seq = some o) (hchk : o.chk = r.chk) (hkeep : ¬ (r.discard = true ∧ r.cause = dcSpillLost)) :
    w.applyArrive t r = some (if r.esc then w.arriveEsc t r (o.restored r) else if r.discard then w.arriveDiscard r
      else w.arriveHere t r (o.restored r)) := by
  have hcorrect : w.correctSeq r = w := Wing.correctSeq_of_held fun o' ho' => by
    rw [h] at ho'
    cases ho'
    exact hchk
  unfold Wing.applyArrive
  rw [if_neg hkeep, hcorrect]
  dsimp only
  rw [Wing.contentFor_of_held h hchk]
  dsimp only
  cases r.esc with
  | true =>
    unfold Wing.arriveEsc
    by_cases hc : r.cause = 0b10
    · simp only [hc, if_true]
      rfl
    · simp only [hc, if_true, if_false]
      rfl
  | false => cases r.discard <;> rfl

/-! ## Sequences and staging -/

/-- The observations of the record's origin up to its sequence; `strict` keeps the one of the sequence itself. -/
def upToArrival (r : ArriveRec) (strict : Bool) (o : Obs) : Bool :=
  originIx o.cls o.num == originIx r.cls r.num && serialLe o.seq r.seq && !(strict && o.seq == r.seq)

/-- What `settleSeq` leaves but for the count of a skew. -/
theorem Wing.settleSeq_spec (w : Wing) (r : ArriveRec) (strict : Bool) :
    (w.settleSeq r strict).pan = w.pan ∧ (w.settleSeq r strict).vst.staged = w.vst.staged.filter (fun o => !upToArrival r strict o) ∧
    ((w.settleSeq r strict).seqOf (originIx r.cls r.num) = r.seq ∨
      serialLe ((w.settleSeq r strict).seqOf (originIx r.cls r.num)) r.seq = false) ∧
    ∀ k, k ≠ cSkew → (w.settleSeq r strict).ctr k = w.ctr k := by
  unfold Wing.settleSeq
  extract_lets i q behind w0 part psg0 w1 w2
  have h1 : w1.pan = w.pan ∧ w1.vst.staged = w.vst.staged.filter (fun o => !upToArrival r strict o) ∧ w1.seqOf i = q ∧ w1.regs = w.regs :=
    ⟨rfl, rfl, rfl, rfl⟩
  have h2 : w2.pan = w1.pan ∧ w2.vst.staged = w1.vst.staged ∧ w2.regs = w1.regs ∧
      w2.seqOf i = if behind then r.seq else w1.seqOf i := by
    unfold w2
    cases behind with
    | true => exact ⟨rfl, rfl, rfl, SMap.get_set_self _ _ _ _⟩
    | false => exact ⟨rfl, rfl, rfl, rfl⟩
  obtain ⟨hpan, hstaged, hseq, hregs⟩ := h1
  obtain ⟨hpan2, hstaged2, hregs2, hseq2⟩ := h2
  have hend : ∀ n, (w2.countN cSkew n).pan = w2.pan ∧ (w2.countN cSkew n).vst = w2.vst ∧
      ∀ k, k ≠ cSkew → (w2.countN cSkew n).ctr k = w2.ctr k := fun n =>
    ⟨by simp, by simp, fun k hk => (w2.ctr_countN cSkew n k).trans (if_neg hk)⟩
  have hseq' : w2.seqOf i = r.seq ∨ serialLe (w2.seqOf i) r.seq = false := by
    rw [hseq2, hseq]
    by_cases hb : behind = true
    · exact Or.inl (if_pos hb)
    · rw [if_neg hb]
      by_cases hq : q = r.seq
      · exact Or.inl hq
      · exact Or.inr (by simpa [behind, hq] using hb)
  have hctr : ∀ k, w2.ctr k = w.ctr k := fun k => congrArg (fun x : Regs => SMap.get x.ctr 0 k) (hregs2.trans hregs)
  split
  · obtain ⟨epan, evst, ector⟩ := hend (r.seq - q).toNat
    refine ⟨epan.trans (hpan2.trans hpan), (congrArg (·.staged) evst).trans (hstaged2.trans hstaged), ?_, fun k hk =>
      (ector k hk).trans (hctr k)⟩
    unfold Wing.seqOf
    rw [evst]
    exact hseq'
  · exact ⟨hpan2.trans hpan, hstaged2.trans hstaged, hseq', fun k _ => hctr k⟩

/-- No staged observation of the origin up to the sequence is left. -/
theorem not_upToArrival {r : ArriveRec} {l : List Obs} {x : Obs} (hx : x ∈ l.filter fun o => !upToArrival r false o) :
    ¬ (originIx x.cls x.num = originIx r.cls r.num ∧ serialLe x.seq r.seq = true) := by
  rintro ⟨horigin, hseq⟩
  have := (List.mem_filter.1 hx).2
  simp [upToArrival, horigin, hseq] at this

theorem Wing.dropFill_spec (w : Wing) (r : ArriveRec) :
    (w.dropFill r).pan = w.pan ∧ (w.dropFill r).vst = w.vst ∧ ∀ k, k ≠ cArriveFill → (w.dropFill r).ctr k = w.ctr k := by
  unfold Wing.dropFill
  refine ⟨by simp, by simp, fun k hk => ?_⟩
  rw [Wing.ctr_countIf, if_neg fun h => hk h.2]
  rfl

/-! ## Delivery -/

/-- What an arrival makes of a context (R57, R62). -/
theorem Ctx.arrive_spec (c : Ctx) (t : Tick) (p : Option DWord) :
    (c.arrive t p).key = c.key ∧
    (c.arrive t p).state = (match c.state with
      | .idle => .pending
      | .active => .activePending
      | x => x) ∧
    (c.arrive t p).count = (if c.state = .idle ∨ c.state = .active then 1 else if c.count = 0xFFFF then 0xFFFF else c.count + 1) ∧
    (p = none → (c.arrive t p).payload = c.payload) ∧
    ∀ d, p = some d → (c.arrive t p).payload =
      if cfgKeepLast c.cfg = true ∨ c.state = .idle ∨ c.state = .active ∨ c.count = 0 ∨ c.gotNative = false then d else c.payload := by
  have hsat : satInc c.count = if c.count = 0xFFFF then 0xFFFF else c.count + 1 := by
    unfold satInc
    rw [show BitVec.allOnes 16 = 0xFFFF#16 from rfl]
    show (if c.count = 0xFFFF then c.count else c.count + 1) = _
    by_cases h : c.count = 0xFFFF
    · rw [if_pos h, if_pos h, h]
    · rw [if_neg h, if_neg h]
  cases hp : p with
  | none =>
    refine ⟨rfl, ?_, ?_, fun _ => rfl, fun d hd => nomatch hd⟩
    · unfold Ctx.arrive
      cases c.state <;> rfl
    · unfold Ctx.arrive
      cases c.state <;> simp [hsat]
  | some d =>
    have hkeep : (c.arrive t (some d)).key = c.key ∧ (c.arrive t (some d)).state = (c.arrive t none).state ∧
        (c.arrive t (some d)).count = (c.arrive t none).count := by
      unfold Ctx.arrive
      dsimp only
      split <;> exact ⟨rfl, rfl, rfl⟩
    obtain ⟨hkey, hstate, hcount⟩ := hkeep
    refine ⟨hkey, hstate.trans ?_, hcount.trans ?_, (fun h => nomatch h), fun d' hd => ?_⟩
    · unfold Ctx.arrive
      cases c.state <;> rfl
    · unfold Ctx.arrive
      cases c.state <;> simp [hsat]
    · cases hd
      have hcond : (cfgKeepLast c.cfg = true ∨ (c.state == .idle || c.state == .active || c.count == 0) = true ∨ (!c.gotNative) = true) ↔
          (cfgKeepLast c.cfg = true ∨ c.state = .idle ∨ c.state = .active ∨ c.count = 0 ∨ c.gotNative = false) := by
        simp [or_assoc]
      unfold Ctx.arrive
      dsimp only
      by_cases h : cfgKeepLast c.cfg = true ∨ c.state = .idle ∨ c.state = .active ∨ c.count = 0 ∨ c.gotNative = false
      · rw [if_pos (hcond.2 h), if_pos h]
      · rw [if_neg fun hc => h (hcond.1 hc), if_neg h]

theorem Wing.deliver_spec {w : Wing} {o : Obs} {t : Tick} {n : Nat} {sl : Slot} (hs : w.slotFor o.key = some (n, sl)) :
    (w.deliver o t).pan.slots = SMap.insert w.pan.slots n
      { sl with ctx := sl.ctx.changed (sl.ctx.arrive o.reg (if o.carries then some o.payload else none)) t } ∧
    (w.deliver o t).ctr cAdmitted = w.ctr cAdmitted + 1 := by
  unfold Wing.deliver
  rw [w.ctx?_of_slotFor hs]
  dsimp only
  have h1 := w.updCtx_slots o.key t (fun c => c.arrive o.reg (if o.carries then some o.payload else none)) hs
  have hregs1 : (w.updCtx o.key t fun c => c.arrive o.reg (if o.carries then some o.payload else none)).regs = w.regs := by simp
  generalize (w.updCtx o.key t fun c => c.arrive o.reg (if o.carries then some o.payload else none)) = w1 at h1 hregs1
  have h2 : (if ownsRecord o sl.ctx then w1.recordOrd (keySlice o.key) (w.arrivalRecord o) else w1).pan = w1.pan ∧
      (if ownsRecord o sl.ctx then w1.recordOrd (keySlice o.key) (w.arrivalRecord o) else w1).regs = w1.regs := by
    split <;> simp
  generalize (if ownsRecord o sl.ctx then w1.recordOrd (keySlice o.key) (w.arrivalRecord o) else w1) = w2 at h2
  have h3 : (if o.outcome then (w2.filterInsert (keySlice o.key) o.jobTag t).count cOutcomes else w2).pan = w2.pan ∧
      (if o.outcome then (w2.filterInsert (keySlice o.key) o.jobTag t).count cOutcomes else w2).ctr cAdmitted = w2.ctr cAdmitted := by
    split
    · refine ⟨by simp [Wing.filterInsert], ?_⟩
      rw [Wing.ctr_count_ne _ (by decide)]
      unfold Wing.filterInsert
      rw [Wing.ctr_countIf, if_neg fun h => absurd h.2 (by decide)]
      rfl
    · exact ⟨rfl, rfl⟩
  generalize (if o.outcome then (w2.filterInsert (keySlice o.key) o.jobTag t).count cOutcomes else w2) = w3 at h3
  have hpan : (w3.count cAdmitted).pan = w3.pan := by simp
  refine ⟨?_, ?_⟩
  · rw [hpan, h3.1, h2.1]
    exact h1
  · rw [Wing.ctr_count_self, h3.2]
    exact congrArg (fun x : Regs => SMap.get x.ctr 0 cAdmitted + 1) (h2.2.trans hregs1)

theorem Wing.deliverEsc_spec {w : Wing} {o : Obs} {key : Word} {fate : BitVec 2} {t : Tick} {n : Nat} {sl : Slot}
    (hs : w.slotFor key = some (n, sl)) :
    (w.deliverEsc o key fate t).pan.slots = SMap.insert w.pan.slots n
      { sl with ctx := sl.ctx.changed (sl.ctx.arrive o.reg (some (o.escPayload fate))) t } ∧
    (w.deliverEsc o key fate t).ctr cAdmitted = w.ctr cAdmitted + 1 ∧
    (w.deliverEsc o key fate t).ctr cEscalate = w.ctr cEscalate + 1 := by
  unfold Wing.deliverEsc
  extract_lets pay w1 per w2
  have h1 := w.updCtx_slots key t (fun c => c.arrive o.reg (some pay)) hs
  have hregs : (w.updCtx key t fun c => c.arrive o.reg (some pay)).regs = w.regs := by simp
  have hpan : w1.pan = (w.updCtx key t fun c => c.arrive o.reg (some pay)).pan := by simp [w1]
  have hctr : ∀ k, (w.updCtx key t fun c => c.arrive o.reg (some pay)).ctr k = w.ctr k := fun k =>
    congrArg (fun x : Regs => SMap.get x.ctr 0 k) hregs
  have hadmitted : w1.ctr cAdmitted = w.ctr cAdmitted + 1 := by
    rw [Wing.ctr_count_ne _ (by decide), Wing.ctr_count_self, hctr]
  have hescalate : w1.ctr cEscalate = w.ctr cEscalate + 1 := by
    rw [Wing.ctr_count_self, Wing.ctr_count_ne _ (by decide), hctr]
  have h2 : w2.pan = w1.pan ∧ w2.regs = w1.regs := by
    unfold w2
    split <;> simp
  exact ⟨(congrArg (·.slots) (h2.1.trans hpan)).trans h1,
    (congrArg (fun x : Regs => SMap.get x.ctr 0 cAdmitted) h2.2).trans hadmitted,
    (congrArg (fun x : Regs => SMap.get x.ctr 0 cEscalate) h2.2).trans hescalate⟩

/-! ## ARRIVE -/

/-- A delivered arrival: its vector counts it, and no staged observation of its origin is behind. -/
theorem Wing.arriveHere_spec {w : Wing} {t : Tick} {r : ArriveRec} {o : Obs} {n : Nat} {sl : Slot}
    (hs : w.slotFor r.key = some (n, sl)) :
    (w.arriveHere t r o).pan.slots = SMap.insert w.pan.slots n
      { sl with ctx := sl.ctx.changed (sl.ctx.arrive o.reg (if o.carries then some o.payload else none)) t } ∧
    ((w.arriveHere t r o).seqOf (originIx r.cls r.num) = r.seq ∨
      serialLe ((w.arriveHere t r o).seqOf (originIx r.cls r.num)) r.seq = false) ∧
    (∀ x ∈ (w.arriveHere t r o).vst.staged, ¬ (originIx x.cls x.num = originIx r.cls r.num ∧ serialLe x.seq r.seq = true)) ∧
    (w.arriveHere t r o).ctr cAdmitted = w.ctr cAdmitted + 1 := by
  obtain ⟨hslots, hadmitted⟩ := Wing.deliver_spec (o := { o with key := r.key }) (t := t) hs
  unfold Wing.arriveHere
  generalize w.deliver { o with key := r.key } t = u at hslots hadmitted
  obtain ⟨spanx, sstaged, sseq, sctr⟩ := (u.keepEsc none).settleSeq_spec r false
  generalize (u.keepEsc none).settleSeq r false = x at spanx sstaged sseq sctr
  obtain ⟨dpan, dvst, dctr⟩ := x.dropFill_spec r
  refine ⟨?_, ?_, fun y hy => ?_, ?_⟩
  · rw [dpan, spanx]
    exact hslots
  · unfold Wing.seqOf at sseq ⊢
    rw [dvst]
    exact sseq
  · rw [dvst, sstaged] at hy
    exact not_upToArrival hy
  · rw [dctr _ (by decide), sctr _ (by decide)]
    exact hadmitted

theorem Wing.arriveEsc_spec {w : Wing} {t : Tick} {r : ArriveRec} {o : Obs} {n : Nat} {sl : Slot}
    (hs : w.slotFor r.key = some (n, sl)) :
    (w.arriveEsc t r o).pan.slots = SMap.insert w.pan.slots n
      { sl with ctx := sl.ctx.changed (sl.ctx.arrive o.reg (some (o.escPayload r.cause))) t } ∧
    ((w.arriveEsc t r o).seqOf (originIx r.cls r.num) = r.seq ∨
      serialLe ((w.arriveEsc t r o).seqOf (originIx r.cls r.num)) r.seq = false) ∧
    (w.arriveEsc t r o).ctr cAdmitted = w.ctr cAdmitted + 1 ∧ (w.arriveEsc t r o).ctr cEscalate = w.ctr cEscalate + 1 := by
  obtain ⟨hslots, hadmitted, hescalate⟩ := Wing.deliverEsc_spec (o := o) (fate := r.cause) (t := t) hs
  unfold Wing.arriveEsc
  generalize w.deliverEsc o r.key r.cause t = u at hslots hadmitted hescalate
  obtain ⟨spanx, -, sseq, sctr⟩ := u.settleSeq_spec r (r.cause != 0b10)
  generalize u.settleSeq r (r.cause != 0b10) = x at spanx sseq sctr
  have hkept : ∀ y : Wing, (y.pan = x.pan ∧ y.vst.seqs = x.vst.seqs ∧ ∀ k, k ≠ cArriveFill → y.ctr k = x.ctr k) →
      y.pan.slots = SMap.insert w.pan.slots n
        { sl with ctx := sl.ctx.changed (sl.ctx.arrive o.reg (some (o.escPayload r.cause))) t } ∧
      (y.seqOf (originIx r.cls r.num) = r.seq ∨ serialLe (y.seqOf (originIx r.cls r.num)) r.seq = false) ∧
      y.ctr cAdmitted = w.ctr cAdmitted + 1 ∧ y.ctr cEscalate = w.ctr cEscalate + 1 := by
    rintro y ⟨ypan, yseqs, yctr⟩
    refine ⟨?_, ?_, ?_, ?_⟩
    · rw [ypan, spanx, hslots]
    · unfold Wing.seqOf at sseq ⊢
      rw [yseqs]
      exact sseq
    · rw [yctr _ (by decide), sctr _ (by decide), hadmitted]
    · rw [yctr _ (by decide), sctr _ (by decide), hescalate]
  dsimp only
  split
  · obtain ⟨dpan, dvst, dctr⟩ := x.dropFill_spec r
    exact hkept ((x.dropFill r).keepEsc _) ⟨dpan, congrArg (·.seqs) dvst, dctr⟩
  · exact hkept (x.keepEsc none) ⟨rfl, rfl, fun _ _ => rfl⟩

theorem Wing.arriveDiscard_spec (w : Wing) (r : ArriveRec) :
    (w.arriveDiscard r).pan = w.pan ∧
    (∀ x ∈ (w.arriveDiscard r).vst.staged, ¬ (originIx x.cls x.num = originIx r.cls r.num ∧ serialLe x.seq r.seq = true)) ∧
    (w.arriveDiscard r).ctr cAdmitted = w.ctr cAdmitted ∧
    (r.cause = dcFilter → (w.arriveDiscard r).ctr cDupDrop = w.ctr cDupDrop + 1) ∧
    (r.cause = dcQuarantine → (w.arriveDiscard r).ctr cQuarantined = w.ctr cQuarantined + 1) := by
  obtain ⟨spanx, sstaged, -, sctr⟩ := (w.keepEsc none).settleSeq_spec r false
  unfold Wing.arriveDiscard
  generalize (w.keepEsc none).settleSeq r false = x at spanx sstaged sctr
  obtain ⟨dpan, dvst, dctr⟩ := x.dropFill_spec r
  generalize x.dropFill r = y at dpan dvst dctr
  have hpan : y.pan = w.pan := dpan.trans spanx
  have hctr : ∀ k, k ≠ cArriveFill → k ≠ cSkew → y.ctr k = w.ctr k := fun k h1 h2 => (dctr k h1).trans (sctr k h2)
  have hstaged : ∀ o ∈ y.vst.staged, ¬ (originIx o.cls o.num = originIx r.cls r.num ∧ serialLe o.seq r.seq = true) := by
    intro o ho
    rw [dvst, sstaged] at ho
    exact not_upToArrival ho
  dsimp only
  by_cases hf : r.cause = dcFilter
  · rw [if_pos hf]
    refine ⟨by simpa using hpan, by simpa using hstaged, ?_, fun _ => ?_, fun hq => ?_⟩
    · rw [Wing.ctr_count_ne _ (by decide), hctr _ (by decide) (by decide)]
    · rw [Wing.ctr_count_self, hctr _ (by decide) (by decide)]
    · exact absurd (hf.symm.trans hq) (by decide)
  · rw [if_neg hf]
    by_cases hq : r.cause = dcQuarantine
    · rw [if_pos hq]
      refine ⟨by simpa using hpan, by simpa using hstaged, ?_, fun h => absurd h hf, fun _ => ?_⟩
      · rw [Wing.ctr_count_ne _ (by decide), hctr _ (by decide) (by decide)]
      · rw [Wing.ctr_count_self, hctr _ (by decide) (by decide)]
    · rw [if_neg hq]
      exact ⟨hpan, hstaged, hctr _ (by decide) (by decide), fun h => absurd h hf, fun h => absurd h hq⟩

theorem Wing.applyRec_arrive {w v : Wing} {t : Tick} {r : ArriveRec} (h : w.applyArrive t r = some v) :
    (w.noteOpen (.arrive r)).applyRec t (.arrive r) = (v, true) := by
  show w.applyRec t (.arrive r) = _
  unfold Wing.applyRec
  dsimp only
  rw [h]

theorem Ctx.changed_payload (a b : Ctx) (t : Tick) : (a.changed b t).payload = b.payload := (Ctx.changed_keeps a b t).2.2.2.2.2.1

/-! ## SPILL_LOST, and content that is missing -/

theorem Wing.applyArrive_lost {w : Wing} (t : Tick) {r : ArriveRec} (hdiscard : r.discard = true) (hcause : r.cause = dcSpillLost) :
    ∃ v, w.applyArrive t r = some v ∧ v.pan = w.pan ∧ v.ctr cSpillLost = w.ctr cSpillLost + 1 ∧ v.psg = w.psg := by
  have hpan : (w.dropOldest (keySlice r.key)).pan = w.pan := by simp
  have hregs : (w.dropOldest (keySlice r.key)).regs = w.regs := by simp
  have hpsg : (w.dropOldest (keySlice r.key)).psg = w.psg := by simp
  have hctr : ((w.dropOldest (keySlice r.key)).count cSpillLost).ctr cSpillLost = w.ctr cSpillLost + 1 := by
    rw [Wing.ctr_count_self]
    exact congrArg (fun x : Regs => SMap.get x.ctr 0 cSpillLost + 1) hregs
  unfold Wing.applyArrive
  rw [if_pos ⟨hdiscard, hcause⟩]
  refine ⟨_, rfl, ?_⟩
  split
  · exact ⟨by simp, hctr, by simp⟩
  · exact ⟨by simp [Wing.mirrorRecheckLost], hctr, by simp [Wing.mirrorRecheckLost]⟩

theorem Wing.applyArrive_missing {w : Wing} {t : Tick} {r : ArriveRec} (hkeep : r.discard = true → r.cause ≠ dcSpillLost)
    (hown : w.ownObs r = none)
    (hasked : ∀ f ∈ w.psg.arrFills, ¬ (f.asked = true ∧ f.origin = originWord r.cls r.num ∧ f.seq = r.seq)) :
    w.applyRec t (.arrive r) = (w.askArrival r, false) ∧ (w.askArrival r).pan = w.pan ∧
      (w.askArrival r).psg.rsy = w.psg.rsy ++ [.fetch { what := 2, origin := originWord r.cls r.num, seqOrKey := r.seq }] := by
  have hheld : w.heldAt (originIx r.cls r.num) r.seq = none := by
    unfold Wing.ownObs at hown
    split at hown
    · cases hown
    · assumption
  have hcorrect : w.correctSeq r = w := Wing.correctSeq_of_held fun o ho => by rw [hheld] at ho; cases ho
  have hnone : ∀ f ∈ w.psg.arrFills, (f.asked && f.origin == originWord r.cls r.num && f.seq == r.seq) = false := by
    intro f hf
    simpa [and_assoc] using hasked f hf
  have hfilled : w.filled t r = none := by
    unfold Wing.filled
    rw [List.find?_eq_none.2 fun f hf => by simp [hnone f hf]]
    rfl
  have happly : w.applyArrive t r = none := by
    unfold Wing.applyArrive
    rw [if_neg fun h => hkeep h.1 h.2, hcorrect]
    dsimp only
    rw [Wing.contentFor, hown]
    dsimp only
    rw [hfilled]
  have hany : (w.psg.arrFills.any fun f => f.asked && f.origin == originWord r.cls r.num && f.seq == r.seq) = false := by
    rw [List.any_eq_false]
    exact fun f hf => by simp [hnone f hf]
  refine ⟨?_, ?_, ?_⟩
  · unfold Wing.applyRec
    dsimp only
    rw [happly]
    dsimp only
    rw [hcorrect]
  · unfold Wing.askArrival
    simp only [hany]
    simp
  · unfold Wing.askArrival
    simp only [hany]
    simp [Wing.place_psg, Rec.group]

end Sys2Proof.Machine

namespace Sys2Proof

open Machine

/-- Settles O37: a record of another turn is idle, one behind others waits, and ARRIVE is `Wing.arriveHere`, `Wing.arriveEsc`,
`Wing.arriveDiscard`, or a request of its content. -/
theorem arriveRecordsDeliverOnce : Obligations.ArriveRecordsDeliverOnce := by
  unfold Obligations.ArriveRecordsDeliverOnce
  refine ⟨fun s w i r hi => ⟨record_idle hi, fun tk v htake hrcv hwait => record_queues hi htake hrcv hwait⟩,
    fun s w r tk v happ htake => ⟨fun o n sl hheld hchk hdis hs => ?_, fun o hheld hchk hdis hesc hcause => ?_,
      fun hdis hcause => ?_, fun hkeep hown hasked => ?_⟩⟩
  · obtain ⟨rx, hleaves⟩ := record_applies (i := .arrive w r) rfl happ htake
    obtain ⟨t, ht, honly, hwing, -⟩ := hleaves _ (Wing.applyRec_arrive
      (Wing.applyArrive_of_held (w := (s.wing w).taking rx) (t := tk) hheld hchk (by simp [hdis])))
    cases hesc : r.esc with
    | true =>
      rw [hesc, if_pos rfl] at hwing
      obtain ⟨hslots, hseq, hadmitted, hescalate⟩ :=
        Wing.arriveEsc_spec (w := (s.wing w).taking rx) (t := tk) (r := r) (o := o.restored r) hs
      obtain ⟨hkey, hstate, hcount, -, hpay⟩ := sl.ctx.arrive_spec (o.restored r).reg (some ((o.restored r).escPayload r.cause))
      refine ⟨t, _, ht, honly, by rw [hwing]; exact hslots, ?_, ?_, ?_, by rw [hwing]; exact hseq, (fun h => nomatch h),
        (fun h => nomatch h), fun _ => ?_, fun _ => by rw [hwing]; exact hescalate, by rw [hwing]; exact hadmitted⟩
      · rw [(Ctx.changed_keeps _ _ _).1, hkey]
      · refine (Ctx.changed_keeps _ _ _).2.1.trans (hstate.trans ?_)
        cases sl.ctx.state <;> rfl
      · rw [(Ctx.changed_keeps _ _ _).2.2.1, hcount]
      · rw [Ctx.changed_payload, hpay _ rfl]
        rfl
    | false =>
      rw [hesc, hdis] at hwing
      obtain ⟨hslots, hseq, hstaged, hadmitted⟩ :=
        Wing.arriveHere_spec (w := (s.wing w).taking rx) (t := tk) (r := r) (o := o.restored r) hs
      obtain ⟨hkey, hstate, hcount, hnone, hpay⟩ :=
        sl.ctx.arrive_spec (o.restored r).reg (if o.carries then some o.payload else none)
      refine ⟨t, _, ht, honly, by rw [hwing]; exact hslots, ?_, ?_, ?_, by rw [hwing]; exact hseq, fun _ => by rw [hwing]; exact hstaged,
        fun _ hno => ?_, fun hyes => ?_, (fun h => nomatch h), by rw [hwing]; exact hadmitted⟩
      · rw [(Ctx.changed_keeps _ _ _).1]
        exact hkey
      · rw [(Ctx.changed_keeps _ _ _).2.1]
        refine hstate.trans ?_
        cases sl.ctx.state <;> rfl
      · rw [(Ctx.changed_keeps _ _ _).2.2.1]
        exact hcount
      · rw [Ctx.changed_payload]
        exact hnone (by simp [hno])
      · have hcarries : o.carries = true := by simpa using hyes
        rw [Ctx.changed_payload]
        exact hpay _ (if_pos hcarries)
  · obtain ⟨rx, hleaves⟩ := record_applies (i := .arrive w r) rfl happ htake
    obtain ⟨t, ht, honly, hwing, -⟩ := hleaves _ (Wing.applyRec_arrive
      (Wing.applyArrive_of_held (w := (s.wing w).taking rx) (t := tk) hheld hchk fun h => hcause h.2))
    rw [hesc, hdis] at hwing
    obtain ⟨hpan, hstaged, hadmitted, hfilter, hquar⟩ := ((s.wing w).taking rx).arriveDiscard_spec r
    refine ⟨t, ht, honly, ?_⟩
    rw [hwing]
    exact ⟨congrArg (·.slots) hpan, hstaged, hadmitted, hfilter, hquar⟩
  · obtain ⟨rx, hleaves⟩ := record_applies (i := .arrive w r) rfl happ htake
    obtain ⟨x, hx, hpan, hctr, hpsg⟩ := Wing.applyArrive_lost (w := (s.wing w).taking rx) tk hdis hcause
    obtain ⟨t, ht, honly, hwing, -⟩ := hleaves _ (Wing.applyRec_arrive hx)
    refine ⟨t, ht, honly, ?_⟩
    rw [hwing]
    exact ⟨congrArg (·.slots) hpan, hctr, (congrArg (·.hold) hpsg).trans happ.2.2.1⟩
  · obtain ⟨rx, hleaves⟩ := record_waits (i := .arrive w r) rfl happ htake
    obtain ⟨hrec, hpan, hrsy⟩ := Wing.applyArrive_missing (w := (s.wing w).taking rx) (t := tk) hkeep hown hasked
    obtain ⟨t, ht, honly, hwing⟩ := hleaves _ hrec
    refine ⟨t, ht, honly, ?_, ?_, ?_⟩
    · rw [hwing]
      exact congrArg (·.slots) hpan
    · rw [hwing]
    · rw [hwing]
      exact hrsy

end Sys2Proof
end

section
/-! A command and its completion at a standby: CFG_CMD, CFG_CMD_EXT, CFG_FINISH and CFG_PARAM (R160, R162, R244). -/

namespace Sys2Proof.Machine

/-! ## What a command leaves of the rings -/

/-- The effect of a vector command is on the vectors. -/
@[simp] theorem Wing.vecEffect_rings (w : Wing) (op : Byte) (key : Word) (operand : DWord) (t : Tick) :
    (w.vecEffect op key operand t).1.sl = w.sl ∧ (w.vecEffect op key operand t).1.ring = w.ring ∧
      (w.vecEffect op key operand t).1.ctl = w.ctl := by
  unfold Wing.vecEffect
  cases w.ctx? key with
  | none =>
    dsimp only
    (repeat' split) <;> exact ⟨rfl, rfl, rfl⟩
  | some c =>
    dsimp only
    (repeat' split) <;> simp

/-- The positions and the unfinished commands of a ring. -/
def SliceSt.ringState (v : SliceSt) : Word × Word × List UCmd := (v.cmdHead, v.cmdFinished, v.ucmds)

/-- An admission moves no ring's positions, and no unfinished command. -/
theorem Wing.admitState_ringState (w : Wing) (op : Byte) (s x : BitVec 12) (t : Tick) :
    ((w.admitState op s t).slice x).ringState = (w.slice x).ringState ∧ (w.admitState op s t).ring = w.ring := by
  have hmod : ∀ f : SliceSt → SliceSt, (∀ v, (f v).ringState = v.ringState) →
      ((w.modSlice s f).slice x).ringState = (w.slice x).ringState ∧ (w.modSlice s f).ring = w.ring := fun f hf => by
    refine ⟨?_, by simp⟩
    by_cases hx : x = s
    · rw [hx, Wing.slice_modSlice_self, hf]
    · rw [Wing.slice_modSlice_ne _ _ hx]
  unfold Wing.admitState
  split
  · exact hmod _ fun _ => rfl
  · split
    · exact hmod _ fun _ => rfl
    · split
      · obtain ⟨hstate, hring⟩ := hmod (fun v => { v with state := .running, stopTick := 0, drainTimeout := false }) fun _ => rfl
        exact ⟨hstate, hring⟩
      · split
        · exact hmod _ fun _ => rfl
        · split
          · exact hmod _ fun _ => rfl
          · exact ⟨rfl, rfl⟩

theorem Wing.postLetter_ringState (w : Wing) (s x : BitVec 12) (d : DWord) :
    ((w.postLetter s d).slice x).ringState = (w.slice x).ringState ∧ (w.postLetter s d).ring = w.ring := by
  refine ⟨?_, by simp⟩
  unfold Wing.postLetter
  by_cases hx : x = s
  · rw [hx, Wing.slice_modSlice_self]
    rfl
  · rw [Wing.slice_modSlice_ne _ _ hx]

theorem recOutcome_cmdRecord (w : Wing) (ring : BitVec 12) (op : Byte) (target : Word) (result : Byte) (r : Report) (cookie : DWord)
    (t : Tick) : recOutcome (w.cmdRecord ring op target result r cookie t) = if result = 0 then 0x8 else 0x9 := by
  unfold Wing.cmdRecord
  dsimp only
  rw [recOutcome_eventRecord]
  rfl

/-! ## CFG_CMD_EXT -/

/-- The ring moves past the command's position. -/
def Wing.passCommand (w : Wing) (x : CmdExtRec) : Wing :=
  w.modSlice x.ring fun v => { v with cmdHead := x.pos + 1, descs := v.descs.filter (·.1 != x.pos) }

/-- The command as it stands unfinished. -/
def longCommand (t : Tick) (c : CmdRec) (x : CmdExtRec) (op2 : DWord) : UCmd :=
  { pos := x.pos, opcode := c.opcode, target := c.target, operand := c.operand, operand2 := op2
    cookie := x.data, at_ := t, applied := false }

theorem Wing.applyCommand_long {w : Wing} {t : Tick} {c : CmdRec} {x : CmdExtRec} {op2 : DWord} (h : c.long = true) :
    ((w.applyCommand t c x op2).slice x.ring).ringState =
        (x.pos + 1, (w.slice x.ring).cmdFinished, (w.slice x.ring).ucmds ++ [longCommand t c x op2]) ∧
      (w.applyCommand t c x op2).ring = w.ring := by
  unfold Wing.applyCommand
  rw [h]
  dsimp only
  rw [if_pos rfl]
  obtain ⟨hstate, hring⟩ := ((w.passCommand x).modSlice x.ring fun v => { v with ucmds := v.ucmds ++ [longCommand t c x op2] }).admitState_ringState
    c.opcode (cmdSlice x.ring c.target) x.ring t
  refine ⟨hstate.trans ?_, hring.trans (by simp [Wing.passCommand])⟩
  rw [Wing.slice_modSlice_self]
  simp [SliceSt.ringState, Wing.passCommand]

theorem Wing.applyCommand_short {w : Wing} {t : Tick} {c : CmdRec} {x : CmdExtRec} {op2 : DWord} (h : c.long = false) :
    ((w.applyCommand t c x op2).slice x.ring).cmdHead = x.pos + 1 ∧
    ((w.applyCommand t c x op2).slice x.ring).cmdFinished = (w.slice x.ring).cmdFinished + 1 ∧
    ∃ r, (w.applyCommand t c x op2).ring = { w.ring with recsDef := w.ring.recsDef ++ [(x.ring, r)] } ∧
      recOutcome r = if c.result = 0 then 0x8 else 0x9 := by
  unfold Wing.applyCommand
  rw [h]
  extract_lets ring key s w1 u halt e w2 w3
  have h1 : (w1.slice ring).ringState = (x.pos + 1, (w.slice ring).cmdFinished, (w.slice ring).ucmds) ∧ w1.ring = w.ring :=
    ⟨by rw [show w1 = w.passCommand x from rfl, Wing.passCommand, Wing.slice_modSlice_self]; rfl, by simp [w1]⟩
  have he : (e.1.slice ring).ringState = (w1.slice ring).ringState ∧ e.1.ring = w1.ring := by
    unfold e
    split
    · obtain ⟨hsl, hring, -⟩ := w1.vecEffect_rings c.opcode key c.operand t
      exact ⟨by rw [Wing.slice, hsl]; rfl, hring⟩
    · exact ⟨rfl, rfl⟩
  have h2 : (w2.slice ring).ringState = (e.1.slice ring).ringState ∧ w2.ring = e.1.ring := by
    unfold w2
    split
    · exact e.1.postLetter_ringState s ring c.operand
    · exact ⟨rfl, rfl⟩
  have h3 : (w3.slice ring).ringState = (w2.slice ring).ringState ∧ w3.ring = w2.ring := by
    unfold w3
    split
    · exact w2.admitState_ringState c.opcode s ring t
    · exact ⟨rfl, rfl⟩
  have hstate := h3.1.trans (h2.1.trans (he.1.trans h1.1))
  have hring := h3.2.trans (h2.2.trans (he.2.trans h1.2))
  have hhead : (w3.slice ring).cmdHead = x.pos + 1 := congrArg (·.1) hstate
  have hfinished : (w3.slice ring).cmdFinished = (w.slice ring).cmdFinished := congrArg (·.2.1) hstate
  clear_value w3
  simp only [Bool.false_eq_true, if_false]
  rw [Wing.slice_recordDef, Wing.slice_modSlice_self]
  refine ⟨hhead, by rw [hfinished], w3.cmdRecord ring c.opcode c.target c.result e.2 x.data t, ?_, recOutcome_cmdRecord _ _ _ _ _ _ _ _⟩
  rw [Wing.recordDef, show (w3.modSlice ring fun v => { v with
    cmdFinished := v.cmdFinished + 1, ringHalt := v.ringHalt || halt }).ring = w.ring by simp [hring]]

/-- A command that is whole leaves the buffers, and is applied. -/
theorem Wing.applyCmdExt_whole {w : Wing} {t : Tick} {c : CmdRec} {x : CmdExtRec} (hcmd : w.ring.cmdBuf = some c)
    (hext : w.ring.extBuf = none) (hn : c.nExt.toNat ≤ 1) (hrole : w.ctl.role ≠ .active) :
    w.applyCmdExt t x =
      ({ w with ring := { w.ring with cmdBuf := none, extBuf := none } } : Wing).applyCommand t c x 0 := by
  unfold Wing.applyCmdExt
  rw [hcmd, hext]
  dsimp only
  rw [if_pos hn, Wing.commandDone, if_neg hrole]

theorem Wing.applyCmdExt_waits {w : Wing} {t : Tick} {c : CmdRec} {x : CmdExtRec} (hcmd : w.ring.cmdBuf = some c)
    (hext : w.ring.extBuf = none) (hn : 2 ≤ c.nExt.toNat) :
    w.applyCmdExt t x = { w with ring := { w.ring with extBuf := some x } } := by
  unfold Wing.applyCmdExt
  rw [hcmd, hext]
  dsimp only
  rw [if_neg (by omega)]

/-! ## CFG_FINISH -/

/-- The finish of a command that is none of a slice's changes no slice. -/
theorem Wing.finishState_of_other {w : Wing} {op : Byte} (h : isSliceOp op = false) (s : BitVec 12) (result : Byte)
    (param : BitVec 1024) (t : Tick) : w.finishState op s result param t = w := by
  have hne : ∀ o : Byte, isSliceOp o = true → op ≠ o := fun o ho e => by rw [e, ho] at h; cases h
  have hcreate := hne opCreate rfl
  have hshare := hne opShare rfl
  have hquiesce := hne opQuiesce rfl
  have hreset := hne opReset rfl
  have hremove := hne opRemove rfl
  unfold Wing.finishState
  simp [h, hcreate, hshare, hquiesce, hreset, hremove]

theorem Wing.applyFinish_other {w : Wing} {t : Tick} {f : FinishRec} {param : BitVec 1024} {u : UCmd} (hrole : w.ctl.role ≠ .active)
    (hu : w.ucmdFor f.ring f.pos = some u) (hop : isSliceOp u.opcode = false) :
    ((w.applyFinish t f param).slice f.ring).cmdFinished = (w.slice f.ring).cmdFinished + 1 ∧
    ((w.applyFinish t f param).slice f.ring).ucmds = (w.slice f.ring).ucmds.filter (fun x => x.pos != u.pos) ∧
    ∃ r, (w.applyFinish t f param).ring.recsDef = w.ring.recsDef ++ [(f.ring, r)] ∧
      recOutcome r = if f.result = 0 then 0x8 else 0x9 := by
  have hown : (w.ctl.role == Role.active) = false := by simpa using hrole
  unfold Wing.applyFinish
  rw [hu, hown]
  simp only [Bool.false_eq_true, if_false]
  rw [Wing.finishState_of_other hop]
  have h1 : ((w.modSlice f.ring fun v => { v with
      ucmds := v.ucmds.filter (·.pos != u.pos), cmdFinished := v.cmdFinished + 1 }).slice f.ring) =
      { w.slice f.ring with
        ucmds := (w.slice f.ring).ucmds.filter (·.pos != u.pos), cmdFinished := (w.slice f.ring).cmdFinished + 1 } :=
    Wing.slice_modSlice_self _ _ _
  have hring1 : (w.modSlice f.ring fun v => { v with
      ucmds := v.ucmds.filter (·.pos != u.pos), cmdFinished := v.cmdFinished + 1 }).ring = w.ring := by simp
  generalize (w.modSlice f.ring fun v => { v with
      ucmds := v.ucmds.filter (·.pos != u.pos), cmdFinished := v.cmdFinished + 1 }) = w1 at h1 hring1
  have h2 : (if f.result = 0 ∧ isVecOp u.opcode = true ∧ (!u.applied) = true then
        (w1.vecEffect u.opcode (cmdKey f.ring u.target) u.operand t).1 else w1).sl = w1.sl ∧
      (if f.result = 0 ∧ isVecOp u.opcode = true ∧ (!u.applied) = true then
        (w1.vecEffect u.opcode (cmdKey f.ring u.target) u.operand t).1 else w1).ring = w1.ring := by
    split
    · obtain ⟨hsl, hring, -⟩ := w1.vecEffect_rings u.opcode (cmdKey f.ring u.target) u.operand t
      exact ⟨hsl, hring⟩
    · exact ⟨rfl, rfl⟩
  generalize (if f.result = 0 ∧ isVecOp u.opcode = true ∧ (!u.applied) = true then
        (w1.vecEffect u.opcode (cmdKey f.ring u.target) u.operand t).1 else w1) = w2 at h2
  have hslice : w2.slice f.ring = w1.slice f.ring := by rw [Wing.slice, h2.1]; rfl
  rw [Wing.slice_recordDef, hslice, h1]
  exact ⟨rfl, rfl, _, congrArg (fun r : RingEng => r.recsDef ++ [_]) (h2.2.trans hring1), recOutcome_cmdRecord _ _ _ _ _ _ _ _⟩

/-! ## CFG_PARAM -/

/-- A word of a parameter block waits for the others. -/
theorem Wing.applyParam_waits {w : Wing} {t : Tick} {f : FinishRec} {p : ParamRec} (hfin : w.ring.finBuf = some f)
    (hlen : (SMap.insert w.ring.params p.off.toNat p.data).length < f.nParam.toNat) :
    w.applyParam t p = { w with ring := { w.ring with params := SMap.insert w.ring.params p.off.toNat p.data } } := by
  unfold Wing.applyParam
  rw [hfin]
  exact if_neg (by omega)

end Sys2Proof.Machine

namespace Sys2Proof

open Machine

/-- Settles O42: the buffers fill, and the whole command is `Wing.applyCommand`, the whole finish `Wing.applyFinish`. -/
theorem commandRecordsApply : Obligations.CommandRecordsApply := by
  unfold Obligations.CommandRecordsApply
  intro s w tk v happ
  have hrole : (s.wing w).ctl.role ≠ .active := by rw [happ.2.1]; decide
  refine ⟨fun c htake => ?_, fun c x htake hcmd hext => ⟨fun hn => ?_, fun hn => ?_⟩, fun f htake => ⟨fun hn => ?_, fun u hn hu hop => ?_⟩,
    fun f p htake hfin hlen => ?_⟩
  · obtain ⟨rx, hleaves⟩ := record_applies (i := .cfgCmd w c) rfl happ htake
    obtain ⟨t, ht, honly, hwing, hout⟩ := hleaves _ rfl
    refine ⟨t, ht, honly, hout, ?_⟩
    rw [hwing]
    exact ⟨rfl, rfl⟩
  · obtain ⟨rx, hleaves⟩ := record_applies (i := .cfgCmdExt w x) rfl happ htake
    obtain ⟨t, ht, honly, hwing, -⟩ := hleaves (((s.wing w).taking rx).applyCmdExt tk x) rfl
    rw [Wing.applyCmdExt_waits (w := (s.wing w).taking rx) hcmd hext hn] at hwing
    refine ⟨t, ht, honly, ?_⟩
    rw [hwing]
    exact ⟨hcmd, rfl, rfl⟩
  · obtain ⟨rx, hleaves⟩ := record_applies (i := .cfgCmdExt w x) rfl happ htake
    obtain ⟨t, ht, honly, hwing, -⟩ := hleaves (((s.wing w).taking rx).applyCmdExt tk x) rfl
    rw [Wing.applyCmdExt_whole (w := (s.wing w).taking rx) hcmd hext hn hrole] at hwing
    generalize hu : ({ (s.wing w).taking rx with
      ring := { ((s.wing w).taking rx).ring with cmdBuf := none, extBuf := none } } : Wing) = u at hwing
    have hslice : u.slice x.ring = (s.wing w).slice x.ring := by rw [← hu]; rfl
    have hbuf : u.ring.cmdBuf = none ∧ u.ring.recsDef = (s.wing w).ring.recsDef := by rw [← hu]; exact ⟨rfl, rfl⟩
    cases hlong : c.long with
    | true =>
      obtain ⟨hstate, hring⟩ := Wing.applyCommand_long (w := u) (t := tk) (x := x) (op2 := 0) hlong
      refine ⟨t, ht, honly, ?_, ?_, fun _ => ⟨longCommand tk c x 0, ?_, rfl, rfl, rfl, rfl⟩, (fun h => nomatch h)⟩
      · rw [hwing]
        exact (congrArg (·.cmdBuf) hring).trans hbuf.1
      · rw [hwing]
        exact congrArg (·.1) hstate
      · rw [hwing, ← hslice]
        exact congrArg (·.2.2) hstate
    | false =>
      obtain ⟨hhead, hfinished, r, hring, hr⟩ := Wing.applyCommand_short (w := u) (t := tk) (x := x) (op2 := 0) hlong
      refine ⟨t, ht, honly, ?_, ?_, (fun h => nomatch h), fun _ => ⟨?_, r, ?_, hr⟩⟩
      · rw [hwing]
        exact (congrArg (·.cmdBuf) hring).trans hbuf.1
      · rw [hwing]
        exact hhead
      · rw [hwing, ← hslice]
        exact hfinished
      · rw [hwing, ← hbuf.2]
        exact congrArg (·.recsDef) hring
  · obtain ⟨rx, hleaves⟩ := record_applies (i := .cfgFinish w f) rfl happ htake
    obtain ⟨t, ht, honly, hwing, hout⟩ := hleaves (((s.wing w).taking rx).applyFinishRec tk f) rfl
    rw [Wing.applyFinishRec, if_neg hn] at hwing hout
    refine ⟨t, ht, honly, hout, ?_⟩
    rw [hwing]
    exact ⟨rfl, rfl, rfl⟩
  · obtain ⟨rx, hleaves⟩ := record_applies (i := .cfgFinish w f) rfl happ htake
    obtain ⟨t, ht, honly, hwing, -⟩ := hleaves (((s.wing w).taking rx).applyFinishRec tk f) rfl
    rw [Wing.applyFinishRec, if_pos hn] at hwing
    obtain ⟨hfinished, hucmds, r, hrecs, hr⟩ := Wing.applyFinish_other (w := (s.wing w).taking rx) (t := tk) (param := 0) hrole hu hop
    refine ⟨t, r, ht, honly, ?_⟩
    rw [hwing]
    exact ⟨hfinished, hucmds, hrecs, hr⟩
  · obtain ⟨rx, hleaves⟩ := record_applies (i := .cfgParam w p) rfl happ htake
    obtain ⟨t, ht, honly, hwing, hout⟩ := hleaves (((s.wing w).taking rx).applyParam tk p) rfl
    rw [Wing.applyParam_waits (w := (s.wing w).taking rx) hfin hlen] at hwing hout
    refine ⟨t, ht, honly, hout, ?_⟩
    rw [hwing]
    exact ⟨rfl, hfin⟩

end Sys2Proof
end

section
/-! Voted reads and ECC errors, counted and logged (R337, R338, R340, R341). -/

namespace Sys2Proof.Machine

/-! ## What stands once an error is noted -/

/-- What the reads of voted fields and of the arrays log and count stands. -/
@[simp] abbrev Wing.SameFound (v w : Wing) : Prop :=
  v.int.eccUncorr = w.int.eccUncorr ∧ v.int.eccLog = w.int.eccLog ∧ v.int.voteLog = w.int.voteLog ∧
    v.int.voteSplit = w.int.voteSplit ∧ v.ctr cEccUncorr = w.ctr cEccUncorr ∧ v.ctr cEccCorr = w.ctr cEccCorr ∧
    v.ctr cVoteSplit = w.ctr cVoteSplit

theorem Wing.SameFound.trans {u v w : Wing} (h : u.SameFound v) (h' : v.SameFound w) : u.SameFound w := by
  obtain ⟨a, b, c, d, e, f, g⟩ := h
  obtain ⟨a', b', c', d', e', f', g'⟩ := h'
  exact ⟨a.trans a', b.trans b', c.trans c', d.trans d', e.trans e', f.trans f', g.trans g'⟩

theorem Wing.found_of_eq {v w : Wing} (hint : v.int = w.int) (hregs : v.regs = w.regs) : v.SameFound w := by
  simp [Wing.ctr, hint, hregs]

theorem Wing.SameFound.foldl {α : Type} (f : Wing → α → Wing) (l : List α) (w : Wing) (h : ∀ v a, (f v a).SameFound v) :
    (l.foldl f w).SameFound w := by
  induction l generalizing w with
  | nil => simp
  | cons a l ih => exact (ih (f w a)).trans (h w a)

/-- Counting something else. -/
theorem Wing.count_found (w : Wing) {o : Nat} (h1 : cEccUncorr ≠ o) (h2 : cEccCorr ≠ o) (h3 : cVoteSplit ≠ o) :
    (w.count o).SameFound w :=
  ⟨rfl, rfl, rfl, rfl, w.ctr_count_ne h1, w.ctr_count_ne h2, w.ctr_count_ne h3⟩

theorem Wing.when_found (w : Wing) (c : Bool) (f : Wing → Wing) (h : ∀ v : Wing, (f v).SameFound v) : (w.when c f).SameFound w := by
  cases c
  · exact ⟨rfl, rfl, rfl, rfl, rfl, rfl, rfl⟩
  · exact h w

theorem Wing.place_found (w : Wing) (r : Rec) : (w.place r).SameFound w := Wing.found_of_eq (by simp) (by simp)

theorem Wing.withdraw_found (w : Wing) : w.withdraw.SameFound w := by
  unfold Wing.withdraw
  split <;> exact ⟨rfl, rfl, rfl, rfl, rfl, rfl, rfl⟩

theorem Wing.giveWay_found (w : Wing) (cfgWord : Bool) : (w.giveWay cfgWord).SameFound w := by
  have hcount := w.count_found (o := cGiveWay) (by decide) (by decide) (by decide)
  unfold Wing.giveWay
  split
  · extract_lets w1 ctl2 w2
    have h2 : w2.SameFound w := hcount
    split
    · exact h2
    · exact ((Wing.place_found _ _).trans (Wing.place_found _ _)).trans h2
  · split
    · exact (Wing.withdraw_found _).trans hcount
    · exact ⟨rfl, rfl, rfl, rfl, rfl, rfl, rfl⟩

/-! ### Fences, reloads and lost contexts -/

theorem Wing.setPhysBank_found (w : Wing) (p : Nat) (v : Phys) : (w.setPhysBank p v).SameFound w := ⟨rfl, rfl, rfl, rfl, rfl, rfl, rfl⟩

theorem Wing.setPhysSlice_found (w : Wing) (p : Nat) (v : Phys) : (w.setPhysSlice p v).SameFound w := ⟨rfl, rfl, rfl, rfl, rfl, rfl, rfl⟩

theorem Wing.markWorn_found (w : Wing) (u : Nat) : (w.markWorn u).SameFound w := by
  unfold Wing.markWorn
  split <;> exact ⟨rfl, rfl, rfl, rfl, rfl, rfl, rfl⟩

theorem Wing.fence_found (w : Wing) (n : Nat) : (w.fence n).SameFound w := by
  unfold Wing.fence
  split
  · exact ⟨rfl, rfl, rfl, rfl, rfl, rfl, rfl⟩
  · exact (Wing.count_found _ (by decide) (by decide) (by decide)).trans ⟨rfl, rfl, rfl, rfl, rfl, rfl, rfl⟩

theorem Wing.poisonSlot_found (w : Wing) (n : Nat) : (w.poisonSlot n).SameFound w := by
  unfold Wing.poisonSlot
  split <;> exact ⟨rfl, rfl, rfl, rfl, rfl, rfl, rfl⟩

theorem Wing.addFetch_found (w : Wing) (key : Word) (c : FetchCause) : (w.addFetch key c).SameFound w := by
  refine Wing.found_of_eq ?_ (w.regs_addFetch key c)
  unfold Wing.addFetch
  split
  · rfl
  · simp

theorem Wing.askContext_found (w : Wing) (key : Word) : (w.askContext key).SameFound w := by
  unfold Wing.askContext
  split
  · exact ⟨rfl, rfl, rfl, rfl, rfl, rfl, rfl⟩
  · exact (Wing.place_found _ _).trans ⟨rfl, rfl, rfl, rfl, rfl, rfl, rfl⟩

theorem Wing.recheckLost_found (w : Wing) (n : Nat) : (w.recheckLost n).SameFound w := by
  unfold Wing.recheckLost
  split
  · exact ⟨rfl, rfl, rfl, rfl, rfl, rfl, rfl⟩
  · exact ⟨rfl, rfl, rfl, rfl, (w.ctr_countN _ _ _).trans (if_neg (by decide)), (w.ctr_countN _ _ _).trans (if_neg (by decide)),
      (w.ctr_countN _ _ _).trans (if_neg (by decide))⟩

theorem Wing.recheckUncertain_found (w : Wing) (key : Word) (resync : Bool) : (w.recheckUncertain key resync).SameFound w := by
  unfold Wing.recheckUncertain
  extract_lets w1
  have h1 : w1.SameFound w := by
    cases resync with
    | false => exact ⟨rfl, rfl, rfl, rfl, rfl, rfl, rfl⟩
    | true => exact w.count_found (by decide) (by decide) (by decide)
  split
  · exact .trans (v := w1) ⟨rfl, rfl, rfl, rfl, rfl, rfl, rfl⟩ h1
  · exact (w1.recheckLost_found 1).trans h1

theorem Wing.fenceAndReload_found (w : Wing) (n : Nat) (s : Slot) (recheck pinned : Bool) :
    (w.fenceAndReload n s recheck pinned).SameFound w := by
  unfold Wing.fenceAndReload
  refine (Wing.when_found _ _ _ fun v => v.addFetch_found _ _).trans ((Wing.addFetch_found _ _ _).trans ?_)
  refine (Wing.when_found _ _ _ fun v => v.recheckUncertain_found _ _).trans ((Wing.fence_found _ n).trans ?_)
  exact ⟨rfl, rfl, rfl, rfl, rfl, rfl, rfl⟩

theorem Wing.contextLost_found (w : Wing) (n : Nat) : (w.contextLost n).SameFound w := by
  unfold Wing.contextLost
  split
  · split
    · exact w.giveWay_found _
    · exact w.when_found _ _ fun v => v.fence_found n
  · split
    · exact (Wing.giveWay_found _ _).trans (w.poisonSlot_found n)
    · split
      · exact (Wing.askContext_found _ _).trans ⟨rfl, rfl, rfl, rfl, rfl, rfl, rfl⟩
      · split
        · exact w.fenceAndReload_found _ _ _ _
        · exact (Wing.addFetch_found _ _ _).trans ⟨rfl, rfl, rfl, rfl, rfl, rfl, rfl⟩

theorem Wing.directoryLost_found (w : Wing) (n : Nat) : (w.directoryLost n).SameFound w := by
  unfold Wing.directoryLost
  split
  · exact (Wing.giveWay_found _ _).trans (w.poisonSlot_found n)
  · split
    · exact w.withdraw_found
    · split
      · exact w.fenceAndReload_found _ _ _ _
      · exact w.fence_found n

/-! ### Lost arrivals, filter entries, configuration words and writes -/

theorem Wing.obsLost_found (w : Wing) (o : Obs) : (w.obsLost o).SameFound w := by
  unfold Wing.obsLost
  split
  · exact (Wing.giveWay_found _ _).trans ⟨rfl, rfl, rfl, rfl, rfl, rfl, rfl⟩
  · split
    · exact ⟨rfl, rfl, rfl, rfl, rfl, rfl, rfl⟩
    · exact (Wing.count_found _ (by decide) (by decide) (by decide)).trans ⟨rfl, rfl, rfl, rfl, rfl, rfl, rfl⟩

theorem Wing.writeLost_found (w : Wing) (j : Nat) (a : AptWrite) : (w.writeLost j a).SameFound w := by
  unfold Wing.writeLost
  extract_lets ahead vst1 w1 o i q o1 w2
  have h1 : w1.SameFound w := ⟨rfl, rfl, rfl, rfl, rfl, rfl, rfl⟩
  clear_value w1
  split
  · have h2 : w2.SameFound w1 :=
      (Wing.count_found _ (by decide) (by decide) (by decide)).trans ⟨rfl, rfl, rfl, rfl, rfl, rfl, rfl⟩
    clear_value w2
    exact (Wing.obsLost_found _ o1).trans (.trans (v := w2) ⟨rfl, rfl, rfl, rfl, rfl, rfl, rfl⟩ (h2.trans h1))
  · split
    · exact (w1.giveWay_found _).trans h1
    · exact h1

theorem Wing.arrivalLost_found (w : Wing) (i : Nat) : (w.arrivalLost i).SameFound w := by
  unfold Wing.arrivalLost
  split
  · exact w.obsLost_found _
  · dsimp only
    split
    · exact w.writeLost_found _ _
    · exact ⟨rfl, rfl, rfl, rfl, rfl, rfl, rfl⟩

theorem Wing.filterLost_found (w : Wing) (i : Nat) : (w.filterLost i).SameFound w := by
  unfold Wing.filterLost
  split
  · dsimp only
    split
    · exact (Wing.giveWay_found _ _).trans ⟨rfl, rfl, rfl, rfl, rfl, rfl, rfl⟩
    · exact w.giveWay_found _
  · split
    · exact w.withdraw_found
    · exact ⟨rfl, rfl, rfl, rfl, rfl, rfl, rfl⟩

theorem Wing.loadWord_found (w : Wing) (k : Nat) (v : Word) : (w.loadWord k v).SameFound w := by
  unfold Wing.loadWord
  split <;> exact ⟨rfl, rfl, rfl, rfl, rfl, rfl, rfl⟩

theorem Wing.loadRegion_found (w : Wing) (a : Nat) (d : DWord) : (w.loadRegion a d).SameFound w := by
  unfold Wing.loadRegion
  split
  · exact (Wing.loadWord_found _ _ _).trans (w.loadWord_found _ _)
  · (repeat' split) <;> exact ⟨rfl, rfl, rfl, rfl, rfl, rfl, rfl⟩

theorem Wing.withSigned_found (w : Wing) (f : Wing → Wing) (h : (f w).SameFound w) : (w.withSigned f).SameFound w := by
  unfold Wing.withSigned
  dsimp only
  split
  · exact h
  · exact h

theorem Wing.configLost_found (w : Wing) (a : Nat) : (w.configLost a).SameFound w := by
  unfold Wing.configLost
  split
  · exact w.giveWay_found _
  · split
    · exact w.withdraw_found
    · extract_lets b w1
      have h1 : w1.SameFound w := w.withSigned_found _ (w.loadRegion_found _ _)
      clear_value w1
      exact h1

theorem Wing.writeAgain_found (w : Wing) (i : Nat) : (w.writeAgain i).SameFound w := by
  unfold Wing.writeAgain
  split
  · dsimp only
    exact Wing.found_of_eq (by simp [Wing.emitWrite]) (by simp [Wing.emitWrite])
  · exact ⟨rfl, rfl, rfl, rfl, rfl, rfl, rfl⟩

/-- What follows an unreadable word, once it is noted. -/
theorem Wing.unreadable_found (w : Wing) (f : EccFind) : (w.unreadable f).SameFound (w.noteUnreadable f) := by
  unfold Wing.unreadable
  dsimp only
  generalize w.noteUnreadable f = u
  split
  · exact (Wing.contextLost_found _ _).trans ((Wing.markWorn_found _ _).trans (u.setPhysBank_found _ _))
  · exact u.directoryLost_found _
  · exact u.arrivalLost_found _
  · exact u.filterLost_found _
  · exact u.configLost_found _
  · exact u.when_found _ _ fun v => (Wing.markWorn_found _ _).trans (v.setPhysSlice_found _ _)
  · exact u.writeAgain_found _
  · exact ⟨rfl, rfl, rfl, rfl, rfl, rfl, rfl⟩

/-! ### Units without a spare -/

/-- Wear, and the vectors in the pantry. -/
@[simp] abbrev Wing.SameWear (v w : Wing) : Prop :=
  (∀ p, (v.physBank p).wear = (w.physBank p).wear) ∧ (∀ p, (v.physSlice p).wear = (w.physSlice p).wear) ∧
    v.pan.slots = w.pan.slots

/-- Neither what is noted of errors nor any wear moves. -/
abbrev Wing.SameTally (v w : Wing) : Prop := v.SameFound w ∧ v.SameWear w

theorem Wing.SameTally.trans {u v w : Wing} (h : u.SameTally v) (h' : v.SameTally w) : u.SameTally w := by
  obtain ⟨hf, hb, hs, hp⟩ := h
  obtain ⟨hf', hb', hs', hp'⟩ := h'
  exact ⟨hf.trans hf', fun p => (hb p).trans (hb' p), fun p => (hs p).trans (hs' p), hp.trans hp'⟩

theorem Wing.SameTally.foldl {α : Type} (f : Wing → α → Wing) (l : List α) (w : Wing) (h : ∀ v a, (f v a).SameTally v) :
    (l.foldl f w).SameTally w := by
  induction l generalizing w with
  | nil => exact ⟨⟨rfl, rfl, rfl, rfl, rfl, rfl, rfl⟩, fun _ => rfl, fun _ => rfl, rfl⟩
  | cons a l ih => exact (ih (f w a)).trans (h w a)

theorem Wing.withdraw_wear (w : Wing) : w.withdraw.SameWear w := by
  unfold Wing.withdraw
  split <;> exact ⟨fun _ => rfl, fun _ => rfl, rfl⟩

theorem Wing.place_wear (w : Wing) (r : Rec) : (w.place r).SameWear w := by
  simp [Wing.physBank, Wing.physSlice]

theorem Wing.giveWay_wear (w : Wing) (cfgWord : Bool) : (w.giveWay cfgWord).SameWear w := by
  have same : ∀ {v : Wing}, v.int = w.int → v.pan = w.pan → v.SameWear w := fun hint hpan => by
    simp [Wing.physBank, Wing.physSlice, hint, hpan]
  unfold Wing.giveWay
  split
  · extract_lets w1 ctl2 w2
    split
    · exact same rfl rfl
    · exact same (by simp [Wing.placeHandover, w2, w1]) (by simp [Wing.placeHandover, w2, w1])
  · split
    · exact (Wing.withdraw_wear _).elim fun hb h => ⟨hb, h⟩
    · exact same rfl rfl

theorem Wing.noSpare_tally (w : Wing) (u : Nat) : (w.noSpare u).SameTally w := by
  unfold Wing.noSpare
  split
  · exact ⟨⟨rfl, rfl, rfl, rfl, rfl, rfl, rfl⟩, fun _ => rfl, fun _ => rfl, rfl⟩
  · exact ⟨(Wing.count_found _ (by decide) (by decide) (by decide)).trans ⟨rfl, rfl, rfl, rfl, rfl, rfl, rfl⟩,
      fun _ => rfl, fun _ => rfl, rfl⟩

/-- Another entry, whatever it is read against. -/
theorem get_set_elsewhere {α : Type} [DecidableEq α] (m : SMap α) (d e : α) {k j : Nat} (a : α) (h : j ≠ k) :
    SMap.get (SMap.set m d k a) e j = SMap.get m e j := by
  unfold SMap.set
  split
  · exact SMap.get_erase_ne m e h
  · exact SMap.get_insert_ne m e a h

theorem Wing.physSlice_setPhysSlice (w : Wing) (p q : Nat) (v : Phys) :
    (w.setPhysSlice p v).physSlice q = if q = p then v else w.physSlice q := by
  by_cases h : q = p
  · subst h
    simp [Wing.physSlice, Wing.setPhysSlice, SMap.get_set_self]
  · rw [if_neg h]
    exact get_set_elsewhere _ _ _ _ h

theorem Wing.physBank_setPhysBank (w : Wing) (p q : Nat) (v : Phys) :
    (w.setPhysBank p v).physBank q = if q = p then v else w.physBank q := by
  by_cases h : q = p
  · subst h
    simp [Wing.physBank, Wing.setPhysBank, SMap.get_set_self]
  · rw [if_neg h]
    exact get_set_elsewhere _ _ _ _ h

/-- A scan slice that changes nothing but its STATE keeps its WEAR. -/
theorem Wing.setPhysSlice_wear (w : Wing) (p : Nat) (v : Phys) (hv : v.wear = (w.physSlice p).wear) :
    (w.setPhysSlice p v).SameWear w := by
  refine ⟨fun _ => rfl, fun q => ?_, rfl⟩
  rw [Wing.physSlice_setPhysSlice]
  split
  · rename_i h
    rw [h, hv]
  · rfl

theorem Wing.failedNoSpare_tally (w : Wing) (u : Nat) : (w.failedNoSpare u).SameTally w := by
  unfold Wing.failedNoSpare
  dsimp only
  split
  · split
    · exact ⟨⟨rfl, rfl, rfl, rfl, rfl, rfl, rfl⟩, fun _ => rfl, fun _ => rfl, rfl⟩
    · exact ⟨w.giveWay_found false, w.giveWay_wear false⟩
  · split
    · exact ⟨w.withdraw_found, w.withdraw_wear⟩
    · split
      · exact ⟨w.setPhysSlice_found _ _, w.setPhysSlice_wear _ _ rfl⟩
      · exact ⟨⟨rfl, rfl, rfl, rfl, rfl, rfl, rfl⟩, fun _ => rfl, fun _ => rfl, rfl⟩

theorem Wing.settleSpare_tally (w : Wing) (u : Nat) (failed : Bool) :
    ((w.noSpare u).when failed fun x => x.failedNoSpare u).SameTally w := by
  refine Wing.SameTally.trans ?_ (w.noSpare_tally u)
  cases failed
  · exact ⟨⟨rfl, rfl, rfl, rfl, rfl, rfl, rfl⟩, fun _ => rfl, fun _ => rfl, rfl⟩
  · exact Wing.failedNoSpare_tally _ u

theorem Wing.settleSpares_tally (w : Wing) : w.settleSpares.SameTally w := by
  unfold Wing.settleSpares
  extract_lets banks slices w1
  exact (Wing.SameTally.foldl _ slices w1 fun v p => v.settleSpare_tally _ _).trans
    (Wing.SameTally.foldl _ banks w fun v p => v.settleSpare_tally _ _)

/-! ## Voted reads -/

theorem Wing.voteRead_whole (w : Wing) (f : VoteFind) (h0 : f.err0 = 0) (h1 : f.err1 = 0) (h2 : f.err2 = 0) : w.voteRead f = w := by
  simp [Wing.voteRead, voteMajority, voteWhole, h0, h1, h2]

/-- One copy alone is wrong. -/
def voteOneOff (f : VoteFind) : Prop :=
  f.err0 ≠ 0 ∧ f.err1 = 0 ∧ f.err2 = 0 ∨ f.err0 = 0 ∧ f.err1 ≠ 0 ∧ f.err2 = 0 ∨ f.err0 = 0 ∧ f.err1 = 0 ∧ f.err2 ≠ 0

theorem voteMajority_of_oneOff {f : VoteFind} (h : voteOneOff f) : voteMajority f = 0 ∧ voteWhole f = false ∧ voteIsSplit f = false := by
  rcases h with ⟨h0, h1, h2⟩ | ⟨h0, h1, h2⟩ | ⟨h0, h1, h2⟩
  · simp [voteMajority, voteWhole, voteIsSplit, h1, h2, show f.err0 ≠ 0#96 from h0]
  · simp [voteMajority, voteWhole, voteIsSplit, h0, h2, show f.err1 ≠ 0#96 from h1]
  · simp [voteMajority, voteWhole, voteIsSplit, h0, h1, Ne.symm (show f.err2 ≠ 0#96 from h2)]

/-- A voted read that finds one copy wrong logs and counts it. -/
theorem Wing.voteRead_oneOff (w : Wing) (f : VoteFind) (h : voteOneOff f) :
    w.voteRead f = ({ w with int := { w.int with
      voteLog := logFirst w.int.voteLog (voteEntry false f.code f.index w.now), voteSplit := w.int.voteSplit } }).count cVoteFix := by
  obtain ⟨hmajority, hwhole, hsplit⟩ := voteMajority_of_oneOff h
  simp [Wing.voteRead, hmajority, hwhole, hsplit]

theorem Wing.voteRead_oneOff_keeps (w : Wing) (f : VoteFind) (h : voteOneOff f) :
    (w.voteRead f).ctr cVoteFix = w.ctr cVoteFix + 1 ∧
      (w.voteRead f).int.voteLog = logFirst w.int.voteLog (voteEntry false f.code f.index w.now) ∧
      (w.voteRead f).ctl = w.ctl ∧ (w.voteRead f).regs.cfg = w.regs.cfg ∧ (w.voteRead f).regs.eff = w.regs.eff ∧
      (w.voteRead f).int.voteSplit = w.int.voteSplit ∧ (w.voteRead f).out = w.out := by
  rw [w.voteRead_oneOff f h]
  refine ⟨?_, rfl, rfl, rfl, rfl, rfl, rfl⟩
  rw [Wing.ctr_count_self]
  rfl

theorem Wing.flipBits_keeps (w : Wing) (k : Nat) (m : Word) :
    (w.flipBits k m).int = w.int ∧ (w.flipBits k m).regs.ctr = w.regs.ctr := ⟨rfl, rfl⟩

theorem Wing.flipWord_found (w : Wing) (k : Nat) (m : Word) : (w.flipWord k m).SameFound w := by
  unfold Wing.flipWord
  dsimp only
  split <;> exact ⟨rfl, rfl, rfl, rfl, rfl, rfl, rfl⟩

theorem Integ.flipMap_keeps (v : Integ) (i : Nat) (m : BitVec 96) :
    (v.flipMap i m).eccUncorr = v.eccUncorr ∧ (v.flipMap i m).eccLog = v.eccLog ∧ (v.flipMap i m).voteLog = v.voteLog ∧
      (v.flipMap i m).voteSplit = v.voteSplit := by
  unfold Integ.flipMap
  dsimp only
  split
  · exact ⟨rfl, rfl, rfl, rfl⟩
  · split
    · exact ⟨rfl, rfl, rfl, rfl⟩
    · split <;> exact ⟨rfl, rfl, rfl, rfl⟩

theorem Wing.flipField_found (w : Wing) (code : Byte) (i : Nat) (m : BitVec 96) : (w.flipField code i m).SameFound w := by
  unfold Wing.flipField
  dsimp only
  split
  · exact ⟨rfl, rfl, rfl, rfl, rfl, rfl, rfl⟩
  · exact ⟨rfl, rfl, rfl, rfl, rfl, rfl, rfl⟩
  · exact ⟨rfl, rfl, rfl, rfl, rfl, rfl, rfl⟩
  · exact w.flipWord_found _ _
  · exact w.flipWord_found _ _
  · exact w.flipWord_found _ _
  · exact w.flipWord_found _ _
  · exact w.flipWord_found _ _
  · exact ⟨rfl, rfl, rfl, rfl, rfl, rfl, rfl⟩
  · exact (Wing.flipWord_found _ _ _).trans (w.flipWord_found _ _)
  · obtain ⟨huncorr, helog, hvlog, hsplit⟩ := w.int.flipMap_keeps i m
    exact ⟨huncorr, helog, hvlog, hsplit, rfl, rfl, rfl⟩
  · exact ⟨rfl, rfl, rfl, rfl, rfl, rfl, rfl⟩

/-- A voted read whose copies are pairwise different is a split vote. -/
theorem Wing.voteRead_split (w : Wing) (f : VoteFind) (h01 : f.err0 ≠ f.err1) (h12 : f.err1 ≠ f.err2) (h02 : f.err0 ≠ f.err2) :
    (w.voteRead f).int.voteSplit = true ∧ (w.voteRead f).ctr cVoteSplit = w.ctr cVoteSplit + 1 ∧
      (w.voteRead f).int.voteLog = logFirst w.int.voteLog (voteEntry true f.code f.index w.now) := by
  have hwhole : voteWhole f = false := by simp [voteWhole, h01]
  have hsplit : voteIsSplit f = true := by simp [voteIsSplit, h01, h12, h02]
  unfold Wing.voteRead
  extract_lets w1 int2 w2
  rw [if_neg (by simp [hwhole]), if_pos hsplit]
  have h1 : w1.SameFound w := by
    by_cases hm : voteMajority f = 0
    · simp [w1, hm]
    · rw [show w1 = _ from if_neg hm]
      exact w.flipField_found _ _ _
  obtain ⟨-, -, hlog1, -, -, -, hctr1⟩ := h1
  obtain ⟨-, -, hlog, hflag, -, -, hctr⟩ := (w2.count cVoteSplit).giveWay_found false
  refine ⟨hflag.trans (by simp [w2, int2, hsplit]), hctr.trans ((w2.ctr_count_self cVoteSplit).trans ?_), hlog.trans ?_⟩
  · exact congrArg (· + 1) hctr1
  · simp [w2, int2, hsplit, hlog1]

/-! ## Reads with an ECC error -/

theorem Wing.eccRead_bank (w : Wing) (f : EccFind) (hc : f.corrected = true) (ha : f.array = 1) : w.eccRead f = w.wearBank f.unit.toNat := by
  simp [Wing.eccRead, hc, ha]

theorem Wing.eccRead_slice (w : Wing) (f : EccFind) (hc : f.corrected = true) (ha : f.array = 6) (hu : f.unit.toNat < 9) :
    w.eccRead f = w.wearSlice f.unit.toNat := by
  simp [Wing.eccRead, hc, ha, eccOfSlice, hu]

theorem Wing.eccRead_other (w : Wing) (f : EccFind) (hc : f.corrected = true) (h1 : f.array ≠ 1) (h6 : f.array ≠ 6 ∨ 9 ≤ f.unit.toNat) :
    w.eccRead f = w.count cEccCorr := by
  unfold Wing.eccRead
  rw [if_pos hc]
  split
  · rename_i ha
    exact absurd (BitVec.eq_of_toNat_eq (y := (1 : BitVec 4)) ha) h1
  · rename_i ha
    have hu := h6.resolve_left fun h => h (BitVec.eq_of_toNat_eq (y := (6 : BitVec 4)) ha)
    rw [if_neg (by simp [eccOfSlice]; omega)]
  · rfl

theorem Wing.markWorn_wear (w : Wing) (u : Nat) : (w.markWorn u).SameWear w := by
  unfold Wing.markWorn
  split <;> exact ⟨fun _ => rfl, fun _ => rfl, rfl⟩

theorem Wing.when_wear (w : Wing) (c : Bool) (u : Nat) : (w.when c fun x => x.markWorn u).SameWear w := by
  cases c
  · exact ⟨fun _ => rfl, fun _ => rfl, rfl⟩
  · exact w.markWorn_wear u

theorem Wing.wearBank_wear (w : Wing) (p : Nat) : ((w.wearBank p).physBank p).wear = satInc (w.physBank p).wear := by
  unfold Wing.wearBank
  dsimp only
  refine ((Wing.when_wear _ _ p).1 p).trans ?_
  rw [Wing.physBank_setPhysBank, if_pos rfl]

theorem Wing.wearSlice_wear (w : Wing) (p : Nat) : ((w.wearSlice p).physSlice p).wear = satInc (w.physSlice p).wear := by
  unfold Wing.wearSlice
  dsimp only
  refine ((Wing.when_wear _ _ (sliceUnit p)).2.1 p).trans ?_
  rw [Wing.physSlice_setPhysSlice, if_pos rfl]

/-- A corrected error sets no flag and moves no vector. -/
theorem Wing.eccRead_corrected (w : Wing) (f : EccFind) (hc : f.corrected = true) :
    (w.eccRead f).int.eccUncorr = w.int.eccUncorr ∧ (w.eccRead f).pan.slots = w.pan.slots := by
  by_cases h1 : f.array = 1
  · rw [w.eccRead_bank f hc h1]
    unfold Wing.wearBank
    dsimp only
    exact ⟨(Wing.when_found _ _ _ fun v => v.markWorn_found _).1, (Wing.when_wear _ _ _).2.2⟩
  · by_cases h6 : f.array ≠ 6 ∨ 9 ≤ f.unit.toNat
    · rw [w.eccRead_other f hc h1 h6]
      exact ⟨rfl, rfl⟩
    · rw [not_or, not_not, Nat.not_le] at h6
      rw [w.eccRead_slice f hc h6.1 h6.2]
      unfold Wing.wearSlice
      dsimp only
      exact ⟨(Wing.when_found _ _ _ fun v => v.markWorn_found _).1, (Wing.when_wear _ _ _).2.2⟩

theorem Wing.eccRead_uncorrectable (w : Wing) (f : EccFind) (hc : f.corrected = false) :
    (w.eccRead f).int.eccUncorr = true ∧ (w.eccRead f).ctr cEccUncorr = w.ctr cEccUncorr + 1 ∧
      (w.eccRead f).int.eccLog = logFirst w.int.eccLog (eccEntry f.array f.index) := by
  unfold Wing.eccRead
  rw [if_neg (by simp [hc])]
  obtain ⟨huncorr, hlog, -, -, hctr, -, -⟩ := w.unreadable_found f
  exact ⟨huncorr, hctr.trans (Wing.ctr_count_self _ _), hlog⟩

/-- SCRUB in a wing that runs. -/
def Wing.scrubbed (w : Wing) (finds : List EccFind) : Wing :=
  { w.eccReads finds with hall := { (w.eccReads finds).hall with dropped := (w.eccReads finds).hall.dropped ++ droppedBy finds } }

theorem Wing.scrubbed_one (w : Wing) (f : EccFind) : (w.scrubbed [f]).SameTally (w.eccRead f) :=
  (w.eccRead f).settleSpares_tally

end Sys2Proof.Machine

namespace Sys2Proof
open Machine

/-- Settles O55: a voted read case by case (R337, R338), and a read with an ECC error by whether it can be corrected (R340, R341);
what follows an uncorrectable word and units without a spare leaves what was noted. -/
theorem votesAndEccAreCounted : Obligations.VotesAndEccAreCounted := by
  unfold Obligations.VotesAndEccAreCounted
  refine ⟨fun s w f => ⟨fun hoff fs => ?_, fun hrun => ⟨fun h0 h1 h2 => ?_, fun hone => ?_, fun h01 h12 h02 => ?_⟩⟩,
    fun s w f => ⟨fun hoff fs => ?_, fun hrun hc => ?_, fun hrun hc => ?_⟩⟩
  · exact (stepsWing (i := .voteWalk w fs) rfl).stands (by simp [hoff])
  · exact (stepsWing (i := .voteWalk w [f]) rfl).stands (by simp [hrun, Wing.voteRead_whole, h0, h1, h2])
  · obtain ⟨hctr, hlog, hctl, hcfg, heff, hflag, hsilent⟩ := (s.wing w).silent.voteRead_oneOff_keeps f hone
    obtain ⟨t, ht, honly, hwing, hout⟩ := (stepsWing (i := .voteWalk w [f]) rfl).leaves
      (v := (s.wing w).silent.voteRead f) (if_pos hrun)
    exact ⟨t, ht, honly, hout.trans hsilent, (congrArg (Wing.ctr · cVoteFix) hwing).trans hctr,
      (congrArg (·.int.voteLog) hwing).trans hlog, (congrArg Wing.ctl hwing).trans hctl,
      (congrArg (·.regs.cfg) hwing).trans hcfg, (congrArg (·.regs.eff) hwing).trans heff,
      (congrArg (·.int.voteSplit) hwing).trans hflag⟩
  · obtain ⟨hflag, hctr, hlog⟩ := (s.wing w).silent.voteRead_split f h01 h12 h02
    obtain ⟨t, ht, honly, hwing, -⟩ := (stepsWing (i := .voteWalk w [f]) rfl).leaves
      (v := (s.wing w).silent.voteRead f) (if_pos hrun)
    exact ⟨t, ht, honly, (congrArg (·.int.voteSplit) hwing).trans hflag, (congrArg (Wing.ctr · cVoteSplit) hwing).trans hctr,
      (congrArg (·.int.voteLog) hwing).trans hlog⟩
  · exact (stepsWing (i := .scrub w fs) rfl).stands (by simp [hoff])
  · obtain ⟨t, ht, honly, hwing, -⟩ := (stepsWing (i := .scrub w [f]) rfl).leaves
      (v := (s.wing w).silent.scrubbed [f]) (if_pos hrun)
    obtain ⟨hkeep, hbank, hslice, hpan⟩ := (s.wing w).silent.scrubbed_one f
    obtain ⟨huncorr, -, -, -, -, hcorr, -⟩ := hkeep
    obtain ⟨huncorr1, hpan1⟩ := (s.wing w).silent.eccRead_corrected f hc
    refine ⟨t, ht, honly, fun h1 => ?_, fun h6 hu => ?_, fun h1 h6 => ?_, ?_, ?_⟩
    · refine (congrArg (fun v => (Wing.physBank v f.unit.toNat).wear) hwing).trans ((hbank _).trans ?_)
      rw [Wing.eccRead_bank _ f hc h1]
      exact Wing.wearBank_wear _ _
    · refine (congrArg (fun v => (Wing.physSlice v f.unit.toNat).wear) hwing).trans ((hslice _).trans ?_)
      rw [Wing.eccRead_slice _ f hc h6 hu]
      exact Wing.wearSlice_wear _ _
    · refine (congrArg (Wing.ctr · cEccCorr) hwing).trans (hcorr.trans ?_)
      rw [Wing.eccRead_other _ f hc h1 h6]
      exact Wing.ctr_count_self _ _
    · exact (congrArg (·.int.eccUncorr) hwing).trans (huncorr.trans huncorr1)
    · exact (congrArg (·.pan.slots) hwing).trans (hpan.trans hpan1)
  · obtain ⟨t, ht, honly, hwing, -⟩ := (stepsWing (i := .scrub w [f]) rfl).leaves
      (v := (s.wing w).silent.scrubbed [f]) (if_pos hrun)
    obtain ⟨⟨huncorr, hlog, -, -, hctr, -, -⟩, -⟩ := (s.wing w).silent.scrubbed_one f
    obtain ⟨huncorr1, hctr1, hlog1⟩ := (s.wing w).silent.eccRead_uncorrectable f hc
    exact ⟨t, ht, honly, (congrArg (·.int.eccUncorr) hwing).trans (huncorr.trans huncorr1),
      (congrArg (Wing.ctr · cEccUncorr) hwing).trans (hctr.trans hctr1),
      (congrArg (·.int.eccLog) hwing).trans (hlog.trans hlog1)⟩

end Sys2Proof
end

section
/-! Signature passes, wear windows, and moves of worn units into spares (R344, R345, R350 to R353). -/

namespace Sys2Proof.Machine

/-! ## Signature passes -/

/-- A pass whose result is the running value is counted. -/
theorem Wing.passEnd_same (w : Wing) (h : w.passResult = w.int.sigRun) :
    w.passEnd = { w with int := { w.int with passAt := w.now, passMiss := 0 } }.count cSigPasses := if_pos h

/-- A pass with another result is counted and logged. -/
theorem Wing.passEnd_other (w : Wing) (h : w.passResult ≠ w.int.sigRun) :
    w.passEnd.int.sigRun = w.passResult ∧ w.passEnd.int.sigSelf = true ∧ w.passEnd.ctr cSigSelf = w.ctr cSigSelf + 1 ∧
      w.passEnd.ctr cSigPasses = w.ctr cSigPasses + 1 ∧ w.passEnd.int.passAt = w.now ∧
      w.passEnd.int.sigLog = logFirst w.int.sigLog (sigEntry 0b11 w.now) ∧ w.passEnd.out = w.out := by
  unfold Wing.passEnd
  extract_lets int1 w1 own result
  rw [if_neg h]
  have hself : w1.ctr cSigSelf = w.ctr cSigSelf := Wing.ctr_count_ne _ (by decide)
  have hpasses : w1.ctr cSigPasses = w.ctr cSigPasses + 1 := Wing.ctr_count_self _ _
  refine ⟨rfl, rfl, ?_, ?_, rfl, rfl, rfl⟩
  · exact (Wing.ctr_count_self { w1 with int := { w1.int with
      sigs := w1.int.keepSig w.now, sigRun := result, sigSelf := true } } cSigSelf).trans (congrArg (· + 1) hself)
  · exact (Wing.ctr_count_ne { w1 with int := { w1.int with
      sigs := w1.int.keepSig w.now, sigRun := result, sigSelf := true } } (by decide)).trans hpasses

/-- After a pass the running value is the signature of the words as the arrays hold them, less what the pass could not see. -/
theorem Wing.passEnd_sigRun (w : Wing) : w.passEnd.int.sigRun = w.passResult := by
  by_cases h : w.passResult = w.int.sigRun
  · rw [w.passEnd_same h, h]
    rfl
  · exact (w.passEnd_other h).1

/-- A pass moves no word. -/
theorem Wing.passEnd_words (w : Wing) : w.passEnd.portGen = w.portGen ∧ w.passEnd.regs.cfg = w.regs.cfg ∧
    w.passEnd.regs.eff = w.regs.eff ∧ w.passEnd.sl = w.sl ∧ w.passEnd.out = w.out := by
  by_cases h : w.passResult = w.int.sigRun
  · rw [w.passEnd_same h]
    exact ⟨rfl, rfl, rfl, rfl, rfl⟩
  · unfold Wing.passEnd
    extract_lets int1 w1 own result
    rw [if_neg h]
    simp [Wing.logSig, w1]

/-- The bits of one word flipped, stored and in force. -/
theorem Wing.flipBits_word (w : Wing) (k : Nat) (m : Word) :
    (w.flipBits k m).cfgW k = w.cfgW k ^^^ m ∧ (w.flipBits k m).effW k = w.effW k ^^^ m ∧
      ∀ j, j ≠ k → (w.flipBits k m).cfgW j = w.cfgW j ∧ (w.flipBits k m).effW j = w.effW j := by
  unfold Wing.flipBits
  refine ⟨?_, ?_, fun j hj => ⟨?_, ?_⟩⟩
  · rw [Wing.cfgW_setEff, Wing.cfgW_setCfg, if_pos rfl]
  · rw [Wing.effW_setEff, if_pos rfl]
  · rw [Wing.cfgW_setEff, Wing.cfgW_setCfg, if_neg hj]
  · rw [Wing.effW_setEff, if_neg hj, Wing.effW_setCfg]

theorem Wing.passEnd_cfgW (w : Wing) (j : Nat) : w.passEnd.cfgW j = w.cfgW j := by
  obtain ⟨hgen, hcfg, -⟩ := w.passEnd_words
  simp [Wing.cfgW, hgen, hcfg]

theorem Wing.passEnd_effW (w : Wing) (j : Nat) : w.passEnd.effW j = w.effW j := by
  obtain ⟨hgen, -, heff, -⟩ := w.passEnd_words
  simp [Wing.effW, hgen, heff]

theorem Wing.passEnd_signedWords (w : Wing) : w.passEnd.signedWords = w.signedWords := by
  obtain ⟨hgen, -, heff, hsl, -⟩ := w.passEnd_words
  simp [Wing.signedWords, hgen, heff, hsl]

/-! ## Wear windows -/

/-- The units of one kind once every WEAR has restarted, listed only where they differ from reset. -/
def unworn (reset : Nat → Phys) (m : SMap Phys) : SMap Phys :=
  (m.map fun (e : Nat × Phys) => (e.1, { e.2 with wear := 0 })).filter fun (e : Nat × Phys) => e.2 != reset e.1

theorem unworn_wear (reset : Nat → Phys) (m : SMap Phys) (p : Nat) (hreset : (reset p).wear = 0) :
    (SMap.get (unworn reset m) (reset p) p).wear = 0 := by
  unfold SMap.get
  cases hfind : SMap.find? (unworn reset m) p with
  | none => exact hreset
  | some v =>
      have hmem : (p, v) ∈ unworn reset m := SMap.mem_of_find? hfind
      obtain ⟨e, -, he⟩ := List.mem_map.mp (List.mem_filter.mp hmem).1
      obtain ⟨-, rfl⟩ := Prod.ext_iff.mp he
      rfl

theorem Wing.wearRestart_wear (w : Wing) (p : Nat) :
    (w.wearRestart.physBank p).wear = 0 ∧ (w.wearRestart.physSlice p).wear = 0 :=
  ⟨unworn_wear Phys.resetBank w.int.physBank p rfl, unworn_wear Phys.resetSlice w.int.physSlice p rfl⟩

/-- A restart touches the physical units and the lanes only. -/
theorem Wing.wearRestart_eq (w : Wing) : ∃ banks slices lanes, w.wearRestart =
    { w with int := { w.int with physBank := banks, physSlice := slices }, psg := { w.psg with lanes := lanes } } := ⟨_, _, _, rfl⟩

/-! ## Moves -/

/-- The maps, the move under way, the physical banks and the counts of moves stand, with the vectors in the pantry. -/
def Wing.SameUnits (v w : Wing) : Prop :=
  v.int.repBank = w.int.repBank ∧ v.int.repSlice = w.int.repSlice ∧ v.int.move = w.int.move ∧ v.int.physBank = w.int.physBank ∧
    v.pan.slots = w.pan.slots ∧ v.ctr cMigrateBank = w.ctr cMigrateBank ∧ v.ctr cMigrateSlice = w.ctr cMigrateSlice

theorem Wing.SameUnits.refl (w : Wing) : w.SameUnits w := ⟨rfl, rfl, rfl, rfl, rfl, rfl, rfl⟩

theorem Wing.SameUnits.trans {u v w : Wing} (h : u.SameUnits v) (h' : v.SameUnits w) : u.SameUnits w := by
  obtain ⟨a, b, c, d, e, f, g⟩ := h
  obtain ⟨a', b', c', d', e', f', g'⟩ := h'
  exact ⟨a.trans a', b.trans b', c.trans c', d.trans d', e.trans e', f.trans f', g.trans g'⟩

/-- Giving way moves roles, not units. -/
theorem Wing.giveWay_units (w : Wing) (cfgWord : Bool) :
    (w.giveWay cfgWord).SameUnits w ∧ (w.giveWay cfgWord).int.physSlice = w.int.physSlice := by
  have counted : ∀ v : Wing, v.regs = (w.count cGiveWay).regs → v.int = w.int → v.pan = w.pan →
      v.SameUnits w ∧ v.int.physSlice = w.int.physSlice := fun v hregs hint hpan => by
    have hctr : ∀ o, cGiveWay ≠ o → v.ctr o = w.ctr o := fun o ho =>
      (congrArg (fun r : Regs => SMap.get r.ctr 0 o) hregs).trans (w.ctr_count_ne (o := cGiveWay) ho.symm)
    exact ⟨⟨by rw [hint], by rw [hint], by rw [hint], by rw [hint], by rw [hpan], hctr _ (by decide), hctr _ (by decide)⟩, by rw [hint]⟩
  unfold Wing.giveWay
  split
  · extract_lets w1 ctl2 w2
    split
    · exact counted _ rfl rfl rfl
    · exact counted _ (by simp [Wing.placeHandover, w2, w1]) (by simp [Wing.placeHandover, w2, w1])
        (by simp [Wing.placeHandover, w2, w1])
  · split
    · unfold Wing.withdraw
      split <;> exact counted _ rfl rfl rfl
    · exact ⟨.refl w, rfl⟩

theorem Wing.noSpare_units (w : Wing) (u : Nat) : (w.noSpare u).SameUnits w ∧ (w.noSpare u).int.physSlice = w.int.physSlice := by
  unfold Wing.noSpare
  split
  · exact ⟨.refl w, rfl⟩
  · exact ⟨⟨rfl, rfl, rfl, rfl, rfl, Wing.ctr_count_ne _ (by decide), Wing.ctr_count_ne _ (by decide)⟩, rfl⟩

/-- A failed unit without a spare: the scan slice itself is all that may change. -/
theorem Wing.failedNoSpare_units (w : Wing) (u : Nat) :
    (w.failedNoSpare u).SameUnits w ∧ ∀ p, u ≠ sliceUnit p → (w.failedNoSpare u).physSlice p = w.physSlice p := by
  have same : ∀ {v : Wing}, v.int.physSlice = w.int.physSlice → ∀ p, u ≠ sliceUnit p → v.physSlice p = w.physSlice p :=
    fun h p _ => by simp [Wing.physSlice, h]
  unfold Wing.failedNoSpare
  dsimp only
  split
  · split
    · exact ⟨.refl w, fun _ _ => rfl⟩
    · obtain ⟨hunits, hslices⟩ := w.giveWay_units false
      exact ⟨hunits, same hslices⟩
  · split
    · refine ⟨?_, ?_⟩
      · unfold Wing.withdraw
        split <;> exact .refl w
      · unfold Wing.withdraw
        split <;> exact same rfl
    · split
      · rename_i hslice
        refine ⟨.refl w, fun p hp => ?_⟩
        have hne : p ≠ u - 128 := fun h => hp (by unfold sliceUnit; omega)
        rw [Wing.physSlice_setPhysSlice, if_neg hne]
      · exact ⟨.refl w, fun _ _ => rfl⟩

/-- What a worn unit without a spare leaves. -/
theorem Wing.settleSpare_units (w : Wing) (u : Nat) (failed : Bool) :
    ((w.noSpare u).when failed fun x => x.failedNoSpare u).SameUnits w ∧
      ∀ p, u ≠ sliceUnit p → ((w.noSpare u).when failed fun x => x.failedNoSpare u).physSlice p = w.physSlice p := by
  obtain ⟨hunits, hslices⟩ := w.noSpare_units u
  have hslice : ∀ p, (w.noSpare u).physSlice p = w.physSlice p := fun p => by simp [Wing.physSlice, hslices]
  cases failed
  · exact ⟨hunits, fun p _ => hslice p⟩
  · obtain ⟨hunits', hslice'⟩ := (w.noSpare u).failedNoSpare_units u
    exact ⟨hunits'.trans hunits, fun p hp => (hslice' p hp).trans (hslice p)⟩

/-- Worn banks that have no spare. -/
theorem Wing.settleBanks_units (l : List Nat) (w : Wing) (hl : ∀ b ∈ l, b < 128) :
    (l.foldl (fun w p => (w.noSpare p).when (w.bankFailed p) fun x => x.failedNoSpare p) w).SameUnits w ∧
      ∀ p, (l.foldl (fun w p => (w.noSpare p).when (w.bankFailed p) fun x => x.failedNoSpare p) w).physSlice p = w.physSlice p := by
  induction l generalizing w with
  | nil => exact ⟨.refl w, fun _ => rfl⟩
  | cons b l ih =>
      obtain ⟨hunits, hslice⟩ := w.settleSpare_units b (w.bankFailed b)
      obtain ⟨hunits', hslice'⟩ := ih ((w.noSpare b).when (w.bankFailed b) fun x => x.failedNoSpare b) fun p hp => hl p (by simp [hp])
      have hb := hl b (by simp)
      exact ⟨hunits'.trans hunits, fun p => (hslice' p).trans (hslice p (by unfold sliceUnit; omega))⟩

/-- Worn scan slices that have no spare: no other scan slice changes. -/
theorem Wing.settleSlices_units (l : List Nat) (w : Wing) :
    (l.foldl (fun w p => (w.noSpare (sliceUnit p)).when (w.sliceFailed p) fun x => x.failedNoSpare (sliceUnit p)) w).SameUnits w ∧
      ∀ p, p ∉ l → (l.foldl (fun w p => (w.noSpare (sliceUnit p)).when (w.sliceFailed p) fun x =>
        x.failedNoSpare (sliceUnit p)) w).physSlice p = w.physSlice p := by
  induction l generalizing w with
  | nil => exact ⟨.refl w, fun _ _ => rfl⟩
  | cons b l ih =>
      obtain ⟨hunits, hslice⟩ := w.settleSpare_units (sliceUnit b) (w.sliceFailed b)
      obtain ⟨hunits', hslice'⟩ :=
        ih ((w.noSpare (sliceUnit b)).when (w.sliceFailed b) fun x => x.failedNoSpare (sliceUnit b))
      refine ⟨hunits'.trans hunits, fun p hp => ?_⟩
      have hpb : p ≠ b := fun h => hp (by simp [h])
      exact (hslice' p fun h => hp (by simp [h])).trans (hslice p (by unfold sliceUnit; omega))

/-- Settling the spares moves no unit, and changes no scan slice that is not in service. -/
theorem Wing.settleSpares_units (w : Wing) :
    w.settleSpares.SameUnits w ∧ ∀ p, (w.physSlice p).state ≠ 1 → w.settleSpares.physSlice p = w.physSlice p := by
  unfold Wing.settleSpares
  extract_lets banks slices w1
  have hbanks : ∀ b ∈ banks, b < 128 := fun b hb => by
    cases hspare : w.spareBank.isNone with
    | false => simp [banks, hspare] at hb
    | true =>
        have hb' : b ∈ w.badBanks true := by simpa [banks, hspare] using hb
        have := List.mem_range.mp (List.mem_filter.mp hb').1
        omega
  obtain ⟨hunits1, hslice1⟩ := w.settleBanks_units banks hbanks
  obtain ⟨hunits2, hslice2⟩ := w1.settleSlices_units slices
  refine ⟨hunits2.trans hunits1, fun p hp => (hslice2 p fun hin => ?_).trans (hslice1 p)⟩
  cases hspare : w.spareSlice.isNone with
  | false => simp [slices, hspare] at hin
  | true =>
      have hin' : p ∈ w.badSlices true := by simpa [slices, hspare] using hin
      have hstate := (List.mem_filter.mp hin').2
      simp [show ¬(w.physSlice p).state = 1#3 from hp] at hstate

/-- The wing with a move under way. -/
def Wing.withMove (w : Wing) (m : UnitMove) : Wing := { w with int := { w.int with move := some m } }

theorem Wing.startBank_eq (w : Wing) (a p : Nat) :
    w.startMove false a p = (((w.setPhysBank p { w.physBank p with state := 2 }).noteBankWake p bwSpareIn).withMove
      { slice := false, old := a, spare := p, ready := w.now + 4, scan := none }).settleSpares := rfl

theorem Wing.startSlice_eq (w : Wing) (a p : Nat) :
    w.startMove true a p = ((w.setPhysSlice p { w.physSlice p with state := 2 }).withMove
      { slice := true, old := a, spare := p, ready := w.now + 4, scan := none }).settleSpares := rfl

/-- A bank's move as it begins. -/
theorem Wing.startBank_spec (w : Wing) (a p : Nat) :
    ((w.startMove false a p).physBank p).state = 2 ∧
      (w.startMove false a p).int.move = some { slice := false, old := a, spare := p, ready := w.now + 4, scan := none } ∧
      (w.startMove false a p).int.repBank = w.int.repBank ∧ (w.startMove false a p).pan.slots = w.pan.slots := by
  rw [Wing.startBank_eq]
  generalize hu : ((w.setPhysBank p { w.physBank p with state := 2 }).noteBankWake p bwSpareIn).withMove _ = u
  have hbegun : u.physBank p = { w.physBank p with state := 2 } := by
    rw [← hu]
    exact (w.physBank_setPhysBank p p { w.physBank p with state := 2 }).trans (if_pos rfl)
  obtain ⟨⟨hrep, -, hmove, hbank, hslots, -, -⟩, -⟩ := u.settleSpares_units
  refine ⟨?_, hmove.trans (hu ▸ rfl), hrep.trans (hu ▸ rfl), hslots.trans (hu ▸ rfl)⟩
  exact congrArg Phys.state ((congrArg (fun q => SMap.get q (Phys.resetBank p) p) hbank).trans hbegun)

/-- A scan slice's move as it begins. -/
theorem Wing.startSlice_spec (w : Wing) (a p : Nat) :
    ((w.startMove true a p).physSlice p).state = 2 ∧
      (w.startMove true a p).int.move = some { slice := true, old := a, spare := p, ready := w.now + 4, scan := none } ∧
      (w.startMove true a p).int.repSlice = w.int.repSlice ∧ (w.startMove true a p).pan.slots = w.pan.slots := by
  rw [Wing.startSlice_eq]
  generalize hu : (w.setPhysSlice p { w.physSlice p with state := 2 }).withMove _ = u
  have hbegun : u.physSlice p = { w.physSlice p with state := 2 } := by
    rw [← hu]
    exact (w.physSlice_setPhysSlice p p { w.physSlice p with state := 2 }).trans (if_pos rfl)
  obtain ⟨⟨-, hrep, hmove, -, hslots, -, -⟩, hslice⟩ := u.settleSpares_units
  refine ⟨?_, hmove.trans (hu ▸ rfl), hrep.trans (hu ▸ rfl), hslots.trans (hu ▸ rfl)⟩
  exact congrArg Phys.state ((hslice p (by rw [hbegun]; exact (show (2 : BitVec 3) ≠ 1 by decide))).trans hbegun)

theorem Wing.bankMove_starts (w : Wing) {a p : Nat} {rest : List Nat} (hmay : w.mayMove = true) (hdue : w.dueBanks = a :: rest)
    (hspare : w.spareBank = some p) : w.bankMove = w.startMove false a p := by
  simp [Wing.bankMove, hmay, hdue, hspare]

theorem Wing.sliceMove_starts (w : Wing) {a p : Nat} {rest : List Nat} (hmay : w.mayMove = true)
    (hbanks : w.dueBanks = [] ∨ w.spareBank = none) (hdue : w.dueSlices = a :: rest) (hspare : w.spareSlice = some p) :
    w.sliceMove = w.startMove true a p := by
  rcases hbanks with h | h <;> simp [Wing.sliceMove, hmay, hdue, hspare, h]

theorem Wing.bankMove_stands (w : Wing) (h : w.mayMove = false ∨ w.dueBanks = [] ∨ w.spareBank = none) : w.bankMove = w := by
  rcases h with h | h | h
  · simp [Wing.bankMove, h]
  · simp [Wing.bankMove, h]
  · cases hdue : w.dueBanks <;> simp [Wing.bankMove, h, hdue]

theorem Wing.sliceMove_stands (w : Wing) (h : w.mayMove = false ∨ w.dueSlices = [] ∨ w.spareSlice = none) : w.sliceMove = w := by
  rcases h with h | h | h
  · simp [Wing.sliceMove, h]
  · simp [Wing.sliceMove, h]
  · cases hdue : w.dueSlices <;> simp [Wing.sliceMove, h, hdue]

/-- An entry of a repair map once another physical unit serves `b`. -/
theorem rep_set (m : SMap Nat) (b v j : Nat) : SMap.get (SMap.set m b b v) j j = if j = b then v else SMap.get m j j := by
  by_cases h : j = b
  · subst h
    simp
  · rw [if_neg h, get_set_elsewhere _ _ _ _ h]

/-- Physical bank `a` that gives logical bank `b` to spare `s`. -/
theorem Wing.moveBank_spec (w : Wing) {a s b : Nat} (hb : w.logicalBank a = some b) (hne : a ≠ s) :
    (∀ j, (w.moveBank a s).repBank j = if j = b then s else w.repBank j) ∧ ((w.moveBank a s).physBank s).state = 1 ∧
      ((w.moveBank a s).physBank a).state = 3 ∧ (w.moveBank a s).int.move = w.int.move ∧
      (w.moveBank a s).ctr cMigrateBank = w.ctr cMigrateBank + 1 ∧ (w.moveBank a s).pan.slots = w.pan.slots := by
  unfold Wing.moveBank
  rw [hb]
  extract_lets phys1 w1 phys2 w2
  have hphys : ∀ p, w2.physBank p = if p = a then { w1.physBank a with state := 3 } else
      if p = s then { w.physBank s with state := 1 } else w.physBank p := fun p => by
    refine (w1.physBank_setPhysBank a p _).trans (ite_congr rfl (fun _ => rfl) fun _ => ?_)
    exact w.physBank_setPhysBank s p { w.physBank s with state := 1 }
  have hctr : w2.ctr cMigrateBank = w.ctr cMigrateBank := rfl
  have hrep : w2.int.repBank = w.int.repBank := rfl
  have hkeep : w2.int.move = w.int.move ∧ w2.pan.slots = w.pan.slots := ⟨rfl, rfl⟩
  clear_value w2
  refine ⟨fun j => (congrArg (fun m => SMap.get (SMap.set m b b s) j j) hrep).trans (rep_set w.int.repBank b s j), ?_, ?_, hkeep.1,
    (Wing.ctr_count_self _ _).trans (congrArg (· + 1) hctr), hkeep.2⟩
  · exact congrArg Phys.state ((hphys s).trans ((if_neg hne.symm).trans (if_pos rfl)))
  · exact congrArg Phys.state ((hphys a).trans (if_pos rfl))

/-- Physical scan slice `a` that gives logical slice `b` to spare `s`. -/
theorem Wing.moveSlice_spec (w : Wing) {a s b : Nat} (hb : w.logicalSlice a = some b) :
    (∀ j, (w.moveSlice a s).repSlice j = if j = b then s else w.repSlice j) ∧ (w.moveSlice a s).int.move = w.int.move ∧
      (w.moveSlice a s).ctr cMigrateSlice = w.ctr cMigrateSlice + 1 ∧ (w.moveSlice a s).pan.slots = w.pan.slots := by
  unfold Wing.moveSlice
  rw [hb]
  extract_lets w1 w2
  exact ⟨fun j => rep_set w.int.repSlice b s j, rfl, Wing.ctr_count_self _ _, rfl⟩

/-- The end of a bank's move. -/
theorem Wing.endBank_spec (w : Wing) (m : UnitMove) (b : Nat) (hslice : m.slice = false) (hb : w.logicalBank m.old = some b)
    (hne : m.old ≠ m.spare) :
    (w.endMove m).repBank b = m.spare ∧ ((w.endMove m).physBank m.spare).state = 1 ∧ ((w.endMove m).physBank m.old).state = 3 ∧
      (∀ j, j ≠ b → (w.endMove m).repBank j = w.repBank j) ∧ (w.endMove m).int.move = none ∧
      (w.endMove m).ctr cMigrateBank = w.ctr cMigrateBank + 1 ∧ (w.endMove m).pan.slots = w.pan.slots := by
  unfold Wing.endMove
  extract_lets int1 w1
  rw [if_neg (by simp [hslice])]
  obtain ⟨hmap, hspare, hold, hmove, hctr, hslots⟩ := w1.moveBank_spec (a := m.old) (s := m.spare) (b := b) hb hne
  generalize w1.moveBank m.old m.spare = u at *
  obtain ⟨⟨hrep', -, hmove', hbank', hslots', hctr', -⟩, -⟩ := u.settleSpares_units
  have hrep : ∀ j, u.settleSpares.repBank j = u.repBank j := fun j => congrArg (fun q => SMap.get q j j) hrep'
  have hphys : ∀ p, u.settleSpares.physBank p = u.physBank p := fun p => congrArg (fun q => SMap.get q (Phys.resetBank p) p) hbank'
  exact ⟨(hrep b).trans ((hmap b).trans (if_pos rfl)), (congrArg Phys.state (hphys _)).trans hspare,
    (congrArg Phys.state (hphys _)).trans hold, fun j hj => (hrep j).trans ((hmap j).trans (if_neg hj)), hmove'.trans hmove,
    hctr'.trans hctr, hslots'.trans hslots⟩

/-- The end of a scan slice's move. -/
theorem Wing.endSlice_spec (w : Wing) (m : UnitMove) (b : Nat) (hslice : m.slice = true) (hb : w.logicalSlice m.old = some b) :
    (w.endMove m).repSlice b = m.spare ∧ (∀ j, j ≠ b → (w.endMove m).repSlice j = w.repSlice j) ∧ (w.endMove m).int.move = none ∧
      (w.endMove m).ctr cMigrateSlice = w.ctr cMigrateSlice + 1 ∧ (w.endMove m).pan.slots = w.pan.slots := by
  unfold Wing.endMove
  extract_lets int1 w1
  rw [if_pos hslice]
  obtain ⟨hmap, hmove, hctr, hslots⟩ := w1.moveSlice_spec (a := m.old) (s := m.spare) (b := b) hb
  generalize w1.moveSlice m.old m.spare = u at *
  obtain ⟨⟨-, hrep', hmove', -, hslots', -, hctr'⟩, -⟩ := u.settleSpares_units
  have hrep : ∀ j, u.settleSpares.repSlice j = u.repSlice j := fun j => congrArg (fun q => SMap.get q j j) hrep'
  exact ⟨(hrep b).trans ((hmap b).trans (if_pos rfl)), fun j hj => (hrep j).trans ((hmap j).trans (if_neg hj)), hmove'.trans hmove,
    hctr'.trans hctr, hslots'.trans hslots⟩

theorem Wing.moveStep_bank (w : Wing) {m : UnitMove} {k : Tick} (hmove : w.int.move = some m) (hready : m.ready.toNat ≤ w.now.toNat)
    (hslice : m.slice = false) (hscan : m.scan = some k) (hdone : k.toNat + w.scanTicks ≤ w.now.toNat) :
    w.moveStep = w.endMove m := by
  unfold Wing.moveStep
  rw [hmove]
  dsimp only
  rw [if_neg (by simpa using hready), if_neg (by simp [hslice])]
  split
  · rfl
  · rw [hscan]
    exact if_pos (by simpa using hdone)

theorem Wing.moveStep_slice (w : Wing) {m : UnitMove} (hmove : w.int.move = some m) (hready : m.ready.toNat ≤ w.now.toNat)
    (hslice : m.slice = true) (hscan : w.scanBegins = true) : w.moveStep = w.endMove m := by
  unfold Wing.moveStep
  rw [hmove]
  dsimp only
  rw [if_neg (by simpa using hready), if_pos hslice, if_pos hscan]

end Sys2Proof.Machine

namespace Sys2Proof
open Machine

/-- Settles O56: a pass by its result (R345), the windows (R350), and the moves from their start to the map that names the spare
(R352, R353); settling the spares at either end moves no unit. -/
theorem passesWindowsAndMoves : Obligations.PassesWindowsAndMoves := by
  unfold Obligations.PassesWindowsAndMoves
  refine ⟨fun s w => ⟨fun hrun hdue => ⟨fun hsame => ?_, fun hother => ?_, fun k m hk => ?_⟩, fun hidle r => ?_, fun hrun hwin => ?_,
    fun hidle => ?_⟩, fun s w a p rest hmay => ⟨fun hduel hspare => ?_, fun hbanks hduel hspare => ?_⟩, fun s w => ⟨fun h => ?_, fun h => ?_⟩,
    fun v m b hmove hready hne => ⟨fun k hslice hscan hdone hb => ?_, fun hslice hscan hb => ?_⟩⟩
  · obtain ⟨t, ht, honly, hwing, hout⟩ := (stepsWing (i := .signaturePass w []) rfl).leaves
      (v := (s.wing w).silent.passEnd) (if_pos (Bool.and_eq_true_iff.mpr ⟨hrun, decide_eq_true hdue⟩))
    rw [(s.wing w).silent.passEnd_same hsame] at hwing hout
    exact ⟨t, ht, honly, hout, hwing⟩
  · obtain ⟨t, ht, honly, hwing, hout⟩ := (stepsWing (i := .signaturePass w []) rfl).leaves
      (v := (s.wing w).silent.passEnd) (if_pos (Bool.and_eq_true_iff.mpr ⟨hrun, decide_eq_true hdue⟩))
    obtain ⟨hsig, hself, hctr1, hctr2, hat, hlog, hsilent⟩ := (s.wing w).silent.passEnd_other hother
    exact ⟨t, ht, honly, hout.trans hsilent, (congrArg (·.int.sigRun) hwing).trans hsig, (congrArg (·.int.sigSelf) hwing).trans hself,
      (congrArg (Wing.ctr · cSigSelf) hwing).trans hctr1, (congrArg (Wing.ctr · cSigPasses) hwing).trans hctr2,
      (congrArg (·.int.passAt) hwing).trans hat, (congrArg (·.int.sigLog) hwing).trans hlog⟩
  · have hflip : [(k, m)].foldl Wing.upsetWord (s.wing w).silent = (s.wing w).silent.flipBits k (m &&& rwMask k) := by
      simp [Wing.upsetWord, hk]
    obtain ⟨t, ht, honly, hwing, hout⟩ := (stepsWing (i := .signaturePass w [(k, m)]) rfl).leaves
      (v := ((s.wing w).silent.flipBits k (m &&& rwMask k)).passEnd)
      ((if_pos (Bool.and_eq_true_iff.mpr ⟨hrun, decide_eq_true hdue⟩)).trans (congrArg Wing.passEnd hflip))
    obtain ⟨hcfg, heff, hrest⟩ := (s.wing w).silent.flipBits_word k (m &&& rwMask k)
    have hmiss : ((s.wing w).silent.flipBits k (m &&& rwMask k)).int.passMiss = (s.wing w).int.passMiss := rfl
    have hsilent : ((s.wing w).silent.flipBits k (m &&& rwMask k)).out = [] := rfl
    generalize (s.wing w).silent.flipBits k (m &&& rwMask k) = u at *
    have hword : ∀ j, (t.wing w).cfgW j = u.cfgW j ∧ (t.wing w).effW j = u.effW j := fun j =>
      ⟨(congrArg (Wing.cfgW · j) hwing).trans (u.passEnd_cfgW j), (congrArg (Wing.effW · j) hwing).trans (u.passEnd_effW j)⟩
    refine ⟨t, ht, honly, hout.trans (u.passEnd_words.2.2.2.2.trans hsilent), (hword k).1.trans hcfg, (hword k).2.trans heff,
      fun j hj => ⟨(hword j).1.trans (hrest j hj).1, (hword j).2.trans (hrest j hj).2⟩, ?_⟩
    have hsigned : (t.wing w).signedWords = u.signedWords := (congrArg Wing.signedWords hwing).trans u.passEnd_signedWords
    rw [hsigned, ← hmiss]
    exact (congrArg (·.int.sigRun) hwing).trans u.passEnd_sigRun
  · refine (stepsWing (i := .signaturePass w r) rfl).stands (if_neg ?_)
    rcases hidle with h | h
    · simp [h]
    · exact fun hboth => Nat.not_le.mpr h (of_decide_eq_true (Bool.and_eq_true_iff.mp hboth).2)
  · obtain ⟨t, ht, honly, hwing, hout⟩ := (stepsWing (i := .wearWindowEnd w) rfl).leaves
      (v := (s.wing w).silent.wearRestart) (if_pos (Bool.and_eq_true_iff.mpr ⟨hrun, decide_eq_true hwin⟩))
    refine ⟨t, ht, honly, hout, fun p => ?_, ?_⟩
    · obtain ⟨hbank, hslice⟩ := (s.wing w).silent.wearRestart_wear p
      exact ⟨(congrArg (fun v => (Wing.physBank v p).wear) hwing).trans hbank,
        (congrArg (fun v => (Wing.physSlice v p).wear) hwing).trans hslice⟩
    · obtain ⟨banks, slices, lanes, he⟩ := (s.wing w).silent.wearRestart_eq
      rw [he] at hwing
      rw [hwing]
      rfl
  · refine (stepsWing (i := .wearWindowEnd w) rfl).stands (if_neg ?_)
    rcases hidle with h | h
    · exact fun hboth => Bool.false_ne_true (h.symm.trans (Bool.and_eq_true_iff.mp hboth).1)
    · exact fun hboth => h (of_decide_eq_true (Bool.and_eq_true_iff.mp hboth).2)
  · obtain ⟨t, ht, honly, hwing, -⟩ := (stepsWing (i := .bankMove w) rfl).leaves
      (Wing.bankMove_starts (s.wing w).silent hmay hduel hspare)
    obtain ⟨hstate, hmv, hrep, hslots⟩ := (s.wing w).silent.startBank_spec a p
    exact ⟨t, ht, honly, hwing ▸ hstate, hwing ▸ hmv, hwing ▸ hrep, hwing ▸ hslots⟩
  · obtain ⟨t, ht, honly, hwing, -⟩ := (stepsWing (i := .scanSliceMove w) rfl).leaves
      (Wing.sliceMove_starts (s.wing w).silent hmay hbanks hduel hspare)
    obtain ⟨hstate, hmv, hrep, hslots⟩ := (s.wing w).silent.startSlice_spec a p
    exact ⟨t, ht, honly, hwing ▸ hstate, hwing ▸ hmv, hwing ▸ hrep, hwing ▸ hslots⟩
  · exact (stepsWing (i := .bankMove w) rfl).stands (Wing.bankMove_stands _ h)
  · exact (stepsWing (i := .scanSliceMove w) rfl).stands (Wing.sliceMove_stands _ h)
  · rw [v.moveStep_bank hmove hready hslice hscan hdone]
    exact v.endBank_spec m b hslice hb hne
  · rw [v.moveStep_slice hmove hready hslice hscan]
    exact v.endSlice_spec m b hslice hb

end Sys2Proof
end

section
/-! Mirrored writes at the register port: how an access is taken, what a 32-bit write comes to, and its answer (R360 to R367, R403). -/

namespace Sys2Proof.Machine

/-! ## 32-bit accesses -/

/-- A 32-bit write of `d` to the word at `k`. -/
def wordWrite (a : RegAccess) (k : Nat) (d : Word) : Prop :=
  a.strb = 0x0F ∧ k = a.addr.toNat / 8 * 8 ∧ d = a.data.extractLsb' 0 32 ∨
    a.strb = 0xF0 ∧ k = a.addr.toNat / 8 * 8 + 4 ∧ d = a.data.extractLsb' 32 32

/-- The half that a 32-bit write of `d` to `k` consists of. -/
def wordHalf (k : Nat) (d : Word) : Nat × Word × Word := (k, byteBits 0 4, d)

theorem byteBits_and (x : Word) : byteBits 0 4 &&& x = x := by
  rw [show byteBits 0 4 = BitVec.allOnes 32 from rfl, BitVec.allOnes_and]

theorem wordWrite_halves {a : RegAccess} {k : Nat} {d : Word} (h : wordWrite a k d) :
    ∃ r, runOf a.strb = some r ∧ r.2 = 4 ∧ accHalves a r = [wordHalf k d] := by
  rcases h with ⟨hs, rfl, rfl⟩ | ⟨hs, rfl, rfl⟩
  · exact ⟨(0, 4), by rw [hs]; decide, rfl, rfl⟩
  · exact ⟨(4, 4), by rw [hs]; decide, rfl, rfl⟩

theorem wordWrite_lt {a : RegAccess} {k : Nat} {d : Word} (h : wordWrite a k d) : k < 0x10000 := by
  have := a.addr.isLt
  rcases h with ⟨-, rfl, -⟩ | ⟨-, rfl, -⟩ <;> omega

theorem keyAddr_window {k : Nat} (h : k < 0x10000) : keyAddr k = BitVec.ofNat 24 k := by
  unfold keyAddr
  rw [if_pos h]

/-- A mirrored word of the window is no word of the indirect port. -/
theorem direct_of_mirrored {k : Nat} (h : isMirrored k = true) : k ≠ oIndData ∧ k ≠ oIndDataHi := by
  refine ⟨?_, ?_⟩
  · rintro rfl
    exact absurd h (by decide)
  · rintro rfl
    exact absurd h (by decide)

theorem isIndirect_of_direct {a : RegAccess} {k : Nat} {d : Word} (h : wordWrite a k d) (hk : k ≠ oIndData ∧ k ≠ oIndDataHi) :
    isIndirect a = false := by
  obtain ⟨hdata, hhi⟩ := hk
  unfold isIndirect accBase
  rcases h with ⟨-, rfl, -⟩ | ⟨-, rfl, -⟩
  · exact beq_eq_false_iff_ne.mpr hdata
  · exact beq_eq_false_iff_ne.mpr fun heq => hhi (congrArg (· + 4) heq)

theorem Wing.keyOf_direct (w : Wing) {k : Nat} (hk : k ≠ oIndData ∧ k ≠ oIndDataHi) : w.keyOf k = k := by
  obtain ⟨hdata, hhi⟩ := hk
  unfold Wing.keyOf
  rw [if_neg hdata, if_neg hhi]

theorem pathOf_direct {a : RegAccess} (halias : a.alias_ = false) (h : isIndirect a = false) : pathOf a = 0 := by
  simp [pathOf, halias, h]

/-- What every 32-bit write to a word that is no word of the indirect port has in common: its one half, and no use of IND_ADDR. -/
theorem Wing.doWrite_word (w : Wing) {a : RegAccess} {k : Nat} {d : Word} (halias : a.alias_ = false) (ha : wordWrite a k d)
    (hk : k ≠ oIndData ∧ k ≠ oIndDataHi) : ∃ r, runOf a.strb = some r ∧ r.2 = 4 ∧ w.keyHalves a r = [wordHalf k d] ∧
      isIndirect a = false ∧ pathOf a = 0 ∧ w.passive a = false ∧ keyAddr k = BitVec.ofNat 24 k := by
  obtain ⟨r, hrun, hlen, hhalf⟩ := wordWrite_halves ha
  have hind := isIndirect_of_direct ha hk
  refine ⟨r, hrun, hlen, ?_, hind, pathOf_direct halias hind, by simp [Wing.passive, halias], keyAddr_window (wordWrite_lt ha)⟩
  simp [Wing.keyHalves, hhalf, wordHalf, w.keyOf_direct hk]

/-- A 32-bit write that fails a check. -/
theorem Wing.doWrite_word_refused (w : Wing) {a : RegAccess} {k : Nat} {d : Word} (halias : a.alias_ = false) (ha : wordWrite a k d)
    (hk : k ≠ oIndData ∧ k ≠ oIndDataHi) {reason : BitVec 4} (h : w.halfError false 4 (wordHalf k d) = some reason) :
    w.doWrite a = w.refuseAccess a reason (BitVec.ofNat 24 k) := by
  obtain ⟨r, hrun, hlen, hhalf, hind, -, hpass, hkey⟩ := w.doWrite_word halias ha hk
  have herr : w.firstError false 4 [wordHalf k d] = some (k, reason) := by
    simp only [Wing.firstError, List.findSome?, h, Option.map_some]
    rfl
  simp [Wing.doWrite, hrun, hlen, hhalf, hind, hpass, herr, hkey]

/-- What a 32-bit write to the mirrored word at `k` comes to at the port, by the wing, the records and the reason of a refusal that
`b` holds. -/
def Wing.afterMirrored (w : Wing) (a : RegAccess) (k : Nat) (b : Wing × List RegwRec × Option (BitVec 4)) : Wing :=
  match b.2.2, b.2.1 with
  | some reason, _ => b.1.refuseAccess a reason (BitVec.ofNat 24 k)
  | none, [] => b.1.portOk 0
  | none, rs => { b.1 with regs := { b.1.regs with
      portHeld := some { recs := rs, req := a.req, path := 0, strb := a.strb, old := [(k, w.cfgW k)], dual := w.regs.dual } } }

/-- A 32-bit write to a mirrored word that passes its checks. -/
theorem Wing.doWrite_word_passed (w : Wing) {a : RegAccess} {k : Nat} {d : Word} (halias : a.alias_ = false) (ha : wordWrite a k d)
    (hk : isMirrored k = true) (h : w.halfError false 4 (wordHalf k d) = none) :
    w.doWrite a = w.afterMirrored a k (w.writeMirrored a.req [wordHalf k d]) := by
  obtain ⟨r, hrun, hlen, hhalf, hind, hpath, hpass, hkey⟩ := w.doWrite_word halias ha (direct_of_mirrored hk)
  have herr : w.firstError false 4 [wordHalf k d] = none := by
    simp only [Wing.firstError, List.findSome?, h, Option.map_none]
  have hmir : [wordHalf k d].filter (fun h => isMirrored h.1) = [wordHalf k d] := List.filter_eq_self.mpr (by simpa [wordHalf] using hk)
  have hloc : [wordHalf k d].filter (fun h => !isMirrored h.1) = [] := List.filter_eq_nil_iff.mpr (by simpa [wordHalf] using hk)
  have hstep : ∀ v : Wing, v.indStep 0 a.strb = v := fun v => by simp [Wing.indStep, hrun]
  unfold Wing.doWrite
  simp only [hrun, hlen, hhalf, hind, hpass, herr, hmir, hloc, hpath, hstep, List.foldl_nil, List.cons_ne_nil, if_false,
    Bool.false_eq_true, List.map_cons, List.map_nil, List.headD_cons]
  obtain ⟨v, recs, reason⟩ := w.writeMirrored a.req [wordHalf k d]
  cases reason with
  | some reason => exact congrArg (v.refuseAccess a reason) hkey
  | none => cases recs <;> rfl

/-! ## The checks -/

theorem Wing.halfError_mirrored (w : Wing) {k : Nat} (d : Word) (hk : isMirrored k = true) :
    w.halfError false 4 (wordHalf k d) =
      if !w.takesMirrored then some reNotActive
      else if w.locked k then some reLocked
      else if (dualBit k).isNone && !valueOk k (w.merged (wordHalf k d)) then some reValue
      else none := by
  simp [Wing.halfError, wordHalf, hk]

/-- The word that a 32-bit write leaves. -/
theorem Wing.merged_word (w : Wing) (k : Nat) (d : Word) :
    w.merged (wordHalf k d) = (w.cfgW k &&& ~~~rwMask k) ||| (d &&& rwMask k) ||| (w.cfgW k &&& lockMask k) := by
  unfold Wing.merged mergeWord wordHalf
  rw [byteBits_and]

/-! ## The port -/

theorem Wing.portDo_write (w : Wing) (a : RegAccess) : w.portDo true a = w.doWrite a := rfl

theorem Wing.drainPort_of_empty (w : Wing) (h : w.regs.portQueue = []) : w.drainPort = w := by
  unfold Wing.drainPort
  rw [h]
  show { w with regs := { w.regs with portQueue := [] } } = w
  rw [← h]

theorem Wing.portTake_held (w : Wing) (write : Bool) (a : RegAccess) (h : w.life = .held) :
    w.portTake write a = w.emit (.regRsp w.id false 0) := by
  unfold Wing.portTake
  rw [h]

theorem Wing.portTake_deep (w : Wing) (write : Bool) (a : RegAccess) (h : w.life = .deep) : w.portTake write a = w := by
  unfold Wing.portTake
  rw [h]

/-- An access behind a write that is not answered yet. -/
theorem Wing.portTake_behind (w : Wing) (write : Bool) (a : RegAccess) (hlife : w.life = .run) (hheld : w.regs.portHeld ≠ none) :
    w.portTake write a = { w with regs := { w.regs with portQueue := w.regs.portQueue ++ [(write, a)] } } := by
  have hsleep : w.portSleeps = false := by simp [Wing.portSleeps, hlife]
  have hblock : w.portBlocked write a = true := by
    simp [Wing.portBlocked, hsleep, Option.isSome_iff_ne_none, hheld]
  unfold Wing.portTake
  rw [hlife]
  dsimp only
  rw [if_pos (by simp [hblock])]
  split
  · exact Wing.wake_of_running rfl _
  · rfl

/-- Each command of the port is the port's step on its access. -/
theorem stepsWing_port {w : WingId} {i : Instr} {write : Bool} {a : RegAccess}
    (hi : (i, write) ∈ [(Instr.registerWrite w a, true), (.readClear w a, false), (.indirectAccess w true a, true),
      (.indirectAccess w false a, false), (.lockBitSet w a, true), (.dualControlWrite w a, true)]) (s : State) :
    StepsWing i s w fun v => v.portTake write a := by
  simp only [List.mem_cons, Prod.mk.injEq, List.not_mem_nil, or_false] at hi
  rcases hi with ⟨rfl, rfl⟩ | ⟨rfl, rfl⟩ | ⟨rfl, rfl⟩ | ⟨rfl, rfl⟩ | ⟨rfl, rfl⟩ | ⟨rfl, rfl⟩ <;> exact stepsWing rfl

/-! ## A write that is stored -/

/-- The wing with the word `v` stored at `k`, carried in the record `r`, and the port held. -/
theorem Wing.writeMirrored_stored (w : Wing) (req : Byte) {k : Nat} (d : Word) (hdual : dualBit k = none) (hboot : w.inBringUp = false) :
    w.writeMirrored req [wordHalf k d] = (((w.setCfg k (regwFor k (w.merged (wordHalf k d)) req false).val).dropLocked.place
      (.regw (regwFor k (w.merged (wordHalf k d)) req false))), [regwFor k (w.merged (wordHalf k d)) req false], none) := by
  simp [Wing.writeMirrored, Wing.storeHalf, wordHalf, hdual, hboot]

theorem regwFor_window {k : Nat} (h : k < 0x10000) (v : Word) (req : Byte) (pend : Bool) :
    regwFor k v req pend = { space := 0, dualPend := pend, req := req, addr := BitVec.ofNat 32 k, val := v } := if_pos h

/-- A 32-bit write to a mirrored word that the active wing stores. -/
theorem Wing.doWrite_stored (w : Wing) {a : RegAccess} {k : Nat} {d v : Word} (halias : a.alias_ = false) (ha : wordWrite a k d)
    (hk : isMirrored k = true) (hdual : dualBit k = none) (htakes : w.takesMirrored = true) (hboot : w.inBringUp = false)
    (hlock : w.locked k = false) (hv : w.merged (wordHalf k d) = v) (hok : valueOk k v = true) (r : RegwRec)
    (hr : r = { space := 0, dualPend := false, req := a.req, addr := BitVec.ofNat 32 k, val := v }) :
    w.doWrite a = { (w.setCfg k v).dropLocked.place (.regw r) with
      regs := { ((w.setCfg k v).dropLocked.place (.regw r)).regs with
        portHeld := some { recs := [r], req := a.req, path := 0, strb := a.strb, old := [(k, w.cfgW k)], dual := w.regs.dual } } } := by
  have herr : w.halfError false 4 (wordHalf k d) = none := by
    simp [w.halfError_mirrored d hk, htakes, hlock, hdual, hv, hok]
  rw [w.doWrite_word_passed halias ha hk herr, w.writeMirrored_stored a.req d hdual hboot, regwFor_window (wordWrite_lt ha), hv, ← hr]
  subst hr
  rfl

/-- What a stored write leaves: the word as stored alone, and its record among those that wait for a frame. -/
theorem Wing.stored_spec (w : Wing) (k : Nat) (r : RegwRec) :
    ((w.setCfg k r.val).dropLocked.place (.regw r)).cfgW k = r.val ∧
      (∀ j, j ≠ k → ((w.setCfg k r.val).dropLocked.place (.regw r)).cfgW j = w.cfgW j) ∧
      (∀ j, ((w.setCfg k r.val).dropLocked.place (.regw r)).effW j = w.effW j) ∧
      ((w.setCfg k r.val).dropLocked.place (.regw r)).psg.defr = w.psg.defr ++ [.regw r] ∧
      ((w.setCfg k r.val).dropLocked.place (.regw r)).out = w.out := by
  obtain ⟨hgen, hcfg, heff, -, -, hout⟩ := (w.setCfg k r.val).dropLocked_words
  have hword : ∀ j, ((w.setCfg k r.val).dropLocked.place (.regw r)).cfgW j = (w.setCfg k r.val).cfgW j := fun j => by
    simp [Wing.cfgW, hcfg]
  refine ⟨?_, fun j hj => ?_, fun j => ?_, ?_, ?_⟩
  · rw [hword, Wing.cfgW_setCfg, if_pos rfl]
  · rw [hword, Wing.cfgW_setCfg, if_neg hj]
  · rw [show w.effW j = (w.setCfg k r.val).effW j from rfl]
    simp only [Wing.effW, Wing.place_keeps, heff, hgen]
  · rw [Wing.place_psg]
    simp [Rec.group]
  · simp

/-! ## The answer -/

/-- The step of IND_ADDR moves nothing else, and moves it for an indirect access only. -/
theorem Wing.indStep_spec (w : Wing) (path : BitVec 2) (strb : Byte) :
    ∃ addr, w.indStep path strb = { w with regs := { w.regs with indAddr := addr } } ∧ (path ≠ 2 → addr = w.regs.indAddr) := by
  unfold Wing.indStep
  split
  · split
    · rename_i hpath
      unfold Wing.indNext
      split
      · exact ⟨_, rfl, fun h => absurd hpath h⟩
      · exact ⟨_, rfl, fun _ => rfl⟩
    · exact ⟨_, rfl, fun _ => rfl⟩
  · exact ⟨_, rfl, fun _ => rfl⟩

/-- The answer once every frame with a record of the held write is committed, with no access behind it. -/
theorem Wing.writeAnswer_of_committed (w : Wing) {h : HeldWrite} (hheld : w.regs.portHeld = some h)
    (hall : ∀ r ∈ h.recs, w.recCommitted r = true) (hqueue : w.regs.portQueue = []) :
    w.writeAnswer = ({ w with regs := { w.regs with portHeld := none } }.indStep h.path h.strb).portOk 0 := by
  unfold Wing.writeAnswer
  simp only [hheld]
  rw [if_pos (List.all_eq_true.mpr hall)]
  obtain ⟨addr, haddr, -⟩ := Wing.indStep_spec { w with regs := { w.regs with portHeld := none } } h.path h.strb
  rw [haddr]
  exact Wing.drainPort_of_empty _ hqueue

end Sys2Proof.Machine

namespace Sys2Proof
open Machine

/-- Settles O57: a 32-bit write to a mirrored word by its checks (R365), the answer by the commit of its records (R367), and the accesses
of a wing in reset, of one in Deep and behind a held write (R403). -/
theorem mirroredWritesAreCarried : Obligations.MirroredWritesAreCarried := by
  unfold Obligations.MirroredWritesAreCarried
  refine ⟨fun s w a k d v hrun hheld hqueue halias ha hk hdual => ⟨fun hact hlast hboot hlock hv hok => ?_, fun hout => ?_⟩,
    fun s w => ⟨fun hheld hqueue => ?_, fun h hheld => ⟨fun hall hqueue => ?_, fun r hr hwait => ?_⟩⟩,
    fun s w i write a hi => ⟨fun hlife => ?_, fun hlife => ?_, fun hlife hheld => ?_⟩⟩
  · obtain ⟨r, hr⟩ : ∃ r : RegwRec, r = { space := 0, dualPend := false, req := a.req, addr := BitVec.ofNat 32 k, val := v } := ⟨_, rfl⟩
    have htakes : (s.wing w).silent.takesMirrored = true := by
      show ((s.wing w).ctl.role == .active && !(s.wing w).lastTick || (s.wing w).inBringUp) = true
      simp [hact, hlast]
    have hdo := (s.wing w).silent.doWrite_stored halias ha hk hdual htakes hboot hlock
      (((s.wing w).silent.merged_word k d).trans hv.symm) hok r hr
    obtain ⟨t, ht, honly, hwing, hout⟩ := (stepsWing_port (i := .registerWrite w a) (write := true) (a := a) (by simp) s).leaves
      (((s.wing w).silent.portTake_at_once true a hrun hheld hqueue).trans hdo)
    have hval : r.val = v := by rw [hr]
    rw [← hval] at hwing hout
    obtain ⟨hword, hothers, heff, hdefr, hsilent⟩ := (s.wing w).silent.stored_spec k r
    refine ⟨t, r, ht, honly, hout.trans hsilent, hr, ?_, fun j hj => ?_, fun j => ?_, ?_, congrArg (·.regs.portHeld) hwing⟩
    · exact (congrArg (Wing.cfgW · k) hwing).trans (hword.trans hval)
    · exact (congrArg (Wing.cfgW · j) hwing).trans (hothers j hj)
    · exact (congrArg (Wing.effW · j) hwing).trans (heff j)
    · exact (congrArg (·.psg.defr) hwing).trans hdefr
  · have herr : (s.wing w).silent.halfError false 4 (wordHalf k d) = some reNotActive := by
      rw [Wing.halfError_mirrored _ d hk]
      exact if_pos (by rw [show (s.wing w).silent.takesMirrored = false from hout]; rfl)
    have hdo := (s.wing w).silent.doWrite_word_refused halias ha (direct_of_mirrored hk) herr
    have hpath := pathOf_direct halias (isIndirect_of_direct ha (direct_of_mirrored hk))
    obtain ⟨t, ht, honly, hwing, hres⟩ := (stepsWing_port (i := .registerWrite w a) (write := true) (a := a) (by simp) s).leaves
      (((s.wing w).silent.portTake_at_once true a hrun hheld hqueue).trans hdo)
    refine ⟨t, ht, honly, hres, congrArg (·.regs.cfg) hwing, congrArg (·.regs.eff) hwing, ?_, ?_⟩
    · exact (congrArg (Wing.ctr · cRegErr) hwing).trans (Wing.refuseAccess_ctr _ a reNotActive _)
    · refine (congrArg (·.regs.regErrLog) hwing).trans ?_
      rw [← hpath]
      rfl
  · refine (stepsWing (i := .registerWriteAnswer w) rfl).stands ?_
    have hnone : (s.wing w).silent.regs.portHeld = none := hheld
    simp only [Wing.writeAnswer, hnone]
    exact Wing.drainPort_of_empty _ hqueue
  · have hans : (s.wing w).silent.writeAnswer = ({ (s.wing w).silent with regs := { (s.wing w).silent.regs with portHeld := none } }.indStep
        h.path h.strb).portOk 0 := Wing.writeAnswer_of_committed _ hheld hall hqueue
    obtain ⟨t, ht, honly, hwing, hout⟩ := (stepsWing (i := .registerWriteAnswer w) rfl).leaves hans
    obtain ⟨addr, haddr, hpath⟩ := Wing.indStep_spec
      { (s.wing w).silent with regs := { (s.wing w).silent.regs with portHeld := none } } h.path h.strb
    rw [haddr] at hwing hout
    refine ⟨t, ht, honly, hout, congrArg (·.regs.portHeld) hwing, congrArg (·.regs.cfg) hwing, congrArg (·.regs.eff) hwing,
      fun hne => ?_⟩
    rw [hpath hne] at hwing
    exact hwing
  · refine (stepsWing (i := .registerWriteAnswer w) rfl).stands ?_
    have hsome : (s.wing w).silent.regs.portHeld = some h := hheld
    simp only [Wing.writeAnswer, hsome]
    refine if_neg fun hall => ?_
    exact Bool.false_ne_true (hwait.symm.trans (List.all_eq_true.mp hall r hr))
  · obtain ⟨t, ht, honly, hwing, hout⟩ := (stepsWing_port hi s).leaves ((s.wing w).silent.portTake_held write a hlife)
    exact ⟨t, ht, honly, hout, hwing⟩
  · exact (stepsWing_port hi s).stands ((s.wing w).silent.portTake_deep write a hlife)
  · obtain ⟨t, ht, honly, hwing, hout⟩ := (stepsWing_port hi s).leaves ((s.wing w).silent.portTake_behind write a hlife hheld)
    exact ⟨t, ht, honly, hout, hwing⟩

end Sys2Proof
end

section
/-! Reads that clear, the indirect port, and snapshots (R369 to R374). -/

namespace Sys2Proof.Machine

/-! ## 64-bit reads of the window -/

/-- No word of the counters' range is one that software, or the wing itself, writes as a configuration word. -/
theorem counterRange_unwritten {o : Nat} (h1 : 0x4000 ≤ o) (h2 : o < 0x5000) : rwMask o = 0 ∧ hwMask o = 0 := by
  have hne : ∀ c, c < 0x4000 → o ≠ c := fun c hc h => by omega
  refine ⟨?_, ?_⟩
  · unfold rwMask
    rw [if_pos (by omega)]
    simp only [hne oBootParam (by decide), hne (oBootParam + 4) (by decide), hne oCfgLock (by decide), hne oEngCtrl (by decide),
      hne oEngEsc (by decide), hne oModCeiling (by decide), hne oHallCtrl (by decide), hne oPsgCtrl (by decide),
      hne oTkoCtrl (by decide), hne oTkoHome (by decide), hne oTkoForce (by decide), hne oPwrCtrl (by decide),
      hne oPwrVote (by decide), hne oPwrPchVote (by decide), hne oPwrSaveBase (by decide), hne (oPwrSaveBase + 4) (by decide),
      hne oTimeLock (by decide), hne oIntCtrl (by decide), hne oIntWearCtrl (by decide), hne oIntSigRef (by decide),
      hne (oIntSigRef + 4) (by decide), if_false]
    simp only [show ¬(0x0220 ≤ o ∧ o < 0x0240) by omega, show ¬(0x0320 ≤ o ∧ o < 0x0340) by omega,
      show ¬(0x0700 ≤ o ∧ o < 0x0740) by omega, show ¬(0x1000 ≤ o ∧ o < 0x3000) by omega,
      show ¬(0x3000 ≤ o ∧ o < 0x3400) by omega, if_false]
  · unfold hwMask
    simp only [hne oTkoHandover (by decide), hne (oTkoHandover + 4) (by decide), hne oPwrPair (by decide),
      hne (oPwrPair + 4) (by decide), if_false]

theorem Wing.windowPair_counter (w : Wing) {o : Nat} (h1 : 0x4000 ≤ o) (h2 : o < 0x5000) : w.windowPair o = some (w.countWord o) := by
  have hne : ∀ c, c < 0x4000 → o ≠ c := fun c hc h => by omega
  unfold Wing.windowPair
  simp only [hne 0x0028 (by decide), hne oWingTick (by decide), hne oSnapStatus (by decide), hne oRegErrLog (by decide),
    hne oVstRejectLog (by decide), hne oEngEscLog (by decide), hne oTkoWatermark (by decide), hne oTkoLog (by decide),
    hne oTkoDigestTick (by decide), hne oTkoDigestLog (by decide), hne oPwrWakeTick (by decide), hne oPwrRefuseLog (by decide),
    hne oIntSigLog (by decide), hne oIntSigVals (by decide), hne oIntVoteLog (by decide), hne oIntEccLog (by decide), if_false]
  rw [if_pos ⟨h1, h2⟩]

/-- A counter is read as it stands. -/
theorem Wing.windowRead_counter (w : Wing) {o : Nat} (h1 : 0x4000 ≤ o) (h2 : o < 0x5000) :
    w.windowRead o = if o % 8 = 0 then loWord (w.countWord (o / 8 * 8)) else hiWord (w.countWord (o / 8 * 8)) := by
  obtain ⟨hrw, hhw⟩ := counterRange_unwritten h1 h2
  unfold Wing.windowRead
  rw [if_neg (by simp [hrw, hhw]), w.windowPair_counter (by omega) (by omega)]

/-- A read clears nothing of a counter. -/
theorem Wing.clearWindow_counter (w : Wing) {o : Nat} (h1 : 0x4000 ≤ o) (h2 : o < 0x5000) (m : Word) : w.clearWindow o m = w := by
  have hne : ∀ c, c < 0x4000 → o ≠ c := fun c hc h => by omega
  have hne8 : ∀ c, c < 0x4000 → o / 8 * 8 ≠ c := fun c hc h => by omega
  unfold Wing.clearWindow
  simp only [hne oWingStatus (by decide), hne oVstStatus (by decide), hne oPchFault (by decide), hne oTkoStatus (by decide),
    hne oPwrStatus (by decide), hne oIntStatus (by decide), hne8 oVstRejectLog (by decide), hne8 oRegErrLog (by decide),
    hne8 oEngEscLog (by decide), hne8 oTkoLog (by decide), hne8 oTkoDigestTick (by decide), hne8 oTkoDigestLog (by decide),
    hne8 oPwrRefuseLog (by decide), hne8 oIntSigLog (by decide), hne8 oIntSigVals (by decide), hne8 oIntVoteLog (by decide),
    hne8 oIntEccLog (by decide), if_false]

theorem or_halves (lo hi : Word) : (0 ||| (0#32 ++ lo : DWord) ||| (hi ++ 0#32 : DWord)) = hi ++ lo := by
  refine BitVec.eq_of_getLsbD_eq fun i _ => ?_
  simp only [BitVec.getLsbD_or, BitVec.getLsbD_append]
  by_cases h : i < 32 <;> simp [h]

theorem halves_cleared (d : DWord) : (d &&& ~~~(0#32 ++ byteBits 0 4 : DWord)) &&& ~~~(byteBits 0 4 ++ 0#32 : DWord) = 0 := by
  rw [BitVec.and_assoc, show (~~~(0#32 ++ byteBits 0 4 : DWord)) &&& ~~~(byteBits 0 4 ++ 0#32 : DWord) = 0 by decide]
  exact BitVec.and_zero

/-- What a 64-bit read of the window at `b` returns, and what it clears. -/
theorem Wing.doRead_pair (w : Wing) {a : RegAccess} {b : Nat} (hstrb : a.strb = 0xFF) (halias : a.alias_ = false)
    (hb : a.addr.toNat / 8 * 8 = b) (hind : b ≠ oIndData) (hlt : b + 4 < 0x10000) (hcap : ∀ k c, w.regs.indCap = some (k, c) → 0x10000 ≤ k) :
    w.doRead a = ((w.clearWindow b (byteBits 0 4)).clearWindow (b + 4) (byteBits 0 4)).portOk
      (w.windowRead (b + 4) ++ w.windowRead b) := by
  have hrun : runOf a.strb = some (0, 8) := by rw [hstrb]; decide
  have hnot : isIndirect a = false := beq_eq_false_iff_ne.mpr (by unfold accBase; rw [hb]; exact hind)
  have hhalves : accHalves a (0, 8) = [(b, byteBits 0 4, a.data.extractLsb' 0 32), (b + 4, byteBits 0 4, a.data.extractLsb' 32 32)] := by
    simp [accHalves, accBase, hb]
  have hkey : w.keyOf b = b ∧ w.keyOf (b + 4) = b + 4 := by
    have h8 : b % 8 = 0 := by omega
    have hd : oIndData % 8 = 0 ∧ oIndDataHi = oIndData + 4 := by decide
    exact ⟨w.keyOf_direct ⟨hind, by omega⟩, w.keyOf_direct ⟨by omega, by omega⟩⟩
  have hread : ∀ k d, k < 0x10000 → w.readHalf (k, byteBits 0 4, d) = w.windowRead k := fun k d hk => by
    have hword : w.wordAt k = w.windowRead k := if_pos hk
    unfold Wing.readHalf
    rw [BitVec.and_comm, byteBits_and]
    split
    · rename_i k' c hc
      rw [if_neg (by have := hcap k' c hc; omega), hword]
    · exact hword
  have hclear : ∀ (v : Wing) k m, k < 0x10000 → v.clearRead k m = v.clearWindow k m := fun v k m hk => if_pos hk
  unfold Wing.doRead
  simp only [hrun, halias, hnot, hhalves, Wing.keyHalves, hkey.1, hkey.2, List.map_cons, List.map_nil, hread b _ (by omega),
    hread (b + 4) _ hlt, List.foldl_cons, List.foldl_nil, hclear _ b _ (by omega), hclear _ (b + 4) _ hlt, Bool.false_eq_true, if_false]
  congr 1
  have h8 : b % 8 = 0 := by omega
  simp only [lanesOfHalves, List.zip_cons_cons, List.zip_nil_right, List.foldl_cons, List.foldl_nil, h8, if_true,
    show ¬(b + 4) % 8 = 0 by omega, if_false]
  exact or_halves _ _

/-- REG_ERR_LOG is read whole and cleared. -/
theorem Wing.doRead_errLog (w : Wing) {a : RegAccess} (hstrb : a.strb = 0xFF) (halias : a.alias_ = false)
    (hb : a.addr.toNat / 8 * 8 = oRegErrLog) (hcap : ∀ k c, w.regs.indCap = some (k, c) → 0x10000 ≤ k) :
    w.doRead a = { w with regs := { w.regs with regErrLog := 0 } }.portOk w.regs.regErrLog := by
  rw [w.doRead_pair hstrb halias hb (by decide) (by decide) hcap]
  have hread : w.windowRead (oRegErrLog + 4) ++ w.windowRead oRegErrLog = w.regs.regErrLog := hiWord_append_loWord _
  have hlow : w.clearWindow oRegErrLog (byteBits 0 4) =
      { w with regs := { w.regs with regErrLog := w.regs.regErrLog &&& ~~~(0#32 ++ byteBits 0 4) } } := rfl
  have hhigh : ∀ v : Wing, v.clearWindow (oRegErrLog + 4) (byteBits 0 4) =
      { v with regs := { v.regs with regErrLog := v.regs.regErrLog &&& ~~~(byteBits 0 4 ++ 0#32) } } := fun _ => rfl
  rw [hread, hlow, hhigh]
  simp only [halves_cleared]

/-- A counter is read whole. -/
theorem Wing.doRead_counter (w : Wing) {a : RegAccess} (hstrb : a.strb = 0xFF) (halias : a.alias_ = false)
    (h1 : 0x4000 ≤ a.addr.toNat) (h2 : a.addr.toNat < 0x5000) (hcap : ∀ k c, w.regs.indCap = some (k, c) → 0x10000 ≤ k) :
    w.doRead a = w.portOk (w.countWord (a.addr.toNat / 8 * 8)) := by
  obtain ⟨b, hb⟩ : ∃ b, a.addr.toNat / 8 * 8 = b := ⟨_, rfl⟩
  have hind : b ≠ oIndData := by rw [show oIndData = 0x138 from rfl]; omega
  rw [w.doRead_pair hstrb halias hb hind (by omega) hcap, Wing.clearWindow_counter _ (by omega) (by omega),
    Wing.clearWindow_counter _ (by omega) (by omega), w.windowRead_counter (by omega) (by omega),
    w.windowRead_counter (by omega) (by omega), if_neg (by omega), if_pos (by omega), hb, show (b + 4) / 8 * 8 = b by omega,
    show b / 8 * 8 = b by omega, hiWord_append_loWord]

theorem Wing.doRead_alias (w : Wing) {a : RegAccess} (hstrb : a.strb = 0xFF) (halias : a.alias_ = true) :
    w.doRead a = w.refuseAccess a reAliasRead (0#8 ++ a.addr) := by
  have hrun : runOf a.strb = some (0, 8) := by rw [hstrb]; decide
  simp [Wing.doRead, hrun, halias]

/-! ## The indirect port -/

/-- A hearth's read clears bits of the hearth alone. -/
theorem Wing.clearRead_indirect (w : Wing) {k : Nat} (hk : 0x10000 ≤ k) (m : Word) :
    (w.clearRead k m).regs = w.regs ∧ (w.clearRead k m).id = w.id ∧ (w.clearRead k m).out = w.out := by
  unfold Wing.clearRead
  rw [if_neg (by omega)]
  split
  · unfold Wing.clearHearth Wing.onHearth
    split <;> exact ⟨rfl, rfl, rfl⟩
  · exact ⟨rfl, rfl, rfl⟩

theorem Wing.capture_access (w : Wing) (hs : List (Nat × Word × Word)) : (w.capture hs).id = w.id ∧ (w.capture hs).out = w.out ∧
    (w.capture hs).regs.indAddr = w.regs.indAddr ∧ (w.capture hs).regs.indInc = w.regs.indInc := ⟨rfl, rfl, rfl, rfl⟩

theorem Wing.wordAt_ikey (w : Wing) (x : Nat) : w.wordAt (ikey x) = w.indRead x := by
  unfold Wing.wordAt ikey
  rw [if_neg (by omega), Nat.add_sub_cancel_left]

/-- The half of a 32-bit access at IND_DATA. -/
theorem Wing.keyHalves_indirect (w : Wing) {a : RegAccess} (hb : a.addr.toNat / 8 * 8 = oIndData) :
    isIndirect a = true ∧ accHalves a (0, 4) = [(oIndData, byteBits 0 4, a.data.extractLsb' 0 32)] ∧
      w.keyHalves a (0, 4) = [wordHalf (ikey w.regs.indAddr.toNat) (a.data.extractLsb' 0 32)] := by
  have hhalf : accHalves a (0, 4) = [(oIndData, byteBits 0 4, a.data.extractLsb' 0 32)] := by simp [accHalves, accBase, hb]
  exact ⟨beq_iff_eq.mpr hb, hhalf, by rw [Wing.keyHalves, hhalf]; rfl⟩

/-- A 32-bit read of IND_DATA, where nothing is captured for its word. -/
theorem Wing.doRead_indirect (w : Wing) {a : RegAccess} (hstrb : a.strb = 0x0F) (halias : a.alias_ = false)
    (hb : a.addr.toNat / 8 * 8 = oIndData) (hcap : ∀ k c, w.regs.indCap = some (k, c) → k ≠ ikey w.regs.indAddr.toNat) :
    (w.doRead a).out = w.out ++ [.regRsp w.id true (0#32 ++ w.indRead w.regs.indAddr.toNat)] ∧
      (w.doRead a).regs.indAddr = (if w.regs.indInc then BitVec.ofNat 32 ((w.regs.indAddr.toNat + 4) % 2 ^ 24) else w.regs.indAddr) ∧
      (w.doRead a).regs.indCap = (if isPairLow w.regs.indAddr.toNat then
        some (ikey w.regs.indAddr.toNat + 4, w.indRead (w.regs.indAddr.toNat + 4)) else none) := by
  have hrun : runOf a.strb = some (0, 4) := by rw [hstrb]; decide
  obtain ⟨hind, hoffs, hkeys⟩ := w.keyHalves_indirect hb
  have hread : w.readHalf (wordHalf (ikey w.regs.indAddr.toNat) (a.data.extractLsb' 0 32)) = w.indRead w.regs.indAddr.toNat := by
    unfold Wing.readHalf wordHalf
    rw [BitVec.and_comm, byteBits_and]
    split
    · rename_i k' c hc
      rw [if_neg (hcap k' c hc), w.wordAt_ikey]
    · exact w.wordAt_ikey _
  have hdo : w.doRead a = (((w.capture [wordHalf (ikey w.regs.indAddr.toNat) (a.data.extractLsb' 0 32)]).clearRead
      (ikey w.regs.indAddr.toNat) (byteBits 0 4)).indNext (0, 4)).portOk (0#32 ++ w.indRead w.regs.indAddr.toNat) := by
    unfold Wing.doRead
    simp only [hrun, halias, hind, hoffs, hkeys, List.map_cons, List.map_nil, hread, List.foldl_cons, List.foldl_nil, if_true,
      Bool.false_eq_true, if_false, lanesOfHalves, List.zip_cons_cons, List.zip_nil_right, show oIndData % 8 = 0 from rfl]
    exact congrArg _ BitVec.zero_or
  obtain ⟨hregs, hid, hout⟩ := (w.capture [wordHalf (ikey w.regs.indAddr.toNat) (a.data.extractLsb' 0 32)]).clearRead_indirect
    (show 0x10000 ≤ ikey w.regs.indAddr.toNat by unfold ikey; omega) (byteBits 0 4)
  obtain ⟨hcid, hco, hci, hcn⟩ := w.capture_access [wordHalf (ikey w.regs.indAddr.toNat) (a.data.extractLsb' 0 32)]
  rw [hdo]
  generalize (w.capture _).clearRead _ _ = v at *
  have hcapd : v.regs.indCap = if isPairLow w.regs.indAddr.toNat then
      some (ikey w.regs.indAddr.toNat + 4, w.indRead (w.regs.indAddr.toNat + 4)) else none := by
    rw [hregs, show ikey w.regs.indAddr.toNat + 4 = ikey (w.regs.indAddr.toNat + 4) by unfold ikey; omega, ← w.wordAt_ikey]
    simp [Wing.capture, wordHalf, ikey, Nat.add_assoc]
  have haddr : v.regs.indAddr = w.regs.indAddr ∧ v.regs.indInc = w.regs.indInc := by rw [hregs]; exact ⟨hci, hcn⟩
  have hbase : v.id = w.id ∧ v.out = w.out := ⟨hid.trans hcid, hout.trans hco⟩
  unfold Wing.indNext
  cases hinc : v.regs.indInc with
  | true => exact ⟨by rw [← hbase.1, ← hbase.2]; rfl, by rw [← haddr.1, ← haddr.2, hinc]; rfl, hcapd⟩
  | false => exact ⟨by rw [← hbase.1, ← hbase.2]; rfl, by rw [← haddr.1, ← haddr.2, hinc]; rfl, hcapd⟩

/-- An indirect write to a mirrored word that the wing does not take. -/
theorem Wing.doWrite_indirect_refused (w : Wing) {a : RegAccess} (hstrb : a.strb = 0x0F) (halias : a.alias_ = false)
    (hb : a.addr.toNat / 8 * 8 = oIndData) (htakes : w.takesMirrored = false)
    (hmir : isMirrored (ikey w.regs.indAddr.toNat) = true) :
    w.doWrite a = { w with regs := { w.regs with indCap := none } }.refuseAccess a reNotActive
      (keyAddr (ikey w.regs.indAddr.toNat)) := by
  have hrun : runOf a.strb = some (0, 4) := by rw [hstrb]; decide
  obtain ⟨hind, -, hkeys⟩ := w.keyHalves_indirect hb
  have hpass : w.passive a = false := by simp [Wing.passive, halias]
  have herr : w.firstError false 4 [wordHalf (ikey w.regs.indAddr.toNat) (a.data.extractLsb' 0 32)] =
      some (ikey w.regs.indAddr.toNat, reNotActive) := by
    simp only [Wing.firstError, List.findSome?, w.halfError_mirrored _ hmir, htakes, Bool.not_false, if_true, Option.map_some]
    rfl
  unfold Wing.doWrite
  simp only [hrun, hind, hkeys, hpass, herr, if_true]

/-! ## Snapshots -/

/-- Each counter and gauge in its holding register. -/
theorem hold_counts (f : Nat → DWord) (l : List Nat) (m : SMap DWord) (o : Nat) (h : o ∈ l ∨ SMap.get m 0 (o + 0x1000) = f o) :
    SMap.get (l.foldl (fun m o => SMap.set m 0 (o + 0x1000) (f o)) m) 0 (o + 0x1000) = f o := by
  induction l generalizing m with
  | nil => exact h.resolve_left (by simp)
  | cons a l ih =>
      refine ih _ ?_
      by_cases heq : o = a
      · exact .inr (by rw [heq, SMap.get_set_self])
      · rcases h with h | h
        · exact .inl ((List.mem_cons.mp h).resolve_left heq)
        · exact .inr ((SMap.get_set_ne _ _ _ (by omega)).trans h)

theorem Wing.snapshot_hold (w : Wing) {o : Nat} (h : o ∈ counterOffs) : SMap.get w.snapshot.regs.hold 0 (o + 0x1000) = w.countWord o :=
  hold_counts w.countWord counterOffs w.regs.hold o (.inl h)

/-- A write of `x` to SNAP_CTRL is taken as it comes. -/
theorem Wing.doWrite_snap (w : Wing) (x : DWord) : w.doWrite (snapAccess x) = (w.snapCtrl (x.extractLsb' 0 32)).portOk 0 := by
  have haddr : oSnapCtrl = (BitVec.ofNat 16 oSnapCtrl).toNat / 8 * 8 := by decide
  have ha : wordWrite (snapAccess x) oSnapCtrl (x.extractLsb' 0 32) := .inl ⟨rfl, haddr, rfl⟩
  obtain ⟨r, hrun, hlen, hhalf, hind, hpath, hpass, -⟩ := w.doWrite_word (a := snapAccess x) rfl ha (by decide)
  have herr : w.firstError false 4 [wordHalf oSnapCtrl (x.extractLsb' 0 32)] = none := rfl
  have hmir : [wordHalf oSnapCtrl (x.extractLsb' 0 32)].filter (fun h => isMirrored h.1) = [] := rfl
  have hloc : [wordHalf oSnapCtrl (x.extractLsb' 0 32)].filter (fun h => !isMirrored h.1) =
    [wordHalf oSnapCtrl (x.extractLsb' 0 32)] := rfl
  have hstep : ∀ v : Wing, v.indStep 0 (snapAccess x).strb = v := fun v => by simp [Wing.indStep, hrun]
  have hlocal : w.writeLocal none (wordHalf oSnapCtrl (x.extractLsb' 0 32)) = w.snapCtrl (byteBits 0 4 &&& x.extractLsb' 0 32) := rfl
  unfold Wing.doWrite
  simp only [hrun, hlen, hhalf, hind, hpass, herr, hmir, hloc, hpath, hstep, List.foldl_cons, List.foldl_nil, if_true,
    Bool.false_eq_true, if_false]
  rw [show (snapAccess x).save = none from rfl, hlocal, byteBits_and]

/-- SNAP_CTRL.NOW captures at once; a capture that waits for the boundary still waits. -/
theorem Wing.doWrite_snapNow (w : Wing) : ∃ hold, w.doWrite (snapAccess 1) =
      { w with regs := { w.regs with hold := hold, snapSeq := w.regs.snapSeq + 1, snapTick := w.now } }.portOk 0 ∧
    ∀ o ∈ counterOffs, SMap.get hold 0 (o + 0x1000) = w.countWord o := by
  have hsnap : w.snapCtrl 1 = { w.snapshot with regs := { w.snapshot.regs with snapPend := w.regs.snapPend } } := rfl
  refine ⟨w.snapshot.regs.hold, (w.doWrite_snap 1).trans ?_, fun o ho => w.snapshot_hold ho⟩
  rw [show (1 : DWord).extractLsb' 0 32 = (1 : Word) from by decide, hsnap]
  rfl

/-- SNAP_CTRL.BOUNDARY leaves the capture to the next boundary. -/
theorem Wing.doWrite_snapBoundary (w : Wing) :
    w.doWrite (snapAccess 2) = { w with regs := { w.regs with snapPend := true } }.portOk 0 := by
  rw [w.doWrite_snap, show (2 : DWord).extractLsb' 0 32 = (2 : Word) from by decide]
  rfl

/-- The votes noted at a boundary are the power unit's own. -/
theorem Wing.noteOwnVotes_regs (w : Wing) : w.noteOwnVotes.regs = w.regs := by
  unfold Wing.noteOwnVotes
  refine foldl_keeps Wing.regs _ (fun v k => ?_) _ _
  split
  · rfl
  · split <;> rfl

theorem Wing.showEn_regs (w : Wing) (b : BitVec 4) : (w.showEn b).regs = w.regs := by
  unfold Wing.showEn
  split <;> rfl

/-- What a boundary leaves in its own wing, the other wing's freedom aside. -/
theorem exec_tickBoundary_wing (s : State) (w : WingId) (ecc : List EccFind) :
    ∃ t, exec (.tickBoundary w ecc) s = .next t ∧
      t.wing w = (((s.wing w).silent.boundary ecc).showEn (s.wing w).silent.psgEn).silent := by
  refine ⟨_, rfl, ?_⟩
  have hown := s.onWing_wing w fun v => (v.boundary ecc).showEn v.psgEn
  split
  · exact (State.wing_setWing _ _ _ _).trans ((if_neg (otherWing_ne w).symm).trans hown)
  · exact hown

end Sys2Proof.Machine

namespace Sys2Proof
open Machine

/-- Settles O58: a 64-bit read by what its word is (R369, R370), an access of the indirect port by its one half (R373, R374), and the
snapshots, at once and at a boundary (R372). -/
theorem readsIndirectAccessesAndSnapshots : Obligations.ReadsIndirectAccessesAndSnapshots := by
  unfold Obligations.ReadsIndirectAccessesAndSnapshots
  refine ⟨fun s w a hrun hheld hqueue hstrb hcap => ⟨fun halias h1 h2 => ?_, fun halias hb => ?_, fun halias => ?_⟩,
    fun s w a hrun hheld hqueue hstrb halias hb => ⟨fun hcap => ?_, fun htakes hmir => ?_⟩,
    fun s w => ⟨fun hlife hpend ecc => ?_, fun hrun hheld hqueue => ⟨?_, ?_⟩⟩⟩
  · obtain ⟨t, ht, honly, hwing, hout⟩ := (stepsWing (i := .readClear w a) rfl).leaves
      (((s.wing w).silent.portTake_at_once false a hrun hheld hqueue).trans ((s.wing w).silent.doRead_counter hstrb halias h1 h2 hcap))
    exact ⟨t, ht, honly, hout, hwing⟩
  · obtain ⟨t, ht, honly, hwing, hout⟩ := (stepsWing (i := .readClear w a) rfl).leaves
      (((s.wing w).silent.portTake_at_once false a hrun hheld hqueue).trans ((s.wing w).silent.doRead_errLog hstrb halias hb hcap))
    exact ⟨t, ht, honly, hout, hwing⟩
  · obtain ⟨t, ht, honly, hwing, hout⟩ := (stepsWing (i := .readClear w a) rfl).leaves
      (((s.wing w).silent.portTake_at_once false a hrun hheld hqueue).trans ((s.wing w).silent.doRead_alias hstrb halias))
    refine ⟨t, ht, honly, hout, ?_, ?_⟩
    · exact (congrArg (Wing.ctr · cRegErr) hwing).trans (Wing.refuseAccess_ctr _ a reAliasRead _)
    · have hpath : pathOf a = if a.addr.toNat / 8 * 8 = oIndData then 2 else 1 := by
        simp [pathOf, isIndirect, accBase, halias]
      rw [← hpath]
      exact congrArg (·.regs.regErrLog) hwing
  · obtain ⟨t, ht, honly, hwing, hout⟩ := (stepsWing (i := .indirectAccess w false a) rfl).leaves
      ((s.wing w).silent.portTake_at_once false a hrun hheld hqueue)
    obtain ⟨hdata, haddr, hcapd⟩ := (s.wing w).silent.doRead_indirect hstrb halias hb hcap
    exact ⟨t, ht, honly, hout.trans hdata, (congrArg (·.regs.indAddr) hwing).trans haddr,
      (congrArg (·.regs.indCap) hwing).trans hcapd⟩
  · obtain ⟨t, ht, honly, hwing, hout⟩ := (stepsWing (i := .indirectAccess w true a) rfl).leaves
      (((s.wing w).silent.portTake_at_once true a hrun hheld hqueue).trans
        ((s.wing w).silent.doWrite_indirect_refused hstrb halias hb htakes hmir))
    exact ⟨t, ht, honly, hout, congrArg (·.regs.indAddr) hwing, congrArg (·.regs.cfg) hwing⟩
  · obtain ⟨t, ht, hwing⟩ := exec_tickBoundary_wing s w ecc
    have hregs : (t.wing w).regs = (s.wing w).silent.snapshot.regs := by
      rw [hwing]
      refine (Wing.showEn_regs _ _).trans ?_
      have hlife' : (s.wing w).silent.life = .outOfService := hlife
      have hpend' : (s.wing w).silent.regs.snapPend = true := hpend
      simp only [Wing.boundary, hlife', Wing.noteOwnVotes_regs, Wing.takeSnap, hpend', if_true]
    exact ⟨t, ht, fun o ho => (congrArg (fun r : Regs => SMap.get r.hold 0 (o + 0x1000)) hregs).trans
        ((s.wing w).silent.snapshot_hold ho),
      congrArg (·.snapSeq) hregs, congrArg (·.snapPend) hregs⟩
  · obtain ⟨hold, hdo, hheldRegs⟩ := (s.wing w).silent.doWrite_snapNow
    obtain ⟨t, ht, honly, hwing, hout⟩ := (stepsWing (i := .snapNow w) rfl).leaves
      (((s.wing w).silent.portTake_at_once true (snapAccess 1) hrun hheld hqueue).trans hdo)
    have hhold : (t.wing w).regs.hold = hold := congrArg (·.regs.hold) hwing
    refine ⟨t, ht, honly, hout, fun o ho => ?_, congrArg (·.regs.snapSeq) hwing, congrArg (·.regs.snapTick) hwing, ?_⟩
    · rw [hhold]
      exact hheldRegs o ho
    · rw [hhold]
      exact hwing
  · obtain ⟨t, ht, honly, hwing, hout⟩ := (stepsWing (i := .snapBoundary w) rfl).leaves
      (((s.wing w).silent.portTake_at_once true (snapAccess 2) hrun hheld hqueue).trans (s.wing w).silent.doWrite_snapBoundary)
    exact ⟨t, ht, honly, hout, hwing⟩

end Sys2Proof
end

section
/-! Lock bits and dual control at the register port (R375 to R377). -/

namespace Sys2Proof.Machine

/-! ## Lock bits -/

/-- The registers that hold lock bits. -/
def holdsLock (k : Nat) : Prop := k = oCfgLock ∨ k = oTimeLock ∨ k = oIntCtrl

/-- No lock guards a register that holds lock bits, and every value of it is good. -/
theorem lockReg_open {k : Nat} (h : holdsLock k) (w : Wing) :
    isMirrored k = true ∧ dualBit k = none ∧ w.locked k = false ∧ (∀ v, valueOk k v = true) ∧ lockMask k &&& rwMask k = lockMask k := by
  rcases h with rfl | rfl | rfl
  · exact ⟨by decide, by decide, rfl, fun _ => rfl, by decide⟩
  · exact ⟨by decide, by decide, rfl, fun _ => rfl, by decide⟩
  · exact ⟨by decide, by decide, rfl, fun _ => rfl, by decide⟩

/-- A write of 1 sets a lock bit that software writes, and a write of 0 leaves it. -/
theorem merged_locks (old d r l : Word) (h : l &&& r = l) :
    ((old &&& ~~~r) ||| (d &&& r) ||| (old &&& l)) &&& l = (old ||| d) &&& l := by
  refine BitVec.eq_of_getLsbD_eq fun i hi => ?_
  have hi' := congrArg (BitVec.getLsbD · i) h
  simp only [BitVec.getLsbD_and, BitVec.getLsbD_or, BitVec.getLsbD_not, hi, decide_true, Bool.true_and] at hi' ⊢
  revert hi'
  cases old.getLsbD i <;> cases d.getLsbD i <;> cases r.getLsbD i <;> cases l.getLsbD i <;> decide

/-- A 32-bit write to a mirrored word under the bring-up exception. -/
theorem Wing.doWrite_applied (w : Wing) {a : RegAccess} {k : Nat} {d : Word} (halias : a.alias_ = false) (ha : wordWrite a k d)
    (hk : isMirrored k = true) (hdual : dualBit k = none) (hboot : w.inBringUp = true)
    (herr : w.halfError false 4 (wordHalf k d) = none) :
    w.doWrite a = (w.setWord k (w.merged (wordHalf k d))).dropLocked.portOk 0 := by
  have happ : w.writeMirrored a.req [wordHalf k d] = ((w.setWord k (w.merged (wordHalf k d))).dropLocked, [], none) := by
    simp [Wing.writeMirrored, wordHalf, hdual, hboot, Wing.applyHalf]
  exact (w.doWrite_word_passed halias ha hk herr).trans (congrArg (w.afterMirrored a k) happ)

/-- A 32-bit write to a register with lock bits leaves the merged word there, and no other word changes. -/
theorem Wing.doWrite_lock (w : Wing) {a : RegAccess} {k : Nat} {d : Word} (halias : a.alias_ = false) (ha : wordWrite a k d)
    (hlock : holdsLock k) (htakes : w.takesMirrored = true) :
    ∀ j, (w.doWrite a).cfgW j = if j = k then w.merged (wordHalf k d) else w.cfgW j := by
  obtain ⟨hk, hdual, hopen, hok, -⟩ := lockReg_open hlock w
  have herr : w.halfError false 4 (wordHalf k d) = none := by
    simp [w.halfError_mirrored d hk, htakes, hopen, hdual, hok]
  intro j
  cases hboot : w.inBringUp with
  | true =>
      rw [w.doWrite_applied halias ha hk hdual hboot herr]
      obtain ⟨hword, -⟩ := w.setWord_spec k (w.merged (wordHalf k d))
      exact ((w.setWord k _).dropLocked_words.cfgW j).trans (hword j)
  | false =>
      rw [w.doWrite_stored halias ha hk hdual htakes hboot hopen rfl (hok _) _ rfl]
      obtain ⟨hword, hothers, -⟩ := w.stored_spec k { space := 0, dualPend := false, req := a.req, addr := BitVec.ofNat 32 k,
                                                       val := w.merged (wordHalf k d) }
      by_cases hj : j = k
      · rw [if_pos hj, hj]
        exact hword
      · rw [if_neg hj]
        exact hothers j hj

/-! ## Dual control -/

theorem mirrored_of_dual {k : Nat} (h : dualBit k ≠ none) : isMirrored k = true := by
  unfold dualBit at h
  split at h
  · rename_i hroute
    obtain ⟨hlow, hhigh, -⟩ := hroute
    have hne : ∀ c, c < 0x700 → k ≠ c := fun c hc heq => by omega
    have hmask : rwMask k = 0xFFFFFFFF := by
      unfold rwMask
      rw [if_pos (by omega)]
      simp only [hne oBootParam (by decide), hne (oBootParam + 4) (by decide), hne oCfgLock (by decide), hne oEngCtrl (by decide),
        hne oEngEsc (by decide), hne oModCeiling (by decide), hne oHallCtrl (by decide), hne oPsgCtrl (by decide),
        hne oTkoCtrl (by decide), hne oTkoHome (by decide), hne oTkoForce (by decide), hne oPwrCtrl (by decide),
        hne oPwrVote (by decide), hne oPwrPchVote (by decide), hne oPwrSaveBase (by decide), hne (oPwrSaveBase + 4) (by decide),
        if_false]
      rw [if_neg (by omega), if_neg (by omega), if_pos ⟨hlow, hhigh⟩]
    unfold isMirrored
    rw [hmask]
    decide
  · split at h
    · rename_i heq
      subst heq
      decide
    · split at h
      · rename_i heq
        subst heq
        decide
      · split at h
        · rename_i heq
          subst heq
          decide
        · exact absurd rfl h

theorem Wing.takesMirrored_of_active {w : Wing} (hact : w.ctl.role = .active) (hlast : w.lastTick = false) :
    w.takesMirrored = true := by
  simp [Wing.takesMirrored, hact, hlast]

theorem Wing.ctr_place (w : Wing) (r : Rec) (o : Nat) : (w.place r).ctr o = w.ctr o := by simp [Wing.ctr]

/-- A 32-bit write under dual control that passes its checks is judged as a whole. -/
theorem Wing.doWrite_dual (w : Wing) {a : RegAccess} {k : Nat} {d : Word} (halias : a.alias_ = false) (ha : wordWrite a k d)
    (hdual : dualBit k ≠ none) (htakes : w.takesMirrored = true) (hlock : w.locked k = false) :
    w.doWrite a = w.afterMirrored a k (w.dualWrite k d a.req) := by
  have hk := mirrored_of_dual hdual
  have herr : w.halfError false 4 (wordHalf k d) = none := by
    simp [w.halfError_mirrored d hk, htakes, hlock, hdual]
  have hwrite : w.writeMirrored a.req [wordHalf k d] = w.dualWrite k d a.req := by
    simp [Wing.writeMirrored, wordHalf, Option.isSome_iff_ne_none.mpr hdual]
  exact (w.doWrite_word_passed halias ha hk herr).trans (congrArg (w.afterMirrored a k) hwrite)

/-- With nothing in time to judge it by, a write is a first write. -/
theorem Wing.dualWrite_first (w : Wing) {k : Nat} {d : Word} {req : Byte} (hboot : w.inBringUp = false) (hfor : w.dualFor k = none) :
    w.dualWrite k d req = (w.place (.regw (regwFor k d req true)), [regwFor k d req true], none) := by
  simp [Wing.dualWrite, Wing.judgeDual, Wing.dropLate, hfor, hboot]

/-- In time: the window of the first write has not closed before this tick. -/
theorem Wing.late_of_intime (w : Wing) {h : DualHeld} (hboot : w.inBringUp = false)
    (htime : w.now.toNat ≤ h.at_.toNat + 65536) : h.late w.dualNow = false := by
  have hnow : w.dualNow.toNat = w.now.toNat := by
    have := w.now.isLt
    simp [Wing.dualNow, hboot]
    omega
  unfold DualHeld.late
  rw [hnow]
  exact decide_eq_false (by omega)

/-- A second write of another requester with the same value. -/
theorem Wing.dualWrite_pair (w : Wing) {k : Nat} {d : Word} {req : Byte} {h : DualHeld} (hboot : w.inBringUp = false)
    (hfor : w.dualFor k = some h) (hlate : h.late w.dualNow = false) (hreq : h.req ≠ req) (hval : h.val = d)
    (hcheck : w.dualCheck k d = true) :
    w.dualWrite k d req =
      (w.place (.regw (regwFor k (d &&& rwMask k) req false)), [regwFor k (d &&& rwMask k) req false], none) := by
  simp [Wing.dualWrite, Wing.judgeDual, Wing.dropLate, hfor, hboot, hlate, hreq, hval, hcheck]

/-- A second write of another requester with another value. -/
theorem Wing.dualWrite_mismatch (w : Wing) {k : Nat} {d : Word} {req : Byte} {h : DualHeld} (hboot : w.inBringUp = false)
    (hfor : w.dualFor k = some h) (hlate : h.late w.dualNow = false) (hreq : h.req ≠ req) (hval : h.val ≠ d) :
    w.dualWrite k d req = (((w.dropDual k).count cDualReject).place (.regw (regwFor k (w.cfgW k) req false)),
      [regwFor k (w.cfgW k) req false], some reDualMismatch) := by
  simp [Wing.dualWrite, Wing.judgeDual, Wing.dropLate, hfor, hboot, hlate, hreq, hval]

/-- A record of a word that does not pend settles what is pending there. -/
theorem Wing.dualFor_settled (w : Wing) {k : Nat} (hk : k < 0x10000) (v : Word) (req : Byte) :
    (w.place (.regw (regwFor k v req false))).dualFor k = none := by
  have hkey : regwKey (regwFor k v req false) = k := by
    rw [regwFor_window hk]
    simp [regwKey]
    omega
  have hpend : (regwFor k v req false).dualPend = false := by rw [regwFor_window hk]
  have hdefr : (w.place (.regw (regwFor k v req false))).psg.defr = w.psg.defr ++ [.regw (regwFor k v req false)] := by
    rw [Wing.place_psg]
    simp [Rec.group]
  have hplaced : (w.place (.regw (regwFor k v req false))).dualPlaced k = some (regwFor k v req false) := by
    unfold Wing.dualPlaced
    rw [hdefr, List.filterMap_append]
    simp [hkey]
  simp [Wing.dualFor, hplaced, hpend]

/-- A refusal leaves what is pending, and every counter but its own. -/
theorem Wing.refuseAccess_pending (w : Wing) (a : RegAccess) (reason : BitVec 4) (addr : BitVec 24) :
    (∀ k, (w.refuseAccess a reason addr).silent.dualFor k = w.dualFor k) ∧
      (∀ o, o ≠ cRegErr → (w.refuseAccess a reason addr).silent.ctr o = w.ctr o) ∧
      (w.refuseAccess a reason addr).silent.regs.cfg = w.regs.cfg := by
  refine ⟨fun k => rfl, fun o ho => ?_, rfl⟩
  exact Wing.ctr_count_ne { w with regs := { w.regs with
    regErrLog := logFirst w.regs.regErrLog (regErrEntry reason a.req (pathOf a) a.strb addr) } } ho

/-- A second write with another value leaves nothing pending, no word changed, and one rejection more. -/
theorem Wing.mismatch_spec (w : Wing) {k : Nat} (hk : k < 0x10000) (a : RegAccess) (addr : BitVec 24) (v : Wing)
    (hv : v = (((w.dropDual k).count cDualReject).place (.regw (regwFor k (w.cfgW k) a.req false))).refuseAccess a reDualMismatch addr) :
    v.silent.dualFor k = none ∧ v.silent.regs.cfg = w.regs.cfg ∧ v.silent.ctr cDualReject = w.ctr cDualReject + 1 ∧
      v.out = w.out ++ [.regRsp w.id false 0] := by
  have hsettled := ((w.dropDual k).count cDualReject).dualFor_settled hk (w.cfgW k) a.req
  have hctr := ((w.dropDual k).count cDualReject).ctr_place (.regw (regwFor k (w.cfgW k) a.req false)) cDualReject
  have hcfg : (((w.dropDual k).count cDualReject).place (.regw (regwFor k (w.cfgW k) a.req false))).regs.cfg = w.regs.cfg := by
    simp [Wing.dropDual]
  have hcount : ((w.dropDual k).count cDualReject).ctr cDualReject = w.ctr cDualReject + 1 :=
    Wing.ctr_count_self (w.dropDual k) cDualReject
  have hid : (((w.dropDual k).count cDualReject).place (.regw (regwFor k (w.cfgW k) a.req false))).id = w.id := by
    simp [Wing.dropDual]
  have hout : (((w.dropDual k).count cDualReject).place (.regw (regwFor k (w.cfgW k) a.req false))).out = w.out := by
    simp [Wing.dropDual]
  rw [hv]
  generalize ((w.dropDual k).count cDualReject).place _ = u at *
  obtain ⟨hkeep, hkeepCtr, hkeepCfg⟩ := u.refuseAccess_pending a reDualMismatch addr
  exact ⟨(hkeep k).trans hsettled, hkeepCfg.trans hcfg, (hkeepCtr _ (by decide)).trans (hctr.trans hcount),
    by rw [Wing.refuseAccess_out, hid, hout]⟩

/-- What the expiry leaves. -/
theorem Wing.expireDual_spec (w : Wing) :
    (∀ h, h ∈ w.expireDual.regs.dual ↔ h ∈ w.regs.dual ∧ (w.dualNow.toNat < h.at_.toNat + 65536 ∨ w.dualPlaced h.addr ≠ none)) ∧
      w.expireDual.ctr cDualExpire = w.ctr cDualExpire + BitVec.ofNat 64 (w.regs.dual.length - w.expireDual.regs.dual.length) ∧
      w.expireDual.out = w.out := by
  unfold Wing.expireDual
  extract_lets closed
  refine ⟨fun h => ?_, ?_, rfl⟩
  · show h ∈ w.regs.dual.filter (fun h => !closed h) ↔ _
    rw [List.mem_filter]
    refine and_congr_right fun _ => ?_
    have hclosed : closed h = (decide (h.at_.toNat + 65536 ≤ w.dualNow.toNat) && (w.dualPlaced h.addr).isNone) := rfl
    rw [hclosed]
    cases hp : w.dualPlaced h.addr <;> simp
  · rw [Wing.ctr_countN, if_pos rfl]
    have hlen := w.regs.dual.length_eq_length_filter_add closed
    have hsub : w.regs.dual.length - (w.regs.dual.filter fun h => !closed h).length = (w.regs.dual.filter closed).length := by omega
    exact congrArg (fun n => w.ctr cDualExpire + BitVec.ofNat 64 n) hsub.symm

end Sys2Proof.Machine

namespace Sys2Proof
open Machine

/-- Settles O60: a write to a register with lock bits by the word that it merges (R375), a write under dual control by what is pending
for its register (R376), and the end of a window (R377). -/
theorem locksAndDualControl : Obligations.LocksAndDualControl := by
  unfold Obligations.LocksAndDualControl
  refine ⟨fun s w a k d hrun hheld hqueue halias htakes ha => ⟨fun hlock => ?_, fun hk hlock => ?_⟩,
    fun s w a k d => ⟨fun hoff hkey => ?_, fun hrun hheld hqueue halias hact hlast hboot ha hdual hlock =>
      ⟨fun hfor => ?_, fun h hfor htime hreq => ⟨fun hval hcheck => ?_, fun hval => ?_⟩⟩, fun hon => ?_⟩⟩
  · obtain ⟨t, ht, honly, hwing, -⟩ := (stepsWing (i := .lockBitSet w a) rfl).leaves
      ((s.wing w).silent.portTake_at_once true a hrun hheld hqueue)
    have hword := (s.wing w).silent.doWrite_lock halias ha hlock htakes
    refine ⟨t, ht, honly, ?_, fun j hj => ?_⟩
    · have hk : (t.wing w).cfgW k = (s.wing w).silent.merged (wordHalf k d) :=
        (congrArg (Wing.cfgW · k) hwing).trans ((hword k).trans (if_pos rfl))
      rw [hk, Wing.merged_word]
      obtain ⟨-, -, -, -, hmask⟩ := lockReg_open hlock (s.wing w)
      exact merged_locks _ d _ _ hmask
    · exact (congrArg (Wing.cfgW · j) hwing).trans ((hword j).trans (if_neg hj))
  · have herr : (s.wing w).silent.halfError false 4 (wordHalf k d) = some reLocked := by
      rw [Wing.halfError_mirrored _ d hk, show (s.wing w).silent.takesMirrored = true from htakes,
        show (s.wing w).silent.locked k = true from hlock]
      rfl
    obtain ⟨t, ht, honly, hwing, hout⟩ := (stepsWing (i := .lockBitSet w a) rfl).leaves
      (((s.wing w).silent.portTake_at_once true a hrun hheld hqueue).trans
        ((s.wing w).silent.doWrite_word_refused halias ha (direct_of_mirrored hk) herr))
    refine ⟨t, ht, honly, hout, congrArg (·.regs.cfg) hwing, (congrArg (·.regs.regErrLog) hwing).trans ?_⟩
    rw [← pathOf_direct halias (isIndirect_of_direct ha (direct_of_mirrored hk))]
    rfl
  · refine (stepsWing (i := .dualPendExpiry w) rfl).stands (if_neg ?_)
    have hoff' : (s.wing w).silent.running = false := hoff
    have hkey' : ((s.wing w).silent.life == .keyWait) = false := beq_eq_false_iff_ne.mpr hkey
    rw [hoff', hkey']
    decide
  · have htakes : (s.wing w).silent.takesMirrored = true := Wing.takesMirrored_of_active (w := (s.wing w).silent) hact hlast
    have hdo := (s.wing w).silent.doWrite_dual halias ha hdual htakes hlock
    rw [Wing.dualWrite_first (s.wing w).silent hboot hfor, regwFor_window (wordWrite_lt ha)] at hdo
    obtain ⟨t, ht, honly, hwing, hout⟩ := (stepsWing (i := .dualControlWrite w a) rfl).leaves
      (((s.wing w).silent.portTake_at_once true a hrun hheld hqueue).trans hdo)
    exact ⟨t, ht, honly, hout, congrArg (·.regs.cfg) hwing, congrArg (·.psg.defr) hwing⟩
  · have htakes : (s.wing w).silent.takesMirrored = true := Wing.takesMirrored_of_active (w := (s.wing w).silent) hact hlast
    have hlate := Wing.late_of_intime (w := (s.wing w).silent) hboot htime
    have hdo := (s.wing w).silent.doWrite_dual halias ha hdual htakes hlock
    rw [Wing.dualWrite_pair (s.wing w).silent hboot hfor hlate hreq hval hcheck, regwFor_window (wordWrite_lt ha)] at hdo
    obtain ⟨t, ht, honly, hwing, hout⟩ := (stepsWing (i := .dualControlWrite w a) rfl).leaves
      (((s.wing w).silent.portTake_at_once true a hrun hheld hqueue).trans hdo)
    exact ⟨t, ht, honly, hout, congrArg (·.regs.cfg) hwing, congrArg (·.psg.defr) hwing⟩
  · have htakes : (s.wing w).silent.takesMirrored = true := Wing.takesMirrored_of_active (w := (s.wing w).silent) hact hlast
    have hlate := Wing.late_of_intime (w := (s.wing w).silent) hboot htime
    have hdo := (s.wing w).silent.doWrite_dual halias ha hdual htakes hlock
    rw [Wing.dualWrite_mismatch (s.wing w).silent hboot hfor hlate hreq hval] at hdo
    obtain ⟨t, ht, honly, hwing, hout⟩ := (stepsWing (i := .dualControlWrite w a) rfl).leaves
      (((s.wing w).silent.portTake_at_once true a hrun hheld hqueue).trans hdo)
    obtain ⟨hnone, hcfg, hctr, hrsp⟩ := (s.wing w).silent.mismatch_spec (wordWrite_lt ha) a (BitVec.ofNat 24 k) _ rfl
    exact ⟨t, ht, honly, hout.trans hrsp, (congrArg (Wing.dualFor · k) hwing).trans hnone, (congrArg (·.regs.cfg) hwing).trans hcfg,
      (congrArg (Wing.ctr · cDualReject) hwing).trans hctr⟩
  · obtain ⟨hmem, hctr, hsilent⟩ := (s.wing w).silent.expireDual_spec
    obtain ⟨t, ht, honly, hwing, hout⟩ := (stepsWing (i := .dualPendExpiry w) rfl).leaves (v := (s.wing w).silent.expireDual)
      (if_pos (by rw [Bool.or_eq_true]; exact hon.imp id beq_iff_eq.mpr))
    have hdl : (t.wing w).regs.dual = (s.wing w).silent.expireDual.regs.dual := congrArg (·.regs.dual) hwing
    refine ⟨t, ht, honly, hout.trans hsilent, fun h => ?_, ?_⟩
    · rw [hdl]
      exact hmem h
    · rw [hdl]
      exact (congrArg (Wing.ctr · cDualExpire) hwing).trans hctr

end Sys2Proof
end

section
/-! Blocks, replays and lanes of the passage (R227 to R239, R250 to R252). -/

namespace Sys2Proof.Machine

/-! ## What the lanes' own events leave -/

/-- The frames that come in, the acknowledgement and the counts of blocks stand, and no lost block is forgotten. -/
def Wing.SameBlocks (v w : Wing) : Prop :=
  v.life = w.life ∧ v.ctl = w.ctl ∧ v.psg.rx = w.psg.rx ∧ v.psg.ackValid = w.psg.ackValid ∧ v.psg.ack = w.psg.ack ∧
    v.ctr cBlkRx = w.ctr cBlkRx ∧ (∀ l : BitVec 2, v.ctr (cBlkLost l.toNat) = w.ctr (cBlkLost l.toNat)) ∧
    ∀ x ∈ w.psg.lost, x ∈ v.psg.lost

theorem Wing.SameBlocks.refl (w : Wing) : w.SameBlocks w := ⟨rfl, rfl, rfl, rfl, rfl, rfl, fun _ => rfl, fun _ h => h⟩

theorem Wing.SameBlocks.trans {u v w : Wing} (h : u.SameBlocks v) (h' : v.SameBlocks w) : u.SameBlocks w := by
  obtain ⟨a, b, c, d, e, f, g, i⟩ := h
  obtain ⟨a', b', c', d', e', f', g', i'⟩ := h'
  exact ⟨a.trans a', b.trans b', c.trans c', d.trans d', e.trans e', f.trans f', fun l => (g l).trans (g' l), fun x hx => i x (i' x hx)⟩

theorem Wing.SameBlocks.ite {v v' w : Wing} {c : Prop} [Decidable c] (h : v.SameBlocks w) (h' : v'.SameBlocks w) :
    (if c then v else v').SameBlocks w := by
  split
  · exact h
  · exact h'

theorem Wing.SameBlocks.foldl {α : Type} (f : Wing → α → Wing) (l : List α) (w : Wing) (h : ∀ v a, (f v a).SameBlocks v) :
    (l.foldl f w).SameBlocks w := by
  induction l generalizing w with
  | nil => exact .refl w
  | cons a l ih => exact (ih (f w a)).trans (h w a)

/-- The counters of blocks stand in a block of their own. -/
def blockCounter (o : Nat) : Prop := o = cBlkRx ∨ ∃ l : BitVec 2, o = cBlkLost l.toNat

theorem Wing.countN_blocks (w : Wing) (o n : Nat) (h : ¬ blockCounter o) : (w.countN o n).SameBlocks w := by
  refine ⟨rfl, rfl, rfl, rfl, rfl, ?_, fun l => ?_, fun _ h => h⟩
  · exact (w.ctr_countN o n _).trans (if_neg fun heq => h (.inl heq.symm))
  · exact (w.ctr_countN o n _).trans (if_neg fun heq => h (.inr ⟨l, heq.symm⟩))

theorem not_blockCounter : ¬ blockCounter cNakTx ∧ ¬ blockCounter cLaneFail ∧ ¬ blockCounter cAckLate ∧ ¬ blockCounter cHdrErr ∧
    ¬ blockCounter cBytesCorr ∧ ¬ blockCounter cFchkErr ∧ ∀ l, ¬ blockCounter (cBlkCorr (BitVec.toNat (w := 2) l)) := by
  unfold blockCounter
  decide

theorem Wing.setLane_blocks (w : Wing) (l : Nat) (v : Lane) : (w.setLane l v).SameBlocks w := .refl w

theorem mem_insertLost (x y : LostBlk) (l : List LostBlk) : y ∈ insertLost x l ↔ y = x ∨ y ∈ l := by
  unfold insertLost
  dsimp only
  generalize hp : (fun y : LostBlk => _) = p
  have hsplit : y ∈ l ↔ y ∈ l.takeWhile p ∨ y ∈ l.dropWhile p := by
    rw [← List.mem_append, List.takeWhile_append_dropWhile]
  simp only [List.mem_append, List.mem_singleton, hsplit]
  tauto

theorem mem_insertLosts (xs l : List LostBlk) (y : LostBlk) : y ∈ xs.foldl (fun l x => insertLost x l) l ↔ y ∈ xs ∨ y ∈ l := by
  induction xs generalizing l with
  | nil => simp
  | cons x xs ih =>
      rw [List.foldl_cons, ih, mem_insertLost, List.mem_cons]
      tauto

/-- What noting lost blocks keeps. -/
theorem Wing.noteLost_blocks (w : Wing) (xs : List LostBlk) : (w.noteLost xs).SameBlocks w := by
  unfold Wing.noteLost
  extract_lets new
  refine (Wing.countN_blocks _ _ _ not_blockCounter.1).trans ⟨rfl, rfl, rfl, rfl, rfl, rfl, fun _ => rfl, fun x hx => ?_⟩
  exact (mem_insertLosts new w.psg.lost x).mpr (.inr hx)

/-- A block behind the acknowledgement that is noted as lost is among the lost ones. -/
theorem Wing.mem_noteLost (w : Wing) (x : LostBlk) (hnaks : w.naksTo = true) (hahead : w.psg.ack.toNat < x.tick.toNat) :
    x ∈ (w.noteLost [x]).psg.lost := by
  unfold Wing.noteLost
  extract_lets new
  show x ∈ new.foldl (fun l x => insertLost x l) w.psg.lost
  rw [mem_insertLosts]
  by_cases hin : w.psg.lost.contains x = true
  · exact .inr (List.contains_iff_mem.mp hin)
  · refine .inl (List.mem_filter.mpr ⟨List.mem_singleton_self x, ?_⟩)
    rw [Bool.not_eq_true] at hin
    rw [hnaks, hin, decide_eq_true hahead]
    rfl

theorem Wing.loseLane_blocks (w : Wing) (l : Nat) : (w.loseLane l).SameBlocks w := w.noteLost_blocks _

theorem Wing.loseFailed_blocks (w : Wing) (t : Tick) : (w.loseFailed t).SameBlocks w := w.noteLost_blocks _

theorem Wing.laneFails_blocks (w : Wing) (l : Nat) (own : Bool) : (w.laneFails l own).SameBlocks w := by
  obtain ⟨-, hfail, -⟩ := not_blockCounter
  unfold Wing.laneFails
  extract_lets v lane1 w1
  have h1 : w1.SameBlocks w := (Wing.countN_blocks _ _ _ hfail).trans (w.setLane_blocks _ _)
  exact .ite (.refl w) (.ite ((w1.loseLane_blocks l).trans h1) h1)

theorem Wing.takeRxbad_blocks (w : Wing) (m : BitVec 4) : (w.takeRxbad m).SameBlocks w := by
  refine .foldl _ _ _ fun v l => ?_
  dsimp only
  exact .ite ((Wing.laneFails_blocks _ _ _).trans (v.setLane_blocks _ _)) (v.setLane_blocks _ _)

theorem Wing.countIf_blocks (w : Wing) (c : Bool) (o : Nat) (h : ¬ blockCounter o) : (w.countIf c o).SameBlocks w := by
  unfold Wing.countIf
  exact .ite (w.countN_blocks o 1 h) (.refl w)

theorem Wing.takeAck_blocks (w : Wing) (h : BlockHdr) : (w.takeAck h).SameBlocks w := by
  obtain ⟨-, -, hlate, -⟩ := not_blockCounter
  unfold Wing.takeAck
  dsimp only
  exact .ite (.ite ((Wing.countIf_blocks _ _ _ hlate).trans ⟨rfl, rfl, rfl, rfl, rfl, rfl, fun _ => rfl, fun _ h => h⟩) (.refl w))
    (.refl w)

theorem Wing.takeNak_blocks (w : Wing) (h : BlockHdr) : (w.takeNak h).SameBlocks w := by
  unfold Wing.takeNak
  extract_lets off t x l lane1 w1 kept
  have h1 : w1.SameBlocks w := .ite (.refl w) (w.setLane_blocks _ _)
  clear_value w1
  exact .ite (.ite (.trans (v := w1) ⟨rfl, rfl, rfl, rfl, rfl, rfl, fun _ => rfl, fun _ h => h⟩ h1) (.refl w)) (.refl w)

theorem Wing.followMap_blocks (w : Wing) (t : Tick) (m : BitVec 4) : (w.followMap t m).SameBlocks w := by
  unfold Wing.followMap
  extract_lets w1
  have h1 : w1.SameBlocks w := .foldl _ _ _ fun v l =>
    .ite (v.setLane_blocks _ _) (.ite (v.setLane_blocks _ _) (.refl v))
  clear_value w1
  exact .ite (.refl w) (.trans (v := w1) ⟨rfl, rfl, rfl, rfl, rfl, rfl, fun _ => rfl, fun _ h => h⟩ h1)

theorem Wing.blockPassed_blocks (w : Wing) (l : Nat) (ok : Bool) (h : BlockHdr) : (w.blockPassed l ok h).SameBlocks w := by
  unfold Wing.blockPassed
  dsimp only
  exact .ite (.refl w) (.ite (w.setLane_blocks _ _) (w.setLane_blocks _ _))

theorem Wing.training_blocks (w : Wing) (l : Nat) (ok clean : Bool) (h : BlockHdr) : (w.training l ok clean h).SameBlocks w := by
  unfold Wing.training
  dsimp only
  exact .ite (.refl w) (.ite (w.setLane_blocks _ _) (w.setLane_blocks _ _))

theorem Wing.takeHeader_blocks (w : Wing) (h : BlockHdr) : (w.takeHeader h).SameBlocks w := by
  unfold Wing.takeHeader
  extract_lets w1 w2
  have h1 : w1.SameBlocks w := (Wing.takeAck_blocks _ h).trans (w.takeRxbad_blocks _)
  have h2 : w2.SameBlocks w := (w1.takeNak_blocks h).trans h1
  clear_value w1 w2
  refine .ite h1 (.ite ((w1.takeNak_blocks h).trans h1) ((Wing.followMap_blocks _ _ _).trans ?_))
  exact .trans (v := w2) ⟨rfl, rfl, rfl, rfl, rfl, rfl, fun _ => rfl, fun _ h => h⟩ h2

theorem Wing.showEn_blocks (w : Wing) (b : BitVec 4) : (w.showEn b).SameBlocks w := by
  unfold Wing.showEn
  exact .ite (.refl w) ⟨rfl, rfl, rfl, rfl, rfl, rfl, fun _ => rfl, fun _ h => h⟩

/-! ## Lost blocks -/

theorem Wing.openFrame_rest (w : Wing) (t : Tick) : (w.openFrame t).life = w.life ∧ (w.openFrame t).ctl = w.ctl ∧
    (w.openFrame t).regs = w.regs ∧ (w.openFrame t).psg.ackValid = w.psg.ackValid ∧ (w.openFrame t).psg.ack = w.psg.ack ∧
    (w.openFrame t).psg.lost = w.psg.lost ∧ (w.openFrame t).psg.lanes = w.psg.lanes := by
  unfold Wing.openFrame
  split <;> exact ⟨rfl, rfl, rfl, rfl, rfl, rfl, rfl⟩

/-- A lost block counts once on its lane. -/
theorem Wing.loseBlock_ctr (w : Wing) (l : BitVec 2) (place : Option (Tick × Nat × Nat)) :
    (w.loseBlock l.toNat place).ctr (cBlkLost l.toNat) = w.ctr (cBlkLost l.toNat) + 1 := by
  unfold Wing.loseBlock
  extract_lets w1 w2 v w3
  have h1 : w1.ctr (cBlkLost l.toNat) = w.ctr (cBlkLost l.toNat) + 1 := Wing.ctr_count_self _ _
  have h2 : w2.ctr (cBlkLost l.toNat) = w1.ctr (cBlkLost l.toNat) := by
    cases place with
    | none => rfl
    | some p =>
        obtain ⟨t, fl, b⟩ := p
        show (if w1.applied t then w1 else _ : Wing).ctr _ = _
        split
        · rfl
        · obtain ⟨-, -, hregs, -⟩ := w1.openFrame_rest t
          obtain ⟨-, -, -, -, -, -, hlost, -⟩ := (w1.openFrame t).noteLost_blocks
            [{ tick := t, lane := BitVec.ofNat 2 fl, blk := BitVec.ofNat 3 b }]
          exact (hlost l).trans (congrArg (fun r : Regs => SMap.get r.ctr 0 (cBlkLost l.toNat)) hregs)
  have h3 : w3.ctr (cBlkLost l.toNat) = w2.ctr (cBlkLost l.toNat) := rfl
  clear_value w3
  split
  · exact h2.trans h1
  · split
    · obtain ⟨-, -, -, -, -, -, hlost, -⟩ := w3.laneFails_blocks l.toNat true
      exact (hlost l).trans (h3.trans (h2.trans h1))
    · exact h3.trans (h2.trans h1)

/-- A lost block of a frame that is still awaited is reported. -/
theorem Wing.mem_loseBlock (w : Wing) (l : Nat) (t : Tick) (fl b : Nat) (hrole : w.ctl.role = .standby)
    (hvalid : w.psg.ackValid = true) (hahead : w.psg.ack.toNat < t.toNat) :
    { tick := t, lane := BitVec.ofNat 2 fl, blk := BitVec.ofNat 3 b } ∈ (w.loseBlock l (some (t, fl, b))).psg.lost := by
  unfold Wing.loseBlock
  extract_lets w1 w2 v w3
  have happ : w1.applied t = false := by
    show (w.psg.ackValid && decide (t.toNat ≤ w.psg.ack.toNat)) = false
    simp only [hvalid, Bool.true_and]
    exact decide_eq_false (by omega)
  have h2 : { tick := t, lane := BitVec.ofNat 2 fl, blk := BitVec.ofNat 3 b } ∈ w2.psg.lost := by
    show _ ∈ (if w1.applied t then w1 else _ : Wing).psg.lost
    rw [if_neg (by simp [happ])]
    obtain ⟨-, hctl, -, hav, hack, -⟩ := w1.openFrame_rest t
    refine Wing.mem_noteLost _ _ ?_ (by rw [hack]; exact hahead)
    unfold Wing.naksTo
    rw [hctl, hav]
    show (w.ctl.role == .standby && w.psg.ackValid) = true
    rw [hrole, hvalid]
    rfl
  have h3 : w3.psg.lost = w2.psg.lost := rfl
  clear_value w3
  split
  · exact h2
  · split
    · obtain ⟨-, -, -, -, -, -, -, hlost⟩ := w3.laneFails_blocks l true
      exact hlost _ (h3 ▸ h2)
    · exact h3 ▸ h2

/-! ## A block that enters its frame -/

/-- The records of a block by slot, entered one after the other. -/
theorem find?_entered {α : Type} (a : Nat) (l : List (Nat × α)) (m : SMap α) (hl : (l.map Prod.fst).Nodup) {j : Nat} {r : α}
    (h : (j, r) ∈ l ∨ (j ∉ l.map Prod.fst ∧ SMap.find? m (a + j) = some r)) :
    SMap.find? (l.foldl (fun m e => SMap.insert m (a + e.1) e.2) m) (a + j) = some r := by
  induction l generalizing m with
  | nil => exact (h.resolve_left (by simp)).2
  | cons e l ih =>
      obtain ⟨hnew, hrest⟩ := List.nodup_cons.mp hl
      refine ih _ hrest ?_
      rcases h with h | ⟨hj, hm⟩
      · rcases List.mem_cons.mp h with rfl | h
        · exact .inr ⟨hnew, SMap.find?_insert_self _ _ _⟩
        · exact .inl h
      · rw [List.map_cons, List.mem_cons, not_or] at hj
        exact .inr ⟨hj.2, (SMap.find?_insert_ne _ _ (by omega)).trans hm⟩

theorem recordsOf_length {d : BitVec 1792} {rs : List Rec} (h : recordsOf d = some rs) : rs.length = 14 := by
  have general : ∀ (l : List Nat) (f : Nat → Option Rec) (rs : List Rec), l.mapM f = some rs → rs.length = l.length := by
    intro l f
    induction l with
    | nil => simp
    | cons a l ih =>
        intro rs h
        rw [List.mapM_cons] at h
        cases hf : f a with
        | none => simp [hf] at h
        | some r =>
            cases hrest : l.mapM f with
            | none => simp [hf, hrest] at h
            | some rest =>
                obtain rfl : r :: rest = rs := by simpa [hf, hrest] using h
                simp [ih _ hrest]
  exact (general (List.range 14) _ rs h).trans List.length_range

theorem mem_insertFrame (f g : RxFrame) (l : List RxFrame) : g ∈ insertFrame f l ↔ g = f ∨ g ∈ l := by
  unfold insertFrame
  have hsplit : g ∈ l ↔ g ∈ l.takeWhile (fun x => decide (x.tick.toNat < f.tick.toNat)) ∨
      g ∈ l.dropWhile (fun x => decide (x.tick.toNat < f.tick.toNat)) := by
    rw [← List.mem_append, List.takeWhile_append_dropWhile]
  simp only [List.mem_append, List.mem_singleton, hsplit]
  tauto

/-- The frame of a tick of which the block `b` on lane `l` alone has come. -/
def firstBlock (t : Tick) (h : BlockHdr) (l b : Nat) (d : BitVec 1792) (rs : List Rec) : RxFrame :=
  { tick := t, map := some h.map, accN := if h.accN = 0xFF then 0xFF else h.accN, data := SMap.insert [] (blkKey l b) d, skip := [],
    took := [], accTook := 0,
    recs := (((List.range 14).zip rs).filter fun e => inTurn e.2).foldl
      (fun m e => SMap.insert m (14 * blkKey l b + e.1) e.2) [] }

/-- What the first block of a frame brings. -/
theorem firstBlock_spec (t : Tick) (h : BlockHdr) (l b : Nat) (d : BitVec 1792) {rs : List Rec} (hrs : rs.length = 14) :
    (firstBlock t h l b d rs).accN = h.accN ∧ SMap.find? (firstBlock t h l b d rs).data (blkKey l b) = some d ∧
      (∀ j r, rs[j]? = some r → r.group ≠ .fill → r.group ≠ .closing →
        SMap.find? (firstBlock t h l b d rs).recs (14 * blkKey l b + j) = some r) ∧
      (firstBlock t h l b d rs).laneCheck l = none := by
  refine ⟨?_, SMap.find?_insert_self _ _ _, fun j r hr hfill hclose => ?_, ?_⟩
  · show (if h.accN = 0xFF then 0xFF else h.accN) = h.accN
    split
    · rename_i heq
      exact heq.symm
    · rfl
  · have hj : j < 14 := by
      have := (List.getElem?_eq_some_iff.mp hr).1
      omega
    refine find?_entered _ _ _ ?_ (.inl (List.mem_filter.mpr ⟨List.mem_of_getElem? (i := j) ?_, ?_⟩))
    · have hfst : ((List.range 14).zip rs).map Prod.fst = List.range 14 := List.map_fst_zip (by simp [hrs])
      have hnodup : (((List.range 14).zip rs).map Prod.fst).Nodup := by rw [hfst]; exact List.nodup_range
      exact List.Nodup.sublist (List.Sublist.map _ List.filter_sublist) hnodup
    · exact List.getElem?_zip_eq_some.mpr ⟨by simp [hj], hr⟩
    · simp [inTurn, hfill, hclose]
  · have hshort : ((List.range 7).filterMap fun c => SMap.find? (firstBlock t h l b d rs).data (blkKey l c)).length < 7 := by
      refine Nat.lt_of_lt_of_eq (List.length_filterMap_lt_length_iff_exists.mpr ?_) List.length_range
      refine ⟨if b = 0 then 1 else 0, by split <;> simp, ?_⟩
      refine (SMap.find?_insert_ne _ _ ?_).trans rfl
      unfold blkKey
      split <;> omega
    exact if_pos hshort

/-- A standby keeps every frame that comes in, with the new one in its place. -/
theorem Wing.openFrame_rx (w : Wing) (t : Tick) (hrole : w.ctl.role = .standby) (hnew : ∀ f ∈ w.psg.rx, f.tick ≠ t) :
    (w.openFrame t).psg.rx =
      insertFrame { tick := t, map := none, accN := 0xFF, data := [], skip := [], took := [], accTook := 0, recs := [] } w.psg.rx := by
  have hany : w.psg.rx.any (·.tick == t) = false := List.any_eq_false.mpr fun f hf => by simpa using hnew f hf
  have hkept : w.keptRx t = w.psg.rx := by
    unfold Wing.keptRx
    rw [hrole]
  unfold Wing.openFrame
  rw [if_neg (by simp [hany]), hkept]

theorem Wing.dropAbandoned_standby (w : Wing) (hrole : w.ctl.role = .standby) : w.dropAbandoned = w := by
  unfold Wing.dropAbandoned
  split
  · exact if_neg (by simp [hrole])
  · rfl

/-- What a block brings to a frame, less its entry there. -/
theorem Wing.enterBlock_spec (w : Wing) (t : Tick) (h : BlockHdr) (l b : Nat) (d : BitVec 1792) {rs : List Rec}
    (hrole : w.ctl.role = .standby) (happ : w.applied t = false) (hnew : ∀ f ∈ w.psg.rx, f.tick ≠ t) (hrs : rs.length = 14) :
    firstBlock t h l b d rs ∈ (w.enterBlock t (some h) l b d rs).psg.rx ∧
      (w.enterBlock t (some h) l b d rs).ctr cBlkRx = w.ctr cBlkRx := by
  obtain ⟨-, hctl, hregs, -⟩ := w.openFrame_rest t
  have hrx := w.openFrame_rx t hrole hnew
  unfold Wing.enterBlock
  rw [if_neg (by simp [happ])]
  extract_lets k put x w1 w2 psg3 w3
  have hput : ∀ f, (put f).tick = f.tick := fun f => by
    show (if _ then f else _ : RxFrame).tick = _
    split <;> rfl
  have hfirst : put { tick := t, map := none, accN := 0xFF, data := [], skip := [], took := [], accTook := 0, recs := [] } =
      firstBlock t h l b d rs := by
    simp [put, firstBlock, SMap.find?, k]
  clear_value put
  have h1 : w1 = (w.openFrame t).modFrame t put := Wing.dropAbandoned_standby _ (by
    show (w.openFrame t).ctl.role = _
    rw [hctl, hrole])
  clear_value w1
  have hmem : ∀ f ∈ w1.psg.rx, f.tick = t → f = firstBlock t h l b d rs := fun f hf ht => by
    rw [h1] at hf
    obtain ⟨g, hg, rfl⟩ := List.mem_map.mp hf
    have hgt : g.tick = t := by
      split at ht
      · exact (hput g).symm.trans ht
      · exact ht
    rw [hrx, mem_insertFrame] at hg
    rcases hg with rfl | hg
    · rw [if_pos rfl, hfirst]
    · exact absurd hgt (hnew g hg)
  have hin : firstBlock t h l b d rs ∈ w1.psg.rx := by
    rw [h1]
    refine List.mem_map.mpr ⟨_, hrx ▸ (mem_insertFrame _ _ _).mpr (.inl rfl), ?_⟩
    rw [if_pos rfl, hfirst]
  have hctr1 : w1.ctr cBlkRx = w.ctr cBlkRx := by
    rw [h1]
    exact congrArg (fun r : Regs => SMap.get r.ctr 0 cBlkRx) hregs
  have h2 : w2.SameBlocks w1 := .ite (w1.loseFailed_blocks t) (.refl w1)
  clear_value w2
  obtain ⟨-, -, hrx2, -, -, hctr2, -⟩ := h2
  have hrx3 : w3.psg.rx = w1.psg.rx := hrx2
  have hctr3 : w3.ctr cBlkRx = w1.ctr cBlkRx := hctr2
  clear_value w3
  have hfind : w3.psg.rx.find? (·.tick == t) = some (firstBlock t h l b d rs) := by
    rw [hrx3]
    cases hf : w1.psg.rx.find? (·.tick == t) with
    | none => exact absurd (List.find?_eq_none.mp hf _ hin) (by simp [firstBlock])
    | some f => rw [hmem f (List.mem_of_find?_eq_some hf) (by simpa using List.find?_some hf)]
  obtain ⟨-, -, -, hcheck⟩ := firstBlock_spec t h l b d hrs
  rw [hfind]
  simp only [Option.bind_some, hcheck]
  exact ⟨hrx3 ▸ hin, hctr3.trans hctr1⟩

theorem Wing.enterBlock_applied (w : Wing) (t : Tick) (hdr : Option BlockHdr) (l b : Nat) (d : BitVec 1792) (rs : List Rec)
    (h : w.applied t = true) : w.enterBlock t hdr l b d rs = w := if_pos h

/-! ## Blocks with a good header -/

/-- What a block with a good header that is no replay's comes to on a lane that carries: what its header says, then its data. -/
theorem Wing.synced_carried (w : Wing) (l : BitVec 2) (x : BitVec 2048) (hcarry : (w.lane l.toNat).role = .carry)
    (hok : headerOk x = true) (hblk : (blockHdr x).blk ≠ 7) (hrep : (blockHdr x).replay = false) :
    ∃ u : Wing, u.SameBlocks (w.count cBlkRx) ∧ w.synced l.toNat x =
      match blockData x with
      | none => (u.training l.toNat false false (blockHdr x)).loseBlock l.toNat
          (some (w.frameTick (blockHdr x).tick, (blockHdr x).lane.toNat, (blockHdr x).blk.toNat))
      | some (d, n) => u.decoded l.toNat true (blockHdr x)
          (some (w.frameTick (blockHdr x).tick, (blockHdr x).lane.toNat, (blockHdr x).blk.toNat)) d n := by
  refine ⟨((w.count cBlkRx).takeHeader (blockHdr x)).blockPassed l.toNat true (blockHdr x),
    (Wing.blockPassed_blocks _ _ _ _).trans (Wing.takeHeader_blocks _ _), ?_⟩
  have hplace : ((w.count cBlkRx).countIf false cHdrErr).placeOf l.toNat true (blockHdr x) =
      some (w.frameTick (blockHdr x).tick, (blockHdr x).lane.toNat, (blockHdr x).blk.toNat) := by
    unfold Wing.placeOf
    rw [if_pos rfl, if_neg hblk]
    rfl
  unfold Wing.synced
  simp only [hok, hcarry, hrep, Bool.not_true, hplace] <;> cases blockData x <;> rfl

/-- A block that decoded enters its frame. -/
theorem Wing.decoded_carried (w : Wing) (l : BitVec 2) (h : BlockHdr) (t : Tick) (d : BitVec 1792) (n : Nat) {rs : List Rec}
    (hblk : h.blk ≠ 7) (hrs : recordsOf d = some rs) : ∃ u : Wing, u.SameBlocks w ∧
      w.decoded l.toNat true h (some (t, h.lane.toNat, h.blk.toNat)) d n = u.enterBlock t (some h) h.lane.toNat h.blk.toNat d rs := by
  obtain ⟨-, -, -, -, hbytes, -, hcorr⟩ := not_blockCounter
  refine ⟨((((w.countIf (n != 0) (cBlkCorr l.toNat)).countN cBytesCorr n).setLane l.toNat
      { w.lane l.toNat with lostRun := 0 }).training l.toNat true (n == 0 && d == trainingData l.toNat) h), ?_, ?_⟩
  · exact (Wing.training_blocks _ _ _ _ _).trans ((Wing.setLane_blocks _ _ _).trans
      ((Wing.countN_blocks _ _ _ hbytes).trans (w.countIf_blocks _ _ (hcorr l))))
  · simp [Wing.decoded, show ¬ h.blk = 7#3 from hblk, hrs]

/-- A block on a lane that carries, in a wing whose passage runs. -/
theorem Wing.takeBlock_carried (w : Wing) (l : Nat) (x : BitVec 2048) (late : Bool) (hruns : w.passageRuns = true)
    (hcarry : (w.lane l).role = .carry) :
    w.takeBlock l x late =
      let w1 := if syncFound x then w.synced l x
        else (w.blockPassed l false (blockHdr x)).loseBlock l (w.placeOf l false (blockHdr x))
      if late then w1.laneFails l true else w1 := by
  simp [Wing.takeBlock, hruns, Lane.used, hcarry]

/-- A block that decodes enters its frame, whatever its header said of the peer and the lanes. -/
theorem Wing.takeBlock_decoded (w : Wing) (l : BitVec 2) (x : BitVec 2048) (hruns : w.passageRuns = true)
    (hcarry : (w.lane l.toNat).role = .carry) (hsync : syncFound x = true) (hok : headerOk x = true) (hblk : (blockHdr x).blk ≠ 7)
    (hrep : (blockHdr x).replay = false) {d : BitVec 1792} {n : Nat} {rs : List Rec} (hdata : blockData x = some (d, n))
    (hrs : recordsOf d = some rs) : ∃ u : Wing, u.SameBlocks (w.count cBlkRx) ∧ w.takeBlock l.toNat x false =
      u.enterBlock (w.frameTick (blockHdr x).tick) (some (blockHdr x)) (blockHdr x).lane.toNat (blockHdr x).blk.toNat d rs := by
  obtain ⟨u, hu, hsynced⟩ := w.synced_carried l x hcarry hok hblk hrep
  simp only [hdata] at hsynced
  obtain ⟨u', hu', hdec⟩ := u.decoded_carried l (blockHdr x) (w.frameTick (blockHdr x).tick) d n hblk hrs
  exact ⟨u', hu'.trans hu, (w.takeBlock_carried l.toNat x false hruns hcarry).trans ((if_pos hsync).trans (hsynced.trans hdec))⟩

/-- A block whose data cannot be corrected is lost. -/
theorem Wing.takeBlock_undecoded (w : Wing) (l : BitVec 2) (x : BitVec 2048) (hruns : w.passageRuns = true)
    (hcarry : (w.lane l.toNat).role = .carry) (hsync : syncFound x = true) (hok : headerOk x = true) (hblk : (blockHdr x).blk ≠ 7)
    (hrep : (blockHdr x).replay = false) (hdata : blockData x = none) :
    ∃ u : Wing, u.SameBlocks (w.count cBlkRx) ∧ w.takeBlock l.toNat x false = u.loseBlock l.toNat
      (some (w.frameTick (blockHdr x).tick, (blockHdr x).lane.toNat, (blockHdr x).blk.toNat)) := by
  obtain ⟨u, hu, hsynced⟩ := w.synced_carried l x hcarry hok hblk hrep
  simp only [hdata] at hsynced
  exact ⟨_, (u.training_blocks l.toNat false false (blockHdr x)).trans hu,
    (w.takeBlock_carried l.toNat x false hruns hcarry).trans ((if_pos hsync).trans hsynced)⟩

/-- A block with no sync is lost, and fails its lane if it came late as well. -/
theorem Wing.takeBlock_unsynced_ctr (w : Wing) (l : BitVec 2) (x : BitVec 2048) (late : Bool) (hruns : w.passageRuns = true)
    (hcarry : (w.lane l.toNat).role = .carry) (hsync : syncFound x = false) :
    (w.takeBlock l.toNat x late).ctr (cBlkLost l.toNat) = w.ctr (cBlkLost l.toNat) + 1 := by
  obtain ⟨-, -, -, -, -, -, hpassed, -⟩ := w.blockPassed_blocks l.toNat false (blockHdr x)
  have hlost := (w.blockPassed l.toNat false (blockHdr x)).loseBlock_ctr l (w.placeOf l.toNat false (blockHdr x))
  rw [w.takeBlock_carried l.toNat x late hruns hcarry]
  simp only [hsync, Bool.false_eq_true, if_false]
  cases late with
  | false => exact hlost.trans (congrArg (· + 1) (hpassed l))
  | true =>
      obtain ⟨-, -, -, -, -, -, hfails, -⟩ := Wing.laneFails_blocks ((w.blockPassed l.toNat false (blockHdr x)).loseBlock l.toNat
        (w.placeOf l.toNat false (blockHdr x))) l.toNat true
      exact (hfails l).trans (hlost.trans (congrArg (· + 1) (hpassed l)))

/-- A wing whose passage does not run, or a lane not in use, takes no block. -/
theorem Wing.takeBlock_idle (w : Wing) (l : Nat) (x : BitVec 2048) (late : Bool)
    (h : w.passageRuns = false ∨ ((w.lane l).used = false ∧ (w.lane l).role ≠ .training)) : w.takeBlock l x late = w := by
  unfold Wing.takeBlock
  refine if_pos ?_
  rcases h with h | ⟨hused, hrole⟩
  · simp [h]
  · simp [hused, hrole]

/-! ## Replays -/

theorem Wing.replay_idle (w : Wing) (h : w.isActive = false ∨ w.psg.nakq = []) : w.replay = w := by
  unfold Wing.replay
  rcases h with h | h
  · simp [h]
  · simp [h]

theorem Wing.replay_dropped (w : Wing) {x : LostBlk} {rest : List LostBlk} (hact : w.isActive = true) (hq : w.psg.nakq = x :: rest)
    (hf : w.psg.sent.find? (fun f => f.tick == x.tick) = none) : w.replay = { w with psg := { w.psg with nakq := rest } } := by
  simp [Wing.replay, hact, hq, hf]

theorem Wing.replay_waits (w : Wing) {x : LostBlk} {rest : List LostBlk} {f : Frame} (hact : w.isActive = true)
    (hq : w.psg.nakq = x :: rest) (hf : w.psg.sent.find? (fun f => f.tick == x.tick) = some f) (hlane : w.replayLane = none) :
    w.replay = w := by
  simp [Wing.replay, hact, hq, hf, hlane]

/-- A block of a frame says of its wing only its side, its role and what it acknowledges and misses. -/
theorem Wing.frameBlock_of_same {v w : Wing} (hid : v.id = w.id) (hrole : v.ctl.role = w.ctl.role)
    (hvalid : v.psg.ackValid = w.psg.ackValid) (hack : v.psg.ack = w.psg.ack) (hlost : v.psg.lost = w.psg.lost) (f : Frame)
    (l b : Nat) (replay : Bool) : v.frameBlock f l b replay = w.frameBlock f l b replay := by
  simp only [Wing.frameBlock, Wing.headerBytes, Wing.nakByte, hid, hrole, hvalid, hack, hlost]

/-- The wing with the oldest NAK answered, in a frame or on the spare. -/
def Wing.answering (w : Wing) (rest : List LostBlk) (inFrame : Bool) : Wing := { w with psg := { w.psg with
  nakq := rest, replaySent := if inFrame then w.psg.replaySent + 1 else w.psg.replaySent
  spareSent := if inFrame then w.psg.spareSent else w.psg.spareSent + 1 } }

/-- A block sent again. -/
theorem Wing.replay_sent (w : Wing) {x : LostBlk} {rest : List LostBlk} {f : Frame} {l : Nat} {inFrame : Bool}
    (hact : w.isActive = true) (hq : w.psg.nakq = x :: rest) (hf : w.psg.sent.find? (fun f => f.tick == x.tick) = some f)
    (hlane : w.replayLane = some (l, inFrame)) :
    w.replay = ((w.answering rest inFrame).count cReplayTx).emit
      (.blockOut w.id (BitVec.ofNat 2 l) (w.frameBlock f x.lane.toNat x.blk.toNat true)) := by
  have hblock := Wing.frameBlock_of_same (v := w.answering rest inFrame) (w := w) rfl rfl rfl rfl rfl f x.lane.toNat x.blk.toNat true
  rw [← hblock]
  simp only [Wing.replay, hact, hq, hf, hlane, Bool.not_true, Bool.false_eq_true, if_false]
  rfl

theorem Wing.answering_spec (w : Wing) (rest : List LostBlk) (inFrame : Bool) (o : Out) :
    (((w.answering rest inFrame).count cReplayTx).emit o).psg.nakq = rest ∧
      (((w.answering rest inFrame).count cReplayTx).emit o).ctr cReplayTx = w.ctr cReplayTx + 1 ∧
      (((w.answering rest inFrame).count cReplayTx).emit o).out = w.out ++ [o] :=
  ⟨rfl, Wing.ctr_count_self (w.answering rest inFrame) cReplayTx, rfl⟩

/-! ## Lanes that fail -/

theorem Wing.lane_setLane (w : Wing) (l : Nat) (v : Lane) : (w.setLane l v).lane l = v := SMap.get_set_self _ _ _ _

theorem Wing.lane_setLane_ne (w : Wing) {l j : Nat} (v : Lane) (h : j ≠ l) : (w.setLane l v).lane j = w.lane j :=
  SMap.get_set_ne _ _ _ h

theorem Wing.noteLost_lanes (w : Wing) (xs : List LostBlk) : (w.noteLost xs).psg.lanes = w.psg.lanes := rfl

/-- A lane in use that fails. -/
theorem Wing.laneFails_used (w : Wing) (l : Nat) (own : Bool) (h : (w.lane l).used = true) :
    (w.laneFails l own).lane l = { (w.lane l).dropped with rxbad := (w.lane l).rxbad || own } ∧
      (w.laneFails l own).ctr cLaneFail = w.ctr cLaneFail + 1 := by
  unfold Wing.laneFails
  extract_lets v lane1 w1
  rw [if_neg (by simp [v, h])]
  have hlane : w1.lane l = { (w.lane l).dropped with rxbad := (w.lane l).rxbad || own } := Wing.lane_setLane _ _ _
  have hctr : w1.ctr cLaneFail = w.ctr cLaneFail + 1 := Wing.ctr_count_self (w.setLane l _) _
  clear_value w1
  split
  · refine ⟨(congrArg (fun m => SMap.get m Lane.reset l) (w1.noteLost_lanes _)).trans hlane, Eq.trans ?_ hctr⟩
    exact (Wing.ctr_countN _ _ _ _).trans (if_neg (by decide))
  · exact ⟨hlane, hctr⟩

theorem Wing.laneFails_unused (w : Wing) (l : Nat) (own : Bool) (h : (w.lane l).used = false) : w.laneFails l own = w := by
  unfold Wing.laneFails
  exact if_pos (by simp [h])

/-- A lane's fourth failure retires it. -/
theorem Lane.dropped_spec (v : Lane) : v.dropped.fails = (if v.fails = 15 then 15 else v.fails + 1) ∧
    v.dropped.role = (if 3 ≤ v.fails.toNat then .retired else .training) ∧ v.dropped.rxlock = v.rxlock := by
  refine ⟨?_, ?_, rfl⟩
  · show satInc v.fails = _
    generalize v.fails = n
    revert n
    decide
  have hfails : 4 ≤ (satInc v.fails).toNat ↔ 3 ≤ v.fails.toNat := by
    generalize v.fails = n
    revert n
    decide
  show (if 4 ≤ (satInc v.fails).toNat then LaneRole.retired else .training) = _
  simp only [hfails]

theorem Wing.showEn_lanes (w : Wing) (b : BitVec 4) : (w.showEn b).psg = w.psg ∧ (w.showEn b).regs = w.regs := by
  unfold Wing.showEn
  split <;> exact ⟨rfl, rfl⟩

/-! ## Lanes that train -/

/-- A lane whose part in the passage stands leaves PSG_EN as it is. -/
theorem Wing.psgEn_of_roles {v w : Wing} (hlife : v.life = w.life) (hrole : ∀ l, (v.lane l).role = (w.lane l).role) : v.psgEn = w.psgEn := by
  unfold Wing.psgEn
  simp only [hlife, hrole]

/-- Another lane's failure leaves a lane as it is. -/
theorem Wing.laneFails_other (w : Wing) {l j : Nat} (own : Bool) (h : j ≠ l) : (w.laneFails l own).lane j = w.lane j := by
  cases hused : (w.lane l).used with
  | false => rw [w.laneFails_unused l own hused]
  | true =>
      unfold Wing.laneFails
      extract_lets v lane1 w1
      rw [if_neg (by simp [v, hused])]
      have hlane : w1.lane j = w.lane j := w.lane_setLane_ne _ h
      clear_value w1
      split
      · exact (congrArg (fun m => SMap.get m Lane.reset j) (w1.noteLost_lanes _)).trans hlane
      · exact hlane

/-- What the peer's RXBAD leaves of a lane that trains: its own note of it. -/
theorem Wing.takeRxbad_training (w : Wing) (m : BitVec 4) (l : Nat) (h : (w.lane l).role = .training) :
    ∃ b, (w.takeRxbad m).lane l = { w.lane l with peerRxbad := b } := by
  have general : ∀ (ls : List Nat) (w : Wing), (w.lane l).role = .training → ∃ b, (ls.foldl (fun (w : Wing) l =>
      let v := w.lane l
      let w1 := w.setLane l { v with peerRxbad := m.getLsbD l }
      if m.getLsbD l && !v.peerRxbad then w1.laneFails l false else w1) w).lane l = { w.lane l with peerRxbad := b } := by
    intro ls
    induction ls with
    | nil => exact fun w _ => ⟨_, rfl⟩
    | cons j ls ih =>
        intro w h
        have hstep : ∃ b, (let v := w.lane j
            let w1 := w.setLane j { v with peerRxbad := m.getLsbD j }
            if m.getLsbD j && !v.peerRxbad then w1.laneFails j false else w1).lane l = { w.lane l with peerRxbad := b } := by
          dsimp only
          by_cases hj : l = j
          · subst hj
            have hset := w.lane_setLane l { w.lane l with peerRxbad := m.getLsbD l }
            have hunused : ((w.setLane l { w.lane l with peerRxbad := m.getLsbD l }).lane l).used = false := by
              rw [hset]
              simp [Lane.used, h]
            rw [Wing.laneFails_unused _ _ _ hunused, ite_self, hset]
            exact ⟨_, rfl⟩
          · refine ⟨(w.lane l).peerRxbad, ?_⟩
            split
            · rw [Wing.laneFails_other _ _ hj, w.lane_setLane_ne _ hj]
            · rw [w.lane_setLane_ne _ hj]
        obtain ⟨b, hb⟩ := hstep
        rw [List.foldl_cons]
        obtain ⟨b', hb'⟩ := ih _ (by rw [hb]; exact h)
        exact ⟨b', hb'.trans (by rw [hb])⟩
  exact general _ w h

theorem Wing.takeAck_lanes (w : Wing) (h : BlockHdr) : (w.takeAck h).psg.lanes = w.psg.lanes := by
  unfold Wing.takeAck
  dsimp only
  split
  · split
    · unfold Wing.countIf
      split <;> rfl
    · rfl
  · rfl

theorem Wing.blockPassed_training (w : Wing) (l : Nat) (ok : Bool) (h : BlockHdr) (hrole : (w.lane l).role = .training) :
    w.blockPassed l ok h = w := by
  unfold Wing.blockPassed
  exact if_pos (by simp [Wing.framesOn, hrole])

theorem Wing.training_good (w : Wing) (l : BitVec 2) (h : BlockHdr) (hrole : (w.lane l.toNat).role = .training) (hblk : h.blk = 7)
    (hlane : h.lane = l) : w.training l.toNat true true h = w.setLane l.toNat { w.lane l.toNat with
      good := (w.lane l.toNat).good + 1, locked := (w.lane l.toNat).locked || decide (64 ≤ (w.lane l.toNat).good + 1)
      peerLocked := h.nak.getLsbD 7, shown := if h.nak.getLsbD 7 then (w.lane l.toNat).shown + 1 else 0
      rxbad := (w.lane l.toNat).rxbad && !((w.lane l.toNat).locked || decide (64 ≤ (w.lane l.toNat).good + 1)) } := by
  simp [Wing.training, hrole, hblk, hlane]

theorem Wing.training_bad (w : Wing) (l : Nat) (clean : Bool) (h : BlockHdr) (hrole : (w.lane l).role = .training) :
    w.training l false clean h = w.setLane l { w.lane l with good := 0, shown := 0 } := by
  simp [Wing.training, hrole]

theorem Wing.takeBlock_on_training (w : Wing) (l : Nat) (x : BitVec 2048) (hruns : w.passageRuns = true)
    (hrole : (w.lane l).role = .training) :
    w.takeBlock l x false = if syncFound x then w.synced l x else w.training l false false (blockHdr x) := by
  simp [Wing.takeBlock, hruns, hrole]

/-- A good training block on a lane that trains. -/
theorem Wing.takeBlock_trains (w : Wing) (l : BitVec 2) (x : BitVec 2048) (hruns : w.passageRuns = true)
    (hrole : (w.lane l.toNat).role = .training) (hsync : syncFound x = true) (hok : headerOk x = true) (hblk : (blockHdr x).blk = 7)
    (hlane : (blockHdr x).lane = l) (hdata : blockData x = some (trainingData l.toNat, 0)) :
    ∃ v : Lane, (w.takeBlock l.toNat x false).lane l.toNat = v ∧ v.role = .training ∧ v.good = (w.lane l.toNat).good + 1 ∧
      v.locked = ((w.lane l.toNat).locked || decide (63 ≤ (w.lane l.toNat).good)) ∧
      v.peerLocked = (blockHdr x).nak.getLsbD 7 ∧
      v.shown = if (blockHdr x).nak.getLsbD 7 then (w.lane l.toNat).shown + 1 else 0 := by
  obtain ⟨b, hb⟩ := (w.count cBlkRx).takeRxbad_training (blockHdr x).rxbad l.toNat hrole
  have hhead : (w.count cBlkRx).takeHeader (blockHdr x) = ((w.count cBlkRx).takeRxbad (blockHdr x).rxbad).takeAck (blockHdr x) :=
    if_pos hblk
  have hlanes : ((w.count cBlkRx).takeHeader (blockHdr x)).lane l.toNat = { w.lane l.toNat with peerRxbad := b } := by
    rw [hhead]
    exact (congrArg (fun m => SMap.get m Lane.reset l.toNat) (Wing.takeAck_lanes _ _)).trans hb
  have hpass := ((w.count cBlkRx).takeHeader (blockHdr x)).blockPassed_training l.toNat true (blockHdr x) (by rw [hlanes]; exact hrole)
  generalize hu : (w.count cBlkRx).takeHeader (blockHdr x) = u at *
  have hsynced : w.synced l.toNat x = ((u.countN cBytesCorr 0).setLane l.toNat { u.lane l.toNat with lostRun := 0 }).training l.toNat
      true true (blockHdr x) := by
    unfold Wing.synced
    have hcount : (w.count cBlkRx).countIf false cHdrErr = w.count cBlkRx := rfl
    have hseven : ((7 : BitVec 3) == 7) = true := rfl
    simp only [hok, hrole, hblk, Bool.not_true, hcount, hu, hseven, BEq.rfl, Bool.true_and, Bool.or_true, if_true, bne_self_eq_false,
      Bool.and_false, Bool.false_eq_true, if_false, hpass, hdata]
    unfold Wing.decoded
    simp only [hblk, hseven, BEq.rfl, if_true, bne_self_eq_false, BEq.rfl, Bool.and_self]
    rfl
  have hset := (u.countN cBytesCorr 0).lane_setLane l.toNat { u.lane l.toNat with lostRun := 0 }
  rw [w.takeBlock_on_training l.toNat x hruns hrole, if_pos hsync, hsynced,
    Wing.training_good _ l _ (by rw [hset, hlanes]; exact hrole) hblk hlane, Wing.lane_setLane, hset, hlanes]
  refine ⟨_, rfl, hrole, rfl, ?_, rfl, rfl⟩
  simp

/-- The lane's count of good training blocks starts again, and nothing of the wing shows it. -/
def Wing.restarted (w : Wing) (l : Nat) (v : Wing) : Prop :=
  (v.lane l).role = .training ∧ (v.lane l).good = 0 ∧ (v.lane l).shown = 0 ∧ (v.lane l).locked = (w.lane l).locked ∧
    (∀ j, j ≠ l → v.lane j = w.lane j) ∧ v.life = w.life ∧ v.out = w.out

theorem Wing.restarted_training {u w : Wing} {l : Nat} (hrole : (u.lane l).role = .training) (hlocked : (u.lane l).locked = (w.lane l).locked)
    (hother : ∀ j, j ≠ l → u.lane j = w.lane j) (hlife : u.life = w.life) (hout : u.out = w.out) (clean : Bool) (h : BlockHdr) :
    w.restarted l (u.training l false clean h) := by
  rw [u.training_bad l clean h hrole]
  refine ⟨?_, ?_, ?_, ?_, fun j hj => (u.lane_setLane_ne _ hj).trans (hother j hj), hlife, hout⟩
  · rw [Wing.lane_setLane]
    exact hrole
  · rw [Wing.lane_setLane]
  · rw [Wing.lane_setLane]
  · rw [Wing.lane_setLane]
    exact hlocked

/-- A lost block on a lane that trains, with no place in a frame, is counted only. -/
theorem Wing.loseBlock_training (w : Wing) (l : Nat) (hrole : (w.lane l).role = .training) : w.loseBlock l none = w.count (cBlkLost l) :=
  if_pos (show (!((w.count (cBlkLost l)).lane l).used) = true by
    rw [show ((w.count (cBlkLost l)).lane l).used = (w.lane l).used from rfl]
    simp [Lane.used, hrole])

/-- A block with a bad header on a lane that trains starts its count again. -/
theorem Wing.takeBlock_untrains (w : Wing) (l : Nat) (x : BitVec 2048) (hruns : w.passageRuns = true)
    (hrole : (w.lane l).role = .training) (hok : headerOk x = false) : w.restarted l (w.takeBlock l x false) := by
  rw [w.takeBlock_on_training l x hruns hrole]
  split
  · obtain ⟨u, hu⟩ : ∃ u, u = (w.count cBlkRx).countIf true cHdrErr := ⟨_, rfl⟩
    have hlane : ∀ j, u.lane j = w.lane j := fun j => by rw [hu]; rfl
    have hlife : u.life = w.life := by rw [hu]; rfl
    have hout : u.out = w.out := by rw [hu]; rfl
    have hpass := u.blockPassed_training l false (blockHdr x) (by rw [hlane]; exact hrole)
    have hlost : w.restarted l ((u.training l false false (blockHdr x)).loseBlock l none) := by
      have hagain := Wing.restarted_training (u := u) (w := w) (by rw [hlane]; exact hrole) (by rw [hlane]) (fun j _ => hlane j) hlife hout
        false (blockHdr x)
      rw [Wing.loseBlock_training _ l hagain.1]
      exact hagain
    have hsynced : w.synced l x = match blockData x with
        | none => (u.training l false false (blockHdr x)).loseBlock l none
        | some (d, n) => u.decoded l false (blockHdr x) none d n := by
      unfold Wing.synced
      simp only [hok, hrole, BEq.rfl, if_true, Bool.not_true, Bool.not_false, Bool.false_and, Bool.false_eq_true, if_false, ← hu, hpass] <;>
        cases blockData x <;> rfl
    rw [hsynced]
    cases blockData x with
    | none => exact hlost
    | some p =>
        obtain ⟨d, n⟩ := p
        show w.restarted l (u.decoded l false (blockHdr x) none d n)
        unfold Wing.decoded
        simp only [Bool.false_and, Bool.false_eq_true, if_false]
        cases recordsOf d with
        | none => exact hlost
        | some rs =>
            have hset := ((u.countIf (n != 0) (cBlkCorr l)).countN cBytesCorr n).lane_setLane l { u.lane l with lostRun := 0 }
            have hcount : ∀ j, ((u.countIf (n != 0) (cBlkCorr l)).countN cBytesCorr n).lane j = u.lane j ∧
                ((u.countIf (n != 0) (cBlkCorr l)).countN cBytesCorr n).life = u.life ∧
                ((u.countIf (n != 0) (cBlkCorr l)).countN cBytesCorr n).out = u.out := fun j => by
              unfold Wing.countIf
              split <;> exact ⟨rfl, rfl, rfl⟩
            exact Wing.restarted_training (by rw [hset, hlane]; exact hrole) (by rw [hset, hlane])
              (fun j hj => (Wing.lane_setLane_ne _ _ hj).trans ((hcount j).1.trans (hlane j))) ((hcount 0).2.1.trans hlife)
              ((hcount 0).2.2.trans hout) _ _
  · exact Wing.restarted_training hrole rfl (fun _ _ => rfl) rfl rfl _ _

/-! ## The commands of a lane -/

/-- PSG_RXLOCK at a wing: what its lane shows, and its failure. -/
def Wing.takeRxlock (w : Wing) (l : Nat) (lock : Bool) : Wing :=
  if !w.passageRuns then w
  else if (w.lane l).rxlock && !lock then ((w.setLane l { w.lane l with rxlock := lock }).laneFails l true).showEn w.psgEn
  else w.setLane l { w.lane l with rxlock := lock }

theorem stepsWing_psgRxlock (s : State) (w : WingId) (lane : BitVec 2) (lock : Bool) :
    StepsWing (.psgRxlock w lane lock) s w fun v => v.takeRxlock lane.toNat lock := stepsWing rfl

/-- A lane in use whose receiver loses lock. -/
theorem Wing.takeRxlock_lost (w : Wing) (l : Nat) (hruns : w.passageRuns = true) (hlock : (w.lane l).rxlock = true)
    (hused : (w.lane l).used = true) :
    (w.takeRxlock l false).lane l = { (w.lane l).dropped with rxlock := false, rxbad := true } ∧
      (w.takeRxlock l false).ctr cLaneFail = w.ctr cLaneFail + 1 := by
  have hset := w.lane_setLane l { w.lane l with rxlock := false }
  obtain ⟨hlane, hctr⟩ := (w.setLane l { w.lane l with rxlock := false }).laneFails_used l true (by rw [hset]; exact hused)
  obtain ⟨hpsg, hregs⟩ := ((w.setLane l { w.lane l with rxlock := false }).laneFails l true).showEn_lanes w.psgEn
  have htake : w.takeRxlock l false = ((w.setLane l { w.lane l with rxlock := false }).laneFails l true).showEn w.psgEn := by
    simp [Wing.takeRxlock, hruns, hlock]
  rw [htake]
  refine ⟨(congrArg (fun p : Passage => SMap.get p.lanes Lane.reset l) hpsg).trans (hlane.trans ?_),
    (congrArg (fun r : Regs => SMap.get r.ctr 0 cLaneFail) hregs).trans hctr⟩
  rw [hset, Bool.or_true]
  rfl

/-- A lane not in use, or whose receiver shows what it showed, or has lock. -/
theorem Wing.takeRxlock_kept (w : Wing) (l : Nat) (lock : Bool) (hruns : w.passageRuns = true)
    (h : (w.lane l).rxlock = false ∨ lock = true ∨ (w.lane l).used = false) :
    w.takeRxlock l lock = w.setLane l { w.lane l with rxlock := lock } := by
  unfold Wing.takeRxlock
  rw [if_neg (by simp [hruns])]
  cases hlost : (w.lane l).rxlock && !lock with
  | false => exact if_neg Bool.false_ne_true
  | true =>
      obtain ⟨hrx, hno⟩ := Bool.and_eq_true_iff.mp hlost
      have hlock : lock = false := by simpa using hno
      have hunused : (w.lane l).used = false :=
        (h.resolve_left (by simp [hrx])).resolve_left (by simp [hlock])
      have hset := w.lane_setLane l { w.lane l with rxlock := lock }
      rw [if_pos rfl, Wing.laneFails_unused _ l true (by rw [hset]; exact hunused),
        Wing.psgEn_of_roles (v := w) (w := w.setLane l { w.lane l with rxlock := lock }) rfl fun j => ?_]
      · exact Wing.showEn_self _
      · by_cases hj : j = l
        · rw [hj, hset]
        · rw [w.lane_setLane_ne _ hj]

end Sys2Proof.Machine

namespace Sys2Proof
open Machine

/-- Settles O45: a block by its sync, its header and its data (R227 to R236), a replay by the oldest NAK (R238), and the lanes that fail
and train (R251, R252). -/
theorem blocksReplaysAndLanes : Obligations.BlocksReplaysAndLanes := by
  unfold Obligations.BlocksReplaysAndLanes
  refine ⟨fun s w lane x h tk hh htk => ⟨fun hrcv hrole hcarry => ⟨fun hsync hok hblk hrep => ⟨fun d n rs hdata hrs =>
    ⟨fun hnew hack => ?_, fun hvalid hdone => ?_⟩, fun hdata => ?_⟩, fun hsync late => ?_⟩, fun hidle late => ?_⟩,
    fun s w lane v hv => ⟨fun x rest hact hq => ⟨fun f l inFrame hf hl => ?_, fun hf => ?_, fun f hf hl => ?_⟩, fun hidle => ?_,
      fun hruns hlock hused => ?_, fun hruns lock hkeep => ?_, fun x hruns hrole => ⟨fun hsync hok hblk hlane hdata => ?_, fun hok => ?_⟩,
      fun hruns => ⟨fun lock => ?_, fun x => ?_⟩⟩⟩
  · subst hh htk
    obtain ⟨hruns, -⟩ := Bool.and_eq_true_iff.mp hrcv
    obtain ⟨u', hu', htake⟩ := (s.wing w).silent.takeBlock_decoded lane x hruns hcarry hsync hok hblk hrep hdata hrs
    obtain ⟨t, ht, honly, hwing, -⟩ := (stepsWing (i := .block w lane x false) rfl).leaves
      (congrArg (fun v => Wing.showEn v (s.wing w).silent.psgEn) htake)
    obtain ⟨-, hctl, hrx, hvalid, hackd, hctr, -⟩ := hu'
    have happ : u'.applied ((s.wing w).frameTick (blockHdr x).tick) = false := by
      unfold Wing.applied
      rw [hvalid, hackd]
      cases hv : (s.wing w).psg.ackValid with
      | false => exact Bool.and_eq_false_imp.mpr fun h => absurd (hv.symm.trans h) Bool.false_ne_true
      | true => exact Bool.and_eq_false_imp.mpr fun _ => decide_eq_false (Nat.not_le.mpr (hack hv))
    obtain ⟨hin, hcount⟩ := u'.enterBlock_spec ((s.wing w).frameTick (blockHdr x).tick) (blockHdr x) (blockHdr x).lane.toNat
      (blockHdr x).blk.toNat d ((congrArg Ctl.role hctl).trans hrole) happ (fun f hf => hnew f (hrx ▸ hf)) (recordsOf_length hrs)
    obtain ⟨haccN, hd, hrecs, -⟩ := firstBlock_spec ((s.wing w).frameTick (blockHdr x).tick) (blockHdr x) (blockHdr x).lane.toNat
      (blockHdr x).blk.toNat d (recordsOf_length hrs)
    obtain ⟨-, -, hrxEn, -, -, hctrEn, -⟩ := Wing.showEn_blocks (u'.enterBlock ((s.wing w).frameTick (blockHdr x).tick)
      (some (blockHdr x)) (blockHdr x).lane.toNat (blockHdr x).blk.toNat d rs) (s.wing w).silent.psgEn
    refine ⟨t, _, ht, honly, ?_, rfl, rfl, haccN, hd, hrecs, ?_⟩
    · rw [show (t.wing w).psg.rx = _ from congrArg (·.psg.rx) hwing]
      exact hrxEn ▸ hin
    · exact (congrArg (Wing.ctr · cBlkRx) hwing).trans (hctrEn.trans (hcount.trans (hctr.trans (Wing.ctr_count_self (s.wing w).silent cBlkRx))))
  · subst hh htk
    obtain ⟨hruns, -⟩ := Bool.and_eq_true_iff.mp hrcv
    obtain ⟨u, ⟨-, -, hrx, hvalidU, hackd, hctr, -⟩, htake⟩ :=
      (s.wing w).silent.takeBlock_decoded lane x hruns hcarry hsync hok hblk hrep hdata hrs
    have happ : u.applied ((s.wing w).frameTick (blockHdr x).tick) = true := by
      unfold Wing.applied
      rw [hvalidU, hackd]
      exact Bool.and_eq_true_iff.mpr ⟨hvalid, decide_eq_true hdone⟩
    rw [show (s.wing w).silent.frameTick = (s.wing w).frameTick from rfl, u.enterBlock_applied _ _ _ _ _ _ happ] at htake
    obtain ⟨t, ht, honly, hwing, -⟩ := (stepsWing (i := .block w lane x false) rfl).leaves
      (congrArg (fun v => Wing.showEn v (s.wing w).silent.psgEn) htake)
    obtain ⟨-, -, hrxEn, -, -, hctrEn, -⟩ := Wing.showEn_blocks u (s.wing w).silent.psgEn
    exact ⟨t, ht, honly, (congrArg (·.psg.rx) hwing).trans (hrxEn.trans hrx),
      (congrArg (Wing.ctr · cBlkRx) hwing).trans (hctrEn.trans (hctr.trans (Wing.ctr_count_self (s.wing w).silent cBlkRx)))⟩
  · subst hh htk
    obtain ⟨hruns, -⟩ := Bool.and_eq_true_iff.mp hrcv
    obtain ⟨u, ⟨-, hctl, -, hvalidU, hackd, -, hlostU, -⟩, htake⟩ :=
      (s.wing w).silent.takeBlock_undecoded lane x hruns hcarry hsync hok hblk hrep hdata
    obtain ⟨t, ht, honly, hwing, -⟩ := (stepsWing (i := .block w lane x false) rfl).leaves
      (congrArg (fun v => Wing.showEn v (s.wing w).silent.psgEn) htake)
    have hcount : ((s.wing w).silent.count cBlkRx).ctr (cBlkLost lane.toNat) = (s.wing w).ctr (cBlkLost lane.toNat) :=
      (s.wing w).silent.ctr_count_ne fun heq => (by decide : ∀ l : BitVec 2, cBlkLost l.toNat ≠ cBlkRx) lane heq
    obtain ⟨-, -, -, -, -, -, hlostEn, hmemEn⟩ := Wing.showEn_blocks (u.loseBlock lane.toNat
      (some ((s.wing w).silent.frameTick (blockHdr x).tick, (blockHdr x).lane.toNat, (blockHdr x).blk.toNat))) (s.wing w).silent.psgEn
    refine ⟨t, ht, honly, ?_, fun hvalid hahead => ?_⟩
    · exact (congrArg (Wing.ctr · (cBlkLost lane.toNat)) hwing).trans ((hlostEn lane).trans ((u.loseBlock_ctr lane _).trans
        (congrArg (· + 1) ((hlostU lane).trans hcount))))
    · have hmem := u.mem_loseBlock lane.toNat ((s.wing w).silent.frameTick (blockHdr x).tick) (blockHdr x).lane.toNat
        (blockHdr x).blk.toNat ((congrArg Ctl.role hctl).trans hrole) (hvalidU.trans hvalid) (by rw [hackd]; exact hahead)
      rw [show (t.wing w).psg.lost = _ from congrArg (·.psg.lost) hwing]
      rw [BitVec.ofNat_toNat, BitVec.ofNat_toNat, BitVec.setWidth_eq, BitVec.setWidth_eq] at hmem
      exact hmemEn _ hmem
  · obtain ⟨hruns, -⟩ := Bool.and_eq_true_iff.mp hrcv
    obtain ⟨t, ht, honly, hwing, -⟩ := (stepsWing (i := .block w lane x late) rfl).leaves rfl
    obtain ⟨-, -, -, -, -, -, hlostEn, -⟩ := Wing.showEn_blocks ((s.wing w).silent.takeBlock lane.toNat x late) (s.wing w).silent.psgEn
    exact ⟨t, ht, honly, (congrArg (Wing.ctr · (cBlkLost lane.toNat)) hwing).trans ((hlostEn lane).trans
      ((s.wing w).silent.takeBlock_unsynced_ctr lane x late hruns hcarry hsync))⟩
  · refine (stepsWing (i := .block w lane x late) rfl).stands ?_
    rw [(s.wing w).silent.takeBlock_idle lane.toNat x late hidle]
    exact Wing.showEn_self _
  · obtain ⟨t, ht, honly, hwing, hout⟩ := (stepsWing (i := .replay w) rfl).leaves ((s.wing w).silent.replay_sent hact hq hf hl)
    obtain ⟨hnak, hctr, hsent⟩ := (s.wing w).silent.answering_spec rest inFrame
      (.blockOut (s.wing w).id (BitVec.ofNat 2 l) ((s.wing w).frameBlock f x.lane.toNat x.blk.toNat true))
    exact ⟨t, ht, honly, (congrArg (·.psg.nakq) hwing).trans hnak, (congrArg (Wing.ctr · cReplayTx) hwing).trans hctr, hout.trans hsent⟩
  · obtain ⟨t, ht, honly, hwing, hout⟩ := (stepsWing (i := .replay w) rfl).leaves ((s.wing w).silent.replay_dropped hact hq hf)
    exact ⟨t, ht, honly, hout, congrArg (·.psg.nakq) hwing, (congrArg (Wing.ctr · cReplayTx) hwing).trans rfl⟩
  · obtain ⟨t, ht, honly, -, hwing⟩ := (stepsWing (i := .replay w) rfl).stands ((s.wing w).silent.replay_waits hact hq hf hl)
    exact ⟨t, ht, honly, hwing⟩
  · exact (stepsWing (i := .replay w) rfl).stands ((s.wing w).silent.replay_idle hidle)
  · subst hv
    obtain ⟨hlane, hctr⟩ := (s.wing w).silent.takeRxlock_lost lane.toNat hruns hlock hused
    obtain ⟨hfails, hrole, -⟩ := Lane.dropped_spec ((s.wing w).lane lane.toNat)
    obtain ⟨t, ht, honly, hwing, -⟩ := (stepsWing_psgRxlock s w lane false).leaves rfl
    have hl : (t.wing w).lane lane.toNat = { ((s.wing w).lane lane.toNat).dropped with rxlock := false, rxbad := true } :=
      (congrArg (Wing.lane · lane.toNat) hwing).trans hlane
    rw [← hfails, ← hrole]
    exact ⟨t, ht, honly, congrArg Lane.rxlock hl, congrArg Lane.rxbad hl, (congrArg Lane.fails hl).trans rfl,
      (congrArg Lane.role hl).trans rfl,
      (congrArg (Wing.ctr · cLaneFail) hwing).trans hctr⟩
  · subst hv
    obtain ⟨t, ht, honly, hwing, hout⟩ := (stepsWing_psgRxlock s w lane lock).leaves
      ((s.wing w).silent.takeRxlock_kept lane.toNat lock hruns hkeep)
    exact ⟨t, ht, honly, hout, (congrArg (Wing.lane · lane.toNat) hwing).trans (Wing.lane_setLane _ _ _), congrArg (·.regs.ctr) hwing⟩
  · subst hv
    obtain ⟨v, hlaneV, hrest⟩ := (s.wing w).silent.takeBlock_trains lane x hruns hrole hsync hok hblk hlane hdata
    obtain ⟨t, ht, honly, hwing, -⟩ := (stepsWing (i := .trainingBlock w lane x) rfl).leaves rfl
    obtain ⟨hpsg, -⟩ := ((s.wing w).silent.takeBlock lane.toNat x false).showEn_lanes (s.wing w).silent.psgEn
    have hl : (t.wing w).lane lane.toNat = v := (congrArg (Wing.lane · lane.toNat) hwing).trans
      ((congrArg (fun p : Passage => SMap.get p.lanes Lane.reset lane.toNat) hpsg).trans hlaneV)
    exact ⟨t, ht, honly, hl.symm ▸ hrest⟩
  · subst hv
    obtain ⟨hroleV, hgood, hshown, hlocked, hothers, hlife, hout⟩ :=
      (s.wing w).silent.takeBlock_untrains lane.toNat x hruns hrole hok
    have hen : ((s.wing w).silent.takeBlock lane.toNat x false).psgEn = (s.wing w).silent.psgEn :=
      Wing.psgEn_of_roles hlife fun j => by
        by_cases hj : j = lane.toNat
        · rw [hj]
          exact hroleV.trans hrole.symm
        · rw [hothers j hj]
    obtain ⟨t, ht, honly, hwing, houtT⟩ := (stepsWing (i := .trainingBlock w lane x) rfl).leaves
      (v := (s.wing w).silent.takeBlock lane.toNat x false) (if_pos hen)
    have hl : (t.wing w).lane lane.toNat = ((s.wing w).silent.takeBlock lane.toNat x false).lane lane.toNat :=
      (congrArg (Wing.lane · lane.toNat) hwing).trans rfl
    rw [← hl] at hroleV hgood hshown hlocked
    exact ⟨t, ht, honly, houtT.trans hout, hroleV, hgood, hshown, hlocked⟩
  · obtain ⟨t, ht, honly, -, hwing⟩ := (stepsWing_psgRxlock s w lane lock).stands
      (if_pos (by rw [show (s.wing w).silent.passageRuns = false from hruns]; rfl))
    exact ⟨t, ht, honly, hwing⟩
  · obtain ⟨t, ht, honly, -, hwing⟩ := (stepsWing (i := .trainingBlock w lane x) rfl).stands (by
      rw [(s.wing w).silent.takeBlock_idle lane.toNat x false (.inl hruns)]
      exact Wing.showEn_self _)
    exact ⟨t, ht, honly, hwing⟩

end Sys2Proof
end

section
/-! Event records: their write at the ring's next position, and the completion of their block (R150, R170 to R173). -/

namespace Sys2Proof.Machine

/-! ## Headers -/

/-- The rings' positions, the blocks and what is on its way stand, with the counters and the passage; only output is added. -/
def Wing.SameRings (v w : Wing) : Prop :=
  v.ring = w.ring ∧ v.regs = w.regs ∧ v.psg = w.psg ∧ (∀ n, (v.slice n).wpos = (w.slice n).wpos) ∧ w.out <+: v.out

theorem Wing.SameRings.refl (w : Wing) : w.SameRings w := ⟨rfl, rfl, rfl, fun _ => rfl, List.prefix_rfl⟩

theorem Wing.SameRings.trans {u v w : Wing} (h : u.SameRings v) (h' : v.SameRings w) : u.SameRings w := by
  obtain ⟨a, b, c, d, e⟩ := h
  obtain ⟨a', b', c', d', e'⟩ := h'
  exact ⟨a.trans a', b.trans b', c.trans c', fun n => (d n).trans (d' n), e'.trans e⟩

theorem Wing.SameRings.foldl {α : Type} (f : Wing → α → Wing) (l : List α) (w : Wing) (h : ∀ v a, (f v a).SameRings v) :
    (l.foldl f w).SameRings w := by
  induction l generalizing w with
  | nil => exact .refl w
  | cons a l ih => exact (ih (f w a)).trans (h w a)

/-- A slice set to a state with its ring's position. -/
theorem Wing.setSlice_rings (w : Wing) (n : BitVec 12) (v : SliceSt) (hv : v.wpos = (w.slice n).wpos) : (w.setSlice n v).SameRings w := by
  refine ⟨rfl, rfl, rfl, fun x => ?_, List.prefix_rfl⟩
  rw [Wing.slice_setSlice]
  split
  · rename_i hx
    rw [hv, hx]
  · rfl

theorem Wing.emitWrite_rings (w : Wing) (a : DWord) (n : Nat) (d : BitVec 512) : (w.emitWrite a n d).SameRings w :=
  ⟨rfl, rfl, rfl, fun _ => rfl, List.prefix_append _ _⟩

theorem Wing.writeHeader_rings (w : Wing) (n : BitVec 12) : (w.writeHeader n).SameRings w := by
  unfold Wing.writeHeader
  dsimp only
  split
  · split
    · exact (Wing.emitWrite_rings _ _ _ _).trans (w.setSlice_rings n _ rfl)
    · exact .refl w
  · exact .refl w

theorem Wing.writeHeaders_rings (w : Wing) : w.writeHeaders.SameRings w := by
  unfold Wing.writeHeaders
  split
  · exact .foldl _ _ _ Wing.writeHeader_rings
  · exact .refl w

theorem SliceSt.formHeader_wpos (v : SliceSt) (n : BitVec 12) (now : Tick) : (v.formHeader n now).wpos = v.wpos := by
  unfold SliceSt.formHeader
  extract_lets h last
  split <;> rfl

theorem Wing.formHeaders_rings (w : Wing) : w.formHeaders.SameRings w := by
  unfold Wing.formHeaders
  split
  · exact (Wing.writeHeaders_rings _).trans
      (.foldl _ _ _ fun v n => v.setSlice_rings n _ ((v.slice n).formHeader_wpos n v.now))
  · exact .refl w

/-! ## Blocks -/

/-- A block of one committed record. -/
def oneRecord (t : Tick) (n : BitVec 12) (r : BitVec 256) : EvBlock := { tick := t, accs := [], commits := [(n, r)] }

theorem oneRecord_rings (t : Tick) (n : BitVec 12) (r : BitVec 256) :
    (oneRecord t n r).rings = [n] ∧ (oneRecord t n r).recordsFor n = [r] := by
  simp [oneRecord, EvBlock.rings, EvBlock.recordsFor, SMap.insert]

/-- A record written: at the ring's next position, with the PHASE of that position. -/
theorem Wing.writeRecord_spec (w : Wing) (n : BitVec 12) (t : Tick) (r : BitVec 256) :
    ((w.writeRecord n t false r).slice n).wpos = (w.slice n).wpos + 1 ∧
      (w.writeRecord n t false r).ring = { w.ring with recOut := w.ring.recOut ++ [(n, (w.slice n).wpos, t)] } ∧
      (w.writeRecord n t false r).ctr cEvrRecords = w.ctr cEvrRecords + 1 ∧
      (w.writeRecord n t false r).out = w.out ++ [.memWrite w.id
        ((w.slice n).evtBase + BitVec.ofNat 64 (32 * ((w.slice n).wpos.toNat % 2 ^ (w.slice n).evtLog2.toNat))) 32
        ((r ||| (if (w.slice n).wpos.toNat / 2 ^ (w.slice n).evtLog2.toNat % 2 = 0 then 1 else 0)).setWidth 512) w.writeTag] := by
  unfold Wing.writeRecord
  extract_lets v p ix ph w1 ring2 w2
  have hphase : ph = if p.toNat / 2 ^ v.evtLog2.toNat % 2 = 0 then 1 else 0 := by
    show (bit (phaseAt p v.evtLog2.toNat)).setWidth 256 = _
    unfold phaseAt
    by_cases h : p.toNat / 2 ^ v.evtLog2.toNat % 2 = 0
    · rw [if_pos h, h]
      decide
    · rw [if_neg h, beq_eq_false_iff_ne.mpr h]
      decide
  have hslice : (w2.slice n).wpos = v.wpos + 1 := by
    show ((w.setSlice n { v with wpos := p + 1 }).slice n).wpos = _
    rw [Wing.slice_setSlice, if_pos rfl]
  have hkeep : ∀ (u : Wing) (c : Bool) (o : Nat), o ≠ cEvrRecords → (u.countIf c o).slice n = u.slice n ∧ (u.countIf c o).ring = u.ring ∧
      (u.countIf c o).ctr cEvrRecords = u.ctr cEvrRecords ∧ (u.countIf c o).out = u.out := fun u c o ho => by
    unfold Wing.countIf
    cases c
    · exact ⟨rfl, rfl, rfl, rfl⟩
    · exact ⟨rfl, rfl, u.ctr_count_ne ho.symm, rfl⟩
  obtain ⟨hs1, hr1, hc1, ho1⟩ := hkeep (((w2.count cEvrRecords).countIf false cEvrRewrite).countIf (recOutcome r == oCmdDone)
    cCmdSucceeded) (recOutcome r == oCmdErr) cCmdFailed (by decide)
  obtain ⟨hs2, hr2, hc2, ho2⟩ := hkeep ((w2.count cEvrRecords).countIf false cEvrRewrite) (recOutcome r == oCmdDone) cCmdSucceeded
    (by decide)
  refine ⟨?_, hr1.trans hr2, (hc1.trans hc2).trans ?_, (ho1.trans ho2).trans ?_⟩
  · rw [hs1, hs2]
    exact hslice
  · exact Wing.ctr_count_self w2 cEvrRecords
  · rw [← hphase]
    rfl

/-- The block of one record written. -/
theorem Wing.writeOne_spec (w : Wing) (t : Tick) (n : BitVec 12) (r : BitVec 256) (rest : List EvBlock)
    (hblocks : w.ring.blocks = oneRecord t n r :: rest) :
    ((w.writeBlock (oneRecord t n r) false).slice n).wpos = (w.slice n).wpos + 1 ∧
      (w.writeBlock (oneRecord t n r) false).ring.blocks = rest ∧
      (n, (w.slice n).wpos, t) ∈ (w.writeBlock (oneRecord t n r) false).ring.recOut ∧
      (w.writeBlock (oneRecord t n r) false).ctr cEvrRecords = w.ctr cEvrRecords + 1 ∧
      (w.writeBlock (oneRecord t n r) false).out = (w.writeRecord n t false r).out := by
  obtain ⟨hrings, hrecs⟩ := oneRecord_rings t n r
  obtain ⟨hpos, hring, hctr, -⟩ := w.writeRecord_spec n t r
  have hwrite : w.writeBlock (oneRecord t n r) false = { w.writeRecord n t false r with
      ring := { (w.writeRecord n t false r).ring with
        blocks := (w.writeRecord n t false r).ring.blocks.drop 1
        written := (w.writeRecord n t false r).ring.written ++ [oneRecord t n r] } } := by
    unfold Wing.writeBlock
    simp only [hrings, hrecs, List.foldl_cons, List.foldl_nil]
    rfl
  rw [hwrite]
  refine ⟨hpos, ?_, ?_, hctr, rfl⟩
  · show (w.writeRecord n t false r).ring.blocks.drop 1 = rest
    rw [hring, hblocks]
    rfl
  · show (n, (w.slice n).wpos, t) ∈ (w.writeRecord n t false r).ring.recOut
    rw [hring]
    exact List.mem_append_right _ (List.mem_singleton_self _)

/-- Completion leaves the positions and what is on its way. -/
theorem Wing.settleDone_rings (w : Wing) : w.settleDone.regs = w.regs ∧ (∀ n, w.settleDone.slice n = w.slice n) ∧
    w.settleDone.out = w.out ∧ w.settleDone.ring.blocks = w.ring.blocks ∧ w.settleDone.ring.recOut = w.ring.recOut := by
  have hring : w.settleDone.ring.blocks = w.ring.blocks ∧ w.settleDone.ring.recOut = w.ring.recOut := by
    unfold Wing.settleDone
    dsimp only
    split
    · exact ⟨rfl, rfl⟩
    · simp
  exact ⟨by simp, fun n => by simp [Wing.slice], by simp, hring⟩

/-- A turn of the ring engine with one block that may be written. -/
theorem Wing.ringTurn_one (w : Wing) (t : Tick) (n : BitVec 12) (r : BitVec 256) (hmay : w.mayWrite = true)
    (hblocks : w.ring.blocks = [oneRecord t n r]) (hready : w.blockReady (oneRecord t n r) = true) :
    w.ringTurn (fun _ => false) = (w.writeBlock (oneRecord t n r) false).settleDone.formHeaders := by
  unfold Wing.ringTurn
  rw [if_pos hmay, hblocks]
  simp only [List.length_singleton, Wing.writeBlocks, hblocks, hready, if_true]

/-- What such a turn leaves. -/
theorem Wing.ringTurn_one_spec (w : Wing) (t : Tick) (n : BitVec 12) (r : BitVec 256) (hmay : w.mayWrite = true)
    (hblocks : w.ring.blocks = [oneRecord t n r]) (hready : w.blockReady (oneRecord t n r) = true) (v : Wing)
    (hv : w.ringTurn (fun _ => false) = v) :
    (v.slice n).wpos = (w.slice n).wpos + 1 ∧ v.ring.blocks = [] ∧ (n, (w.slice n).wpos, t) ∈ v.ring.recOut ∧
      v.ctr cEvrRecords = w.ctr cEvrRecords + 1 ∧ Out.memWrite w.id
        ((w.slice n).evtBase + BitVec.ofNat 64 (32 * ((w.slice n).wpos.toNat % 2 ^ (w.slice n).evtLog2.toNat))) 32
        ((r ||| (if (w.slice n).wpos.toNat / 2 ^ (w.slice n).evtLog2.toNat % 2 = 0 then 1 else 0)).setWidth 512) w.writeTag ∈ v.out := by
  obtain ⟨hpos, hrest, hmem, hctr, houtB⟩ := w.writeOne_spec t n r [] hblocks
  obtain ⟨-, -, -, houtR⟩ := w.writeRecord_spec n t r
  rw [w.ringTurn_one t n r hmay hblocks hready] at hv
  generalize w.writeBlock (oneRecord t n r) false = u at *
  obtain ⟨hregsD, hsliceD, houtD, hblocksD, hrecD⟩ := u.settleDone_rings
  obtain ⟨hringH, hregsH, -, hposH, houtH⟩ := u.settleDone.formHeaders_rings
  subst hv
  refine ⟨(hposH n).trans ?_, ?_, ?_, ?_, houtH.subset ?_⟩
  · rw [hsliceD]
    exact hpos
  · rw [hringH, hblocksD]
    exact hrest
  · rw [hringH, hrecD]
    exact hmem
  · exact (congrArg (fun q : Regs => SMap.get q.ctr 0 cEvrRecords) (hregsH.trans hregsD)).trans hctr
  · rw [houtD, houtB, houtR]
    exact List.mem_append_right _ (List.mem_singleton_self _)

theorem Wing.recordAccepted_none (w : Wing) (n : BitVec 12) (p : Word) (h : ∀ r ∈ w.ring.recOut, ¬ (r.1 = n ∧ r.2.1 = p)) :
    w.recordAccepted n p = w := by
  unfold Wing.recordAccepted
  refine if_neg fun hany => ?_
  obtain ⟨r, hr, hrn⟩ := List.any_eq_true.mp hany
  exact h r hr (by simpa using hrn)

/-- The last record of the oldest block is accepted. -/
theorem Wing.recordAccepted_last (w : Wing) (n : BitVec 12) (p : Word) (b : EvBlock) (hwritten : w.ring.written = [b])
    (hout : w.ring.recOut = [(n, p, b.tick)]) :
    (w.recordAccepted n p).ring.recOut = [] ∧ (w.recordAccepted n p).ring.written = [] ∧
      (w.recordAccepted n p).psg.defr = w.psg.defr ++ [.done b.tick] := by
  obtain ⟨u, hu⟩ : ∃ u : Wing, u = { w with ring := { w.ring with recOut := [] } } := ⟨_, rfl⟩
  have hacc : w.recordAccepted n p = u.settleDone.writeHeaders := by
    unfold Wing.recordAccepted
    rw [hout, if_pos (by simp), hu]
    simp
  have hdone : u.settleDone = ({ u with ring := { u.ring with written := [] } }).place (.done b.tick) := by
    unfold Wing.settleDone
    simp [hu, hwritten]
  obtain ⟨hring, -, hpsg, -⟩ := u.settleDone.writeHeaders_rings
  rw [hacc, hring, hpsg, hdone, Wing.place_psg]
  simp [hu, Rec.group]

end Sys2Proof.Machine

namespace Sys2Proof
open Machine

/-- Settles O33: the write of a block of one record (R170, R172), and the acceptance that completes a block (R150, R173); the headers
that go out behind either move no position. -/
theorem eventRecordsAreWrittenAndDone : Obligations.EventRecordsAreWrittenAndDone := by
  unfold Obligations.EventRecordsAreWrittenAndDone
  refine ⟨fun s w n t0 r hmay hblocks htick hcom => ?_, fun s w n p => ⟨fun b hrun hwritten hout => ?_, fun hnone => ?_, fun hmay => ?_⟩⟩
  · have hready : (s.wing w).silent.blockReady (oneRecord t0 n r) = true := Bool.and_eq_true_iff.mpr ⟨decide_eq_true htick, hcom⟩
    obtain ⟨t, ht, honly, hwing, hout⟩ := (stepsWing (i := .eventBlockWrite w) rfl).leaves rfl
    obtain ⟨hpos, hrest, hmem, hctr, hwrite⟩ := (s.wing w).silent.ringTurn_one_spec t0 n r hmay hblocks hready _ rfl
    generalize (s.wing w).silent.ringTurn _ = v at *
    exact ⟨t, _, ht, honly, rfl, (congrArg (fun v => (Wing.slice v n).wpos) hwing).trans hpos, (congrArg (·.ring.blocks) hwing).trans hrest,
      hwing ▸ hmem, (congrArg (Wing.ctr · cEvrRecords) hwing).trans hctr, (s.wing w).writeTag, hout ▸ hwrite⟩
  · obtain ⟨hrec, hwr, hdefr⟩ := (s.wing w).silent.recordAccepted_last n p b hwritten hout
    obtain ⟨t, ht, honly, hwing, -⟩ := (stepsWing (i := .recordWriteAccepted w n p) rfl).leaves
      (v := (s.wing w).silent.recordAccepted n p) (if_pos hrun)
    exact ⟨t, ht, honly, (congrArg (·.ring.recOut) hwing).trans hrec, (congrArg (·.ring.written) hwing).trans hwr,
      (congrArg (·.psg.defr) hwing).trans hdefr⟩
  · have hstands : (if (s.wing w).silent.running then (s.wing w).silent.recordAccepted n p else (s.wing w).silent) =
        (s.wing w).silent := by
      rcases hnone with h | h
      · exact if_neg (by rw [show (s.wing w).silent.running = false from h]; decide)
      · rw [(s.wing w).silent.recordAccepted_none n p h, ite_self]
    obtain ⟨t, ht, honly, -, hwing⟩ := (stepsWing (i := .recordWriteAccepted w n p) rfl).stands hstands
    exact ⟨t, ht, honly, hwing⟩
  · obtain ⟨t, ht, honly, -, hwing⟩ := (stepsWing (i := .eventBlockWrite w) rfl).stands
      (if_neg (by rw [show (s.wing w).silent.mayWrite = false from hmay]; decide))
    exact ⟨t, ht, honly, hwing⟩

end Sys2Proof
end

section
/-! What waits for a read takes those that are free (R20, R50), and what the read of a cellar entry leaves (R70, R71, R74). -/

namespace Sys2Proof.Machine

/-! ## Reads that come free -/

/-- Nothing changes but what waits for a read and gets one: only reads go out. -/
def Wing.TookReads (v w : Wing) : Prop :=
  ∃ (fs : List Fetch) (bs : List (BitVec 12 × Bool × Bool)) (m : MemTags) (o : List Out),
    (∀ x ∈ o, ∃ a n tag, x = .memRead w.id a n tag) ∧
    v = { w with pan := { w.pan with fetches := fs }, ring := { w.ring with blockReads := bs }, mem := m, out := w.out ++ o }

theorem Wing.tookReads_of_lists (w : Wing) (fs : List Fetch) (bs : List (BitVec 12 × Bool × Bool)) :
    { w with pan := { w.pan with fetches := fs }, ring := { w.ring with blockReads := bs } }.TookReads w :=
  ⟨fs, bs, w.mem, [], by simp, by rw [List.append_nil]⟩

theorem Wing.TookReads.refl (w : Wing) : w.TookReads w := w.tookReads_of_lists w.pan.fetches w.ring.blockReads

theorem Wing.TookReads.trans {u v w : Wing} (h : u.TookReads v) (h' : v.TookReads w) : u.TookReads w := by
  obtain ⟨fs, bs, m, o, ho, rfl⟩ := h
  obtain ⟨fs', bs', m', o', ho', rfl⟩ := h'
  refine ⟨fs, bs, m, o' ++ o, fun x hx => ?_, by simp⟩
  rcases List.mem_append.1 hx with hx | hx
  · exact ho' x hx
  · exact ho x hx

theorem Wing.TookReads.foldl {α : Type} (f : Wing → α → Wing) (h : ∀ v a, (f v a).TookReads v) (l : List α) (w : Wing) :
    (l.foldl f w).TookReads w := by
  induction l generalizing w with
  | nil => exact .refl w
  | cons a l ih => exact (ih (f w a)).trans (h w a)

theorem Wing.emitRead_tookReads (w : Wing) (addr : DWord) (len : Nat) : (w.emitRead addr len).TookReads w :=
  ⟨w.pan.fetches, w.ring.blockReads, _, [.memRead w.id addr len w.readTag],
    fun _ hx => ⟨addr, len, w.readTag, List.mem_singleton.1 hx⟩, rfl⟩

theorem Wing.issueReads_tookReads (w : Wing) : w.issueReads.TookReads w :=
  (Wing.TookReads.foldl (fun (w : Wing) k => w.emitRead (w.entryAddr k) 32) (fun v _ => v.emitRead_tookReads _ _) _ _).trans
    (w.tookReads_of_lists (issueFetches (128 - min 128 w.readsOut) w.pan.fetches).1 w.ring.blockReads)

theorem Wing.issueHalf_tookReads (s : BitVec 12) (j : Job) (w : Wing) (half : Bool) : (Wing.issueHalf s j w half).TookReads w := by
  unfold Wing.issueHalf
  split
  · exact (Wing.emitRead_tookReads _ _ _).trans 
      (w.tookReads_of_lists w.pan.fetches (w.ring.blockReads ++ [(s, half, true)]))
  · exact .refl w

theorem Wing.issueBlocks_tookReads (w : Wing) : w.issueBlocks.TookReads w := by
  refine Wing.TookReads.foldl _ (fun v e => ?_) _ _
  cases e.2.job with
  | none => exact .refl v
  | some j => exact Wing.TookReads.foldl _ (fun v half => Wing.issueHalf_tookReads _ j v half) _ _

theorem Wing.useReads_tookReads (w : Wing) : w.useReads.TookReads w := w.issueReads.issueBlocks_tookReads.trans w.issueReads_tookReads

theorem Wing.TookReads.keeps {v w : Wing} (h : v.TookReads w) :
    v.vst = w.vst ∧ v.psg = w.psg ∧ v.regs = w.regs ∧ v.pan.slots = w.pan.slots ∧ v.pan.quar = w.pan.quar ∧
    v.now = w.now ∧ v.ownsFrame = w.ownsFrame ∧ v.recheckRoom = w.recheckRoom := by
  obtain ⟨fs, bs, m, o, -, rfl⟩ := h
  exact ⟨rfl, rfl, rfl, rfl, rfl, rfl, rfl, rfl⟩

/-- What an install asks of the pantry and the frame stands. -/
theorem Wing.TookReads.places {v w : Wing} (h : v.TookReads w) :
    (∀ key, v.resident key = w.resident key) ∧ (∀ n, v.roomFor n = w.roomFor n) ∧
    ∀ s route, v.chooseSlot s route = w.chooseSlot s route := by
  obtain ⟨fs, bs, m, o, -, rfl⟩ := h
  exact ⟨fun _ => rfl, fun _ => rfl, fun _ _ => rfl⟩

/-! ## An entry that checks -/

theorem tryStaged_nil (stuck : List Word) (n : Nat) (w : Wing) : (tryStaged [] stuck n w).1 = w := by
  unfold tryStaged
  rfl

/-- With nothing staged on the vector there is nothing to try. -/
theorem Wing.admitKey_of_unstaged {w : Wing} {key : Word} (h : ∀ o ∈ w.vst.staged, o.key ≠ key) : w.admitKey key = w := by
  have hnone : w.vst.staged.filter (fun o => o.key == key) = [] := List.filter_eq_nil_iff.2 fun o ho => by simpa using h o ho
  unfold Wing.admitKey
  simp only [hnone, tryStaged_nil, ite_self]

/-- The wing with the install of a context in the slot noted, made and carried. -/
def Wing.installed (w : Wing) (n : Nat) (c : Ctx) : Wing :=
  ({ w with pan := { w.pan with recent := w.pan.recent ++ [(w.now, n, c)] } }.putSlot n c).place
    (.install { bank := bankOf n, slot := slotOf n, key := c.key, tag := c.tag })

theorem Wing.imageForActive_arrival {w : Wing} {f : Fetch} {c : Ctx} {n : Nat} (hcauses : f.causes = [.arrival])
    (habsent : w.resident c.key = false) (hcmd : keySlice c.key ∉ w.vst.underCmd) (hroom : w.roomFor 1 = true)
    (hstaged : ∀ o ∈ w.vst.staged, o.key ≠ c.key) (hslot : w.chooseSlot (keySlice c.key) false = some (n, none)) :
    w.imageForActive f c = w.installed n c := by
  have hinstall : w.install? c [.arrival] = some (w.installed n c) := by
    have hgo : (w.vst.underCmd.contains (keySlice c.key) || !w.roomFor 1) = false := by simp [hcmd, hroom]
    have hroute : routeCause [.arrival] = false := rfl
    have hpin : (c.pin || ([FetchCause.arrival]).contains .repin) = c.pin := by simp
    unfold Wing.install?
    simp only [hroute, hgo, hslot, hpin, Bool.false_eq_true, if_false, Option.map_some]
    rfl
  have hkept : (w.installed n c).admitKey c.key = w.installed n c :=
    Wing.admitKey_of_unstaged fun o ho => hstaged o (by simpa [Wing.installed, Wing.putSlot, Wing.count, Wing.countN, Wing.setCtr] using ho)
  unfold Wing.imageForActive
  rw [hcauses]
  show w.takeImage { ctx := c, tick := w.now, causes := [.arrival] } = _
  unfold Wing.takeImage Wing.tryInstall
  have hinst : ([FetchCause.arrival].any w.installs) = true := rfl
  simp only [habsent, hinstall, hinst, Bool.not_true, Bool.false_eq_true, if_false]
  exact hkept

theorem Wing.installed_spec (w : Wing) (n : Nat) (c : Ctx) (hnow : c.touched = w.now) :
    (w.installed n c).pan.slots = SMap.insert w.pan.slots n { ctx := c, steer := Steer.reset } ∧
    Rec.install { bank := bankOf n, slot := slotOf n, key := c.key, tag := c.tag } ∈ (w.installed n c).psg.ord ∧
    (w.installed n c).ctr cInstall = w.ctr cInstall + 1 := by
  refine ⟨?_, ?_, ?_⟩
  · have hpan : (w.installed n c).pan =
        ({ w with pan := { w.pan with recent := w.pan.recent ++ [(w.now, n, c)] } }.putSlot n c).pan := by simp [Wing.installed]
    rw [hpan]
    show SMap.insert w.pan.slots n { ctx := { c with touched := w.now }, steer := Steer.reset } = _
    rw [← hnow]
  · unfold Wing.installed
    rw [Wing.place_psg]
    exact List.mem_append_right _ (List.mem_singleton_self _)
  · unfold Wing.installed
    rw [Wing.ctr_place]
    exact Wing.ctr_count_self _ cInstall

theorem reloadSlot_of_none {cs : List FetchCause} (h : ∀ n u, FetchCause.reload n u ∉ cs) : reloadSlot cs = none := by
  unfold reloadSlot
  refine List.findSome?_eq_none_iff.2 fun c hc => ?_
  cases c with
  | reload n u => exact absurd hc (h n u)
  | _ => rfl

/-- The wing without the read of a vector; what waits may have taken its place. -/
def Wing.dropFetch (w : Wing) (key : Word) : Wing :=
  { w with pan := { w.pan with fetches := w.pan.fetches.filter (·.key != key) } }.useReads

theorem Wing.dropFetch_tookReads (w : Wing) (key : Word) : (w.dropFetch key).TookReads w :=
  (Wing.useReads_tookReads _).trans (w.tookReads_of_lists (w.pan.fetches.filter (·.key != key)) w.ring.blockReads)

theorem Wing.cellarReturn_good {w : Wing} {key : Word} {e : BitVec 256} {f : Fetch}
    (hf : w.pan.fetches.find? (fun f => f.key == key && f.issued) = some f) (htag : tagOk w.key e key domainVector = true) :
    w.cellarReturn key (some e) =
      if w.ownsFrame then (w.dropFetch key).imageForActive f (ctxOfImage key e w.now)
      else (w.dropFetch key).imageForOther f (ctxOfImage key e w.now) := by
  unfold Wing.cellarReturn
  simp only [hf, Option.filter_some, htag, if_true]
  rfl

/-- An entry that checks, at the active wing, for an arrival alone: its context is installed. -/
theorem Wing.cellarReturn_active {w : Wing} {key : Word} {e : BitVec 256} {f : Fetch} {n : Nat}
    (hf : w.pan.fetches.find? (fun f => f.key == key && f.issued) = some f) (htag : tagOk w.key e key domainVector = true)
    (howns : w.ownsFrame = true) (hcauses : f.causes = [.arrival]) (habsent : w.resident key = false)
    (hcmd : keySlice key ∉ w.vst.underCmd) (hroom : w.roomFor 1 = true) (hstaged : ∀ o ∈ w.vst.staged, o.key ≠ key)
    (hslot : w.chooseSlot (keySlice key) false = some (n, none)) :
    (w.cellarReturn key (some e)).pan.slots =
      SMap.insert w.pan.slots n { ctx := ctxOfImage key e w.now, steer := Steer.reset } ∧
    Rec.install { bank := bankOf n, slot := slotOf n, key := key, tag := e.extractLsb' 224 32 } ∈
      (w.cellarReturn key (some e)).psg.ord ∧
    (w.cellarReturn key (some e)).ctr cInstall = w.ctr cInstall + 1 := by
  rw [Wing.cellarReturn_good hf htag, if_pos howns]
  obtain ⟨hvst, -, hregs, hslots, -, hnow, -⟩ := (w.dropFetch_tookReads key).keeps
  obtain ⟨hres, hroomFor, hchoose⟩ := (w.dropFetch_tookReads key).places
  rw [← hres] at habsent
  rw [← hvst] at hcmd hstaged
  rw [← hroomFor] at hroom
  rw [← hchoose] at hslot
  have hctr : (w.dropFetch key).ctr cInstall = w.ctr cInstall := by simp only [Wing.ctr, hregs]
  rw [Wing.imageForActive_arrival (c := ctxOfImage key e w.now) hcauses habsent hcmd hroom hstaged hslot, ← hslots, ← hctr]
  exact (w.dropFetch key).installed_spec n (ctxOfImage key e w.now) hnow.symm

/-- An entry that checks, at any other wing: the image is held. -/
theorem Wing.cellarReturn_other {w : Wing} {key : Word} {e : BitVec 256} {f : Fetch}
    (hf : w.pan.fetches.find? (fun f => f.key == key && f.issued) = some f) (htag : tagOk w.key e key domainVector = true)
    (howns : w.ownsFrame = false) (hhold : w.psg.hold = []) (hnone : ∀ n u, FetchCause.reload n u ∉ f.causes) :
    { ctx := ctxOfImage key e w.now, tick := w.now, causes := f.causes : Image } ∈ (w.cellarReturn key (some e)).pan.images ∧
    (w.cellarReturn key (some e)).pan.slots = w.pan.slots := by
  rw [Wing.cellarReturn_good hf htag, howns, if_neg Bool.false_ne_true]
  obtain ⟨-, hpsg, -, hslots, -, hnow, -⟩ := (w.dropFetch_tookReads key).keeps
  rw [← hpsg] at hhold
  unfold Wing.imageForOther
  simp only [reloadSlot_of_none hnone, Option.bind_none, hnow]
  rw [Wing.resumeHold_of_empty (by exact hhold)]
  exact ⟨List.mem_append_right _ (List.mem_singleton_self _), hslots⟩

/-! ## A read that fails -/

theorem Wing.cellarReturn_none {w : Wing} {key : Word} {rsp : Option (BitVec 256)} {e : BitVec 256} {f : Fetch}
    (hf : w.pan.fetches.find? (fun f => f.key == key && f.issued) = some f)
    (hrsp : rsp = none ∨ rsp = some e ∧ tagOk w.key e key domainVector = false) :
    w.cellarReturn key rsp = w.cellarReturn key none := by
  rcases hrsp with rfl | ⟨rfl, htag⟩
  · rfl
  · unfold Wing.cellarReturn
    simp only [hf, Option.filter_some, htag, Bool.false_eq_true, if_false, Option.filter_none]

/-- The wing with the read of a vector issued again. -/
def Wing.readAgain (w : Wing) (key : Word) : Wing :=
  ({ w with pan := { w.pan with
    fetches := w.pan.fetches.map fun (x : Fetch) => if x.key = key then { x with retried := true } else x } }.count cReadRetry).emitRead
      (w.entryAddr key) 32

theorem Wing.cellarReturn_retry {w : Wing} {key : Word} {f : Fetch}
    (hf : w.pan.fetches.find? (fun f => f.key == key && f.issued) = some f) (hfirst : f.retried = false) :
    w.cellarReturn key none = w.readAgain key := by
  unfold Wing.cellarReturn
  simp only [hf, Option.filter_none, hfirst, Bool.not_false, if_true]
  rfl

theorem Wing.cellarReturn_second {w : Wing} {key : Word} {f : Fetch}
    (hf : w.pan.fetches.find? (fun f => f.key == key && f.issued) = some f) (hsecond : f.retried = true) :
    w.cellarReturn key none =
      if w.ownsFrame then ((w.dropFetch key).count cReadFail).readFails f else ((w.dropFetch key).count cReadFail).standbyFails f := by
  have howns : ((w.dropFetch key).count cReadFail).ownsFrame = w.ownsFrame := by
    obtain ⟨-, -, -, -, -, -, howns, -⟩ := (w.dropFetch_tookReads key).keeps
    exact howns
  unfold Wing.cellarReturn
  simp only [hf, Option.filter_none, hsecond, Bool.not_true, Bool.false_eq_true, if_false]
  rw [← howns]
  rfl

/-- The count of the RECHECK records that found no room, when one more found none. -/
def Wing.noteRecheck (w : Wing) : Wing := if w.recheckRoom then w else w.recheckLost 1

theorem Wing.noteRecheck_keeps (w : Wing) :
    w.noteRecheck.pan = w.pan ∧ w.noteRecheck.vst = w.vst ∧ w.noteRecheck.ctr cReadFail = w.ctr cReadFail := by
  unfold Wing.noteRecheck
  split
  · exact ⟨rfl, rfl, rfl⟩
  · exact ⟨by simp, by simp, (Wing.ctr_countN w cRecheckLost 1 cReadFail).trans (if_neg (by decide))⟩

/-- The wing with a vector in quarantine, the QUAR record of it formed, and what waited on it gone. -/
def Wing.quarantined (w : Wing) (key : Word) : Wing :=
  let w2 := (w.noteRecheck.quarantine key).place (.quar { recheck := w.recheckRoom, key := key })
  { w2 with
    vst := { w2.vst with doomed := w2.vst.doomed ++
      (w2.vst.staged.filter fun o => o.key == key).map fun o => (o.cls, o.num, o.seq) }
    pan := { w2.pan with reloads := w2.pan.reloads.filter (·.key != key) } }

theorem Wing.quarantined_spec (w : Wing) (key : Word) :
    (w.quarantined key).vst.staged = w.vst.staged ∧ (w.quarantined key).isQuarantined key = true ∧
    (w.quarantined key).ctr cReadFail = w.ctr cReadFail ∧
    Rec.quar { recheck := w.recheckRoom, key := key } ∈ (w.quarantined key).psg.defr ∧
    (w.quarantined key).pan.slots = w.pan.slots := by
  obtain ⟨hpan, hvst, hctr⟩ := w.noteRecheck_keeps
  have hregs : (w.noteRecheck.quarantine key).regs = w.noteRecheck.regs := by
    unfold Wing.quarantine
    split <;> rfl
  refine ⟨?_, ?_, ?_, ?_, ?_⟩
  · show ((w.noteRecheck.quarantine key).place _).vst.staged = _
    simp [hvst]
  · show ((w.noteRecheck.quarantine key).place _).isQuarantined key = true
    rw [← Wing.isQuarantined_quarantine w.noteRecheck key]
    simp [Wing.isQuarantined]
  · show ((w.noteRecheck.quarantine key).place _).ctr cReadFail = _
    rw [Wing.ctr_place, ← hctr]
    simp only [Wing.ctr, hregs]
  · show _ ∈ ((w.noteRecheck.quarantine key).place _).psg.defr
    rw [Wing.place_psg]
    exact List.mem_append_right _ (List.mem_singleton_self _)
  · show ((w.noteRecheck.quarantine key).place _).pan.slots = _
    simp [hpan]

/-- With nothing waiting for the vector but an arrival that is no longer staged, the quarantine is all that the failure leaves. -/
theorem Wing.readFails_arrival {w : Wing} {f : Fetch} (hcauses : f.causes = [.arrival]) (hstaged : ∀ o ∈ w.vst.staged, o.key ≠ f.key) :
    w.readFails f = w.quarantined f.key := by
  unfold Wing.readFails
  rw [hcauses]
  refine Wing.admitKey_of_unstaged (w := w.quarantined f.key) fun o ho => hstaged o ?_
  rwa [(w.quarantined_spec f.key).1] at ho

theorem Wing.key_of_fetch {w : Wing} {key : Word} {f : Fetch}
    (hf : w.pan.fetches.find? (fun f => f.key == key && f.issued) = some f) : f.key = key := by
  have h := List.find?_some hf
  simp only [Bool.and_eq_true, beq_iff_eq] at h
  exact h.1

/-- Any other wing asks its peer, or drops the read. -/
theorem Wing.standbyFails_keeps {w : Wing} (hhold : w.psg.hold = []) (f : Fetch) :
    (w.standbyFails f).pan = w.pan ∧ (w.standbyFails f).vst = w.vst ∧ (w.standbyFails f).regs = w.regs := by
  unfold Wing.standbyFails
  split
  · simp
  · rw [Wing.resumeHold_of_empty hhold]
    exact ⟨rfl, rfl, rfl⟩

/-- A read that fails for the second time, at the active wing and at any other. -/
theorem Wing.cellarReturn_fails {w : Wing} {key : Word} {f : Fetch}
    (hf : w.pan.fetches.find? (fun f => f.key == key && f.issued) = some f) (hsecond : f.retried = true) :
    (w.ownsFrame = true → f.causes = [.arrival] → (∀ o ∈ w.vst.staged, o.key ≠ key) →
      (w.cellarReturn key none).isQuarantined key = true ∧ (w.cellarReturn key none).ctr cReadFail = w.ctr cReadFail + 1 ∧
      Rec.quar { recheck := w.recheckRoom, key := key } ∈ (w.cellarReturn key none).psg.defr ∧
      (w.cellarReturn key none).pan.slots = w.pan.slots) ∧
    (w.ownsFrame = false → w.psg.hold = [] →
      (w.cellarReturn key none).ctr cReadFail = w.ctr cReadFail + 1 ∧ (w.cellarReturn key none).pan.quar = w.pan.quar ∧
      (w.cellarReturn key none).pan.slots = w.pan.slots ∧ (w.cellarReturn key none).vst = w.vst) := by
  have hkey := Wing.key_of_fetch hf
  subst hkey
  rw [Wing.cellarReturn_second hf hsecond]
  obtain ⟨hvst, hpsg, hregs, hslots, hquar, -, -, hroom⟩ := (w.dropFetch_tookReads f.key).keeps
  have hroom' : ((w.dropFetch f.key).count cReadFail).recheckRoom = w.recheckRoom := hroom
  have hctr : ((w.dropFetch f.key).count cReadFail).ctr cReadFail = w.ctr cReadFail + 1 :=
    (Wing.ctr_count_self _ cReadFail).trans (by simp only [Wing.ctr, hregs])
  refine ⟨fun howns hcauses hstaged => ?_, fun howns hhold => ?_⟩
  · rw [← hvst] at hstaged
    rw [if_pos howns, Wing.readFails_arrival (w := (w.dropFetch f.key).count cReadFail) hcauses hstaged, ← hroom', ← hctr, ← hslots]
    obtain ⟨-, hquar, hctr', hrec, hslots'⟩ := ((w.dropFetch f.key).count cReadFail).quarantined_spec f.key
    exact ⟨hquar, hctr', hrec, hslots'⟩
  · rw [← hpsg] at hhold
    rw [howns, if_neg Bool.false_ne_true, ← hctr]
    obtain ⟨hpan, hvst', hregs'⟩ := Wing.standbyFails_keeps (w := (w.dropFetch f.key).count cReadFail) hhold f
    exact ⟨by simp only [Wing.ctr, hregs'], (congrArg Pantry.quar hpan).trans hquar, (congrArg Pantry.slots hpan).trans hslots,
      hvst'.trans hvst⟩

/-- With no read out that the answer belongs to, it does nothing. -/
theorem Wing.cellarReturn_idle {w : Wing} {key : Word}
    (h : w.running = false ∨ w.pan.fetches.find? (fun f => f.key == key && f.issued) = none) (rsp : Option (BitVec 256)) :
    (if w.running then w.cellarReturn key rsp else w) = w := by
  rcases h with h | h
  · rw [h]
    exact if_neg Bool.false_ne_true
  · unfold Wing.cellarReturn
    simp only [h, ite_self]

end Sys2Proof.Machine

namespace Sys2Proof

open Machine

/-- Settles O28: the read is dropped, noted as tried again, or its image taken, and what the images and the quarantine leave is
said above. -/
theorem cellarReadsInstallRetryOrQuarantine : Obligations.CellarReadsInstallRetryOrQuarantine := by
  unfold Obligations.CellarReadsInstallRetryOrQuarantine
  have hsteps (s : State) (w : WingId) (key : Word) (rsp : Option (BitVec 256)) :
      StepsWing (.cellarReadReturn w key rsp) s w fun v => if v.running then v.cellarReturn key rsp else v := stepsWing rfl
  have hruns {s : State} {w : WingId} (key : Word) (rsp : Option (BitVec 256)) (hrun : (s.wing w).running = true) :
      ∃ t, exec (.cellarReadReturn w key rsp) s = .next t ∧ s.onlyWing t w ∧
        t.wing w = ((s.wing w).silent.cellarReturn key rsp).silent ∧ t.out = ((s.wing w).silent.cellarReturn key rsp).out :=
    (hsteps s w key rsp).leaves (if_pos (c := (s.wing w).silent.running = true) hrun)
  refine ⟨fun s w key => ⟨fun hidle rsp => ?_, fun e f hrun hf => ⟨fun htag => ⟨fun n howns hcauses habsent hcmd hroom hstaged hslot => ?_,
    fun howns hhold hnone => ?_⟩, fun rsp hrsp hfirst => ?_⟩⟩, fun s w key f hrun hf hsecond => ?_⟩
  · obtain ⟨t, ht, honly, -, hwing⟩ := (hsteps s w key rsp).stands (Wing.cellarReturn_idle (w := (s.wing w).silent) hidle rsp)
    exact ⟨t, ht, honly, hwing⟩
  · obtain ⟨t, ht, honly, hwing, -⟩ := hruns key (some e) hrun
    obtain ⟨hslots, hrec, hctr⟩ := Wing.cellarReturn_active (w := (s.wing w).silent) hf htag howns hcauses habsent hcmd hroom hstaged hslot
    rw [← Wing.ctr_silent] at hctr
    exact ⟨t, ht, honly, (congrArg (·.pan.slots) hwing).trans hslots, (congrArg (·.psg.ord) hwing) ▸ hrec,
      (congrArg (Wing.ctr · cInstall) hwing).trans hctr⟩
  · obtain ⟨t, ht, honly, hwing, -⟩ := hruns key (some e) hrun
    obtain ⟨himage, hslots⟩ := Wing.cellarReturn_other (w := (s.wing w).silent) hf htag howns hhold hnone
    exact ⟨t, ht, honly, (congrArg (·.pan.images) hwing) ▸ himage, (congrArg (·.pan.slots) hwing).trans hslots⟩
  · obtain ⟨t, ht, honly, hwing, hout⟩ := hruns key rsp hrun
    have hagain : (s.wing w).silent.cellarReturn key rsp = (s.wing w).silent.readAgain key :=
      (Wing.cellarReturn_none (w := (s.wing w).silent) hf hrsp).trans (Wing.cellarReturn_retry hf hfirst)
    rw [hagain] at hwing hout
    exact ⟨t, ht, honly, hout, (congrArg (Wing.ctr · cReadRetry) hwing).trans (Wing.ctr_count_self _ cReadRetry),
      congrArg (·.pan.fetches) hwing, congrArg (·.pan.slots) hwing⟩
  · obtain ⟨t, ht, honly, hwing, -⟩ := hruns key none hrun
    obtain ⟨hactive, hother⟩ := Wing.cellarReturn_fails (w := (s.wing w).silent) hf hsecond
    refine ⟨fun howns hcauses hstaged => ?_, fun howns hhold => ?_⟩
    · obtain ⟨hquar, hctr, hrec, hslots⟩ := hactive howns hcauses hstaged
      exact ⟨t, ht, honly, (congrArg (Wing.isQuarantined · key) hwing).trans hquar, (congrArg (Wing.ctr · cReadFail) hwing).trans hctr,
        (congrArg (·.psg.defr) hwing) ▸ hrec, (congrArg (·.pan.slots) hwing).trans hslots⟩
    · obtain ⟨hctr, hquar, hslots, hvst⟩ := hother howns hhold
      exact ⟨t, ht, honly, (congrArg (Wing.ctr · cReadFail) hwing).trans hctr, (congrArg (·.pan.quar) hwing).trans hquar,
        (congrArg (·.pan.slots) hwing).trans hslots, (congrArg (·.vst) hwing).trans hvst⟩

end Sys2Proof
end

section
/-! Return reads of the spill rings, and the answers to write-backs and to the writes of the save area (R54, R79 to R81, R305). -/

namespace Sys2Proof.Machine

/-- What the command does to its wing may be said in another way. -/
theorem StepsWing.congr {i : Instr} {s : State} {w : WingId} {f g : Wing → Wing} (h : StepsWing i s w f)
    (hfg : f (s.wing w).silent = g (s.wing w).silent) : StepsWing i s w g := by
  unfold StepsWing at h ⊢
  rwa [hfg] at h

/-- A fold whose steps leave the start as it is. -/
theorem foldl_stands {α β : Type} {f : β → α → β} {b : β} {l : List α} (h : ∀ a ∈ l, f b a = b) : l.foldl f b = b := by
  induction l with
  | nil => rfl
  | cons a l ih =>
      rw [List.foldl_cons, h a List.mem_cons_self]
      exact ih fun x hx => h x (List.mem_cons_of_mem a hx)

/-! ## Return reads -/

theorem Wing.drainAll_of_empty {w : Wing} (h : w.vst.inbuf = []) : w.drainAll = w := by
  unfold Wing.drainAll
  rw [h]
  show w.refill = w
  unfold Wing.refill
  split
  · rfl
  · have hnew : (w.vst.inbuf.take 512).filter (fun e => !e.2) = [] := by rw [h]; rfl
    have hbuf : (w.vst.inbuf.take 512).map (fun e => (e.1, true)) ++ w.vst.inbuf.drop 512 = w.vst.inbuf := by rw [h]; rfl
    simp only [hnew, hbuf, List.length_nil, List.replicate_zero, List.append_nil]

/-- With every staged arrival's context in the pantry no fetch starts. -/
theorem Wing.fetchStaged_of_resident {w : Wing} (h : ∀ o ∈ w.vst.staged, w.resident o.key = true) : w.fetchStaged = w := by
  refine foldl_stands fun o ho => ?_
  have hstands : w.fetchFor o .arrival = w := by
    unfold Wing.fetchFor
    rw [h o ho]
    rfl
  split
  · exact hstands
  · rfl

/-- A spill ring without the entries of its first return read. -/
def Spill.returnedOne (sp : Spill) : Spill :=
  let k := min (sp.reads.headD 0) sp.items.length
  { head := sp.head + k, tail := sp.tail, items := sp.items.drop k, reads := sp.reads.drop 1, retried := false
    dead := sp.dead.filter fun i => decide (sp.head + k ≤ i) }

theorem Wing.returned_silent (w : Wing) (s : BitVec 12) (rsp : Option (BitVec 512)) : w.silent.returned s rsp = w.returned s rsp := rfl

/-- The wing with the first return read of a slice answered by whole entries. -/
def Wing.unspill (w : Wing) (s : BitVec 12) (es : List Obs) : Wing :=
  { w with
    vst := { w.vst with
      spill := SMap.set w.vst.spill Spill.reset s.toNat (w.spillOf s).returnedOne
      staged := w.vst.staged ++ es
      returned := w.vst.returned ++ es.map fun (o : Obs) => (o.cls, o.num, o.seq) }
    regs := ((w.countN cReturned es.length).countN cSpillLost 0).regs }

theorem Wing.unspill_spec (w : Wing) (s : BitVec 12) (es : List Obs) :
    (w.unspill s es).vst.staged = w.vst.staged ++ es ∧
    (w.unspill s es).ctr cReturned = w.ctr cReturned + BitVec.ofNat 64 es.length ∧
    ((w.unspill s es).spillOf s).reads = (w.spillOf s).reads.drop 1 ∧
    ((w.unspill s es).spillOf s).items = (w.spillOf s).items.drop ((w.spillOf s).reads.headD 0) ∧
    ∀ x, x ≠ s → (w.unspill s es).spillOf x = w.spillOf x := by
  have hself : (w.unspill s es).spillOf s = (w.spillOf s).returnedOne := SMap.get_set_self w.vst.spill Spill.reset s.toNat _
  have hctr : ((w.countN cReturned es.length).countN cSpillLost 0).ctr cReturned = w.ctr cReturned + BitVec.ofNat 64 es.length := by
    rw [Wing.ctr_countN, if_neg (by decide), Wing.ctr_countN, if_pos rfl]
  refine ⟨rfl, hctr, by rw [hself]; rfl, ?_, fun x hx => ?_⟩
  · rw [hself]
    exact List.drop_eq_drop_iff.2 (by omega)
  · exact SMap.get_set_ne w.vst.spill Spill.reset _ fun h => hx (BitVec.eq_of_toNat_eq h)

/-- A return read of whole entries, where their fetches do not start. -/
theorem Wing.spillReturn_whole {w : Wing} {s : BitVec 12} {rsp : Option (BitVec 512)} {es : List Obs}
    (hreads : (w.spillOf s).reads ≠ []) (hes : w.returned s rsp = es.map fun o => (o, true))
    (hquiet : w.admitsNew = false ∨ ∀ o ∈ w.vst.staged ++ es, w.resident o.key = true) :
    w.spillReturn s rsp = (w.unspill s es).useReads := by
  have hany : (es.map fun o => (o, true)).any (fun e => !e.2) = false := by simp
  have hlost : (es.map fun o => (o, true)).filter (fun e => !e.2) = [] := by simp
  have hall : (es.map fun o => (o, true)).map Prod.fst = es := by rw [List.map_map]; exact List.map_id es
  have hgood : ((es.map fun o => (o, true)).filter (fun e => e.2)).map Prod.fst = es := by
    rw [List.filter_eq_self.2 (by simp), hall]
  have hfetch : (if (w.unspill s es).admitsNew then (w.unspill s es).fetchStaged else w.unspill s es) = w.unspill s es := by
    rcases hquiet with hno | hin
    · have hsame : (w.unspill s es).admitsNew = w.admitsNew := rfl
      rw [hsame, hno, if_neg Bool.false_ne_true]
    · rw [Wing.fetchStaged_of_resident (w := w.unspill s es) hin, ite_self]
  unfold Wing.spillReturn
  extract_lets sp es' lost good keep k w1 w2 vst2 w3
  have hes' : es' = es.map fun o => (o, true) := hes
  clear_value es'
  subst hes'
  rw [if_neg hreads, hany, Bool.false_and, if_neg Bool.false_ne_true]
  have hw3 : w3 = w.unspill s es := by
    have hkeep : keep = es := by simp only [keep, good, hall, hgood, ite_self]
    have hlost' : lost = [] := by simp only [lost, hlost, List.map_nil]
    have hgood' : good = es := hgood
    clear_value keep lost good
    subst hgood' hlost' hkeep
    simp only [w3, List.map_nil, ite_self, List.append_nil]
    rfl
  clear_value w3
  subst hw3
  exact congrArg Wing.useReads hfetch

/-- Reads that come free take nothing from this. -/
theorem Wing.unspill_took {v w : Wing} {s : BitVec 12} {es : List Obs} (h : v.TookReads (w.unspill s es)) :
    v.vst.staged = w.vst.staged ++ es ∧ v.ctr cReturned = w.ctr cReturned + BitVec.ofNat 64 es.length ∧
    (v.spillOf s).reads = (w.spillOf s).reads.drop 1 ∧
    (v.spillOf s).items = (w.spillOf s).items.drop ((w.spillOf s).reads.headD 0) ∧
    (∀ x, x ≠ s → v.spillOf x = w.spillOf x) ∧ ∃ o, v.out = w.out ++ o ∧ ∀ x ∈ o, ∃ a n tag, x = .memRead w.id a n tag := by
  obtain ⟨hstaged, hctr, hreads, hitems, hothers⟩ := w.unspill_spec s es
  obtain ⟨fs, bs, m, o, ho, rfl⟩ := h
  exact ⟨hstaged, hctr, hreads, hitems, hothers, o, rfl, ho⟩

/-! ## Write-backs -/

/-- The wing without the first image of a vector in the write buffer. -/
def Wing.dropImage (w : Wing) (key : Word) : Wing := { w with pan := { w.pan with wbuf := dropBuf key w.pan.wbuf } }

theorem countP_insert_le {α : Type} (p : Nat × α → Bool) (m : SMap α) (k : Nat) (a : α) (hp : p (k, a) = false) :
    (SMap.insert m k a).countP p ≤ m.countP p := by
  induction m with
  | nil => simp [SMap.insert, hp]
  | cons e m ih =>
      obtain ⟨i, b⟩ := e
      unfold SMap.insert
      split
      · simp [List.countP_cons, hp]
      · split
        · simp [List.countP_cons, hp]
        · simpa [List.countP_cons] using ih

/-- A context that is cleaned adds to no count of dirty ones. -/
theorem Wing.dirtyCount_cleaned (w : Wing) (n : Nat) (sl : Slot) (h : sl.ctx.dirty = false) :
    (w.setSlots (SMap.insert w.pan.slots n sl)).dirtyCount ≤ w.dirtyCount := by
  have hcount : ∀ v : Wing, v.dirtyCount = v.pan.slots.countP fun e => e.2.ctx.dirty := fun v => by
    unfold Wing.dirtyCount Wing.ctxs
    rw [← List.countP_eq_length_filter, List.countP_map]
    rfl
  rw [hcount, hcount]
  exact countP_insert_le _ _ _ _ h

/-- With no VEC_RESET unfinished there is none that waits for an image to be written. -/
theorem Wing.quarResets_of_none {w : Wing} (h : ∀ e ∈ w.sl, ∀ u ∈ e.2.ucmds, u.opcode ≠ opVecReset) (key : Word) :
    w.finishQuarResets key = w ∧ w.writeInitials = w := by
  have hno : ∀ e ∈ w.sl, ∀ u ∈ e.2.ucmds, w.quarReset (BitVec.ofNat 12 e.1) u = false := fun e he u hu => by
    simp [Wing.quarReset, h e he u hu]
  refine ⟨foldl_stands fun e he => foldl_stands fun u hu => ?_, foldl_stands fun e he => foldl_stands fun u hu => ?_⟩
  · simp [hno e he u hu]
  · simp [hno e he u hu]

/-- The wing with the vector clean in its slot. -/
def Wing.cleaned (w : Wing) (n : Nat) (sl : Slot) : Wing :=
  w.setSlots (SMap.insert w.pan.slots n { sl with ctx := { sl.ctx with dirty := false, wbFresh := false } })

/-- What an accepted write-back lets begin and finish: initial images, the cleaner's next write and FLUSH commands. -/
def Wing.afterWriteBack (w : Wing) (key : Word) : Wing :=
  let w4 := (w.finishQuarResets key).writeInitials
  (if w4.fastClean then w4.clean 1 else w4).finishFlushes

/-- With no VEC_RESET and no FLUSH unfinished and few contexts dirty there is nothing. -/
theorem Wing.afterWriteBack_idle {w : Wing} {key : Word} (hlife : w.life = .run)
    (hnone : ∀ e ∈ w.sl, ∀ u ∈ e.2.ucmds, u.opcode ≠ opVecReset) (hflush : w.flushes = []) (hdirty : w.dirtyCount ≤ 2048) :
    w.afterWriteBack key = w := by
  obtain ⟨hresets, hinitials⟩ := Wing.quarResets_of_none hnone key
  have hslow : w.fastClean = false := by simp [Wing.fastClean, hlife, hflush, hdirty]
  unfold Wing.afterWriteBack
  simp only [hresets, hinitials, hslow, Bool.false_eq_true, if_false]
  unfold Wing.finishFlushes
  rw [hflush]
  rfl

theorem Wing.cleaned_silent (w : Wing) (key : Word) (n : Nat) (sl : Slot) :
    ((w.silent.dropImage key).cleaned n sl).silent =
      { w with
        pan := { w.pan with
          wbuf := dropBuf key w.pan.wbuf
          slots := SMap.insert w.pan.slots n { sl with ctx := { sl.ctx with dirty := false, wbFresh := false } } }
        out := [] } := rfl

/-- An accepted write-back of a vector that stood since, with nothing else waiting for it. -/
theorem Wing.writeAccepted_clean {w : Wing} {key : Word} {e : Word × BitVec 256 × Tick} {n : Nat} {sl : Slot}
    (he : w.pan.wbuf.find? (fun e => e.1 == key) = some e) (hlife : w.life = .run) (hrole : w.ctl.role = .active)
    (hslot : w.slotFor key = some (n, sl)) (hfresh : sl.ctx.wbFresh = true) (hlast : ∀ x ∈ dropBuf key w.pan.wbuf, x.1 ≠ key)
    (hnone : ∀ e ∈ w.sl, ∀ u ∈ e.2.ucmds, u.opcode ≠ opVecReset) (hflush : w.flushes = []) (hdirty : w.dirtyCount ≤ 2048) :
    w.writeAccepted key true = (w.dropImage key).cleaned n sl := by
  have hmod : ((w.dropImage key).modCtx key fun c =>
      if c.wbFresh && !((w.dropImage key).pan.wbuf.any fun e => e.1 == key) then { c with dirty := false, wbFresh := false } else c) =
      (w.dropImage key).cleaned n sl := by
    have hany : ((w.dropImage key).pan.wbuf.any fun e => e.1 == key) = false :=
      List.any_eq_false.2 fun x hx => by simpa using hlast x hx
    have hslot' : (w.dropImage key).slotFor key = some (n, sl) := hslot
    unfold Wing.modCtx Wing.modSlot
    simp only [hslot', hfresh, hany, Bool.not_false, Bool.and_self, if_true]
    rfl
  unfold Wing.writeAccepted
  simp only [he]
  rw [if_neg (not_not_intro hrole), Bool.not_true, if_neg Bool.false_ne_true]
  show ((w.dropImage key).modCtx key _).afterWriteBack key = _
  exact (congrArg (Wing.afterWriteBack · key) hmod).trans
    (Wing.afterWriteBack_idle hlife hnone hflush (((w.dropImage key).dirtyCount_cleaned n _ rfl).trans hdirty))

/-- A write-back that the port refused, in Run: it is written again. -/
theorem Wing.writeAccepted_refused {w : Wing} {key : Word} {e : Word × BitVec 256 × Tick}
    (he : w.pan.wbuf.find? (fun e => e.1 == key) = some e) (hlife : w.life = .run) (hrole : w.ctl.role = .active) :
    w.writeAccepted key false = w.emitWrite (w.entryAddr key) 32 (e.2.1.setWidth 512) := by
  have hnot : w.entering = false := by simp [Wing.entering, hlife]
  unfold Wing.writeAccepted
  simp only [he, hrole, ne_eq, not_true_eq_false, if_false, Bool.not_false, if_true, hnot, Bool.false_and, Bool.false_eq_true]

theorem Wing.writeAccepted_unknown {w : Wing} {key : Word} (h : w.pan.wbuf.find? (fun e => e.1 == key) = none) (ok : Bool) :
    w.writeAccepted key ok = w := by
  unfold Wing.writeAccepted
  simp only [h]

/-- The wing with a write of the save area noted as tried again. -/
def Wing.noteRetry (w : Wing) (n : Word) : Wing := { w with pwr := { w.pwr with wbRetried := n :: w.pwr.wbRetried } }

theorem Wing.saveAnswered_first {w : Wing} {n : Word} (h : n ∉ w.pwr.wbRetried) :
    w.saveAnswered n false =
      (w.noteRetry n).emitWrite (w.saveBase + BitVec.ofNat 64 (64 * n.toNat)) 64 (w.saveBlock n.toNat) := by
  unfold Wing.saveAnswered
  rw [if_neg Bool.false_ne_true, if_neg (by simpa using h)]
  rfl

theorem Wing.writeAccepted_standby {w : Wing} {key : Word} {e : Word × BitVec 256 × Tick}
    (he : w.pan.wbuf.find? (fun e => e.1 == key) = some e) (hrole : w.ctl.role ≠ .active) (ok : Bool) :
    w.writeAccepted key ok = w.dropImage key := by
  unfold Wing.writeAccepted
  simp only [he, if_pos hrole]
  rfl

end Sys2Proof.Machine

namespace Sys2Proof

open Machine

/-- Settles O29: the entries of a return read join the staging queue, and an answer to a write-back is taken by whether the wing is
active, and the port has accepted. -/
theorem spillReturnsAndWriteBacks : Obligations.SpillReturnsAndWriteBacks := by
  unfold Obligations.SpillReturnsAndWriteBacks
  intro s w
  have hreturn (slice : BitVec 12) (rsp : Option (BitVec 512)) : StepsWing (.spillReturn w slice rsp) s w fun v =>
      if v.running then (v.spillReturn slice rsp).drainAll else v := stepsWing rfl
  have hwrite (key : Word) (ok : Bool) : StepsWing (.writeBackAccepted w key ok) s w fun v =>
      if v.life == .deepEntry && v.pwr.saveAt.isSome then v.saveAnswered key ok else v.writeAccepted key ok := stepsWing rfl
  have hother {key : Word} {ok : Bool} (h : (s.wing w).life ≠ .deepEntry ∨ (s.wing w).pwr.saveAt = none) :
      StepsWing (.writeBackAccepted w key ok) s w fun v => v.writeAccepted key ok := (hwrite key ok).congr (by
    have hnot : ((s.wing w).life == .deepEntry && (s.wing w).pwr.saveAt.isSome) = false := by
      rcases h with h | h
      · rw [beq_false_of_ne h, Bool.false_and]
      · rw [h, Option.isSome_none, Bool.and_false]
    exact if_neg (Bool.eq_false_iff.1 hnot))
  have hsaving (key : Word) (ok : Bool) (hlife : (s.wing w).life = .deepEntry) (hsave : (s.wing w).pwr.saveAt ≠ none) :
      StepsWing (.writeBackAccepted w key ok) s w fun v => v.saveAnswered key ok := (hwrite key ok).congr (by
    have hyes : ((s.wing w).life == .deepEntry && (s.wing w).pwr.saveAt.isSome) = true := by
      rw [hlife, Option.isSome_iff_ne_none.2 hsave]
      rfl
    exact if_pos hyes)
  refine ⟨fun slice d es hrun hbuf hreads hes hquiet => ?_, fun hrun slice rsp => ?_, fun key old hlife hsave hold => ⟨?_, fun hnew => ?_⟩,
    fun key ok hdeep hnone => ?_, fun key e hdeep he => ⟨fun ok hrole => ?_, fun n sl hlife hrole hslot hfresh hlast hno hflush hdirty => ?_,
      fun hlife hrole => ?_⟩⟩
  · have hdrain : (if (s.wing w).silent.running then ((s.wing w).silent.spillReturn slice (some d)).drainAll else (s.wing w).silent) =
        ((s.wing w).silent.unspill slice es).useReads := by
      rw [if_pos (c := (s.wing w).silent.running = true) hrun, Wing.spillReturn_whole (w := (s.wing w).silent) hreads (((s.wing w).returned_silent slice (some d)).trans hes) hquiet]
      refine Wing.drainAll_of_empty ?_
      rw [(Wing.useReads_tookReads _).keeps.1]
      exact hbuf
    obtain ⟨t, ht, honly, hwing, hout⟩ := (hreturn slice (some d)).leaves hdrain
    obtain ⟨hstaged, hctr, hreads', hitems, hothers, o, hreadsOut, ho⟩ :=
      Wing.unspill_took (w := (s.wing w).silent) (Wing.useReads_tookReads ((s.wing w).silent.unspill slice es))
    exact ⟨t, ht, honly, fun x hx => ho x (List.nil_append o ▸ (hout.trans hreadsOut : t.out = [] ++ o) ▸ hx), (congrArg (·.vst.staged) hwing).trans hstaged,
      (congrArg (Wing.ctr · cReturned) hwing).trans hctr, (congrArg (fun v => (Wing.spillOf v slice).reads) hwing).trans hreads',
      (congrArg (fun v => (Wing.spillOf v slice).items) hwing).trans hitems,
      fun x hx => (congrArg (Wing.spillOf · x) hwing).trans (hothers x hx)⟩
  · obtain ⟨t, ht, honly, -, hwing⟩ := (hreturn slice rsp).stands (if_neg (c := (s.wing w).silent.running = true) (by simp [hrun]))
    exact ⟨t, ht, honly, hwing⟩
  · obtain ⟨t, ht, honly, -, hwing⟩ := (hsaving key true hlife hsave).stands rfl
    exact ⟨t, ht, honly, hwing⟩
  · subst hold
    obtain ⟨t, ht, honly, hwing, hout⟩ := (hsaving key false hlife hsave).leaves (Wing.saveAnswered_first (w := (s.wing w).silent) hnew)
    exact ⟨t, _, ht, honly, hout, congrArg (·.pwr) hwing, (congrArg (·.life) hwing).trans hlife⟩
  · obtain ⟨t, ht, honly, -, hwing⟩ := (hother hdeep).stands (Wing.writeAccepted_unknown (w := (s.wing w).silent) hnone ok)
    exact ⟨t, ht, honly, hwing⟩
  · obtain ⟨t, ht, honly, hwing, hout⟩ := (hother hdeep).leaves (Wing.writeAccepted_standby (w := (s.wing w).silent) he hrole ok)
    exact ⟨t, ht, honly, hout, hwing⟩
  · obtain ⟨t, ht, honly, hwing, hout⟩ := (hother hdeep).leaves
      (Wing.writeAccepted_clean (w := (s.wing w).silent) he hlife hrole hslot hfresh hlast hno hflush hdirty)
    exact ⟨t, ht, honly, hout, hwing.trans (Wing.cleaned_silent (s.wing w) key n sl)⟩
  · obtain ⟨t, ht, honly, hwing, hout⟩ := (hother hdeep).leaves (Wing.writeAccepted_refused (w := (s.wing w).silent) he hlife hrole)
    exact ⟨t, ht, honly, hwing, hout⟩

end Sys2Proof
end

section
/-! The study's counts: windows, targets and stranded slices (R84, R106 to R108). -/

namespace Sys2Proof.Machine

/-- The wing with records at the end of those that wait in the deferred group. -/
def Wing.defer (w : Wing) (rs : List Rec) : Wing := { w with psg := { w.psg with defr := w.psg.defr ++ rs } }

theorem Wing.defer_nil (w : Wing) : w.defer [] = w := by
  unfold Wing.defer
  rw [List.append_nil]

theorem Wing.defer_defer (w : Wing) (a b : List Rec) : (w.defer a).defer b = w.defer (a ++ b) := by
  simp only [Wing.defer, List.append_assoc]

/-! ## Windows -/

theorem mem_sortMods (l : List (Word × BitVec 7)) (x : Word × BitVec 7) : x ∈ sortMods l ↔ x ∈ l := by
  have hfold : ∀ m, x ∈ l.foldl (fun m x => m.takeWhile (fun y => decide (y.1.toNat ≤ x.1.toNat)) ++ [x] ++
      m.dropWhile fun y => decide (y.1.toNat ≤ x.1.toNat)) m ↔ x ∈ m ∨ x ∈ l := by
    induction l with
    | nil => simp
    | cons a l ih =>
        intro m
        have hm : x ∈ m ↔ x ∈ m.takeWhile (fun y => decide (y.1.toNat ≤ a.1.toNat)) ∨
            x ∈ m.dropWhile (fun y => decide (y.1.toNat ≤ a.1.toNat)) := by
          rw [← List.mem_append, List.takeWhile_append_dropWhile]
        rw [List.foldl_cons, ih, List.mem_append, List.mem_append, List.mem_singleton, List.mem_cons, hm]
        tauto
  exact (hfold []).trans (by simp)

/-- What is issued is deferred, at most as many records as may go, each for a decision of the list. -/
theorem issueMods_spec (n : Nat) (l : List (Word × BitVec 7)) (w : Wing) :
    ∃ rs : List ModwinRec, rs.length ≤ n ∧ (issueMods n l w).1 = w.defer (rs.map Rec.modwin) ∧
      ∀ r ∈ rs, ∃ win, (r.key, win) ∈ l ∧ r.win = w.winFor r.key win := by
  induction l generalizing n w with
  | nil => exact ⟨[], by simp, by simp [issueMods, Wing.defer_nil], by simp⟩
  | cons d ds ih =>
      cases n with
      | zero => exact ⟨[], by simp, by simp [issueMods, Wing.defer_nil], by simp⟩
      | succ n =>
          unfold issueMods
          split
          · obtain ⟨rs, hlen, hw, hrs⟩ := ih (n + 1) w
            refine ⟨rs, hlen, hw, fun r hr => ?_⟩
            obtain ⟨win, hmem, hwin⟩ := hrs r hr
            exact ⟨win, List.mem_cons_of_mem d hmem, hwin⟩
          · split
            · obtain ⟨rs, hlen, hw, hrs⟩ := ih n (w.place (.modwin { win := w.winFor d.1 d.2, key := d.1 }))
              refine ⟨{ win := w.winFor d.1 d.2, key := d.1 } :: rs, Nat.succ_le_succ hlen, hw.trans (Wing.defer_defer w [_] _),
                fun r hr => ?_⟩
              rcases List.mem_cons.1 hr with rfl | hr
              · exact ⟨d.2, List.mem_cons_self, rfl⟩
              · obtain ⟨win, hmem, hwin⟩ := hrs r hr
                exact ⟨win, List.mem_cons_of_mem d hmem, hwin⟩
            · exact ⟨[], by simp, by simp [Wing.defer_nil], by simp⟩

theorem modDecide_le (c n : Nat) (hit : Bool) {limit win : Nat} (h : win ≤ limit) : modDecide c n hit limit win ≤ limit := by
  unfold modDecide
  split
  · omega
  · split
    · exact Nat.min_le_left _ _
    · split <;> omega

theorem modDecide_grows {c n : Nat} {hit : Bool} {limit : Nat} (win : Nat) (h : win ≤ limit) (hhit : hit = true) (hc : 0 < c) (hn : c < n)
    (hlimit : 0 < limit) : win < modDecide c n hit limit win ∨ win = limit := by
  have hcount : (!hit || c == 0) = false := by simp [hhit, Nat.pos_iff_ne_zero.1 hc]
  unfold modDecide
  rw [hcount, if_neg Bool.false_ne_true, if_pos hn]
  omega

theorem modDecide_stays {c n : Nat} {hit : Bool} {limit win : Nat} (hhit : hit = true) (hlow : c / 2 ≤ n) (hhigh : n ≤ c) (hc : 0 < c) :
    modDecide c n hit limit win = win := by
  have hcount : (!hit || c == 0) = false := by simp [hhit, Nat.pos_iff_ne_zero.1 hc]
  unfold modDecide
  rw [hcount, if_neg Bool.false_ne_true, if_neg (by omega), if_neg (by omega)]

theorem modDecide_shrinks {c n : Nat} {hit : Bool} {limit win : Nat} (hhit : hit = true) (hn : n < c / 2) :
    modDecide c n hit limit win = win / 2 := by
  have hcount : (!hit || c == 0) = false := by simp [hhit, show c ≠ 0 by omega]
  unfold modDecide
  rw [hcount, if_neg Bool.false_ne_true, if_neg (by omega), if_pos hn]

theorem modDecide_idle {c n : Nat} {hit : Bool} {limit win : Nat} (h : hit = false ∨ c = 0) : modDecide c n hit limit win = win / 2 :=
  if_pos (by rcases h with h | h <;> simp [h])

/-- A decision is of a vector in the pantry, and carried within its limit. -/
theorem Wing.winFor_decided {w : Wing} {key : Word} {win : BitVec 7} (h : (key, win) ∈ w.ctxs.filterMap w.modFor) :
    ∃ c, w.ctx? key = some c ∧
      w.winFor key win = if (cfgModLimit c.cfg).toNat < win.toNat then cfgModLimit c.cfg else win := by
  obtain ⟨c, hc, hfor⟩ := List.mem_filterMap.1 h
  have hkey : c.key = key := by
    unfold Wing.modFor at hfor
    split at hfor
    · exact nomatch hfor
    · dsimp only at hfor
      split at hfor
      · exact nomatch hfor
      · exact congrArg Prod.fst (Option.some.inj hfor)
  obtain ⟨e, he, rfl⟩ := List.mem_map.1 hc
  have hfound : ∀ m : SMap Slot, e ∈ m → (findKey key m).isSome = true := by
    intro m
    induction m with
    | nil => exact fun h => nomatch h
    | cons x m ih =>
        intro hx
        unfold findKey
        split
        · rfl
        next hne =>
          rcases List.mem_cons.1 hx with rfl | hx
          · exact absurd hkey hne
          · exact ih hx
  obtain ⟨⟨n, sl⟩, hslot⟩ := Option.isSome_iff_exists.1 (hfound _ he)
  have hctx : w.ctx? key = some sl.ctx := w.ctx?_of_slotFor hslot
  refine ⟨sl.ctx, hctx, ?_⟩
  unfold Wing.winFor
  rw [hctx]
  rfl

/-- The counts and marks of the study, started again. -/
def Wing.restartCounts (w : Wing) : Wing :=
  { w with hall := { w.hall with modN := [], modAcc := [], nextCount := BitVec.ofNat 56 (w.now.toNat / 64 * 64 + 64) } }

/-- The active wing as it sends the decisions of a count. -/
def Wing.countsDue (w : Wing) : Wing :=
  let w2 := w.restartCounts.countN cModDrop w.restartCounts.hall.modQ.length
  { w2 with hall := { w2.hall with modQ := sortMods (w.ctxs.filterMap w.modFor) } }

/-- The decisions that wait. -/
def Wing.setQueue (w : Wing) (q : List (Word × BitVec 7)) : Wing := { w with hall := { w.hall with modQ := q } }

theorem Wing.modTake_inactive {w : Wing} (h : w.isActive = false) : w.modTake = w.restartCounts := by
  unfold Wing.modTake
  simp only [h, Bool.false_eq_true, if_false]
  rfl

/-- What both wings do at the count, and what the active wing carries. -/
theorem Wing.modTake_spec (w : Wing) :
    w.modTake.hall.modN = [] ∧ w.modTake.hall.modAcc = [] ∧ w.modTake.hall.nextCount = w.restartCounts.hall.nextCount ∧
    w.modTake.pan = w.pan ∧ w.modTake.out = w.out ∧
    (w.isActive = true → ∃ rs : List ModwinRec, rs.length ≤ 16 ∧ w.modTake.psg.defr = w.psg.defr ++ rs.map Rec.modwin ∧
      ∀ r ∈ rs, ∃ (win : BitVec 7) (c : Ctx), (r.key, win) ∈ w.ctxs.filterMap w.modFor ∧ w.ctx? r.key = some c ∧
        r.win = if (cfgModLimit c.cfg).toNat < win.toNat then cfgModLimit c.cfg else win) := by
  cases hact : w.isActive with
  | false =>
      rw [Wing.modTake_inactive hact]
      exact ⟨rfl, rfl, rfl, rfl, rfl, fun h => nomatch h⟩
  | true =>
      obtain ⟨rs, hlen, hw, hrs⟩ := issueMods_spec (16 - w.countsDue.modsInFrame) (sortMods (w.ctxs.filterMap w.modFor)) w.countsDue
      have htake : w.modTake = (w.countsDue.defer (rs.map Rec.modwin)).setQueue
          (issueMods (16 - w.countsDue.modsInFrame) (sortMods (w.ctxs.filterMap w.modFor)) w.countsDue).2 := by
        unfold Wing.modTake
        rw [hact, if_pos rfl, ← hw]
        rfl
      rw [htake]
      refine ⟨rfl, rfl, rfl, rfl, rfl, fun _ => ⟨rs, hlen.trans (by omega), rfl, fun r hr => ?_⟩⟩
      obtain ⟨win, hmem, hwin⟩ := hrs r hr
      obtain ⟨c, hc, hcap⟩ := Wing.winFor_decided ((mem_sortMods _ _).1 hmem)
      exact ⟨win, c, (mem_sortMods _ _).1 hmem, hc, hwin.trans hcap⟩

theorem Wing.modCount_idle {w : Wing} (h : w.now.toNat % 64 ≠ 0 ∨ w.now.toNat < w.hall.nextCount.toNat) : w.modCount = w :=
  if_neg (by omega)

/-! ## Targets -/

/-- What is issued is deferred and counted, each a decision of the list. -/
theorem issueTargetsIn_spec (l : List TargetRec) (w : Wing) :
    ∃ rs : List TargetRec, (∀ r ∈ rs, r ∈ l) ∧ (issueTargetsIn l w).1.psg.defr = w.psg.defr ++ rs.map Rec.target ∧
      (issueTargetsIn l w).1.hall = w.hall ∧ (issueTargetsIn l w).1.pan = w.pan ∧ (issueTargetsIn l w).1.out = w.out ∧
      (issueTargetsIn l w).1.ctr cSteerDrop = w.ctr cSteerDrop := by
  induction l generalizing w with
  | nil => exact ⟨[], by simp, by simp [issueTargetsIn], rfl, rfl, rfl, rfl⟩
  | cons r l ih =>
      unfold issueTargetsIn
      split
      · obtain ⟨rs, hrs, hdefr, hhall, hpan, hout, hctr⟩ := ih ((w.place (.target r)).count cSteerRetarget)
        refine ⟨r :: rs, fun x hx => ?_, ?_, hhall, hpan, hout, hctr.trans ?_⟩
        · exact (List.mem_cons.1 hx).elim (fun h => h ▸ List.mem_cons_self) fun h => List.mem_cons_of_mem r (hrs x h)
        · exact hdefr.trans (List.append_assoc w.psg.defr [Rec.target r] _)
        · exact (Wing.ctr_count_ne _ (by decide)).trans (Wing.ctr_place w (.target r) cSteerDrop)
      · exact ⟨[], by simp, by simp, rfl, rfl, rfl, rfl⟩

/-- Refusals go out first; with nothing decided there is nothing else. -/
theorem Wing.sendTargets_spec (w : Wing) :
    ∃ rs : List TargetRec, w.sendTargets.psg.defr = w.psg.defr ++ rs.map Rec.target ∧ w.sendTargets.hall.seen64 = w.hall.seen64 ∧
      w.sendTargets.pan = w.pan ∧ w.sendTargets.out = w.out ∧ w.sendTargets.ctr cSteerDrop = w.ctr cSteerDrop ∧
      (w.hall.periodic = [] → w.sendTargets.hall.periodic = [] ∧ ∀ r ∈ rs, r ∈ w.hall.refusals) := by
  obtain ⟨rs, hrs, hdefr, hhall, hpan, hout, hctr⟩ := issueTargetsIn_spec w.hall.refusals w
  unfold Wing.sendTargets
  extract_lets a src hall1 w1 b
  obtain ⟨rs', hrs', hdefr', hhall', hpan', hout', hctr'⟩ := issueTargetsIn_spec w1.hall.periodic w1
  have hperiodic : w1.hall.periodic = w.hall.periodic := congrArg (·.periodic) hhall
  refine ⟨rs ++ rs', ?_, ?_, hpan'.trans hpan, hout'.trans hout, hctr'.trans hctr, fun hnone => ?_⟩
  · rw [List.map_append, ← List.append_assoc, ← hdefr]
    exact hdefr'
  · exact (congrArg (·.seen64) hhall').trans (congrArg (·.seen64) hhall)
  · rw [hperiodic, hnone] at hrs'
    have hb : b.2 = [] := by
      show (issueTargetsIn w1.hall.periodic w1).2 = []
      rw [hperiodic, hnone]
      rfl
    refine ⟨hb, fun r hr => (List.mem_append.1 hr).elim (hrs r) fun h => nomatch hrs' r h⟩

/-- The vectors that the 64 ticks begin with. -/
theorem Wing.mem_restartSeen (w : Wing) (k : Word) :
    k ∈ w.restartSeen.hall.seen64 ↔ ∃ img, w.hall.img0 = some img ∧ ∃ e ∈ img.slots, e.2.ctx.key = k ∧ e.2.ctx.state = .pending ∧
      (w.view img).mode (cfgCoreset e.2.ctx.cfg) ≠ 3 ∧ 1 < (clustersOf ((w.view img).setCores (cfgCoreset e.2.ctx.cfg))).length := by
  have hfold : ∀ l m : List Word, k ∈ l.foldl (fun l k => if l.contains k then l else l ++ [k]) m ↔ k ∈ m ∨ k ∈ l := by
    intro l
    induction l with
    | nil => simp
    | cons a l ih =>
        intro m
        rw [List.foldl_cons, ih, mem_insert_once, List.mem_cons]
        tauto
  unfold Wing.restartSeen
  cases himg : w.hall.img0 with
  | none => simp
  | some img =>
      refine (hfold _ []).trans ?_
      simp only [List.not_mem_nil, false_or, List.mem_filterMap, Option.some.injEq, exists_eq_left', Option.ite_none_right_eq_some,
        Bool.and_eq_true, beq_iff_eq, bne_iff_ne, decide_eq_true_eq]
      exact ⟨fun ⟨e, he, ⟨⟨hst, hmode⟩, hmulti⟩, hk⟩ => ⟨e, he, hk, hst, hmode, hmulti⟩,
        fun ⟨e, he, hk, hst, hmode, hmulti⟩ => ⟨e, he, ⟨⟨hst, hmode⟩, hmulti⟩, hk⟩⟩

/-- Nothing but the vectors seen changes. -/
theorem Wing.restartSeen_eq (w : Wing) :
    w.restartSeen = { w with hall := { w.hall with seen64 := w.restartSeen.hall.seen64 } } := by
  unfold Wing.restartSeen
  cases w.hall.img0 <;> rfl

/-- The wing as it sends the decisions of a re-evaluation. -/
def Wing.decided (w : Wing) : Wing :=
  let w1 := w.restartSeen.countN cSteerDrop w.hall.periodic.length
  { w1 with hall := { w1.hall with periodic := w.decisions } }

theorem Wing.reevalTake_eq (w : Wing) : w.reevalTake = if w.ownsFrame then w.decided.sendTargets else w.restartSeen := rfl

theorem Wing.decided_spec (w : Wing) :
    w.decided.psg = w.psg ∧ w.decided.pan = w.pan ∧ w.decided.out = w.out ∧
    w.decided.ctr cSteerDrop = w.ctr cSteerDrop + BitVec.ofNat 64 w.hall.periodic.length ∧
    w.decided.hall.refusals = w.hall.refusals := by
  unfold Wing.decided
  rw [w.restartSeen_eq]
  exact ⟨rfl, rfl, rfl, (Wing.ctr_countN _ cSteerDrop _ cSteerDrop).trans (if_pos rfl), rfl⟩

theorem Wing.decisions_held {w : Wing} (h : w.steerHold = true) : w.decisions = [] := by
  unfold Wing.decisions
  cases w.hall.img1 with
  | none => rfl
  | some a => exact if_pos h

theorem Wing.reevalTake_spec (w : Wing) :
    ∃ rs : List TargetRec, w.reevalTake.pan = w.pan ∧ w.reevalTake.out = w.out ∧
      w.reevalTake.hall.seen64 = w.restartSeen.hall.seen64 ∧ w.reevalTake.psg.defr = w.psg.defr ++ rs.map Rec.target ∧
      (w.ownsFrame = true →
        w.reevalTake.ctr cSteerDrop = w.ctr cSteerDrop + BitVec.ofNat 64 w.hall.periodic.length ∧
        (w.steerHold = true → w.reevalTake.hall.periodic = [] ∧ ∀ r ∈ rs, r ∈ w.hall.refusals)) ∧
      (w.ownsFrame = false → w.reevalTake = { w with hall := { w.hall with seen64 := w.restartSeen.hall.seen64 } }) := by
  rw [w.reevalTake_eq]
  cases howns : w.ownsFrame with
  | false =>
      rw [if_neg Bool.false_ne_true]
      refine ⟨[], ?_, ?_, rfl, ?_, (fun h => nomatch h), fun _ => w.restartSeen_eq⟩
      · rw [w.restartSeen_eq]
      · rw [w.restartSeen_eq]
      · rw [w.restartSeen_eq, List.map_nil, List.append_nil]
  | true =>
      rw [if_pos rfl]
      obtain ⟨rs, hdefr, hseen, hpan, hout, hctr, hnone⟩ := w.decided.sendTargets_spec
      obtain ⟨hpsg, hpan', hout', hctr', hrefusals⟩ := w.decided_spec
      refine ⟨rs, hpan.trans hpan', hout.trans hout', hseen, ?_, fun _ => ⟨hctr.trans hctr', fun hhold => ?_⟩, fun h => nomatch h⟩
      · rw [hdefr, hpsg]
      · rw [← hrefusals]
        exact hnone (Wing.decisions_held hhold)

/-! ## Stranded slices -/

theorem Wing.strandLimit_told {w : Wing} {s : BitVec 12} {e : BitVec 12 × BitVec 16 × Byte} (howns : w.ownsFrame = true)
    (he : w.hall.resident.find? (fun e => e.1 == s) = some e) (hdelay : w.resDelay ≠ 0)
    (hstrand : 16 * w.resDelay ≤ (w.slice s).strand) (htold : (w.slice s).strandTold = false) (hplaced : w.residencyPlaced s = false)
    (hring : w.ringRoom 0 1 = true) (hroom : w.roomDeferred 1 = true) :
    w.strandLimit s = w.defer [.residency { slice := s, count := e.2.1, prio := e.2.2 }] := by
  unfold Wing.strandLimit
  simp only [he, howns, bne_iff_ne.2 hdelay, decide_eq_true hstrand, htold, hplaced, hring, hroom, Bool.not_false, Bool.and_self, if_true]
  rfl

theorem Wing.strandLimit_quiet {w : Wing} {s : BitVec 12}
    (h : w.ownsFrame = false ∨ w.hall.resident.find? (fun e => e.1 == s) = none ∨ w.resDelay = 0 ∨
      (w.slice s).strand < 16 * w.resDelay ∨ (w.slice s).strandTold = true ∨ w.residencyPlaced s = true ∨
      w.ringRoom 0 1 = false ∨ w.roomDeferred 1 = false) : w.strandLimit s = w := by
  unfold Wing.strandLimit
  cases he : w.hall.resident.find? (fun e => e.1 == s) with
  | none => rfl
  | some e =>
      refine if_neg fun hall => ?_
      simp only [Bool.and_eq_true, bne_iff_ne, decide_eq_true_eq, Bool.not_eq_true'] at hall
      obtain ⟨⟨⟨⟨⟨⟨howns, hdelay⟩, hstrand⟩, htold⟩, hplaced⟩, hring⟩, hroom⟩ := hall
      simp only [howns, he, hdelay, htold, hplaced, hring, hroom, reduceCtorEq, Bool.true_eq_false, Bool.false_eq_true, false_or,
        or_false] at h
      omega

end Sys2Proof.Machine

namespace Sys2Proof

open Machine

/-- Settles O30: the count, the re-evaluation and the stranding limit are steps of the wing alone, said above, and a window is decided
by cases of the ceiling. -/
theorem studyCountsAndReports : Obligations.StudyCountsAndReports := by
  unfold Obligations.StudyCountsAndReports
  have hcount (s : State) (w : WingId) : StepsWing (.moderationCount w) s w fun v => if v.running then v.modCount else v := stepsWing rfl
  have hreeval (s : State) (w : WingId) : StepsWing (.steerReevaluation w) s w fun v => if v.running then v.reevaluation else v :=
    stepsWing rfl
  have hstrand (s : State) (w : WingId) (slice : BitVec 12) : StepsWing (.strandingLimit w slice) s w fun v => v.strandLimit slice :=
    stepsWing rfl
  refine ⟨fun s w => ⟨fun hrun hmod hnext => ?_, fun hidle => ?_, fun hrun hmod => ?_, fun hidle => ?_⟩,
    fun ceiling n limit win hit hwin => ?_,
    fun s w slice => ⟨fun e howns he hdelay hover htold hplaced hring hroom => ?_, fun hquiet => ?_⟩⟩
  · have hstep : (if (s.wing w).silent.running then (s.wing w).silent.modCount else (s.wing w).silent) = (s.wing w).silent.modTake :=
      (if_pos (c := (s.wing w).silent.running = true) hrun).trans (if_pos ⟨hmod, hnext⟩)
    obtain ⟨t, ht, honly, hwing, hout⟩ := (hcount s w).leaves hstep
    obtain ⟨hn, hacc, hnextCount, hpan, hout', hactive⟩ := (s.wing w).silent.modTake_spec
    refine ⟨t, ht, honly, hout.trans hout', (congrArg (·.hall.modN) hwing).trans hn, (congrArg (·.hall.modAcc) hwing).trans hacc,
      fun hlt => ?_, (congrArg (·.pan) hwing).trans hpan, fun hact => ?_, fun hact => ?_⟩
    · rw [hwing]
      show (s.wing w).silent.modTake.hall.nextCount.toNat = _
      rw [hnextCount]
      show (BitVec.ofNat 56 ((s.wing w).now.toNat / 64 * 64 + 64)).toNat = _
      rw [BitVec.toNat_ofNat, Nat.mod_eq_of_lt (by omega)]
      omega
    · rw [hwing, Wing.modTake_inactive (w := (s.wing w).silent) hact]
      rfl
    · obtain ⟨rs, hlen, hdefr, hrs⟩ := hactive hact
      exact ⟨rs, hlen, (congrArg (·.psg.defr) hwing).trans hdefr, hrs⟩
  · obtain ⟨t, ht, honly, hout, hwing⟩ := (hcount s w).stands (by
      cases hrun : (s.wing w).running with
      | false => exact if_neg (Bool.eq_false_iff.1 hrun)
      | true =>
          rw [hrun] at hidle
          exact (if_pos (c := (s.wing w).silent.running = true) hrun).trans
            (Wing.modCount_idle (w := (s.wing w).silent) (hidle.resolve_left (fun h => nomatch h))))
    exact ⟨t, ht, honly, hout, hwing⟩
  · have hstep : (if (s.wing w).silent.running then (s.wing w).silent.reevaluation else (s.wing w).silent) =
        (s.wing w).silent.reevalTake := (if_pos (c := (s.wing w).silent.running = true) hrun).trans (if_pos hmod)
    obtain ⟨t, ht, honly, hwing, hout⟩ := (hreeval s w).leaves hstep
    obtain ⟨rs, hpan, hout', hseen, hdefr, howns, hother⟩ := (s.wing w).silent.reevalTake_spec
    have hseen' : (t.wing w).hall.seen64 = (s.wing w).silent.restartSeen.hall.seen64 := (congrArg (·.hall.seen64) hwing).trans hseen
    refine ⟨t, rs, ht, honly, hout.trans hout', (congrArg (·.pan) hwing).trans hpan, fun k => ?_,
      (congrArg (·.psg.defr) hwing).trans hdefr, fun h => ?_, fun h => ?_⟩
    · rw [hseen']
      exact (s.wing w).silent.mem_restartSeen k
    · obtain ⟨hctr, hhold⟩ := howns h
      refine ⟨(congrArg (Wing.ctr · cSteerDrop) hwing).trans hctr, fun h' => ?_⟩
      obtain ⟨hnone, hrs⟩ := hhold h'
      exact ⟨(congrArg (·.hall.periodic) hwing).trans hnone, hrs⟩
    · rw [hseen', hwing, hother h]
      rfl
  · obtain ⟨t, ht, honly, hout, hwing⟩ := (hreeval s w).stands (by
      cases hrun : (s.wing w).running with
      | false => exact if_neg (Bool.eq_false_iff.1 hrun)
      | true =>
          rw [hrun] at hidle
          exact (if_pos (c := (s.wing w).silent.running = true) hrun).trans
            (if_neg (hidle.resolve_left (fun h => nomatch h))))
    exact ⟨t, ht, honly, hout, hwing⟩
  · exact ⟨modDecide_le ceiling n hit hwin, modDecide_grows win hwin, modDecide_stays, modDecide_shrinks, modDecide_idle⟩
  · obtain ⟨t, ht, honly, hwing, hout⟩ := (hstrand s w slice).leaves
      (Wing.strandLimit_told (w := (s.wing w).silent) howns he hdelay hover htold hplaced hring hroom)
    exact ⟨t, ht, honly, hout, hwing⟩
  · obtain ⟨t, ht, honly, hout, hwing⟩ := (hstrand s w slice).stands (Wing.strandLimit_quiet (w := (s.wing w).silent) hquiet)
    exact ⟨t, ht, honly, hout, hwing⟩

end Sys2Proof
end

section
/-! The blocks, writes and waits of slice commands (R181 to R183, R194, R195), and the block of slice 0 at a START (R182, R388). -/

namespace Sys2Proof.Machine

/-! ## A finish that is placed -/

/-- The doublewords of a block as a finish carries them. -/
def paramRecs (param : BitVec 1024) (offs : List Nat) : List Rec :=
  offs.map fun o => .param { off := BitVec.ofNat 8 o, data := pbWord param o }

/-- The FINISH record of a decided finish with its result and as many PARAM records. -/
def FinDue.toRec (d : FinDue) (n : Nat) : FinishRec :=
  { result := d.result, ring := d.ring, hasLast := d.rep.hasLast, pos := d.pos.extractLsb' 0 16, count := d.rep.count
    cfgw := d.rep.cfgw, status := d.rep.status, lastCore := d.rep.lastCore, nParam := BitVec.ofNat 8 n }

theorem Wing.setDue_self (w : Wing) (h : w.ring.finDue = []) : { w with ring := { w.ring with finDue := [] } } = w := by
  rw [← h]

/-- One more command of a ring is finished. -/
def Wing.countFinished (w : Wing) (ring : BitVec 12) : Wing := w.modSlice ring fun v => { v with cmdFinished := v.cmdFinished + 1 }

theorem foldl_place_params (param : BitVec 1024) (offs : List Nat) (w : Wing) :
    (paramRecs param offs).foldl (fun w r => w.place r) w = w.defer (paramRecs param offs) := by
  induction offs generalizing w with
  | nil => exact (Wing.defer_nil w).symm
  | cons o offs ih => exact (ih _).trans (Wing.defer_defer w [_] _)

theorem Wing.placeFinish_fits {w : Wing} {d : FinDue} {u : UCmd} (hu : w.ucmdFor d.ring (d.pos.extractLsb' 0 16) = some u)
    (hroom : w.roomDeferred (1 + (paramOffsets u.opcode).length) = true)
    (hresult : d.result ≠ 0 ∨ u.opcode ≠ opCreate ∧ u.opcode ≠ opShare) :
    w.placeFinish d = some ((w.countFinished d.ring).defer
      (.finish (d.toRec (paramOffsets u.opcode).length) :: paramRecs d.param (paramOffsets u.opcode))) := by
  have hcode (a b : Byte) : (if d.result != 0 then d.result else if u.opcode = opCreate then a else if u.opcode = opShare then b
      else 0) = d.result := by
    split
    · rfl
    next h =>
      have hzero : d.result = 0 := by simpa using h
      obtain ⟨hcreate, hshare⟩ := hresult.resolve_left (fun h => h hzero)
      rw [if_neg hcreate, if_neg hshare, hzero]
  unfold Wing.placeFinish
  simp only [hu, hcode, hroom, Bool.not_true, Bool.false_eq_true, if_false]
  exact congrArg some ((foldl_place_params _ _ _).trans (Wing.defer_defer (w.countFinished d.ring) [_] _))

/-- A finish whose result stands, decided while no other waits, with room for its records: they are placed at once. -/
theorem Wing.finish_placed {w : Wing} {d : FinDue} {u : UCmd} (howns : w.ownsFrame = true) (hdue : w.ring.finDue = [])
    (hu : w.ucmdFor d.ring (d.pos.extractLsb' 0 16) = some u)
    (hroom : w.roomDeferred (1 + (paramOffsets u.opcode).length) = true)
    (hresult : d.result ≠ 0 ∨ u.opcode ≠ opCreate ∧ u.opcode ≠ opShare) :
    w.finish d.ring d.pos d.result d.rep d.param =
      (w.countFinished d.ring).defer (.finish (d.toRec (paramOffsets u.opcode).length) :: paramRecs d.param (paramOffsets u.opcode)) := by
  have hplace := Wing.placeFinish_fits (w := { w with ring := { w.ring with finDue := [d] } }) hu hroom hresult
  have hfinish : w.finish d.ring d.pos d.result d.rep d.param =
      placeFinishesIn [d] { w with ring := { w.ring with finDue := [d] } } := by
    unfold Wing.finish
    rw [hdue]
    exact if_pos howns
  rw [hfinish]
  unfold placeFinishesIn
  simp only [hplace]
  unfold placeFinishesIn
  rw [← Wing.setDue_self w hdue]
  rfl

/-! ## Halves of a block -/

theorem Wing.TookReads.onlyReads {u v w : Wing} (h : u.TookReads v) (h' : w.onlyReads v) : w.onlyReads u := by
  obtain ⟨fs, bs, m, o, -, rfl⟩ := h
  unfold Wing.onlyReads at h' ⊢
  rw [h']

theorem Wing.TookReads.sl {v w : Wing} (h : v.TookReads w) : v.sl = w.sl := by
  obtain ⟨fs, bs, m, o, -, rfl⟩ := h
  rfl

theorem Wing.setJob_slice (w : Wing) (s : BitVec 12) (j : Job) : (w.setJob s j).slice s = { w.slice s with job := some j } :=
  Wing.slice_modSlice_self w s _

theorem Wing.setJob_slice_ne (w : Wing) {s x : BitVec 12} (j : Job) (h : x ≠ s) : (w.setJob s j).slice x = w.slice x :=
  Wing.slice_modSlice_ne w _ h

theorem Job.whole_take {j : Job} (hop : j.opcode = opCreate) (half : Bool) (b : BitVec 512) :
    (j.take half b).whole = j.got.contains (!half) := by
  have hshare : (opCreate == opShare) = false := by decide
  cases half <;> simp [Job.whole, Job.take, hop, hshare]

theorem Wing.blockWanted_reading {w : Wing} {s : BitVec 12} {j : Job} {half : Bool} (hphase : j.phase = .reading)
    (hop : j.opcode = opCreate) (hgot : half ∉ j.got) :
    w.blockWanted s j half = if s = 0 then w.ctl.booting else w.ownsFrame && !w.finishing 0 j.pos := by
  have hshare : (j.opcode == opShare) = false := by rw [hop]; decide
  have hcontains : j.got.contains half = false := by simpa using hgot
  simp only [Wing.blockWanted, hphase, hshare, hcontains, beq_self_eq_true, Bool.not_false, Bool.false_and, Bool.and_self, Bool.true_and]

theorem Wing.paramRead_wanted {w : Wing} {s : BitVec 12} {half : Bool} {j : Job} (hjob : (w.slice s).job = some j)
    (hread : w.ring.blockReads.find? (fun x => x.1 == s && x.2.1 == half) = some (s, half, true))
    (hwanted : w.blockWanted s j half = true) (rsp : Option (BitVec 512)) :
    w.paramRead s half rsp = w.halfRead (s, half, true) s j half rsp := by
  unfold Wing.paramRead
  simp only [hread, hjob, hwanted, Bool.and_self, if_true]

theorem Wing.paramRead_unknown {w : Wing} {s : BitVec 12} {half : Bool}
    (h : w.ring.blockReads.find? (fun x => x.1 == s && x.2.1 == half) = none) (rsp : Option (BitVec 512)) :
    w.paramRead s half rsp = w := by
  unfold Wing.paramRead
  simp only [h]

/-- A read that is not wanted comes free. -/
theorem Wing.paramRead_unwanted {w : Wing} {s : BitVec 12} {half : Bool} {j : Job} (hjob : (w.slice s).job = some j)
    (hphase : j.phase ≠ .reading) (rsp : Option (BitVec 512)) : (w.paramRead s half rsp).TookReads w := by
  have hwanted : w.blockWanted s j half = false := by simp [Wing.blockWanted, hphase]
  have hend : ∀ x, ((w.endBlockRead x).useReads).TookReads w := fun x =>
    (Wing.useReads_tookReads _).trans (w.tookReads_of_lists w.pan.fetches (w.ring.blockReads.erase x))
  unfold Wing.paramRead
  rw [hjob]
  cases w.ring.blockReads.find? (fun x => x.1 == s && x.2.1 == half) with
  | none => exact .refl w
  | some x =>
      simp only [hwanted, Bool.and_false, Bool.false_eq_true, if_false]
      exact hend x

theorem Wing.halfRead_retry {w : Wing} {x : BitVec 12 × Bool × Bool} {s : BitVec 12} {j : Job} {half : Bool} (h : half ∉ j.retried) :
    w.halfRead x s j half none = (w.setJob s { j with retried := half :: j.retried }).askHalf s j half :=
  if_neg (by simpa using h)

theorem Wing.halfRead_kept {w : Wing} {x : BitVec 12 × Bool × Bool} {s : BitVec 12} {j : Job} {half : Bool} (hop : j.opcode = opCreate)
    (h : (!half) ∉ j.got) (b : BitVec 512) :
    w.halfRead x s j half (some b) = ((w.endBlockRead x).setJob s (j.take half b)).useReads := by
  unfold Wing.halfRead
  simp only [Job.whole_take hop, List.contains_eq_mem, h, decide_false, Bool.false_eq_true, if_false]

theorem Wing.halfRead_whole {w : Wing} {x : BitVec 12 × Bool × Bool} {s : BitVec 12} {j : Job} {half : Bool} (hop : j.opcode = opCreate)
    (h : (!half) ∈ j.got) (b : BitVec 512) :
    w.halfRead x s j half (some b) = ((w.endBlockRead x).blockRead s (j.take half b) (some (j.take half b).param)).useReads := by
  unfold Wing.halfRead
  simp only [Job.whole_take hop, List.contains_eq_mem, h, decide_true, if_true]

theorem Wing.halfRead_lost {w : Wing} {x : BitVec 12 × Bool × Bool} {s : BitVec 12} {j : Job} {half : Bool} (h : half ∈ j.retried) :
    w.halfRead x s j half none = ((w.endBlockRead x).blockRead s j none).useReads :=
  if_pos (by simpa using h)

/-- What a block that fails with a code leaves: the START stops, or the command finishes. -/
def Wing.blockFails (w : Wing) (s : BitVec 12) (pos : Word) (code : Byte) : Wing :=
  if s = 0 then w.bootFails code else w.finish 0 pos code Report.zero 0

/-- The job of a block that passes goes on to its writes; a START takes note of it. -/
def Wing.blockPasses (w : Wing) (s : BitVec 12) (k : Job) : Wing :=
  let w1 := w.setJob s { k with phase := .writing, left := creationWrites (log5 (pbVt k.param)) (log5 (pbEvt k.param)) }
  if s = 0 then { w1 with ctl := { w1.ctl with bootChecked := true } } else w1

theorem Wing.blockRead_none (w : Wing) (s : BitVec 12) (j : Job) : w.blockRead s j none = w.blockFails s j.pos ccMemory := rfl

theorem Wing.blockRead_fails {w : Wing} {s : BitVec 12} {k : Job} {code : Byte} (hop : k.opcode = opCreate)
    (hcheck : w.createCheck s k.param = code) (hcode : code ≠ 0) :
    w.blockRead s k (some k.param) = w.blockFails s k.pos code := by
  have hne : (code != 0) = true := bne_iff_ne.2 hcode
  have hshare : k.opcode ≠ opShare := by rw [hop]; decide
  have hjudge : (w.judgeBlock s k k.param).1 = code := by
    unfold Wing.judgeBlock
    rw [if_neg hshare]
    exact hcheck
  unfold Wing.blockRead Wing.blockFails
  split
  next hs =>
    subst hs
    unfold Wing.bootBlock
    simp only [hjudge, hne, if_true]
  · unfold Wing.commandBlock
    simp only [hjudge, hne, if_true]

theorem Wing.blockRead_passes {w : Wing} {s : BitVec 12} {k : Job} (hop : k.opcode = opCreate)
    (hcheck : w.createCheck s k.param = 0) : w.blockRead s k (some k.param) = w.blockPasses s k := by
  have hshare : k.opcode ≠ opShare := by rw [hop]; decide
  have hjudge : w.judgeBlock s k k.param = (0, w.setJob s { k with
      phase := .writing, left := creationWrites (log5 (pbVt k.param)) (log5 (pbEvt k.param)) }) := by
    unfold Wing.judgeBlock
    rw [if_neg hshare, hcheck]
  unfold Wing.blockRead Wing.blockPasses
  split
  next hs =>
    subst hs
    unfold Wing.bootBlock
    simp only [hjudge, bne_self_eq_false, Bool.false_eq_true, if_false]
  · unfold Wing.commandBlock
    simp only [hjudge, bne_self_eq_false, Bool.false_eq_true, if_false, if_neg hshare]

/-- A half that completes a failing block, or cannot be read a second time. -/
theorem Wing.halfRead_fails {w : Wing} {x : BitVec 12 × Bool × Bool} {s : BitVec 12} {j : Job} {half : Bool} {rsp : Option (BitVec 512)}
    {code : Byte} (hop : j.opcode = opCreate)
    (h : rsp = none ∧ half ∈ j.retried ∧ code = ccMemory ∨
      ∃ b, rsp = some b ∧ (!half) ∈ j.got ∧ w.createCheck s (j.take half b).param = code ∧ code ≠ 0) :
    w.halfRead x s j half rsp = ((w.endBlockRead x).blockFails s j.pos code).useReads := by
  rcases h with ⟨rfl, hretried, rfl⟩ | ⟨b, rfl, hgot, hcheck, hcode⟩
  · rw [Wing.halfRead_lost hretried, Wing.blockRead_none]
  · rw [Wing.halfRead_whole hop hgot, Wing.blockRead_fails (w := w.endBlockRead x) (k := j.take half b) hop hcheck hcode]
    rfl

/-- A half that completes a block that passes. -/
theorem Wing.halfRead_passes {w : Wing} {x : BitVec 12 × Bool × Bool} {s : BitVec 12} {j : Job} {half : Bool} {b : BitVec 512}
    (hop : j.opcode = opCreate) (hgot : (!half) ∈ j.got) (hcheck : w.createCheck s (j.take half b).param = 0) :
    w.halfRead x s j half (some b) = ((w.endBlockRead x).blockPasses s (j.take half b)).useReads := by
  rw [Wing.halfRead_whole hop hgot, Wing.blockRead_passes (w := w.endBlockRead x) (k := j.take half b) hop hcheck]

/-- The job of a command whose block passes. -/
def Job.toWrites (k : Job) : Job :=
  { k with phase := .writing, left := creationWrites (log5 (pbVt k.param)) (log5 (pbEvt k.param)) }

theorem Wing.halfRead_passes_command {w : Wing} {x : BitVec 12 × Bool × Bool} {s : BitVec 12} {j : Job} {half : Bool} {b : BitVec 512}
    (hs : s ≠ 0) (hop : j.opcode = opCreate) (hgot : (!half) ∈ j.got) (hcheck : w.createCheck s (j.take half b).param = 0) :
    w.halfRead x s j half (some b) = ((w.endBlockRead x).setJob s (j.take half b).toWrites).useReads :=
  (Wing.halfRead_passes hop hgot hcheck).trans (congrArg Wing.useReads (if_neg hs))

/-! ## Writes and waits -/

theorem Wing.writesDone_last {w : Wing} {s : BitVec 12} {j : Job} (hjob : (w.slice s).job = some j) (hphase : j.phase = .writing)
    (hleft : j.left = 0) (howns : w.ownsFrame = true) : w.writesDone s = w.setJob s { j with phase := .written } := by
  unfold Wing.writesDone
  simp only [hjob, hphase, hleft, howns, beq_self_eq_true, Bool.and_self, if_true]

theorem Wing.writesDone_idle {w : Wing} {s : BitVec 12} {j : Job} (hjob : (w.slice s).job = some j)
    (h : j.phase ≠ .writing ∨ j.left ≠ 0) : w.writesDone s = w := by
  unfold Wing.writesDone
  rw [hjob]
  refine if_neg fun hcond => ?_
  simp only [Bool.and_eq_true, beq_iff_eq] at hcond
  obtain ⟨⟨hphase, hleft⟩, -⟩ := hcond
  exact h.elim (fun h => h hphase) fun h => h hleft

/-- The job of a slice whose vectors are all released. -/
def Wing.afterWait (w : Wing) (s : BitVec 12) (j : Job) : Job :=
  if j.opcode = opReset then
    { j with phase := .writing, left := creationWrites (w.slice s).vtLog2.toNat (w.slice s).evtLog2.toNat }
  else { j with phase := .written }

theorem Wing.waitEnd_released {w : Wing} {s : BitVec 12} {j : Job} (hjob : (w.slice s).job = some j) (hphase : j.phase = .waiting)
    (howns : w.ownsFrame = true) (hfree : ∀ c ∈ w.ctxs, keySlice c.key = s → c.state ≠ .presented)
    (hroutes : j.opcode = opRemove → ∀ i < 16, keySlice (w.route i) ≠ s) : w.waitEnd s = w.setJob s (w.afterWait s j) := by
  have hreleased : w.released s j.opcode = true := by
    have hctx : (w.ctxs.any fun c => keySlice c.key == s && c.state == .presented) = false := by
      refine List.any_eq_false.2 fun c hc hcond => ?_
      simp only [Bool.and_eq_true, beq_iff_eq] at hcond
      exact hfree c hc hcond.1 hcond.2
    have hroute : (j.opcode == opRemove && (List.range 16).any fun i => keySlice (w.route i) == s) = false := by
      refine Bool.eq_false_iff.2 fun hcond => ?_
      simp only [Bool.and_eq_true, beq_iff_eq, List.any_eq_true, List.mem_range] at hcond
      obtain ⟨hop, i, hi, hkey⟩ := hcond
      exact hroutes hop i hi hkey
    simp only [Wing.released, hctx, hroute, Bool.not_false, Bool.and_self]
  unfold Wing.waitEnd Wing.afterWait
  simp only [hjob, hphase, howns, hreleased, beq_self_eq_true, Bool.and_self, if_true]
  split <;> rfl

theorem Wing.waitEnd_idle {w : Wing} {s : BitVec 12} {j : Job} (hjob : (w.slice s).job = some j)
    (h : j.phase ≠ .waiting ∨ ∃ c ∈ w.ctxs, keySlice c.key = s ∧ c.state = .presented) : w.waitEnd s = w := by
  unfold Wing.waitEnd
  rw [hjob]
  refine if_neg fun hcond => ?_
  simp only [Wing.released, Bool.and_eq_true, beq_iff_eq, Bool.not_eq_true', List.any_eq_false] at hcond
  obtain ⟨⟨hphase, -⟩, hctx, -⟩ := hcond
  rcases h with h | ⟨c, hc, hkey, hstate⟩
  · exact h hphase
  · exact hctx c hc (by simp [hkey, hstate])

/-! ## What each of them leaves -/

/-- A job that is set is all that changes. -/
theorem Wing.setJob_left (w : Wing) (s : BitVec 12) (k : Job) :
    ((w.silent.setJob s k).silent.slice s).job = some k ∧
    (w.silent.setJob s k).silent = { w with sl := (w.silent.setJob s k).silent.sl, out := [] } ∧
    ∀ x, x ≠ s → (w.silent.setJob s k).silent.slice x = w.slice x :=
  ⟨congrArg SliceSt.job (w.silent.setJob_slice s k), rfl, fun _ hx => w.silent.setJob_slice_ne k hx⟩

/-- What is driven from `w` to `v` is reads at the memory port. -/
def Wing.drivesReads (w v : Wing) : Prop := ∃ o, v.out = w.out ++ o ∧ ∀ x ∈ o, ∃ a n tag, x = .memRead w.id a n tag

theorem Wing.TookReads.drives {u v w : Wing} (h : u.TookReads v) (hid : v.id = w.id) (hout : v.out = w.out) : w.drivesReads u := by
  obtain ⟨fs, bs, m, o, ho, rfl⟩ := h
  exact ⟨o, congrArg (· ++ o) hout, hid ▸ ho⟩

theorem Wing.drivesReads.only {w v : Wing} {l : List Out} (h : w.silent.drivesReads v) (hl : l = v.out) :
    ∀ o ∈ l, ∃ a n tag, o = .memRead w.id a n tag := by
  obtain ⟨o, hout, ho⟩ := h
  intro x hx
  rw [hl, hout] at hx
  exact ho x hx

/-- A job with the halves that are in, or that goes on to its writes; the read of its half is free. -/
theorem Wing.setJob_took {u w : Wing} {x : BitVec 12 × Bool × Bool} {s : BitVec 12} {k : Job}
    (h : u.TookReads ((w.endBlockRead x).setJob s k)) :
    w.drivesReads u ∧ (u.slice s).job = some k ∧ w.onlyReads u ∧ ∀ y, y ≠ s → u.slice y = w.slice y := by
  refine ⟨h.drives rfl rfl, ?_, h.onlyReads (w := w) rfl, fun y hy => ?_⟩
  · have hslice := (w.endBlockRead x).setJob_slice s k
    obtain ⟨fs, bs, m, o, -, rfl⟩ := h
    exact congrArg SliceSt.job hslice
  · have hslice := (w.endBlockRead x).setJob_slice_ne k hy
    obtain ⟨fs, bs, m, o, -, rfl⟩ := h
    exact hslice

theorem Wing.onlyReads_silent {v w : Wing} (h : w.silent.onlyReads v) : w.onlyReads v.silent := by
  unfold Wing.onlyReads at h ⊢
  rw [h]
  rfl

/-- The command of a block that cannot be read, or fails: its FINISH is carried and counted. -/
theorem Wing.blockFails_took {u w : Wing} {x : BitVec 12 × Bool × Bool} {s : BitVec 12} {pos : Word} {code : Byte} {c : UCmd} (hs : s ≠ 0)
    (howns : w.ownsFrame = true) (hdue : w.ring.finDue = []) (hc : w.ucmdFor 0 (pos.extractLsb' 0 16) = some c) (hop : c.opcode = opCreate)
    (hroom : w.roomDeferred 12 = true) (hcode : code ≠ 0) (h : u.TookReads ((w.endBlockRead x).blockFails s pos code)) :
    w.drivesReads u ∧ (u.slice 0).cmdFinished = (w.slice 0).cmdFinished + 1 ∧
    ∃ f, Rec.finish f ∈ u.psg.defr ∧ f.result = code ∧ f.ring = 0 ∧ f.pos = pos.extractLsb' 0 16 ∧ f.nParam = 11 := by
  have hoffs : paramOffsets c.opcode = [0, 4, 5, 6, 7, 8, 9, 10, 11, 12, 13] := by
    unfold paramOffsets
    rw [if_pos hop]
  have hfinish := Wing.finish_placed (w := w.endBlockRead x) (u := c)
    (d := { ring := 0, pos := pos, result := code, rep := Report.zero, param := 0 }) howns hdue hc (by rw [hoffs]; exact hroom) (.inl hcode)
  rw [hoffs] at hfinish
  have hfails : (w.endBlockRead x).blockFails s pos code = _ := (if_neg hs).trans hfinish
  rw [hfails] at h
  have hcount := (w.endBlockRead x).slice_modSlice_self 0 fun v => { v with cmdFinished := v.cmdFinished + 1 }
  refine ⟨h.drives rfl rfl, ?_, FinDue.toRec { ring := 0, pos := pos, result := code, rep := Report.zero, param := 0 } 11, ?_, rfl, rfl,
    rfl, rfl⟩
  · obtain ⟨fs, bs, m, o, -, rfl⟩ := h
    exact congrArg SliceSt.cmdFinished hcount
  · obtain ⟨fs, bs, m, o, -, rfl⟩ := h
    exact List.mem_append_right _ List.mem_cons_self

theorem Wing.setJob_blockAddr (w : Wing) {s : BitVec 12} (hs : s ≠ 0) (j k : Job) : (w.setJob s k).blockAddr s j = w.blockAddr s j := by
  unfold Wing.blockAddr Wing.managerCmd
  rw [w.setJob_slice_ne k (Ne.symm hs), if_neg hs, if_neg hs]

/-- A half that is asked for again. -/
theorem Wing.askAgain_spec (w : Wing) (s : BitVec 12) (j k : Job) (half : Bool) :
    ((w.setJob s k).askHalf s j half).out =
      w.out ++ [.memRead w.id ((w.setJob s k).blockAddr s j + if half then 64 else 0) 64 w.readTag] ∧
    (((w.setJob s k).askHalf s j half).slice s).job = some k ∧ ((w.setJob s k).askHalf s j half).ring = w.ring ∧
    w.onlyReads ((w.setJob s k).askHalf s j half) :=
  ⟨rfl, congrArg SliceSt.job (w.setJob_slice s k), rfl, rfl⟩

/-- The START of slice 0 stops. -/
theorem Wing.bootFails_took {u w : Wing} {x : BitVec 12 × Bool × Bool} {code : Byte} {pos : Word}
    (h : u.TookReads ((w.endBlockRead x).blockFails 0 pos code)) :
    w.drivesReads u ∧ (u.slice 0).job = none ∧ u.ctl = { w.ctl with booting := false, bootChecked := false, bootCode := code } := by
  have hslice := (w.endBlockRead x).slice_modSlice_self 0 fun v => { v with job := none }
  refine ⟨h.drives rfl rfl, ?_, ?_⟩
  · obtain ⟨fs, bs, m, o, -, rfl⟩ := h
    exact congrArg SliceSt.job hslice
  · obtain ⟨fs, bs, m, o, -, rfl⟩ := h
    rfl

/-- The START of slice 0 goes on to its writes. -/
theorem Wing.bootPasses_took {u w : Wing} {x : BitVec 12 × Bool × Bool} {k : Job} (h : u.TookReads ((w.endBlockRead x).blockPasses 0 k)) :
    w.drivesReads u ∧ ((u.slice 0).job.map Job.phase) = some .writing ∧ u.ctl = { w.ctl with bootChecked := true } := by
  have hslice := (w.endBlockRead x).setJob_slice 0
    { k with phase := .writing, left := creationWrites (log5 (pbVt k.param)) (log5 (pbEvt k.param)) }
  refine ⟨h.drives rfl rfl, ?_, ?_⟩
  · obtain ⟨fs, bs, m, o, -, rfl⟩ := h
    exact congrArg (fun v => (SliceSt.job v).map Job.phase) hslice
  · obtain ⟨fs, bs, m, o, -, rfl⟩ := h
    rfl

end Sys2Proof.Machine

namespace Sys2Proof

open Machine

/-- Settles O31: a half that is wanted is asked for again, kept, or completes the block, which then fails or passes; the writes and the
waits end by setting the job. -/
theorem sliceJobsAdvance : Obligations.SliceJobsAdvance := by
  unfold Obligations.SliceJobsAdvance
  have hread (s : State) (w : WingId) (slice : BitVec 12) (half : Bool) (rsp : Option (BitVec 512)) :
      StepsWing (.parameterBlockRead w slice ⟨half, rsp⟩) s w fun v =>
        if v.running || v.life == .keyWait then v.paramRead slice half rsp else v := stepsWing rfl
  have hhalf {s : State} {w : WingId} {slice : BitVec 12} {half : Bool} {j : Job} (rsp : Option (BitVec 512))
      (hlife : ((s.wing w).running || (s.wing w).life == .keyWait) = true) (hjob : ((s.wing w).slice slice).job = some j)
      (hfind : (s.wing w).ring.blockReads.find? (fun x => x.1 == slice && x.2.1 == half) = some (slice, half, true))
      (hwanted : (s.wing w).blockWanted slice j half = true) :
      StepsWing (.parameterBlockRead w slice ⟨half, rsp⟩) s w fun v => v.halfRead (slice, half, true) slice j half rsp :=
    (hread s w slice half rsp).congr ((if_pos (c := ((s.wing w).silent.running || (s.wing w).silent.life == .keyWait) = true) hlife).trans
      (Wing.paramRead_wanted (w := (s.wing w).silent) hjob hfind hwanted rsp))
  have hwrites (s : State) (w : WingId) (slice : BitVec 12) : StepsWing (.creationWritesDone w slice) s w fun v => v.writesDone slice :=
    stepsWing rfl
  have hwait (s : State) (w : WingId) (slice : BitVec 12) : StepsWing (.releaseWaitEnd w slice) s w fun v => v.waitEnd slice :=
    stepsWing rfl
  refine ⟨fun s w slice j hjob howns => ?_, fun s w j half hlife hboot hjob hphase hop hgot hfind => ?_⟩
  · have hrun : (s.wing w).running = true := by
      simp only [Wing.ownsFrame, Wing.isActive, Bool.and_eq_true] at howns
      exact howns.1.1
    have hlife : ((s.wing w).running || (s.wing w).life == .keyWait) = true := by rw [hrun, Bool.true_or]
    refine ⟨fun half hs hphase hop hgot hfin hfind => ?_, fun half rsp hnone => ?_, fun hphase half rsp => ?_, fun hphase hleft => ?_,
      fun hidle => ?_, fun hphase hfree hroutes => ?_, fun hidle => ?_⟩
    · have hwanted : (s.wing w).blockWanted slice j half = true := by
        rw [Wing.blockWanted_reading hphase hop hgot, if_neg hs, howns, hfin]
        rfl
      have hsteps (rsp : Option (BitVec 512)) := hhalf rsp hlife hjob hfind hwanted
      refine ⟨fun b k hk => ⟨fun hother => ?_, fun hother hcheck => ?_⟩, fun hretried => ?_, fun u rsp code hu huop hdue hroom hfail => ?_⟩
      · subst hk
        obtain ⟨t, ht, honly, hwing, hout⟩ := (hsteps (some b)).leaves (Wing.halfRead_kept (w := (s.wing w).silent) hop hother b)
        obtain ⟨hdrives, hkept, hreads, hothers⟩ :=
          Wing.setJob_took (w := (s.wing w).silent) (x := (slice, half, true)) (k := j.take half b) (Wing.useReads_tookReads _)
        refine ⟨t, ht, honly, hdrives.only hout, ?_⟩
        rw [hwing]
        exact ⟨hkept, Wing.onlyReads_silent hreads, hothers⟩
      · subst hk
        obtain ⟨t, ht, honly, hwing, hout⟩ := (hsteps (some b)).leaves
          (Wing.halfRead_passes_command (w := (s.wing w).silent) (x := (slice, half, true)) hs hop hother hcheck)
        obtain ⟨hdrives, hkept, hreads, hothers⟩ := Wing.setJob_took (w := (s.wing w).silent) (x := (slice, half, true))
          (k := (j.take half b).toWrites) (Wing.useReads_tookReads _)
        refine ⟨t, ht, honly, hdrives.only hout, ?_⟩
        rw [hwing]
        exact ⟨hkept, Wing.onlyReads_silent hreads, hothers⟩
      · obtain ⟨t, ht, honly, hwing, hout⟩ := (hsteps none).leaves (Wing.halfRead_retry (w := (s.wing w).silent) hretried)
        obtain ⟨hout', hkept, hring, hreads⟩ :=
          (s.wing w).silent.askAgain_spec slice j { j with retried := half :: j.retried } half
        rw [Wing.setJob_blockAddr _ hs] at hout'
        refine ⟨t, ht, honly, hout.trans hout', ?_⟩
        rw [hwing]
        exact ⟨hkept, hring, Wing.onlyReads_silent hreads⟩
      · obtain ⟨t, ht, honly, hwing, hout⟩ := (hsteps rsp).leaves (Wing.halfRead_fails (w := (s.wing w).silent) hop hfail)
        have hcode : code ≠ 0 := by
          rcases hfail with ⟨-, -, rfl⟩ | ⟨-, -, -, -, hcode⟩
          · decide
          · exact hcode
        obtain ⟨hdrives, hcount, f, hrec, hresult, hring, hpos, hparams⟩ := Wing.blockFails_took (w := (s.wing w).silent)
          (x := (slice, half, true)) hs howns hdue hu huop hroom hcode (Wing.useReads_tookReads _)
        refine ⟨t, f, ht, honly, hdrives.only hout, ?_⟩
        rw [hwing]
        exact ⟨hrec, hresult, hring, hpos, hparams, hcount⟩
    · obtain ⟨t, ht, honly, -, hwing⟩ := (hread s w slice half rsp).stands (by
        show (if _ then (s.wing w).silent.paramRead slice half rsp else _) = _
        rw [Wing.paramRead_unknown (w := (s.wing w).silent) hnone, ite_self])
      exact ⟨t, ht, honly, hwing⟩
    · obtain ⟨t, ht, honly, hwing, -⟩ := (hread s w slice half rsp).leaves
        (if_pos (c := ((s.wing w).silent.running || (s.wing w).silent.life == .keyWait) = true) hlife)
      have htook := Wing.paramRead_unwanted (w := (s.wing w).silent) (half := half) hjob hphase rsp
      refine ⟨t, ht, honly, ?_⟩
      rw [hwing]
      exact ⟨Wing.onlyReads_silent (htook.onlyReads rfl), htook.sl⟩
    · obtain ⟨t, ht, honly, hwing, hout⟩ := (hwrites s w slice).leaves
        (Wing.writesDone_last (w := (s.wing w).silent) hjob hphase hleft howns)
      refine ⟨t, ht, honly, hout, ?_⟩
      rw [hwing]
      exact (s.wing w).setJob_left slice _
    · obtain ⟨t, ht, honly, -, hwing⟩ := (hwrites s w slice).stands (Wing.writesDone_idle (w := (s.wing w).silent) hjob hidle)
      exact ⟨t, ht, honly, hwing⟩
    · obtain ⟨t, ht, honly, hwing, hout⟩ := (hwait s w slice).leaves
        (Wing.waitEnd_released (w := (s.wing w).silent) hjob hphase howns hfree hroutes)
      refine ⟨t, ht, honly, hout, ?_⟩
      rw [hwing]
      exact (s.wing w).setJob_left slice _
    · obtain ⟨t, ht, honly, -, hwing⟩ := (hwait s w slice).stands (Wing.waitEnd_idle (w := (s.wing w).silent) hjob hidle)
      exact ⟨t, ht, honly, hwing⟩
  · have hlife' : ((s.wing w).running || (s.wing w).life == .keyWait) = true := by
      rcases hlife with h | h <;> simp [Wing.running, h]
    have hwanted : (s.wing w).blockWanted 0 j half = true := by
      rw [Wing.blockWanted_reading hphase hop hgot, if_pos rfl, hboot]
    have hsteps (rsp : Option (BitVec 512)) := hhalf rsp hlife' hjob hfind hwanted
    refine ⟨fun hretried => ?_, fun rsp code hfail => ?_, fun b hother hcheck => ?_⟩
    · obtain ⟨t, ht, honly, hwing, hout⟩ := (hsteps none).leaves (Wing.halfRead_retry (w := (s.wing w).silent) hretried)
      obtain ⟨hout', hkept, -, -⟩ := (s.wing w).silent.askAgain_spec 0 j { j with retried := half :: j.retried } half
      refine ⟨t, ht, honly, hout.trans hout', ?_⟩
      rw [hwing]
      exact hkept
    · obtain ⟨t, ht, honly, hwing, hout⟩ := (hsteps rsp).leaves (Wing.halfRead_fails (w := (s.wing w).silent) hop hfail)
      obtain ⟨hdrives, hjob', hctl⟩ := Wing.bootFails_took (w := (s.wing w).silent) (x := (0, half, true)) (code := code) (pos := j.pos)
        (Wing.useReads_tookReads _)
      refine ⟨t, ht, honly, hdrives.only hout, ?_⟩
      rw [hwing]
      exact ⟨hjob', hctl⟩
    · obtain ⟨t, ht, honly, hwing, hout⟩ := (hsteps (some b)).leaves
        (Wing.halfRead_passes (w := (s.wing w).silent) (x := (0, half, true)) hop hother hcheck)
      obtain ⟨hdrives, hjob', hctl⟩ := Wing.bootPasses_took (w := (s.wing w).silent) (x := (0, half, true)) (k := j.take half b)
        (Wing.useReads_tookReads _)
      refine ⟨t, ht, honly, hdrives.only hout, ?_⟩
      rw [hwing]
      exact ⟨hctl, hjob'⟩

end Sys2Proof
end

section
/-! The end of a quiesce, and the requests and reports of drains (R192, R219, R220). -/

namespace Sys2Proof.Machine

/-! ## Quiesce -/

theorem Wing.finished_spec (w : Wing) (ring : BitVec 12) (rs : List Rec) :
    ((w.countFinished ring).defer rs).psg.defr = w.psg.defr ++ rs ∧
    (((w.countFinished ring).defer rs).slice ring).cmdFinished = (w.slice ring).cmdFinished + 1 :=
  ⟨rfl, congrArg SliceSt.cmdFinished (w.slice_modSlice_self ring fun v => { v with cmdFinished := v.cmdFinished + 1 })⟩

theorem Wing.endQuiesce_finishes {w : Wing} {s : BitVec 12} {u : UCmd} (howns : w.ownsFrame = true)
    (hstate : (w.slice s).state = .quiescing) (hcmd : w.sliceCmd opQuiesce s = some u)
    (hu : w.ucmdFor 0 (u.pos.extractLsb' 0 16) = some u) (hfin : w.finishing 0 u.pos = false) (hdue : w.ring.finDue = [])
    (hroom : w.roomDeferred 1 = true) :
    w.endQuiesce s true = (w.countFinished 0).defer [.finish
      { result := 0, ring := 0, hasLast := false, pos := u.pos.extractLsb' 0 16, count := 0, cfgw := 0, status := 0, lastCore := 0
        nParam := 0 }] := by
  have hop : u.opcode = opQuiesce := by
    have h := List.find?_some hcmd
    simp only [Bool.and_eq_true, beq_iff_eq] at h
    exact h.1
  have hcreate : u.opcode ≠ opCreate := by rw [hop]; decide
  have hshare : u.opcode ≠ opShare := by rw [hop]; decide
  have hoffs : paramOffsets u.opcode = [] := by
    unfold paramOffsets
    rw [if_neg hcreate, if_neg hshare]
  have hfinish := Wing.finish_placed (d := { ring := 0, pos := u.pos, result := 0, rep := Report.zero, param := 0 }) howns hdue hu
    (by rw [hoffs]; exact hroom) (.inr ⟨hcreate, hshare⟩)
  rw [hoffs] at hfinish
  unfold Wing.endQuiesce
  simp only [hcmd, howns, hstate, hfin, beq_self_eq_true, Bool.not_false, Bool.and_self, if_true]
  exact hfinish

theorem Wing.endQuiesce_idle {w : Wing} {s : BitVec 12} {c : Bool}
    (h : w.ownsFrame = false ∨ (w.slice s).state ≠ .quiescing ∨ c = false) : w.endQuiesce s c = w := by
  unfold Wing.endQuiesce
  cases w.sliceCmd opQuiesce s with
  | none => rfl
  | some u =>
      refine if_neg fun hcond => ?_
      simp only [Bool.and_eq_true, beq_iff_eq] at hcond
      obtain ⟨⟨⟨howns, hstate⟩, hc⟩, -⟩ := hcond
      rcases h with h | h | h
      · exact Bool.false_ne_true (h.symm.trans howns)
      · exact h hstate
      · exact Bool.false_ne_true (h.symm.trans hc)

theorem Wing.quiet_iff (w : Wing) (s : BitVec 12) :
    w.quiet s = true ↔ (∀ p < 16, w.portEn p = true → (w.slice s).drained.getLsbD p = true) ∧ w.oldHeld s = false ∧
      (w.slice s).ucmds = [] := by
  have hports : w.allDrained (w.slice s) = true ↔ ∀ p < 16, w.portEn p = true → (w.slice s).drained.getLsbD p = true := by
    simp only [Wing.allDrained, List.all_eq_true, List.mem_range, Bool.or_eq_true, Bool.not_eq_true', ← Bool.not_eq_true, ← imp_iff_not_or]
  unfold Wing.quiet
  rw [Bool.and_eq_true, Bool.and_eq_true, hports, Bool.not_eq_true', List.isEmpty_iff, and_assoc]

/-! ## Requests of drains -/

/-- The requests that a port owes and has not reported. -/
def Wing.drainsOwed (w : Wing) (p : Nat) : List (BitVec 20 × Byte) :=
  if w.portEn p then (w.drainWants p).filter fun x => !w.reported p x else []

/-- The requests of a port that stand, and those that join them. -/
def Wing.drainsOffered (w : Wing) (p : Nat) : List (BitVec 20 × Byte × Bool) :=
  let have_ := (w.drnOf p).filter fun x => x.2.2 || (w.drainsOwed p).contains (x.1, x.2.1)
  let new := (w.drainsOwed p).filter fun x => !have_.any fun y => y.1 == x.1 && y.2.1 == x.2
  have_ ++ (new.take (4 - have_.length)).map fun x => (x.1, x.2, false)

/-- The wing with the requests of a port, the first of which the engine has not taken it drives. -/
def Wing.offerStep (w : Wing) (p : Nat) : Wing :=
  let w1 := { w with drn := SMap.set w.drn [] p (w.drainsOffered p) }
  match (w.drainsOffered p).find? (fun x => !x.2.2) with
  | some x => w1.emit (.drn w.id (BitVec.ofNat 4 p) x.1 x.2.1)
  | none => w1

theorem Wing.offerDrains_eq (w : Wing) (h : w.isActive = true) : w.offerDrains = (List.range 16).foldl Wing.offerStep w := by
  unfold Wing.offerDrains
  rw [h]
  rfl

/-- Nothing but the requests and the output changes. -/
def Wing.SameButDrains (v w : Wing) : Prop := ∃ d o, v = { w with drn := d, out := o }

theorem Wing.SameButDrains.trans {u v w : Wing} (h : u.SameButDrains v) (h' : v.SameButDrains w) : u.SameButDrains w := by
  obtain ⟨d, o, rfl⟩ := h
  obtain ⟨d', o', rfl⟩ := h'
  exact ⟨d, o, rfl⟩

/-- A port's step changes that port's requests alone. -/
theorem Wing.offerStep_spec (w : Wing) (p : Nat) :
    (w.offerStep p).SameButDrains w ∧ ∀ x, (w.offerStep p).drnOf x = if x = p then w.drainsOffered p else w.drnOf x := by
  have hset : ∀ x, SMap.get (SMap.set w.drn [] p (w.drainsOffered p)) [] x = if x = p then w.drainsOffered p else w.drnOf x := fun x => by
    split
    next h => rw [h, SMap.get_set_self]
    next h => exact SMap.get_set_ne _ _ _ h
  unfold Wing.offerStep
  cases (w.drainsOffered p).find? (fun x => !x.2.2) with
  | none => exact ⟨⟨_, w.out, rfl⟩, hset⟩
  | some x => exact ⟨⟨_, _, rfl⟩, hset⟩

theorem Wing.foldl_offerStep_spec (l : List Nat) (w : Wing) (p : Nat) (hp : p ∉ l) :
    (l.foldl Wing.offerStep w).SameButDrains w ∧ (l.foldl Wing.offerStep w).drnOf p = w.drnOf p := by
  induction l generalizing w with
  | nil => exact ⟨⟨w.drn, w.out, rfl⟩, rfl⟩
  | cons a l ih =>
      obtain ⟨hsame, hdrn⟩ := ih (w.offerStep a) fun h => hp (List.mem_cons_of_mem a h)
      obtain ⟨hsame', hdrn'⟩ := w.offerStep_spec a
      refine ⟨hsame.trans hsame', hdrn.trans ((hdrn' p).trans (if_neg (by rintro rfl; exact hp List.mem_cons_self)))⟩

/-- Requests that the engine has taken, or that are owed, stand. -/
theorem Wing.drainsOffered_keeps {w : Wing} {p : Nat}
    (h : ∀ x ∈ w.drnOf p, x.2.2 = true ∨ (x.1, x.2.1) ∈ w.drainsOwed p) : w.drnOf p <+: w.drainsOffered p := by
  have hall : (w.drnOf p).filter (fun x => x.2.2 || (w.drainsOwed p).contains (x.1, x.2.1)) = w.drnOf p :=
    List.filter_eq_self.2 fun x hx => by simpa using h x hx
  unfold Wing.drainsOffered
  rw [hall]
  exact List.prefix_append _ _

theorem Wing.offerDrains_keeps {w : Wing} {p : Nat} (hact : w.isActive = true) (hp : p < 16)
    (h : ∀ x ∈ w.drnOf p, x.2.2 = true ∨ (x.1, x.2.1) ∈ w.drainsOwed p) :
    w.offerDrains.SameButDrains w ∧ w.drnOf p <+: w.offerDrains.drnOf p := by
  obtain ⟨a, b, hrange⟩ := List.append_of_mem (List.mem_range.2 hp)
  have hnodup : (a ++ p :: b).Nodup := hrange ▸ List.nodup_range
  have hpa : p ∉ a := fun hmem => (List.nodup_append.1 hnodup).2.2 p hmem p List.mem_cons_self rfl
  have hpb : p ∉ b := (List.nodup_cons.1 (List.nodup_append.1 hnodup).2.1).1
  rw [w.offerDrains_eq hact, hrange, List.foldl_append, List.foldl_cons]
  obtain ⟨hsame, hdrn⟩ := Wing.foldl_offerStep_spec a w p hpa
  generalize a.foldl Wing.offerStep w = v at hsame hdrn
  obtain ⟨hstep, hown⟩ := v.offerStep_spec p
  obtain ⟨hsame', hdrn'⟩ := Wing.foldl_offerStep_spec b (v.offerStep p) p hpb
  have howed : v.drainsOwed p = w.drainsOwed p := by
    obtain ⟨d, o, rfl⟩ := hsame
    rfl
  refine ⟨hsame'.trans (hstep.trans hsame), ?_⟩
  rw [hdrn', hown p, if_pos rfl, ← hdrn]
  exact Wing.drainsOffered_keeps fun x hx => howed ▸ h x (hdrn ▸ hx)

theorem mem_takeFirst {l : List (BitVec 20 × Byte × Bool)} {x : BitVec 20 × Byte × Bool} (h : x ∈ takeFirst l) : x.2.2 = true ∨ x ∈ l := by
  induction l with
  | nil => exact .inr h
  | cons a l ih =>
      unfold takeFirst at h
      split at h
      · rcases List.mem_cons.1 h with rfl | h
        · exact .inr List.mem_cons_self
        · exact (ih h).imp_right (List.mem_cons_of_mem a)
      · rcases List.mem_cons.1 h with rfl | h
        · exact .inl rfl
        · exact .inr (List.mem_cons_of_mem a h)

/-- The wing whose engine has taken the first request that a port offers. -/
def Wing.tookDrain (w : Wing) (p : Nat) : Wing := { w with drn := SMap.set w.drn [] p (takeFirst (w.drnOf p)) }.count cDrainReq

theorem Wing.drainTaken_offered {w : Wing} {p : Nat} (hact : w.isActive = true) (hp : p < 16) (hen : w.portEn p = true)
    (hany : ∃ x ∈ w.drnOf p, x.2.2 = false)
    (h : ∀ x ∈ w.drnOf p, x.2.2 = true ∨ (x.1, x.2.1) ∈ w.drainWants p ∧ w.reported p (x.1, x.2.1) = false) :
    (w.drainTaken p).ctr cDrainReq = w.ctr cDrainReq + 1 ∧ takeFirst (w.drnOf p) <+: (w.drainTaken p).drnOf p := by
  have htaken : w.drainTaken p = (w.tookDrain p).offerDrains := by
    obtain ⟨x, hx, hfree⟩ := hany
    refine if_pos ?_
    rw [hact, Bool.true_and, List.any_eq_true]
    exact ⟨x, hx, by rw [hfree]; rfl⟩
  have hdrn : (w.tookDrain p).drnOf p = takeFirst (w.drnOf p) := SMap.get_set_self _ _ _ _
  have howed : (w.tookDrain p).drainsOwed p = (w.drainWants p).filter fun x => !w.reported p x := if_pos hen
  obtain ⟨hsame, hprefix⟩ := Wing.offerDrains_keeps (w := w.tookDrain p) hact hp fun x hx => by
    rw [hdrn] at hx
    rw [howed, List.mem_filter]
    rcases mem_takeFirst hx with hx | hx
    · exact .inl hx
    · exact (h x hx).imp_right fun ⟨hwant, hrep⟩ => ⟨hwant, by rw [hrep]; rfl⟩
  rw [htaken]
  refine ⟨?_, hdrn ▸ hprefix⟩
  obtain ⟨d, o, heq⟩ := hsame
  rw [heq]
  exact Wing.ctr_count_self _ cDrainReq

theorem Wing.drainTaken_idle {w : Wing} {p : Nat} (h : w.isActive = false ∨ ∀ x ∈ w.drnOf p, x.2.2 = true) : w.drainTaken p = w := by
  refine if_neg fun hcond => ?_
  rw [Bool.and_eq_true, List.any_eq_true] at hcond
  obtain ⟨hact, x, hx, hfree⟩ := hcond
  rcases h with h | h
  · exact Bool.false_ne_true (h.symm.trans hact)
  · rw [h x hx] at hfree
    exact Bool.false_ne_true hfree

/-! ## Reports -/

/-- The wing with a report carried, and the request that it answers gone. -/
def Wing.reportDrain (w : Wing) (p : BitVec 4) (pasid : BitVec 20) (gen : Byte) : Wing :=
  { w with drn := SMap.set w.drn [] p.toNat ((w.drnOf p.toNat).filter fun x => !(x.1 == pasid && x.2.1 == gen)) }.defer
    [.drain { port := p, pasid := pasid, gen := gen }]

theorem Wing.drainDone_now {w : Wing} (h : w.vst.inbuf = []) (p : BitVec 4) (pasid : BitVec 20) (gen : Byte) :
    w.drainDone p.toNat pasid gen = if w.ownsFrame then w.reportDrain p pasid gen else w := by
  have hport : BitVec.ofNat 4 p.toNat = p := by simp
  unfold Wing.drainDone
  simp only [Wing.drainAll_of_empty h, h, List.takeWhile_nil, List.length_nil, if_true, hport]
  rfl

/-- With the buffer stalled at its first write, all of it taken, nothing moves. -/
theorem Wing.drainAll_blocked {w : Wing} {a : AptWrite} {rest : List (AptWrite × Bool)} (hbuf : w.vst.inbuf = (a, true) :: rest)
    (htaken : ∀ e ∈ rest, e.2 = true) (hlen : rest.length < 512) (hblocks : w.blocks a = true) : w.drainAll = w.noteStall a := by
  have hdrain : w.drain w.vst.inbuf.length = w.noteStall a := by
    rw [hbuf, List.length_cons]
    unfold Wing.drain
    simp only [hbuf, hblocks, if_true]
  have hbuf' : (w.noteStall a).vst.inbuf = (a, true) :: rest := by
    unfold Wing.noteStall
    split <;> exact hbuf
  have htrue : ∀ e ∈ (a, true) :: rest, e.2 = true := fun e he => (List.mem_cons.1 he).elim (fun h => h ▸ rfl) (htaken e)
  have hmarked : ((a, true) :: rest).map (fun e => (e.1, true)) = (a, true) :: rest :=
    (List.map_congr_left (f := fun e => (e.1, true)) (g := fun e => e) fun e he => Prod.ext rfl (htrue e he).symm).trans
      (List.map_id' _)
  have hwhole : ((a, true) :: rest).take 512 = (a, true) :: rest := List.take_of_length_le hlen
  have hnew : ((a, true) :: rest).filter (fun e => !e.2) = [] := List.filter_eq_nil_iff.2 fun e he => by simp [htrue e he]
  have hrest : ((a, true) :: rest).drop 512 = [] := List.drop_of_length_le hlen
  unfold Wing.drainAll
  rw [hdrain]
  unfold Wing.refill
  split
  · rfl
  · simp only [hbuf', hwhole, hnew, hmarked, hrest, List.length_nil, List.replicate_zero, List.append_nil]
    rw [← hbuf']

theorem Wing.drainDone_behind {w : Wing} {a : AptWrite} {rest : List (AptWrite × Bool)} (hbuf : w.vst.inbuf = (a, true) :: rest)
    (htaken : ∀ e ∈ rest, e.2 = true) (hlen : rest.length < 512) (hblocks : w.blocks a = true) (p : BitVec 4) (pasid : BitVec 20)
    (gen : Byte) :
    (w.drainDone p.toNat pasid gen).out = w.out ∧
    (w.drainDone p.toNat pasid gen).vst.drnWait = w.vst.drnWait ++ [(p, pasid, gen, rest.length + 1)] ∧
    (w.drainDone p.toNat pasid gen).psg = w.psg ∧ (w.drainDone p.toNat pasid gen).drn = w.drn := by
  have hport : BitVec.ofNat 4 p.toNat = p := by simp
  have hstall : (w.noteStall a).vst.inbuf = w.vst.inbuf ∧ (w.noteStall a).vst.drnWait = w.vst.drnWait ∧
      (w.noteStall a).psg = w.psg ∧ (w.noteStall a).drn = w.drn ∧ (w.noteStall a).out = w.out := by
    unfold Wing.noteStall
    split <;> exact ⟨rfl, rfl, rfl, rfl, rfl⟩
  obtain ⟨hbuf', hwait, hpsg, hdrn, hout⟩ := hstall
  have hahead : ((w.noteStall a).vst.inbuf.takeWhile fun e => e.2).length = rest.length + 1 := by
    rw [hbuf', hbuf, List.takeWhile_eq_self_iff.2 fun e he => (List.mem_cons.1 he).elim (fun h => h ▸ rfl) (htaken e)]
    rfl
  unfold Wing.drainDone
  simp only [Wing.drainAll_blocked hbuf htaken hlen hblocks, hahead, Nat.add_eq_zero_iff, Nat.one_ne_zero, and_false, if_false, hport, hwait,
    hpsg, hdrn, hout, and_self]

end Sys2Proof.Machine

namespace Sys2Proof

open Machine

/-- Settles O32: a quiesce ends by placing its FINISH, requests that are owed stand as one is taken, and a report is carried at once or
waits behind the buffer. -/
theorem quiescesAndDrainsFinish : Obligations.QuiescesAndDrainsFinish := by
  unfold Obligations.QuiescesAndDrainsFinish
  refine ⟨fun s w slice i c hi => ?_, fun s w port => ?_⟩
  · have hsteps : ∃ b : Bool, (b = true ↔ c) ∧ StepsWing i s w fun v => v.endQuiesce slice b := by
      rcases hi with ⟨rfl, hc⟩ | ⟨rfl, hc⟩
      · exact ⟨(s.wing w).quiet slice, ((s.wing w).quiet_iff slice).trans hc.symm,
          StepsWing.congr (stepsWing (f := fun v => v.endQuiesce slice (v.quiet slice)) rfl) rfl⟩
      · exact ⟨((s.wing w).slice slice).timedOut (s.wing w).now, decide_eq_true_iff.trans hc.symm,
          StepsWing.congr (stepsWing (f := fun v => v.endQuiesce slice ((v.slice slice).timedOut v.now)) rfl) rfl⟩
    obtain ⟨b, hb, hstep⟩ := hsteps
    refine ⟨fun u howns hstate hc hcmd hu hfin hdue hroom => ?_, fun hidle => ?_⟩
    · have hb' := hb.2 hc
      subst hb'
      obtain ⟨t, ht, honly, hwing, hout⟩ := hstep.leaves
        (Wing.endQuiesce_finishes (w := (s.wing w).silent) howns hstate hcmd hu hfin hdue hroom)
      refine ⟨t, ht, honly, hout, ?_⟩
      rw [hwing]
      exact (s.wing w).silent.finished_spec 0 _
    · obtain ⟨t, ht, honly, -, hwing⟩ := hstep.stands (Wing.endQuiesce_idle (w := (s.wing w).silent)
        (hidle.imp_right (Or.imp_right fun hc => Bool.eq_false_iff.2 fun h => hc (hb.1 h))))
      exact ⟨t, ht, honly, hwing⟩
  · have htake : StepsWing (.drainRequestTaken w port) s w fun v => v.drainTaken port.toNat := stepsWing rfl
    have hdone (pasid : BitVec 20) (gen : Byte) : StepsWing (.drnDone w port pasid gen) s w fun v =>
        if v.running then v.drainDone port.toNat pasid gen else v := stepsWing rfl
    refine ⟨fun hact hen hany hall => ?_, fun hidle => ?_, fun pasid gen => ⟨fun howns hbuf => ?_,
      fun a rest hrun hbuf htaken hlen hblocks => ?_, fun hidle => ?_⟩⟩
    · obtain ⟨t, ht, honly, hwing, -⟩ := htake.leaves rfl
      obtain ⟨hctr, hprefix⟩ := Wing.drainTaken_offered (w := (s.wing w).silent) hact port.isLt hen hany hall
      refine ⟨t, ht, honly, ?_⟩
      rw [hwing]
      exact ⟨hctr, hprefix⟩
    · obtain ⟨t, ht, honly, -, hwing⟩ := htake.stands (Wing.drainTaken_idle (w := (s.wing w).silent) hidle)
      exact ⟨t, ht, honly, hwing⟩
    · have hrun : (s.wing w).running = true := by
        simp only [Wing.ownsFrame, Wing.isActive, Bool.and_eq_true] at howns
        exact howns.1.1
      obtain ⟨t, ht, honly, hwing, hout⟩ := (hdone pasid gen).leaves ((if_pos (c := (s.wing w).silent.running = true) hrun).trans
        ((Wing.drainDone_now (w := (s.wing w).silent) hbuf port pasid gen).trans (if_pos howns)))
      refine ⟨t, ht, honly, hout, ?_⟩
      rw [hwing]
      exact ⟨SMap.get_set_self _ _ _ _, fun p hp => SMap.get_set_ne _ _ _ hp, rfl⟩
    · obtain ⟨t, ht, honly, hwing, hout⟩ := (hdone pasid gen).leaves (if_pos (c := (s.wing w).silent.running = true) hrun)
      obtain ⟨hout', hwait, hpsg, hdrn⟩ :=
        Wing.drainDone_behind (w := (s.wing w).silent) hbuf htaken hlen hblocks port pasid gen
      refine ⟨t, ht, honly, hout.trans hout', ?_⟩
      rw [hwing]
      exact ⟨hwait, hpsg, hdrn⟩
    · obtain ⟨t, ht, honly, -, hwing⟩ := (hdone pasid gen).stands (by
        rcases hidle with hrun | ⟨howns, hbuf⟩
        · exact if_neg (Bool.eq_false_iff.1 hrun)
        · show (if _ then (s.wing w).silent.drainDone port.toNat pasid gen else _) = _
          rw [Wing.drainDone_now (w := (s.wing w).silent) hbuf, show (s.wing w).silent.ownsFrame = false from howns,
            if_neg Bool.false_ne_true, ite_self])
      exact ⟨t, ht, honly, hwing⟩

end Sys2Proof
end

section
/-! Commands of a ring: what their ends leave alone, and their admission (R158 to R160, R233). -/

namespace Sys2Proof.Machine

theorem Wing.slice_of_sl {v w : Wing} (h : v.sl = w.sl) (n : BitVec 12) : v.slice n = w.slice n := by simp only [Wing.slice, h]

theorem Wing.ctr_of_regs {v w : Wing} (h : v.regs = w.regs) (o : Nat) : v.ctr o = w.ctr o := by simp only [Wing.ctr, h]

/-! ## What the end of a command leaves alone -/

/-- Where a ring stands: its next position, the descriptors that are read, and a position that cannot be. -/
def SliceSt.heads (v : SliceSt) : Word × List (Word × Desc) × Option Word := (v.cmdHead, v.descs, v.failPos)

/-- The rings stand where they stood, no admission is counted, and no record leaves the frame; a FINISH may take its report. -/
def Wing.SameHeads (v w : Wing) : Prop :=
  (∀ n, (v.slice n).heads = (w.slice n).heads) ∧ v.ctr cCmdAdmitted = w.ctr cCmdAdmitted ∧
    ∀ r ∈ w.psg.defr, (∀ f, r ≠ .finish f) → r ∈ v.psg.defr

theorem Wing.SameHeads.refl (w : Wing) : w.SameHeads w := ⟨fun _ => rfl, rfl, fun _ h _ => h⟩

theorem Wing.SameHeads.trans {u v w : Wing} (h : u.SameHeads v) (h' : v.SameHeads w) : u.SameHeads w := by
  obtain ⟨a, b, c⟩ := h
  obtain ⟨a', b', c'⟩ := h'
  exact ⟨fun n => (a n).trans (a' n), b.trans b', fun r hr hf => c r (c' r hr hf) hf⟩

theorem Wing.SameHeads.foldl {α : Type} (f : Wing → α → Wing) (h : ∀ v a, (f v a).SameHeads v) (l : List α) (w : Wing) :
    (l.foldl f w).SameHeads w := by
  induction l generalizing w with
  | nil => exact .refl w
  | cons a l ih => exact (ih (f w a)).trans (h w a)

/-- What a command leaves of a slice. -/
def SliceSt.cmdState (v : SliceSt) :
    (Word × List (Word × Desc) × Option Word) × List UCmd × Option Job × List DWord × List DWord :=
  (v.heads, v.ucmds, v.job, v.inbox, v.posted)

/-- What a command left stands: rings, jobs and letters, vectors and quarantine, and what is driven and carried, to which only
more is added. -/
def Wing.SameCmds (v w : Wing) : Prop :=
  (∀ n, (v.slice n).cmdState = (w.slice n).cmdState) ∧ v.pan.slots = w.pan.slots ∧ v.pan.quar = w.pan.quar ∧
    v.ctr cCmdAdmitted = w.ctr cCmdAdmitted ∧ v.ring.recsDef = w.ring.recsDef ∧ w.psg.defr <+: v.psg.defr ∧ w.out <+: v.out

theorem Wing.SameCmds.refl (w : Wing) : w.SameCmds w := ⟨fun _ => rfl, rfl, rfl, rfl, rfl, List.prefix_rfl, List.prefix_rfl⟩

theorem Wing.SameCmds.trans {u v w : Wing} (h : u.SameCmds v) (h' : v.SameCmds w) : u.SameCmds w := by
  obtain ⟨a, b, c, d, e, f, g⟩ := h
  obtain ⟨a', b', c', d', e', f', g'⟩ := h'
  exact ⟨fun n => (a n).trans (a' n), b.trans b', c.trans c', d.trans d', e.trans e', f'.trans f, g'.trans g⟩

theorem Wing.SameCmds.foldl {α : Type} (f : Wing → α → Wing) (h : ∀ v a, (f v a).SameCmds v) (l : List α) (w : Wing) :
    (l.foldl f w).SameCmds w := by
  induction l generalizing w with
  | nil => exact .refl w
  | cons a l ih => exact (ih (f w a)).trans (h w a)

theorem Wing.SameCmds.heads {v w : Wing} (h : v.SameCmds w) : v.SameHeads w := by
  obtain ⟨hslices, -, -, hctr, -, hdefr, -⟩ := h
  exact ⟨fun n => congrArg Prod.fst (hslices n), hctr, fun r hr _ => hdefr.subset hr⟩

/-- A slice changed in nothing that a command left. -/
theorem Wing.modSlice_cmds (w : Wing) (s : BitVec 12) (f : SliceSt → SliceSt) (hf : ∀ v, (f v).cmdState = v.cmdState) :
    (w.modSlice s f).SameCmds w := by
  refine ⟨fun n => ?_, rfl, rfl, rfl, rfl, List.prefix_rfl, List.prefix_rfl⟩
  by_cases hn : n = s
  · rw [hn, Wing.slice_modSlice_self, hf]
  · rw [Wing.slice_modSlice_ne w f hn]

theorem Wing.modSlice_heads (w : Wing) (s : BitVec 12) (f : SliceSt → SliceSt) (hf : ∀ v, (f v).heads = v.heads) :
    (w.modSlice s f).SameHeads w := by
  refine ⟨fun n => ?_, rfl, fun _ h _ => h⟩
  by_cases hn : n = s
  · rw [hn, Wing.slice_modSlice_self, hf]
  · rw [Wing.slice_modSlice_ne w f hn]

theorem Wing.place_cmds (w : Wing) (r : Rec) : (w.place r).SameCmds w := by
  have hdefr : w.psg.defr <+: (w.place r).psg.defr := by
    unfold Wing.place
    cases r.group with
    | deferred => exact List.prefix_append _ _
    | _ => exact List.prefix_rfl
  refine ⟨fun n => ?_, by simp, by simp, Wing.ctr_place w r _, by simp, hdefr, by simp⟩
  simp [Wing.slice]

theorem Wing.emitRead_cmds (w : Wing) (addr : DWord) (len : Nat) : (w.emitRead addr len).SameCmds w :=
  ⟨fun _ => rfl, rfl, rfl, rfl, rfl, List.prefix_rfl, List.prefix_append _ _⟩

theorem Wing.TookReads.cmds {v w : Wing} (h : v.TookReads w) : v.SameCmds w := by
  obtain ⟨fs, bs, m, o, -, rfl⟩ := h
  exact ⟨fun _ => rfl, rfl, rfl, rfl, rfl, List.prefix_rfl, List.prefix_append _ _⟩

/-! ### The finishes of FLUSH commands -/

theorem Wing.placeFinish_cmds {w v : Wing} {d : FinDue} (h : w.placeFinish d = some v) : v.SameCmds w := by
  unfold Wing.placeFinish at h
  split at h
  · exact Option.some.inj h ▸ .refl w
  · dsimp only at h
    split at h
    · exact nomatch h
    · refine Option.some.inj h ▸ ?_
      exact ((Wing.SameCmds.foldl _ (fun v r => v.place_cmds r) _ _).trans (Wing.place_cmds _ _)).trans
        (Wing.modSlice_cmds _ _ _ fun _ => rfl)

theorem placeFinishesIn_cmds (ds : List FinDue) (w : Wing) : (placeFinishesIn ds w).SameCmds w := by
  have hdue : ∀ (v : Wing) (l : List FinDue), ({ v with ring := { v.ring with finDue := l } } : Wing).SameCmds v := fun v l =>
    ⟨fun _ => rfl, rfl, rfl, rfl, rfl, List.prefix_rfl, List.prefix_rfl⟩
  induction ds generalizing w with
  | nil => exact hdue w []
  | cons d ds ih =>
      unfold placeFinishesIn
      split
      next v hv => exact (ih v).trans (Wing.placeFinish_cmds hv)
      next => exact hdue w _

theorem Wing.finish_cmds (w : Wing) (ring : BitVec 12) (pos : Word) (result : Byte) (rep : Report) (param : BitVec 1024) :
    (w.finish ring pos result rep param).SameCmds w := by
  have hdue : ∀ l : List FinDue, ({ w with ring := { w.ring with finDue := l } } : Wing).SameCmds w := fun l =>
    ⟨fun _ => rfl, rfl, rfl, rfl, rfl, List.prefix_rfl, List.prefix_rfl⟩
  unfold Wing.finish Wing.placeFinishes
  dsimp only
  split
  · exact (placeFinishesIn_cmds _ _).trans (hdue _)
  · exact hdue _

theorem Wing.finishFlushes_cmds (w : Wing) : w.finishFlushes.SameCmds w := by
  refine Wing.SameCmds.foldl _ (fun v u => ?_) _ _
  split
  · exact v.finish_cmds _ _ _ _ _
  · exact .refl v

/-! ### Reads and letters -/

theorem Wing.readRing_cmds (w : Wing) (s : BitVec 12) (fuel : Nat) : (w.readRing s fuel).SameCmds w := by
  induction fuel generalizing w with
  | zero => exact .refl w
  | succ fuel ih =>
      unfold Wing.readRing
      split
      · exact .refl w
      · split
        · exact (ih _).trans ((Wing.emitRead_cmds _ _ _).trans (Wing.modSlice_cmds _ _ _ fun _ => rfl))
        · exact .refl w

theorem Wing.readRings_cmds (w : Wing) : w.readRings.SameCmds w := by
  unfold Wing.readRings
  split
  · exact Wing.SameCmds.foldl _ (fun v s => v.readRing_cmds s 16) _ _
  · exact .refl w

theorem Wing.sendOut_cmds (w : Wing) (s : BitVec 12) (fuel : Nat) : (w.sendOut s fuel).SameCmds w := by
  induction fuel generalizing w with
  | zero => exact .refl w
  | succ fuel ih =>
      unfold Wing.sendOut
      split
      · exact .refl w
      · split
        · exact (ih _).trans ((Wing.place_cmds _ _).trans (Wing.modSlice_cmds _ _ _ fun _ => rfl))
        · exact .refl w

theorem Wing.sendIn_cmds (w : Wing) (s : BitVec 12) (fuel : Nat) : (w.sendIn s fuel).SameCmds w := by
  induction fuel generalizing w with
  | zero => exact .refl w
  | succ fuel ih =>
      unfold Wing.sendIn
      dsimp only
      split
      · exact .refl w
      · split
        · exact (ih _).trans (Wing.place_cmds _ _)
        · exact .refl w

theorem Wing.sendLetters_cmds (w : Wing) : w.sendLetters.SameCmds w := by
  unfold Wing.sendLetters
  split
  · refine Wing.SameCmds.foldl _ (fun v s => ?_) _ _
    split
    · exact ((v.sendOut s 4).sendIn_cmds s 4).trans (v.sendOut_cmds s 4)
    · exact .refl v
  · exact .refl w

/-- What follows an admission at the command point. -/
def Wing.endCommand (w : Wing) : Wing := w.finishFlushes.readRings.sendLetters

theorem Wing.endCommand_cmds (w : Wing) : w.endCommand.SameCmds w :=
  (Wing.sendLetters_cmds _).trans ((Wing.readRings_cmds _).trans w.finishFlushes_cmds)

/-! ## What an admission changes of the rings -/

/-- With the slices, the registers and the passage as they were, nothing of the rings moved. -/
theorem Wing.sameHeads_of_eq {v w : Wing} (hsl : v.sl = w.sl) (hregs : v.regs = w.regs) (hpsg : v.psg = w.psg) : v.SameHeads w :=
  ⟨fun n => by simp only [Wing.slice, hsl], by simp only [Wing.ctr, hregs], fun r hr _ => hpsg ▸ hr⟩

theorem Wing.count_heads (w : Wing) {o : Nat} (ho : cCmdAdmitted ≠ o) : (w.count o).SameHeads w :=
  ⟨fun _ => rfl, Wing.ctr_count_ne w ho, fun _ h _ => h⟩

theorem Wing.modSlot_heads (w : Wing) (key : Word) (f : Slot → Slot) : (w.modSlot key f).SameHeads w := by
  unfold Wing.modSlot
  split
  · exact .refl w
  · exact Wing.sameHeads_of_eq rfl rfl rfl

theorem Wing.updCtx_heads (w : Wing) (key : Word) (t : Tick) (f : Ctx → Ctx) : (w.updCtx key t f).SameHeads w := w.modSlot_heads key _

theorem Wing.vecEffect_heads (w : Wing) (op : Byte) (key : Word) (operand : DWord) (t : Tick) :
    (w.vecEffect op key operand t).1.SameHeads w := by
  have hquar : ∀ q, ({ w with pan := { w.pan with quar := q } } : Wing).SameHeads w := fun _ => Wing.sameHeads_of_eq rfl rfl rfl
  have hresamp : ∀ (v : Wing) l, ({ v with vst := { v.vst with resamp := l } } : Wing).SameHeads v := fun _ _ =>
    Wing.sameHeads_of_eq rfl rfl rfl
  unfold Wing.vecEffect
  cases w.ctx? key with
  | none =>
      dsimp only
      split
      · exact hquar _
      · split
        · exact Wing.sameHeads_of_eq rfl rfl rfl
        · exact .refl w
  | some c =>
      dsimp only
      split
      · exact w.modSlot_heads key _
      · split
        · exact (Wing.updCtx_heads _ _ _ _).trans (hquar _)
        · split
          · exact .refl w
          · split
            · exact (hresamp _ _).trans (w.updCtx_heads key t _)
            · split
              · exact w.modSlot_heads key _
              · split
                · exact w.modSlot_heads key _
                · exact .refl w

theorem Wing.emitWrite_heads (w : Wing) (addr : DWord) (len : Nat) (data : BitVec 512) : (w.emitWrite addr len data).SameHeads w :=
  Wing.sameHeads_of_eq rfl rfl rfl

/-- What is written back goes by the write buffer, and counts. -/
theorem Wing.bufferWrite_heads (w : Wing) (l : List (Word × BitVec 256 × Tick)) (addr : DWord) (len : Nat) (data : BitVec 512) :
    (({ w with pan := { w.pan with wbuf := l } }.count cWriteback).emitWrite addr len data).SameHeads w :=
  (Wing.emitWrite_heads _ addr len data).trans ((Wing.count_heads (o := cWriteback) _ (by decide)).trans (Wing.sameHeads_of_eq rfl rfl rfl))

theorem Wing.writeInitial_heads (w : Wing) (key : Word) : (w.writeInitial key).SameHeads w := by
  unfold Wing.writeInitial
  split
  · exact .refl w
  · exact w.bufferWrite_heads _ _ _ _

theorem Wing.addFetch_tookReads (w : Wing) (key : Word) (c : FetchCause) : (w.addFetch key c).TookReads w := by
  unfold Wing.addFetch
  split
  · exact w.tookReads_of_lists _ w.ring.blockReads
  · exact (Wing.issueReads_tookReads _).trans (w.tookReads_of_lists _ w.ring.blockReads)

theorem Wing.fetchKey_heads (w : Wing) (key : Word) (cause : FetchCause) : (w.fetchKey key cause).SameHeads w := by
  unfold Wing.fetchKey
  split
  · exact .refl w
  · split
    · exact Wing.sameHeads_of_eq rfl rfl rfl
    · split
      · exact (Wing.count_heads (o := cBufHit) _ (by decide)).trans (Wing.sameHeads_of_eq rfl rfl rfl)
      · exact (w.addFetch_tookReads key cause).cmds.heads

theorem Wing.clean_heads (n : Nat) (w : Wing) : (Wing.clean n w).SameHeads w := by
  induction n generalizing w with
  | zero => exact .refl w
  | succ n ih =>
      unfold Wing.clean
      split
      · exact .refl w
      · split
        · exact .refl w
        next c _ =>
          have hwrite : ∀ v : Wing, (v.writeBack c).SameHeads v := fun v => v.bufferWrite_heads _ _ _ _
          exact (ih _).trans ((hwrite _).trans (w.modSlot_heads c.key _))

theorem Wing.askBlock_tookReads (w : Wing) (s : BitVec 12) : (w.askBlock s).TookReads w :=
  (Wing.useReads_tookReads _).trans (w.tookReads_of_lists w.pan.fetches _)

theorem Wing.startLong_heads (w : Wing) (ring : BitVec 12) (u : UCmd) : (w.startLong ring u).SameHeads w := by
  unfold Wing.startLong
  dsimp only
  split
  · exact w.writeInitial_heads _
  · split
    · exact w.fetchKey_heads _ _
    · split
      · exact Wing.clean_heads 64 w
      · split
        · exact (Wing.askBlock_tookReads _ _).cmds.heads.trans (w.modSlice_heads _ _ fun _ => rfl)
        · split
          · exact w.modSlice_heads _ _ fun _ => rfl
          · exact .refl w

/-- A record of the frame as the command finds it: its own FINISH takes its report. -/
def Wing.takesReport (w : Wing) (ring : BitVec 12) (u : UCmd) (r : Rec) : Rec :=
  match r with
  | .finish f => if isDoneOf ring u r then .finish (w.refreshFinish f) else r
  | r => r

/-- The frame with the report of a command taken. -/
def Wing.withReport (w : Wing) (ring : BitVec 12) (u : UCmd) : Wing :=
  { w with psg := { w.psg with defr := w.psg.defr.map (w.takesReport ring u) } }

/-- The command whose finish has taken effect. -/
def SliceSt.noteApplied (u : UCmd) (v : SliceSt) : SliceSt :=
  { v with ucmds := v.ucmds.map fun (x : UCmd) => if x.pos = u.pos then { x with applied := true } else x }

theorem Wing.withReport_heads (w : Wing) (ring : BitVec 12) (u : UCmd) : (w.withReport ring u).SameHeads w := by
  refine ⟨fun _ => rfl, rfl, fun r hr hf => List.mem_map.2 ⟨r, hr, ?_⟩⟩
  cases r with
  | finish f => exact absurd rfl (hf f)
  | _ => rfl

theorem Wing.applyFinished_heads (w : Wing) (ring : BitVec 12) (u : UCmd) (key : Word) : (w.applyFinished ring u key).SameHeads w := by
  have heffect := ((w.withReport ring u).vecEffect_heads u.opcode key u.operand w.now).trans (w.withReport_heads ring u)
  exact (Wing.modSlice_heads _ ring (SliceSt.noteApplied u) fun _ => rfl).trans heffect

theorem Wing.applyPlaced_heads (w : Wing) (key : Word) : (w.applyPlaced key).SameHeads w := by
  unfold Wing.applyPlaced
  refine Wing.SameHeads.foldl _ (fun v e => Wing.SameHeads.foldl _ (fun v u => ?_) _ v) _ w
  split
  · exact v.applyFinished_heads _ u key
  · exact .refl v

/-! ## An admission -/

/-- The wing as a command finds it: finishes in the frame take effect first. -/
def Wing.aheadOf (w : Wing) (ring : BitVec 12) (d : Desc) : Wing :=
  if isVecOp d.opcode then w.applyPlaced (cmdKey ring d.args.target) else w

theorem Wing.aheadOf_heads (w : Wing) (ring : BitVec 12) (d : Desc) : (w.aheadOf ring d).SameHeads w := by
  unfold Wing.aheadOf
  split
  · exact w.applyPlaced_heads _
  · exact .refl w

/-- The command is long: its checks pass, and it needs memory traffic or a wait. -/
def Wing.goesLong (w : Wing) (ring : BitVec 12) (d : Desc) : Bool := w.cmdCheck ring d == 0 && w.isLong ring d.opcode d.args.target

/-- The CMD record of a command. -/
def Wing.cmdRec (w : Wing) (ring : BitVec 12) (d : Desc) : CmdRec :=
  { opcode := d.opcode, result := w.cmdCheck ring d, nExt := BitVec.ofNat 2 (cmdRecords d - 1), long := w.goesLong ring d
    fence := d.args.fence, v2 := d.v2, target := d.args.target, operand := d.args.operand }

/-- A ring past the position `pos`. -/
def SliceSt.past (pos : Word) (v : SliceSt) : SliceSt :=
  { v with cmdHead := pos + 1, descs := v.descs.filter (·.1 != pos), cmdWait := false }

/-- The ring past the command, which is counted; its slice is under command. -/
def Wing.pastCmd (w : Wing) (ring : BitVec 12) (d : Desc) : Wing :=
  let w1 := (w.modSlice ring (SliceSt.past (w.slice ring).cmdHead)).count cCmdAdmitted
  { w1 with vst := { w1.vst with underCmd := w1.vst.underCmd ++ [cmdSlice ring d.args.target] } }

/-- The records of a command. -/
def Wing.cmdRecs (w : Wing) (ring : BitVec 12) (d : Desc) : List Rec :=
  [.cmd (w.cmdRec ring d), .cmdExt { part := 0, ring := ring, pos := (w.slice ring).cmdHead, data := d.args.cookie }] ++
    if cmdRecords d = 3 then [.cmdExt { part := 1, ring := 0, pos := 0, data := d.args.operand2 }] else []

/-- A long command that is unfinished. -/
def Wing.unfinished (w : Wing) (ring : BitVec 12) (d : Desc) : UCmd :=
  { pos := (w.slice ring).cmdHead, opcode := d.opcode, target := d.args.target, operand := d.args.operand
    operand2 := d.args.operand2, cookie := d.args.cookie, at_ := w.now, applied := false }

/-- The effect of a command that finishes at once, with its report. -/
def Wing.quickEffect (w : Wing) (ring : BitVec 12) (d : Desc) (result : Byte) (t : Tick) : Wing × Report :=
  let e := if result = 0 ∧ isVecOp d.opcode then w.vecEffect d.opcode (cmdKey ring d.args.target) d.args.operand t else (w, Report.zero)
  (if result = 0 ∧ d.opcode = opLetterPost then e.1.postInOrder (cmdSlice ring d.args.target) d.args.operand else e.1, e.2)

/-- A command that finishes at once. -/
def Wing.quickCmd (w : Wing) (ring : BitVec 12) (d : Desc) (result : Byte) (t : Tick) : Wing :=
  let r := w.quickEffect ring d result t
  (r.1.countFinished ring).recordDef ring (r.1.cmdRecord ring d.opcode d.args.target result r.2 d.args.cookie t)

theorem Wing.defer_cmdRecs (w v : Wing) (ring : BitVec 12) (d : Desc) :
    (if cmdRecords d = 3 then
      ((v.place (.cmd (w.cmdRec ring d))).place
        (.cmdExt { part := 0, ring := ring, pos := (w.slice ring).cmdHead, data := d.args.cookie })).place
          (.cmdExt { part := 1, ring := 0, pos := 0, data := d.args.operand2 })
      else (v.place (.cmd (w.cmdRec ring d))).place
        (.cmdExt { part := 0, ring := ring, pos := (w.slice ring).cmdHead, data := d.args.cookie })) =
      v.defer (w.cmdRecs ring d) := by
  unfold Wing.cmdRecs
  split
  · exact (Wing.defer_defer (v.defer [_]) [_] [_]).trans (Wing.defer_defer v [_] _)
  · rw [List.append_nil]
    exact Wing.defer_defer v [_] [_]

/-- A command that is admitted, as the wing stands with its records placed. -/
def Wing.startCmd (w : Wing) (ring : BitVec 12) (d : Desc) (long : Bool) (u : UCmd) (result : Byte) (t : Tick) : Wing :=
  if long then (w.modSlice ring fun x => { x with ucmds := x.ucmds ++ [u] }).startLong ring u else w.quickCmd ring d result t

/-- The wing with the records of a command placed. -/
def Wing.admitted (w : Wing) (ring : BitVec 12) (d : Desc) : Wing := (w.pastCmd ring d).defer (w.cmdRecs ring d)

theorem Wing.takeCmd_eq (w : Wing) (ring : BitVec 12) (d : Desc) :
    w.takeCmd ring d = ((w.aheadOf ring d).admitted ring d).startCmd ring d ((w.aheadOf ring d).goesLong ring d)
      ((w.aheadOf ring d).unfinished ring d) ((w.aheadOf ring d).cmdCheck ring d) (w.aheadOf ring d).now := by
  unfold Wing.takeCmd
  extract_lets a v pos result long key w1 vst1 w2 w3 w4 u e w5
  have hw4 : w4 = (w.aheadOf ring d).admitted ring d := v.defer_cmdRecs w2 ring d
  clear_value w4
  subst hw4
  rfl

/-! ## What an admission leaves of the rings -/

theorem Wing.defer_heads (w : Wing) (rs : List Rec) : (w.defer rs).SameHeads w :=
  ⟨fun _ => rfl, rfl, fun _ h _ => List.mem_append_left _ h⟩

theorem Wing.postInOrder_heads (w : Wing) (s : BitVec 12) (d : DWord) : (w.postInOrder s d).SameHeads w := by
  unfold Wing.postInOrder Wing.postLetter
  split
  · exact w.modSlice_heads s _ fun _ => rfl
  · exact w.modSlice_heads s _ fun _ => rfl

theorem Wing.quickEffect_heads (w : Wing) (ring : BitVec 12) (d : Desc) (result : Byte) (t : Tick) :
    (w.quickEffect ring d result t).1.SameHeads w := by
  unfold Wing.quickEffect
  extract_lets e
  have he : e.1.SameHeads w := by
    unfold e
    split
    · exact w.vecEffect_heads _ _ _ _
    · exact .refl w
  split
  · exact (Wing.postInOrder_heads _ _ _).trans he
  · exact he

theorem Wing.recordDef_heads (w : Wing) (s : BitVec 12) (r : BitVec 256) : (w.recordDef s r).SameHeads w :=
  Wing.sameHeads_of_eq rfl rfl rfl

theorem Wing.countFinished_heads (w : Wing) (ring : BitVec 12) : (w.countFinished ring).SameHeads w := w.modSlice_heads ring _ fun _ => rfl

theorem Wing.quickCmd_heads (w : Wing) (ring : BitVec 12) (d : Desc) (result : Byte) (t : Tick) : (w.quickCmd ring d result t).SameHeads w := by
  have heffect := w.quickEffect_heads ring d result t
  unfold Wing.quickCmd
  generalize w.quickEffect ring d result t = r at *
  exact (Wing.recordDef_heads _ ring _).trans ((Wing.countFinished_heads _ ring).trans heffect)

theorem Wing.startCmd_heads (w : Wing) (ring : BitVec 12) (d : Desc) (long : Bool) (u : UCmd) (result : Byte) (t : Tick) :
    (w.startCmd ring d long u result t).SameHeads w := by
  unfold Wing.startCmd
  split
  · exact (Wing.startLong_heads _ ring u).trans (w.modSlice_heads ring _ fun _ => rfl)
  · exact w.quickCmd_heads ring d result t

theorem Wing.admitted_spec (w : Wing) (ring : BitVec 12) (d : Desc) :
    ((w.admitted ring d).slice ring).heads =
      ((w.slice ring).cmdHead + 1, (w.slice ring).descs.filter (fun e => e.1 != (w.slice ring).cmdHead), (w.slice ring).failPos) ∧
    (∀ n, n ≠ ring → ((w.admitted ring d).slice n).heads = (w.slice n).heads) ∧
    (w.admitted ring d).ctr cCmdAdmitted = w.ctr cCmdAdmitted + 1 ∧ ∀ r ∈ w.cmdRecs ring d, r ∈ (w.admitted ring d).psg.defr := by
  have hsl : (w.admitted ring d).sl = (w.modSlice ring (SliceSt.past (w.slice ring).cmdHead)).sl := rfl
  have hregs : (w.admitted ring d).regs = ((w.modSlice ring (SliceSt.past (w.slice ring).cmdHead)).count cCmdAdmitted).regs := rfl
  refine ⟨?_, fun n hn => ?_, ?_, fun _ hr => List.mem_append_right _ hr⟩
  · rw [Wing.slice_of_sl hsl, Wing.slice_modSlice_self]
    rfl
  · rw [Wing.slice_of_sl hsl, Wing.slice_modSlice_ne _ _ hn]
  · rw [Wing.ctr_of_regs hregs, Wing.ctr_count_self]
    rfl

/-- The ring goes past the command, one admission is counted, and the command's records are in the frame. -/
theorem Wing.takeCmd_spec (w : Wing) (ring : BitVec 12) (d : Desc) :
    ((w.takeCmd ring d).slice ring).cmdHead = (w.slice ring).cmdHead + 1 ∧
    ((w.takeCmd ring d).slice ring).descs = (w.slice ring).descs.filter (fun e => e.1 != (w.slice ring).cmdHead) ∧
    ((w.takeCmd ring d).slice ring).failPos = (w.slice ring).failPos ∧
    (∀ n, n ≠ ring → ((w.takeCmd ring d).slice n).heads = (w.slice n).heads) ∧
    (w.takeCmd ring d).ctr cCmdAdmitted = w.ctr cCmdAdmitted + 1 ∧
    Rec.cmd ((w.aheadOf ring d).cmdRec ring d) ∈ (w.takeCmd ring d).psg.defr ∧
    Rec.cmdExt { part := 0, ring := ring, pos := (w.slice ring).cmdHead, data := d.args.cookie } ∈ (w.takeCmd ring d).psg.defr := by
  obtain ⟨hheads, hctr, -⟩ := w.aheadOf_heads ring d
  rw [w.takeCmd_eq ring d]
  generalize w.aheadOf ring d = v at hheads hctr
  obtain ⟨hheads', hctr', hdefr⟩ := (v.admitted ring d).startCmd_heads ring d (v.goesLong ring d) (v.unfinished ring d)
    (v.cmdCheck ring d) v.now
  generalize (v.admitted ring d).startCmd ring d (v.goesLong ring d) (v.unfinished ring d) (v.cmdCheck ring d) v.now = u at *
  obtain ⟨hown, hothers, hcount, hrecs⟩ := v.admitted_spec ring d
  have hring := (hheads' ring).trans hown
  simp only [SliceSt.heads, Prod.mk.injEq] at hring hheads
  obtain ⟨hhead, hdescs, hfail⟩ := hheads ring
  obtain ⟨hhead', hdescs', hfail'⟩ := hring
  refine ⟨hhead'.trans (by rw [hhead]), hdescs'.trans (by rw [hdescs, hhead]), hfail'.trans hfail,
    fun n hn => ((hheads' n).trans (hothers n hn)).trans ?_, (hctr'.trans hcount).trans (by rw [hctr]), ?_, ?_⟩
  · simp only [SliceSt.heads, Prod.mk.injEq]
    exact hheads n
  · exact hdefr _ (hrecs _ List.mem_cons_self) (fun f => by simp)
  · rw [← hhead]
    exact hdefr _ (hrecs _ (List.mem_cons_of_mem _ List.mem_cons_self)) (fun f => by simp)

/-! ## The output is no part of it -/

theorem Wing.vecEffect_silent (w : Wing) (op : Byte) (key : Word) (operand : DWord) (t : Tick) :
    (w.silent.vecEffect op key operand t).1 = (w.vecEffect op key operand t).1.silent := by
  have hslot : ∀ (v : Wing) (f : Slot → Slot), v.silent.modSlot key f = (v.modSlot key f).silent := fun v f => by
    unfold Wing.modSlot
    rw [show v.silent.slotFor key = v.slotFor key from rfl]
    cases v.slotFor key <;> rfl
  unfold Wing.vecEffect
  rw [show w.silent.ctx? key = w.ctx? key from rfl]
  cases w.ctx? key with
  | none =>
      dsimp only
      split
      · rfl
      · split <;> rfl
  | some c =>
      dsimp only
      split
      · exact hslot w _
      · split
        · exact hslot { w with pan := { w.pan with quar := w.pan.quar.filter (· != key) } } _
        · split
          · rfl
          · split
            · exact congrArg (fun v : Wing => { v with vst := { v.vst with resamp := v.vst.resamp ++ w.sourcesOf key } }) (hslot w _)
            · split
              · exact hslot w _
              · split
                · exact hslot w _
                · rfl

theorem Wing.applyFinished_silent (w : Wing) (ring : BitVec 12) (u : UCmd) (key : Word) :
    w.silent.applyFinished ring u key = (w.applyFinished ring u key).silent := by
  have heffect := (w.withReport ring u).vecEffect_silent u.opcode key u.operand w.now
  exact congrArg (fun v : Wing => v.modSlice ring (SliceSt.noteApplied u)) heffect

theorem Wing.applyPlaced_silent (w : Wing) (key : Word) : w.silent.applyPlaced key = (w.applyPlaced key).silent := by
  unfold Wing.applyPlaced
  refine List.foldl_hom Wing.silent fun v e => List.foldl_hom Wing.silent fun v u => ?_
  rw [apply_ite Wing.silent, ← v.applyFinished_silent]
  rfl

theorem Wing.cmdCheck_ahead (w : Wing) (ring : BitVec 12) (d : Desc) :
    (w.silent.aheadOf ring d).cmdCheck ring d = (w.aheadOf ring d).cmdCheck ring d := by
  have hsilent : ∀ v : Wing, v.silent.cmdCheck ring d = v.cmdCheck ring d := fun _ => rfl
  unfold Wing.aheadOf
  rw [w.applyPlaced_silent, ← apply_ite Wing.silent, hsilent]

/-- What follows the command leaves that. -/
theorem Wing.admission_spec (w : Wing) (ring : BitVec 12) (d : Desc) :
    (((w.takeCmd ring d).endCommand.silent).slice ring).cmdHead = (w.slice ring).cmdHead + 1 ∧
    ((w.takeCmd ring d).endCommand.silent).ctr cCmdAdmitted = w.ctr cCmdAdmitted + 1 ∧
    Rec.cmd ((w.aheadOf ring d).cmdRec ring d) ∈ ((w.takeCmd ring d).endCommand.silent).psg.defr ∧
    Rec.cmdExt { part := 0, ring := ring, pos := (w.slice ring).cmdHead, data := d.args.cookie } ∈
      ((w.takeCmd ring d).endCommand.silent).psg.defr := by
  obtain ⟨hhead, -, -, -, hctr, hcmd, hext⟩ := w.takeCmd_spec ring d
  obtain ⟨hheads, hctr', hdefr⟩ := (w.takeCmd ring d).endCommand_cmds.heads
  generalize (w.takeCmd ring d).endCommand = u at *
  have hring := hheads ring
  simp only [SliceSt.heads, Prod.mk.injEq] at hring
  exact ⟨hring.1.trans hhead, hctr'.trans hctr, hdefr _ hcmd (fun f => by simp), hdefr _ hext (fun f => by simp)⟩

end Sys2Proof.Machine

namespace Sys2Proof

open Machine

/-- A command that may be admitted is taken, with what follows it. -/
theorem Machine.Wing.command_taken {w : Wing} {ring : BitVec 12} {op : Byte} {a : CmdArgs}
    (h : w.mayAdmit ring { opcode := op, args := a, v2 := (w.slice ring).cmdVer }) :
    w.command ring op a = (w.takeCmd ring { opcode := op, args := a, v2 := (w.slice ring).cmdVer }).endCommand := by
  obtain ⟨htakes, hadmits, hmay, hletter, hdirty, hring, hroom⟩ := h
  unfold Wing.command Wing.turnFor
  simp only [htakes, hadmits, hmay, hletter, hdirty, hring, hroom, Bool.and_self, Bool.not_true, Bool.or_self, Bool.false_eq_true, if_true,
    if_false]
  rfl

theorem Machine.Wing.command_waits {w : Wing} {ring : BitVec 12} {op : Byte} {a : CmdArgs}
    (h : w.takesCmds = false ∨ (w.slice ring).admits = false ∨
      w.mayStart ring { opcode := op, args := a, v2 := (w.slice ring).cmdVer } = false) : w.command ring op a = w := by
  unfold Wing.command
  split
  next hcond =>
    rw [Bool.and_eq_true] at hcond
    have hmay := (h.resolve_left fun h => Bool.false_ne_true (h.symm.trans hcond.1)).resolve_left
      fun h => Bool.false_ne_true (h.symm.trans hcond.2)
    unfold Wing.turnFor
    simp only [hmay, Bool.not_false, Bool.true_or, if_true]
  · rfl

/-- Settles O34: a command that may start is taken, and what follows it leaves its ring and its records alone. -/
theorem commandsAreAdmitted : Obligations.CommandsAreAdmitted := by
  unfold Obligations.CommandsAreAdmitted
  intro s w ring a op i d v hi hd hv
  have hstep : StepsWing i s w fun v => v.command ring op a := by
    simp only [List.mem_cons, Prod.mk.injEq, List.not_mem_nil, or_false] at hi
    rcases hi with ⟨rfl, rfl⟩ | ⟨rfl, rfl⟩ | ⟨rfl, rfl⟩ | ⟨rfl, rfl⟩ | ⟨rfl, rfl⟩ | ⟨rfl, rfl⟩ | ⟨rfl, rfl⟩ | ⟨rfl, rfl⟩ | ⟨rfl, rfl⟩ |
      ⟨rfl, rfl⟩ | ⟨rfl, rfl⟩ | ⟨rfl, rfl⟩ | ⟨rfl, rfl⟩ | ⟨rfl, rfl⟩ | ⟨rfl, rfl⟩ <;> exact stepsWing rfl
  subst hd hv
  refine ⟨fun hadmit => ?_, fun hidle => ?_⟩
  · obtain ⟨d, hd⟩ : ∃ d : Desc, d = { opcode := op, args := a, v2 := ((s.wing w).slice ring).cmdVer } := ⟨_, rfl⟩
    obtain ⟨t, ht, honly, hwing, -⟩ := hstep.leaves (v := ((s.wing w).silent.takeCmd ring d).endCommand)
      (hd ▸ Wing.command_taken (w := (s.wing w).silent) hadmit)
    obtain ⟨hhead, hctr, hcmd, hext⟩ := (s.wing w).silent.admission_spec ring d
    rw [← hwing] at hhead hctr hcmd hext
    have hcheck := (s.wing w).cmdCheck_ahead ring d
    subst hd
    exact ⟨t, _, ht, honly, hhead, hctr, rfl, rfl, rfl, rfl, hcheck, hcmd, hext⟩
  · obtain ⟨t, ht, honly, -, hwing⟩ := hstep.stands (Wing.command_waits (w := (s.wing w).silent) hidle)
    exact ⟨t, ht, honly, hwing⟩

end Sys2Proof

end

section
/-! The vector commands on a vector in the pantry (R62, R71, R78, R83, R163). -/

namespace Sys2Proof.Machine

/-! ## A vector in its slot -/

theorem findKey_insert {key : Word} {m : SMap Slot} {n : Nat} {s s' : Slot} (h : findKey key m = some (n, s)) (hkey : s'.ctx.key = key) :
    findKey key (SMap.insert m n s') = some (n, s') := by
  induction m with
  | nil => exact nomatch h
  | cons e m ih =>
      obtain ⟨i, b⟩ := e
      have hfront : ∀ l, findKey key ((n, s') :: l) = some (n, s') := fun l => if_pos hkey
      unfold SMap.insert
      split
      · exact hfront _
      · split
        · exact hfront m
        next hne =>
          unfold findKey at h ⊢
          split at h
          · exact absurd (congrArg Prod.fst (Option.some.inj h)).symm hne
          next hother => rw [if_neg hother]; exact ih h

theorem Wing.modSlot_slotFor {w : Wing} {key : Word} {n : Nat} {s : Slot} (h : w.slotFor key = some (n, s)) {f : Slot → Slot}
    (hf : (f s).ctx.key = key) : (w.modSlot key f).slotFor key = some (n, f s) := by
  unfold Wing.slotFor
  rw [Wing.modSlot_slots w key f h]
  exact findKey_insert h hf

/-- The wing with a vector out of quarantine. -/
def Wing.unquarantine (w : Wing) (key : Word) : Wing := { w with pan := { w.pan with quar := w.pan.quar.filter (· != key) } }

theorem Wing.isQuarantined_release (w : Wing) (key : Word) (f : Slot → Slot) : ((w.unquarantine key).modSlot key f).isQuarantined key = false := by
  have hquar : ((w.unquarantine key).modSlot key f).pan.quar = w.pan.quar.filter (· != key) := by
    unfold Wing.modSlot
    split <;> rfl
  unfold Wing.isQuarantined
  rw [hquar]
  exact List.any_eq_false.2 fun x hx => by simpa using (List.mem_filter.1 hx).2

/-- A context but for what its changes note of the write-back. -/
def Ctx.settled (c : Ctx) : Ctx := { c with dirty := false, touched := 0, dirtyAt := 0, wbFresh := false }

theorem Ctx.changed_settled (a b : Ctx) (t : Tick) : (a.changed b t).settled = b.settled := by
  unfold Ctx.changed
  split <;> rfl

/-- What a command makes of a vector in the pantry. -/
def Wing.effectOn (w : Wing) (op : Byte) (operand : DWord) (t : Tick) (c : Ctx) : Ctx :=
  if op = opVecCfg then c.configure (loWord operand)
  else if op = opVecReset then c.reset
  else if op = opVecQuery then c
  else if op = opVecComplete then c.complete t (w.windowOf c)
  else if op = opPin then { c with pin := true }
  else if op = opUnpin then { c with pin := false }
  else c

/-- The vector keeps its slot, and takes the command's effect there. -/
theorem Wing.vecEffect_slot {w : Wing} {key : Word} {n : Nat} {s : Slot} (h : w.slotFor key = some (n, s)) (op : Byte) (operand : DWord)
    (t : Tick) :
    (∃ s', (w.vecEffect op key operand t).1.slotFor key = some (n, s') ∧ s'.ctx.settled = (w.effectOn op operand t s.ctx).settled) ∧
    (op = opVecReset → (w.vecEffect op key operand t).1.isQuarantined key = false) := by
  have hctx := w.ctx?_of_slotFor h
  have hkey : s.ctx.key = key := findKey_key h
  have hmod : ∀ (v : Wing), v.pan.slots = w.pan.slots → ∀ f : Slot → Slot, (f s).ctx.key = key →
      (v.modSlot key f).slotFor key = some (n, f s) := fun v hv f hf =>
    Wing.modSlot_slotFor (by unfold Wing.slotFor; rw [hv]; exact h) hf
  unfold Wing.vecEffect Wing.effectOn
  rw [hctx]
  by_cases hcfg : op = opVecCfg
  · subst hcfg
    exact ⟨⟨_, hmod w rfl _ ((Ctx.changed_keeps _ _ _).1.trans hkey), Ctx.changed_settled _ _ _⟩, fun h => absurd h (by decide)⟩
  by_cases hreset : op = opVecReset
  · subst hreset
    have hslot := hmod (w.unquarantine key) rfl (fun s => { s with ctx := s.ctx.changed s.ctx.reset t }) ((Ctx.changed_keeps _ _ _).1.trans hkey)
    have hfree := w.isQuarantined_release key fun s => { s with ctx := s.ctx.changed s.ctx.reset t }
    have heffect : (w.unquarantine key).modSlot key (fun s => { s with ctx := s.ctx.changed s.ctx.reset t }) =
        (w.unquarantine key).updCtx key t Ctx.reset := rfl
    rw [heffect] at hslot hfree
    exact ⟨⟨_, hslot, Ctx.changed_settled _ _ _⟩, fun _ => hfree⟩
  simp only [if_neg hcfg, if_neg hreset]
  refine ⟨?_, fun h => absurd h hreset⟩
  by_cases hquery : op = opVecQuery
  · simp only [if_pos hquery]
    exact ⟨s, h, rfl⟩
  simp only [if_neg hquery]
  by_cases hcomplete : op = opVecComplete
  · simp only [if_pos hcomplete]
    exact ⟨_, hmod w rfl _ ((Ctx.changed_keeps _ _ _).1.trans hkey), Ctx.changed_settled _ _ _⟩
  simp only [if_neg hcomplete]
  by_cases hpin : op = opPin
  · simp only [if_pos hpin]
    exact ⟨_, hmod w rfl (fun s => { s with ctx := { s.ctx with pin := true } }) hkey, rfl⟩
  simp only [if_neg hpin]
  by_cases hunpin : op = opUnpin
  · simp only [if_pos hunpin]
    exact ⟨_, hmod w rfl (fun s => { s with ctx := { s.ctx with pin := false } }) hkey, rfl⟩
  simp only [if_neg hunpin]
  exact ⟨s, h, rfl⟩

/-! ## The command -/

theorem Wing.slotFor_silent (w : Wing) (key : Word) : w.silent.slotFor key = w.slotFor key := rfl

theorem Wing.isQuarantined_silent (w : Wing) (key : Word) : w.silent.isQuarantined key = w.isQuarantined key := rfl

/-- A command on a vector in the pantry needs no memory traffic. -/
theorem Wing.isLong_of_resident {w : Wing} {ring : BitVec 12} {op : Byte} {target : Word} (h : w.resident (cmdKey ring target) = true)
    (hop : (op == opFlush || (isSliceOp op && op != opResume)) = false) : w.isLong ring op target = false := by
  unfold Wing.isLong
  rw [h, hop]
  exact ite_self _

/-- The MOD_LIMIT of a CFG word, and the window within it. -/
theorem configure_eq (operand : DWord) (c : Ctx) :
    c.configure (loWord operand) = { c with
      cfg := operand.extractLsb' 0 32
      modWin := if (operand.extractLsb' 20 7 : BitVec 7).toNat < c.modWin.toNat then operand.extractLsb' 20 7 else c.modWin } := by
  have hlimit : cfgModLimit (loWord operand) = operand.extractLsb' 20 7 := by
    unfold cfgModLimit loWord
    refine BitVec.eq_of_getLsbD_eq fun i hi => ?_
    simp only [BitVec.getLsbD_extractLsb', hi, show 20 + i < 32 by omega, decide_true, Bool.true_and, Nat.zero_add]
  unfold Ctx.configure Ctx.capWin
  simp only [hlimit]
  rfl

/-- With no finish in the frame nothing takes effect ahead of a command. -/
theorem Wing.applyPlaced_of_no_finish {w : Wing} (h : ∀ f, Rec.finish f ∉ w.psg.defr) (key : Word) : w.applyPlaced key = w := by
  have hnone : ∀ (ring : BitVec 12) (u : UCmd), w.psg.defr.any (isDoneOf ring u) = false := fun ring u =>
    List.any_eq_false.2 fun r hr => by
      cases r with
      | finish f => exact absurd hr (h f)
      | _ => exact Bool.false_ne_true
  exact foldl_stands fun e _ => foldl_stands fun u _ => by simp [hnone]

/-- A vector command that finishes at once, as it leaves the vectors. -/
theorem Wing.quickCmd_vector {w : Wing} {ring : BitVec 12} {d : Desc} {n : Nat} {s : Slot} (hvec : isVecOp d.opcode = true)
    (hnot : d.opcode ≠ opLetterPost) (h : w.slotFor (cmdKey ring d.args.target) = some (n, s)) (t : Tick) :
    (∃ s', (w.quickCmd ring d 0 t).slotFor (cmdKey ring d.args.target) = some (n, s') ∧
      s'.ctx.settled = (w.effectOn d.opcode d.args.operand t s.ctx).settled) ∧
    (d.opcode = opVecReset → (w.quickCmd ring d 0 t).isQuarantined (cmdKey ring d.args.target) = false) := by
  have heffect : (w.quickEffect ring d 0 t).1 = (w.vecEffect d.opcode (cmdKey ring d.args.target) d.args.operand t).1 := by
    unfold Wing.quickEffect
    simp only [hvec, hnot, and_false, and_true, if_true, if_false]
  have hpan : (w.quickCmd ring d 0 t).pan = (w.vecEffect d.opcode (cmdKey ring d.args.target) d.args.operand t).1.pan := by
    rw [← heffect]
    rfl
  have hspec := Wing.vecEffect_slot h d.opcode d.args.operand t
  unfold Wing.slotFor Wing.isQuarantined at hspec ⊢
  rw [hpan]
  exact hspec

theorem Wing.effectOn_of_routes {v w : Wing} (h : v.regs.eff = w.regs.eff) (hgen : v.portGen = w.portGen)
    (hroutes : v.pan.routes = w.pan.routes) (op : Byte) (operand : DWord) (t : Tick) (c : Ctx) :
    v.effectOn op operand t c = w.effectOn op operand t c := by
  have hroute : v.isRoute c.key = w.isRoute c.key := by simp only [Wing.isRoute, Wing.route, Wing.effW, h, hgen, hroutes]
  simp only [Wing.effectOn, Wing.windowOf, hroute]

theorem Wing.admitted_keeps (w : Wing) (ring : BitVec 12) (d : Desc) :
    (w.admitted ring d).portGen = w.portGen ∧ (w.admitted ring d).pan = w.pan ∧ (w.admitted ring d).regs.eff = w.regs.eff := by
  have hregs : (w.pastCmd ring d).regs.eff = w.regs.eff := by
    simp [Wing.pastCmd, Wing.count, Wing.countN, Wing.setCtr]
  exact ⟨by simp [Wing.admitted, Wing.defer, Wing.pastCmd], by simp [Wing.admitted, Wing.defer, Wing.pastCmd], hregs⟩

theorem Wing.takeCmd_vector {w : Wing} {ring : BitVec 12} {d : Desc} {n : Nat} {s : Slot} (hvec : isVecOp d.opcode = true)
    (hnot : d.opcode ≠ opLetterPost) (hlong : w.isLong ring d.opcode d.args.target = false) (hcheck : w.cmdCheck ring d = 0)
    (hfin : ∀ f, Rec.finish f ∉ w.psg.defr) (h : w.slotFor (cmdKey ring d.args.target) = some (n, s)) :
    (∃ s', (w.takeCmd ring d).endCommand.slotFor (cmdKey ring d.args.target) = some (n, s') ∧
      s'.ctx.settled = (w.effectOn d.opcode d.args.operand w.now s.ctx).settled) ∧
    (d.opcode = opVecReset → (w.takeCmd ring d).endCommand.isQuarantined (cmdKey ring d.args.target) = false) := by
  have hahead : w.aheadOf ring d = w := by
    unfold Wing.aheadOf
    rw [Wing.applyPlaced_of_no_finish hfin, ite_self]
  have hquick : w.takeCmd ring d = (w.admitted ring d).quickCmd ring d 0 w.now := by
    have hgoes : w.goesLong ring d = false := by rw [Wing.goesLong, hlong, Bool.and_false]
    rw [w.takeCmd_eq, hahead, hgoes, hcheck]
    rfl
  obtain ⟨hgen, hpan, heff⟩ := w.admitted_keeps ring d
  have hslot : (w.admitted ring d).slotFor (cmdKey ring d.args.target) = some (n, s) := by
    rw [← h]
    exact congrArg (fun p : Pantry => findKey _ p.slots) hpan
  have hspec := Wing.quickCmd_vector hvec hnot hslot w.now
  rw [← hquick, Wing.effectOn_of_routes heff hgen (congrArg Pantry.routes hpan)] at hspec
  obtain ⟨-, hslots, hquar, -⟩ := (w.takeCmd ring d).endCommand_cmds
  unfold Wing.slotFor Wing.isQuarantined at hspec ⊢
  rw [hslots, hquar]
  exact hspec

end Sys2Proof.Machine

namespace Sys2Proof

open Machine

/-- Settles O35: each of these commands finishes at once on a vector in the pantry, and nothing that follows it moves a vector. -/
theorem vectorCommandsChangeTheVector : Obligations.VectorCommandsChangeTheVector := by
  unfold Obligations.VectorCommandsChangeTheVector
  intro s w ring a n sl hslot hfin op i f hi hadmit hcheck
  have hres : (s.wing w).resident (cmdKey ring a.target) = true := by
    rw [Wing.resident, Wing.ctx?_of_slotFor _ hslot]
    rfl
  have hstep : StepsWing i s w (fun v => v.command ring op a) ∧ isVecOp op = true ∧ op ≠ opLetterPost ∧
      (s.wing w).isLong ring op a.target = false ∧ ((s.wing w).effectOn op a.operand (s.wing w).now sl.ctx) = f sl.ctx := by
    simp only [List.mem_cons, Prod.mk.injEq, List.not_mem_nil, or_false] at hi
    rcases hi with ⟨rfl, rfl, rfl⟩ | ⟨rfl, rfl, rfl⟩ | ⟨rfl, rfl, rfl⟩ | ⟨rfl, rfl, rfl⟩ | ⟨rfl, rfl, rfl⟩ | ⟨rfl, rfl, rfl⟩
    · exact ⟨stepsWing rfl, by decide, by decide, Wing.isLong_of_resident hres (by decide), configure_eq a.operand sl.ctx⟩
    · exact ⟨stepsWing rfl, by decide, by decide, Wing.isLong_of_resident hres (by decide), rfl⟩
    · exact ⟨stepsWing rfl, by decide, by decide, Wing.isLong_of_resident hres (by decide), rfl⟩
    · exact ⟨stepsWing rfl, by decide, by decide, Wing.isLong_of_resident hres (by decide), rfl⟩
    · exact ⟨stepsWing rfl, by decide, by decide, Wing.isLong_of_resident hres (by decide), rfl⟩
    · exact ⟨stepsWing rfl, by decide, by decide, Wing.isLong_of_resident hres (by decide), rfl⟩
  obtain ⟨hstep, hvec, hnot, hlong, heffect⟩ := hstep
  obtain ⟨t, ht, honly, hwing, -⟩ := hstep.leaves (Wing.command_taken (w := (s.wing w).silent) hadmit)
  obtain ⟨⟨sl', hslot', hsettled⟩, hreset⟩ := Wing.takeCmd_vector (w := (s.wing w).silent) (ring := ring)
    (d := { opcode := op, args := a, v2 := ((s.wing w).silent.slice ring).cmdVer }) hvec hnot hlong hcheck hfin hslot
  rw [← Wing.slotFor_silent, ← hwing] at hslot'
  rw [← Wing.isQuarantined_silent, ← hwing] at hreset
  exact ⟨t, sl', ht, honly, hslot', hsettled.trans (congrArg Ctx.settled heffect), hreset⟩

end Sys2Proof
end

section
/-! The manager's commands (R183, R191): the counterexample to their statement. -/

namespace Sys2Proof.Machine

/-! ## A slice map out of order

`SMap.insert` puts a changed slice ahead of the first slice with a greater index, so a map that is not in its canonical form comes to
list a slice twice when the slice changes. The reads outstanding are summed over the list: a slice with 100 descriptor reads in flight
counts 200 then, no read of the memory port is free, and SLICE_CREATE begins without reading its block. -/

/-- A slice that runs, with room in its event ring. -/
def roomySlice : SliceSt := { SliceSt.reset with state := .running, evtLog2 := 10 }

/-- 100 descriptor reads in flight. -/
def manyReads : List DescRead := List.replicate 100 { first := 0, count := 1, retried := false }

/-- An active wing whose slices 1 and 0 are listed in that order. -/
def disordered : Wing :=
  { Wing.reset .east with
    life := .run
    ctl := { (Wing.reset .east).ctl with role := .active }
    sl := [(1, roomySlice), (0, { roomySlice with descReads := manyReads })] }

/-- SLICE_CREATE of slice 2. -/
def createTwo : CmdArgs := { fence := false, flags := 0, rsv := 0, target := mkKey 2 0, operand := 0, operand2 := 0, cookie := 0 }

def createDesc : Desc := { opcode := opCreate, args := createTwo, v2 := (disordered.slice 0).cmdVer }

theorem disordered_admits :
    disordered.takesCmds = true ∧ (disordered.slice 0).admits = true ∧ disordered.mayStart 0 createDesc = true ∧
    disordered.letterHold 0 createDesc = false ∧ disordered.dirtyHold 0 createDesc = false ∧ disordered.ringRoom 0 1 = true ∧
    disordered.roomDeferred (cmdRecords createDesc) = true := by decide +kernel

theorem disordered_check : disordered.cmdCheck 0 createDesc = 0 := by decide +kernel

/-- With 100 reads in flight a read is free, and nothing else waits for one. -/
theorem disordered_free :
    disordered.pan.fetches = [] ∧ disordered.ring.blockReads = [] ∧ (∀ e ∈ disordered.sl, e.2.job = none) ∧
    (disordered.slice 0).ucmds = [] ∧ disordered.finishing 0 (disordered.slice 0).cmdHead = false ∧ disordered.readsOut < 128 := by
  decide +kernel

/-- The command is admitted, and no read goes out. -/
theorem disordered_drives_nothing : (disordered.command 0 opCreate createTwo).out = [] := by decide +kernel

end Sys2Proof.Machine

namespace Sys2Proof

open Machine

/-- Refutes O36: the slices of `disordered` are not listed in the order of their numbers, so the reads in flight for slice 0 are counted
twice once SLICE_CREATE has changed it, and its block is not read. -/
theorem not_managerCommandsAndDescriptors : ¬ Obligations.ManagerCommandsAndDescriptors := by
  unfold Obligations.ManagerCommandsAndDescriptors
  rintro ⟨hmanager, -⟩
  obtain ⟨hlong, -⟩ := hmanager { State.reset with east := disordered } .east createTwo
    (fun op => { opcode := op, args := createTwo, v2 := (disordered.slice 0).cmdVer }) fun _ => rfl
  obtain ⟨t, u, ht, -, hpos, -, -, -, -, hcreate, -⟩ :=
    hlong opCreate (.sliceCreate .east 0 createTwo) (by simp [opCreate]) disordered_admits disordered_check
  obtain ⟨hfetches, hblocks, hjobs, hucmds, hfin, hfree⟩ := disordered_free
  have hpos' : u.pos = (disordered.slice 0).cmdHead := hpos
  obtain ⟨tag, htag⟩ := (hcreate (.inl rfl)).2 hfetches hblocks hjobs (fun x hx => by
    rw [show ((({ State.reset with east := disordered } : State).wing .east).slice 0).ucmds = [] from hucmds] at hx
    exact nomatch hx) (hpos' ▸ hfin) hfree
  obtain ⟨t', ht', -, -, hout⟩ := (stepsWing rfl : StepsWing (.sliceCreate .east 0 createTwo) { State.reset with east := disordered } .east
    fun v => v.command 0 opCreate createTwo)
  have hsame : t = t' := Host.Outcome.next.inj (ht.symm.trans ht')
  rw [hsame, hout, show (({ State.reset with east := disordered } : State).wing .east).silent = disordered from rfl,
    disordered_drives_nothing] at htag
  exact nomatch htag

end Sys2Proof
end

section
/-! How an observation is registered (R42, R46), and the writes at the aperture (R28 to R35, R55, R300, R404). -/

namespace Sys2Proof.Machine

/-! ## Registration -/

/-- Registration is admission, or staging, in the wing whose origin has taken its sequence. -/
theorem Wing.registerAt_around (w : Wing) (t : Tick) (o : Obs) :
    (w.registerAt t o).SameAround
      ((w.setSeq (originIx o.cls o.num) (w.seqOf (originIx o.cls o.num) + 1)).count cRegistered) := by
  unfold Wing.registerAt
  extract_lets i q o1 w1 w2
  exact .ite (w1.admitNew_around o1) ((w2.stage_around o1).trans (.ite (w1.fetchFor_around o1 .observed) (.refl w1)))

/-- R42, R46: one observation takes the next sequence of its origin, and no other origin's. -/
theorem Wing.register_seqs (w : Wing) (o : Obs) {i : Nat} (hi : originIx o.cls o.num = i) :
    (w.register o).seqOf i = w.seqOf i + 1 ∧ ∀ j, j ≠ i → (w.register o).seqOf j = w.seqOf j := by
  obtain ⟨-, -, -, -, hseqs, -⟩ := w.registerAt_around w.now o
  subst hi
  have hset : (w.register o).vst.seqs =
      SMap.set w.vst.seqs 0 (originIx o.cls o.num) (w.seqOf (originIx o.cls o.num) + 1) := hseqs
  unfold Wing.seqOf
  rw [hset]
  exact ⟨SMap.get_set_self .., fun j hj => SMap.get_set_ne _ _ _ hj⟩

/-- What a registration keeps of the pins, and of what the wing drives. -/
theorem Wing.register_pins (w : Wing) (o : Obs) :
    (w.register o).vst.levels = w.vst.levels ∧ (w.register o).vst.raws = w.vst.raws ∧ w.out <+: (w.register o).out := by
  obtain ⟨-, -, -, -, -, hlevels, hraws, -, -, hout⟩ := w.registerAt_around w.now o
  exact ⟨hlevels, hraws, hout⟩

/-! ## Wakes -/

/-- A wing that sleeps, or is on its way to sleep. -/
def Life.sleeps (l : Life) : Prop := l = .nap ∨ l = .napEntry ∨ l = .deepEntry

/-- R301: behind a wake source the exit of a wing that sleeps is named, or the wake is kept. -/
theorem Wing.wake_wakes {w : Wing} (h : w.life.sleeps) (c : WakeCause) :
    (w.wake c).pwr.sched.isSome = true ∨ (w.wake c).pwr.pendWake.isSome = true := by
  have hkeep (during : Bool) : (w.keepWake during c).pwr.pendWake.isSome = true := by
    unfold Wing.keepWake
    split
    · cases during <;> rfl
    · next hpend => exact Option.isSome_iff_ne_none.2 fun e => hpend (by rw [e]; rfl)
  cases hsched : w.pwr.sched with
  | some x => exact .inl (by rw [Wing.wake_stands c (.inl (by simp [hsched])), hsched]; rfl)
  | none =>
    rcases h with h | h | h
    · obtain ⟨hexit, hpend⟩ := Wing.wake_in_nap (c := c) hsched h
      by_cases hrole : w.ctl.role = .standby ∧ c.source ≠ 0x9
      · exact .inr (hpend hrole.1 hrole.2 ▸ hkeep false)
      · have hwake : w.wake c = w.scheduleExit c false := by
          simp only [Wing.wake, hsched, h, if_neg hrole, Option.isSome_none, Bool.false_eq_true, ↓reduceIte]
        obtain ⟨-, -, hpwr⟩ := w.scheduleExit_spec c
        exact .inl (by rw [hwake, hpwr]; rfl)
    · exact .inr (Wing.wake_in_entry hsched (.inl h) ▸ hkeep true)
    · exact .inr (Wing.wake_in_entry hsched (.inr h) ▸ hkeep true)

/-! ## Writes -/

/-- The four commands that a write comes as. -/
def writeInstrs (w : WingId) (a : AptWrite) : List Instr :=
  [.nativeMessage w a, .msiWrite w a, .commandDoorbell w a, .letterboxDoorbell w a]

theorem Wing.byRange_eq (w : Wing) (a : AptWrite) (r : AptRange) (act : Wing → AptWrite → Wing)
    (h : AptRange.of a.pageOff = r → ∀ v : Wing, v.handleWrite a = act v a) : w.byRange a r act = w.takeWrite a Wing.handleWrite := by
  unfold Wing.byRange
  split
  · next hr => simp only [Wing.takeWrite, h hr]
  · rfl

/-- R28: whichever command a write comes as, the range that it starts in decides. -/
theorem stepsWing_write (s : State) {w : WingId} {a : AptWrite} {i : Instr} (h : i ∈ writeInstrs w a) :
    StepsWing i s w fun v => v.takeWrite a Wing.handleWrite := by
  simp only [writeInstrs, List.mem_cons, List.not_mem_nil, or_false] at h
  rcases h with rfl | rfl | rfl | rfl
  · exact (stepsWing (f := fun v => v.byRange a .native Wing.doNative) rfl).congr
      (Wing.byRange_eq _ a _ _ fun hr v => by simp only [Wing.handleWrite, hr])
  · exact (stepsWing (f := fun v => v.byRange a .msi Wing.doMsi) rfl).congr
      (Wing.byRange_eq _ a _ _ fun hr v => by simp only [Wing.handleWrite, hr])
  · exact (stepsWing (f := fun v => v.byRange a .cmd Wing.doCmdDoorbell) rfl).congr
      (Wing.byRange_eq _ a _ _ fun hr v => by simp only [Wing.handleWrite, hr])
  · exact (stepsWing (f := fun v => v.byRange a .letter Wing.doLetter) rfl).congr
      (Wing.byRange_eq _ a _ _ fun hr v => by simp only [Wing.handleWrite, hr])

/-- R399: the pulses of a write that passes the vestibule at once. -/
def Wing.pulsed (w : Wing) : Wing := (w.emit (.aptTaken w.id)).emit (.aptCredit w.id)

/-- A write that finds the buffer of a running wing empty, and no full spill ring before it, goes at once. -/
theorem Wing.takeWrite_passes {w : Wing} {a : AptWrite} (act : Wing → AptWrite → Wing) (hrun : w.running = true)
    (hin : w.vst.inbuf = []) (hspill : isArrivalWrite a = true → w.spillFull a.slice = false) :
    w.takeWrite a act = act w.pulsed a := by
  have hlife : w.life = .run := by simpa [Wing.running] using hrun
  have hblocks : w.blocks a = false := by
    cases harr : isArrivalWrite a with
    | false => simp [Wing.blocks, hrun, harr]
    | true => simp [Wing.blocks, hrun, hspill harr]
  simp [Wing.takeWrite, Wing.aptLive, Wing.pulsed, hlife, hin, hblocks]

/-- The first check that a write fails in the range that it starts in (R31, R33, R35). -/
def Wing.writeCheck (w : Wing) (a : AptWrite) : Option Nat :=
  match AptRange.of a.pageOff with
  | .native => nativeCheck a
  | .msi => msiCheck a
  | .cmd => w.doorbellCheck a 0x200
  | .letter => w.doorbellCheck a 0x300
  | .none => some rjAddr

theorem Wing.writeCheck_pulsed (w : Wing) (a : AptWrite) : w.silent.pulsed.writeCheck a = w.writeCheck a := by
  unfold Wing.writeCheck Wing.doorbellCheck
  rfl

/-- R28: a write that is discarded is counted, and logged with its reason if the log is free. -/
theorem Wing.reject_pulsed (w : Wing) (r : Nat) (a : AptWrite) :
    (w.silent.pulsed.reject r (aptRejectEntry a)).out = [.aptTaken w.id, .aptCredit w.id] ∧
      (w.silent.pulsed.reject r (aptRejectEntry a)).silent = { w.count (cReject r) with
        regs := { (w.count (cReject r)).regs with
          vstRejectLog := logFirst w.regs.vstRejectLog (aptRejectEntry a (BitVec.ofNat 4 r)) }
        out := [] } := by
  unfold Wing.reject Wing.pulsed Wing.emit Wing.silent Wing.count
  exact ⟨rfl, rfl⟩

theorem Wing.handleWrite_of_fails {w : Wing} {a : AptWrite} {r : Nat} (h : w.writeCheck a = some r) :
    w.handleWrite a = w.reject r (aptRejectEntry a) := by
  unfold Wing.writeCheck at h
  unfold Wing.handleWrite
  split at h
  next hr => simp only [hr, Wing.doNative, h]
  next hr => simp only [hr, Wing.doMsi, h]
  next hr => simp only [hr, Wing.doCmdDoorbell, h]
  next hr => simp only [hr, Wing.doLetter, h]
  next hr =>
    cases h
    simp only [hr]

/-- A message or MSI data that passes is registered as an observation of its page's slice. -/
theorem Wing.handleWrite_of_passes {w : Wing} {a : AptWrite} (h : w.writeCheck a = none) (harr : isArrivalWrite a = true) :
    ∃ o : Obs, w.handleWrite a = w.register o ∧ originIx o.cls o.num = a.slice.toNat := by
  unfold Wing.writeCheck at h
  unfold isArrivalWrite at harr
  unfold Wing.handleWrite
  split at h
  next hr => exact ⟨nativeObs a, by simp only [hr, Wing.doNative, h], rfl⟩
  next hr => exact ⟨msiObs a, by simp only [hr, Wing.doMsi, h], rfl⟩
  next hr => simp [hr] at harr
  next hr => simp [hr] at harr
  next hr => cases h

/-- The write waits at the end of the buffer; `room` says that it has entered the 512 places. -/
def Wing.queued (w : Wing) (a : AptWrite) (room : Bool) : Wing :=
  { w with vst := { w.vst with inbuf := w.vst.inbuf ++ [(a, room)] } }

/-- The wing whose buffer the write has joined, with the pulse that it drives. -/
theorem Wing.queued_silent (w : Wing) (a : AptWrite) (room : Bool) :
    (if room then (w.silent.queued a room).emit (.aptTaken w.id) else w.silent.queued a room).out =
        (if room then [.aptTaken w.id] else []) ∧
      (if room then (w.silent.queued a room).emit (.aptTaken w.id) else w.silent.queued a room).silent =
        { w with vst := { w.vst with inbuf := w.vst.inbuf ++ [(a, room)] }, out := [] } := by
  cases room <;> exact ⟨rfl, rfl⟩

/-- R55: a write that finds others before it waits behind them, and APT_TAKEN pulses while there is room. -/
theorem Wing.takeWrite_waits {w : Wing} {a : AptWrite} (act : Wing → AptWrite → Wing) (hrun : w.running = true)
    (hin : w.vst.inbuf ≠ []) {room : Bool} (hroom : room = decide (w.vst.inbuf.length < 512)) :
    w.takeWrite a act = if room then (w.queued a room).emit (.aptTaken w.id) else w.queued a room := by
  have hlife : w.life = .run := by simpa [Wing.running] using hrun
  have hroom' : (w.running && decide (w.vst.inbuf.length < 512)) = room := by rw [hrun, hroom]; rfl
  unfold Wing.takeWrite
  rw [if_neg (by simp [Wing.aptLive, hlife]), if_pos (by simp [hin])]
  simp only [hroom', if_neg hin]
  change (if room = true then (w.queued a room).emit (.aptTaken w.id) else (w.queued a room).wake _) = _
  rw [Wing.wake_of_running (w := w.queued a room) hrun]

/-- R300, R404: a write that a sleeping wing refuses waits, and wakes it. -/
theorem Wing.takeWrite_wakes {w : Wing} {a : AptWrite} (act : Wing → AptWrite → Wing) (hlive : w.aptLive = true)
    (hrun : w.running = false) :
    w.takeWrite a act = (w.queued a false).wake { source := 0x2, detail := a.slice } := by
  have hroom : (w.running && decide (w.vst.inbuf.length < 512)) = false := by rw [hrun]; rfl
  have hstall : (w.queued a false).noteStall a = w.queued a false := if_neg (by
    rw [show (w.queued a false).running = false from hrun]; exact Bool.false_ne_true)
  unfold Wing.takeWrite
  rw [if_neg (by simp [hlive]), if_pos (by simp [Wing.blocks, hrun])]
  simp only [hroom, Bool.false_eq_true, ↓reduceIte]
  change (if w.vst.inbuf = [] then (w.queued a false).noteStall a else w.queued a false).wake _ = _
  rw [hstall, ite_self]

theorem Wing.sleeps_of_live {w : Wing} (hlive : w.aptLive = true) (hrun : w.running = false) : w.life.sleeps := by
  unfold Life.sleeps
  cases hlife : w.life <;> simp [Wing.aptLive, Wing.running, hlife] at hlive hrun ⊢

end Sys2Proof.Machine

namespace Sys2Proof

open Machine

/-- Settles O19: a write that goes at once is judged in the wing with its two pulses, and registration takes one sequence. -/
theorem apertureWritesRegister : Obligations.ApertureWritesRegister := by
  unfold Obligations.ApertureWritesRegister
  refine ⟨?_, ?_⟩
  · rintro s w a i check hrun hin hspill hi hcheck
    have hcheck' : (s.wing w).silent.pulsed.writeCheck a = check := (Wing.writeCheck_pulsed _ a).trans hcheck.symm
    have hpass := Wing.takeWrite_passes (w := (s.wing w).silent) Wing.handleWrite hrun hin hspill
    refine ⟨fun r hr => ?_, fun hnone harr => ?_⟩
    · obtain ⟨t, ht, honly, hwing, hout⟩ := (stepsWing_write s hi).leaves
        (hpass.trans (Wing.handleWrite_of_fails (w := (s.wing w).silent.pulsed) (hcheck'.trans hr)))
      obtain ⟨kout, kwing⟩ := (s.wing w).reject_pulsed r a
      exact ⟨t, ht, honly, hout.trans kout, hwing.trans kwing⟩
    · obtain ⟨o, heq, horigin⟩ := Wing.handleWrite_of_passes (w := (s.wing w).silent.pulsed) (hcheck'.trans hnone) harr
      obtain ⟨t, ht, honly, hwing, hout⟩ := (stepsWing_write s hi).leaves (hpass.trans heq)
      obtain ⟨hself, hothers⟩ := (s.wing w).silent.pulsed.register_seqs o horigin
      obtain ⟨-, -, hprefix⟩ := (s.wing w).silent.pulsed.register_pins o
      refine ⟨t, ht, honly, ?_, ?_, fun j hj => ?_⟩
      · rw [hout]
        exact hprefix.subset List.mem_cons_self
      · rw [hwing]
        exact hself
      · rw [hwing]
        exact hothers j hj
  · rintro s w a i hi
    refine ⟨fun hdead => ?_, fun hrun hin => ?_, fun hlive hrun => ?_⟩
    · obtain ⟨t, ht, honly, hout, hwing⟩ := (stepsWing_write s hi).stands (if_pos (by
        show (!(s.wing w).aptLive) = true
        rw [hdead]; rfl))
      exact ⟨t, ht, honly, hout, hwing⟩
    · obtain ⟨t, ht, honly, hwing, hout⟩ := (stepsWing_write s hi).leaves
        (Wing.takeWrite_waits (w := (s.wing w).silent) Wing.handleWrite hrun hin
          (room := decide ((s.wing w).vst.inbuf.length < 512)) rfl)
      obtain ⟨kout, kwing⟩ := (s.wing w).queued_silent a (decide ((s.wing w).vst.inbuf.length < 512))
      exact ⟨t, _, ht, honly, rfl, hwing.trans kwing, hout.trans kout⟩
    · obtain ⟨t, ht, honly, hwing, hout⟩ := (stepsWing_write s hi).leaves
        (Wing.takeWrite_wakes (w := (s.wing w).silent) Wing.handleWrite hlive hrun)
      refine ⟨t, ht, honly, hout.trans (by simp [Wing.queued]), ?_⟩
      rw [hwing]
      refine ⟨by simp [Wing.queued], ?_, fun hsched => ?_⟩
      · exact Wing.wake_wakes (w := (s.wing w).silent.queued a false) (Wing.sleeps_of_live (w := s.wing w) hlive hrun) _
      · rw [Wing.wake_stands (w := (s.wing w).silent.queued a false) _ (.inl (Option.isSome_iff_ne_none.1 hsched))]
        rfl

end Sys2Proof
end

section
/-! Wired sources (R37, R300) and RAISE beats (R39, R117, R131). -/

namespace Sys2Proof.Machine

/-! ## A wired source -/

/-- The wing whose source's pin has moved, with what a standby notes of it (R417). -/
def Wing.moved (w : Wing) (i : Nat) (level : Bool) : Wing :=
  { w with vst := { w.vst with levels := SMap.set w.vst.levels false i level } }.noteRaw (.wired i level)

theorem Wing.noteRaw_eq (w : Wing) (e : RawEvent) :
    w.noteRaw e = { w with vst := { w.vst with raws := (w.noteRaw e).vst.raws } } := by
  unfold Wing.noteRaw
  split <;> rfl

theorem Wing.moved_eq (w : Wing) (i : Nat) (level : Bool) :
    w.moved i level = { w with vst := { w.vst with
      levels := SMap.set w.vst.levels false i level, raws := (w.moved i level).vst.raws } } :=
  Wing.noteRaw_eq _ _

theorem Wing.moved_levels (w : Wing) (i : Nat) (level : Bool) :
    (w.moved i level).vst.levels = SMap.set w.vst.levels false i level := by
  rw [Wing.moved_eq]

/-- What a change of a pin is to a wing: whether it becomes asserted under its entry. -/
def Wing.asserts (w : Wing) (i : Nat) (level : Bool) : Bool :=
  srcEnabled (w.srcCfg i) && !assertedAt (w.srcCfg i) (w.pinLevel i) && assertedAt (w.srcCfg i) level

theorem Wing.asserts_silent_iff (w : Wing) (i : Nat) (level : Bool) :
    w.silent.asserts i level = true ↔ srcEnabled (w.srcCfg i) = true ∧ assertedAt (w.srcCfg i) (w.pinLevel i) = false ∧
      assertedAt (w.srcCfg i) level = true := by
  rw [show w.silent.asserts i level = w.asserts i level from rfl]
  simp [Wing.asserts, and_assoc]

/-- A pin that moves changes the level and what a standby notes, and nothing else. -/
theorem Wing.moved_silent (w : Wing) (i : Nat) (level : Bool) : (w.silent.moved i level).silent = { w with
    vst := { w.vst with
      levels := (w.silent.moved i level).silent.vst.levels, raws := (w.silent.moved i level).silent.vst.raws }
    out := [] } := by
  have hlevels : (w.silent.moved i level).silent.vst.levels = SMap.set w.vst.levels false i level :=
    w.silent.moved_levels i level
  rw [hlevels]
  conv_lhs => rw [Wing.moved_eq]
  rfl

/-- The wing with the source latched for its exit from Nap (R300). -/
def Wing.latchSource (w : Wing) (i : Nat) : Wing :=
  if w.vst.napSrc.contains i then w else { w with vst := { w.vst with napSrc := w.vst.napSrc ++ [i] } }

theorem Wing.latchSource_spec (w : Wing) (i : Nat) :
    i ∈ (w.latchSource i).vst.napSrc ∧ (w.latchSource i).vst.seqs = w.vst.seqs ∧ (w.latchSource i).vst.levels = w.vst.levels ∧
      (w.latchSource i).life = w.life := by
  unfold Wing.latchSource
  split
  · next h => exact ⟨by simpa using h, rfl, rfl, rfl⟩
  · exact ⟨List.mem_append_right _ List.mem_cons_self, rfl, rfl, rfl⟩

/-- What an asserted source brings about, by the life of its wing. -/
def Wing.takeSource (w : Wing) (i : Nat) : Life → Wing
  | .run => w.register (w.wiredObs i)
  | .napEntry | .nap | .deepEntry => (w.latchSource i).wake { source := 0x1, detail := BitVec.ofNat 12 i }
  | _ => w

theorem Wing.takeSource_of_other (w : Wing) (i : Nat) {l : Life} (h : l ∉ [Life.run, .nap, .napEntry, .deepEntry]) :
    w.takeSource i l = w := by
  cases l <;> simp [Wing.takeSource] at h ⊢

theorem Wing.wiredChange_eq (w : Wing) (i : Nat) (level : Bool) :
    w.wiredChange i level = if w.asserts i level then (w.moved i level).takeSource i w.life else w.moved i level := by
  unfold Wing.wiredChange
  extract_lets c was vst1 w1 vst2 w2
  change (if w.asserts i level = true then _ else w1) = _
  cases w.life <;> rfl

theorem Wing.wiredChange_of_quiet {w : Wing} {i : Nat} {level : Bool}
    (h : w.asserts i level = false ∨ w.life ∉ [Life.run, .nap, .napEntry, .deepEntry]) :
    w.wiredChange i level = w.moved i level := by
  rw [Wing.wiredChange_eq]
  split
  next hassert =>
    have hlife := h.resolve_left (by simp [hassert])
    exact Wing.takeSource_of_other _ i hlife
  next => rfl

theorem Wing.wiredChange_of_running {w : Wing} {i : Nat} {level : Bool} (h : w.asserts i level = true) (hlife : w.life = .run) :
    w.wiredChange i level = (w.moved i level).register ((w.moved i level).wiredObs i) := by
  rw [Wing.wiredChange_eq, if_pos h, hlife]
  rfl

theorem Wing.wiredChange_of_sleeping {w : Wing} {i : Nat} {level : Bool} (h : w.asserts i level = true) (hlife : w.life.sleeps) :
    w.wiredChange i level =
      ((w.moved i level).latchSource i).wake { source := 0x1, detail := BitVec.ofNat 12 i } := by
  rw [Wing.wiredChange_eq, if_pos h]
  rcases hlife with hl | hl | hl <;> rw [hl] <;> rfl

/-- Whatever a change of a pin brings, the pin has its new level, and every other pin its own. -/
theorem Wing.wiredChange_levels (w : Wing) (i : Nat) (level : Bool) :
    (w.wiredChange i level).vst.levels = SMap.set w.vst.levels false i level := by
  rw [← w.moved_levels i level]
  by_cases hquiet : w.asserts i level = false ∨ w.life ∉ [Life.run, .nap, .napEntry, .deepEntry]
  · rw [Wing.wiredChange_of_quiet hquiet]
  · push Not at hquiet
    obtain ⟨hassert, hlife⟩ := hquiet
    have hassert : w.asserts i level = true := Bool.eq_true_of_not_eq_false hassert
    simp only [List.mem_cons, List.not_mem_nil, or_false] at hlife
    rcases hlife with hrun | hsleep
    · rw [Wing.wiredChange_of_running hassert hrun]
      exact ((w.moved i level).register_pins _).1
    · rw [Wing.wiredChange_of_sleeping hassert hsleep]
      simp [Wing.latchSource_spec]

/-- R37, R300, R301: what a source that becomes asserted leaves. -/
theorem Wing.wiredChange_asserted {w : Wing} {src : BitVec 10} {level : Bool} (h : w.asserts src.toNat level = true) :
    (w.life = .run →
      (w.wiredChange src.toNat level).seqOf (4096 + src.toNat) = w.seqOf (4096 + src.toNat) + 1 ∧
      ∀ j, j ≠ 4096 + src.toNat → (w.wiredChange src.toNat level).seqOf j = w.seqOf j) ∧
    (w.life.sleeps → src.toNat ∈ (w.wiredChange src.toNat level).vst.napSrc ∧
      (w.wiredChange src.toNat level).vst.seqs = w.vst.seqs ∧
      ((w.wiredChange src.toNat level).pwr.sched.isSome = true ∨
        (w.wiredChange src.toNat level).pwr.pendWake.isSome = true)) := by
  have hseqs : (w.moved src.toNat level).vst.seqs = w.vst.seqs := by rw [Wing.moved_eq]
  have hlife' : (w.moved src.toNat level).life = w.life := by rw [Wing.moved_eq]
  generalize hm : w.moved src.toNat level = m at hseqs hlife'
  refine ⟨fun hlife => ?_, fun hlife => ?_⟩
  · rw [Wing.wiredChange_of_running h hlife, hm]
    have horigin : originIx (m.wiredObs src.toNat).cls (m.wiredObs src.toNat).num = 4096 + src.toNat := by
      change 4096 + src.toNat % 4096 % 1024 = _
      have := src.isLt
      omega
    have hseq (j : Nat) : m.seqOf j = w.seqOf j := by rw [Wing.seqOf, hseqs]; rfl
    rw [← hseq]
    exact ⟨(m.register_seqs _ horigin).1, fun j hj => ((m.register_seqs _ horigin).2 j hj).trans (hseq j)⟩
  · rw [Wing.wiredChange_of_sleeping h hlife, hm]
    obtain ⟨klatch, kseqs, -, klife⟩ := m.latchSource_spec src.toNat
    exact ⟨by simpa using klatch, by simp [kseqs, hseqs], Wing.wake_wakes (by rw [klife, hlife']; exact hlife) _⟩

/-! ## The links of a porch -/

/-- The RAISE beats on their way stay. -/
@[simp] abbrev Porch.SameLinks (q r : Porch) : Prop := q.raiseE = r.raiseE ∧ q.raiseW = r.raiseW

theorem Porch.takeOp_links (q : Porch) (p : Byte) (o : WaitOp) : (q.takeOp p o).1.SameLinks q := by
  have hjournal (q : Porch) (e : Entry) : (q.journalise p e).1.SameLinks q := by
    unfold Porch.journalise
    exact ⟨rfl, rfl⟩
  have hclaim (lim : Nat) : (q.claimEffect p lim).1.SameLinks q := by
    unfold Porch.claimEffect
    split
    · exact ⟨rfl, rfl⟩
    · exact ⟨rfl, rfl⟩
    · split
      · exact ⟨rfl, rfl⟩
      · exact hjournal _ _
  unfold Porch.takeOp
  split
  · split
    · exact hclaim _
    · split
      · exact hjournal _ _
      · split <;> exact ⟨rfl, rfl⟩
  · split
    · exact hjournal _ _
    · split <;> exact ⟨rfl, rfl⟩

theorem Porch.takeVoted_links (q : Porch) (p : Byte) (o : WaitOp) (v : Vote) (err : Bool) :
    (q.takeVoted p o v err).1.SameLinks q := by
  cases v with
  | split => exact ⟨rfl, rfl⟩
  | agree => exact q.takeOp_links p o
  | corrected => exact q.takeOp_links p o

theorem Porch.drainOps_links (p : Byte) (n : Nat) (q : Porch) : (Porch.drainOps p n q).1.SameLinks q := by
  induction n generalizing q with
  | zero => exact ⟨rfl, rfl⟩
  | succ n ih =>
    unfold Porch.drainOps
    split
    · exact ⟨rfl, rfl⟩
    next o v err os _ =>
      split
      · obtain ⟨hE, hW⟩ := Porch.takeVoted_links { q with waiting := os } p o v err
        obtain ⟨kE, kW⟩ := ih (Porch.takeVoted { q with waiting := os } p o v err).1
        exact ⟨kE.trans hE, kW.trans hW⟩
      · exact ⟨rfl, rfl⟩

theorem Porch.raisesTo_of_links {q r : Porch} (h : q.SameLinks r) (w : WingId) : q.raisesTo w = r.raisesTo w := by
  cases w
  · exact h.1
  · exact h.2

theorem Porch.raisesTo_setRaises (q : Porch) (w : WingId) (l : List (BitVec 4 × BitVec 12)) :
    (q.setRaises w l).raisesTo w = l ∧ (q.setRaises w l).raisesTo (otherWing w) = q.raisesTo (otherWing w) := by
  cases w <;> exact ⟨rfl, rfl⟩

/-- R117, R131: the oldest raise goes to both wings on a voted read. -/
theorem Porch.sendRaise_spec {q : Porch} {i : BitVec 4} {c : BitVec 12} {rest : List (BitVec 4 × BitVec 12)}
    (h : q.raiseq = (i, c) :: rest) (p : Byte) {v : Vote} (hv : v ≠ .split) :
    (∀ w, (q.sendRaise p v).1.raisesTo w = q.raisesTo w ++ [(i, c)]) ∧
      ∀ w, Out.p2w p w 0x4 (raiseBeatWord i c) ∈ (q.sendRaise p v).2 := by
  have hlinks := Porch.drainOps_links p q.waiting.length
    { q with raiseq := rest, raiseE := q.raiseE ++ [(i, c)], raiseW := q.raiseW ++ [(i, c)] }
  have hto : ∀ w, (q.sendRaise p v).1.raisesTo w = q.raisesTo w ++ [(i, c)] := fun w => by
    unfold Porch.sendRaise
    rw [h]
    cases v with
    | split => exact absurd rfl hv
    | agree => exact (Porch.raisesTo_of_links hlinks w).trans (by cases w <;> rfl)
    | corrected => exact (Porch.raisesTo_of_links hlinks w).trans (by cases w <;> rfl)
  refine ⟨hto, fun w => ?_⟩
  unfold Porch.sendRaise
  rw [h]
  cases v with
  | split => exact absurd rfl hv
  | agree => cases w <;> simp [Porch.voted, andThen]
  | corrected => cases w <;> simp [Porch.voted, andThen]

theorem Porch.takeRaise_of_first {q : Porch} {w : WingId} {i : BitVec 4} {c : BitVec 12} {rest : List (BitVec 4 × BitVec 12)}
    (h : q.raisesTo w = (i, c) :: rest) : q.takeRaise w i c = some (q.setRaises w rest) := by
  unfold Porch.takeRaise
  rw [h]
  exact if_pos rfl

theorem Porch.takeRaise_of_other {q : Porch} {w : WingId} {i : BitVec 4} {c : BitVec 12} (h : (q.raisesTo w).head? ≠ some (i, c)) :
    q.takeRaise w i c = none := by
  unfold Porch.takeRaise
  split
  next x rest hx => exact if_neg fun e => h (by rw [hx, e]; rfl)
  next => rfl

/-! ## A RAISE beat -/

/-- The wing with the raise latched for its exit from Nap (R300). -/
def Wing.latchRaise (w : Wing) (p : Byte) (i : Nat) (cur : BitVec 12) : Wing :=
  { w with vst := { w.vst with napRaise := SMap.insert w.vst.napRaise (p.toNat * 16 + i) cur } }

/-- What a RAISE beat brings about, by the life of its wing. -/
def Wing.takeBeat (w : Wing) (p : Byte) (i : Nat) (cur : BitVec 12) : Life → Wing
  | .run => (w.noteRaw (.raise p i cur)).register (w.raiseObs p i cur)
  | .napEntry | .nap | .deepEntry => (w.latchRaise p i cur).wake { source := 0x3, detail := p.setWidth 12 }
  | _ => w

theorem Wing.raised_eq (w : Wing) (p : Byte) (i : Nat) (cur : BitVec 12) :
    w.raised p i cur = w.takeBeat p i cur w.life := rfl

/-- R39, R300, R301: what a RAISE beat leaves in its wing. -/
theorem Wing.raised_spec (w : Wing) (p : Byte) (i : Nat) (cur : BitVec 12) :
    (w.life = .run → (w.raised p i cur).seqOf (5120 + p.toNat) = w.seqOf (5120 + p.toNat) + 1 ∧
      ∀ j, j ≠ 5120 + p.toNat → (w.raised p i cur).seqOf j = w.seqOf j) ∧
    (w.life.sleeps → SMap.find? (w.raised p i cur).vst.napRaise (p.toNat * 16 + i) = some cur ∧
      (w.raised p i cur).vst.seqs = w.vst.seqs ∧
      ((w.raised p i cur).pwr.sched.isSome = true ∨ (w.raised p i cur).pwr.pendWake.isSome = true)) := by
  refine ⟨fun hlife => ?_, fun hlife => ?_⟩
  · have horigin : originIx (w.raiseObs p i cur).cls (w.raiseObs p i cur).num = 5120 + p.toNat := by
      change 5120 + (p.setWidth 12).toNat % 256 = _
      have := p.isLt
      rw [BitVec.toNat_setWidth]
      omega
    have heq : w.raised p i cur = (w.noteRaw (.raise p i cur)).register (w.raiseObs p i cur) := by
      rw [Wing.raised_eq, hlife]
      rfl
    have hseq (j : Nat) : (w.noteRaw (.raise p i cur)).seqOf j = w.seqOf j := by rw [Wing.noteRaw_eq]; rfl
    obtain ⟨hself, hothers⟩ := (w.noteRaw (.raise p i cur)).register_seqs _ horigin
    rw [heq]
    exact ⟨hself.trans (by rw [hseq]), fun j hj => (hothers j hj).trans (hseq j)⟩
  · have heq : w.raised p i cur = (w.latchRaise p i cur).wake { source := 0x3, detail := p.setWidth 12 } := by
      rw [Wing.raised_eq]
      rcases hlife with hl | hl | hl <;> rw [hl] <;> rfl
    rw [heq]
    exact ⟨by simp [Wing.latchRaise], by simp [Wing.latchRaise], Wing.wake_wakes (w := w.latchRaise p i cur) hlife _⟩

/-- The porch once it has sent the raise that is due, where none is on its way to the wing. -/
def State.raiseSent (s : State) (w : WingId) (p : Byte) (idx : BitVec 4) (b : RaiseRead) : Porch × List Out :=
  if ((s.porch p).raisesTo w ++ (s.porch p).raiseq).head? == some (idx, b.cur) && ((s.porch p).raisesTo w == []) &&
      (s.porch p).hears then (s.porch p).sendRaise p b.vote
  else (s.porch p, [])

/-- The state once the beat has reached its wing, with what its porch drove before. -/
def State.beatTaken (s : State) (w : WingId) (p : Byte) (idx : BitVec 4) (cur : BitVec 12) (o : List Out) : State :=
  { s.onWing w fun v => v.raised p idx.toNat cur with
    out := o ++ (s.onWing w fun v => v.raised p idx.toNat cur).out }

theorem State.beatTaken_spec (s : State) (w : WingId) (p : Byte) (idx : BitVec 4) (cur : BitVec 12) (o : List Out) :
    (s.beatTaken w p idx cur o).wing w = ((s.wing w).silent.raised p idx.toNat cur).silent ∧
      (s.beatTaken w p idx cur o).wing (otherWing w) = s.wing (otherWing w) ∧
      (s.beatTaken w p idx cur o).pending = s.pending ∧ (s.beatTaken w p idx cur o).porches = s.porches := by
  cases w <;> exact ⟨rfl, rfl, rfl, rfl⟩

section
variable {s : State} {w : WingId} {p : Byte} {idx : BitVec 4} {b : RaiseRead}

theorem execRaiseBeat_eq : exec (.raiseBeat w p idx b) s =
    .next (match (s.raiseSent w p idx b).1.takeRaise w idx b.cur with
      | some q => (s.setPorch p (s.raiseSent w p idx b).1 |>.setPorch p q).beatTaken w p idx b.cur (s.raiseSent w p idx b).2
      | none => { s.setPorch p (s.raiseSent w p idx b).1 with out := (s.raiseSent w p idx b).2 }) := by
  cases w <;> rfl

theorem execRaiseBeat_taken {q : Porch} (h : (s.raiseSent w p idx b).1.takeRaise w idx b.cur = some q) :
    ∃ t, exec (.raiseBeat w p idx b) s = .next t ∧ t.wing w = ((s.wing w).silent.raised p idx.toNat b.cur).silent ∧
      t.wing (otherWing w) = s.wing (otherWing w) ∧ t.pending = s.pending ∧ (∀ x, x ≠ p → t.porch x = s.porch x) ∧
      t.porch p = q ∧ ∀ o ∈ (s.raiseSent w p idx b).2, o ∈ t.out := by
  have hexec := execRaiseBeat_eq (s := s) (w := w) (p := p) (idx := idx) (b := b)
  simp only [h] at hexec
  generalize hu : (s.setPorch p (s.raiseSent w p idx b).1).setPorch p q = u at hexec
  have hwing (x : WingId) : u.wing x = s.wing x := by rw [← hu]; cases x <;> rfl
  have hpend : u.pending = s.pending := by rw [← hu]; rfl
  obtain ⟨kwing, kother, kpend, kporches⟩ := u.beatTaken_spec w p idx b.cur (s.raiseSent w p idx b).2
  have hporch (x : Byte) : (u.beatTaken w p idx b.cur (s.raiseSent w p idx b).2).porch x = if x = p then q else s.porch x := by
    rw [State.porch, kporches, ← State.porch, ← hu, State.porch_setPorch, State.porch_setPorch]
    split <;> rfl
  refine ⟨_, hexec, kwing.trans (by rw [hwing]), kother.trans (hwing _), kpend.trans hpend, fun x hx => (hporch x).trans (if_neg hx),
    (hporch p).trans (if_pos rfl), fun o ho => List.mem_append_left _ ho⟩

theorem execRaiseBeat_stands (h : (s.raiseSent w p idx b).1.takeRaise w idx b.cur = none) :
    ∃ t, exec (.raiseBeat w p idx b) s = .next t ∧ s.onlyPorch t p ∧ t.porch p = (s.raiseSent w p idx b).1 ∧
      t.out = (s.raiseSent w p idx b).2 := by
  have hexec := execRaiseBeat_eq (s := s) (w := w) (p := p) (idx := idx) (b := b)
  simp only [h] at hexec
  exact ⟨_, hexec, s.onPorch_only p fun _ => s.raiseSent w p idx b, s.onPorch_porch p fun _ => s.raiseSent w p idx b, rfl⟩

/-- A beat on its way is taken off the link as it stands. -/
theorem State.raiseSent_of_link (h : (s.porch p).raisesTo w ≠ []) : s.raiseSent w p idx b = (s.porch p, []) := by
  unfold State.raiseSent
  rw [if_neg (by simp [h])]

theorem State.raiseSent_of_deaf (h : (s.porch p).hears = false) : s.raiseSent w p idx b = (s.porch p, []) := by
  unfold State.raiseSent
  rw [if_neg (by simp [h])]

theorem State.raiseSent_of_other (h : ((s.porch p).raisesTo w ++ (s.porch p).raiseq).head? ≠ some (idx, b.cur)) :
    s.raiseSent w p idx b = (s.porch p, []) := by
  unfold State.raiseSent
  refine if_neg ?_
  simp only [Bool.and_eq_true, beq_iff_eq]
  exact fun hc => h hc.1.1

theorem State.raiseSent_of_due (hdue : ((s.porch p).raisesTo w ++ (s.porch p).raiseq).head? = some (idx, b.cur))
    (hempty : (s.porch p).raisesTo w = []) (hhears : (s.porch p).hears = true) :
    s.raiseSent w p idx b = (s.porch p).sendRaise p b.vote := by
  unfold State.raiseSent
  refine if_pos ?_
  simp only [Bool.and_eq_true, beq_iff_eq]
  exact ⟨⟨hdue, hempty⟩, hhears⟩

/-- R131: the beat that is next is taken, from the link or from the queue. -/
theorem State.raiseSent_next (hnext : ((s.porch p).raisesTo w ++ (s.porch p).raiseq).head? = some (idx, b.cur))
    (hgo : (s.porch p).raisesTo w ≠ [] ∨ (s.porch p).hears = true ∧ b.vote ≠ .split) :
    (s.raiseSent w p idx b).1.raisesTo w = (idx, b.cur) :: ((s.porch p).raisesTo w).tail ∧
      (s.raiseSent w p idx b).1.raisesTo (otherWing w) = (s.porch p).raisesTo (otherWing w) ++
        (if (s.porch p).raisesTo w = [] then [(idx, b.cur)] else []) ∧
      ((s.porch p).raisesTo w = [] → ∀ x, Out.p2w p x 0x4 (raiseBeatWord idx b.cur) ∈ (s.raiseSent w p idx b).2) := by
  by_cases hlink : (s.porch p).raisesTo w = []
  · obtain ⟨hhears, hvote⟩ := hgo.resolve_left (· hlink)
    rw [State.raiseSent_of_due hnext hlink hhears, if_pos hlink, hlink]
    rw [hlink, List.nil_append] at hnext
    obtain ⟨rest, hq⟩ := List.head?_eq_some_iff.1 hnext
    obtain ⟨hto, hout⟩ := Porch.sendRaise_spec hq p hvote
    exact ⟨by rw [hto, hlink]; rfl, hto _, fun _ => hout⟩
  · rw [State.raiseSent_of_link hlink, if_neg hlink, List.append_nil]
    refine ⟨?_, rfl, fun h => absurd h hlink⟩
    obtain ⟨x, rest, hx⟩ := List.exists_cons_of_ne_nil hlink
    rw [hx] at hnext ⊢
    rw [show x = (idx, b.cur) from Option.some.inj hnext]
    rfl

end

end Sys2Proof.Machine

namespace Sys2Proof

open Machine

/-- Settles O22: what comes in is registered by a wing that runs, and kept by one that sleeps, which it wakes. -/
theorem sourcesAndRaisesRegister : Obligations.SourcesAndRaisesRegister := by
  unfold Obligations.SourcesAndRaisesRegister
  refine ⟨?_, ?_⟩
  · rintro s w src level was now rfl rfl
    obtain ⟨t, ht, honly, hwing, -⟩ :=
      (stepsWing (i := .wiredSourceChange w src level) (s := s) (f := fun v => v.wiredChange src.toNat level) rfl).leaves rfl
    have hlevels := (s.wing w).silent.wiredChange_levels src.toNat level
    refine ⟨t, ht, honly, ?_, fun i hi => ?_, fun hen hwas hnow => ?_, fun hquiet => ?_⟩
    · rw [hwing]
      exact (congrArg (SMap.get · false src.toNat) hlevels).trans (SMap.get_set_self ..)
    · rw [hwing]
      exact (congrArg (SMap.get · false i) hlevels).trans (SMap.get_set_ne _ _ _ hi)
    · rw [hwing]
      exact Wing.wiredChange_asserted (((s.wing w).asserts_silent_iff _ _).2 ⟨hen, hwas, hnow⟩)
    · have heq : (s.wing w).silent.wiredChange src.toNat level = (s.wing w).silent.moved src.toNat level :=
        Wing.wiredChange_of_quiet (hquiet.imp (fun h => Bool.eq_false_of_not_eq_true fun hassert =>
          h (((s.wing w).asserts_silent_iff _ _).1 hassert)) id)
      rw [hwing, heq]
      exact (s.wing w).moved_silent src.toNat level
  · rintro s w p idx cur v next rfl
    refine ⟨fun hnext hgo => ?_, fun hnext hempty hhears hsplit => ?_, fun hno => ?_⟩
    · obtain ⟨hw, hother, hbeats⟩ := State.raiseSent_next (b := ⟨cur, v⟩) hnext hgo
      obtain ⟨t, ht, hwing, hpeer, hpend, hporches, hporch, hout⟩ := execRaiseBeat_taken (Porch.takeRaise_of_first hw)
      obtain ⟨kw, kother⟩ := (s.raiseSent w p idx ⟨cur, v⟩).1.raisesTo_setRaises w ((s.porch p).raisesTo w).tail
      refine ⟨t, ht, hpeer, hpend, hporches, hporch ▸ kw, hporch ▸ kother.trans hother, fun h x => hout _ (hbeats h x), ?_⟩
      rw [hwing]
      exact (s.wing w).silent.raised_spec p idx.toNat cur
    · subst hsplit
      obtain ⟨rest, hq⟩ := List.head?_eq_some_iff.1 (by rwa [hempty, List.nil_append] at hnext)
      have hsent : s.raiseSent w p idx ⟨cur, .split⟩ = ({ s.porch p with fault := true }, []) := by
        rw [State.raiseSent_of_due hnext hempty hhears]
        unfold Porch.sendRaise
        rw [hq]
        rfl
      have htake : (s.raiseSent w p idx ⟨cur, .split⟩).1.takeRaise w idx cur = none := by
        rw [hsent]
        refine Porch.takeRaise_of_other ?_
        rw [show Porch.raisesTo { s.porch p with fault := true } w = [] from
          (Porch.raisesTo_of_links (r := s.porch p) ⟨rfl, rfl⟩ w).trans hempty]
        exact (fun h => nomatch h)
      obtain ⟨t, ht, honly, hporch, -⟩ := execRaiseBeat_stands (b := ⟨cur, .split⟩) htake
      exact ⟨t, ht, honly, hporch.trans (by rw [hsent])⟩
    · have hsent : s.raiseSent w p idx ⟨cur, v⟩ = (s.porch p, []) := by
        rcases hno with hno | ⟨-, hdeaf⟩
        · exact State.raiseSent_of_other hno
        · exact State.raiseSent_of_deaf hdeaf
      have htake : (s.raiseSent w p idx ⟨cur, v⟩).1.takeRaise w idx cur = none := by
        rw [hsent]
        refine Porch.takeRaise_of_other fun hhead => ?_
        obtain ⟨rest, hrest⟩ := List.head?_eq_some_iff.1 hhead
        rcases hno with hno | ⟨hempty, -⟩
        · exact hno (by rw [hrest]; rfl)
        · exact nomatch hrest.symm.trans hempty
      obtain ⟨t, ht, honly, hporch, hout⟩ := execRaiseBeat_stands (b := ⟨cur, v⟩) htake
      exact ⟨t, ht, honly, hporch.trans (by rw [hsent]), hout.trans (by rw [hsent])⟩

end Sys2Proof
end

section
/-! Letters (R197, R198), aperture reads (R30) and alarm lines (R328, R332). -/

namespace Sys2Proof.Machine

/-! ## Letters -/

/-- A letter that its slice has taken stands in its outbox or on its way to the manager; `lseq` and `dropped` are what the slice
and the counter of discarded letters show. -/
structure Wing.HoldsLetter (w : Wing) (x : BitVec 12) (q v : Word) (dropped : DWord) : Prop where
  lseq : (w.slice x).lseq = q
  dropped : w.ctr cLbxDrop = dropped
  held : (q, v) ∈ (w.slice x).outbox ∨
    Rec.letter { fromMgr := false, slice := x, lseq := q, letter := v.setWidth 64 } ∈ w.psg.defr

section
variable {w : Wing} {x : BitVec 12} {q v : Word} {c : DWord}

theorem Wing.HoldsLetter.place (h : w.HoldsLetter x q v c) (l : LetterRec) : (w.place (.letter l)).HoldsLetter x q v c :=
  { lseq := by rw [Wing.slice_place]; exact h.lseq
    dropped := (ctr_of_regs (by simp) _).trans h.dropped
    held := by
      rw [Wing.slice_place]
      exact h.held.imp_right fun hd => by simp [Wing.place_psg, Rec.group, hd] }

/-- The head of an outbox goes on its way. -/
theorem Wing.HoldsLetter.send (h : w.HoldsLetter x q v c) {s : BitVec 12} {r d : Word} {rest : List (Word × Word)}
    (hbox : (w.slice s).outbox = (r, d) :: rest) :
    ((w.modSlice s fun y => { y with outbox := rest }).place
      (.letter { fromMgr := false, slice := s, lseq := r, letter := d.setWidth 64 })).HoldsLetter x q v c := by
  by_cases hs : x = s
  · subst hs
    refine ⟨?_, ?_, ?_⟩
    · rw [Wing.slice_place, Wing.slice_modSlice_self]
      exact h.lseq
    · exact (ctr_of_regs (by simp) _).trans h.dropped
    · rw [Wing.slice_place, Wing.slice_modSlice_self]
      rcases h.held with hmem | hd
      · rw [hbox] at hmem
        rcases List.mem_cons.1 hmem with heq | hrest
        · cases heq
          exact .inr (by simp [Wing.place_psg, Rec.group])
        · exact .inl hrest
      · exact .inr (by simp [Wing.place_psg, Rec.group, hd])
  · refine Wing.HoldsLetter.place ⟨?_, (ctr_of_regs (by simp) _).trans h.dropped, ?_⟩ _
    · rw [Wing.slice_modSlice_ne _ _ hs]
      exact h.lseq
    · rw [Wing.slice_modSlice_ne _ _ hs]
      exact h.held.imp_right fun hd => by simpa using hd

theorem Wing.HoldsLetter.sendOut (h : w.HoldsLetter x q v c) (s : BitVec 12) (fuel : Nat) :
    (w.sendOut s fuel).HoldsLetter x q v c := by
  induction fuel generalizing w with
  | zero => exact h
  | succ fuel ih =>
    unfold Wing.sendOut
    split
    · exact h
    next r d rest hbox =>
      split
      · exact ih (h.send hbox)
      · exact h

theorem Wing.HoldsLetter.sendIn (h : w.HoldsLetter x q v c) (s : BitVec 12) (fuel : Nat) :
    (w.sendIn s fuel).HoldsLetter x q v c := by
  induction fuel generalizing w with
  | zero => exact h
  | succ fuel ih =>
    unfold Wing.sendIn
    dsimp only
    split
    · exact h
    · split
      · exact ih (h.place _)
      · exact h

theorem Wing.HoldsLetter.foldl {α : Type} {f : Wing → α → Wing} (h : w.HoldsLetter x q v c) (l : List α)
    (hf : ∀ a (u : Wing), u.HoldsLetter x q v c → (f u a).HoldsLetter x q v c) : (l.foldl f w).HoldsLetter x q v c := by
  induction l generalizing w with
  | nil => exact h
  | cons a l ih => exact ih (hf a w h)

theorem Wing.HoldsLetter.sendLetters (h : w.HoldsLetter x q v c) : w.sendLetters.HoldsLetter x q v c := by
  unfold Wing.sendLetters
  split
  · exact h.foldl _ fun s v hv => by
      split
      · exact (hv.sendOut s 4).sendIn s 4
      · exact hv
  · exact h

end

/-- The slice whose LSEQ has been taken, and the same slice with the letter in its outbox. -/
def SliceSt.numbered (v : SliceSt) : SliceSt := { v with lseq := v.lseq + 1 }

def SliceSt.lettered (v : SliceSt) (d : Word) : SliceSt :=
  { v with lseq := v.lseq + 1, outbox := v.outbox ++ [(v.lseq + 1, d)] }

theorem Wing.takeLetter_eq (w : Wing) {x : BitVec 12} (hx : x ≠ 0) (v : Word) :
    w.takeLetter x v = if (w.slice x).outbox.length < 4 then (w.setSlice x ((w.slice x).lettered v)).sendLetters
      else (w.setSlice x (w.slice x).numbered).count cLbxDrop :=
  if_neg hx

/-- R198: with a free entry of the outbox the letter is kept. -/
theorem Wing.takeLetter_keeps (w : Wing) {x : BitVec 12} (hx : x ≠ 0) (v : Word) (hroom : (w.slice x).outbox.length < 4) :
    (w.takeLetter x v).HoldsLetter x ((w.slice x).lseq + 1) v (w.ctr cLbxDrop) := by
  rw [w.takeLetter_eq hx, if_pos hroom]
  refine Wing.HoldsLetter.sendLetters ⟨?_, ctr_of_regs (by simp) _, .inl ?_⟩
  · simp [Wing.slice_setSlice, SliceSt.lettered]
  · simp [Wing.slice_setSlice, SliceSt.lettered]

/-- R198: with none the letter is discarded and counted. -/
theorem Wing.takeLetter_drops (w : Wing) {x : BitVec 12} (hx : x ≠ 0) (v : Word) (hfull : ¬ (w.slice x).outbox.length < 4) :
    ((w.takeLetter x v).slice x).lseq = (w.slice x).lseq + 1 ∧ ((w.takeLetter x v).slice x).outbox = (w.slice x).outbox ∧
      (w.takeLetter x v).ctr cLbxDrop = w.ctr cLbxDrop + 1 := by
  rw [w.takeLetter_eq hx, if_neg hfull]
  have hslice : ((w.setSlice x (w.slice x).numbered).count cLbxDrop).slice x = (w.slice x).numbered :=
    (slice_of_sl (w := w.setSlice x (w.slice x).numbered) (by simp) x).trans (by simp [Wing.slice_setSlice])
  rw [hslice]
  exact ⟨rfl, rfl, Wing.ctr_count_self (w.setSlice x _) cLbxDrop⟩

/-! ## Aperture reads -/

/-- R30: a live aperture answers a read, and counts it. -/
def Wing.readAnswer (w : Wing) : Wing := if w.aptLive then (w.count cApertureRead).emit (.aptRead w.id) else w

theorem stepsWing_apertureRead (s : State) (w : WingId) : StepsWing (.apertureRead w) s w Wing.readAnswer := stepsWing rfl

theorem Wing.aptLive_silent (w : Wing) : w.silent.aptLive = w.aptLive := rfl

theorem Wing.readAnswer_of_live {w : Wing} (h : w.aptLive = true) :
    w.silent.readAnswer = (w.silent.count cApertureRead).emit (.aptRead w.id) := by
  unfold Wing.readAnswer
  rw [Wing.aptLive_silent, if_pos h]
  rfl

theorem Wing.readAnswer_of_dead {w : Wing} (h : w.aptLive = false) : w.silent.readAnswer = w.silent := by
  unfold Wing.readAnswer
  rw [Wing.aptLive_silent, h]
  rfl

/-! ## Alarm lines -/

theorem Hearth.latch_setLatch (h : Hearth) (i j : Nat) (l : Latch) : (h.setLatch i l).latch j = if j = i then l else h.latch j := by
  unfold Hearth.latch Hearth.setLatch
  exact SMap.get_set ..

/-- What a rising edge makes of the latch of its line (R328). -/
def Latch.edge (l : Latch) : Latch :=
  if l.set then { l with again := if l.again = 15 then 15 else l.again + 1 }
  else { l with set := true, stamped := false, again := 0 }

theorem Hearth.alarmEdge_eq (h : Hearth) (i : Nat) : h.alarmEdge i = h.setLatch i (h.latch i).edge := by
  have hinc (v : BitVec 4) : satInc v = if v = 15 then 15 else v + 1 := by
    revert v
    decide
  unfold Hearth.alarmEdge Latch.edge
  by_cases hset : (h.latch i).set = true
  · simp only [if_pos hset, hinc]
  · simp only [if_neg hset]

/-- A rising edge touches no other latch. -/
theorem Hearth.alarmEdge_latch (h : Hearth) (i j : Nat) :
    (h.alarmEdge i).latch j = if j = i then (h.latch i).edge else h.latch j := by
  rw [Hearth.alarmEdge_eq, Hearth.latch_setLatch]

theorem Hearth.alarmEdge_latches (h : Hearth) (i : Nat) : h.alarmEdge i = { h with latches := (h.alarmEdge i).latches } := by
  rw [Hearth.alarmEdge_eq]
  rfl

theorem Hearth.alarmEdge_set (h : Hearth) (i : Nat) : ((h.alarmEdge i).latch i).set = true := by
  rw [Hearth.alarmEdge_latch, if_pos rfl]
  unfold Latch.edge
  split
  next hset => exact hset
  next => rfl

/-- The lowest line whose latch is set is found, where one of the sixteen is. -/
theorem Hearth.lowestLatch_of_set {h : Hearth} {i : Nat} (hi : i < 16) (hset : (h.latch i).set = true) :
    ∃ k, h.lowestLatch = some k ∧ k < 16 ∧ (h.latch k).set = true ∧ ∀ j < k, (h.latch j).set = false := by
  obtain ⟨k, hk⟩ := Option.isSome_iff_exists.1 (List.find?_isSome.2 ⟨i, List.mem_range.2 hi, hset⟩ :
    ((List.range 16).find? fun i => (h.latch i).set).isSome = true)
  obtain ⟨hkset, hmem, hbelow⟩ := List.find?_range_eq_some.1 hk
  exact ⟨k, hk, List.mem_range.1 hmem, hkset, fun j hj => by simpa using hbelow j hj⟩

/-- The wing whose hearth has latched the edge. -/
def Wing.latched (w : Wing) (i : Nat) : Wing := { w with hrt := w.hrt.alarmEdge i }

theorem Wing.latched_silent (w : Wing) (i : Nat) : (w.silent.latched i).silent =
    { w with hrt := { w.hrt with latches := (w.silent.latched i).silent.hrt.latches }, out := [] } :=
  congrArg (fun h => { w with hrt := h, out := [] }) (w.hrt.alarmEdge_latches i)

/-- R332: the edge takes the record of a wake from Deep in the raw period of that wake. -/
def Wing.WakesNow (w : Wing) : Prop :=
  w.life = .deepWake ∧ w.ctl.rawWait.isSome = true ∧
    w.hrt.wake.extractLsb' 0 24 = (w.hrt.raw.extractLsb' 0 24 : BitVec 24)

theorem Wing.alarmAtWake_of_other {w : Wing} (h : ¬ w.WakesNow) : w.alarmAtWake = w := by
  unfold Wing.alarmAtWake
  refine if_neg fun hc => h ?_
  simpa [Wing.WakesNow, and_assoc] using hc

theorem Wing.alarmAtWake_of_now {w : Wing} {i : Nat} (h : w.WakesNow) (hi : w.hrt.lowestLatch = some i) :
    w.alarmAtWake.hrt = { w.hrt with wake := hrtWakeWord 0x5 (BitVec.ofNat 4 i) w.hrt.raw } := by
  unfold Wing.alarmAtWake
  rw [if_pos (by simpa [Wing.WakesNow, and_assoc] using h)]
  simp only [hi]

theorem Wing.alarmAtWake_latches (w : Wing) : w.alarmAtWake.hrt.latches = w.hrt.latches ∧ w.alarmAtWake.life = w.life := by
  unfold Wing.alarmAtWake
  split
  · split <;> exact ⟨rfl, rfl⟩
  · exact ⟨rfl, rfl⟩

theorem Wing.wake_of_awake {w : Wing} (h : ¬ w.life.sleeps) (c : WakeCause) : w.wake c = w := by
  unfold Wing.wake
  split
  · rfl
  · cases hlife : w.life <;> simp [Life.sleeps, hlife] at h ⊢

theorem stepsWing_alarmLatch (s : State) (w : WingId) (line : BitVec 4) :
    StepsWing (.alarmLatch w line) s w fun v =>
      if v.hrt.powered then (v.latched line.toNat).alarmAtWake.wake { source := 0x5, detail := line.setWidth 12 } else v :=
  stepsWing rfl

/-- R301, R328, R332: what an edge leaves in a wing whose hearth has power. -/
theorem Wing.alarm_spec (w : Wing) (i : Nat) (hi : i < 16) (c : WakeCause) :
    (∀ j, ((w.latched i).alarmAtWake.wake c).hrt.latch j = if j = i then (w.hrt.latch i).edge else w.hrt.latch j) ∧
      (¬ w.WakesNow → ((w.latched i).alarmAtWake.wake c).hrt = { w.hrt with
        latches := ((w.latched i).alarmAtWake.wake c).hrt.latches }) ∧
      (w.WakesNow → ∃ k < 16, (((w.latched i).alarmAtWake.wake c).hrt.latch k).set = true ∧
        (∀ j < k, (((w.latched i).alarmAtWake.wake c).hrt.latch j).set = false) ∧
        ((w.latched i).alarmAtWake.wake c).hrt.wake = hrtWakeWord 0x5 (BitVec.ofNat 4 k) w.hrt.raw) ∧
      (w.life.sleeps → ((w.latched i).alarmAtWake.wake c).pwr.sched.isSome = true ∨
        ((w.latched i).alarmAtWake.wake c).pwr.pendWake.isSome = true) ∧
      (¬ w.life.sleeps → w.life ≠ .deepWake → (w.latched i).alarmAtWake.wake c = w.latched i) := by
  obtain ⟨klatches, klife⟩ := (w.latched i).alarmAtWake_latches
  have hhrt : ((w.latched i).alarmAtWake.wake c).hrt = (w.latched i).alarmAtWake.hrt := by simp
  have hlatch (j : Nat) : ((w.latched i).alarmAtWake.wake c).hrt.latch j = (w.hrt.alarmEdge i).latch j := by
    rw [hhrt, Hearth.latch, klatches]
    rfl
  have hedge := w.hrt.alarmEdge_latches i
  have hnow : (w.latched i).WakesNow ↔ w.WakesNow := by
    unfold Wing.WakesNow Wing.latched
    rw [hedge]
  refine ⟨fun j => (hlatch j).trans (Hearth.alarmEdge_latch ..), fun hother => ?_, fun hwakes => ?_, fun hsleep => ?_,
    fun hawake hlife => ?_⟩
  · rw [hhrt, Wing.alarmAtWake_of_other fun h => hother (hnow.1 h)]
    exact hedge
  · obtain ⟨k, hk, hlt, hset, hbelow⟩ := Hearth.lowestLatch_of_set hi (Hearth.alarmEdge_set w.hrt i)
    refine ⟨k, hlt, by rw [hlatch]; exact hset, fun j hj => by rw [hlatch]; exact hbelow j hj, ?_⟩
    rw [hhrt, Wing.alarmAtWake_of_now (hnow.2 hwakes) hk]
    simp [Wing.latched]
  · exact Wing.wake_wakes (by rw [klife]; exact hsleep) c
  · have hstands : (w.latched i).alarmAtWake = w.latched i := Wing.alarmAtWake_of_other fun h => hlife h.1
    rw [hstands]
    exact Wing.wake_of_awake (w := w.latched i) hawake c

/-! ## The letterbox -/

section
variable {w : Wing} {a : AptWrite} (hrun : w.running = true) (hin : w.vst.inbuf = []) (hrange : AptRange.of a.pageOff = .letter)
  (hcheck : w.doorbellCheck a 0x300 = none)
include hrun hin hrange hcheck

/-- A letter that passes its checks reaches its slice beside the pulses of its write. -/
theorem Wing.takeWrite_letter : w.silent.takeWrite a Wing.handleWrite = w.silent.pulsed.takeLetter a.slice (a.field 0 32) := by
  have hcheck' : w.silent.pulsed.doorbellCheck a 0x300 = none := hcheck
  rw [Wing.takeWrite_passes (w := w.silent) _ hrun hin (by simp [isArrivalWrite, hrange])]
  simp only [Wing.handleWrite, hrange, Wing.doLetter, hcheck']

end

theorem Wing.pulsed_silent (w : Wing) : w.silent.pulsed.silent = w.silent := rfl

theorem Wing.pulsed_slice (w : Wing) (x : BitVec 12) : w.silent.pulsed.slice x = w.slice x := rfl

theorem Wing.pulsed_ctr (w : Wing) (o : Nat) : w.silent.pulsed.ctr o = w.ctr o := rfl

end Sys2Proof.Machine

namespace Sys2Proof

open Machine

/-- Settles O21: a letter that its slice takes stays in the outbox or goes out in its record, and an edge writes one latch. -/
theorem lettersReadsAndAlarmEdges : Obligations.LettersReadsAndAlarmEdges := by
  unfold Obligations.LettersReadsAndAlarmEdges
  refine ⟨?_, ?_⟩
  · intro s w a hrun hin hrange hcheck
    have hsteps : StepsWing (.letterboxDoorbell w a) s w fun v => v.takeWrite a Wing.handleWrite :=
      stepsWing_write s (by simp [writeInstrs])
    obtain ⟨t, ht, honly, hwing, -⟩ := hsteps.leaves (Wing.takeWrite_letter hrun hin hrange hcheck)
    refine ⟨fun hslice => ?_, fun hslice => ⟨t, ht, honly, ?_⟩⟩
    · refine ⟨t, _, ht, honly, rfl, ?_⟩
      rw [hwing, ← (s.wing w).pulsed_slice, ← (s.wing w).pulsed_ctr]
      generalize (s.wing w).silent.pulsed = v
      by_cases hroom : (v.slice a.slice).outbox.length < 4
      · obtain ⟨hlseq, hdrop, hheld⟩ := v.takeLetter_keeps hslice (a.field 0 32) hroom
        exact ⟨hlseq, fun _ => ⟨hdrop, hheld⟩, fun h => absurd hroom (by omega)⟩
      · obtain ⟨hlseq, hbox, hdrop⟩ := v.takeLetter_drops hslice (a.field 0 32) hroom
        exact ⟨hlseq, fun h => absurd h hroom, fun _ => ⟨hbox, hdrop⟩⟩
    · rw [hwing, hslice]
      exact (s.wing w).pulsed_silent
  · intro s w line
    refine ⟨fun hlive => ?_, fun hdead => ?_, fun hpow => ?_, fun hoff => ?_⟩
    · obtain ⟨t, ht, honly, hwing, hout⟩ := (stepsWing_apertureRead s w).leaves
        (Wing.readAnswer_of_live hlive)
      exact ⟨t, ht, honly, hwing.trans rfl, hout⟩
    · obtain ⟨t, ht, honly, hout, hwing⟩ := (stepsWing_apertureRead s w).stands
        (Wing.readAnswer_of_dead hdead)
      exact ⟨t, ht, honly, hwing, hout⟩
    · obtain ⟨t, ht, honly, hwing, -⟩ := (stepsWing_alarmLatch s w line).leaves (if_pos hpow)
      obtain ⟨hlatch, hkeep, hwakes, hsleep, hrest⟩ := (s.wing w).silent.alarm_spec line.toNat line.isLt
        { source := 0x5, detail := line.setWidth 12 }
      refine ⟨t, (s.wing w).hrt.latch line.toNat, ht, honly, rfl, ?_⟩
      rw [hwing]
      refine ⟨(hlatch _).trans (if_pos rfl), fun j hj => (hlatch j).trans (if_neg hj), fun hlife => ?_, fun hlife hraw hwake => ?_,
        fun hlife => ?_, fun hlife => ?_⟩
      · exact hkeep fun h => hlife h.1
      · exact hwakes ⟨hlife, hraw, hwake⟩
      · exact hsleep hlife
      · simp only [List.mem_cons, List.not_mem_nil, or_false, not_or] at hlife
        obtain ⟨hnap, hentry, hdeep, hdw⟩ := hlife
        rw [hrest (by simp [Life.sleeps, hnap, hentry, hdeep]) hdw]
        exact (s.wing w).latched_silent line.toNat
    · obtain ⟨t, ht, honly, hout, hwing⟩ := (stepsWing_alarmLatch s w line).stands
        (if_neg (c := (s.wing w).silent.hrt.powered = true) (Bool.not_eq_true _ ▸ hoff))
      exact ⟨t, ht, honly, hwing⟩

end Sys2Proof
end

section
/-! Deep: the entry, the wake, and the restore of the pair (R303, R305, R306, R404). -/

namespace Sys2Proof.Machine

/-! ## What a change of PSG_EN and the votes of a boundary leave -/

/-- PSG_EN shows on a signal and nowhere else. -/
theorem Wing.showEn_shows (w : Wing) (b : BitVec 4) : (w.showEn b).silent = w.silent ∧ w.out <+: (w.showEn b).out := by
  unfold Wing.showEn
  split
  · exact ⟨rfl, List.prefix_rfl⟩
  · exact ⟨rfl, List.prefix_append _ _⟩

/-- A command whose wing then shows its PSG_EN leaves what the step left. -/
theorem StepsWing.leavesShown {i : Instr} {s : State} {w : WingId} {f : Wing → Wing} {b : BitVec 4}
    (h : StepsWing i s w fun v => (f v).showEn b) {v : Wing} (hf : f (s.wing w).silent = v) :
    ∃ t, exec i s = .next t ∧ s.onlyWing t w ∧ t.wing w = v.silent ∧ ∀ o ∈ v.out, o ∈ t.out := by
  obtain ⟨t, ht, honly, hwing, hout⟩ := h
  subst hf
  obtain ⟨hsilent, hprefix⟩ := (f (s.wing w).silent).showEn_shows b
  exact ⟨t, ht, honly, hwing.trans hsilent, fun o ho => hout ▸ hprefix.subset ho⟩

theorem Wing.noteOwnVotes_stage (w : Wing) : w.noteOwnVotes.SameStage w := by
  unfold Wing.noteOwnVotes
  refine Wing.sameStage_foldl _ _ _ fun v k => ?_
  split
  · exact ⟨rfl, rfl, rfl, rfl, rfl, rfl, rfl⟩
  · split <;> exact ⟨rfl, rfl, rfl, rfl, rfl, rfl, rfl⟩

/-- The votes noted at a boundary change nothing of a restore that failed, nor of a wait. -/
theorem Wing.noteOwnVotes_waits (w : Wing) :
    w.noteOwnVotes.pwr.restoreFail = w.pwr.restoreFail ∧ w.noteOwnVotes.pwr.waitFrom = w.pwr.waitFrom := by
  have h := foldl_keeps (fun v : Wing => (v.pwr.restoreFail, v.pwr.waitFrom)) (fun (w : Wing) k =>
    if w.pwr.domOn.getLsbD k || (SMap.find? w.pwr.domFirst k).isSome then w
    else match w.ownVote k with
      | some v => { w with pwr := { w.pwr with domFirst := SMap.insert w.pwr.domFirst k v } }
      | none => w) (fun v k => by
    split
    · rfl
    · split <;> rfl) (List.range 32) w
  exact Prod.mk.inj h

/-! ## The entry -/

/-- A standby that goes off at E: its pending change ends, and the anchor is written. -/
def Wing.leaving (w : Wing) : Wing := { w.clearPair with pwr := { w.clearPair.pwr with enterTick := w.now } }.writeAnchor

theorem Wing.leaving_keeps (w : Wing) : w.leaving.id = w.id ∧ w.leaving.ctl = w.ctl ∧ w.leaving.regs.ctr = w.regs.ctr := by
  obtain ⟨-, hctl, -, -, -, -, hid, hctr, -⟩ := w.clearPair_keeps
  unfold Wing.leaving
  simp [hctl, hctr]

theorem Wing.enterDeep_of_due {w : Wing} (hrun : w.running = true) (hdue : w.changeDue 2 = true) (hno : w.entryRefusal true = none) :
    (w.ctl.role = .active → w.enterDeep = w.beginEntry true) ∧
      (w.ctl.role ≠ .active →
        w.enterDeep = w.leaving.turnOff) := by
  unfold Wing.enterDeep
  rw [if_pos (by rw [hrun, hdue]; rfl), hno]
  exact ⟨fun h => if_pos h, fun h => if_neg h⟩

theorem Wing.enterDeep_stands {w : Wing} (h : w.running = false ∨ w.changeDue 2 = false) : w.enterDeep = w := by
  refine if_neg fun hcond => ?_
  simp only [Bool.and_eq_true] at hcond
  exact h.elim (fun h => absurd hcond.1 (Bool.eq_false_iff.1 h)) fun h => absurd hcond.2 (Bool.eq_false_iff.1 h)

/-- An entry to Deep that is not refused to a standby concerns no other wing. -/
theorem stepsWing_deepEntry {s : State} {w : WingId}
    (h : (s.wing w).running = false ∨ (s.wing w).changeDue 2 = false ∨ (s.wing w).entryRefusal true = none) :
    StepsWing (.deepEntry w) s w fun v => v.enterDeep.showEn v.psgEn := by
  refine stepsWing (congrArg Host.Outcome.next (if_neg fun hback => ?_))
  simp only [Bool.and_eq_true, Wing.isStandby] at hback
  obtain ⟨⟨⟨hrun, -⟩, hdue⟩, hrefused⟩ := hback
  rcases h with h | h | h
  · exact absurd hrun (Bool.eq_false_iff.1 h)
  · exact absurd hdue (Bool.eq_false_iff.1 h)
  · rw [h] at hrefused
    cases hrefused

/-- An entry to Deep that the active wing begins. -/
theorem Wing.beginEntry_deep_spec {w : Wing} (hact : w.ctl.role = .active) :
    (w.beginEntry true).life = .deepEntry ∧ (w.beginEntry true).pwr.enterTick = w.now ∧
      (w.beginEntry true).pwr.saveAt = none ∧ (w.beginEntry true).pwr.offAt = none := by
  unfold Wing.beginEntry
  extract_lets k ticks w1 pwr1 vst1 hall1 int1 w2
  have hrole : w2.ctl.role = .active := hact
  rw [if_pos hrole]
  obtain ⟨hlife, hpwr, -⟩ := (by simpa [Wing.asEntered] using Wing.asEntered_clean 64 w2 :
    (Wing.clean 64 w2).life = w2.life ∧ (Wing.clean 64 w2).pwr = w2.pwr ∧ (Wing.clean 64 w2).vst = w2.vst ∧
      (Wing.clean 64 w2).regs.eff = w2.regs.eff)
  exact ⟨hlife, by rw [hpwr], by rw [hpwr], by rw [hpwr]⟩

/-- R305, R404: what a wing that is off shows, and what it keeps. -/
theorem Wing.turnOff_spec (w : Wing) :
    w.turnOff.life = .deep ∧ w.turnOff.pan.slots = [] ∧ w.turnOff.ctr cDeepEntries = w.ctr cDeepEntries + 1 ∧
      w.turnOff.ctl.claim = w.ctl.claim ∧ w.turnOff.ctl.seen = w.ctl.seen ∧ Out.hrtDeep w.id true ∈ w.turnOff.out := by
  obtain ⟨hid, hclaim, hseen⟩ := w.turnOff_claims
  refine ⟨?_, ?_, ?_, hclaim, hseen, ?_⟩
  · simp [Wing.turnOff]
  · simp [Wing.turnOff, Pantry.reset]
  · have hctr : w.turnOff.regs.ctr = (w.dropPort.dropMove.count cDeepEntries).regs.ctr := by simp [Wing.turnOff]
    have hdrop : w.dropPort.dropMove.regs.ctr = w.regs.ctr := by simp [Wing.dropPort]
    unfold Wing.ctr at *
    rw [hctr]
    refine (Wing.ctr_count_self w.dropPort.dropMove cDeepEntries).trans ?_
    rw [Wing.ctr, hdrop]
  · simp [Wing.turnOff]

/-! ## The wake -/

theorem stepsWing_deepWake (s : State) (w : WingId) (c : WakeCause) (save : Option SaveArea) :
    StepsWing (.deepWake w c save) s w fun v => (v.wakeDeep c save).showEn v.psgEn := stepsWing rfl

theorem Wing.wakeDeep_stands {w : Wing} {c : WakeCause}
    (h : w.life ≠ .deep ∨ w.hrt.powered = false ∨ (w.hrt.lowestLatch = none ∧ c.source ≠ 0xA)) (save : Option SaveArea) :
    w.wakeDeep c save = w := by
  unfold Wing.wakeDeep
  split
  next hdeep =>
    have hnone : w.wakeCause c = none := by
      unfold Wing.wakeCause
      rcases h.resolve_left (fun hne => hne (eq_of_beq hdeep)) with hpow | ⟨hlatch, hsource⟩
      · rw [hpow]
        rfl
      · simp only [hlatch, if_neg hsource, ite_self]
    rw [hnone]
  next => rfl

/-- R332: the lowest latch that is set is the cause, before PWR_WAKE_IN. -/
theorem Wing.wakeDeep_of_cause {w : Wing} {c x : WakeCause} (hdeep : w.life = .deep) (hpow : w.hrt.powered = true)
    (hx : (∃ i, w.hrt.lowestLatch = some i ∧ x = { source := 0x5, detail := BitVec.ofNat 12 i }) ∨
      (w.hrt.lowestLatch = none ∧ c.source = 0xA ∧ x = c)) (save : Option SaveArea) : w.wakeDeep c save = w.powerUp x save := by
  have hcause : w.wakeCause c = some x := by
    unfold Wing.wakeCause
    rw [if_neg (by rw [hpow]; exact Bool.false_ne_true)]
    rcases hx with ⟨i, hi, rfl⟩ | ⟨hi, hsource, rfl⟩
    · rw [hi]
    · rw [hi]
      exact if_pos hsource
  unfold Wing.wakeDeep
  rw [if_pos (by rw [hdeep]; rfl), hcause]

/-- What the notes of the banks that wake leave as it is. -/
def Wing.awake (w : Wing) : Life × Ctl × Level × BitVec 3 × Word × Hearth × List Out :=
  (w.life, w.ctl, w.pwr.level, w.pwr.vsel, w.pwr.wake, w.hrt, w.out)

theorem Wing.powerUp_spec {w : Wing} (hpow : w.hrt.powered = true) (x : WakeCause) (save : Option SaveArea) :
    (w.powerUp x save).life = .deepWake ∧ (w.powerUp x save).ctl.hasTick = w.ctl.hasTick ∧
      (w.powerUp x save).ctl.rawWait ≠ none ∧ (w.powerUp x save).ctl.saved = (if w.saveValid then save else none) ∧
      (w.powerUp x save).pwr.level = Level.ofCode w.fastLimit ∧
      (w.powerUp x save).pwr.vsel = (Level.ofCode w.fastLimit).code.setWidth 3 ∧
      (w.powerUp x save).pwr.wake = wakeWord false true x ∧
      (w.powerUp x save).hrt.wake =
        hrtWakeWord x.source (if x.source = 0x5 then x.detail.extractLsb' 0 4 else 0) w.hrt.raw ∧
      Out.hrtDeep w.id false ∈ (w.powerUp x save).out := by
  unfold Wing.powerUp
  rw [Wing.onHearth_of_powered hpow]
  extract_lets l w1 area served ctl1 pwr1 w2
  have hawake : (served.foldl (fun (w : Wing) p => w.noteBankWake p bwDeepExit) w2).awake = w2.awake :=
    foldl_keeps Wing.awake (fun w p => w.noteBankWake p bwDeepExit) (fun v p => rfl) served w2
  obtain ⟨hlife, hctl, hlevel, hvsel, hwake, hhrt, hout⟩ := (by simpa only [Wing.awake, Prod.mk.injEq] using hawake)
  rw [hlife, hctl, hlevel, hvsel, hwake, hhrt, hout]
  exact ⟨rfl, rfl, Option.some_ne_none _, rfl, rfl, rfl, rfl, rfl, List.mem_append_right _ List.mem_cons_self⟩

/-! ## The restore -/

/-- R306: what a wing that restores the pair has become; `seen` is the greatest claim that the save area names. -/
structure Wing.Restored (w v : Wing) (seen : Word) : Prop where
  life : v.life = .run
  role : v.ctl.role = .active
  duplex : v.ctl.duplex = false
  tick : v.ctl.tick = w.ctl.tick
  above : seen.toNat < v.ctl.claim.toNat
  near : v.ctl.claim.toNat ≤ seen.toNat + 2
  parity : v.ctl.claim.toNat % 2 = (if w.id = .west then 1 else 0)

theorem Wing.Restored.of_same {w v u : Wing} {seen : Word} (h : w.Restored v seen) (hstage : u.SameStage v)
    (hclaims : u.SameClaims v) : w.Restored u seen := by
  obtain ⟨hlife, hrole, hduplex, htick, habove, hnear, hparity⟩ := h
  obtain ⟨klife, krole, kduplex, ktick, -⟩ := hstage
  obtain ⟨-, kclaim, -⟩ := hclaims
  exact ⟨klife.trans hlife, krole.trans hrole, kduplex.trans hduplex, ktick.trans htick, by rw [kclaim]; exact habove,
    by rw [kclaim]; exact hnear, by rw [kclaim]; exact hparity⟩

/-- The wing whose restore has failed. -/
def Wing.failed (w : Wing) : Wing := { w with life := .outOfService, pwr := { w.pwr with restoreFail := true } }

theorem Wing.failed_keeps (w : Wing) : w.failed.life = .outOfService ∧ w.failed.pwr.restoreFail = true := ⟨rfl, rfl⟩

theorem Wing.restore_fails {w : Wing} {save : Option SaveArea} (h : ∀ a, save = some a → readTrailer a = none) :
    w.restore save = w.failed := by
  unfold Wing.restore
  cases save with
  | none => rfl
  | some a =>
    simp only [h a rfl]
    rfl

/-- The wing with the active role of a restored pair (R306). -/
def Wing.inDeepRole (w : Wing) : Wing :=
  { w.becomeActive with
    ctl := { w.becomeActive.ctl with duplex := false, tkoPhase := some 0, tkoTick := w.becomeActive.now, writesHeld := true }
    hall := { w.becomeActive.hall with resuming := true } }

/-- What the wing does with the role: it is counted and logged, and the work that fell due over Deep is done. -/
def Wing.takesDeepRole (w : Wing) : Wing :=
  (((((w.inDeepRole.count cTakeover).logTko tkTakeover).reloadPinned).openBudgets.catchUp).claimPowered).registerAlarms.drainAll

theorem Wing.takesDeepRole_stage (w : Wing) : w.takesDeepRole.SameStage w.inDeepRole := by
  unfold Wing.takesDeepRole
  generalize w.inDeepRole = v
  have hlog : ((v.count cTakeover).logTko tkTakeover).SameStage v := ⟨rfl, rfl, rfl, rfl, rfl, rfl, rfl⟩
  exact (((((((Wing.drainAll_stage _).trans (Wing.registerAlarms_stage _)).trans (Wing.claimPowered_stage _)).trans
    (Wing.catchUp_stage _)).trans (Wing.openBudgets_stage _)).trans (Wing.reloadPinned_stage _))).trans hlog

theorem Wing.takesDeepRole_claims (w : Wing) : w.takesDeepRole.SameClaims w.inDeepRole := by
  unfold Wing.takesDeepRole
  generalize w.inDeepRole = v
  simp

theorem Wing.restore_spec (w : Wing) {a : SaveArea} {c0 seen : Word} {e : Tick} (ha : readTrailer a = some (c0, seen, e))
    (hroom : seen.toNat + 2 < 2 ^ 32) : w.Restored (w.restore (some a)) seen := by
  unfold Wing.restore
  simp only [ha]
  have hstage1 : (({ w with life := .run } : Wing).loadImage (SaveArea.map a)).loadPchCfg.SameStage { w with life := .run } :=
    (Wing.loadPchCfg_stage _).trans (Wing.loadImage_stage _ _)
  have hclaims1 : (({ w with life := .run } : Wing).loadImage (SaveArea.map a)).loadPchCfg.SameClaims { w with life := .run } :=
    (Wing.loadPchCfg_claims _).trans (Wing.loadImage_claims _ _)
  generalize (({ w with life := .run } : Wing).loadImage (SaveArea.map a)).loadPchCfg = w1 at hstage1 hclaims1 ⊢
  obtain ⟨c, ⟨habove, hnear, hparity⟩, hraise⟩ :=
    Wing.raiseClaim_of_room (w := { w1 with ctl := { w1.ctl with seen := seen } }) hroom Wing.takesDeepRole
  obtain ⟨hlife1, -, -, htick1, -⟩ := hstage1
  have htook : w.Restored (({ w1 with ctl := { w1.ctl with seen := seen } } : Wing).withClaim c).inDeepRole seen :=
    ⟨hlife1, rfl, rfl, htick1, habove, hnear, hparity.trans (by rw [hclaims1.1])⟩
  refine Eq.mpr (congrArg (w.Restored · seen) hraise) (htook.of_same ?_ ?_)
  · exact Wing.takesDeepRole_stage _
  · exact Wing.takesDeepRole_claims _

/-! ## The boundary after a wake -/

/-- What the close of a tick in Deep's wake leaves as it is. -/
def Wing.waking (w : Wing) : Life × WingId × BitVec 64 × SMap Word × Option Tick × Option SaveArea :=
  (w.life, w.id, w.portGen, w.regs.eff, w.ctl.tickDue, w.ctl.saved)

theorem Wing.waking_settleLanes {w : Wing} (h : w.running = false) : w.settleLanes.waking = w.waking := by
  have htrain : w.trainLanes.waking = w.waking := foldl_keeps Wing.waking
    (fun (w : Wing) l => w.setLane l ((w.lane l).boundary (w.laneEn l) (w.life != .nap))) (fun _ _ => rfl) (List.range 4) w
  have hrun : w.trainLanes.running = false := by
    have hlife : w.trainLanes.life = w.life := congrArg Prod.fst htrain
    rw [Wing.running, hlife]
    exact h
  have hmap (v : Wing) : v.setMap.waking = v.waking := by simp [Wing.waking]
  unfold Wing.settleLanes
  generalize w.trainLanes = v at htrain hrun ⊢
  simp only [hrun, Bool.false_eq_true, ↓reduceIte]
  split
  · exact (hmap v).trans htrain
  · exact htrain

/-- The wing at the end of the tick that closes. -/
def Wing.closedOther (w : Wing) : Wing := w.closeOther.closePassage.settleLanes.countBeats

theorem Wing.waking_closedOther {w : Wing} (h : w.running = false) : w.closedOther.waking = w.waking := by
  have hclose : w.closeOther.closePassage.waking = w.waking := by simp [Wing.waking]
  have hrun : w.closeOther.closePassage.running = false := by simpa [Wing.running] using h
  have hbeats (v : Wing) : v.countBeats.waking = v.waking := rfl
  rw [Wing.closedOther, hbeats, Wing.waking_settleLanes hrun, hclose]

/-- A counter that is due starts (R324). -/
theorem Wing.nextTick_of_due {w : Wing} {tk : Tick} (h : w.ctl.tickDue = some tk) :
    w.nextTick.ctl.tick = tk ∧ w.nextTick.ctl.hasTick = true ∧ w.nextTick.ctl.saved = w.ctl.saved ∧ w.nextTick.life = w.life ∧
      w.nextTick.id = w.id ∧ w.nextTick.portGen = w.portGen ∧ w.nextTick.regs = w.regs := by
  unfold Wing.nextTick
  extract_lets w1 ctl1 v
  have hv : v.ctl.tickDue = some tk ∧ v.ctl.saved = w.ctl.saved ∧ v.life = w.life ∧ v.id = w.id ∧
      v.portGen = w.portGen ∧ v.regs = w.regs := by
    simp only [v]
    split <;> simp [ctl1, h, w1]
  obtain ⟨hdue, hsaved, hlife, hid, hgen, hregs⟩ := hv
  simp only [hdue]
  exact ⟨trivial, trivial, hsaved, hlife, hid, hgen, hregs⟩

theorem Wing.takeSnap_keeps' (w : Wing) :
    w.takeSnap.ctl = w.ctl ∧ w.takeSnap.life = w.life ∧ w.takeSnap.id = w.id ∧ w.takeSnap.portGen = w.portGen ∧
      w.takeSnap.regs.eff = w.regs.eff := by
  unfold Wing.takeSnap
  split <;> exact ⟨rfl, rfl, rfl, rfl, rfl⟩

/-- The wing at the boundary of its wake, before what its counter brings. -/
def Wing.woken (w : Wing) : Wing := w.closedOther.nextTick.takeSnap

theorem Wing.woken_spec {w : Wing} {tk : Tick} (hlife : w.life = .deepWake) (hdue : w.ctl.tickDue = some tk) :
    w.woken.ctl.tick = tk ∧ w.woken.ctl.hasTick = true ∧ w.woken.ctl.saved = w.ctl.saved ∧ w.woken.life = .deepWake ∧
      w.woken.id = w.id ∧ w.woken.isHome = w.isHome := by
  obtain ⟨hlife1, hid1, hgen1, heff1, hdue1, hsaved1⟩ := (by
    simpa only [Wing.waking, Prod.mk.injEq] using Wing.waking_closedOther (w := w) (by simp [Wing.running, hlife]))
  obtain ⟨htick, hhas, hsaved, klife, kid, kgen, kregs⟩ := Wing.nextTick_of_due (hdue1.trans hdue)
  obtain ⟨sctl, slife, sid, sgen, seff⟩ := w.closedOther.nextTick.takeSnap_keeps'
  have heff : w.woken.regs.eff = w.regs.eff := seff.trans ((congrArg Regs.eff kregs).trans heff1)
  have hid : w.woken.id = w.id := sid.trans (kid.trans hid1)
  refine ⟨(congrArg Ctl.tick sctl).trans htick, (congrArg Ctl.hasTick sctl).trans hhas,
    (congrArg Ctl.saved sctl).trans (hsaved.trans hsaved1), slife.trans (klife.trans (hlife1.trans hlife)), hid, ?_⟩
  have hgen : w.woken.portGen = w.portGen := sgen.trans (kgen.trans hgen1)
  unfold Wing.isHome Wing.effW
  rw [heff, hid, hgen]

theorem Wing.beginWait_starts (w : Wing) :
    w.beginWait.life = w.life ∧ w.beginWait.ctl.tick = w.ctl.tick ∧ w.beginWait.ctl.hasTick = w.ctl.hasTick ∧
      w.beginWait.pwr.waitFrom = w.ctl.tick := ⟨rfl, rfl, rfl, rfl⟩

/-- The save area is read once. -/
def Wing.unsaved (w : Wing) : Wing := { w with ctl := { w.ctl with saved := none } }

theorem Wing.unsaved_keeps (w : Wing) : w.unsaved.id = w.id ∧ w.unsaved.ctl.tick = w.ctl.tick := ⟨rfl, rfl⟩

/-- What the wing is at the boundary at which its counter starts, before the votes of its domains. -/
def Wing.started (w : Wing) : Wing :=
  if w.woken.isHome then w.woken.unsaved.restore w.woken.ctl.saved else w.woken.beginWait

/-- R306: the boundary at which the counter of a woken wing starts. -/
theorem Wing.wakeBoundary_of_due {w : Wing} {tk : Tick} (hdue : w.ctl.tickDue = some tk) : w.wakeBoundary = w.started := by
  have heq : w.wakeBoundary = if w.ctl.tickDue.isNone then w.woken
      else if w.woken.isHome then w.woken.unsaved.restore w.woken.ctl.saved else w.woken.beginWait := by
    unfold Wing.wakeBoundary Wing.woken Wing.closedOther Wing.unsaved
    rfl
  rw [heq, hdue]
  rfl

theorem exec_tickBoundary_woken {s : State} {w : WingId} {tk : Tick} (hlife : (s.wing w).life = .deepWake)
    (hdue : (s.wing w).ctl.tickDue = some tk) (ecc : List EccFind) :
    ∃ t, exec (.tickBoundary w ecc) s = .next t ∧ t.wing w = (s.wing w).silent.started.noteOwnVotes.silent := by
  have hboundary : (s.wing w).silent.boundary ecc = (s.wing w).silent.started.noteOwnVotes := by
    rw [← Wing.wakeBoundary_of_due (w := (s.wing w).silent) hdue]
    unfold Wing.boundary
    rw [show (s.wing w).silent.life = .deepWake from hlife]
  obtain ⟨t, ht, hwing⟩ := exec_tickBoundary_wing s w ecc
  refine ⟨t, ht, hwing.trans ?_⟩
  rw [(Wing.showEn_shows _ _).1, hboundary]

theorem Wing.joinTimeout_of_due {w : Wing} (hlife : w.life = .deepWake) (htick : w.ctl.hasTick = true)
    (hdue : w.pwr.waitFrom.toNat + 4096 ≤ w.now.toNat) (save : Option SaveArea) :
    w.joinTimeout save = w.restore (if w.saveValid then save else none) := by
  unfold Wing.joinTimeout
  exact if_pos (by rw [hlife, htick, decide_eq_true hdue]; rfl)

theorem Wing.joinTimeout_stands {w : Wing}
    (h : w.life ≠ .deepWake ∨ w.ctl.hasTick = false ∨ w.now.toNat < w.pwr.waitFrom.toNat + 4096) (save : Option SaveArea) :
    w.joinTimeout save = w := by
  unfold Wing.joinTimeout
  refine if_neg fun hcond => ?_
  simp only [Bool.and_eq_true, beq_iff_eq, decide_eq_true_eq] at hcond
  obtain ⟨⟨hlife, htick⟩, hdue⟩ := hcond
  rcases h with h | h | h
  · exact h hlife
  · exact absurd htick (Bool.eq_false_iff.1 h)
  · omega

theorem stepsWing_deepJoinTimeout (s : State) (w : WingId) (save : Option SaveArea) :
    StepsWing (.deepJoinTimeout w save) s w fun v => (v.joinTimeout save).showEn v.psgEn := stepsWing rfl

/-! ## The boundaries of an entry -/

theorem Wing.arriveDeep_of_entry {w : Wing} (h : w.life = .deepEntry) :
    w.arriveDeep = match w.pwr.saveAt, w.pwr.offAt with
      | none, _ => if decide (w.pwr.enterTick.toNat < w.now.toNat) && w.written then w.writeSave else w
      | some t, none =>
          if decide (w.pwr.sleepAt.toNat ≤ w.now.toNat) && decide (t.toNat + saveTicks ≤ w.now.toNat) then w.beginOff else w
      | some _, some t => if decide (t.toNat ≤ w.now.toNat) then w.turnOff else w := by
  unfold Wing.arriveDeep
  exact if_neg (by rw [h]; decide)

theorem Wing.writeAnchor_of_active {w : Wing} (htick : w.ctl.hasTick = true) (hrole : w.ctl.role = .active)
    (hpow : w.hrt.powered = true) : w.writeAnchor.hrt = w.hrt.withAnchor w.now := by
  unfold Wing.writeAnchor
  rw [if_pos (by rw [htick, hrole]; rfl), Wing.onHearth_of_powered hpow]
  exact w.hrt.withAnchor_eq w.now

/-- The wing that is off at the end of step 4. -/
def Wing.offDue (w : Wing) : Wing := { w with pwr := { w.pwr with offAt := some (w.now + BitVec.ofNat 56 offTicks) } }

theorem Wing.beginOff_eq (w : Wing) : w.beginOff = w.offDue.writeAnchor := rfl

/-- Step 4 of R305 begins: the anchor takes this tick. -/
theorem Wing.beginOff_spec (w : Wing) :
    w.beginOff.life = w.life ∧ w.beginOff.pwr.offAt = some (w.now + 4) ∧
      (w.ctl.hasTick = true → w.ctl.role = .active → w.hrt.powered = true →
        w.beginOff.hrt.ancValid = true ∧ w.beginOff.hrt.ancTick = w.now) := by
  rw [Wing.beginOff_eq]
  refine ⟨by simp [Wing.offDue], by simp [Wing.offDue, offTicks], fun htick hrole hpow => ?_⟩
  rw [Wing.writeAnchor_of_active (w := w.offDue) htick hrole hpow]
  exact ⟨rfl, rfl⟩

end Sys2Proof.Machine

namespace Sys2Proof

open Machine

/-- Settles O53: each of the commands by its condition; a restore raises the claim as `Wing.raiseClaim_of_room` says. -/
theorem deepTurnsOffAndRestores : Obligations.DeepTurnsOffAndRestores := by
  unfold Obligations.DeepTurnsOffAndRestores
  refine ⟨fun s w => ⟨fun hrun hdue hno => ⟨fun hact => ?_, fun hstandby => ?_⟩, fun h => ?_,
    fun c save => ⟨fun h => ?_, fun x hdeep hpow hx => ?_⟩, fun ecc tk hlife hdue => ⟨fun hhome hbad => ?_,
    fun a c0 seen e hhome hsaved ha hroom => ?_, fun haway => ?_⟩, fun hlife htick hdue => ⟨?_, fun a c0 seen e hvalid ha hroom => ?_⟩,
    fun save h => ?_⟩, fun v hlife => ⟨fun hsave hafter hwritten => ?_, fun x hsave hoff hsleep hdone => ?_,
    fun x y hsave hoff hdone => ?_⟩⟩
  · have heq := (Wing.enterDeep_of_due (w := (s.wing w).silent) hrun hdue hno).1 hact
    obtain ⟨t, ht, honly, hwing, -⟩ := (stepsWing_deepEntry (.inr (.inr hno))).leavesShown heq
    refine ⟨t, ht, honly, ?_⟩
    rw [hwing]
    exact Wing.beginEntry_deep_spec (w := (s.wing w).silent) hact
  · have heq := (Wing.enterDeep_of_due (w := (s.wing w).silent) hrun hdue hno).2 (by
      rw [show (s.wing w).silent.ctl.role = .standby from hstandby]
      decide)
    obtain ⟨t, ht, honly, hwing, hout⟩ := (stepsWing_deepEntry (.inr (.inr hno))).leavesShown heq
    obtain ⟨hid, hctl, hctr⟩ := (s.wing w).silent.leaving_keeps
    obtain ⟨klife, kslots, kctr, kclaim, kseen, kout⟩ := (s.wing w).silent.leaving.turnOff_spec
    refine ⟨t, ht, honly, ?_⟩
    rw [hwing]
    refine ⟨klife, kctr.trans ?_, kslots, kclaim.trans (congrArg Ctl.claim hctl), kseen.trans (congrArg Ctl.seen hctl),
      hout _ (hid ▸ kout)⟩
    rw [Wing.ctr, hctr]
    rfl
  · have heq := Wing.enterDeep_stands (w := (s.wing w).silent) h
    exact (stepsWing_deepEntry (h.imp_right .inl)).stands (by rw [heq, Wing.showEn_self])
  · have heq := Wing.wakeDeep_stands (w := (s.wing w).silent) h save
    exact (stepsWing_deepWake s w c save).stands (by rw [heq, Wing.showEn_self])
  · have heq := Wing.wakeDeep_of_cause (w := (s.wing w).silent) hdeep hpow hx save
    obtain ⟨t, ht, honly, hwing, hout⟩ := (stepsWing_deepWake s w c save).leavesShown heq
    obtain ⟨klife, ktick, kraw, ksaved, klevel, kvsel, kwake, khrt, kout⟩ :=
      Wing.powerUp_spec (w := (s.wing w).silent) hpow x save
    refine ⟨t, ht, honly, ?_⟩
    rw [hwing]
    exact ⟨klife, ktick, kraw, ksaved, klevel, kvsel, kwake, khrt, hout _ kout⟩
  · obtain ⟨t, ht, hwing⟩ := exec_tickBoundary_woken hlife hdue ecc
    obtain ⟨-, -, hsaved, -, -, khome⟩ := Wing.woken_spec (w := (s.wing w).silent) hlife hdue
    refine ⟨t, ht, ?_⟩
    rw [hwing, Wing.started, if_pos (khome.trans hhome), Wing.restore_fails (by rw [hsaved]; exact hbad)]
    obtain ⟨klife, kfail⟩ := (s.wing w).silent.woken.unsaved.failed_keeps
    obtain ⟨slife, -⟩ := (s.wing w).silent.woken.unsaved.failed.noteOwnVotes_stage
    exact ⟨slife.trans klife, (Wing.noteOwnVotes_waits _).1.trans kfail⟩
  · obtain ⟨t, ht, hwing⟩ := exec_tickBoundary_woken hlife hdue ecc
    obtain ⟨htick, -, ksaved, -, kid, khome⟩ := Wing.woken_spec (w := (s.wing w).silent) hlife hdue
    obtain ⟨uid, utick⟩ := (s.wing w).silent.woken.unsaved_keeps
    have hrest := (s.wing w).silent.woken.unsaved.restore_spec ha hroom
    obtain ⟨rlife, rrole, rduplex, rtick, rabove, rnear, rparity⟩ :=
      hrest.of_same (Wing.noteOwnVotes_stage _) (Wing.noteOwnVotes_claims _)
    refine ⟨t, ht, ?_⟩
    rw [hwing, Wing.started, if_pos (khome.trans hhome), ksaved.trans hsaved]
    exact ⟨rlife, rrole, rtick.trans (utick.trans htick), rduplex, rabove, rnear,
      rparity.trans (by rw [uid, kid, (s.wing w).silent_keeps.1])⟩
  · obtain ⟨t, ht, hwing⟩ := exec_tickBoundary_woken hlife hdue ecc
    obtain ⟨htick, hhas, -, klife, -, khome⟩ := Wing.woken_spec (w := (s.wing w).silent) hlife hdue
    obtain ⟨slife, -, -, stick, shas, -⟩ := Wing.noteOwnVotes_stage (s.wing w).silent.woken.beginWait
    refine ⟨t, ht, ?_⟩
    rw [hwing, Wing.started, if_neg (by rw [khome]; exact Bool.eq_false_iff.1 haway)]
    obtain ⟨blife, btick, bhas, bfrom⟩ := (s.wing w).silent.woken.beginWait_starts
    exact ⟨slife.trans (blife.trans klife), stick.trans (btick.trans htick), shas.trans (bhas.trans hhas),
      (Wing.noteOwnVotes_waits _).2.trans (bfrom.trans htick)⟩
  · have heq := (Wing.joinTimeout_of_due (w := (s.wing w).silent) hlife htick hdue none).trans
      (Wing.restore_fails (by rw [ite_self]; exact fun a h => nomatch h))
    obtain ⟨t, ht, honly, hwing, -⟩ := (stepsWing_deepJoinTimeout s w none).leavesShown heq
    refine ⟨t, ht, honly, ?_⟩
    rw [hwing]
    exact (s.wing w).silent.failed_keeps
  · have heq := (Wing.joinTimeout_of_due (w := (s.wing w).silent) hlife htick hdue (some a)).trans
      (congrArg _ (if_pos hvalid))
    obtain ⟨t, ht, honly, hwing, -⟩ := (stepsWing_deepJoinTimeout s w (some a)).leavesShown heq
    obtain ⟨rlife, rrole, -, -, rabove, -, -⟩ := (s.wing w).silent.restore_spec ha hroom
    refine ⟨t, ht, honly, ?_⟩
    rw [hwing]
    exact ⟨rlife, rrole, rabove⟩
  · have heq := Wing.joinTimeout_stands (w := (s.wing w).silent) h save
    exact (stepsWing_deepJoinTimeout s w save).stands (by rw [heq, Wing.showEn_self])
  · rw [Wing.arriveDeep_of_entry hlife, hsave]
    exact if_pos (by rw [decide_eq_true hafter, hwritten]; rfl)
  · have heq : v.arriveDeep = v.beginOff := by
      rw [Wing.arriveDeep_of_entry hlife, hsave, hoff]
      exact if_pos (by rw [decide_eq_true hsleep, decide_eq_true (show x.toNat + saveTicks ≤ v.now.toNat from hdone)]; rfl)
    obtain ⟨klife, koff, kanchor⟩ := v.beginOff_spec
    rw [heq]
    exact ⟨klife.trans hlife, koff, kanchor⟩
  · have heq : v.arriveDeep = v.turnOff := by
      rw [Wing.arriveDeep_of_entry hlife, hsave, hoff]
      exact if_pos (decide_eq_true hdone)
    obtain ⟨klife, -, kctr, kclaim, -, kout⟩ := v.turnOff_spec
    rw [heq]
    exact ⟨klife, kout, kctr, kclaim⟩

end Sys2Proof
end

section
/-! The frames of a tick, and how a tick opens in a standby (R22, R37, R229 to R234, R247, R249). -/

namespace Sys2Proof.Machine

/-! ## The groups of a frame -/

/-- Whole groups are a run from the front, of at most `n` records (R398). -/
theorem wholeGroups_spec (fuel n : Nat) (l : List Rec) :
    wholeGroups fuel n l = l.take (wholeGroups fuel n l).length ∧ (wholeGroups fuel n l).length ≤ n := by
  induction fuel generalizing n l with
  | zero => exact ⟨rfl, Nat.zero_le n⟩
  | succ fuel ih =>
    cases l with
    | nil => exact ⟨rfl, Nat.zero_le n⟩
    | cons r rs =>
      unfold wholeGroups
      extract_lets k
      split
      next hk =>
        obtain ⟨hprefix, hlen⟩ := ih (n - 1 - k) (rs.drop k)
        generalize wholeGroups fuel (n - 1 - k) (rs.drop k) = more at hprefix hlen ⊢
        refine ⟨congrArg (r :: ·) ?_, ?_⟩
        · by_cases hfull : k ≤ rs.length
          · rw [List.length_append, List.length_take, Nat.min_eq_left hfull, List.take_add, ← hprefix]
          · have hnil : more = [] := by
              rw [hprefix, List.drop_eq_nil_of_le (by omega), List.take_nil]
            rw [hnil, List.append_nil, List.length_take, Nat.min_eq_right (by omega), List.take_length,
              List.take_of_length_le (by omega)]
        · simp only [List.length_cons, List.length_append, List.length_take]
          omega
      next => exact ⟨rfl, Nat.zero_le n⟩

/-- R231, R234, R275: what the deferred and the independent group of a frame hold. -/
theorem Wing.frameGroups_spec (w : Wing) (h : w.psg.acc.length + w.psg.ord.length ≤ w.frameSlots) :
    w.psg.acc.length + w.psg.ord.length + w.frameGroups.1.length + w.frameGroups.2.length ≤ w.frameSlots ∧
      w.frameGroups.1.length ≤ 64 ∧
      (w.lastTick = false → w.frameGroups.1 = (w.psg.defr.take w.frameGroups.1.length).map w.formed ∧
        w.frameGroups.2 = (w.psg.rsy ++ w.psg.copies).take w.frameGroups.2.length) ∧
      (w.lastTick = true → w.frameGroups.2 = [] ∧ ∀ r ∈ w.frameGroups.1, isDone r = true) := by
  unfold Wing.frameGroups
  extract_lets cap all d
  cases hlast : w.lastTick with
  | true =>
    have hlen := List.length_take_le (min 64 cap) (w.psg.defr.filter isDone)
    have hcap : cap = w.frameSlots - w.psg.acc.length - w.psg.ord.length := rfl
    refine ⟨?_, ?_, (fun h => nomatch h), fun _ => ⟨rfl, fun r hr => ?_⟩⟩
    · simp only [↓reduceIte, List.length_nil]
      omega
    · simp only [↓reduceIte]
      omega
    · exact (List.mem_filter.1 (List.mem_of_mem_take hr)).2
  | false =>
    obtain ⟨hprefix, hlen⟩ := wholeGroups_spec w.psg.defr.length (min 64 (cap - w.resyncFirst)) w.psg.defr
    have hcap : cap = w.frameSlots - w.psg.acc.length - w.psg.ord.length := rfl
    have hd : d = w.psg.defr.take d.length := hprefix
    have hdlen : d.length ≤ min 64 (cap - w.resyncFirst) := hlen
    have hrest := List.length_take_le (cap - d.length) all
    simp only [Bool.false_eq_true, ↓reduceIte, List.length_map]
    refine ⟨by omega, by omega, fun _ => ⟨congrArg _ hd, ?_⟩, (fun h => nomatch h)⟩
    rw [List.length_take, ← List.take_take, List.take_length]

/-! ## What goes out -/

/-- A frame goes out whole: its mark, and seven blocks on every lane of its map but those that a replay takes. -/
theorem Wing.sendFrame_spec (w : Wing) (f : Frame) :
    .frame w.id f ∈ (w.sendFrame f).out ∧ ∀ b < 7, ∀ l ∈ lanesOf f.map, f.replayedAt (lanePos f.map l) b = false →
      .blockOut w.id (BitVec.ofNat 2 l) (w.frameBlock f l b false) ∈ (w.sendFrame f).out := by
  unfold Wing.sendFrame
  extract_lets blocks w1
  refine ⟨List.mem_append_left _ (List.mem_append_right _ List.mem_cons_self), fun b hb l hl hfree => List.mem_append_right _ ?_⟩
  refine List.mem_flatMap.2 ⟨b, List.mem_range.2 hb, List.mem_filterMap.2 ⟨l, hl, ?_⟩⟩
  rw [hfree]
  rfl

/-- What went out of the sampled records concerns the resync alone (R275). -/
theorem Wing.copiesSent_keeps (w : Wing) (k : Nat) (f : Tick) :
    (w.copiesSent k f).pan = w.pan ∧ (w.copiesSent k f).vst = w.vst ∧ (w.copiesSent k f).out = w.out := by
  unfold Wing.copiesSent
  split <;> exact ⟨rfl, rfl, rfl⟩

/-- The newest frame is kept while a peer may ask for its blocks (R238). -/
theorem Wing.keepFrame_last {w : Wing} (h : w.ctl.duplex = true) (f : Frame) : (w.keepFrame f).getLast? = some f := by
  unfold Wing.keepFrame
  rw [if_pos (by rw [h]; rfl)]
  extract_lets held all old
  have hlen : all.length = w.psg.sent.length + 1 := by simp [all]
  have hall : all.getLast? = some f := by simp [all]
  have hdrop : (all.drop (all.length - 4)).getLast? = some f := by
    rw [List.getLast?_drop, if_neg (by omega), hall]
  exact (List.getLast?_append ..).trans (by rw [hdrop]; rfl)

/-- The wing whose frame, if a lane carries it, has gone out. -/
def Wing.frameSent (w : Wing) (f : Frame) : Wing := if lanesIn w.psg.map = 0 then w else w.sendFrame (w.shownFrame f)

theorem Wing.frameSent_keeps (w : Wing) (f : Frame) :
    (w.frameSent f).pan = w.pan ∧ (w.frameSent f).vst = w.vst ∧ (w.frameSent f).ctl = w.ctl := by
  unfold Wing.frameSent
  split
  · exact ⟨rfl, rfl, rfl⟩
  · exact ⟨rfl, rfl, rfl⟩

/-- The passage behind a frame that has closed: its groups are empty but for what did not fit. -/
def Wing.closedPassage (w : Wing) (f : Frame) (v : Wing) : Wing :=
  { v with psg := { v.psg with
    acc := [], ord := [], accOwed := 0, defr := if w.lastTick then [] else w.psg.defr.drop f.defr.length
    rsy := if w.lastTick then [] else w.psg.rsy.drop f.rsy.length, copies := [], sent := (w.frameSent f).keepFrame f } }

theorem Wing.closeFrame_eq (w : Wing) (f : Frame) :
    w.closeFrame f = w.closedPassage f ((w.frameSent f).copiesSent (f.rsy.length - w.psg.rsy.length) w.now) := rfl

/-- R22, R229, R234: what the close of a frame leaves. -/
theorem Wing.closeFrame_spec (w : Wing) (f : Frame) :
    (w.closeFrame f).psg.acc = [] ∧ (w.closeFrame f).psg.ord = [] ∧ (w.closeFrame f).psg.copies = [] ∧
      (w.closeFrame f).psg.accOwed = 0 ∧
      (w.closeFrame f).psg.defr = (if w.lastTick then [] else w.psg.defr.drop f.defr.length) ∧
      (w.closeFrame f).psg.rsy = (if w.lastTick then [] else w.psg.rsy.drop f.rsy.length) ∧
      (w.ctl.duplex = true → (w.closeFrame f).psg.sent.getLast? = some f) ∧
      (w.closeFrame f).pan = w.pan ∧ (w.closeFrame f).vst = w.vst ∧ (w.closeFrame f).out = (w.frameSent f).out := by
  obtain ⟨cpan, cvst, cout⟩ := (w.frameSent f).copiesSent_keeps (f.rsy.length - w.psg.rsy.length) w.now
  obtain ⟨spn, svst, sctl⟩ := w.frameSent_keeps f
  rw [w.closeFrame_eq]
  exact ⟨rfl, rfl, rfl, rfl, rfl, rfl, fun h => (w.frameSent f).keepFrame_last (by rw [sctl]; exact h) f,
    cpan.trans spn, cvst.trans svst, cout⟩

/-! ## A boundary of a wing that is not active -/

/-- The frame of a wing that is not active (R249). -/
def Wing.otherFrame (w : Wing) : Frame := w.quietFrame w.usedLanes [] (w.psg.rsy.take 97) 0

theorem Wing.closeOther_spec (w : Wing) :
    w.closeOther.psg.acc = [] ∧ w.closeOther.psg.ord = [] ∧ w.closeOther.psg.defr = [] ∧
      w.closeOther.psg.rsy = w.psg.rsy.drop 97 ∧
      w.closeOther.out = (if lanesIn w.usedLanes = 0 then w else w.sendFrame w.otherFrame).out := by
  unfold Wing.closeOther
  exact ⟨rfl, rfl, rfl, rfl, rfl⟩

/-- R37: the levels that a wing that takes its peer's frames has sampled. -/
def Wing.sampled (w : Wing) : Wing :=
  { w with vst := { w.vst with samples := w.vst.samples ++ [(w.now, w.vst.levels)] } }

/-- The tick of a wing opens that is not active. -/
def Wing.openedOther (w : Wing) : Wing := { w with hall := { w.hall with wakeVotes := 0, confirmVote := false }, drn := [] }

theorem Wing.openOther_of_idle {w : Wing} (hrole : w.ctl.role = .standby) (hspill : w.vst.spill = []) (halarms : w.dueAlarms = []) :
    w.openOther = w.sampled.openedOther := by
  have hsample : w.sampleLevels = w.sampled := if_pos (by rw [Wing.followsFrames, hrole]; rfl)
  have hregister : w.sampled.registerAlarms = w.sampled := by
    have hdue : w.sampled.dueAlarms = [] := halarms
    unfold Wing.registerAlarms
    rw [hdue]
    exact ite_self _
  have hreturn : w.sampled.returnReads = w.sampled := by
    have hempty : w.sampled.vst.spill = [] := hspill
    unfold Wing.returnReads
    rw [hempty]
    rfl
  have heq (v : Wing) : v.openOther = v.sampleLevels.registerAlarms.returnReads.openedOther := rfl
  rw [heq, hsample, hregister, hreturn]

end Sys2Proof.Machine

namespace Sys2Proof

open Machine

/-- Settles O11: the groups by `Wing.frameGroups_spec`, the blocks by `Wing.sendFrame_spec`. -/
theorem framesOfATick : Obligations.FramesOfATick := by
  unfold Obligations.FramesOfATick
  refine ⟨⟨?_, ?_⟩, ?_, ?_⟩
  · rintro v digest f rfl hfit
    obtain ⟨htotal, hdefr, husual, hlast⟩ := v.frameGroups_spec hfit
    refine ⟨rfl, rfl, rfl, rfl, rfl, rfl, htotal, hdefr, fun h => ?_, fun h => ?_⟩
    · obtain ⟨hd, hr⟩ := husual h
      exact ⟨hd, hr, if_neg (Bool.eq_false_iff.1 h)⟩
    · obtain ⟨hr, hd⟩ := hlast h
      exact ⟨hr, hd, if_pos h⟩
  · rintro v u f rfl
    obtain ⟨hacc, hord, hcopies, howed, hdefr, hrsy, hsent, hpan, hvst, hout⟩ := v.closeFrame_spec f
    refine ⟨hacc, hord, hcopies, howed, hdefr, hrsy, hsent, hpan, hvst, fun hmap => ?_, fun hmap => ?_⟩
    · rw [hout, Wing.frameSent, if_neg hmap]
      exact v.sendFrame_spec (v.shownFrame f)
    · rw [hout, Wing.frameSent, if_pos hmap]
  · rintro v u rfl
    obtain ⟨hacc, hord, hdefr, hrsy, hout⟩ := v.closeOther_spec
    refine ⟨hacc, hord, hdefr, hrsy, by simp, by simp, by simp, fun hmap => ?_, fun hmap => ?_⟩
    · rw [if_neg hmap] at hout
      obtain ⟨hframe, hblocks⟩ := v.sendFrame_spec v.otherFrame
      rw [hout]
      exact ⟨v.otherFrame, hframe, rfl, rfl, rfl, rfl, rfl, rfl, rfl, rfl, fun b hb l hl => hblocks b hb l hl rfl⟩
    · rw [hout, if_pos hmap]
  · rintro v u hrole hspill halarms rfl
    rw [Wing.openOther_of_idle hrole hspill halarms]
    exact ⟨rfl, rfl, rfl, rfl, rfl, rfl, rfl, rfl, rfl⟩

end Sys2Proof
end

section
/-! The collection of a tick (R20, R133). -/

namespace Sys2Proof.Machine

/-! ## One entry -/

/-- The record of an entry that porch `p` gave. -/
def entryRec (p : Nat) (e : Entry) : JournalRec :=
  { ret := e.kind == .ret, replay := false, synth := false, porch := BitVec.ofNat 8 p, entry := e }

/-- The entry leaves the wing's list, and the next pass starts behind its porch. -/
def Wing.takeEntryOf (w : Wing) (p : Nat) (e : Entry) : Wing :=
  { w with pch := { w.pch with
    entries := SMap.set w.pch.entries [] p ((SMap.get w.pch.entries [] p).erase e), rr := (p + 1) % 256 } }

/-- The record of a claim or a return takes a slot of its budget. -/
def Wing.claimPlaced (w : Wing) (r : JournalRec) : Wing :=
  { w.place (.claim r) with vst := { (w.place (.claim r)).vst with clmLeft := (w.place (.claim r)).vst.clmLeft - 1 } }

/-- The record of a completion takes a slot of its budget. -/
def Wing.completePlaced (w : Wing) (r : JournalRec) : Wing :=
  { w.place (.complete r) with vst := { (w.place (.complete r)).vst with cmpLeft := (w.place (.complete r)).vst.cmpLeft - 1 } }

theorem Wing.collect_eq (w : Wing) (p : Nat) (e : Entry) :
    w.collect p e = if e.kind = .complete then ((w.takeEntryOf p e).applyCompleteRec w.now (entryRec p e)).completePlaced (entryRec p e)
      else ((w.takeEntryOf p e).applyClaimRec w.now (entryRec p e)).claimPlaced (entryRec p e) := rfl

theorem Wing.claimPlaced_keeps (w : Wing) (r : JournalRec) :
    (w.claimPlaced r).pch = w.pch ∧ (w.claimPlaced r).pan = w.pan ∧ (w.claimPlaced r).psg.ord = w.psg.ord ++ [.claim r] ∧
      (w.claimPlaced r).vst.clmLeft = w.vst.clmLeft - 1 ∧ (w.claimPlaced r).vst.cmpLeft = w.vst.cmpLeft := by
  unfold Wing.claimPlaced
  refine ⟨by simp, by simp, ?_, by simp, by simp⟩
  simp [Wing.place_psg, Rec.group]

theorem Wing.completePlaced_keeps (w : Wing) (r : JournalRec) :
    (w.completePlaced r).pch = w.pch ∧ (w.completePlaced r).pan = w.pan ∧
      (w.completePlaced r).psg.ord = w.psg.ord ++ [.complete r] ∧
      (w.completePlaced r).vst.cmpLeft = w.vst.cmpLeft - 1 ∧ (w.completePlaced r).vst.clmLeft = w.vst.clmLeft := by
  unfold Wing.completePlaced
  refine ⟨by simp, by simp, ?_, by simp, by simp⟩
  simp [Wing.place_psg, Rec.group]

/-- The budgets are no part of what a completion changes. -/
theorem Wing.applyCompleteRec_budgets (w : Wing) (t : Tick) (r : JournalRec) :
    (w.applyCompleteRec t r).vst.clmLeft = w.vst.clmLeft ∧ (w.applyCompleteRec t r).vst.cmpLeft = w.vst.cmpLeft := by
  unfold Wing.applyCompleteRec Wing.applyComplete
  cases (w.setJseq r.porch r.entry.jseq).ctx? r.entry.key with
  | none => simp
  | some c => by_cases h : c.state.completable = true ∧ c.lastCore = r.porch <;> simp [h]

theorem Wing.applyCompleteRec_pch (w : Wing) (t : Tick) (r : JournalRec) :
    (w.applyCompleteRec t r).pch = (w.setJseq r.porch r.entry.jseq).pch := by simp [Wing.applyCompleteRec]

section
variable (w : Wing) (p : Nat) (e : Entry)

/-- Whatever the entry, it leaves its porch's list, and no other list nor any replay changes. -/
theorem Wing.collect_entries :
    SMap.get (w.collect p e).pch.entries [] p = (SMap.get w.pch.entries [] p).erase e ∧
      (∀ q, q ≠ p → SMap.get (w.collect p e).pch.entries [] q = SMap.get w.pch.entries [] q) ∧
      (w.collect p e).pch.replay = w.pch.replay ∧ (w.collect p e).pch.rr = (p + 1) % 256 := by
  have hpch : (w.collect p e).pch.entries = (w.takeEntryOf p e).pch.entries ∧
      (w.collect p e).pch.replay = (w.takeEntryOf p e).pch.replay ∧ (w.collect p e).pch.rr = (w.takeEntryOf p e).pch.rr := by
    rw [Wing.collect_eq]
    split
    · rw [(Wing.completePlaced_keeps _ _).1, Wing.applyCompleteRec_pch]
      exact ⟨rfl, rfl, rfl⟩
    · rw [(Wing.claimPlaced_keeps _ _).1, Wing.applyClaimRec_pch]
      exact ⟨rfl, rfl, rfl⟩
  obtain ⟨hentries, hreplay, hrr⟩ := hpch
  rw [hentries, hreplay, hrr]
  exact ⟨SMap.get_set_self .., fun q hq => SMap.get_set_ne _ _ _ hq, rfl, rfl⟩

/-- R20, R133: a claim or a return that is collected. -/
theorem Wing.collect_claim (hp : p < 256) (hkind : e.kind ≠ .complete) :
    (w.collect p e).psg.ord = w.psg.ord ++ [.claim (entryRec p e)] ∧
      SMap.get (w.collect p e).pch.jseqCommit 0xFFFF p = e.jseq ∧
      (w.collect p e).vst.clmLeft = w.vst.clmLeft - 1 ∧ (w.collect p e).vst.cmpLeft = w.vst.cmpLeft ∧
      ∀ n sl, w.slotFor e.key = some (n, sl) → sl.ctx.state = .presented → sl.ctx.lastCore = BitVec.ofNat 8 p →
        (w.collect p e).pan.slots = SMap.insert w.pan.slots n
          { sl with ctx := sl.ctx.changed (if e.kind = .ret then sl.ctx.giveBack else sl.ctx.claim) w.now } := by
  have hporch : (entryRec p e).porch.toNat = p := Nat.mod_eq_of_lt hp
  rw [Wing.collect_eq, if_neg hkind]
  obtain ⟨kpch, kpan, kord, kclm, kcmp⟩ :=
    ((w.takeEntryOf p e).applyClaimRec w.now (entryRec p e)).claimPlaced_keeps (entryRec p e)
  rw [kpch, kpan, kord, kclm, kcmp, Wing.applyClaimRec_pch]
  refine ⟨by simp [Wing.takeEntryOf], ?_, by simp [Wing.takeEntryOf], by simp [Wing.takeEntryOf], fun n sl hs hst hcore => ?_⟩
  · change SMap.get (SMap.set w.pch.jseqCommit 0xFFFF (entryRec p e).porch.toNat e.jseq) 0xFFFF p = _
    rw [hporch]
    exact SMap.get_set_self ..
  · have hgood := Wing.applyClaimRec_good (w := w.takeEntryOf p e) (t := w.now) (r := entryRec p e) hs ⟨hst, hcore⟩
    have hret : ((entryRec p e).ret = true ∨ (entryRec p e).synth = true) ↔ e.kind = .ret := by simp [entryRec]
    simp only [hret] at hgood
    exact hgood

/-- R20, R133: a completion that is collected. -/
theorem Wing.collect_complete (hkind : e.kind = .complete) :
    (w.collect p e).psg.ord = w.psg.ord ++ [.complete (entryRec p e)] ∧
      (w.collect p e).vst.cmpLeft = w.vst.cmpLeft - 1 ∧ (w.collect p e).vst.clmLeft = w.vst.clmLeft ∧
      ∀ n sl, w.slotFor e.key = some (n, sl) → sl.ctx.state = .active ∨ sl.ctx.state = .activePending →
        sl.ctx.lastCore = BitVec.ofNat 8 p →
        ∃ win, (w.collect p e).pan.slots = SMap.insert w.pan.slots n
          { sl with ctx := sl.ctx.changed (sl.ctx.complete w.now win) w.now } := by
  rw [Wing.collect_eq, if_pos hkind]
  obtain ⟨-, kpan, kord, kcmp, kclm⟩ :=
    ((w.takeEntryOf p e).applyCompleteRec w.now (entryRec p e)).completePlaced_keeps (entryRec p e)
  obtain ⟨bclm, bcmp⟩ := (w.takeEntryOf p e).applyCompleteRec_budgets w.now (entryRec p e)
  rw [kpan, kord, kcmp, kclm, bclm, bcmp]
  refine ⟨by simp [Wing.takeEntryOf], rfl, rfl, fun n sl hs hst hcore =>
    ⟨((w.takeEntryOf p e).setJseq (entryRec p e).porch (entryRec p e).entry.jseq).windowOf sl.ctx, ?_⟩⟩
  exact Wing.applyComplete_good (w := (w.takeEntryOf p e).setJseq (entryRec p e).porch (entryRec p e).entry.jseq)
    (t := w.now) hs hst hcore

end

/-! ## One visit -/

/-- The entries of a porch that a visit may take: those behind a replay wait. -/
def Wing.openEntries (w : Wing) (p : Nat) : List Entry :=
  if (SMap.find? w.pch.replay p).isSome then [] else SMap.get w.pch.entries [] p

/-- The visit once it has seen to the claims and the returns. -/
def Pass.claimed (a : Pass) (p : Nat) : Pass :=
  a.step p ((a.wing.openEntries p).find? fun e => e.kind != .complete) a.wing.vst.clmLeft fun x => { x with claims := x.claims + 1 }

theorem Pass.visit_eq (a : Pass) (p : Nat) : a.visit p =
    (a.claimed p).step p (firstComplete [] ((a.claimed p).wing.openEntries p)) (a.claimed p).wing.vst.cmpLeft
      fun x => { x with completes := x.completes + 1 } := rfl

section
variable (a : Pass) (p : Nat) (e : Entry) (left : Nat) (skip : Pass → Pass)

theorem Pass.step_none : a.step p none left skip = a := rfl

theorem Pass.step_waits (h : a.wing.collectable e = false) : a.step p (some e) left skip = a := by
  simp [Pass.step, h]

theorem Pass.step_short (h : a.wing.collectable e = true) (hleft : left = 0) : a.step p (some e) left skip = skip a := by
  simp [Pass.step, h, hleft]

theorem Pass.step_collects (h : a.wing.collectable e = true) (hleft : 0 < left) :
    a.step p (some e) left skip = { a with wing := a.wing.collect p e } := by
  simp [Pass.step, h, Nat.ne_of_gt hleft]

end

theorem Wing.openEntries_of_nothing {w : Wing} {p : Nat}
    (h : (SMap.find? w.pch.replay p).isSome = true ∨ SMap.get w.pch.entries [] p = []) : w.openEntries p = [] := by
  unfold Wing.openEntries
  split
  · rfl
  · exact h.resolve_left ‹_›

theorem Wing.openEntries_of_free {w : Wing} {p : Nat} (h : SMap.find? w.pch.replay p = none) :
    w.openEntries p = SMap.get w.pch.entries [] p := by
  unfold Wing.openEntries
  rw [h]
  rfl

theorem Pass.visit_of_nothing {a : Pass} {p : Nat} (h : a.wing.openEntries p = []) : a.visit p = a := by
  have hclaimed : a.claimed p = a := by rw [Pass.claimed, h]; rfl
  rw [Pass.visit_eq, hclaimed, h]
  rfl

theorem Pass.step_entries (a : Pass) {p q : Nat} (h : q ≠ p) (e : Option Entry) (left : Nat) {skip : Pass → Pass}
    (hskip : ∀ y, (skip y).wing = y.wing) :
    SMap.get (a.step p e left skip).wing.pch.entries [] q = SMap.get a.wing.pch.entries [] q := by
  unfold Pass.step
  split
  · rfl
  · split
    · rfl
    · split
      · rw [hskip]
      · exact (Wing.collect_entries _ _ _).2.1 q h

/-- A visit changes the entries of its own porch only. -/
theorem Pass.visit_entries (a : Pass) {p q : Nat} (h : q ≠ p) :
    SMap.get (a.visit p).wing.pch.entries [] q = SMap.get a.wing.pch.entries [] q := by
  have hclaimed : SMap.get (a.claimed p).wing.pch.entries [] q = SMap.get a.wing.pch.entries [] q := by
    unfold Pass.claimed
    exact a.step_entries h _ _ fun y => rfl
  rw [Pass.visit_eq, Pass.step_entries (a.claimed p) h, hclaimed]
  exact fun y => rfl

/-- Visits to porches without entries leave the pass as it is. -/
theorem foldl_visit_idle {l : List Nat} {a : Pass} (h : ∀ q ∈ l, SMap.get a.wing.pch.entries [] q = []) : l.foldl Pass.visit a = a :=
  foldl_stands fun q hq => Pass.visit_of_nothing (Wing.openEntries_of_nothing (.inr (h q hq)))

theorem roundFrom_spec (k : Nat) {p : Nat} (hp : p < 256) : p ∈ roundFrom k 256 ∧ (roundFrom k 256).Nodup := by
  unfold roundFrom
  refine ⟨List.mem_map.2 ⟨(p + 256 - k % 256) % 256, List.mem_range.2 (Nat.mod_lt _ (by decide)), by omega⟩, ?_⟩
  refine (List.nodup_map_iff_inj_on List.nodup_range).2 fun i hi j hj hij => ?_
  have hi := List.mem_range.1 hi
  have hj := List.mem_range.1 hj
  omega

/-- Where only one porch has entries the pass is the visit to it. -/
theorem Wing.collection_of_one {v : Wing} {p : Nat} (hp : p < 256) (h : ∀ q, q ≠ p → SMap.get v.pch.entries [] q = []) :
    v.collection = Pass.visit { wing := v, claims := 0, completes := 0 } p := by
  obtain ⟨hmem, hnodup⟩ := roundFrom_spec v.pch.rr hp
  obtain ⟨before, after, heq⟩ := List.append_of_mem hmem
  rw [heq] at hnodup
  have hbefore : ∀ q ∈ before, q ≠ p := fun q hq => by
    rintro rfl
    exact (List.nodup_append.1 hnodup).2.2 q hq q List.mem_cons_self rfl
  have hafter : ∀ q ∈ after, q ≠ p := fun q hq => by
    rintro rfl
    exact (List.nodup_cons.1 (List.nodup_append.1 hnodup).2.1).1 hq
  unfold Wing.collection
  rw [heq, List.foldl_append, foldl_visit_idle fun q hq => h q (hbefore q hq), List.foldl_cons,
    foldl_visit_idle fun q hq => (Pass.visit_entries _ (hafter q hq)).trans (h q (hafter q hq))]

/-- A list of completions gives its first. -/
theorem firstComplete_of_all {e : Entry} {rest : List Entry} (h : ∀ x ∈ e :: rest, x.kind = .complete) :
    firstComplete [] (e :: rest) = some e ∧ (e :: rest).find? (fun e => e.kind != .complete) = none := by
  have he : e.kind = .complete := h e List.mem_cons_self
  refine ⟨?_, List.find?_eq_none.2 fun x hx => by simp [h x hx]⟩
  unfold firstComplete
  simp only [he]
  rfl

section
variable {a : Pass} {p : Nat} {e : Entry} {rest : List Entry} (hfree : SMap.find? a.wing.pch.replay p = none)
include hfree

/-- A visit to a porch whose oldest entry that may go is a claim or a return, with no completion to go before or behind it. -/
theorem Pass.visit_claim (he : (SMap.get a.wing.pch.entries [] p).find? (fun e => e.kind != .complete) = some e)
    (hnone : firstComplete [] (SMap.get a.wing.pch.entries [] p) = none)
    (hbehind : firstComplete [] ((SMap.get a.wing.pch.entries [] p).erase e) = none) :
    (a.wing.collectable e = false → a.visit p = a) ∧
      (a.wing.collectable e = true → a.wing.vst.clmLeft = 0 → a.visit p = { a with claims := a.claims + 1 }) ∧
      (a.wing.collectable e = true → 0 < a.wing.vst.clmLeft → a.visit p = { a with wing := a.wing.collect p e }) := by
  have hopen := Wing.openEntries_of_free hfree
  have hclaimed : a.claimed p = a.step p (some e) a.wing.vst.clmLeft fun x => { x with claims := x.claims + 1 } := by
    rw [Pass.claimed, hopen, he]
  refine ⟨fun hno => ?_, fun hyes hleft => ?_, fun hyes hleft => ?_⟩
  · rw [Pass.visit_eq, hclaimed, Pass.step_waits _ _ _ _ _ hno, hopen, hnone, Pass.step_none]
  · rw [Pass.visit_eq, hclaimed, Pass.step_short _ _ _ _ _ hyes hleft]
    dsimp only
    rw [hopen, hnone, Pass.step_none]
  · obtain ⟨hentries, -, hreplay, -⟩ := a.wing.collect_entries p e
    rw [Pass.visit_eq, hclaimed, Pass.step_collects _ _ _ _ _ hyes hleft]
    dsimp only
    rw [Wing.openEntries_of_free (hreplay ▸ hfree), hentries, hbehind, Pass.step_none]

/-- A visit to a porch that gave completions only. -/
theorem Pass.visit_complete (he : SMap.get a.wing.pch.entries [] p = e :: rest) (hall : ∀ x ∈ e :: rest, x.kind = .complete) :
    (a.wing.collectable e = true → a.wing.vst.cmpLeft = 0 → a.visit p = { a with completes := a.completes + 1 }) ∧
      (a.wing.collectable e = true → 0 < a.wing.vst.cmpLeft → a.visit p = { a with wing := a.wing.collect p e }) := by
  obtain ⟨hfirst, hnone⟩ := firstComplete_of_all hall
  have hopen := (Wing.openEntries_of_free hfree).trans he
  have hclaimed : a.claimed p = a := by rw [Pass.claimed, hopen, hnone, Pass.step_none]
  refine ⟨fun hyes hleft => ?_, fun hyes hleft => ?_⟩
  · rw [Pass.visit_eq, hclaimed, hopen, hfirst, Pass.step_short _ _ _ _ _ hyes hleft]
  · rw [Pass.visit_eq, hclaimed, hopen, hfirst, Pass.step_collects _ _ _ _ _ hyes hleft]

end

end Sys2Proof.Machine
end

section
/-! Admission of what is staged, as a tick of the active wing opens (R48 to R50, R175). -/

namespace Sys2Proof.Machine

/-! ## One arrival that may go -/

/-- A staged arrival that is no alarm, no outcome and owes no escalation, whose checks pass and whose vector is in the pantry, in
slot `n`. -/
structure Wing.Admissible (w : Wing) (o : Obs) (n : Nat) (sl : Slot) : Prop where
  cls : o.cls ≠ 3
  outcome : o.outcome = false
  cause : o.escCause = 0
  poison : o.isOf w.vst.poison = false
  lost : o.isOf w.vst.spillLost = false
  doomed : o.isOf w.vst.doomed = false
  check : w.admissionCheck o true = none
  admitting : w.admitting o = true
  free : keySlice o.key ∉ w.vst.underCmd
  quarantine : w.isQuarantined o.key = false
  slot : w.slotFor o.key = some (n, sl)
  sound : sl.ctx.poisoned = false

/-- The wing once the arrival has gone (R49, R50). -/
def Wing.arrived (w : Wing) (o : Obs) : Wing :=
  ((((w.deliver o w.now).useBudget 1).useCredit (keySlice o.key)).place
    (.arrive (o.arriveRec o.key false false false false 0))).keepSent o

section
variable {w : Wing} {o : Obs} {n : Nat} {sl : Slot} (h : w.Admissible o n sl)
include h

/-- What its attempt comes to. -/
theorem Wing.Admissible.attempt : w.attempt o true =
    if w.canCarry o 1 = false then .waits
    else if w.ringRoom (keySlice o.key) (owesOf o sl.ctx) = false then .held
    else .gone (w.arrived o) := by
  have hcls : (o.cls == 3) = false := beq_eq_false_iff_ne.2 h.cls
  have hne : (o.cls != 3) = true := bne_iff_ne.2 h.cls
  have hesc : w.escalate o 0b00 = w := if_pos h.cause
  have hwaits : w.filterWaits o = false := by simp [Wing.filterWaits, h.outcome]
  unfold Wing.attempt
  simp only [h.poison, h.lost, h.doomed, h.check, h.admitting, h.quarantine, w.ctx?_of_slotFor h.slot, h.sound, h.outcome, h.cause,
    hesc, hwaits, hcls, hne, h.cls, List.contains_eq_mem, h.free, Bool.false_eq_true, Bool.not_true, Bool.false_and, Bool.and_false,
    Bool.or_false, Bool.false_or, Bool.true_and, decide_false, ↓reduceIte, Nat.add_zero]
  cases w.canCarry o 1 <;> cases w.ringRoom (keySlice o.key) (owesOf o sl.ctx) <;> rfl

/-- The one staged arrival is tried in its slice's turn. -/
theorem Wing.Admissible.served (hstaged : w.vst.staged = [o]) : w.serveStaged (keySlice o.key) =
    if w.canCarry o 1 = false then (w, false)
    else if w.ringRoom (keySlice o.key) (owesOf o sl.ctx) = false then (w.holdSlice (keySlice o.key), false)
    else ((w.arrived o).unstage o, true) := by
  have hcls : ¬ o.cls = 3#2 := h.cls
  have hin : w.stagedIn (keySlice o.key) = [o] := by simp [Wing.stagedIn, hstaged, hcls]
  have hnote : w.noteFilterWait o = w := if_neg (by simp [Wing.filterWaits, h.outcome])
  unfold Wing.serveStaged
  rw [hin]
  unfold tryStaged
  rw [h.attempt]
  simp only [Nat.one_ne_zero, ↓reduceIte, List.contains_nil, Bool.false_eq_true, hnote]
  cases w.canCarry o 1 <;> cases w.ringRoom (keySlice o.key) (owesOf o sl.ctx) <;> rfl

/-- The slice of the arrival is one of the wing's, since it runs. -/
theorem Wing.Admissible.known : keySlice o.key ∈ w.sliceNums := by
  cases hfind : SMap.find? w.sl (keySlice o.key).toNat with
  | some v => exact List.mem_map.2 ⟨_, SMap.mem_of_find? hfind, by simp⟩
  | none =>
    have hslice : w.slice (keySlice o.key) = SliceSt.reset := by simp [Wing.slice, SMap.get, hfind]
    have hadm := h.admitting
    rw [Wing.admitting, hslice, beq_eq_false_iff_ne.2 h.cls] at hadm
    exact absurd hadm (by decide)

end

/-! ## The turns -/

theorem Wing.serveStaged_of_none {w : Wing} {s : BitVec 12} (h : w.stagedIn s = []) : w.serveStaged s = (w, false) := by
  unfold Wing.serveStaged
  rw [h]
  rfl

theorem serveTurns_stands {l : List (BitVec 12)} {w : Wing} (h : ∀ s ∈ l, w.serveStaged s = (w, false)) (any : Bool) :
    serveTurns l w any = (w, any) := by
  induction l with
  | nil => rfl
  | cons s l ih =>
    unfold serveTurns
    rw [h s List.mem_cons_self]
    simp only [Bool.false_eq_true, ↓reduceIte, Bool.or_false]
    exact ih fun x hx => h x (List.mem_cons_of_mem s hx)

/-- The turns of one slice, which the list may name more than once: after the first, nothing goes any more. -/
theorem serveTurns_of_one {s : BitVec 12} {l : List (BitVec 12)} {w u : Wing} {b : Bool} (hl : l ≠ []) (hall : ∀ x ∈ l, x = s)
    (hfirst : w.serveStaged s = (u, b))
    (hrest : (if b then { u with vst := { u.vst with rr := s } } else u).serveStaged s =
      (if b then { u with vst := { u.vst with rr := s } } else u, false)) :
    serveTurns l w false = (if b then { u with vst := { u.vst with rr := s } } else u, b) := by
  obtain ⟨x, rest, rfl⟩ := List.exists_cons_of_ne_nil hl
  obtain rfl := hall x List.mem_cons_self
  unfold serveTurns
  rw [hfirst]
  exact serveTurns_stands (fun y hy => by rw [hall y (List.mem_cons_of_mem x hy)]; exact hrest) b

/-- The order of a round: the slices above the last one served, then the others. -/
def Wing.turnOrder (w : Wing) : List (BitVec 12) :=
  w.stagedSlices.filter (fun s => decide (w.vst.rr.toNat < s.toNat)) ++
    w.stagedSlices.filter fun s => decide (s.toNat ≤ w.vst.rr.toNat)

theorem Wing.mem_turnOrder {w : Wing} {s : BitVec 12} : s ∈ w.turnOrder ↔ s ∈ w.stagedSlices := by
  simp only [Wing.turnOrder, List.mem_append, List.mem_filter, decide_eq_true_eq]
  constructor
  · rintro (h | h) <;> exact h.1
  · intro h
    rcases Nat.lt_or_ge w.vst.rr.toNat s.toNat with hlt | hge
    · exact .inl ⟨h, hlt⟩
    · exact .inr ⟨h, hge⟩

theorem serveStagedRounds_succ (n : Nat) (w : Wing) : serveStagedRounds (n + 1) w =
    if (serveTurns w.turnOrder w false).2 then serveStagedRounds n (serveTurns w.turnOrder w false).1
    else (serveTurns w.turnOrder w false).1 := rfl

theorem serveStagedRounds_of_none {w : Wing} (h : w.stagedSlices = []) (n : Nat) : serveStagedRounds n w = w := by
  cases n with
  | zero => rfl
  | succ n =>
    have horder : w.turnOrder = [] := by simp [Wing.turnOrder, h]
    rw [serveStagedRounds_succ, horder]
    rfl

/-- With one arrival staged the slices with staged arrivals are copies of its slice, or none for slice 0. -/
theorem Wing.stagedSlices_of_one {w : Wing} {o : Obs} (h : w.vst.staged = [o]) {s : BitVec 12} (hs : s ∈ w.stagedSlices) :
    s = keySlice o.key ∧ s ≠ 0 := by
  simp only [Wing.stagedSlices, h, List.mem_filter, List.any_cons, List.any_nil, Bool.or_false, Bool.and_eq_true, bne_iff_ne,
    beq_iff_eq] at hs
  exact ⟨hs.2.2.2.symm, hs.2.1⟩

theorem Wing.stagedSlices_of_empty {w : Wing} (h : w.vst.staged = []) : w.stagedSlices = [] := by
  simp [Wing.stagedSlices, h]

theorem Wing.stagedIn_of_empty {w : Wing} (h : w.vst.staged = []) (s : BitVec 12) : w.stagedIn s = [] := by
  simp [Wing.stagedIn, h]

/-- What follows the fetches where the one staged arrival is no alarm and no escalation waits. -/
theorem Wing.admitStaged_of_one {w : Wing} {o : Obs} (hstaged : w.vst.staged = [o]) (hesc : w.vst.escDue = []) (hcls : o.cls ≠ 3)
    (hin : w.resident o.key = true) : w.admitStaged = serveStagedRounds 2 (Wing.serveSlice0 1 w) := by
  have hfetch : w.fetchStaged = w := Wing.fetchStaged_of_resident fun x hx => by
    rw [hstaged, List.mem_singleton] at hx
    rw [hx]
    exact hin
  have halarms : w.serveAlarms = w := by
    have hno : ¬ o.cls = 3#2 := hcls
    have hnone : (w.vst.staged.filter fun o => o.cls == 3) = [] := by simp [hstaged, hno]
    unfold Wing.serveAlarms
    rw [hnone]
    rfl
  have hescs : w.serveEsc = w := by
    unfold Wing.serveEsc
    rw [hesc]
    rfl
  unfold Wing.admitStaged
  simp only [hfetch, halarms, hescs, hstaged]
  rfl

theorem Wing.serveSlice0_one (w : Wing) : Wing.serveSlice0 1 w = (w.serveStaged 0).1 := by
  unfold Wing.serveSlice0
  exact ite_self _

/-! ## What is held back -/

/-- A slice whose ring has no room is held: nothing differs of it but HELD, and its credit is spent (R175). -/
theorem Wing.holdSlice_spec (w : Wing) (s : BitVec 12) :
    (w.holdSlice s).pan = w.pan ∧ (w.holdSlice s).psg = w.psg ∧
      (w.holdSlice s).vst = { w.vst with cred := SMap.set w.vst.cred 0 s.toNat (w.slice s).credit.toNat } ∧
      (w.holdSlice s).slice s = { w.slice s with heldFlag := true } := by
  unfold Wing.holdSlice
  extract_lets v vst1 w1
  cases hheld : v.heldFlag with
  | true =>
    refine ⟨rfl, rfl, rfl, ?_⟩
    change w.slice s = _
    rw [← show (w.slice s).heldFlag = true from hheld]
  | false =>
    refine ⟨by simp [w1], by simp [w1], by simp [w1, vst1, v], ?_⟩
    simp only [Bool.false_eq_true, ↓reduceIte]
    exact (slice_of_sl (w := w1.setSlice s { v with heldFlag := true }) (by simp) s).trans (by simp [Wing.slice_setSlice, v])

theorem Wing.credLeft_holdSlice (w : Wing) (s : BitVec 12) : (w.holdSlice s).credLeft s = 0 := by
  obtain ⟨-, -, hvst, hslice⟩ := w.holdSlice_spec s
  unfold Wing.credLeft
  rw [hvst, hslice]
  simp

/-- An arrival whose slice is held is still one that may go, but for its credit. -/
theorem Wing.Admissible.heldBack {w : Wing} {o : Obs} {n : Nat} {sl : Slot} (h : w.Admissible o n sl) :
    (w.holdSlice (keySlice o.key)).Admissible o n sl := by
  obtain ⟨hpan, -, hvst, hslice⟩ := w.holdSlice_spec (keySlice o.key)
  have hcheck : (w.holdSlice (keySlice o.key)).admissionCheck o true = w.admissionCheck o true := by
    unfold Wing.admissionCheck
    rw [hslice]
    simp only [h.outcome, Bool.false_and]
    rfl
  refine ⟨h.cls, h.outcome, h.cause, ?_, ?_, ?_, hcheck.trans h.check, ?_, ?_, ?_, ?_, h.sound⟩
  · rw [hvst]; exact h.poison
  · rw [hvst]; exact h.lost
  · rw [hvst]; exact h.doomed
  · unfold Wing.admitting
    rw [hslice]
    exact h.admitting
  · rw [hvst]; exact h.free
  · unfold Wing.isQuarantined
    rw [hpan]
    exact h.quarantine
  · unfold Wing.slotFor
    rw [hpan]
    exact h.slot

theorem Wing.canCarry_holdSlice (w : Wing) {o : Obs} (h : o.cls ≠ 3) :
    (w.holdSlice (keySlice o.key)).canCarry o 1 = false := by
  unfold Wing.canCarry
  rw [w.credLeft_holdSlice, beq_eq_false_iff_ne.2 h]
  exact Bool.and_false _

/-! ## What is admitted -/

theorem Wing.deliver_keeps' {w : Wing} {o : Obs} (h : o.outcome = false) (t : Tick) :
    (w.deliver o t).vst = w.vst ∧ (w.deliver o t).psg = w.psg ∧ (w.deliver o t).ctl = w.ctl := by
  unfold Wing.deliver
  cases w.ctx? o.key with
  | none => exact ⟨rfl, rfl, rfl⟩
  | some c =>
    dsimp only
    simp only [h, Bool.false_eq_true, ↓reduceIte]
    split <;> simp

/-- The wing behind an arrival's turn: it has left staging, and the turn of its slice is the last one served. -/
def Wing.turnTaken (w : Wing) (s : BitVec 12) : Wing := if s = 0 then w else { w with vst := { w.vst with rr := s } }

/-- The wing once the arrival has gone and its turn is over. -/
def Wing.admittedOne (w : Wing) (o : Obs) : Wing := ((w.arrived o).unstage o).turnTaken (keySlice o.key)

theorem Wing.turnTaken_keeps (w : Wing) (s : BitVec 12) :
    (w.turnTaken s).pan = w.pan ∧ (w.turnTaken s).psg = w.psg ∧ (w.turnTaken s).regs = w.regs ∧
      (w.turnTaken s).vst.staged = w.vst.staged ∧ (w.turnTaken s).vst.arrLeft = w.vst.arrLeft ∧
      (w.turnTaken s).vst.cred = w.vst.cred ∧ (w.turnTaken s).vst.sentArr = w.vst.sentArr := by
  unfold Wing.turnTaken
  split <;> exact ⟨rfl, rfl, rfl, rfl, rfl, rfl, rfl⟩

theorem Wing.turnTaken_rr (w : Wing) {s : BitVec 12} (h : s ≠ 0) : (w.turnTaken s).vst.rr = s := by
  rw [Wing.turnTaken, if_neg h]

/-- What the arrival leaves: its record in the ordered group, one slot and one credit less, and its vector that counts it. -/
theorem Wing.arrived_spec {w : Wing} {o : Obs} {n : Nat} {sl : Slot} (h : w.Admissible o n sl) :
    (w.arrived o).vst.staged = w.vst.staged ∧ (w.arrived o).vst.arrLeft = w.vst.arrLeft - 1 ∧
      SMap.get (w.arrived o).vst.cred 0 (keySlice o.key).toNat = SMap.get w.vst.cred 0 (keySlice o.key).toNat + 1 ∧
      (w.arrived o).psg.ord = w.psg.ord ++ [.arrive (o.arriveRec o.key false false false false 0)] ∧
      (w.arrived o).vst.sentArr = w.vst.sentArr ++ [(w.now, o)] ∧ (w.arrived o).ctr cAdmitted = w.ctr cAdmitted + 1 ∧
      (w.arrived o).pan.slots = SMap.insert w.pan.slots n
        { sl with ctx := sl.ctx.changed (sl.ctx.arrive o.reg (if o.carries then some o.payload else none)) w.now } := by
  obtain ⟨kvst, kpsg, kctl⟩ := Wing.deliver_keeps' (w := w) h.outcome w.now
  obtain ⟨hslots, hctr⟩ := Wing.deliver_spec (t := w.now) h.slot
  have hnow : (w.deliver o w.now).now = w.now := congrArg Ctl.tick kctl
  unfold Wing.arrived
  generalize w.deliver o w.now = u at kvst kpsg kctl hslots hctr hnow
  refine ⟨?_, ?_, ?_, ?_, ?_, ?_, ?_⟩
  · simp [Wing.keepSent, Wing.useCredit, Wing.useBudget, kvst]
  · simp [Wing.keepSent, Wing.useCredit, Wing.useBudget, kvst]
  · simp [Wing.keepSent, Wing.useCredit, Wing.useBudget, kvst]
  · simp [Wing.keepSent, Wing.useCredit, Wing.useBudget, Wing.place_psg, Rec.group, kpsg]
  · simp [Wing.keepSent, Wing.useCredit, Wing.useBudget, kvst, Wing.now, kctl]
  · exact (Wing.ctr_place _ _ _).trans hctr
  · simpa [Wing.keepSent, Wing.useCredit, Wing.useBudget] using hslots

/-! ## The whole pass -/

section
variable {w : Wing} {o : Obs} {n : Nat} {sl : Slot} (h : w.Admissible o n sl) (hstaged : w.vst.staged = [o])
include h hstaged

theorem Wing.Admissible.listed (hs : keySlice o.key ≠ 0) : keySlice o.key ∈ w.stagedSlices := by
  have hno : ¬ o.cls = 3#2 := h.cls
  simp only [Wing.stagedSlices, hstaged, List.mem_filter, List.any_cons, List.any_nil, Bool.or_false, Bool.and_eq_true,
    bne_iff_ne, beq_iff_eq]
  exact ⟨h.known, hs, h.cls, trivial⟩

/-- The pass is the one turn of the arrival's slice, after which nothing goes any more. -/
theorem Wing.Admissible.oneTurn {x : Wing} {b : Bool} (hesc : w.vst.escDue = [])
    (hfirst : w.serveStaged (keySlice o.key) = (x, b)) (hafter : b = true → x.vst.staged = [])
    (hback : b = false → x.vst.staged = [o] ∧ x.serveStaged (keySlice o.key) = (x, false)) :
    w.admitStaged = if b then x.turnTaken (keySlice o.key) else x := by
  have hres : w.resident o.key = true := by simp [Wing.resident, w.ctx?_of_slotFor h.slot]
  rw [Wing.admitStaged_of_one hstaged hesc h.cls hres, Wing.serveSlice0_one]
  by_cases hs : keySlice o.key = 0
  · have hnone : x.stagedSlices = [] := by
      cases b with
      | true => exact Wing.stagedSlices_of_empty (hafter rfl)
      | false =>
        exact List.eq_nil_iff_forall_not_mem.2 fun y hy =>
          have hone := Wing.stagedSlices_of_one (hback rfl).1 hy
          hone.2 (hone.1.trans hs)
    rw [← hs, hfirst, serveStagedRounds_of_none hnone, Wing.turnTaken, if_pos hs, ite_self]
  · have hin : w.stagedIn 0 = [] := by
      have hno : ¬ (o.cls != 3 && keySlice o.key == 0) = true := by
        rw [beq_eq_false_iff_ne.2 hs, Bool.and_false]
        exact Bool.false_ne_true
      simp only [Wing.stagedIn, hstaged, List.filter_cons, List.filter_nil, if_neg hno]
    have hturns : serveTurns w.turnOrder w false = (if b then x.turnTaken (keySlice o.key) else x, b) := by
      have heq : (if b then { x with vst := { x.vst with rr := keySlice o.key } } else x) =
          if b then x.turnTaken (keySlice o.key) else x := by rw [Wing.turnTaken, if_neg hs]
      rw [← heq]
      refine serveTurns_of_one (List.ne_nil_of_mem (Wing.mem_turnOrder.2 (h.listed hstaged hs)))
        (fun y hy => (Wing.stagedSlices_of_one hstaged (Wing.mem_turnOrder.1 hy)).1) hfirst ?_
      cases b with
      | true => exact Wing.serveStaged_of_none (Wing.stagedIn_of_empty (hafter rfl) _)
      | false => exact (hback rfl).2
    rw [Wing.serveStaged_of_none hin, serveStagedRounds_succ, hturns]
    cases b with
    | true =>
      exact serveStagedRounds_of_none (Wing.stagedSlices_of_empty ((x.turnTaken_keeps _).2.2.2.1.trans (hafter rfl))) 1
    | false => rfl

/-- R49, R175: one staged arrival is admitted, or waits, or is held, by the one turn that it gets. -/
theorem Wing.Admissible.admitStaged (hesc : w.vst.escDue = []) : w.admitStaged =
    if w.canCarry o 1 = false then w
    else if w.ringRoom (keySlice o.key) (owesOf o sl.ctx) = false then w.holdSlice (keySlice o.key)
    else w.admittedOne o := by
  have hserved := h.served hstaged
  by_cases hcarry : w.canCarry o 1 = false
  · rw [if_pos hcarry] at hserved ⊢
    exact h.oneTurn hstaged hesc hserved (fun hno => nomatch hno) fun _ => ⟨hstaged, hserved⟩
  · rw [if_neg hcarry] at hserved ⊢
    by_cases hroom : w.ringRoom (keySlice o.key) (owesOf o sl.ctx) = false
    · rw [if_pos hroom] at hserved ⊢
      have hstill : (w.holdSlice (keySlice o.key)).vst.staged = [o] := by
        rw [(w.holdSlice_spec _).2.2.1]
        exact hstaged
      refine h.oneTurn hstaged hesc hserved (fun hno => nomatch hno) fun _ => ⟨hstill, ?_⟩
      rw [h.heldBack.served hstill, if_pos (w.canCarry_holdSlice h.cls)]
    · rw [if_neg hroom] at hserved ⊢
      refine h.oneTurn hstaged hesc hserved (fun _ => ?_) (fun hno => nomatch hno)
      simp [Wing.unstage, (Wing.arrived_spec h).1, hstaged]

end

end Sys2Proof.Machine

namespace Sys2Proof
open Machine

/-- Settles O9: a visit takes the oldest entries that may go (`Wing.collect_claim`, `Wing.collect_complete`), and one staged
arrival gets one turn (`Wing.Admissible.admitStaged`). -/
theorem collectionAndAdmission : Obligations.CollectionAndAdmission := by
  unfold Obligations.CollectionAndAdmission
  refine ⟨⟨fun v p hp hall => Wing.collection_of_one hp hall, fun a b p es hp hes hb => ?_⟩,
    fun v u o n sl hstaged hesc hu hcls hout hcause hpoison hlost hdoomed hcheck hadm hfree hquar hslot hsound => ?_⟩
  · subst hes hb
    refine ⟨fun hidle => ?_, fun e hnorep he hnone hbehind => ?_, fun e rest hnorep he hall => ?_⟩
    · rw [Pass.visit_of_nothing (Wing.openEntries_of_nothing hidle)]
      exact ⟨rfl, rfl, rfl⟩
    · have hkind : e.kind ≠ .complete := by simpa using List.find?_some he
      obtain ⟨hwaits, hshort, hgoes⟩ := Pass.visit_claim hnorep he hnone hbehind
      refine ⟨fun hc => ?_, fun hc hleft => ?_, fun hc hleft => ?_⟩
      · rw [hwaits hc]
        exact ⟨rfl, rfl, rfl⟩
      · rw [hshort hc hleft]
        exact ⟨rfl, rfl, rfl⟩
      · obtain ⟨hentries, -, -, hrr⟩ := a.wing.collect_entries p e
        obtain ⟨hord, hjseq, hclm, hcmp, hmoves⟩ := a.wing.collect_claim p e hp hkind
        rw [hgoes hc hleft]
        refine ⟨rfl, rfl, hord, hentries, hrr, hjseq, hclm, hcmp, fun n sl hs hst hcore =>
          ⟨_, hmoves n sl hs hst hcore, ?_, ?_⟩⟩
        · simp only [Ctx.changed_keeps]
          split <;> rfl
        · simp only [Ctx.changed_keeps]
          split <;> rfl
    · rw [he] at hall
      have hkind : e.kind = .complete := hall e List.mem_cons_self
      obtain ⟨hshort, hgoes⟩ := Pass.visit_complete hnorep he hall
      refine ⟨fun hc hleft => ?_, fun hc hleft => ?_⟩
      · rw [hshort hc hleft]
        exact ⟨rfl, rfl, rfl⟩
      · obtain ⟨hentries, -, -, hrr⟩ := a.wing.collect_entries p e
        obtain ⟨hord, hcmp, hclm, hmoves⟩ := a.wing.collect_complete p e hkind
        have hrec : entryRec p e = { ret := false, replay := false, synth := false, porch := BitVec.ofNat 8 p, entry := e } := by
          rw [entryRec, hkind]
          rfl
        rw [hrec] at hord
        rw [hgoes hc hleft]
        refine ⟨rfl, rfl, hord, ?_, hrr, hcmp, hclm, fun n sl hs hst hcore => ?_⟩
        · rw [hentries, he, List.erase_cons_head]
        · obtain ⟨win, hslots⟩ := hmoves n sl hs hst hcore
          exact ⟨_, hslots, by simp [Ctx.complete], by simp [Ctx.complete]⟩
  · have h : v.Admissible o n sl :=
      ⟨hcls, hout, hcause, hpoison, hlost, hdoomed, hcheck, hadm, hfree, hquar, hslot, hsound⟩
    rw [h.admitStaged hstaged hesc] at hu
    refine ⟨fun hcarry hroom => ?_, fun hshort => ?_, fun hcarry hroom => ?_⟩
    · rw [hcarry, hroom] at hu
      subst hu
      obtain ⟨kstaged, karr, kcred, kord, ksent, kctr, kslots⟩ := Wing.arrived_spec h
      obtain ⟨tpan, tpsg, tregs, tstaged, tarr, tcred, tsent⟩ := ((v.arrived o).unstage o).turnTaken_keeps (keySlice o.key)
      obtain ⟨hkey, hstate, hcount, -, -⟩ := sl.ctx.arrive_spec o.reg (if o.carries then some o.payload else none)
      refine ⟨?_, tarr.trans karr, ?_, ?_, tsent.trans ksent, ?_, fun hs => Wing.turnTaken_rr _ hs, _,
        (congrArg Pantry.slots tpan).trans kslots, ?_, ?_, ?_⟩
      · refine tstaged.trans ?_
        simp [Wing.unstage, kstaged, hstaged]
      · exact (congrArg (fun m => SMap.get m 0 (keySlice o.key).toNat) tcred).trans kcred
      · exact (congrArg (fun x => x.ord) tpsg).trans kord
      · exact (Wing.ctr_of_regs tregs cAdmitted).trans kctr
      · exact (Ctx.changed_keeps _ _ _).1.trans hkey
      · refine (Ctx.changed_keeps _ _ _).2.1.trans (hstate.trans ?_)
        cases sl.ctx.state <;> rfl
      · exact (Ctx.changed_keeps _ _ _).2.2.1.trans hcount
    · have hcarry : v.canCarry o 1 = false := by
        unfold Wing.canCarry
        rcases hshort with harr | hcred
        · simp [harr]
        · rw [hcred, beq_eq_false_iff_ne.2 hcls]
          exact Bool.and_false _
      rw [hu, if_pos hcarry]
    · rw [hcarry, hroom] at hu
      subst hu
      obtain ⟨kpan, kpsg, kvst, kslice⟩ := v.holdSlice_spec (keySlice o.key)
      refine ⟨?_, kpan, kpsg, ?_, v.credLeft_holdSlice _⟩
      · change (v.holdSlice (keySlice o.key)).vst.staged = _
        rw [kvst]
        exact hstaged
      · change ((v.holdSlice (keySlice o.key)).slice (keySlice o.key)).heldFlag = true
        rw [kslice]

end Sys2Proof
end

section
/-! Frames of the tick counter (R11): what a wing does at the close of a tick, and as the next one opens, keeps its life, its counter and
a value that is due for it (`_clock`); the counter moves between the two alone. -/

namespace Sys2Proof.Machine

/-- Neither the life of the wing, nor its tick counter, nor whether it has one, nor a value that is due for it differs. -/
@[simp] abbrev Wing.SameClock (v w : Wing) : Prop :=
  v.life = w.life ∧ v.ctl.tick = w.ctl.tick ∧ v.ctl.hasTick = w.ctl.hasTick ∧ v.ctl.tickDue = w.ctl.tickDue

theorem Wing.SameClock.refl (w : Wing) : w.SameClock w := ⟨rfl, rfl, rfl, rfl⟩

theorem Wing.SameClock.trans {u v w : Wing} (huv : u.SameClock v) (hvw : v.SameClock w) : u.SameClock w := by
  obtain ⟨a1, a2, a3, a4⟩ := huv
  obtain ⟨b1, b2, b3, b4⟩ := hvw
  exact ⟨a1.trans b1, a2.trans b2, a3.trans b3, a4.trans b4⟩

theorem Wing.SameStage.sameClock {v w : Wing} (h : v.SameStage w) : v.SameClock w := by
  obtain ⟨hlife, -, -, htick, hhas, -, hdue⟩ := h
  exact ⟨hlife, htick, hhas, hdue⟩

/-- A round keeps the counter when each of its steps does. -/
@[simp] theorem Wing.sameClock_foldl {α : Type} (f : Wing → α → Wing) (l : List α) (w : Wing)
    (h : ∀ v a, (f v a).SameClock v) : (l.foldl f w).SameClock w :=
  List.foldlRecOn (motive := fun v => v.SameClock w) l f (Wing.SameClock.refl w) fun v hv a _ => (h v a).trans hv

/-- As `sameClock_foldl`, for a round that gathers a result beside the wing. -/
@[simp] theorem Wing.sameClock_fst_foldl {α β : Type} (f : Wing × β → α → Wing × β) (l : List α) (a : Wing × β)
    (h : ∀ b x, (f b x).1.SameClock b.1) : (l.foldl f a).1.SameClock a.1 := by
  induction l generalizing a with
  | nil => exact ⟨rfl, rfl, rfl, rfl⟩
  | cons x l ih => exact (ih (f a x)).trans (h a x)

section

variable (w : Wing)

@[simp] theorem Wing.when_clock (c : Bool) (f : Wing → Wing) (h : ∀ v, (f v).SameClock v) : (w.when c f).SameClock w := by
  simp [Wing.when, h]

/-! ## Operations that set other fields of the control part -/

@[simp] theorem Wing.bootDone_clock : w.bootDone.SameClock w := by simp [Wing.bootDone]

@[simp] theorem Wing.becomeActive_clock : w.becomeActive.SameClock w := ⟨rfl, rfl, rfl, rfl⟩

@[simp] theorem Wing.countBeats_clock : w.countBeats.SameClock w := ⟨rfl, rfl, rfl, rfl⟩

@[simp] theorem Wing.countStable_clock (before : BitVec 4) : (w.countStable before).SameClock w := by simp [Wing.countStable]

@[simp] theorem Wing.settleReady_clock : w.settleReady.SameClock w := ⟨rfl, rfl, rfl, rfl⟩

@[simp] theorem Wing.peerWithdrew_clock : w.peerWithdrew.SameClock w := by simp [Wing.peerWithdrew]

@[simp] theorem Wing.endWithdrawal_clock : w.endWithdrawal.SameClock w := by
  unfold Wing.endWithdrawal
  split <;> simp

@[simp] theorem Wing.closeCounts_clock (before : BitVec 4) : (w.closeCounts before).SameClock w := by simp [Wing.closeCounts]

/-! ## Vectors and their slots -/

@[simp] theorem Wing.writeBack_clock (c : Ctx) : (w.writeBack c).SameClock w := ⟨rfl, rfl, rfl, rfl⟩

@[simp] theorem Wing.evict_clock (n : Nat) (c : Ctx) (toBuffer : Bool) : (w.evict n c toBuffer).SameClock w := by
  simp [Wing.evict]

theorem Wing.clock_of_install? {w v : Wing} {c : Ctx} {causes : List FetchCause} (h : w.install? c causes = some v) :
    v.SameClock w := by
  unfold Wing.install? at h
  dsimp only at h
  split at h
  · cases h
  · obtain ⟨ch, -, rfl⟩ := Option.map_eq_some_iff.1 h
    split <;> simp

/-! ## Arrivals -/

@[simp] theorem Wing.filterInsert_clock (s : BitVec 12) (tag : Word) (t : Tick) : (w.filterInsert s tag t).SameClock w := by
  simp [Wing.filterInsert]

@[simp] theorem Wing.deliver_clock (o : Obs) (t : Tick) : (w.deliver o t).SameClock w := by
  unfold Wing.deliver
  split <;> simp

@[simp] theorem Wing.discard_clock (o : Obs) (cause : BitVec 2) (recheck : Bool) : (w.discard o cause recheck).SameClock w := by
  simp [Wing.discard]

@[simp] theorem Wing.rejectObs_clock (o : Obs) (r : Nat) : (w.rejectObs o r).SameClock w := by simp [Wing.rejectObs]

theorem Wing.clock_of_attemptDoomed_gone {w v : Wing} {o : Obs} (h : w.attemptDoomed o = .gone v) : v.SameClock w := by
  unfold Wing.attemptDoomed at h
  dsimp only at h
  generalize (if o.escCause = 0 then 0 else 1) = esc at h
  (repeat' split at h) <;> cases h
  simp

theorem Wing.clock_of_attemptLost_gone {w v : Wing} {o : Obs} (h : w.attemptLost o = .gone v) : v.SameClock w := by
  unfold Wing.attemptLost at h
  dsimp only at h
  (repeat' split at h) <;> cases h <;> simp

/-- An admission that is over leaves the claims: the three marks on an arrival first, then the checks. -/
theorem Wing.clock_of_attempt_gone {w v : Wing} {o : Obs} {late : Bool} (h : w.attempt o late = .gone v) : v.SameClock w := by
  unfold Wing.attempt at h
  dsimp only at h
  generalize (if o.escCause = 0 then 0 else 1) = esc at h
  by_cases hpoison : o.isOf w.vst.poison = true
  · rw [if_pos hpoison] at h
    cases h
  rw [if_neg hpoison] at h
  by_cases hlost : o.isOf w.vst.spillLost = true
  · rw [if_pos hlost] at h
    exact Wing.clock_of_attemptLost_gone h
  rw [if_neg hlost] at h
  by_cases hdoomed : o.isOf w.vst.doomed = true
  · rw [if_pos hdoomed] at h
    exact Wing.clock_of_attemptDoomed_gone h
  rw [if_neg hdoomed] at h
  (repeat' split at h) <;> cases h <;> simp

/-! ## Slices, their jobs and drains -/

@[simp] theorem Wing.clearSlice_clock (s : BitVec 12) (keepRoutes : Bool) : (w.clearSlice s keepRoutes).SameClock w :=
  ⟨rfl, rfl, rfl, rfl⟩

@[simp] theorem Wing.resetSlice_clock (s : BitVec 12) : (w.resetSlice s).SameClock w := by simp [Wing.resetSlice]

@[simp] theorem Wing.removeSlice_clock (s : BitVec 12) : (w.removeSlice s).SameClock w := by simp [Wing.removeSlice]

@[simp] theorem Wing.creationWrite_clock (s : BitVec 12) (vtBase evtBase hdrBase : DWord) (vt evt : Nat) (reset : Bool)
    (i : Nat) : (w.creationWrite s vtBase evtBase hdrBase vt evt reset i).SameClock w := by
  simp [Wing.creationWrite]

@[simp] theorem Wing.issueJob_clock (s : BitVec 12) (n : Nat) : (w.issueJob s n).1.SameClock w := by
  unfold Wing.issueJob
  dsimp only
  (repeat' split) <;> simp

@[simp] theorem Wing.issueCreation_clock : w.issueCreation.SameClock w := by simp [Wing.issueCreation]

@[simp] theorem Wing.offerDrains_clock : w.offerDrains.SameClock w := by
  unfold Wing.offerDrains
  split
  · exact ⟨rfl, rfl, rfl, rfl⟩
  · refine Wing.sameClock_foldl _ _ _ fun v p => ?_
    dsimp only
    split <;> exact ⟨rfl, rfl, rfl, rfl⟩

/-! ## Ring commands -/

@[simp] theorem Wing.dropRepin_clock (key : Word) : (w.dropRepin key).SameClock w := ⟨rfl, rfl, rfl, rfl⟩

@[simp] theorem Wing.vecEffect_clock (op : Byte) (key : Word) (operand : DWord) (t : Tick) :
    (w.vecEffect op key operand t).1.SameClock w := by
  unfold Wing.vecEffect
  split <;> simp

@[simp] theorem Wing.admitState_clock (op : Byte) (s : BitVec 12) (t : Tick) : (w.admitState op s t).SameClock w := by
  simp [Wing.admitState]

@[simp] theorem Wing.finishState_clock (op : Byte) (s : BitVec 12) (result : Byte) (param : BitVec 1024) (t : Tick) :
    (w.finishState op s result param t).SameClock w := by
  simp [Wing.finishState]

@[simp] theorem Wing.applyFinish_clock (t : Tick) (f : FinishRec) (param : BitVec 1024) :
    (w.applyFinish t f param).SameClock w := by
  unfold Wing.applyFinish
  split <;> simp

theorem Wing.clock_of_placeFinish {w v : Wing} {d : FinDue} (h : w.placeFinish d = some v) : v.SameClock w := by
  unfold Wing.placeFinish at h
  split at h
  · cases h; exact ⟨rfl, rfl, rfl, rfl⟩
  · dsimp only at h
    split at h
    · cases h
    · cases h
      simp

@[simp] theorem placeFinishesIn_clock (ds : List FinDue) : (placeFinishesIn ds w).SameClock w := by
  induction ds generalizing w with
  | nil => exact ⟨rfl, rfl, rfl, rfl⟩
  | cons d ds ih =>
    unfold placeFinishesIn
    split
    next v hv => exact (ih v).trans (Wing.clock_of_placeFinish hv)
    next => exact ⟨rfl, rfl, rfl, rfl⟩

@[simp] theorem Wing.placeFinishes_clock : w.placeFinishes.SameClock w := by simp [Wing.placeFinishes]

@[simp] theorem Wing.finish_clock (ring : BitVec 12) (pos : Word) (result : Byte) (rep : Report) (param : BitVec 1024) :
    (w.finish ring pos result rep param).SameClock w := by
  simp [Wing.finish]

@[simp] theorem Wing.fetchKey_clock (key : Word) (cause : FetchCause) : (w.fetchKey key cause).SameClock w := by
  unfold Wing.fetchKey
  (repeat' split) <;> simp

@[simp] theorem Wing.clean_clock (n : Nat) : (Wing.clean n w).SameClock w := by
  induction n generalizing w with
  | zero => exact ⟨rfl, rfl, rfl, rfl⟩
  | succ n ih =>
    unfold Wing.clean
    split
    · exact ⟨rfl, rfl, rfl, rfl⟩
    · split <;> simp [ih]

@[simp] theorem Wing.finishFlushes_clock : w.finishFlushes.SameClock w := by simp [Wing.finishFlushes]

@[simp] theorem Wing.writeInitial_clock (key : Word) : (w.writeInitial key).SameClock w := by simp [Wing.writeInitial]

@[simp] theorem Wing.startLong_clock (ring : BitVec 12) (u : UCmd) : (w.startLong ring u).SameClock w := by simp [Wing.startLong]

/-! ## Admission -/

@[simp] theorem tryStaged_clock (os : List Obs) (stuck : List Word) (n : Nat) : (tryStaged os stuck n w).1.SameClock w := by
  induction os generalizing stuck n w with
  | nil => exact ⟨rfl, rfl, rfl, rfl⟩
  | cons o os ih =>
    unfold tryStaged
    split
    · exact ⟨rfl, rfl, rfl, rfl⟩
    · split
      · exact ih ..
      · split
        next v hv => simpa [ih] using Wing.clock_of_attempt_gone hv
        next => simp [ih]
        next => simp

@[simp] theorem Wing.admitKey_clock (key : Word) : (w.admitKey key).SameClock w := by simp [Wing.admitKey]

@[simp] theorem Wing.issueReturns_clock (s : BitVec 12) (fuel room : Nat) : (Wing.issueReturns s fuel room w).SameClock w := by
  induction fuel generalizing room w with
  | zero => exact ⟨rfl, rfl, rfl, rfl⟩
  | succ n ih => simp [Wing.issueReturns, ih]

@[simp] theorem Wing.returnReads_clock : w.returnReads.SameClock w := by simp [Wing.returnReads]

@[simp] theorem Wing.finishCmds_clock (causes : List FetchCause) (result : Byte) (rep : Report) :
    (w.finishCmds causes result rep).SameClock w := by
  refine Wing.sameClock_foldl _ _ _ fun v c => ?_
  split
  · split <;> simp
  · exact ⟨rfl, rfl, rfl, rfl⟩

@[simp] theorem Wing.tryInstall_clock (i : Image) : (w.tryInstall i).1.SameClock w := by
  unfold Wing.tryInstall
  split
  · simp
  · split
    · simp
    · split
      next v hv => simpa using Wing.clock_of_install? hv
      next => simp

@[simp] theorem retryImages_clock (is : List Image) : (retryImages is w).SameClock w := by
  induction is generalizing w with
  | nil => exact ⟨rfl, rfl, rfl, rfl⟩
  | cons i is ih => simp [retryImages, ih]

@[simp] theorem Wing.retryInstalls_clock : w.retryInstalls.SameClock w := by simp [Wing.retryInstalls]

@[simp] theorem Wing.updateRoute_clock (i : Nat) : (w.updateRoute i).SameClock w := by simp [Wing.updateRoute]

@[simp] theorem Wing.updateRoutes_clock : w.updateRoutes.SameClock w := by simp [Wing.updateRoutes]

/-! ## Records of the acceptance and deferred groups -/

@[simp] theorem Wing.applyRegw_clock (t : Tick) (r : RegwRec) : (w.applyRegw t r).SameClock w := by simp [Wing.applyRegw]

@[simp] theorem Wing.applyCommand_clock (t : Tick) (c : CmdRec) (x : CmdExtRec) (op2 : DWord) :
    (w.applyCommand t c x op2).SameClock w := by
  simp [Wing.applyCommand]

@[simp] theorem Wing.closeCommand_clock (t : Tick) (c : CmdRec) (x : CmdExtRec) : (w.closeCommand t c x).SameClock w := by
  unfold Wing.closeCommand
  dsimp only
  (repeat' split) <;> simp

@[simp] theorem Wing.commandDone_clock (t : Tick) (c : CmdRec) (x : CmdExtRec) (op2 : DWord) :
    (w.commandDone t c x op2).SameClock w := by
  simp [Wing.commandDone]

@[simp] theorem Wing.applyCmdExt_clock (t : Tick) (x : CmdExtRec) : (w.applyCmdExt t x).SameClock w := by
  unfold Wing.applyCmdExt
  (repeat' split) <;> simp

@[simp] theorem Wing.applyFinishRec_clock (t : Tick) (f : FinishRec) : (w.applyFinishRec t f).SameClock w := by
  simp [Wing.applyFinishRec]

@[simp] theorem Wing.applyParam_clock (t : Tick) (p : ParamRec) : (w.applyParam t p).SameClock w := by
  unfold Wing.applyParam
  split <;> simp

@[simp] theorem Wing.applyLetter_clock (t : Tick) (r : LetterRec) : (w.applyLetter t r).SameClock w := by simp [Wing.applyLetter]

@[simp] theorem Wing.applyCoreState_clock (t : Tick) (r : CoreStateRec) : (w.applyCoreState t r).SameClock w := by
  simp [Wing.applyCoreState]

@[simp] theorem Wing.blocksDone_clock (d : Tick) : (w.blocksDone d).SameClock w := by simp [Wing.blocksDone]

@[simp] theorem Wing.applyDone_clock (d : Tick) : (w.applyDone d).SameClock w := by simp [Wing.applyDone]

@[simp] theorem Wing.applyDef_clock (t : Tick) (r : Rec) : (w.applyDef t r).SameClock w := by
  unfold Wing.applyDef
  split <;> simp

/-! ## Resync -/

@[simp] theorem Wing.sampleCopies_clock : w.sampleCopies.SameClock w := by
  unfold Wing.sampleCopies
  split <;> simp

@[simp] theorem Wing.copiesSent_clock (k : Nat) (f : Tick) : (w.copiesSent k f).SameClock w := by
  unfold Wing.copiesSent
  split <;> simp

/-! ## The passage as its frames are applied -/

@[simp] theorem Wing.failHeldWrites_clock : w.failHeldWrites.SameClock w := by
  unfold Wing.failHeldWrites
  split <;> simp

@[simp] theorem Wing.enterJoining_clock : w.enterJoining.SameClock w := by simp [Wing.enterJoining]

@[simp] theorem Wing.withdrawNow_clock : w.withdrawNow.SameClock w := by simp [Wing.withdrawNow]

@[simp] theorem Wing.registerSources_clock (due : List Nat) (t : Tick) : (w.registerSources due t).SameClock w := by
  simp [Wing.registerSources]

@[simp] theorem Wing.settleRanking_clock (r : Ranking) (t : Tick) : (w.settleRanking r t).SameClock w := by
  simp [Wing.settleRanking]

@[simp] theorem Wing.compareRef_clock : w.compareRef.SameClock w := by simp [Wing.compareRef]

/-! ## Beats of the porches -/

@[simp] theorem Wing.settleOffers_clock (p : Byte) (ok : Nat → Bool) : (w.settleOffers p ok).SameClock w := by
  simp [Wing.settleOffers]

@[simp] theorem Wing.acceptLate_clock (p : Byte) : (w.acceptLate p).SameClock w := by simp [Wing.acceptLate]

@[simp] theorem Wing.applyEntry_clock (p : Byte) (e : Entry) (t : Tick) : (w.applyEntry p e t).SameClock w := by
  unfold Wing.applyEntry
  split <;> simp

theorem Wing.clock_of_replayEntry {w v : Wing} {p : Byte} {e : Entry} (h : w.replayEntry p e = some v) : v.SameClock w := by
  unfold Wing.replayEntry at h
  split at h
  · cases h; simp
  · split at h
    · cases h; simp
    · split at h
      · cases h; simp
      · cases h

@[simp] theorem Wing.replayList_clock (p : Byte) (es : List Entry) : (Wing.replayList p es w).1.SameClock w := by
  induction es generalizing w with
  | nil => exact ⟨rfl, rfl, rfl, rfl⟩
  | cons e es ih =>
    unfold Wing.replayList
    split
    next v hv => exact (ih v).trans (Wing.clock_of_replayEntry hv)
    next => exact ⟨rfl, rfl, rfl, rfl⟩

@[simp] theorem Wing.applySlotReport_clock (p : Byte) : (w.applySlotReport p).SameClock w := by simp [Wing.applySlotReport]

@[simp] theorem Wing.applyReplay_clock (p : Byte) : (w.applyReplay p).SameClock w := by simp [Wing.applyReplay]

@[simp] theorem Wing.applyReplays_clock : w.applyReplays.SameClock w := by simp [Wing.applyReplays]

@[simp] theorem Wing.applyDeferred_clock (p : Byte) (e : Entry) : (w.applyDeferred p e).SameClock w := by
  unfold Wing.applyDeferred
  split <;> simp

@[simp] theorem Wing.applyAllDeferred_clock : w.applyAllDeferred.SameClock w := by simp [Wing.applyAllDeferred]

@[simp] theorem Wing.applySlotReports_clock : w.applySlotReports.SameClock w := by simp [Wing.applySlotReports]

/-! ## Levels -/

@[simp] theorem Wing.switchLevel_clock (l : Level) (vok : Bool) : (w.switchLevel l vok).SameClock w := by simp [Wing.switchLevel]

/-! ## Reads of the cellar -/

@[simp] theorem Wing.reportsFor_clock (key : Word) : (w.reportsFor key).SameClock w := by
  refine Wing.sameClock_foldl _ _ _ fun v e => ?_
  split <;> simp

@[simp] theorem Wing.finishReload_clock (r : Reload) (c : Ctx) (causes : List FetchCause) :
    (w.finishReload r c causes).SameClock w := by
  simp [Wing.finishReload]

@[simp] theorem Wing.settleReloads_clock : w.settleReloads.SameClock w := by
  refine Wing.sameClock_foldl _ _ _ fun v i => ?_
  dsimp only
  split
  · split <;> simp
  · exact ⟨rfl, rfl, rfl, rfl⟩

/-! ## Upsets, wear and moves -/

@[simp] theorem Wing.eccReads_clock (l : List EccFind) : (w.eccReads l).SameClock w := by simp [Wing.eccReads]

@[simp] theorem Wing.moveStep_clock : w.moveStep.SameClock w := by
  unfold Wing.moveStep
  (repeat' split) <;> simp

@[simp] theorem Wing.sendFrame_clock (f : Frame) : (w.sendFrame f).SameClock w := ⟨rfl, rfl, rfl, rfl⟩

/-! ## Event rings -/

@[simp] theorem Wing.writeHeader_clock (n : BitVec 12) : (w.writeHeader n).SameClock w := by
  unfold Wing.writeHeader
  dsimp only
  (repeat' split) <;> simp

@[simp] theorem Wing.writeHeaders_clock : w.writeHeaders.SameClock w := by simp [Wing.writeHeaders]

@[simp] theorem Wing.formHeaders_clock : w.formHeaders.SameClock w := by simp [Wing.formHeaders]

/-! ## Takeover, recovery and handover -/

@[simp] theorem Wing.endTurned_clock : w.endTurned.SameClock w := by simp [Wing.endTurned]

@[simp] theorem Wing.applyKept_clock : w.applyKept.SameClock w := by
  refine Wing.sameClock_foldl _ _ _ fun v s => ?_
  dsimp only
  (repeat' split) <;> simp

@[simp] theorem Wing.restartCmd_clock (ring : BitVec 12) (u : UCmd) : (w.restartCmd ring u).SameClock w := by
  simp [Wing.restartCmd]

@[simp] theorem Wing.restartCmds_clock : w.restartCmds.SameClock w := by simp [Wing.restartCmds]

@[simp] theorem Wing.stepT1_clock : w.stepT1.SameClock w := by simp [Wing.stepT1]

/-! ## What a tick opens with -/

@[simp] theorem Wing.resampleIdle_clock (due : List Nat) : (w.resampleIdle due).SameClock w := by simp [Wing.resampleIdle]

@[simp] theorem Wing.sendInits_clock : w.sendInits.SameClock w := by simp [Wing.sendInits]

/-! ## The registers -/

@[simp] theorem Wing.takeSnap_clock : w.takeSnap.SameClock w := by simp [Wing.takeSnap]

@[simp] theorem Wing.applyCopy_clock (c : RegCopy) : (w.applyCopy c).SameClock w := by
  unfold Wing.applyCopy
  dsimp only
  split
  · exact ⟨rfl, rfl, rfl, rfl⟩
  · split <;> simp

@[simp] theorem Wing.applyCopies_clock : w.applyCopies.SameClock w := by simp [Wing.applyCopies]

@[simp] theorem Wing.takeRefusals_clock (v : View) (r : Ranking) : (w.takeRefusals v r).SameClock w := by simp [Wing.takeRefusals]

/-! ## The tick boundary -/

@[simp] theorem Wing.collect_clock (p : Nat) (e : Entry) : (w.collect p e).SameClock w := by simp [Wing.collect]

theorem Pass.step_clock (a : Pass) (p : Nat) (e : Option Entry) (left : Nat) (skip : Pass → Pass)
    (h : (skip a).wing.SameClock a.wing) : (a.step p e left skip).wing.SameClock a.wing := by
  unfold Pass.step
  split
  · exact ⟨rfl, rfl, rfl, rfl⟩
  · (repeat' split) <;> simp [h]

theorem Pass.visit_clock (a : Pass) (p : Nat) : (a.visit p).wing.SameClock a.wing :=
  (Pass.step_clock _ p _ _ _ ⟨rfl, rfl, rfl, rfl⟩).trans (Pass.step_clock a p _ _ _ ⟨rfl, rfl, rfl, rfl⟩)

theorem Pass.visits_clock (ps : List Nat) (a : Pass) : (ps.foldl Pass.visit a).wing.SameClock a.wing := by
  induction ps generalizing a with
  | nil => exact ⟨rfl, rfl, rfl, rfl⟩
  | cons p ps ih => exact (ih _).trans (a.visit_clock p)

@[simp] theorem Wing.collection_clock : w.collection.wing.SameClock w := by
  unfold Wing.collection
  exact Pass.visits_clock _ _

@[simp] theorem Wing.faultReturns_clock : w.faultReturns.SameClock w := by simp [Wing.faultReturns]

@[simp] theorem Wing.collectTick_clock : w.collectTick.SameClock w := by simp [Wing.collectTick]

@[simp] theorem Wing.closeFrame_clock (f : Frame) : (w.closeFrame f).SameClock w := by simp [Wing.closeFrame]

@[simp] theorem Wing.applyDeferredGroup_clock (f : Frame) : (w.applyDeferredGroup f).SameClock w := by
  simp [Wing.applyDeferredGroup]

@[simp] theorem Wing.trainLanes_clock : w.trainLanes.SameClock w := by simp [Wing.trainLanes]

@[simp] theorem Wing.retireLanes_clock : w.retireLanes.SameClock w := by
  unfold Wing.retireLanes
  split
  · exact ⟨rfl, rfl, rfl, rfl⟩
  · refine Wing.sameClock_foldl _ _ _ fun v l => ?_
    split
    · split <;> simp
    · exact ⟨rfl, rfl, rfl, rfl⟩

@[simp] theorem Wing.wornLanes_clock : w.wornLanes.SameClock w := by simp [Wing.wornLanes]

@[simp] theorem Wing.addSpares_clock : w.addSpares.SameClock w := by simp [Wing.addSpares]

@[simp] theorem Wing.settleLanes_clock : w.settleLanes.SameClock w := by simp [Wing.settleLanes]

@[simp] theorem Wing.settleLate_clock : w.settleLate.SameClock w := by simp [Wing.settleLate]

@[simp] theorem Wing.takeoverStep_clock : w.takeoverStep.SameClock w := by simp [Wing.takeoverStep]

@[simp] theorem Wing.settleTick_clock (r : Ranking) : (w.settleTick r).SameClock w := by simp [Wing.settleTick]

@[simp] theorem Wing.closeActive_clock : w.closeActive.2.SameClock w := by simp [Wing.closeActive]

@[simp] theorem Wing.releaseTo_clock (img : RankImg) (os : List Offer) (p : Byte) : (w.releaseTo img os p).SameClock w := by
  simp [Wing.releaseTo]

@[simp] theorem Wing.release_clock (img : RankImg) (r : Ranking) : (w.release img r).SameClock w := by simp [Wing.release]

@[simp] theorem Wing.becomeStandby_clock : w.becomeStandby.SameClock w := by simp [Wing.becomeStandby]

@[simp] theorem Wing.levelDue_clock : w.levelDue.SameClock w := by
  unfold Wing.levelDue
  split <;> simp

@[simp] theorem Wing.forcedStep_clock : w.forcedStep.SameClock w := by simp [Wing.forcedStep]

@[simp] theorem Wing.issueLevel_clock : w.issueLevel.SameClock w := by
  unfold Wing.issueLevel
  dsimp only
  (repeat' split) <;> simp

@[simp] theorem Wing.dropPair_clock : w.dropPair.SameClock w := by
  unfold Wing.dropPair
  dsimp only
  (repeat' split) <;> simp

@[simp] theorem Wing.schedulePair_clock : w.schedulePair.SameClock w := by simp [Wing.schedulePair]

@[simp] theorem Wing.cleanTick_clock : w.cleanTick.SameClock w := by simp [Wing.cleanTick]

@[simp] theorem Wing.finishJobs_clock : w.finishJobs.SameClock w := by
  refine Wing.sameClock_foldl _ _ _ fun v e => ?_
  split <;> simp

@[simp] theorem Wing.openAdmission_clock : w.openAdmission.SameClock w := by simp [Wing.openAdmission]

@[simp] theorem Wing.openMods_clock : w.openMods.SameClock w := by simp [Wing.openMods]

@[simp] theorem Wing.openEngines_clock (img : Option RankImg) (r : Ranking) : (w.openEngines img r).SameClock w := by
  unfold Wing.openEngines
  split <;> simp

@[simp] theorem Wing.openActive_clock (img : Option RankImg) (r : Ranking) (go : Bool) :
    (w.openActive img r go).SameClock w := by
  unfold Wing.openActive
  split <;> simp

@[simp] theorem Wing.openOther_clock : w.openOther.SameClock w := by simp [Wing.openOther]

@[simp] theorem Wing.openTick_clock (img : Option RankImg) (r : Ranking) (go : Bool) :
    (w.openTick img r go).SameClock w := by
  simp [Wing.openTick]

@[simp] theorem Wing.boundaryWakes_clock : w.boundaryWakes.SameClock w := by simp [Wing.boundaryWakes]

@[simp] theorem Wing.dropUnpaired_clock (w : Wing) : w.dropUnpaired.SameClock w := by simp [Wing.dropUnpaired]

/-! ## Roles, and a START's claim -/

@[simp] theorem Wing.closeOther_clock : w.closeOther.SameClock w := by simp [Wing.closeOther]

@[simp] theorem Wing.closePassage_clock : w.closePassage.SameClock w := by simp [Wing.closePassage]

theorem Wing.raiseClaim_clock {f : Wing → Wing} (h : ∀ v, (f v).SameClock v) : (w.raiseClaim f).SameClock w := by
  unfold Wing.raiseClaim
  split
  · exact h _
  · simp

@[simp] theorem Wing.startClaim_clock : w.startClaim.SameClock w := by
  unfold Wing.startClaim
  split
  · exact (Wing.raiseClaim_clock _ fun v => by simp).trans w.dropUnpaired_clock
  · exact ⟨rfl, rfl, rfl, rfl⟩

@[simp] theorem Wing.changeOver_clock (last : Bool) : (w.changeOver last).SameClock w := by simp [Wing.changeOver]

end

/-! ## The counter moves -/

/-- What a boundary makes of the counter: it takes a due value, or goes up by one. -/
def Wing.Counts (v w : Wing) : Prop :=
  (∀ n, w.ctl.tickDue = some n → v.now = n ∧ v.ctl.hasTick = true) ∧
    (w.ctl.tickDue = none → w.ctl.hasTick = true → v.now = w.now + 1)

theorem Wing.nextTick_counts (w : Wing) : w.nextTick.Counts w := by
  unfold Wing.nextTick
  extract_lets w1 ctl1 v
  have hv : v.SameClock w := by
    have h1 : w1.SameClock w := by simp [w1, Wing.takeConf]
    obtain ⟨hlife, htick, hhas, hdue⟩ := h1
    simp only [v]
    split
    · exact ⟨hlife, htick, hhas, hdue⟩
    · exact ⟨hlife, htick, hhas, hdue⟩
  clear_value v
  obtain ⟨-, htick, hhas, hdue⟩ := hv
  unfold Wing.Counts
  rw [← hdue, ← hhas]
  refine ⟨fun n hn => ?_, fun hnone hyes => ?_⟩
  · rw [hn]
    exact ⟨rfl, rfl⟩
  · rw [hnone, if_pos hyes]
    exact congrArg (· + 1) htick

theorem Wing.nextTick_life (w : Wing) : w.nextTick.life = w.life := by
  unfold Wing.nextTick Wing.takeConf
  dsimp only
  (repeat' split) <;> rfl

theorem Wing.Counts.after {v w x : Wing} (h : v.Counts w) (htick : x.ctl.tick = v.ctl.tick) (hhas : x.ctl.hasTick = v.ctl.hasTick) :
    x.Counts w := by
  obtain ⟨hdue, hup⟩ := h
  refine ⟨fun n hn => ?_, fun hnone hyes => htick.trans (hup hnone hyes)⟩
  obtain ⟨hnow, hyes⟩ := hdue n hn
  exact ⟨htick.trans hnow, hhas.trans hyes⟩

theorem Wing.Counts.around {u v w x : Wing} (h : v.Counts u) (hbefore : u.SameClock w) (hafter : x.SameClock v) : x.Counts w := by
  obtain ⟨-, btick, bhas, bdue⟩ := hbefore
  obtain ⟨-, atick, ahas, -⟩ := hafter
  obtain ⟨hdue, hup⟩ := h
  refine Wing.Counts.after (v := v) ⟨fun n hn => hdue n (bdue.trans hn), fun hnone hyes => ?_⟩ atick ahas
  exact (hup (bdue.trans hnone) (bhas.trans hyes)).trans (congrArg (· + 1) btick)

end Sys2Proof.Machine
end

section
/-! What a tick boundary does to the counter, and the order of its parts (R11, R13 to R15, R408). -/

namespace Sys2Proof.Machine

/-! ## The boundaries of a running, a sleeping and a waking wing -/

/-- What the errors of the closing tick leave, with the fullness of the slices as it settles. -/
def Wing.settledReads (w : Wing) (ecc : List EccFind) : Wing :=
  { w.clearFull with hall := { w.hall with dropped := w.hall.dropped ++ droppedBy ecc } }.eccReads ecc

/-- The close of a tick in Run: the ranking that it made, and the wing. -/
def Wing.closeRun (w : Wing) : Ranking × Wing := if w.isActive then w.closeActive else (Ranking.empty, w.closeOther)

/-- The tick closed, its lanes and its counts settled. -/
def Wing.closedRun (w : Wing) : Wing := w.closeRun.2.closePassage.settleLanes.closeCounts w.psg.map

/-- The new tick of a wing in Run, from the wing `w` at the close of the last one. -/
def Wing.openedRun (w : Wing) : Wing :=
  ((w.closedRun.nextTick.changeOver w.lastTick).openTick w.hall.img0 w.closeRun.1 w.gateOpen).settleReady

theorem Wing.runBoundary_eq (w : Wing) (ecc : List EccFind) : w.runBoundary ecc = (w.settledReads ecc).openedRun := rfl

theorem Wing.settledReads_nil (w : Wing) : w.settledReads [] = w.clearFull := by
  have hdropped : w.hall.dropped ++ droppedBy [] = w.hall.dropped := List.append_nil _
  unfold Wing.settledReads
  rw [hdropped]
  rfl

theorem Wing.settledReads_clock (w : Wing) (ecc : List EccFind) : (w.settledReads ecc).SameClock w :=
  Wing.eccReads_clock _ ecc

theorem Wing.closedRun_clock (w : Wing) : w.closedRun.SameClock w := by
  have hclose : w.closeRun.2.SameClock w := by
    unfold Wing.closeRun
    split
    · exact w.closeActive_clock
    · exact w.closeOther_clock
  exact (((Wing.closeCounts_clock _ _).trans (Wing.settleLanes_clock _)).trans (Wing.closePassage_clock _)).trans hclose

theorem Wing.openedRun_clock (w : Wing) : w.openedRun.SameClock w.closedRun.nextTick := by
  unfold Wing.openedRun
  exact ((Wing.settleReady_clock _).trans (Wing.openTick_clock _ _ _ _)).trans (Wing.changeOver_clock _ _)

theorem Wing.openedRun_counts (w : Wing) : w.openedRun.Counts w :=
  w.closedRun.nextTick_counts.around w.closedRun_clock w.openedRun_clock

theorem Wing.runBoundary_counts (w : Wing) (ecc : List EccFind) : (w.runBoundary ecc).Counts w := by
  rw [Wing.runBoundary_eq]
  exact (w.settledReads ecc).openedRun_counts.around (w.settledReads_clock ecc) (Wing.SameClock.refl _)

/-- The end of an entry to Nap changes the life of the wing, and no counter. -/
theorem Wing.arriveNap_clock (w : Wing) : w.arriveNap.ctl = w.ctl ∧ (w.arriveNap.life = w.life ∨ w.arriveNap.life = .nap) := by
  unfold Wing.arriveNap
  split
  · dsimp only
    split
    · split <;> simp
    · split <;> simp
  · exact ⟨rfl, .inl rfl⟩

theorem Wing.arriveDeep_stands {w : Wing} (h : w.life ≠ .deepEntry) : w.arriveDeep = w := if_pos (bne_iff_ne.2 h)

/-- The next tick of a wing that sleeps, or goes to sleep, up to where its entry ends. -/
def Wing.openedAsleep (w : Wing) : Wing :=
  ((w.noteDemand 0).nextTick.when (w.entering && w.ctl.role == Role.active) fun (v : Wing) => v.clean
    256).takeSnap.moveStep.sendInits.boundaryWakes

theorem Wing.openedAsleep_spec (w : Wing) : w.openedAsleep.Counts w ∧ w.openedAsleep.life = w.life := by
  have hdemand : (w.noteDemand 0).SameClock w := by simp
  have hafter : w.openedAsleep.SameClock (w.noteDemand 0).nextTick := by
    unfold Wing.openedAsleep
    exact ((((Wing.boundaryWakes_clock _).trans (Wing.sendInits_clock _)).trans (Wing.moveStep_clock _)).trans
      (Wing.takeSnap_clock _)).trans (Wing.when_clock _ _ _ fun v => v.clean_clock 256)
  exact ⟨(w.noteDemand 0).nextTick_counts.around hdemand hafter,
    hafter.1.trans ((w.noteDemand 0).nextTick_life.trans hdemand.1)⟩

/-- A boundary of a wing that sleeps: the tick closes, and the next one opens. -/
theorem Wing.sleepBoundary_eq (w : Wing) : ∃ v : Wing, v.SameClock w ∧
    w.sleepBoundary = v.openedAsleep.arriveNap.arriveDeep.settleReady := by
  unfold Wing.sleepBoundary
  extract_lets map d f0 x f w1 y w2 w3 w4 w5
  have h1 : w1.SameClock w := by
    simp only [w1]
    split
    · exact Wing.SameClock.refl w
    · exact w.sendFrame_clock _
  have hclose : (w2.applyDeferredGroup f).closePassage.settleLanes.countBeats.SameClock w2 :=
    (((Wing.countBeats_clock _).trans (Wing.settleLanes_clock _)).trans (Wing.closePassage_clock _)).trans
      (w2.applyDeferredGroup_clock f)
  exact ⟨w3, hclose.trans h1, rfl⟩

theorem Wing.sleepBoundary_counts {w : Wing} (h : w.life = .nap ∨ w.life = .napEntry) : w.sleepBoundary.Counts w := by
  obtain ⟨v, hv, heq⟩ := w.sleepBoundary_eq
  obtain ⟨hcounts, hlife⟩ := v.openedAsleep_spec
  rw [heq]
  generalize v.openedAsleep = u at hcounts hlife ⊢
  obtain ⟨hctl, hnap⟩ := u.arriveNap_clock
  have hlifeW : u.life = w.life := hlife.trans hv.1
  have hawake : u.arriveNap.life ≠ .deepEntry := by
    rcases hnap with hsame | hnap
    · rw [hsame, hlifeW]
      rcases h with h | h <;> rw [h] <;> decide
    · rw [hnap]
      decide
  rw [Wing.arriveDeep_stands hawake]
  obtain ⟨-, stick, shas, -⟩ := u.arriveNap.settleReady_clock
  exact (hcounts.around hv (Wing.SameClock.refl u)).after (stick.trans (congrArg Ctl.tick hctl)) (shas.trans (congrArg Ctl.hasTick hctl))

theorem Wing.takesDeepRole_clock (w : Wing) : w.takesDeepRole.SameClock w :=
  w.takesDeepRole_stage.sameClock.trans ⟨rfl, rfl, rfl, rfl⟩

/-- A restore keeps the counter. -/
theorem Wing.restore_counter (w : Wing) (save : Option SaveArea) :
    (w.restore save).ctl.tick = w.ctl.tick ∧ (w.restore save).ctl.hasTick = w.ctl.hasTick := by
  unfold Wing.restore
  split
  · exact ⟨rfl, rfl⟩
  · split
    · exact ⟨rfl, rfl⟩
    · rename_i a _ _ seen _ _
      dsimp only
      have hload : (({ w with life := .run } : Wing).loadImage (SaveArea.map a)).loadPchCfg.SameStage { w with life := .run } :=
        (Wing.loadPchCfg_stage _).trans (Wing.loadImage_stage _ _)
      generalize (({ w with life := .run } : Wing).loadImage (SaveArea.map a)).loadPchCfg = w1 at hload ⊢
      obtain ⟨-, htick, hhas, -⟩ := hload.sameClock
      obtain ⟨-, rtick, rhas, -⟩ := Wing.raiseClaim_clock { w1 with ctl := { w1.ctl with seen := seen } } Wing.takesDeepRole_clock
      exact ⟨rtick.trans htick, rhas.trans hhas⟩

theorem Wing.started_counter (w : Wing) : w.started.ctl.tick = w.woken.ctl.tick ∧ w.started.ctl.hasTick = w.woken.ctl.hasTick := by
  unfold Wing.started
  generalize w.woken = v
  split
  · exact v.unsaved.restore_counter v.ctl.saved
  · obtain ⟨-, htick, hhas, -⟩ := v.beginWait_starts
    exact ⟨htick, hhas⟩

theorem Wing.closedOther_clock (w : Wing) : w.closedOther.SameClock w := by
  unfold Wing.closedOther
  exact (((Wing.countBeats_clock _).trans (Wing.settleLanes_clock _)).trans (Wing.closePassage_clock _)).trans w.closeOther_clock

theorem Wing.woken_counts (w : Wing) : w.woken.Counts w := by
  have hsnap : w.woken.SameClock w.closedOther.nextTick := by
    unfold Wing.woken
    exact Wing.takeSnap_clock _
  exact w.closedOther.nextTick_counts.around w.closedOther_clock hsnap

theorem Wing.wakeBoundary_counts (w : Wing) : w.wakeBoundary.Counts w := by
  cases hdue : w.ctl.tickDue with
  | none =>
    have heq : w.wakeBoundary = w.woken := by
      unfold Wing.wakeBoundary
      rw [hdue]
      rfl
    rw [heq]
    exact w.woken_counts
  | some tk =>
    rw [Wing.wakeBoundary_of_due hdue]
    exact w.woken_counts.after w.started_counter.1 w.started_counter.2

/-! ## The command -/

theorem exec_tickBoundary (s : State) (w : WingId) (ecc : List EccFind) :
    ∃ t, exec (.tickBoundary w ecc) s = .next t ∧ t.pending = s.pending ∧ t.porches = s.porches ∧
      t.out = (((s.wing w).silent.boundary ecc).showEn (s.wing w).silent.psgEn).out ∧
      t.wing w = (((s.wing w).silent.boundary ecc).showEn (s.wing w).silent.psgEn).silent := by
  have hsetOut (u : State) (x : WingId) (v : Wing) : (u.setWing x v).out = u.out := by cases x <;> rfl
  refine ⟨_, rfl, by rw [State.ite_setWing_pending, State.onWing_pending],
    by rw [State.ite_setWing_porches, State.onWing_porches], ?_, ?_⟩
  · split
    · rw [hsetOut]
      exact s.onWing_out w _
    · exact s.onWing_out w _
  · have hown := s.onWing_wing w fun v => (v.boundary ecc).showEn v.psgEn
    split
    · exact (State.wing_setWing _ _ _ _).trans ((if_neg (otherWing_ne w).symm).trans hown)
    · exact hown

/-- A boundary that leaves its wing as it is drives nothing. -/
theorem exec_tickBoundary_stands {s : State} {w : WingId} {ecc : List EccFind}
    (h : (s.wing w).silent.boundary ecc = (s.wing w).silent) :
    ∃ t, exec (.tickBoundary w ecc) s = .next t ∧ t.wing w = (s.wing w).silent ∧ t.out = [] := by
  obtain ⟨t, ht, -, -, hout, hwing⟩ := exec_tickBoundary s w ecc
  have hshow : ((s.wing w).silent.boundary ecc).showEn (s.wing w).silent.psgEn = (s.wing w).silent := by
    rw [h]
    exact if_pos rfl
  rw [hshow] at hout hwing
  exact ⟨t, ht, hwing, hout⟩

theorem Wing.boundary_counts {w : Wing} (h : w.life = .run ∨ w.life = .nap ∨ w.life = .napEntry ∨ w.life = .deepWake)
    (ecc : List EccFind) : (w.boundary ecc).Counts w := by
  have hvotes {v : Wing} (hv : v.Counts w) : v.noteOwnVotes.Counts w := by
    obtain ⟨-, htick, hhas, -⟩ := v.noteOwnVotes_stage.sameClock
    exact hv.after htick hhas
  unfold Wing.boundary
  rcases h with h | h | h | h <;> rw [h] <;> dsimp only
  · exact hvotes (w.runBoundary_counts ecc)
  · exact hvotes (Wing.sleepBoundary_counts (.inl h))
  · exact hvotes (Wing.sleepBoundary_counts (.inr h))
  · exact hvotes w.wakeBoundary_counts

/-- R410: what the wait for the key leaves: the wing counts the periods of TICK_SYNC. -/
theorem Wing.keyWait_counts {w : Wing} (hdue : w.ctl.tickDue = none) (hhas : w.ctl.hasTick = false) :
    w.nextTick.takeSnap.ctl.syncCount = w.ctl.syncCount + 1 ∧ w.nextTick.takeSnap.ctl.hasTick = false ∧
      w.nextTick.takeSnap.regs.cfg = w.regs.cfg ∧ w.nextTick.takeSnap.regs.eff = w.regs.eff ∧
      w.nextTick.takeSnap.regs.ctr = w.regs.ctr ∧ w.nextTick.takeSnap.hrt = w.hrt := by
  have hnext : w.nextTick.ctl = { w.ctl with syncCount := w.ctl.syncCount + 1 } ∧ w.nextTick.regs = w.regs ∧
      w.nextTick.hrt = w.hrt := by
    have hconf : w.takeConf.ctl = w.ctl ∧ w.takeConf.regs = w.regs ∧ w.takeConf.hrt = w.hrt := by
      unfold Wing.takeConf
      split <;> exact ⟨rfl, rfl, rfl⟩
    obtain ⟨hctl, hregs, hhrt⟩ := hconf
    unfold Wing.nextTick
    simp only [hctl, hdue, hhas, Bool.not_false, Bool.or_true, ↓reduceIte, Bool.false_eq_true]
    exact ⟨trivial, hregs, hhrt⟩
  obtain ⟨hctl, hregs, hhrt⟩ := hnext
  have hsnap : w.nextTick.takeSnap.ctl = w.nextTick.ctl ∧ w.nextTick.takeSnap.regs.cfg = w.nextTick.regs.cfg ∧
      w.nextTick.takeSnap.regs.eff = w.nextTick.regs.eff ∧ w.nextTick.takeSnap.regs.ctr = w.nextTick.regs.ctr ∧
      w.nextTick.takeSnap.hrt = w.nextTick.hrt := by
    unfold Wing.takeSnap
    split <;> exact ⟨rfl, rfl, rfl, rfl, rfl⟩
  obtain ⟨sctl, scfg, seff, sctr, shrt⟩ := hsnap
  rw [sctl, scfg, seff, sctr, shrt, hctl, hregs, hhrt]
  exact ⟨rfl, hhas, rfl, rfl, rfl, rfl⟩

end Sys2Proof.Machine

namespace Sys2Proof
open Machine

/-- Settles O8: the counter moves between what closes a tick and what opens the next (`Wing.nextTick_counts`). -/
theorem tickBoundaryCounts : Obligations.TickBoundaryCounts := by
  unfold Obligations.TickBoundaryCounts
  refine ⟨fun s w ecc => ⟨fun hdead => ?_, fun hwait hkey hdue hhas => ?_, fun hlife => ?_⟩,
    fun s w v x y c hrun hv hc hx hy => ?_⟩
  · refine exec_tickBoundary_stands ?_
    unfold Wing.boundary
    rcases hdead with h | h
    · rw [show (s.wing w).silent.life = .held from h]
    · rw [show (s.wing w).silent.life = .deep from h]
  · obtain ⟨t, ht, -, -, -, hwing⟩ := exec_tickBoundary s w ecc
    have hboundary : (s.wing w).silent.boundary ecc = (s.wing w).silent.nextTick.takeSnap := by
      unfold Wing.boundary
      rw [show (s.wing w).silent.life = .keyWait from hwait]
      exact if_neg (by rw [show (s.wing w).silent.keyValid = false from hkey]; exact Bool.false_ne_true)
    rw [hboundary, (Wing.showEn_shows _ _).1] at hwing
    refine ⟨t, ht, ?_⟩
    rw [hwing]
    exact Wing.keyWait_counts (w := (s.wing w).silent) hdue hhas
  · obtain ⟨t, ht, hpending, hporches, -, hwing⟩ := exec_tickBoundary s w ecc
    have hcounts := Wing.boundary_counts (w := (s.wing w).silent) hlife ecc
    rw [(Wing.showEn_shows _ _).1] at hwing
    refine ⟨t, ht, hpending, hporches, ?_⟩
    rw [hwing]
    exact hcounts
  · obtain ⟨t, ht, hpending, hporches, hout, hwing⟩ := exec_tickBoundary s w []
    have hboundary : (s.wing w).silent.boundary [] = v.openedRun.noteOwnVotes := by
      unfold Wing.boundary
      rw [show (s.wing w).silent.life = .run from hrun]
      dsimp only
      rw [Wing.runBoundary_eq, Wing.settledReads_nil, hv]
      rfl
    have hen : (s.wing w).silent.psgEn = v.psgEn := by
      rw [hv]
      rfl
    have hy' : v.openedRun.noteOwnVotes.showEn v.psgEn = y := by
      rw [hy, hx, hc]
      rfl
    rw [hboundary, hen, hy'] at hout hwing
    refine ⟨t, ht, hporches, hpending, hout, hwing, fun hact a ha => ?_⟩
    rw [hc, if_pos hact, ha]
    rfl

end Sys2Proof
end

section
/-! What a ranking offers (R89, R93, R96 to R101). -/

namespace Sys2Proof.Machine

/-! ## Lists in key order -/

/-- The candidates stand in the order of their keys, the best first. -/
def InOrder (l : List Cand) : Prop := l.Pairwise fun a b => a.rank.toNat ≤ b.rank.toNat

theorem insertCand_perm (x : Cand) (l : List Cand) : (insertCand x l).Perm (x :: l) := by
  induction l with
  | nil => exact List.Perm.refl _
  | cons y ys ih =>
    unfold insertCand
    split
    · exact List.Perm.refl _
    · exact (ih.cons y).trans (List.Perm.swap x y ys)

theorem insertCand_inOrder {l : List Cand} (x : Cand) (h : InOrder l) : InOrder (insertCand x l) := by
  induction l with
  | nil => exact List.pairwise_singleton _ x
  | cons y ys ih =>
    obtain ⟨hy, hys⟩ := List.pairwise_cons.1 h
    unfold insertCand
    split
    · rename_i hlt
      refine List.pairwise_cons.2 ⟨fun z hz => ?_, h⟩
      rcases List.mem_cons.1 hz with rfl | hz
      · exact Nat.le_of_lt hlt
      · exact Nat.le_trans (Nat.le_of_lt hlt) (hy z hz)
    · rename_i hge
      refine List.pairwise_cons.2 ⟨fun z hz => ?_, ih hys⟩
      rcases List.mem_cons.1 ((insertCand_perm x ys).mem_iff.1 hz) with rfl | hz
      · exact Nat.le_of_not_lt hge
      · exact hy z hz

theorem foldl_insertCand (l m : List Cand) :
    (l.foldl (fun m x => insertCand x m) m).Perm (m ++ l) ∧ (InOrder m → InOrder (l.foldl (fun m x => insertCand x m) m)) := by
  induction l generalizing m with
  | nil => exact ⟨by simp, fun h => h⟩
  | cons x l ih =>
    obtain ⟨hperm, horder⟩ := ih (insertCand x m)
    refine ⟨hperm.trans ?_, fun h => horder (insertCand_inOrder x h)⟩
    exact ((insertCand_perm x m).append_right l).trans List.perm_middle.symm

/-- The sort gives the same candidates, in order. -/
theorem sortCands_spec (l : List Cand) : (sortCands l).Perm l ∧ InOrder (sortCands l) := by
  obtain ⟨hperm, horder⟩ := foldl_insertCand l []
  exact ⟨hperm, horder List.Pairwise.nil⟩

/-- The lists of a bank or of a cluster leave candidates out, and keep the order of the others. -/
theorem firstOf_sublist (f : Cand → Nat) (n : Nat) (l : List Cand) : (firstOf f n l).1.Sublist l := by
  suffices h : ∀ (l m : List Cand) (k : SMap Nat), ∃ s, s.Sublist l ∧ (l.foldl (fun (a : List Cand × SMap Nat) x =>
      let k := SMap.get a.2 0 (f x)
      if n ≤ k then a else (a.1 ++ [x], SMap.insert a.2 (f x) (k + 1))) (m, k)).1 = m ++ s by
    obtain ⟨s, hs, heq⟩ := h l [] []
    exact (show (firstOf f n l).1 = s from heq) ▸ hs
  intro l
  induction l with
  | nil => exact fun m k => ⟨[], List.Sublist.refl _, by simp⟩
  | cons x l ih =>
    intro m k
    simp only [List.foldl_cons]
    split
    · obtain ⟨s, hs, heq⟩ := ih m k
      exact ⟨s, hs.cons x, heq⟩
    · obtain ⟨s, hs, heq⟩ := ih (m ++ [x]) (SMap.insert k (f x) (SMap.get k 0 (f x) + 1))
      exact ⟨x :: s, hs.cons_cons x, heq.trans (by simp)⟩

/-- The least of a list under an order. -/
theorem leastBy_spec {f : Nat → Nat} {l : List Nat} (h : l ≠ []) : ∃ c ∈ l, leastBy f l = some c ∧ ∀ d ∈ l, f c ≤ f d := by
  induction l with
  | nil => exact absurd rfl h
  | cons c cs ih =>
    unfold leastBy
    by_cases hcs : cs = []
    · subst hcs
      exact ⟨c, List.mem_cons_self, rfl, fun d hd => by rw [List.mem_singleton.1 hd]⟩
    · obtain ⟨d, hd, heq, hleast⟩ := ih hcs
      rw [heq]
      by_cases hle : f c ≤ f d
      · refine ⟨c, List.mem_cons_self, by simp [hle], fun x hx => ?_⟩
        rcases List.mem_cons.1 hx with rfl | hx
        · exact Nat.le_refl _
        · exact Nat.le_trans hle (hleast x hx)
      · refine ⟨d, List.mem_cons_of_mem c hd, by simp [hle], fun x hx => ?_⟩
        rcases List.mem_cons.1 hx with rfl | hx
        · exact Nat.le_of_not_le hle
        · exact hleast x hx

theorem leastBy_mem {f : Nat → Nat} {l : List Nat} {c : Nat} (h : leastBy f l = some c) : c ∈ l := by
  by_cases hl : l = []
  · subst hl
    cases h
  · obtain ⟨d, hd, heq, -⟩ := leastBy_spec (f := f) hl
    exact Option.some.inj (h.symm.trans heq) ▸ hd

/-! ## The scan -/

section
variable (v : View)

theorem View.scan_some {uses : SMap CoreUse} {n : Nat} {s : Slot} {x : Cand} (h : v.scan uses n s = some x) :
    x = v.candOf uses n s ∧ s.ctx.state = .pending ∧ s.ctx.poisoned = false := by
  unfold View.scan at h
  dsimp only at h
  split at h
  · cases h
  · rename_i hno
    simp only [Bool.or_eq_true, bne_iff_ne, ne_eq, not_or, not_not, Bool.not_eq_true] at hno
    exact ⟨(Option.some.inj h).symm, hno.1.1.1, hno.1.1.2⟩

/-- The candidates of a scan are those of its slots. -/
theorem View.mem_scanned {slots : SMap Slot} {x : Cand} :
    x ∈ v.scanned slots ↔ ∃ e ∈ slots, v.scan (coreUses v.img.slots) e.1 e.2 = some x :=
  (sortCands_spec _).1.mem_iff.trans List.mem_filterMap

theorem View.scanned_nodup {slots : SMap Slot} (h : (slots.map fun e => e.2.ctx.key).Nodup) :
    ((v.scanned slots).map Cand.key).Nodup := by
  have hsub : ((slots.filterMap fun e => v.scan (coreUses v.img.slots) e.1 e.2).map Cand.key).Sublist
      (slots.map fun e => e.2.ctx.key) := by
    clear h
    induction slots with
    | nil => exact List.Sublist.refl _
    | cons e slots ih =>
      cases hscan : v.scan (coreUses v.img.slots) e.1 e.2 with
      | none =>
        simp only [List.filterMap_cons, hscan, List.map_cons]
        exact ih.cons _
      | some x =>
        simp only [List.filterMap_cons, hscan]
        rw [List.map_cons, List.map_cons, (v.scan_some hscan).1]
        exact ih.cons_cons _
  exact (((sortCands_spec _).1.map Cand.key).nodup_iff).2 (h.sublist hsub)

/-- Where the slots stand once, the landing sees of a candidate of the scan what the scan saw. -/
theorem View.renew_scanned (hslots : (v.img.slots.map Prod.fst).Nodup) {x y : Cand} (hx : x ∈ v.scanned v.img.slots)
    (hy : v.renew x = some y) : y = x := by
  obtain ⟨e, he, hscan⟩ := v.mem_scanned.1 hx
  unfold View.renew at hy
  obtain ⟨hbind, -⟩ := Option.filter_eq_some_iff.1 hy
  obtain ⟨s, hfind, hagain⟩ := Option.bind_eq_some_iff.1 hbind
  have hslot : x.slot = e.1 := by rw [(v.scan_some hscan).1]; rfl
  have hmem : (x.slot, s) ∈ v.img.slots := SMap.mem_of_find? hfind
  have heq : e = (x.slot, s) := List.inj_on_of_nodup_map hslots he hmem hslot.symm
  rw [heq] at hscan
  exact Option.some.inj (hagain.symm.trans hscan)

end

/-! ## The landing -/

/-- The offer of a candidate to a core that may take it, of a vector that was not accepted as the tick opened. -/
def Cand.Lands (accOpen : List (Word × Byte)) (x : Cand) (o : Offer) : Prop :=
  o.rank = x.rank ∧ o.key = x.key ∧ o.porch ∈ x.elig ∧ ∀ a ∈ accOpen, a.1 ≠ x.key

theorem View.land_offers (v : View) (uses : SMap CoreUse) (accOpen : List (Word × Byte)) (l : Landing) (x : Cand) :
    (v.land uses accOpen l x).offers = l.offers ∨
      ∃ o, x.Lands accOpen o ∧ (v.land uses accOpen l x).offers = l.offers ++ [o] := by
  unfold View.land
  extract_lets opened freeOf backOf open_ disp cores
  split
  · exact .inl rfl
  · rename_i hnew
    split
    · exact .inl rfl
    · rename_i c hc
      refine .inr ⟨{ porch := c, rank := x.rank, key := x.key }, ⟨rfl, rfl, ?_, fun a ha heq => hnew ?_⟩, rfl⟩
      · have hmem := leastBy_mem hc
        simp only [cores] at hmem
        split at hmem
        · exact (List.mem_filter.1 hmem).1
        · exact (List.mem_filter.1 hmem).1
      · exact List.any_eq_true.2 ⟨a, ha, by simp [heq]⟩

/-- The landing takes offers for some of its candidates, in their order. -/
theorem View.foldl_land (v : View) (uses : SMap CoreUse) (accOpen : List (Word × Byte)) (xs : List Cand) (l : Landing) :
    ∃ ys os, ys.Sublist xs ∧ List.Forall₂ (Cand.Lands accOpen) ys os ∧
      (xs.foldl (fun l x => v.land uses accOpen l x) l).offers = l.offers ++ os := by
  induction xs generalizing l with
  | nil => exact ⟨[], [], List.Sublist.refl _, .nil, by simp⟩
  | cons x xs ih =>
    obtain ⟨ys, os, hsub, hlands, heq⟩ := ih (v.land uses accOpen l x)
    rcases v.land_offers uses accOpen l x with hsame | ⟨o, ho, hmore⟩
    · exact ⟨ys, os, hsub.cons x, hlands, heq.trans (by rw [hsame])⟩
    · exact ⟨x :: ys, o :: os, hsub.cons_cons x, .cons ho hlands, heq.trans (by rw [hmore]; simp)⟩

/-! ## The ranking -/

/-- A filter that gives back what it takes leaves entries out, and no more. -/
theorem filterMap_sublist {α : Type} {f : α → Option α} {l : List α} (h : ∀ x ∈ l, ∀ y, f x = some y → y = x) :
    (l.filterMap f).Sublist l := by
  induction l with
  | nil => exact List.Sublist.refl _
  | cons x l ih =>
    have hrest := ih fun y hy => h y (List.mem_cons_of_mem x hy)
    cases hx : f x with
    | none =>
      rw [List.filterMap_cons_none hx]
      exact hrest.cons x
    | some y =>
      rw [List.filterMap_cons_some hx, h x List.mem_cons_self y hx]
      exact hrest.cons_cons x

/-- The candidates that the landing gets of a scan of the whole image. -/
def View.landed (v : View) : List Cand :=
  (clusterLists (bankLists ((v.scanned v.img.slots).filter fun x => x.elig != [])).1).1.filterMap v.renew

theorem View.landed_sublist (v : View) (hslots : (v.img.slots.map Prod.fst).Nodup) : v.landed.Sublist (v.scanned v.img.slots) := by
  have hlists : (clusterLists (bankLists ((v.scanned v.img.slots).filter fun x => x.elig != [])).1).1.Sublist
      (v.scanned v.img.slots) :=
    ((firstOf_sublist _ _ _).trans (firstOf_sublist _ _ _)).trans List.filter_sublist
  exact (filterMap_sublist fun x hx y hy => v.renew_scanned hslots (hlists.subset hx) hy).trans hlists

/-- The landing before its first candidate. -/
def Landing.empty : Landing := { offers := [], free := [], backlog := [], unplaced := [], superseded := 0, displaced := [] }

theorem View.rank_offers (v : View) (accOpen : List (Word × Byte)) (cap : Nat) :
    (v.rank v.img.slots [] (fun _ => true) accOpen cap).offers =
      (v.landed.foldl (fun l x => v.land (coreUses v.img.slots) accOpen l x) Landing.empty).offers.take cap := by
  have hkeep (l : List Cand) : (l.filter fun _ => true) = l := by simp
  unfold View.rank
  dsimp only [List.foldl_nil]
  rw [hkeep]
  rfl

/-- What stands in an offer of a candidate of the scan. -/
theorem View.lands_of_scanned (v : View) {accOpen : List (Word × Byte)} {x : Cand} {o : Offer}
    (hx : x ∈ v.scanned v.img.slots) (ho : x.Lands accOpen o) :
    ∃ e ∈ v.img.slots, e.2.ctx.key = o.key ∧ e.2.ctx.state = .pending ∧ e.2.ctx.poisoned = false ∧
      o.rank = rankKey (v.isAlarm o.key) (cfgPriority e.2.ctx.cfg) e.2.ctx.arrTick o.key ∧
      o.porch ∈ v.setCores (cfgCoreset e.2.ctx.cfg) ∧ (∀ a ∈ accOpen, a.1 ≠ o.key) ∧
      v.coreEn o.porch = true ∧ (v.core o.porch).on = true ∧ (v.core o.porch).fault = false ∧
      v.seesSlice (v.isAlarm o.key) o.key o.porch = true ∧
      v.preempts (v.isAlarm o.key) (cfgPriority e.2.ctx.cfg).toNat
        (SMap.get (coreUses v.img.slots) CoreUse.none_ o.porch).rp = true := by
  obtain ⟨e, he, hscan⟩ := v.mem_scanned.1 hx
  obtain ⟨rfl, hpending, hsound⟩ := v.scan_some hscan
  obtain ⟨hrank, hkey, hporch, hnew⟩ := ho
  have hkey' : e.2.ctx.key = o.key := hkey.symm
  obtain ⟨hset, hserves⟩ := List.mem_filter.1 hporch
  simp only [View.serves, Bool.and_eq_true, Bool.not_eq_true'] at hserves
  obtain ⟨-, ⟨⟨⟨hen, hon⟩, hfault⟩, hsees⟩, hpre⟩ := hserves
  rw [hkey'] at hsees hpre
  refine ⟨e, he, hkey', hpending, hsound, ?_, hset, fun a ha => hkey ▸ hnew a ha, hen, hon, hfault, hsees, hpre⟩
  rw [← hkey']
  exact hrank

/-- The offers of a ranking: the first ones of those that the landing took, each for a candidate of the scan. -/
theorem View.rank_spec (v : View) (accOpen : List (Word × Byte)) (cap : Nat) (hslots : (v.img.slots.map Prod.fst).Nodup) :
    ∃ ys os, ys.Sublist (v.scanned v.img.slots) ∧ List.Forall₂ (Cand.Lands accOpen) ys os ∧
      (v.rank v.img.slots [] (fun _ => true) accOpen cap).offers = os.take cap := by
  obtain ⟨ys, os, hsub, hlands, heq⟩ := v.foldl_land (coreUses v.img.slots) accOpen v.landed Landing.empty
  exact ⟨ys, os, hsub.trans (v.landed_sublist hslots), hlands, (v.rank_offers accOpen cap).trans (by rw [heq]; rfl)⟩

theorem Lands.maps {accOpen : List (Word × Byte)} {ys : List Cand} {os : List Offer} (h : List.Forall₂ (Cand.Lands accOpen) ys os) :
    os.map Offer.rank = ys.map Cand.rank ∧ os.map Offer.key = ys.map Cand.key := by
  induction h with
  | nil => exact ⟨rfl, rfl⟩
  | cons ho _ ih => exact ⟨congrArg₂ List.cons ho.1 ih.1, congrArg₂ List.cons ho.2.1 ih.2⟩

theorem Lands.of_mem {accOpen : List (Word × Byte)} {ys : List Cand} {os : List Offer} (h : List.Forall₂ (Cand.Lands accOpen) ys os)
    {o : Offer} (ho : o ∈ os) : ∃ x ∈ ys, x.Lands accOpen o := by
  induction h with
  | nil => cases ho
  | cons hfirst _ ih =>
    rcases List.mem_cons.1 ho with rfl | ho
    · exact ⟨_, List.mem_cons_self, hfirst⟩
    · obtain ⟨x, hx, hland⟩ := ih ho
      exact ⟨x, List.mem_cons_of_mem _ hx, hland⟩

/-! ## A single candidate -/

/-- R97, R101: with nothing presented and nothing landed before it every core of the candidate has a free slot. -/
theorem View.land_alone (v : View) {x : Cand} {c : Nat} (helig : x.elig ≠ [])
    (hleast : leastBy (fun c => v.order x 0 c) x.elig = some c) :
    (v.land [] [] Landing.empty x).offers = [{ porch := c, rank := x.rank, key := x.key }] := by
  unfold View.land
  extract_lets opened freeOf backOf open_ disp cores
  have hfree (c : Nat) : freeOf c = 4 := rfl
  have hback (c : Nat) : backOf c = 0 := rfl
  have hopen : open_ = x.elig := List.filter_eq_self.2 fun c _ => by rw [hfree]; rfl
  have hdisp : disp = false := by
    have hne : (x.elig == []) = false := beq_eq_false_iff_ne.2 helig
    simp only [disp, hopen, hne, Bool.false_and]
  have hcores : cores = x.elig := by
    simp only [cores, hdisp, Bool.false_eq_true, ↓reduceIte, hopen]
  rw [if_neg (by simp)]
  simp only [hback, hcores, hleast]
  rfl

theorem View.rank_of_one {v : View} {n : Nat} {sl : Slot} {x : Cand} (hslots : v.img.slots = [(n, sl)])
    (hscan : v.scan (coreUses v.img.slots) n sl = some x) (helig : x.elig ≠ []) {cap : Nat} (hcap : 0 < cap) :
    ∃ c ∈ x.elig, (v.rank v.img.slots [] (fun _ => true) [] cap).offers = [{ porch := c, rank := x.rank, key := x.key }] ∧
      ∀ d ∈ x.elig, v.order x 0 c ≤ v.order x 0 d := by
  have huses : coreUses v.img.slots = [] := by
    rw [hslots]
    simp [coreUses, (v.scan_some hscan).2.1]
  have hscanned : v.scanned v.img.slots = [x] := by
    rw [huses] at hscan
    unfold View.scanned
    rw [huses, hslots]
    simp [hscan, sortCands, insertCand]
  have hslot : x.slot = n := by rw [(v.scan_some hscan).1]; rfl
  have hrenew : v.renew x = some x := by
    rw [huses] at hscan
    unfold View.renew
    rw [huses, hslots, hslot]
    simp [SMap.find?, hscan, helig]
  have hlanded : v.landed = [x] := by
    unfold View.landed
    rw [hscanned]
    simp [helig, bankLists, clusterLists, firstOf, hrenew]
  obtain ⟨c, hc, hleast, hmin⟩ := leastBy_spec (f := fun c => v.order x 0 c) helig
  refine ⟨c, hc, ?_, hmin⟩
  rw [v.rank_offers, hlanded, huses, List.foldl_cons, List.foldl_nil, v.land_alone helig hleast]
  exact List.take_of_length_le hcap

end Sys2Proof.Machine
end

section
/-! What a release sends to the porches (R14, R119, R120, R231). -/

namespace Sys2Proof.Machine

/-- The beats of a release to porch `p`: its header, then its offers. -/
def Wing.releaseBeats (w : Wing) (img : RankImg) (os : List Offer) (p : Byte) : List Out :=
  .w2p w.id p 1 (releaseHdr w.ctl.claim (w.commitFor p.toNat)
      (BitVec.ofNat 9 (SMap.get (coreUses img.slots) CoreUse.none_ p.toNat).rp)
      (((w.view img).eff oHallCtrl).extractLsb' 0 3) ((w.view img).coreEn p.toNat) (BitVec.ofNat 3 os.length) w.now) ::
    os.map fun o => .w2p w.id p 2 (o.rank.setWidth 128)

/-- A wing drives `l` and changes nothing. -/
def Wing.driving (w : Wing) (l : List Out) : Wing := { w with out := w.out ++ l }

theorem Wing.driving_driving (w : Wing) (k l : List Out) : (w.driving k).driving l = w.driving (k ++ l) := by
  unfold Wing.driving
  rw [List.append_assoc]

theorem Wing.foldl_emit (w : Wing) (p : Byte) (os : List Offer) :
    os.foldl (fun w o => w.emit (.w2p w.id p 2 (o.rank.setWidth 128))) w =
      w.driving (os.map fun o => .w2p w.id p 2 (o.rank.setWidth 128)) := by
  induction os generalizing w with
  | nil =>
    unfold Wing.driving
    rw [List.map_nil, List.append_nil]
    rfl
  | cons o os ih =>
    rw [List.foldl_cons, ih, List.map_cons]
    exact Wing.driving_driving w [_] _

theorem Wing.releaseTo_eq (w : Wing) (img : RankImg) (os : List Offer) (p : Byte) :
    w.releaseTo img os p = w.driving (w.releaseBeats img os p) := by
  unfold Wing.releaseTo
  extract_lets v uses rp shift w1
  rw [Wing.foldl_emit]
  exact Wing.driving_driving w [_] _

theorem Wing.foldl_releaseTo (w : Wing) (img : RankImg) (mine : Byte → List Offer) (ps : List Byte) :
    ps.foldl (fun w p => w.releaseTo img (mine p) p) w = w.driving (ps.flatMap fun p => w.releaseBeats img (mine p) p) := by
  induction ps generalizing w with
  | nil =>
    unfold Wing.driving
    rw [List.flatMap_nil, List.append_nil]
    rfl
  | cons p ps ih =>
    rw [List.foldl_cons, ih, Wing.releaseTo_eq, List.flatMap_cons]
    exact Wing.driving_driving w _ _

/-- The offers of a ranking to porch `p`. -/
def Ranking.offersTo (r : Ranking) (p : Byte) : List Offer := r.offers.filter fun o => o.porch == p.toNat

/-- The offers that a release keeps until they are answered. -/
def Ranking.kept (r : Ranking) (ps : List Byte) : SMap (List (BitVec 97)) :=
  ps.foldl (fun m p => SMap.insert m p.toNat ((r.offersTo p).map fun o => o.rank)) []

theorem Ranking.find?_kept (r : Ranking) {ps : List Byte} {p : Byte} (hp : p ∈ ps) :
    SMap.find? (r.kept ps) p.toNat = some ((r.offersTo p).map fun o => o.rank) := by
  have hstays : ∀ (qs : List Byte) (m : SMap (List (BitVec 97))),
      p ∈ qs ∨ SMap.find? m p.toNat = some ((r.offersTo p).map fun o => o.rank) →
      SMap.find? (qs.foldl (fun m p => SMap.insert m p.toNat ((r.offersTo p).map fun o => o.rank)) m) p.toNat =
        some ((r.offersTo p).map fun o => o.rank) := by
    intro qs
    induction qs with
    | nil => exact fun m h => h.resolve_left List.not_mem_nil
    | cons q qs ih =>
      intro m h
      refine ih _ ?_
      by_cases hq : p = q
      · exact .inr (by rw [← hq, SMap.find?_insert_self])
      · refine h.imp (fun hmem => (List.mem_cons.1 hmem).resolve_left hq) fun hfind => ?_
        rw [SMap.find?_insert_ne _ _ fun heq => hq (BitVec.eq_of_toNat_eq heq), hfind]
  exact hstays ps [] (.inl hp)

/-- What a release leaves. -/
theorem Wing.release_spec (w : Wing) (img : RankImg) (r : Ranking) :
    (w.release img r).out = w.out ++ w.upPorches.flatMap (fun p => w.releaseBeats img (r.offersTo p) p) ∧
      (w.release img r).hall.offered = r.kept w.upPorches ∧
      (w.release img r).psg.accOwed = ((r.kept w.upPorches).map fun e => e.2.length).sum ∧
      (w.release img r).ctr cOffers = w.ctr cOffers + BitVec.ofNat 64 ((r.kept w.upPorches).map fun e => e.2.length).sum ∧
      (w.release img r).ctl.prov = w.ctl.prov.map (fun p => { p with releases := p.releases + 1 }) ∧
      (w.release img r).pan = w.pan ∧ (w.release img r).vst = w.vst := by
  unfold Wing.release
  extract_lets up mine w1 offered n w2 hall1 psg1 ctl1
  have h1 : w1 = w.driving (up.flatMap fun p => w.releaseBeats img (r.offersTo p) p) := w.foldl_releaseTo img mine up
  have hctr : w2.ctr cOffers = w.ctr cOffers + BitVec.ofNat 64 n := by
    simp only [w2]
    rw [Wing.ctr_countN, h1]
    rfl
  have hkeep : w2.out = w1.out ∧ w2.ctl = w1.ctl ∧ w2.pan = w1.pan ∧ w2.vst = w1.vst := by simp [w2]
  obtain ⟨hout, hctl, hpan, hvst⟩ := hkeep
  rw [h1] at hout hctl hpan hvst
  exact ⟨hout, rfl, rfl, hctr, congrArg (fun c => c.prov.map fun p => { p with releases := p.releases + 1 }) hctl, hpan, hvst⟩

end Sys2Proof.Machine

namespace Sys2Proof
open Machine

/-- Settles O10: the offers are those of the landing, each for a candidate of the scan (`View.rank_spec`), and a release sends them
to the porches that are up (`Wing.release_spec`). -/
theorem rankingAndRelease : Obligations.RankingAndRelease := by
  unfold Obligations.RankingAndRelease
  refine ⟨fun v cap accOpen r hr hslots hkeys => ?_, fun v u img r hu => ?_⟩
  · subst hr
    obtain ⟨ys, os, hsub, hlands, heq⟩ := v.rank_spec accOpen cap hslots
    obtain ⟨hranks, hnames⟩ := Lands.maps hlands
    refine ⟨?_, ?_, ?_, fun o ho => ?_, fun n sl x hone hscan helig hnone hcap => ?_⟩
    · rw [heq]
      exact List.length_take_le _ _
    · have horder : (os.map Offer.rank).Pairwise fun a b => a.toNat ≤ b.toNat := by
        rw [hranks]
        exact List.pairwise_map.2 ((sortCands_spec _).2.sublist hsub)
      rw [heq]
      exact (List.pairwise_map.1 horder).sublist (List.take_sublist _ _)
    · have hnodup : (os.map Offer.key).Nodup := by
        rw [hnames]
        exact (v.scanned_nodup hkeys).sublist (hsub.map _)
      rw [heq]
      exact hnodup.sublist ((List.take_sublist _ _).map _)
    · rw [heq] at ho
      obtain ⟨x, hx, hland⟩ := Lands.of_mem hlands (List.mem_of_mem_take ho)
      exact v.lands_of_scanned (hsub.subset hx) hland
    · subst hnone
      exact View.rank_of_one hone hscan helig hcap
  · subst hu
    obtain ⟨hout, hoffered, howed, hctr, hprov, hpan, hvst⟩ := v.release_spec img r
    refine ⟨fun p hp => ?_, fun p hp => ?_, ?_, ?_, hprov, hpan, hvst, fun hnone => ?_⟩
    · obtain ⟨before, after, heq⟩ := List.append_of_mem hp
      refine ⟨v.out ++ before.flatMap (fun p => v.releaseBeats img (r.offersTo p) p),
        after.flatMap (fun p => v.releaseBeats img (r.offersTo p) p), ?_⟩
      rw [hout, heq, List.flatMap_append, List.flatMap_cons, ← List.append_assoc, ← List.append_assoc]
      rfl
    · rw [hoffered]
      exact r.find?_kept hp
    · rw [howed, hoffered]
    · rw [hctr, howed]
    · rw [hout, hnone, List.flatMap_nil, List.append_nil]

end Sys2Proof
end

section
/-! A START that waits in a wing on its way to sleep (R300, R301, R304). -/

namespace Sys2Proof.Machine

/-- R300, R301: a write that waits, other than one of PWR_VOTE, is a wake source. -/
theorem Wing.portTake_of_sleeping {w : Wing} {a : RegAccess} (hsleep : w.portSleeps = true) (hvote : isVoteWrite a = false) :
    w.portTake true a =
      ({ w with regs := { w.regs with portQueue := w.regs.portQueue ++ [(true, a)] } } : Wing).wake
        { source := 0x6, detail := a.req.setWidth 12 } := by
  have hblock : w.portBlocked true a = true := by simp [Wing.portBlocked, hsleep, hvote]
  have hlife : (w.life = .napEntry ∨ w.life = .nap) ∨ w.life = .deepEntry := by simpa [Wing.portSleeps] using hsleep
  unfold Wing.portTake
  rcases hlife with (h | h) | h <;> simp [h, hblock, hvote]

/-- R304: a wing on its way to Nap keeps the first wake and counts it. -/
theorem Wing.wake_entering {w : Wing} (hlife : w.life = .napEntry) (hsched : w.pwr.sched = none) (hpend : w.pwr.pendWake = none)
    (c : WakeCause) : (w.wake c).ctr cWakeDuringEntry = w.ctr cWakeDuringEntry + 1 := by
  have hwake : w.wake c = w.keepWake true c := by
    unfold Wing.wake
    simp [hsched, hlife]
  rw [hwake, Wing.keepWake_first hpend]
  exact Wing.ctr_count_self { w with pwr := { w.pwr with pendWake := some (true, c) } } cWakeDuringEntry

/-- The write of START. -/
def startWrite (req : Byte) (save : Option SaveArea) : RegAccess :=
  { alias_ := false, addr := BitVec.ofNat 16 oWingCtrl, data := 1, strb := 0x0F, req := req, save := save }

theorem stepsWing_start (s : State) (w : WingId) (req : Byte) (save : Option SaveArea) :
    StepsWing (.start w req save) s w fun v => v.portTake true (startWrite req save) := stepsWing rfl

/-- A START that waits counts a wake in a wing on its way to Nap. -/
theorem Wing.start_entering {w : Wing} (hlife : w.life = .napEntry) (hsched : w.pwr.sched = none) (hpend : w.pwr.pendWake = none) :
    (w.portTake true (startWrite 0 none)).ctr cWakeDuringEntry = w.ctr cWakeDuringEntry + 1 := by
  rw [Wing.portTake_of_sleeping (by simp [Wing.portSleeps, hlife]) (by decide)]
  exact Wing.wake_entering (w := { w with regs := { w.regs with portQueue := w.regs.portQueue ++ [(true, startWrite 0 none)] } })
    hlife hsched hpend _

/-- A wing with its key that is on its way to Nap. -/
def onItsWayToNap : Wing := { Wing.reset .east with life := .napEntry, keyValid := true }

end Sys2Proof.Machine

namespace Sys2Proof
open Machine

/-- Refutes O7: a START that waits is a wake source, which a wing on its way to Nap counts in its wakes during an entry, so its queue is
not all of the registers that differs. -/
theorem not_resetAndBringUp : ¬ Obligations.ResetAndBringUp := by
  unfold Obligations.ResetAndBringUp
  rintro ⟨-, hstart⟩
  obtain ⟨-, -, hwaits, -⟩ := hstart { State.reset with east := onItsWayToNap } .east 0
  obtain ⟨t, a, ht, -, -, hregs⟩ := hwaits none (by decide +kernel)
  obtain ⟨t', ht', -, hwing, -⟩ :=
    (stepsWing_start { State.reset with east := onItsWayToNap } .east 0 none).leaves rfl
  have hsame : t = t' := Host.Outcome.next.inj (ht.symm.trans ht')
  have hstands : (t.wing .east).ctr cWakeDuringEntry = onItsWayToNap.ctr cWakeDuringEntry :=
    (congrArg (fun r : Regs => SMap.get r.ctr 0 cWakeDuringEntry) hregs).trans rfl
  have hcounts : (t.wing .east).ctr cWakeDuringEntry = onItsWayToNap.ctr cWakeDuringEntry + 1 := by
    rw [hsame, hwing]
    exact Wing.start_entering (w := onItsWayToNap) rfl rfl rfl
  rw [hcounts] at hstands
  exact absurd hstands (by decide +kernel)

end Sys2Proof
end
